-- ==== Sys2Proof/Word.lean ====
section
/-! DEFINITION. Sys2Proof/Word.lean: the word types, the names of the planes and hubs, and the three plain containers
the state is written with (a sorted association list, a value per plane, a value per hub). -/

namespace Sys2Proof

/-- A byte of a frame, an image or a memory. -/
abbrev Byte := BitVec 8
/-- A register is 32 bits wide (Register conventions). -/
abbrev Word := BitVec 32
/-- A 64-bit register of a collective core. -/
abbrev Dword := BitVec 64
/-- The 256-byte payload of a cell (Table 0.2). -/
abbrev Payload := BitVec 2048
/-- A 128-byte vector register of a collective core, or a 128-byte record. -/
abbrev Vec := BitVec 1024

/-- One of the four planes (Table 0.2). -/
abbrev PlaneId := Fin 4
/-- One of the 128 lane positions or ports of a plane. -/
abbrev PortId := Fin 128
/-- One of the 17 tumbler slice positions of a plane. -/
abbrev SliceId := Fin 17
/-- One of the 16 collective cores of a plane. -/
abbrev CoreId := Fin 16

/-- Hub A or Hub B (R18). -/
inductive HubId where
  | a | b
  deriving DecidableEq, Repr

/-- The hub's number: 0 for Hub A, 1 for Hub B (Table 13.4). -/
def HubId.num : HubId → Nat
  | .a => 0
  | .b => 1

/-- The other hub. -/
def HubId.other : HubId → HubId
  | .a => .b
  | .b => .a

/-- A finite map as plain data: pairs with strictly rising keys. -/
abbrev SMap (α : Type) := List (Nat × α)

/-- One value for each plane. -/
structure Quad (α : Type) where
  p0 : α
  p1 : α
  p2 : α
  p3 : α
  deriving DecidableEq, Repr

/-- The value of plane `p`. -/
def Quad.get {α : Type} (q : Quad α) (p : PlaneId) : α :=
  match p with
  | 0 => q.p0
  | 1 => q.p1
  | 2 => q.p2
  | 3 => q.p3

/-- Replace the value of plane `p`. -/
def Quad.set {α : Type} (q : Quad α) (p : PlaneId) (x : α) : Quad α :=
  match p with
  | 0 => { q with p0 := x }
  | 1 => { q with p1 := x }
  | 2 => { q with p2 := x }
  | 3 => { q with p3 := x }

/-- The same value for every plane. -/
def Quad.const {α : Type} (x : α) : Quad α := ⟨x, x, x, x⟩

/-- One value for each hub. -/
structure Pair (α : Type) where
  a : α
  b : α
  deriving DecidableEq, Repr

/-- The value of hub `h`. -/
def Pair.get {α : Type} (q : Pair α) (h : HubId) : α :=
  match h with
  | .a => q.a
  | .b => q.b

/-- Replace the value of hub `h`. -/
def Pair.set {α : Type} (q : Pair α) (h : HubId) (x : α) : Pair α :=
  match h with
  | .a => { q with a := x }
  | .b => { q with b := x }

end Sys2Proof
end

