-- ==== Sys2Proof/Syntax.lean ====
section
/-! DEFINITION. Sys2Proof/Syntax.lean: the commands of the block, one constructor per row of the table of operations
and events, with what each carries from outside. -/

namespace Sys2Proof

/-- Who makes a register access (R61, R64, R374): a host through the port of a hub, a management core of a hub or of a
plane, or a collective core. -/
inductive Accessor where
  | host (h : HubId)
  | hubCore (h : HubId)
  | planeCore (p : PlaneId)
  | cc (p : PlaneId) (n : CoreId)
  deriving DecidableEq, Repr

/-- The clock whose beat begins (R71, R373, R419): of a plane, of a hub, or of the power controller. -/
inductive Clock where
  | plane (p : PlaneId)
  | hub (h : HubId)
  | power
  deriving DecidableEq, Repr

/-- One of the two feeds (R419). -/
inductive FeedId where
  | a | b
  deriving DecidableEq, Repr

/-- The fault classes of Table 14.1. -/
inductive FaultClass where
  | none | c | u | f
  deriving DecidableEq, Repr

/-- Where a TSYNC stream, or its echo, reaches a plane from: a port, or the relay of a hub with the sibling plane at its other end (R78). -/
inductive TimeSource where
  | port (n : PortId)
  | relay (h : HubId) (q : PlaneId)
  deriving DecidableEq, Repr

/-- A control cell of the time distribution (Table 3.1). Times are in 1/64 beat. -/
structure TsyncMsg where
  echo : Bool
  seq : Nat
  state : Nat
  depth : Nat
  tTx : Nat
  tRxPrev : Nat
  deriving DecidableEq, Repr

/-- An IEEE 1588 message of a master clock (R70): its identity, its sequence number, and times in seconds and
nanoseconds. An announce carries the master's data set as one number, the smaller the better, which is what the comparison of data sets
of IEEE 1588 orders masters by. A one-step sync carries its origin time. -/
inductive PtpMsg where
  | announce (master rank : Nat)
  | sync (master seq : Nat) (origin : Option (Nat × Nat))
  | followUp (master seq sec ns : Nat)
  | delayResp (master seq sec ns : Nat)
  deriving DecidableEq, Repr

/-- A configuration request that changes the PCI Express function (R367 to R369, R372). -/
inductive CfgWrite where
  | busMaster (on : Bool)
  | powerState (d3hot : Bool)
  | msixEnable (on : Bool)
  | msixEntry (i : Fin 256) (addr : Dword) (data : Word) (masked : Bool)
  | dword (reg : Fin 1024) (v : Word)
  deriving DecidableEq, Repr

/-- A frame received on a service port, as R387 tells frames apart. -/
inductive SvcFrame where
  /-- An IEEE 1588 message. -/
  | ptp (data : List Byte)
  /-- A RoCE v2 packet (UDP port 4791) to an IPv4 address. -/
  | roce (ip : Word) (data : List Byte)
  /-- A priority flow control frame with its pause time. -/
  | pfc (quanta : Nat)
  /-- Any other frame: its destination MAC address and its bytes. -/
  | other (dst : BitVec 48) (data : List Byte)
  deriving DecidableEq, Repr

/-- The operation of a RoCE v2 request (R388). -/
inductive RdmaOp where
  | write (data : List Byte)
  | read (len : Nat)
  | other
  deriving DecidableEq, Repr

/-- Where a copy of a result goes: an output port, an endpoint, or an address in memory (R163, R178, R179). `nth` tells further copies
to one endpoint or address apart (R214). -/
inductive CopyDst where
  | port (n : Nat)
  | endpoint (ep : Nat) (nth : Nat := 0)
  | mem (addr : Nat) (nth : Nat := 0)
  deriving DecidableEq, Repr

/-- A register, by its BAR0 offset (R43), or in the window of a mailbox channel (R380). -/
inductive RegTarget where
  | bar0 (a : Word)
  | chan (c : Fin 256) (off : Fin 2048)
  deriving DecidableEq, Repr

/-- The six shaper registers, of the selected queue and of its port (R362). -/
inductive ShaperReg where
  | queueCfg | queueRate | queueBurst | portCfg | portRate | portBurst
  deriving DecidableEq, Repr

/-- A site with management cores: a plane, or a hub (R442). -/
inductive MgcSite where
  | plane (p : PlaneId)
  | hub (h : HubId)
  deriving DecidableEq, Repr

/-- The commands of the block: one constructor per row of the table of operations and events. -/
inductive Instr where
  /-- REG_WRITE (R52): A 32-bit write to a register that has no row of its own is checked against the rejection conditions, then accepted whole or rejected whole. -/
  | regWrite (acc : Accessor) (t : RegTarget) (be : BitVec 4) (v : Word)
  /-- BLK_ENABLE (R46): A write of BLK_CTRL.EN enables or disables the block's function. -/
  | blkEnable (acc : Accessor) (u : Nat) (pg : Nat) (en : Bool)
  /-- LOCK (R54): A write of 1 to BLK_CTRL.LOCK locks the block's RWL fields until the block is reset. -/
  | lock (acc : Accessor) (u : Nat) (pg : Nat) (en : Bool)
  /-- SRST (R55): A write of 1 to BLK_CTRL.SRST starts a soft reset of the block, unless the write is rejected with STATE. -/
  | srst (acc : Accessor) (u : Nat) (pg : Nat) (v : Word)
  /-- SOFT_RESET_DONE (R55): The soft reset completes, within 1,650 beats, with fields at their reset values except those kept, and RST_BUSY clears. -/
  | softResetDone (u : Nat)
  /-- REJ (R46): A write of 1 to BLK_STAT.REJ clears REJ together with REJ_CODE, REJ_OFF and REJ_CNT. -/
  | rej (acc : Accessor) (u : Nat) (pg : Nat) (v : Word)
  /-- IRQ_STAT (R51): A write of 1 clears latched interrupt bits, but a bit whose condition is present and enabled in that beat stays set. -/
  | irqStat (acc : Accessor) (u : Nat) (pg : Nat) (v : Word)
  /-- ACK (R47): A write of ACK to BLK_ERR_CLASS acknowledges the logged fault and clears CLASS, OVF and SOURCE. -/
  | ack (acc : Accessor) (u : Nat) (pg : Nat) (v : Word)
  /-- GO (R417): A write of GO to BLK_ERR_INJ injects one fault of the given source and class in test mode, and is rejected with STATE outside test mode. -/
  | go (acc : Accessor) (u : Nat) (pg : Nat) (v : Word)
  /-- FENCE_REQ (R49): A write of FENCE_REQ closes the block's hasp as the fence action of its unit states. -/
  | fenceReq (acc : Accessor) (u : Nat) (pg : Nat) (v : Word)
  /-- BEAT (R71): At the start of each beat of a plane in LOCKED or HOLDOVER, FT advances by one, together with the per-beat work of the plane. -/
  | beat (c : Clock)
  /-- ACLK_SET (R31): A write of PLN_CFG.ACLK_SET is accepted only in ADAPTIVE, and a new value starts a relock. -/
  | aclkSet (acc : Accessor) (p : PlaneId) (v : Word)
  /-- CLKCHG_ENTER (R32): Once every cell covered by granted credits is in the scratchpad, the plane sets STATE to CLKCHG and changes ACLK. -/
  | clkchgEnter (p : PlaneId)
  /-- RELOCK_DONE (R32): The relock completes and the plane returns to ADAPTIVE, within 330,000 beats of the write. -/
  | relockDone (p : PlaneId)
  /-- EN (R33): A write of HUB_LINKp_CTL.EN = 0 closes the hub link to plane p and sets CLOSED, and a write of EN = 1 while closed is rejected. -/
  | linkEn (acc : Accessor) (h : HubId) (p : PlaneId) (v : Word)
  /-- TIMEREF_CHANGE (R68): TIMEREF_10M enters or leaves the accepted frequency range, or stays absent for 16,500 beats, and REF_OK changes. -/
  | timerefChange (h : HubId) (present : Bool) (ppb : Int) (beats : Nat)
  /-- PPS_EDGE (R69): A rising edge on PPS_IN is counted or rejected, and a counted edge can load the master's seed. -/
  | ppsEdge (h : HubId) (high : Nat) (sub : Fin 64)
  /-- PTP_MESSAGE (R70): An IEEE 1588 message received on the service port is processed by the hub's slave-only ordinary clock. -/
  | ptpMessage (h : HubId) (domain : Byte) (eth : Bool) (msg : PtpMsg)
  /-- CAP (R73): A write of 1 to FTM_CAP.CAP captures the FT of the beat of the write into FTM_CAP_LO and FTM_CAP_HI. -/
  | cap (acc : Accessor) (p : PlaneId) (v : Word)
  /-- FTM_SEED_HI (R72): A write of FTM_SEED_HI completes a seed, which the master loads into FT at the next counted PPS edge. -/
  | ftmSeedHi (acc : Accessor) (p : PlaneId) (v : Word)
  /-- HOLD_LIMIT (R86): A write of HOLD_LIMIT applies at once to a plane in HOLDOVER, which enters FREE in the next beat when the new limit is already exceeded. -/
  | holdLimit (acc : Accessor) (p : PlaneId) (v : Word)
  /-- TSYNC_SEND (R74): Every 65,536 beats a LOCKED or HOLDOVER plane sends a TSYNC on every port whose link is up. -/
  | tsyncSend (p : PlaneId) (sub : Fin 64)
  /-- TSYNC_RECEIVE (R74): A received TSYNC is timestamped and answered with TSYNC_ECHO on the same port. -/
  | tsyncReceive (p : PlaneId) (src : TimeSource) (msg : TsyncMsg) (sub : Fin 64) (echoSub : Fin 64)
  /-- TSYNC_ECHO_RECEIVE (R75): A received TSYNC_ECHO completes an exchange from which the slave measures its offset and updates its lock state. -/
  | tsyncEchoReceive (p : PlaneId) (src : TimeSource) (msg : TsyncMsg) (sub : Fin 64)
  /-- PHASE_STEP (R76): Every 1,024 beats a plane makes at most one fabric clock phase step of 1/64 beat. -/
  | phaseStep (p : PlaneId)
  /-- FREQ_LOCK (R79): The clocks frequency-lock to the source and the FTM goes from ACQUIRE to FREQ. -/
  | freqLock (p : PlaneId)
  /-- TSYNC_TIMEOUT (R79): No valid TSYNC arrives for 196,608 beats and a LOCKED slave enters HOLDOVER. -/
  | tsyncTimeout (p : PlaneId)
  /-- HOLDOVER_EXPIRE (R79): A slave that has been in HOLDOVER for HOLD_LIMIT × 65,536 beats enters FREE and reports FT_LOST. -/
  | holdoverExpire (p : PlaneId)
  /-- PPS_OUT_RISE (R85): PPS_OUT rises at each FT that is a multiple of 1,650,000,000 on the named plane. -/
  | ppsOutRise
  /-- PPS_OUT_FALL (R85): PPS_OUT falls 165,000 beats after it rose. -/
  | ppsOutFall
  /-- ARM (R90): A write of ENT_CTRL.ARM arms a latch entry with the configuration that the same write carries and enters WAIT_LOCAL. -/
  | arm (acc : Accessor) (p : PlaneId) (e : Fin 64) (v : Word)
  /-- ARRIVE (R90): A write of ENT_CTRL.ARRIVE adds one local arrival, and the entry sends or counts its ARRIVE once LOCAL_N is reached. -/
  | arrive (acc : Accessor) (p : PlaneId) (e : Fin 64) (v : Word)
  /-- ABORT (R93): A write of ENT_CTRL.ABORT aborts a non-terminal entry and sends ABORT to the root or the counted participants. -/
  | abort (acc : Accessor) (p : PlaneId) (e : Fin 64) (v : Word)
  /-- LATCH_ARRIVE_MSG (R91): A root receives an ARRIVE message and counts the participant once, or discards or answers the message. -/
  | latchArriveMsg (p : PlaneId) (d : Payload)
  /-- LATCH_STRIKE_MSG (R92): A participant receives STRIKE and becomes STRUCK, or MISSED when it arrives too late. -/
  | latchStrikeMsg (p : PlaneId) (d : Payload)
  /-- LATCH_ABORT_MSG (R93): A latch entry receives ABORT and becomes ABORTED unless it is already STRUCK. -/
  | latchAbortMsg (p : PlaneId) (d : Payload)
  /-- LATCH_MISSED_MSG (R93): A root receives MISSED, sets ENT_STAT.MISS and increments MISSED_CNT. -/
  | latchMissedMsg (p : PlaneId) (d : Payload)
  /-- LATCH_ARRIVE_RESEND (R90): Every 65,536 beats a non-root entry resends ARRIVE until it receives STRIKE or ABORT. -/
  | latchArriveResend (p : PlaneId) (e : Fin 64)
  /-- LATCH_RELEASE (R93): At the start of beat S a STRUCK entry becomes RELEASED and performs ACT_SYNC, ACT_KEY and ACT_IRQ. -/
  | latchRelease (p : PlaneId) (e : Fin 64)
  /-- LATCH_TIMEOUT (R93): The deadline passes before the entry is STRUCK, and the entry enters TIMEOUT and a root sends ABORT. -/
  | latchTimeout (p : PlaneId) (e : Fin 64)
  /-- LOAD (R114): CMD = LOAD starts copying and checking a key image into the standby bank, which becomes LOADING. -/
  | load (acc : Accessor) (p : PlaneId) (v : Word)
  /-- KEY_LOAD_DONE (R116): Loading ends and the bank becomes LOADED, or REJECTED with the first failed check. -/
  | keyLoadDone (p : PlaneId)
  /-- KEY_ARM (R118): CMD = ARM arms the standby key with a start FT or a latch entry after the arm-time checks. -/
  | keyArm (acc : Accessor) (p : PlaneId) (v : Word)
  /-- RESUME (R127): CMD = RESUME re-arms the paused key in the active bank with a new start FT. -/
  | resume (acc : Accessor) (p : PlaneId) (v : Word)
  /-- PAUSE (R127): CMD = PAUSE sets the FT at or after which the running key pauses at a line boundary. -/
  | pause (acc : Accessor) (p : PlaneId) (v : Word)
  /-- STOP (R128): CMD = STOP ends the running key at the next line boundary without saving contexts. -/
  | stop (acc : Accessor) (p : PlaneId) (v : Word)
  /-- DISCARD (R128): CMD = DISCARD empties the standby bank and frees its patterns. -/
  | discard (acc : Accessor) (p : PlaneId) (v : Word)
  /-- KEY_START (R121): At the start of beat S an ARMED key becomes RUNNING, the active bank changes and STATE becomes SCHEDULED. -/
  | keyStart (p : PlaneId)
  /-- KEY_SWAP_LATE (R126): At S2 the active key has not reached its END, so the standby key is rejected with LATE. -/
  | keySwapLate (p : PlaneId)
  /-- KEY_SLOT (R98): In each slot of a running key, the line's pattern, slice, memory and sync-object operations take effect at fixed offsets. -/
  | keySlot (p : PlaneId)
  /-- REFRESH_DEADLINE (R112): A channel in MEM_MAP reaches its refresh deadline without a key REFRESH, and the controller forces a round and ends the key with REFRESH_MISS. -/
  | refreshDeadline (p : PlaneId) (t : Fin 7)
  /-- KEY_END (R122): The key ends at the point that its end code gives in Table 4.10, and the bank becomes DONE or PAUSED. -/
  | keyEnd (p : PlaneId)
  /-- TMB_FAIL (R123): A slice's continuous checks find it failed, the slice is fenced and the spare stands in from the next slot. -/
  | tmbFail (p : PlaneId) (n : SliceId)
  /-- SPARE_ACTIVATE (R123): A STANDIN spare becomes ACTIVE in its own position once no context of the failed position remains bound and no key naming it is armed, running or paused. -/
  | spareActivate (p : PlaneId) (n : SliceId)
  /-- TMB_ACC_SEL_GO (R158): A GO write to TMB_ACC_SEL captures one element's accumulator state into the inspection registers. -/
  | tmbAccSelGo (acc : Accessor) (p : PlaneId) (n : SliceId) (v : Word)
  /-- CONTRIB_FRAME (R161): An adaptive contribution frame arrives, its head cell is checked, and it is placed in staging or discarded. -/
  | contribFrame (p : PlaneId) (ep : Fin 65536) (addr : BitVec 48) (cells : List (BitVec 64 × Payload))
  /-- CHUNK_CLOSE_BEGIN (R213): After CCLOSE and once every earlier feed is accumulated, closing of the chunk begins. -/
  | chunkCloseBegin (p : PlaneId) (pos : SliceId) (c : Fin 16)
  /-- CHUNK_CLOSE_END (R162): The slot in which closing ends is over, and the chunk goes to SENDING, REPAIR or FAILED. -/
  | chunkCloseEnd (p : PlaneId) (pos : SliceId) (c : Fin 16)
  /-- RECOMPUTE_START (R177): A waiting recompute starts on its engine, in the order in which its need arose. -/
  | recomputeStart (p : PlaneId) (pos : SliceId) (c : Fin 16) (n : Nat)
  /-- RECOMPUTE_DONE (R177): A recompute closes with its checks and replaces the retained result, or FINAL seals with RETAIN are sent. -/
  | recomputeDone (p : PlaneId) (pos : SliceId) (c : Fin 16) (n : Nat)
  /-- REPAIR_DELIVERY (R179): A repair delivery sends all result cells of a copy again in open slots, followed by a seal. -/
  | repairDelivery (p : PlaneId) (pos : SliceId) (c : Fin 16) (n : Nat) (d : CopyDst)
  /-- REPAIR_LIMIT (R179): 1,650,000 beats pass after a copy's first NEGATIVE seal without a POSITIVE one, and the copy receives a FINAL seal with LIMIT. -/
  | repairLimit (p : PlaneId) (pos : SliceId) (c : Fin 16) (n : Nat) (d : CopyDst)
  /-- REPAIR_REQUEST (R178): A member's repair request is answered with a new delivery, or with a FINAL seal with RELEASED. -/
  | repairRequest (p : PlaneId) (g : Fin 1024) (cseq : Fin 65536) (n : Nat) (m : Nat)
  /-- SCALAR_INSTRUCTION (R186): A collective core issues an RV64IM scalar, load, store, branch, jump, fence, ECALL, EBREAK or MRET instruction with its fixed latency. -/
  | scalarInstruction (p : PlaneId) (n : CoreId)
  /-- CSR_INSTRUCTION (R189): A collective core reads or writes a machine or extension CSR. -/
  | csrInstruction (p : PlaneId) (n : CoreId)
  /-- VLD (R197): VLD loads 128 bytes from the local store into a vector register. -/
  | vld (p : PlaneId) (n : CoreId)
  /-- VST (R197): VST stores 128 bytes of a vector register to the local store. -/
  | vst (p : PlaneId) (n : CoreId)
  /-- SPLD (R192): SPLD loads 128 bytes from the scratchpad in the core's turn. -/
  | spld (p : PlaneId) (n : CoreId)
  /-- SPST (R192): SPST stores 128 bytes to the scratchpad in the core's turn. -/
  | spst (p : PlaneId) (n : CoreId)
  /-- VADD_F32 (R193): Lane-wise FP32 addition. -/
  | vaddF32 (p : PlaneId) (n : CoreId)
  /-- VSUB_F32 (R193): Lane-wise FP32 subtraction. -/
  | vsubF32 (p : PlaneId) (n : CoreId)
  /-- VMUL_F32 (R193): Lane-wise FP32 multiplication. -/
  | vmulF32 (p : PlaneId) (n : CoreId)
  /-- VFMA_F32 (R193): Lane-wise fused multiply-add with one rounding. -/
  | vfmaF32 (p : PlaneId) (n : CoreId)
  /-- VMAX_F32 (R193): Lane-wise IEEE maximum with NaN propagation. -/
  | vmaxF32 (p : PlaneId) (n : CoreId)
  /-- VMIN_F32 (R193): Lane-wise IEEE minimum with NaN propagation. -/
  | vminF32 (p : PlaneId) (n : CoreId)
  /-- VADD_I32 (R197): Lane-wise modular 32-bit integer addition. -/
  | vaddI32 (p : PlaneId) (n : CoreId)
  /-- VADD_I16 (R197): Lane-wise modular 16-bit integer addition. -/
  | vaddI16 (p : PlaneId) (n : CoreId)
  /-- VADD_I8 (R197): Lane-wise modular 8-bit integer addition. -/
  | vaddI8 (p : PlaneId) (n : CoreId)
  /-- VAND (R197): Bitwise AND of two vector registers. -/
  | vand (p : PlaneId) (n : CoreId)
  /-- VOR (R197): Bitwise OR of two vector registers. -/
  | vor (p : PlaneId) (n : CoreId)
  /-- VXOR (R197): Bitwise XOR of two vector registers. -/
  | vxor (p : PlaneId) (n : CoreId)
  /-- VSPLAT (R197): Sets every 32-bit lane to rs1[31:0]. -/
  | vsplat (p : PlaneId) (n : CoreId)
  /-- VEXT (R197): Extracts one 64-bit lane of a vector register into rd. -/
  | vext (p : PlaneId) (n : CoreId)
  /-- VCVT_TO (R194): Converts 32 FP32 lanes to format f by a one-addend SUM and ORs the status into kzvstat. -/
  | vcvtTo (p : PlaneId) (n : CoreId)
  /-- VCVT_FROM (R194): Decodes 32 elements of format f to FP32 lanes. -/
  | vcvtFrom (p : PlaneId) (n : CoreId)
  /-- XFER (R206): XFER checks a transfer block and starts the transfer. -/
  | xfer (p : PlaneId) (n : CoreId)
  /-- XFER_COMPLETE (R206): An outstanding transfer completes, with OK, STATE, POISON or another status in kzxerr. -/
  | xferComplete (p : PlaneId) (n : CoreId)
  /-- XWAIT (R199): XWAIT starts waiting until the outstanding transfers number at most rs1. -/
  | xwait (p : PlaneId) (n : CoreId)
  /-- CBIND (R209): CBIND checks a binding block and binds a tumbler context, returning its handle. -/
  | cbind (p : PlaneId) (n : CoreId)
  /-- CUNBIND (R211): CUNBIND frees a context and its reservations. -/
  | cunbind (p : PlaneId) (n : CoreId)
  /-- CFEED (R212): CFEED checks a contribution frame and feeds its cells to a context. -/
  | cfeed (p : PlaneId) (n : CoreId)
  /-- FEED_DONE (R212): An outstanding feed finishes accumulating its cells into the context. -/
  | feedDone (p : PlaneId) (pos : SliceId) (c : Fin 16)
  /-- CCLOSE (R213): CCLOSE requests the closing of the FILLING chunk of a context. -/
  | cclose (p : PlaneId) (n : CoreId)
  /-- CSEND (R214): CSEND queues one copy of a chunk to a native endpoint. -/
  | csend (p : PlaneId) (n : CoreId)
  /-- CSTORE (R214): CSTORE queues one copy of a chunk to plane memory. -/
  | cstore (p : PlaneId) (n : CoreId)
  /-- CRELEASE (R215): CRELEASE releases a chunk, or marks it for release. -/
  | crelease (p : PlaneId) (n : CoreId)
  /-- CSTAT (R215): CSTAT returns the state, status, reason and sealed-copy count of a chunk. -/
  | cstat (p : PlaneId) (n : CoreId)
  /-- SADD (R201): SADD adds a value to a sync object and returns the old value. -/
  | sadd (p : PlaneId) (n : CoreId)
  /-- SSET (R201): SSET writes a value to a sync object and returns the old value. -/
  | sset (p : PlaneId) (n : CoreId)
  /-- SRD (R201): SRD returns the value of a sync object. -/
  | srd (p : PlaneId) (n : CoreId)
  /-- SWAIT (R198): SWAIT starts waiting for a sync object to reach a target, with a timeout. -/
  | swait (p : PlaneId) (n : CoreId)
  /-- QPOP (R233): QPOP copies the next descriptor of a group into the local store, stamps it and advances CONS. -/
  | qpop (p : PlaneId) (n : CoreId)
  /-- QDONE (R233): QDONE posts a completion record for the oldest popped descriptor. -/
  | qdone (p : PlaneId) (n : CoreId)
  /-- QWAIT (R216): QWAIT starts waiting for a descriptor in any group of the core, with a timeout. -/
  | qwait (p : PlaneId) (n : CoreId)
  /-- MSEND (R220): MSEND sends a 256-byte message to a core of the same plane number on a module. -/
  | msend (p : PlaneId) (n : CoreId)
  /-- MRECV (R220): MRECV starts waiting for a message in the inbox, with a timeout. -/
  | mrecv (p : PlaneId) (n : CoreId)
  /-- KCMD (R218): KCMD applies the KSQ writes of a key command as one sequence. -/
  | kcmd (p : PlaneId) (n : CoreId)
  /-- LARR (R219): LARR acts as a write of ARRIVE to a latch entry. -/
  | larr (p : PlaneId) (n : CoreId)
  /-- KDIG (R217): KDIG computes the digest of a descriptor in the local store. -/
  | kdig (p : PlaneId) (n : CoreId)
  /-- FTWAIT (R199): FTWAIT starts waiting until FT reaches a given value. -/
  | ftwait (p : PlaneId) (n : CoreId)
  /-- WAIT_RETIRE (R198): The awaited condition of a wait holds by its deadline, and the wait retires in the next cycle. -/
  | waitRetire (p : PlaneId) (n : CoreId)
  /-- WAIT_TIMEOUT (R198): A wait reaches its deadline without its condition, and ends with TIMEOUT at the start of beat D + 1. -/
  | waitTimeout (p : PlaneId) (n : CoreId)
  /-- MSG_ARRIVE (R220): A message arrives at a core's inbox, or is discarded when the inbox is full or the core is saving or saved. -/
  | msgArrive (p : PlaneId) (n : CoreId) (srcMod : Fin 65536) (srcCore : CoreId) (d : Payload)
  /-- CC_WATCHDOG (R221): A core's watchdog count reaches WDOG × 1,650 beats, and the core halts with HCAUSE WDOG. -/
  | ccWatchdog (p : PlaneId) (n : CoreId)
  /-- RUN (R226): A write of CCX_CTRL.RUN starts a HALTED or SAVED core at its pc. -/
  | run (acc : Accessor) (p : PlaneId) (n : CoreId) (v : Word)
  /-- HALT (R226): A write of CCX_CTRL.HALT halts the core at the next instruction boundary, abandoning a wait. -/
  | halt (acc : Accessor) (p : PlaneId) (n : CoreId) (v : Word)
  /-- SAVE (R223): A write of CCX_CTRL.SAVE stops the core and starts writing its save image. -/
  | save (acc : Accessor) (p : PlaneId) (n : CoreId) (v : Word)
  /-- CC_SAVE_DONE (R223): The save image is written and the core becomes SAVED. -/
  | ccSaveDone (p : PlaneId) (n : CoreId)
  /-- RESTORE (R224): A write of CCX_CTRL.RESTORE starts loading a save image into the core. -/
  | restore (acc : Accessor) (p : PlaneId) (n : CoreId) (v : Word)
  /-- CC_RESTORE_DONE (R224): The restore completes, sets RESTORED and leaves the core HALTED, or fails and sets IMG_BAD. -/
  | ccRestoreDone (p : PlaneId) (n : CoreId)
  /-- CCX_LS_DATA (R226): A write of CCX_LS_DATA stores a local-store word and increments ADDR. -/
  | ccxLsData (acc : Accessor) (p : PlaneId) (n : CoreId) (v : Word)
  /-- SYN_OBJ (R204): A write of SYN_OBJ sets the value of a sync object. -/
  | synObj (acc : Accessor) (p : PlaneId) (k : Fin 4096) (v : Word)
  /-- SYN_ADD (R204): A write of SYN_ADD adds a value to a sync object. -/
  | synAdd (acc : Accessor) (p : PlaneId) (k : Fin 4096) (v : Word)
  /-- GRQ_DB (R231): A doorbell write of a new PROD makes new descriptors visible to the serving core. -/
  | grqDb (acc : Accessor) (p : PlaneId) (g : Fin 1024) (v : Word)
  /-- LAUNCH (R232): A LAUNCH frame is queued as a descriptor of a FRAME group, or refused. -/
  | launch (p : PlaneId) (ep : Fin 65536) (d : Payload)
  /-- GROUP (R251): A write of GRQ_SEL.GROUP loads the staging copy from the selected group's record. -/
  | group (acc : Accessor) (p : PlaneId) (v : Word)
  /-- COMMIT (R251): A write of GRQ_G_CTL.COMMIT applies the staging copy to the group and increments GEN. -/
  | commit (acc : Accessor) (p : PlaneId) (v : Word)
  /-- ABANDONED_POST (R250): After a CORE commit without KEEP, GRQ posts an ABANDONED record for each in-flight descriptor as room appears in the completion ring. -/
  | abandonedPost (p : PlaneId) (g : Fin 1024)
  /-- CCONS (R234): A write of CCONS frees completion entries, or is rejected with RANGE. -/
  | ccons (acc : Accessor) (p : PlaneId) (v : Word)
  /-- MISMATCH_REPORT (R238): A MISMATCH_REPORT from a receive-only member aborts the collective with MISMATCH. -/
  | mismatchReport (p : PlaneId) (d : Payload)
  /-- BARRIER_ARRIVE (R246): A BARRIER_ARRIVE from a member is counted for the popped barrier, or discarded. -/
  | barrierArrive (p : PlaneId) (d : Payload)
  /-- COLLECTIVE_TMO (R249): TMO beats pass from POP_FT before completion, and the collective is stopped and completes with TIMEOUT. -/
  | collectiveTmo (p : PlaneId) (g : Fin 1024) (cseq : Fin 65536)
  /-- CTRL_REFRESH (R259): A controller begins a refresh round on a target that no key schedules, 3,000 beats after the previous round. -/
  | ctrlRefresh (p : PlaneId) (t : Fin 7)
  /-- PATROL_STEP (R260): A controller makes a patrol-scrub step on a target that no key schedules. -/
  | patrolStep (p : PlaneId) (t : Fin 7)
  /-- POISON (R267): A write of NMC_CMD.POISON or FMC_CMD.POISON poisons the granule at PADDR. -/
  | poison (acc : Accessor) (p : PlaneId) (t : Fin 7) (v : Word)
  /-- APPLY (R272): A write of SPM_PART_CTL.APPLY starts applying a new scratchpad partition. -/
  | apply (acc : Accessor) (p : PlaneId) (v : Word)
  /-- PARTITION_APPLY_DONE (R272): The partition apply completes within 33,000 beats and APPLY_BUSY clears. -/
  | partitionApplyDone (p : PlaneId)
  /-- LINK_UNIT_RECEIVE (R282): A 300-byte link unit is received on a lane and its LCW and cell are checked and applied. -/
  | linkUnitReceive (p : PlaneId) (lane : PortId) (u : BitVec 2400) (ce : Fin 256) (ue : Fin 256) (sub : Fin 64)
  /-- LINK_SLOT_SEND (R280): In each slot each lane sends one link unit, filled with a scheduled cell, a replay, a repair, an adaptive cell or nothing. -/
  | linkSlotSend (p : PlaneId) (n : PortId) (sub : Fin 64)
  /-- LANE_FAULT (R285): A lane fault is detected and the lane is removed from its port by narrowing. -/
  | laneFault (p : PlaneId) (lane : PortId) (locked : Bool)
  /-- NARROW (R287): A received NARROW is acknowledged with NARROW_ACK and the lanes it names are set to be removed at T. -/
  | narrow (p : PlaneId) (lane : PortId) (mask : Fin 16) (t : Dword)
  /-- NARROW_ACK (R287): A NARROW_ACK for this port's NARROW is received. -/
  | narrowAck (p : PlaneId) (lane : PortId) (mask : Fin 16) (t : Dword)
  /-- NARROW_SWITCH (R287): At the start of T both ends stop the removed lanes and the port leaves NARROWING. -/
  | narrowSwitch (p : PlaneId) (n : PortId)
  /-- RTT_PROBE (R301): A received RTT_PROBE is answered with RTT_ECHO. -/
  | rttProbe (p : PlaneId) (lane : PortId) (dep : Dword)
  /-- RTT_ECHO (R300): A received RTT_ECHO gives the round trip that FPT_STAT reports. -/
  | rttEcho (p : PlaneId) (lane : PortId) (dep : Dword) (sub : Fin 64)
  /-- HELLO_SEND (R303): Each lane of a port in DISCOVER, UP, QUARANTINE or NARROWING sends one HELLO per 65,536 beats. -/
  | helloSend (p : PlaneId) (lane : PortId)
  /-- HELLO (R305): A received HELLO is stored and compared, and the port goes to UP or QUARANTINE. -/
  | hello (p : PlaneId) (lane : PortId) (msg : BitVec 384)
  /-- PEN (R309): A write of FPT_CFG.PEN enables a port, which starts training, or disables it. -/
  | pen (acc : Accessor) (p : PlaneId) (n : PortId) (v : Word)
  /-- TRAINING_DONE (R304): Port training ends, and the port goes to DISCOVER or ABSENT. -/
  | trainingDone (p : PlaneId) (n : PortId) (trained : Fin 16)
  /-- DISCOVER_TIMEOUT (R306): No HELLO arrives within 262,144 beats of DISCOVER, and lanes are removed or the port enters ABSENT. -/
  | discoverTimeout (p : PlaneId) (n : PortId)
  /-- ABSENT_RETRY (R304): Every 165,000,000 beats an ABSENT port retries training. -/
  | absentRetry (p : PlaneId) (n : PortId)
  /-- START (R334): A write of RTE_CTL.START arms the hold at HOLD_FT and the resume at the resume time. -/
  | start (acc : Accessor) (p : PlaneId) (v : Word)
  /-- ROUTE_COMMIT (R334): A write of RTE_CTL.COMMIT checks and applies the whole routing state. -/
  | routeCommit (acc : Accessor) (p : PlaneId) (v : Word)
  /-- ROUTE_RESUME (R334): A write of RTE_CTL.RESUME arms the resume at the resume time. -/
  | routeResume (acc : Accessor) (p : PlaneId) (v : Word)
  /-- HOLD_FT (R331): At HOLD_FT an ARMED plane enters HOLDING and holds adaptive injection. -/
  | holdFt (p : PlaneId)
  /-- RESUME_TIME (R335): At the resume time a COMMITTED plane becomes RUN, and a HOLDING or DRAINED plane becomes ISOLATED. -/
  | resumeTime (p : PlaneId)
  /-- ROB_OPEN_EXPIRE (R327): A reorder stream has been open for ROB_OPEN beats and its expected chunk is set. -/
  | robOpenExpire (p : PlaneId) (n : PortId)
  /-- ROB_WAIT_EXPIRE (R328): A frame held ROB_WAIT beats is released with the frames before it, as a forced release. -/
  | robWaitExpire (p : PlaneId) (n : PortId)
  /-- ROB_STREAM_CLOSE (R326): A reorder stream that has held no frame for ROB_WAIT beats closes. -/
  | robStreamClose (p : PlaneId) (n : PortId)
  /-- FRAME_ADMIT (R343): A frame's head cell is written and the frame is routed, stamped, policed, copied, offered to drop profiles and queued. -/
  | frameAdmit (p : PlaneId)
  /-- UNIT_FRAME_ADMIT (R340): A frame of the plane's own units is admitted once the buffer headroom covers its FLEN. -/
  | unitFrameAdmit (p : PlaneId) (u : Nat)
  /-- COPY_AGE_EXPIRE (R360): A copy whose last cell has not left by its deadline is discarded. -/
  | copyAgeExpire (p : PlaneId) (k : Fin 1024)
  /-- AUDIT_VISIT (R361): Each beat the auditor visits one buffer cell and frees it when it has leaked. -/
  | auditVisit (p : PlaneId)
  /-- POL_SEL (R366): A write of POL_SEL.POLICER loads the staging copy of that policer. -/
  | polSel (acc : Accessor) (p : PlaneId) (v : Word)
  /-- POL_APPLY (R353): A write of POL_CTL.APPLY applies the staging copy of a policer from the next beat. -/
  | polApply (acc : Accessor) (p : PlaneId) (v : Word)
  /-- FLIP (R362): A write of SWC_EPOCH.FLIP checks the standby bank and makes it current for later frames. -/
  | flip (acc : Accessor) (p : PlaneId) (v : Word)
  /-- SWC_TBL_DATA (R362): A write of SWC_TBL_DATA writes a word of a non-current epoch table bank. -/
  | swcTblData (acc : Accessor) (p : PlaneId) (v : Word)
  /-- SWC_SEED_HI (R354): A write of SWC_SEED_HI completes the drop seed and resets the draw counter. -/
  | swcSeedHi (acc : Accessor) (p : PlaneId) (v : Word)
  /-- SHAPER_WRITE (R358): A write of RATE, BURST or SHAPE_EN changes a queue or port shaper. -/
  | shaperWrite (acc : Accessor) (p : PlaneId) (r : ShaperReg) (v : Word)
  /-- CLRMAX (R365): A write of QSH_CMD.CLRMAX clears MAXDEPTH and MAX of the selected queue. -/
  | clrmax (acc : Accessor) (p : PlaneId) (v : Word)
  /-- PERST (R372): Assertion of PERST_A_N or PERST_B_N resets that port's PCI block and link and ends its lease. -/
  | perst (h : HubId) (beats : Nat)
  /-- FLR (R372): A Function Level Reset resets the port's PCI block, MSI-X state and link and ends its lease. -/
  | flr (h : HubId)
  /-- PCIE_LINK_DOWN (R375): A host port's link goes down and its lease ends. -/
  | pcieLinkDown (h : HubId)
  /-- BAR2_ACCESS (R371): A host access through BAR2 reaches plane memory, or is refused, split or held for a host window. -/
  | bar2Access (h : HubId) (offset : BitVec 36) (write : Bool) (data : List Byte) (tag : Nat)
  /-- REQ (R373): A write of PCI_LEASE.REQ grants the lease to the port when no port holds it. -/
  | req (acc : Accessor) (h : HubId) (v : Word)
  /-- RENEW (R373): A write of PCI_LEASE.RENEW by the holder extends the lease by TERM. -/
  | renew (acc : Accessor) (h : HubId) (v : Word)
  /-- RELEASE (R373): A write of PCI_LEASE.RELEASE by the holder ends the lease at once. -/
  | release (acc : Accessor) (h : HubId) (v : Word)
  /-- LEASE_EXPIRE (R373): The lease passes its deadline and HOLDER becomes NONE. -/
  | leaseExpire
  /-- READY (R376): A hub management-core write of PCI_CFG.READY changes the ready condition of the port's RDYBSY pin. -/
  | ready (acc : Accessor) (h : HubId) (v : Word)
  /-- CH_GO (R382): A write of CH_CTRL.GO copies the transmit buffer into the channel queue, or is refused when the channel is full. -/
  | chGo (acc : Accessor) (c : Fin 256)
  /-- MBX_VISIBLE (R382): A sent message becomes visible to the receiver, within 165 beats of its GO. -/
  | mbxVisible (c : Fin 256)
  /-- CH_POP (R383): A write of CH_CTRL.POP removes the oldest message from the channel. -/
  | chPop (acc : Accessor) (c : Fin 256)
  /-- CH_DB_SET (R384): A write of CH_DB_SET ORs its value into DB_PEND. -/
  | chDbSet (acc : Accessor) (c : Fin 256) (v : Word)
  /-- CH_DB_PEND (R384): A write of 1 to CH_DB_PEND clears pending doorbell bits. -/
  | chDbPend (acc : Accessor) (c : Fin 256) (v : Word)
  /-- SVC_FRAME_RECEIVE (R387): A frame received on a service port is dispatched to TRF, the RDMA engine, the MAC or the management cores, or dropped. -/
  | svcFrameReceive (h : HubId) (f : SvcFrame)
  /-- RDMA_REQUEST (R388): A RoCE v2 request is checked against its region and applied to plane memory, or answered with a NAK. -/
  | rdmaRequest (h : HubId) (q : Fin 64) (rip : Word) (psn : BitVec 24) (rkey : Word) (addr : BitVec 48) (op : RdmaOp)
  /-- RDMA_REGION_EN (R388): A write of a region entry's EN = 1 checks the region and enables it. -/
  | rdmaRegionEn (acc : Accessor) (h : HubId) (r : Fin 64) (v : Word)
  /-- FAULT_DETECT (R393): A block detects a fault, logs it, escalates it where the rules say, and carries out its reaction in the same beat. -/
  | faultDetect (u : Nat) (src : Nat) (cls : FaultClass) (wh : Nat) (detail : Nat) (item : Bool)
  /-- REPORT_FRAME_SEND (R395): Every 64 beats each unit sends one report frame to each fault collector. -/
  | reportFrameSend (u : Nat)
  /-- REPORT_FRAME_RECEIVE (R397): A collector receives a unit's report frame and updates its status and pending bits. -/
  | reportFrameReceive (h : HubId) (u : Nat) (f : BitVec 16) (wires : Bool)
  /-- REPORT_TIMEOUT (R396): No valid frame arrives from a unit within 192 beats, and its pair is marked broken. -/
  | reportTimeout (h : HubId) (u : Nat)
  /-- PEER_HEARTBEAT (R398): Every 64 beats the hubs exchange lease, collector and heartbeat messages. -/
  | peerHeartbeat (h : HubId)
  /-- PEER_TIMEOUT (R398): A hub receives nothing from its peer for 192 beats and reports HUB_PEER. -/
  | peerTimeout (h : HubId)
  /-- C_SELF_ACK (R400): A class C fault held CACK × 1,650 beats is acknowledged by the block itself. -/
  | cSelfAck (u : Nat)
  /-- FCL_LIFT (R407): A write of FCL_LIFT resets and reopens the hasp of the named unit. -/
  | fclLift (acc : Accessor) (h : HubId) (v : Word)
  /-- DEADBOLT_RECORD (R410): A Keyplate writes the deadbolt record to protected flash. -/
  | deadboltRecord (h : HubId)
  /-- ALIVE_TOGGLE (R412): An ALIVE output toggles each half period of its serving or starting form. -/
  | aliveToggle (h : HubId)
  /-- ALIVE_EN (R412): A write of FCL_CFG.ALIVE_EN hands the hub's ALIVE output to the serving form. -/
  | aliveEn (acc : Accessor) (h : HubId) (v : Word)
  /-- HUB_LINK_TIMEOUT (R416): A hub-link request is not answered within 16,500 beats and ends with HUB_LINK. -/
  | hubLinkTimeout (h : HubId) (p : PlaneId)
  /-- PWRCYC_N (R465): An accepted PWRCYC_N removes power from every domain except STBY and starts the module again after the off period. -/
  | pwrcycN (low : Bool) (beats : Nat)
  /-- I3C_READ (R467): An I3C private read returns words of the I3C target map. -/
  | i3cRead (addr : Nat) (off : Byte) (n : Nat)
  /-- I3C_WRITE (R467): An I3C private write is ignored, or reaches the debug module interface when debug access is open. -/
  | i3cWrite (addr : Nat) (off : Byte) (d : List Byte)
  /-- I3C_TIMEOUT (R416): An I3C transaction as target exceeds 165,000 beats and is abandoned. -/
  | i3cTimeout
  /-- FEED_CHANGE (R419): A feed crosses a threshold for 165 beats and changes its state. -/
  | feedChange (f : FeedId) (mv : Nat) (beats : Nat)
  /-- FEED_QUALIFY (R419): A QUAL feed stays in range long enough and becomes OK. -/
  | feedQualify (f : FeedId)
  /-- RIDE_THROUGH_EXPIRE (R421): 825,000 beats pass with no feed OK, and the module powers down in order. -/
  | rideThroughExpire
  /-- DOMAIN_ADMIT (R424): A pending power domain is admitted when the credit bucket covers its charge. -/
  | domainAdmit (d : Fin 32)
  /-- DOMAIN_STABLE (R424): An admitted domain's supply becomes stable and its blocks leave reset. -/
  | domainStable (d : Fin 32)
  /-- RAIL_TIMEOUT (R424): A domain supply is not stable within 165,000 beats of admission and PWR_RAIL is reported. -/
  | railTimeout (d : Fin 32)
  /-- PWR_DOM_ON (R426): A write of PWR_DOM_ON requests power domains. -/
  | pwrDomOn (acc : Accessor) (h : HubId) (v : Word)
  /-- PWR_DOM_OFF (R426): A write of PWR_DOM_OFF powers off domains or withdraws their requests. -/
  | pwrDomOff (acc : Accessor) (h : HubId) (v : Word)
  /-- MEMORY_READY (R426): A powered memory domain finishes training and zeroing and sets READY. -/
  | memoryReady (p : PlaneId) (t : Fin 7)
  /-- MODULE_RESET (R428): A write of PWR_CMD.MODULE_RESET resets every domain except STBY and MCLK and runs the boot chain again. -/
  | moduleReset (acc : Accessor) (h : HubId) (v : Word)
  /-- PLANE_RESET (R428): A write of PWR_CMD.PLANE_RESET cycles the plane's seven domains and boots the plane again. -/
  | planeReset (acc : Accessor) (h : HubId) (v : Word)
  /-- HUB_RESET (R428): A write of PWR_CMD.HUB_RESET through the other hub resets the named hub. -/
  | hubReset (acc : Accessor) (h : HubId) (v : Word)
  /-- POWER_ON (R429): The first feed becomes OK while the module is off, and start-up runs through Table 15.5. -/
  | powerOn
  /-- VERIFY (R435): KPL_CMD VERIFY checks an image in the order of Table 15.7. -/
  | verify (acc : Accessor) (h : HubId) (v : Word)
  /-- LOAD_CC (R439): KPL_CMD LOAD_CC verifies a CC_PROG image and loads it into a collective core's local store. -/
  | loadCc (acc : Accessor) (h : HubId) (v : Word)
  /-- COMMIT_SVN (R436): KPL_CMD COMMIT_SVN raises the anti-rollback counter of the image's type and applies its revocation mask. -/
  | commitSvn (acc : Accessor) (h : HubId) (v : Word)
  /-- CLAIM (R438): KPL_CMD CLAIM installs an OWNER_KEY image and sets or transfers ownership. -/
  | claim (acc : Accessor) (h : HubId) (v : Word)
  /-- DBG_NONCE (R441): KPL_CMD DBG_NONCE writes 32 fresh random bytes into KPL_NONCE. -/
  | dbgNonce (acc : Accessor) (h : HubId) (v : Word)
  /-- DBG_UNLOCK (R441): KPL_CMD DBG_UNLOCK verifies a DEBUG_TOKEN and sets DBG_LEVEL, or counts a failure. -/
  | dbgUnlock (acc : Accessor) (h : HubId) (v : Word)
  /-- SET_PREF (R444): KPL_CMD SET_PREF writes the preferred boot slot to protected flash. -/
  | setPref (acc : Accessor) (h : HubId) (v : Word)
  /-- KPL_CMD_DONE (R444): A Keyplate command completes, including its protected-flash write, and raises its interrupt. -/
  | kplCmdDone (h : HubId)
  /-- GET_VERSION (R440): SPDM GET_VERSION is answered with version 1.2. -/
  | getVersion (h : HubId) (req : List Byte)
  /-- GET_CAPABILITIES (R440): SPDM GET_CAPABILITIES reports CERT_CAP, CHAL_CAP and MEAS_CAP with signatures. -/
  | getCapabilities (h : HubId) (req : List Byte)
  /-- NEGOTIATE_ALGORITHMS (R440): SPDM NEGOTIATE_ALGORITHMS selects P-521 ECDSA and SHA-512. -/
  | negotiateAlgorithms (h : HubId) (req : List Byte)
  /-- GET_DIGESTS (R440): SPDM GET_DIGESTS returns the certificate chain digests. -/
  | getDigests (h : HubId) (req : List Byte)
  /-- GET_CERTIFICATE (R440): SPDM GET_CERTIFICATE returns the chain of slot 0. -/
  | getCertificate (h : HubId) (req : List Byte)
  /-- CHALLENGE (R440): SPDM CHALLENGE is answered with a response signed by the hub's identity key. -/
  | challenge (h : HubId) (req : List Byte)
  /-- GET_MEASUREMENTS (R440): SPDM GET_MEASUREMENTS returns the measurements of Table 15.9, signed. -/
  | getMeasurements (h : HubId) (req : List Byte)
  /-- SPDM_UNSUPPORTED (R440): Any other SPDM request receives an ERROR response with UnsupportedRequest. -/
  | spdmUnsupported (h : HubId) (req : List Byte)
  /-- MGC_RUN (R442): A write of MGC_CTRL.RUN starts management cores at their reset vector. -/
  | mgcRun (acc : Accessor) (t : MgcSite) (v : Word)
  /-- MGC_HALT (R442): A write of MGC_CTRL.HALT halts management cores. -/
  | mgcHalt (acc : Accessor) (t : MgcSite) (v : Word)
  /-- KICK (R442): A write of MGC_WDOG.KICK restarts a management core's watchdog. -/
  | kick (acc : Accessor) (t : MgcSite) (v : Word)
  /-- MGC_WATCHDOG (R442): A management core's watchdog expires after 16,500,000 beats without a KICK and reports MGC_WDOG or HUB_WDOG. -/
  | mgcWatchdog (u : Nat) (n : Fin 4)
  /-- SNAP (R449): A write of PMU_CTL.SNAP copies every counter into its SNAP registers. -/
  | snap (acc : Accessor) (p : PlaneId) (v : Word)
  /-- CLR_ALL (R449): A write of PMU_CTL.CLR_ALL sets every count, bin and slot-accounting count to 0. -/
  | clrAll (acc : Accessor) (p : PlaneId) (v : Word)
  /-- TD_CLR (R453): A write of PMU_TD_CTL.TD_CLR clears the slot-accounting counts. -/
  | tdClr (acc : Accessor) (p : PlaneId) (v : Word)
  /-- CLR (R457): A write of PMU_HISTh_CFG.CLR clears the bins and SAMPLES of one histogram. -/
  | clr (acc : Accessor) (p : PlaneId) (h : Fin 4) (v : Word)
  /-- PMU_INTERRUPT_TAKEN (R450): A collective core takes the counter-overflow interrupt after the skid of the event. -/
  | pmuInterruptTaken (p : PlaneId) (n : CoreId)
  /-- CREDIT_REFILL (R424): In every beat of the power controller's counter that is a multiple of 825, the admission bucket gains 1 mA of credit, up to 20,000 mA. -/
  | creditRefill
  /-- HOLDUP_CHARGE (R443): The hold-up store becomes charged enough for R421, or falls below that, and PWR_HOLD.HOLDUP_OK and its interrupt condition change. -/
  | holdupCharge (ok : Bool)
  /-- PPS_LOSS (R87): No counted PPS edge has arrived within 1,666,500,000 beats, so TRF_STAT.PPS_OK falls to 0 and its interrupt condition rises. -/
  | ppsLoss (h : HubId)
  /-- PTP_MASTER_LOST (R70): The hub's PTP slave clock loses its selected master, PTP_OK falls to 0, and a MASTER_PTP plane loses its reference and enters HOLDOVER. -/
  | ptpMasterLost (h : HubId)
  /-- PERST_RELEASE (R372): PERST_A_N or PERST_B_N is released after its filter, so the port leaves reset and its link may train again. -/
  | perstRelease (h : HubId) (beats : Nat)
  /-- PCIE_LINK_UP (R376): A host port's PCI Express link finishes training and PCI_STAT.LINK_UP becomes 1. -/
  | pcieLinkUp (h : HubId) (rate : Fin 7) (width : Fin 9)
  /-- CONFIGURATION_REQUEST (R372): A host configuration request changes the function's configuration space, such as Bus Master Enable or the D3hot power state, and releases held MSI-X messages when BME becomes 1. -/
  | configurationRequest (h : HubId) (w : CfgWrite)
  /-- SERVICE_LINK_CHANGE (R391): A service port's 400GbE link comes up or goes down, and SVC_STAT.LINK_UP and its interrupt condition change. -/
  | serviceLinkChange (h : HubId) (up : Bool)
  /-- ENTDAA (R467): An I3C ENTDAA command assigns the module's I3C target its dynamic address. -/
  | entdaa (addr : Nat)
  /-- DEVICE_HOT (R276): A DRAM device of a memory target crosses 85 °C, so FMC_STAT.HOT changes and its interrupt condition rises or falls. -/
  | deviceHot (p : PlaneId) (t : Fin 7) (hot : Bool)
  /-- CSTORE_WRITE_DONE (R180): A copy queued by CSTORE finishes its write to plane memory and its read-back check, and the copy is sealed. -/
  | cstoreWriteDone (p : PlaneId) (pos : SliceId) (c : Fin 16) (n : Nat) (addr : BitVec 48)
  /-- FENCE_POWER_OFF (R404): The domains of a fenced plane or hub, or every plane after deadbolt entry, finish powering off, and POWERED reads 0. -/
  | fencePowerOff (u : Nat)
  /-- LEASE_LOW (R390): The holder's remaining lease falls below a quarter of TERM, and PCI interrupt bit 1 rises. -/
  | leaseLow
  deriving DecidableEq, Repr

end Sys2Proof
end

