-- ==== Sys2Proof/Config.lean ====
section
/-! DEFINITION. Sys2Proof/Config.lean: what the spec leaves open, as constants without a body. No proof can see a
value of one; a statement about them holds for every value. Each is applied to the operands it depends on, or to the
counter `State.fresh` for a new value at each use (assumption log 7 and 8). -/

namespace Sys2Proof.Config

/-- Whether an ECDSA P-521 signature (r and s, 192 bytes) over a message verifies under a public key (R434). The spec
names the standard FIPS 186-5; the model leaves the curve arithmetic uninterpreted (assumption log 8). -/
opaque ecdsaVerify : List Byte → List Byte → List Byte → Bool

/-- The signature a hub's identity key makes over a message (R440): the private key is unreadable (R432). -/
opaque ecdsaSign : Nat → List Byte → List Byte

/-- The public keys of Damcen key indices 0 to 3, held in the Keyplate ROM (R432). -/
opaque damcenKey : Nat → List Byte

/-- A fresh random byte (R441: 32 fresh random bytes), numbered by the state's counter. -/
opaque randomByte : Nat → Byte

/-- A free value of up to 64 bits, for a value the spec leaves open, numbered by the state's counter. -/
opaque freeDword : Nat → BitVec 64

/-- The certificate chain of a hub's identity key (R437); its bytes are made at manufacture. -/
opaque certChain : Nat → List Byte

/-- How long, in 1/64 beat, a round trip's echo was held at the far end beyond the turnaround of a credit, for its message position (R301); of a
plane, a lane and the time measured. R300 leaves this time out of the round trip, and no message tells it (assumption log 46). -/
opaque echoHeld : Nat → Nat → Nat → Nat

/-- The Keyplate ROM's digest (Table 15.9 index 1). -/
opaque romDigest : List Byte

end Sys2Proof.Config
end

