-- ==== Sys2Proof/Machine/State.lean ====
section
/-! DEFINITION. Sys2Proof/Machine/State.lean: the state of the module as plain data: the register store, the state of
each plane, hub and of the power controller that no register shows, the queue of waiting commands, and the state right
after reset. -/

namespace Sys2Proof.Machine

/-- Why a command stops the machine. -/
inductive Fault where
  /-- Raised by no meaning: every command of the block has an effect in every state (what the spec turns away it rejects,
  discards or reports, and goes on). The name is kept for an operand no environment can present. Safe: nothing stops. -/
  | illFormed (which : String)
  deriving DecidableEq, Repr

/-- Why a command has no meaning here. -/
inductive Refusal where
  /-- Raised by `exec` for a row of the table that is not modelled yet. Safe: the machine stops instead of guessing. -/
  | notModelled (mnemonic : String)
  deriving DecidableEq, Repr

/-- The block types of Table 2.4. -/
inductive Blk where
  | PLN | FTM | LAT | KSQ | XPT | TMB | SPM | NMC | FMC | FPT | SDS | RTE | SWC | QSH | POL | CCX | GRQ | SYN | PMU | MGC
  | HUB | PCI | MBX | FCL | PWR | KPL | SVC | TRF
  deriving DecidableEq, Repr

/-- The access types of Table 0.3; `res` marks a register that holds only reserved bits. -/
inductive Acc where
  | ro | rw | w1c | wo | rwl | res
  deriving DecidableEq, Repr

/-- The legal values of a field, as its Meaning cell states them. `custom` fields are judged by their block. -/
inductive Legal where
  | any
  | le (top : Nat)
  | between (bot top : Nat)
  /-- A count (R57): zero is rejected with ZERO. -/
  | count
  /-- A count with a largest value: zero is rejected with ZERO, a larger value with RANGE. -/
  | countLe (top : Nat)
  | custom
  deriving DecidableEq, Repr

/-- A register field: its register's byte offset, its bit range, its access type, its reset value, its legal values,
and, for a register that repeats, the stride and count of its instances and the pages that hold it. -/
structure RField where
  off : Nat
  hi : Nat
  lo : Nat
  acc : Acc
  rst : Nat := 0
  /-- The Reset column names a source instead of a value (R13). -/
  src : Bool := false
  legal : Legal := .any
  stride : Nat := 0
  n : Nat := 1
  pg : Nat := 0
  npg : Nat := 1
  deriving DecidableEq, Repr

/-- The rejection codes of Table 2.3. -/
inductive RejCode where
  | width | unmapped | busy | fenced | state | reserved | range | zero | bounds
  deriving DecidableEq, Repr

/-- A report frame's view of one unit at one collector (R397, FCL_U_STAT). -/
structure UnitView where
  /-- CLASS of the latest valid frame. -/
  cls : Nat := 0
  /-- RSEQ of the latest valid frame. -/
  rseq : Nat := 0
  /-- The pair to this collector is not broken. -/
  pairOk : Bool := true
  /-- The same for the other collector, as last exchanged. -/
  peerPairOk : Bool := true
  /-- This hub's beat at the latest frame. -/
  lastBeat : Nat := 0
  deriving DecidableEq, Repr

/-- A slave's view of one upstream (R75, R79): the last TSYNC it answered. -/
structure Upstream where
  src : TimeSource
  seq : Nat
  state : Nat
  depth : Nat
  t1 : Nat
  /-- The local times of R75, which a load of FT moves with it. -/
  t2 : Int
  t3 : Int
  /-- The plane's beat count when the last valid TSYNC became visible. -/
  lastAt : Nat
  deriving DecidableEq, Repr

/-- Fabric time of one plane beyond its registers. -/
structure Ftm where
  /-- The fabric time counter (R71). (DESIGN CHOICE, log 107) -/
  ft : Nat := 0
  /-- The model's count of the plane's beats, which no load of FT moves: waits are measured on it (R88). (DEDUCED, log 108) -/
  beats : Nat := 0
  /-- Streams received, latest first. -/
  ups : List Upstream := []
  /-- The source in use. -/
  inUse : Option TimeSource := none
  /-- Beat of the entry into HOLDOVER. -/
  holdSince : Nat := 0
  /-- Beat of the last write of FTM_CFG, and HOLD_LIMIT before it (R86). -/
  holdWas : Nat × Nat := (0, 0)
  /-- Consecutive exchanges within 16/64 beat (Table 3.2). -/
  good : Nat := 0
  /-- Offset still to be slewed, in 1/64 beat (R76). -/
  slew : Int := 0
  /-- Beat of the last phase step. -/
  lastStep : Nat := 0
  /-- Sequence number of the next TSYNC sent. -/
  txSeq : Nat := 0
  /-- Beat of the last TSYNC sent, when one was. -/
  lastTx : Option Nat := none
  /-- Arrival time of the echo of the last TSYNC on each port, and from each sibling (128 + q): T_RX_PREV of the next TSYNC. -/
  echoAt : SMap Nat := []
  /-- The completed seed (R72), once a write of SEED_HI has completed one. -/
  seed : Option Nat := none
  deriving DecidableEq, Repr

/-- One latch entry beyond its registers: the participants counted, and when ARRIVE was last sent. -/
structure LatchEntry where
  /-- PIDX and module address of every participant counted (R91). -/
  counted : List (Nat × Nat) := []
  /-- Beat of local completion (Table 3.7). -/
  doneAt : Nat := 0
  /-- FT of the last ARRIVE sent (R90). -/
  sentAt : Nat := 0
  /-- FT of the ARM write. -/
  armedAt : Nat := 0
  /-- FT of the entry into TIMEOUT or ABORTED: the beat of abort that a later ARRIVE is answered with (R93, R94). -/
  abortAt : Nat := 0
  deriving DecidableEq, Repr

/-- One message of a mailbox channel. -/
structure MbxMsg where
  seq : Nat
  data : List Byte
  deriving DecidableEq, Repr

/-- One mailbox channel (R380 to R384, Table 13.6). -/
structure Channel where
  /-- The 256-byte transmit buffer, word by word. -/
  tx : SMap Word := []
  txLen : Nat := 0
  txSeq : Nat := 0
  /-- Messages sent and not yet visible to the receiver, oldest first. -/
  sent : List MbxMsg := []
  /-- Visible messages, oldest first. -/
  queue : List MbxMsg := []
  rejCnt : Nat := 0
  irqEn : BitVec 3 := 0
  irq : BitVec 3 := 0
  dbPend : Word := 0
  /-- The latched bits and doorbell bits set in one beat of the owning hub, and that beat (R383, R384). -/
  setAt : Nat := 0
  setIrq : BitVec 3 := 0
  setDb : Word := 0
  deriving DecidableEq, Repr

/-- The state of a feed (R419). -/
structure Feed where
  /-- Power-controller beat at which the feed last entered its state. -/
  since : Nat := 0
  deriving DecidableEq, Repr

/-- The power controller in STBY beyond the PWR registers. -/
structure PowerCtl where
  /-- The controller's beat counter. -/
  beat : Nat := 0
  feedA : Feed := {}
  feedB : Feed := {}
  /-- Beat in which the last feed left OK, while none is OK. -/
  dryAt : Option Nat := none
  /-- Beat in which Feed A last left OK: where Feed B leaves it too, FEED_LOST is reported for Feed A (R420). -/
  tripA : Option Nat := none
  /-- Digest of the configuration image in force (R440, Table 15.9 index 7). -/
  cfgDigest : List Byte := []
  /-- Domains admitted and not yet stable, with the beat of admission. -/
  waking : SMap Nat := []
  /-- The module has started since it was last without power. -/
  running : Bool := false
  /-- End of the off period of PWRCYC_N, while one runs (R465). -/
  offUntil : Option Nat := none
  /-- PWRCYC_N is low, as filtered. -/
  cycLow : Bool := false
  /-- A module reset, and plane resets, written in this beat: the reset acts, and the planes' domains are requested, in the next one
  (R428). -/
  resetDue : Bool := false
  planesDue : List Nat := []
  /-- Beat in which a feed last left OK (R420: two feeds that trip in one beat report once). -/
  lostAt : Option Nat := none
  /-- Beat of the last credit refill. -/
  refillAt : Option Nat := none
  /-- The module configuration image has been loaded since the last start-up (Table 15.5 step 5). -/
  configured : Bool := false
  /-- Step 1 of start-up is over: the ALIVE outputs may take the starting form. -/
  step1 : Bool := false
  /-- The I3C target's dynamic address, once assigned (R467). -/
  i3cAddr : Option Nat := none
  deriving DecidableEq, Repr

/-- The form of an ALIVE output (R412). -/
inductive AliveForm where
  | stopped | starting | serving
  deriving DecidableEq, Repr

/-- IEEE 1588 slave clock of one hub (R70), times in beats. (PRESUMED, log 20) -/
structure PtpClock where
  /-- The masters that have announced themselves: identity and data set, the smaller the better. -/
  foreign : List (Nat × Nat) := []
  /-- Identity of the selected master. -/
  master : Option Nat := none
  seq : Nat := 0
  /-- Origin time of the last sync, in beats of PTP time. -/
  t1 : Option Nat := none
  /-- This hub's beat at the arrival of that sync. -/
  t2 : Nat := 0
  /-- This hub's beat at the departure of the delay request. -/
  t3 : Nat := 0
  /-- Mean path delay in beats. -/
  path : Option Int := none
  deriving DecidableEq, Repr

/-- One slot of a hub's boot flash (R433): the images it holds. (DESIGN CHOICE, log 6) -/
structure BootSlot where
  hubFw : List Byte := []
  planeFw : List Byte := []
  ccProgs : List (List Byte) := []
  config : List Byte := []
  deriving DecidableEq, Repr

/-- The deadbolt record of R410. -/
structure DeadRecord where
  unit : Nat
  source : Nat
  path : Nat
  ft : Nat
  deriving DecidableEq, Repr

/-- A Keyplate's protected flash (R432). (DESIGN CHOICE, log 6) -/
structure Flash where
  svnHub : Nat := 0
  svnPlane : Nat := 0
  svnCc : Nat := 0
  svnCfg : Nat := 0
  /-- Revoked Damcen key indices. -/
  revoked : Nat := 0
  /-- The owner's public key. -/
  owner : Option (List Byte) := none
  pref : Nat := 0
  dead : Option DeadRecord := none
  /-- The 192-byte signature of the identity record image, zero beyond its length. The image's other bytes are those of the module's
  `Ident`. The spec gives no value for it. (DESIGN CHOICE, log 102) -/
  idSig : List Byte := []
  deriving DecidableEq, Repr

/-- One SPDM negotiation of a hub's DOE mailbox (R440). -/
structure Spdm where
  version : Bool := false
  caps : Bool := false
  algs : Bool := false
  /-- The messages so far (the transcript the signatures cover). -/
  transcript : List Byte := []
  deriving DecidableEq, Repr

/-- The Keyplate of one hub beyond its registers. -/
structure Keyplate where
  flash : Flash := {}
  slots : List BootSlot := [{}, {}]
  /-- The slot that the boot took (KPL_STAT.SLOT, R433). -/
  slot : Nat := 0
  /-- The command in progress, with this hub's beat at which it began. -/
  cmd : Option (Nat × Nat) := none
  /-- The image of the command in progress, once its plane's memory has delivered it (R26, R261). -/
  image : Option (List Byte) := none
  /-- A fresh debug nonce is held. -/
  nonceSet : Bool := false
  /-- Digest of the hub firmware that runs (Table 15.9 index 2). -/
  mHub : List Byte := []
  /-- The chain of index 8. -/
  mCc : List Byte := []
  spdm : Spdm := {}
  deriving DecidableEq, Repr

/-- One entry of a port's MSI-X table (R369). -/
structure MsixEntry where
  addr : Dword := 0
  data : Word := 0
  masked : Bool := true
  deriving DecidableEq, Repr

/-- The PCI Express function of one hub beyond the PCI registers. -/
structure PciFn where
  /-- PERST of the port is asserted, as filtered. Released at reset (Table 17.5). -/
  perst : Bool := false
  /-- PERST has been asserted and the link has not come up since (Table 13.2). -/
  perstHold : Bool := false
  msix : SMap MsixEntry := []
  /-- MSI-X pending bits. -/
  pba : List Nat := []
  msixEn : Bool := false
  /-- BAR and command registers that configuration requests hold, by dword. -/
  cfg : SMap Word := []
  /-- HOLDER has changed since the interrupt bit was last cleared (R390 bit 0). -/
  holderChg : Bool := false
  deriving DecidableEq, Repr

/-- One hub beyond its registers. -/
structure Hub where
  /-- The hub's beat counter (R373). -/
  beat : Nat := 0
  pci : PciFn := {}
  kpl : Keyplate := {}
  ptp : PtpClock := {}
  /-- This hub's beat at the last counted PPS edge. -/
  ppsAt : Option Nat := none
  /-- The collector's view of each unit. -/
  views : SMap UnitView := []
  /-- Planes whose hub link EN = 0 or a HUB_LINK fault has closed: only a reset of the hub opens them again (R33). -/
  closed : List Nat := []
  /-- This hub's beat of the earliest request on a hub link that its timeout may still end, by plane (Table 14.11). -/
  reqAt : SMap Nat := []
  /-- This hub's beat at the last message over the peer connection. -/
  peerAt : Nat := 0
  /-- Beat at which each management core's watchdog was last restarted, while the core runs. -/
  wdog : SMap Nat := []
  alive : AliveForm := .stopped
  aliveLevel : Bool := false
  /-- Beat of the next ALIVE edge, on the counter of the form's driver. -/
  aliveNext : Nat := 0
  /-- Hub firmware was verified and runs. -/
  booted : Bool := false
  /-- Service frames handed to the hub's management cores, oldest first (R387). -/
  rxFrames : List (List Byte) := []
  /-- Pause time of the last priority flow control frame. -/
  pause : Nat := 0
  /-- The 8 MiB private memory of the hub's management cores (R442): its nonzero bytes, addresses rising (log 81). -/
  mgcMem : List Host.Cell := []
  deriving DecidableEq, Repr

/-- The control lease beyond PCI_LEASE (R373). -/
structure Lease where
  /-- Deadline on the beat counter of the holder's hub. -/
  deadline : Nat := 0
  /-- The holder's remaining lease is below a quarter of TERM (R390 bit 1). -/
  low : Bool := false
  /-- The lease was granted to port B in this beat of Hub B: a request of port A in the same beat goes first (R375). -/
  newB : Bool := false
  deriving DecidableEq, Repr

/-- One part of a memory access, within one 256-byte granule (R371): its address, length and, once served, its bytes and
whether they met poison. -/
structure AccessPart where
  addr : Nat
  len : Nat
  data : List Byte
  served : Bool := false
  poisoned : Bool := false
  deriving DecidableEq, Repr

/-- A hub-link or management-core access that waits for a host window (R261). -/
structure HostAccess where
  /-- Who waits: a host (R371), the RDMA engine of a hub (R388), or a management core. -/
  via : Accessor
  rdma : Bool := false
  tag : Nat
  write : Bool
  parts : List AccessPart
  /-- FT of the arrival at the controller. -/
  at' : Nat
  deriving DecidableEq, Repr

/-- The settings of one plane in the module configuration image (Table 15.8 TAGs 0x0002, 0x0008 and 0x0009). -/
structure PlaneCfg where
  aclk : Nat := 0
  role : Nat := 0
  mirror : Bool := false
  /-- SPM_PART_CFG: the defaults of Table 9.4. -/
  part : Word := 0x00410424#32
  guardBase : Nat := 0
  guardLen : Nat := 0
  /-- Reset values of the topology plan's registers, by unit number within the plane and offset. -/
  plan : SMap (SMap Word) := []
  deriving DecidableEq, Repr

/-- The module configuration image in force (Table 15.8). -/
structure ModConfig where
  opmode : Nat := 0
  planes : Quad PlaneCfg := Quad.const {}
  trf : Pair Word := ⟨0, 0⟩
  svcEn : Pair Bool := ⟨false, false⟩
  /-- The 256 ward entries. -/
  wards : SMap Word := []
  term : Nat := 1000
  prefer : Nat := 0
  /-- Domains left off at step 6. -/
  domOff : Word := 0
  /-- The key-signing public key, once named, and whether key signatures are required (TAG 0x0007). -/
  keySign : Option (List Byte) := none
  keyMust : Bool := false
  ccVerify : Bool := false
  deriving DecidableEq, Repr

/-- The ordering codes of Table 0.1. -/
inductive Grade where
  | s096 | s128 | e096
  deriving DecidableEq, Repr

/-- The identity record of the module (R437). (DESIGN CHOICE, log 5) (DEDUCED, log 62) -/
structure Ident where
  serial : Dword := 0
  grade : Grade := .s128
  /-- BLK_REV.STEPPING: 0xA1 or 0xB0. -/
  stepping : Nat := 0xB0
  vendorId : Nat := 0
  subVendor : Nat := 0
  subSystem : Nat := 0
  devSerial : Dword := 0
  mac : Pair Nat := ⟨0, 0⟩
  /-- The unusable slice position of each plane, 0x1F for none. -/
  unusable : Quad Nat := Quad.const 0x1F
  /-- The spare slice position of each plane (R3). -/
  spare : Quad Nat := Quad.const 16
  /-- The MRDIMM serial of socket 6 p + c. -/
  dimm : SMap Nat := []
  /-- Transmit and receive polarity words of SDS unit 2 p + i: four words each, key 8 p + 4 i + w. -/
  polarity : SMap Word := []
  /-- Calibrated one-way delay of hub link p of hub h, key 4 h + p, in 1/64 beat. -/
  linkDelay : SMap Nat := []
  /-- The SerDes transmitter presets, byte by byte (R437); a chiplet whose LT_EN is 0 transmits with them (R310). -/
  presets : List Byte := []
  deriving DecidableEq, Repr

/-- What the factory and the parts fitted determine at a start-up (R430): the serials read from the MRDIMMs, and the
parts that fail their start-up checks. (DESIGN CHOICE, log 5) -/
structure Fitted where
  /-- The serial in the SPD of socket 6 p + c. -/
  spd : SMap Nat := []
  /-- Slices (17 p + n), scratchpad banks (64 p + b), channels (6 p + c) and N-tiers (p) that fail self-test or
  training. -/
  badSlice : List Nat := []
  badBank : List Nat := []
  badDimm : List Nat := []
  badHbm : List Nat := []
  deriving DecidableEq, Repr

/-- Deadbolt entry (R408, R409): the record, and the beat of entry on each hub's counter. -/
structure Deadbolt where
  record : DeadRecord
  at' : Pair Nat
  deriving DecidableEq, Repr

/-- What leaves the module: frames, messages and completions on its outputs, oldest first (assumption log 10). -/
inductive Output where
  /-- An MSI-X message on a vector of a hub's port (R378). -/
  | msix (h : HubId) (vector : Nat) (addr : Dword) (data : Word)
  /-- A Completer Abort logged by AER, with the address of the request (R371, R374). -/
  | aer (h : HubId) (addr : Nat)
  /-- A completion returned to a host: status OK, poisoned or Completer Abort, with data. -/
  | completion (h : HubId) (tag : Nat) (ok : Bool) (poisoned : Bool) (data : List Byte)
  /-- The answer to a load of a plane's management core: a load-access fault, or the data (R266, R271). -/
  | mgcLoad (p : PlaneId) (tag : Nat) (fault : Bool) (data : List Byte)
  /-- A slave error on the internal bus toward a management core (R382). -/
  | slaveError (site : Nat)
  /-- A DOE response of a hub's port (R440). -/
  | doe (h : HubId) (resp : List Byte)
  /-- An Ethernet frame or RoCE response of a service port (R388). -/
  | roce (h : HubId) (qp : Nat) (opcode : Nat) (psn : Nat) (data : List Byte)
  | svcFrame (h : HubId) (data : List Byte)
  /-- A delay request of the IEEE 1588 clock (R70). -/
  | delayReq (h : HubId) (seq : Nat)
  /-- A relayed TSYNC toward a sibling plane (R78). -/
  | relay (h : HubId) (dst : PlaneId) (msg : TsyncMsg)
  /-- A CLASS CONTROL frame addressed to this module, handed to the plane's units (R315, R342): source, TAG, payloads. -/
  | handOver (p : PlaneId) (src tag : Nat) (cells : List Payload)
  /-- A 300-byte link unit sent on a lane (R282). -/
  | linkUnit (p : PlaneId) (lane : PortId) (u : BitVec 2400)
  /-- A report frame of a unit, on its pair to a hub (R395). -/
  | report (unit : Nat) (h : HubId) (frame : BitVec 16)
  /-- A message over the peer connection (R398). -/
  | peer (h : HubId)
  /-- Data read from the I3C target (R467). -/
  | i3c (data : List Byte)
  /-- The provisional ID that the I3C target answers ENTDAA with (R467). -/
  | i3cId (id : Nat)
  /-- A write of the I3C target to the Debug Module Interface (R467). -/
  | debug (off : Nat) (data : List Byte)
  deriving DecidableEq, Repr

/-- What the checks of a register write find beyond its access types (Table 2.3): a state the write is forbidden in, a
value outside a legal set, a zero count, an extent beyond its buffer. -/
structure Verdict where
  state : Bool := false
  range : Bool := false
  zero : Bool := false
  bounds : Bool := false
  deriving DecidableEq, Repr

/-- A frame that a unit of the plane originates and that waits for admission (R340, R348). One destination makes a
unicast frame, several a multicast frame. -/
structure UnitFrame where
  /-- The sending unit. -/
  unit : Nat
  /-- CLASS of Table 10.2: 0 DATA, 1 CONTROL, 2 RESULT, 3 SEAL. -/
  cls : Nat
  dests : List Nat
  /-- Traffic class, where the sender fixes one; none takes the control class (R341). -/
  tc : Option Nat := none
  tag : Nat := 0
  cells : List Payload
  deriving DecidableEq, Repr

/-- The state of one element of an open context. `w` is the FP32 value under WIDE32. -/
structure LongAcc where
  a : Int := 0
  nan : Bool := false
  pinf : Bool := false
  ninf : Bool := false
  allneg0 : Bool := true
  fin : Bool := false
  neg0 : Bool := false
  pos0 : Bool := false
  n : Nat := 0
  w : Nat := 0
  deriving DecidableEq, Repr

/-- A cell: the header of Table 10.2 and its payload. -/
structure Cell where
  pos : Nat := 3
  sched : Bool := false
  vc : Nat := 0
  cls : Nat := 0
  poison : Bool := false
  f2 : Bool := false
  dest : Nat := 0
  src : Nat := 0
  /-- FLEN of a HEAD or ONLY cell, CIDX of a MID or TAIL cell. -/
  flen : Nat := 0
  tag : Nat := 0
  data : Payload := 0
  deriving DecidableEq, Repr

/-- A scheduled position of a lane: the presentation slot (FT / 20) and its cell; none where the cell failed its CRC or
was a placeholder (R290, R295). -/
structure SchedIn where
  lane : Nat
  slot : Nat
  cell : Option Cell
  deriving DecidableEq, Repr

/-- A scheduled cell leaving on a lane in a slot; `pend` marks a placeholder for the cell of ingress lane `fwd` (R295). -/
structure SchedOut where
  lane : Nat
  slot : Nat
  cell : Cell
  pend : Bool := false
  fwd : Nat := 0
  deriving DecidableEq, Repr

/-- A stream table entry (Table 4.7). -/
structure StreamDef where
  base : Nat := 0
  len : Nat := 0
  stage : Nat := 0
  stageLen : Nat := 0
  deriving DecidableEq, Repr

/-- The three pointers of a stream (R107), as byte offsets from its bases. -/
structure StreamPtr where
  mem : Nat := 0
  fill : Nat := 0
  drain : Nat := 0
  deriving DecidableEq, Repr

/-- A slot of a run as the keyway has read it ahead (R97): its line and the line's bytes, the slots of the line from this one on, whether
it is the line's first, the loop counter with it, and whether it is the END line or a line whose read failed. -/
structure LineAhead where
  line : Nat
  loopAt : Option Nat := none
  loopLeft : Nat := 0
  left : Nat := 0
  first : Bool := true
  isEnd : Bool := false
  bad : Bool := false
  data : List Byte := []
  deriving DecidableEq, Repr

/-- One key bank beyond its registers: the header of its image, its tables and where its run stands. -/
structure KeyBank where
  /-- Source extent of the LOAD in progress, and its beat. -/
  srcAddr : Nat := 0
  srcLen : Nat := 0
  keyId : Nat := 0
  prevId : Nat := 0
  flags : Nat := 0
  lineCnt : Nat := 0
  partSig : Nat := 0
  sliceMap : Nat := 0
  memMap : Nat := 0
  bankMap : Nat := 0
  portMap : Nat := 0
  streamValid : Nat := 0
  gap : Nat := 0
  streams : List StreamDef := []
  /-- Valid alternate entries in table order: PAT and ALT. -/
  alts : List (Nat × Nat) := []
  /-- Patterns the key defines. -/
  pats : List Nat := []
  ptrs : List StreamPtr := []
  /-- The bank was PAUSED when it was re-armed. -/
  resumed : Bool := false
  /-- Latch entry that supplies the start FT, while armed through one. -/
  viaLatch : Option Nat := none
  /-- Start FT, once known. -/
  start : Option Nat := none
  /-- FT of the next slot of the run. -/
  nextSlot : Nat := 0
  line : Nat := 0
  repLeft : Nat := 0
  /-- The next slots of the run, as they have been read (R97). -/
  ahead : List LineAhead := []
  /-- Lanes that were active when the key was armed (R117, R307). -/
  lanesArm : List Nat := []
  /-- LOOP line whose passes are being counted, and the loop counter. -/
  loopAt : Option Nat := none
  loopLeft : Nat := 0
  pauseAt : Option Nat := none
  /-- FT of a STOP write, and of the FREE transition, that end the key at the next line boundary (R122). -/
  stop : Option Nat := none
  ftLost : Option Nat := none
  /-- A line read has failed (R122): the key ends CORRUPT before the next line. -/
  corrupt : Bool := false
  /-- End codes due at the end of a slot (REFRESH_MISS or ORDER), each with the FT of that end. -/
  endSlot : List (Nat × Nat) := []
  /-- SCRUB steps issued per target, and FT of the last host window per target. -/
  scrubs : SMap Nat := []
  windows : SMap Nat := []
  /-- Targets whose gap has been reported since their last window. -/
  gapSeen : List Nat := []
  deriving DecidableEq, Repr

/-- The causes of a key's end (Table 4.10). -/
inductive KeyEnd where
  | done | paused | stopped | ftLost | corrupt | refreshMiss | order | fenced
  deriving DecidableEq, Repr

/-- Why a core is halted (CCX_STAT.HCAUSE). -/
inductive HCause where
  | reset | halt | trap | wdog | fence | saveRej
  deriving DecidableEq, Repr

/-- A pattern of XPT: the bank that owns it, its 256 bytes and its redirect (R111, R117). -/
structure Pattern where
  owner : Nat
  data : Payload
  alt : Option Nat := none
  deriving DecidableEq, Repr

/-- One memory target (R256, R259): 0 to 5 an F-tier channel or the lower channel of a pair, 6 the N-tier. -/
structure Target where
  /-- Units used in the two slots before the latest, and in the latest slot with its number. -/
  u2 : Nat := 0
  u1 : Nat := 0
  u0 : Nat := 0
  slot : Nat := 0
  /-- The slot in which the key last exceeded the budget (R258). -/
  surplus : Option Nat := none
  /-- Start of the last refresh round. -/
  lastRef : Nat := 0
  /-- Last slot that the last round blocks. -/
  blocked : Option Nat := none
  /-- FT of the last patrol step, and granules stepped. -/
  lastPatrol : Nat := 0
  deriving DecidableEq, Repr

/-- One copy of a chunk's result (R163, R178, R179). -/
structure Copy where
  dst : CopyDst
  /-- Result cells sent of the current attempt. -/
  sent : Nat := 0
  attempt : Nat := 0
  /-- The egress CRC of the current attempt differs from RCRC. -/
  crcBad : Bool := false
  /-- KIND of the latest seal: 0 none, 1 POSITIVE, 2 NEGATIVE, 3 FINAL; and its reason. -/
  kind : Nat := 0
  reason : Nat := 0
  /-- Beat count of the first NEGATIVE seal since which no POSITIVE one was sent. -/
  negAt : Option Nat := none
  /-- Beat count of the latest NEGATIVE seal. -/
  negLast : Nat := 0
  /-- A repair delivery is queued on the port. -/
  queued : Bool := false
  /-- An earlier attempt failed its egress check (R178). -/
  failedOnce : Bool := false
  /-- Reason of a FINAL seal that is due to this copy alone (R166, R179, R184), 0 where none is. -/
  final : Nat := 0
  /-- Beat count at which a member's request started the latest delivery, and the member's endpoint (R178, R181). -/
  asked : Option (Nat × Nat) := none
  deriving DecidableEq, Repr

/-- The states of Table 6.2. -/
inductive ChunkState where
  | filling | closing | sending | repair | sealed | failed | released
  deriving DecidableEq, Repr

/-- A contribution cell a chunk has accepted: member index, cell number, payload (R164), in order of acceptance. -/
structure InCell where
  midx : Nat
  no : Nat
  data : Payload
  deriving DecidableEq, Repr

/-- One chunk of a context. (DESIGN CHOICE, log 54) -/
structure Chunk where
  num : Nat
  st : ChunkState := .filling
  /-- Bank of the key that opened it, none in adaptive mode. -/
  bank : Option Nat := none
  ins : List InCell := []
  /-- Members whose contribution is invalid. -/
  bad : List Nat := []
  /-- Next cell number of each delivering port (128 + f for memory, by source). -/
  nextCell : SMap Nat := []
  /-- Scheduled positions without a good cell: lane, slot, member, cell number (R295). -/
  missed : List (Nat × Nat × Nat × Nat) := []
  /-- The context already held D chunks when this one opened (R166). -/
  overD : Bool := false
  /-- The spare took over while the chunk was FILLING or CLOSING (R182). -/
  takeover : Bool := false
  /-- A NEGATIVE seal with this reason is due to every copy: RESIDUE or TAKEOVER. -/
  neg : Nat := 0
  /-- A FINAL seal with this reason is due to every copy not yet sealed. -/
  fail : Nat := 0
  closeReq : Bool := false
  /-- FT at which closing begins (a key) or began. -/
  closeAt : Nat := 0
  closeFt : Nat := 0
  status : Nat := 0
  rcrc : Nat := 0
  result : List Payload := []
  copies : List Copy := []
  /-- Ports whose scheduled copy has not begun (R105, R163). -/
  expect : List Nat := []
  /-- Members that had delivered cells when the chunk was released (R212). -/
  given : List Nat := []
  /-- Feeds issued before the CCLOSE that are not yet accumulated (R213). -/
  closeFeeds : Nat := 0
  /-- Marked for release (R166). -/
  marked : Bool := false
  /-- A recompute is needed since this FT; running since, on this slice; failed once already. -/
  recompNeed : Option Nat := none
  recompOn : Option (Nat × Nat) := none
  /-- FT at which the retained result was last written. -/
  resultAt : Nat := 0
  deriving DecidableEq, Repr

/-- A bound context of a slice position (R159, Table 5.3). -/
structure Ctx where
  core : Nat
  inFmt : Nat := 0
  outFmt : Nat := 0
  op : Nat := 0
  wide : Bool := false
  stoch : Bool := false
  ovfInf : Bool := false
  feed : Bool := false
  accum : Bool := false
  chunkCells : Nat := 16
  d : Nat := 1
  group : Nat := 0
  cseq : Nat := 0
  m : Nat := 1
  scaleIn : Nat := 0
  scaleOut : Nat := 0
  seed : Nat := 0
  digest : Nat := 0
  lmap : List Nat := []
  /-- The context is in FAULT (R141, R154). -/
  fault : Bool := false
  /-- Status byte of the last closed chunk. -/
  lastStatus : Nat := 0
  lastIdx : Nat := 0
  /-- The state of every element of the open chunk. -/
  acc : List LongAcc := []
  chunks : List Chunk := []
  /-- Unbound at the end of the running key (R405). -/
  orphan : Bool := false
  deriving DecidableEq, Repr

/-- A collective with bound contexts in the plane (R159, R174, R175). (DEDUCED, log 72) -/
structure Coll where
  group : Nat
  cseq : Nat
  /-- Members whose digest has matched. -/
  matched : List Nat := []
  /-- The member that caused MISMATCH and the digest it sent. -/
  aborted : Option (Nat × Nat) := none
  /-- Number of the next chunk a key opens (R160). -/
  next : Nat := 0
  /-- Chunks of its group whose written ranges were found poisoned while this collective was in progress, so that it ends with
  FAILED_AFTER_USE (R180). -/
  afterUse : List Nat := []
  deriving DecidableEq, Repr

/-- An accepted feed that has not finished (R212). -/
structure Feed' where
  core : Nat
  pos : Nat
  ctx : Nat
  chunk : Nat
  midx : Nat
  addr : Nat
  deriving DecidableEq, Repr

/-- An element of a port's repair queue (R179, R184): a copy of a chunk, and whether only its FINAL seal is to be sent. -/
structure RepairRef where
  pos : Nat
  ctx : Nat
  chunk : Nat
  dst : CopyDst
  sealOnly : Bool := false
  deriving DecidableEq, Repr

/-- The result stream a port is sending of a slice position (R105): the chunk, by context and number. -/
structure ResStream where
  pos : Nat
  port : Nat
  ctx : Nat
  chunk : Nat
  deriving DecidableEq, Repr

/-- A group's record (R227, Table 8.5). -/
structure Group where
  core : Nat := 0
  tclass : Nat := 0
  launch : Bool := false
  cirq : Bool := false
  en : Bool := false
  mcount : Nat := 1
  qbase : Nat := 0
  qent : Nat := 8
  cent : Nat := 8
  cbase : Nat := 0
  mbase : Nat := 0
  prod : Nat := 0
  cons : Nat := 0
  cprod : Nat := 0
  ccons : Nat := 0
  gen : Nat := 0
  dseq : Nat := 0
  /-- Descriptors popped and not completed: CSEQ and bytes. -/
  popped : List (Nat × List Byte) := []
  /-- ABANDONED records still to be posted: CSEQ and descriptor (R250). -/
  abandoned : List (Nat × List Byte) := []
  /-- Members counted for the popped barrier (R246), with its CSEQ. -/
  arrivals : List (Nat × Nat) := []
  deriving DecidableEq, Repr


/-- A wait in progress (R198, R199): 1 SWAIT, 2 QWAIT, 3 MRECV, 4 FTWAIT, 5 XWAIT. -/
structure CoreWait where
  kind : Nat
  rd : Nat
  /-- Object of SWAIT, destination of MRECV, largest count of XWAIT. -/
  arg : Nat := 0
  /-- Target of SWAIT, FT of FTWAIT. -/
  target : Nat := 0
  /-- Deadline D, none where the wait never expires. -/
  deadline : Option Nat := none
  /-- Beat and ACLK cycle of issue. -/
  at' : Nat
  cyc : Nat
  /-- Beat (SWAIT, QWAIT, MRECV) or ACLK cycle (XWAIT) in which the condition first held, and the value then. -/
  met : Option (Nat × Nat) := none
  /-- What the object of an SWAIT was in the last beat before its deadline ran out (R198). -/
  lapse : Option Nat := none
  deriving DecidableEq, Repr

/-- An update of a sync object in the present beat (R202): its place among those of the beat, its object, and whether it sets or adds. -/
structure SyncUpd where
  rank : Nat
  obj : Nat
  set : Bool
  val : Word
  deriving DecidableEq, Repr

/-- An outstanding transfer (R205): its block; for one that moves in the core's turns, the ACLK cycle of its next turn once it
has begun, of its last turn, and the 128-byte parts moved; and whether it met poison (R206). -/
structure Xfer where
  kind : Nat
  src : Nat
  dst : Nat
  len : Nat
  next : Nat := 0
  last : Nat := 0
  done : Nat := 0
  poison : Bool := false
  deriving DecidableEq, Repr

/-- An operation of a core that takes effect in a later beat than its issue (R201, R218, R219): SADD, SSET, SRD, LARR or
KCMD, with its operands and the register that its status goes to. -/
structure CoreOp where
  kind : Nat
  at' : Nat
  rd : Nat
  a : Nat := 0
  b : Nat := 0
  params : List Byte := []
  deriving DecidableEq, Repr

/-- One message of an inbox: module address and core of the sender, and its 256 bytes. -/
structure CoreMsg where
  srcMod : Nat
  core : Nat
  data : Payload
  deriving DecidableEq, Repr

/-- One collective core beyond its CCX page (R185 to R225). Registers that are not listed hold 0. -/
structure Core where
  x : SMap Dword := []
  w : SMap Vec := []
  pc : Dword := 0
  /-- CSRs that software writes, by number, and the difference of mcycle from the plane's ACLK cycle count. -/
  csr : SMap Dword := []
  cycOff : Int := 0
  /-- The local store: address and byte, addresses rising, no listed zero. -/
  ls : List Host.Cell := []
  /-- First ACLK cycle in which the next instruction may issue, and in which a register's value may be used. -/
  ready : Nat := 0
  xr : SMap Nat := []
  wr : SMap Nat := []
  /-- ACLK cycle of the issue of the last window store. -/
  winAt : Nat := 0
  wait : Option CoreWait := none
  /-- WAIT_KIND and WAIT_LEFT of a wait that a save abandoned: the next wait of that kind runs with this deadline. -/
  again : Option (Nat × Option Nat) := none
  xfers : List Xfer := []
  ops : List CoreOp := []
  inbox : List CoreMsg := []
  /-- FT at which the last instruction retired or the core was started (R221). -/
  retired : Nat := 0
  /-- FT of the SAVE or RESTORE write in progress; the state a failed restore returns to. -/
  since : Nat := 0
  wasSaved : Bool := false
  /-- First ACLK cycle that slot accounting has not placed in a category (R455). -/
  acct : Nat := 0
  /-- Last ACLK cycle in which an instruction may still issue ahead of the counter-overflow interrupt (R450). -/
  irqAt : Option Nat := none
  deriving DecidableEq, Repr
/-! ### Links (R281 to R308) -/

/-- A cell in a port's retry buffer (R292): its number, the lane and slot it left on, and, for a placeholder, the ingress lane
and slot whose replay fills it (R295). -/
structure Sent where
  seq : Nat
  lane : Nat
  slot : Nat
  cell : Cell
  pend : Bool := false
  fwdLane : Nat := 0
  fwdSlot : Nat := 0
  /-- Lane that the replay of a placeholder leaves on (R295). -/
  bound : Option Nat := none
  deriving DecidableEq, Repr

/-- A cell that a receiver waits for as a replay (R293): its number, the lane and slot it was sent in where they are known,
whether it is scheduled where that is known, and whether it is a placeholder, which needs no NAK (R295). -/
structure Nak where
  seq : Nat
  place : Option (Nat × Nat)
  sched : Option Bool
  pend : Bool := false
  deriving DecidableEq, Repr

/-- A link control message that waits for a message position (R301): its MTYPE, its bytes, and the FT it is due at. -/
structure CtlMsg where
  kind : Nat
  body : List Byte
  due : Nat
  deriving DecidableEq, Repr

/-- One lane's link. -/
structure LaneLink where
  /-- Slot of the latest unit received, in full. -/
  last : Option Nat := none
  /-- CTL bytes of the message being received, the slot its next part comes in, and the FT its first part came at. -/
  parts : List Byte := []
  nextPart : Nat := 0
  partAt : Nat := 0
  /-- Messages to send, and the bytes left of the one being sent. -/
  tx : List CtlMsg := []
  cur : List Byte := []
  /-- HSEQ, and the last interval of 65,536 beats that sent a HELLO. -/
  hseq : Nat := 0
  helloIn : Option Nat := none
  /-- A HELLO has come since DISCOVER was entered; consecutive matching HELLOs. -/
  heard : Bool := false
  streak : Nat := 0
  /-- CRC failures of cells, by number (R285). -/
  fails : SMap Nat := []
  /-- FT of uncorrectable codewords of the last 1,650,000 beats. -/
  ues : List Nat := []
  /-- Transmit and receive polarity in force, and whether link training runs, as taken at the last TRAINING entry (R310). -/
  txPol : Bool := false
  rxPol : Bool := false
  trains : Bool := false
  deriving DecidableEq, Repr

/-- A narrowing that waits for its switch time (R287): the offsets to remove, and T; `own` marks this end's. -/
structure Narrowing where
  mask : Nat
  t : Nat
  own : Bool
  deriving DecidableEq, Repr

/-- A frame that a receiver is assembling on a channel (R345): the frame, and the index of its next cell. -/
structure Assembly where
  frame : Nat
  next : Nat
  flen : Nat
  deriving DecidableEq, Repr

/-- The log of a unit (Table 2.2), with RSEQ, the beat of its capture and the period after which a class C fault acknowledges itself
(R395, R400). -/
structure LogSave where
  cls : Word := 0
  log0 : Word := 0
  log1 : Word := 0
  log2 : Word := 0
  log3 : Word := 0
  rseq : Nat := 0
  capAt : Nat := 0
  capFor : Nat := 0
  deriving DecidableEq, Repr

/-- One detection of a fault: its SOURCE, class, WHERE and DETAIL. -/
structure Detection where
  src : Nat
  cls : FaultClass
  loc : Nat
  detail : Nat
  /-- BLK_ERR_INJ injected it (R417). -/
  injected : Bool := false
  deriving DecidableEq, Repr

/-- The report logic of one unit (R395, R400, R402). -/
structure Reporter where
  rseq : Nat := 0
  /-- Beat of the unit's clock at the last frame sent. -/
  lastSent : Nat := 0
  /-- Beat of the unit's clock at the capture of the held fault, and the beats after which a class C fault acknowledges
  itself, fixed at the capture. -/
  capAt : Nat := 0
  capFor : Nat := 0
  /-- SOURCE and path (FCL_FATAL.PATH) of the fault that raised CLASS to F. -/
  fatalSrc : Nat := 0
  fatalPath : Nat := 0
  /-- An injected D fault corrupts the next item the check of this SOURCE protects (R417). -/
  corrupt : Option Nat := none
  /-- The detections of one beat of the unit's clock in SOURCE order, that beat, and the log before them (R47, R402). -/
  seenAt : Nat := 0
  seen : List Detection := []
  base : LogSave := {}
  /-- Beats in which FENCE_REQ last closed the unit's hasp, and in which a fault last named it (R402). -/
  askedAt : Option Nat := none
  hitAt : Option Nat := none
  deriving DecidableEq, Repr

/-- The registers and reports of a unit. -/
structure PageSave where
  unit : Nat
  regs : SMap Word
  rep : Reporter
  deriving DecidableEq, Repr

/-- The pages of a port before the first event of a beat (R308). -/
structure PortSave where
  beat : Nat
  pages : List PageSave
  deriving DecidableEq, Repr

/-- One port's link. -/
structure PortLink where
  /-- FT at which the port entered its state. -/
  since : Nat := 0
  /-- Send side: next SEQ, retry buffer, placeholders whose content has not come, replays due in order, and the slot of the first
  NAK of each SEQ. -/
  txSeq : Nat := 0
  retry : List Sent := []
  pends : List Sent := []
  replays : List Nat := []
  nakAt : SMap Nat := []
  /-- Cells first sent on each channel, and the latest CCUM received. -/
  first : SMap Nat := []
  ccum : SMap Nat := []
  /-- The last slot in which the port sent its units. -/
  sentSlot : Option Nat := none
  /-- Receive side: next SEQ expected, awaited replays, adaptive cells discarded under R296, adaptive cells held behind a missing
  cell of unknown kind, and positions whose unit was discarded whole. -/
  rxSeq : Nat := 0
  naks : List Nak := []
  skipped : List Nat := []
  aside : List (Nat × Cell) := []
  lost : List (Nat × Nat) := []
  /-- Credits returned on each channel, and credits held back while injection is held (R332). -/
  given : SMap Nat := []
  owed : SMap Nat := []
  asm : SMap Assembly := []
  /-- Offsets with a lane fault (R285), and the narrowings that wait. -/
  bad : List Nat := []
  narrow : List Narrowing := []
  /-- A probe has been sent in this training. -/
  probed : Bool := false
  /-- QUARANTINE was entered from UP or NARROWING, in beat `since` (R308). -/
  fromUp : Bool := false
  /-- 64ths of a beat into its slot at which the port's units leave, from the end of training on (R280). -/
  offset : Option Nat := none
  /-- The port's pages before the first event of a beat (R308). -/
  saved : Option PortSave := none
  deriving DecidableEq, Repr

/-! ### The adaptive switch core (R338 to R366) -/

/-- A frame in the switch core or a reorder buffer (R343, R346). -/
structure Held where
  id : Nat
  /-- The frame of which this is the copy that a reorder buffer took, or itself. -/
  origin : Nat := 0
  /-- Arrival port and channel, none for a unit's frame. -/
  inPort : Option Nat
  vc : Nat
  cls : Nat
  f2 : Bool
  dest : Nat
  src : Nat
  flen : Nat
  tag : Nat
  tc : Nat
  job : Nat
  epoch : Nat
  /-- 0 green, 1 yellow, 2 red. -/
  color : Nat
  admitFt : Nat
  latch : Bool
  /-- Payload and POISON of each cell written, and the TAG that each cell brought. -/
  data : List (Payload × Bool) := []
  tags : List Nat := []
  /-- Slot in which the head cell was written (R344). -/
  headAt : Nat := 0
  /-- No further cell comes. -/
  complete : Bool := false
  toUnits : Bool := false
  /-- Accelerator port whose reorder buffer takes the cells (R346). -/
  rob : Option Nat := none
  deriving DecidableEq, Repr

/-- A copy in an output queue (R343, R355). -/
structure QCopy where
  frame : Nat
  dest : Nat
  /-- Slot in which the head cell was written. -/
  head : Nat
  admitFt : Nat
  deadline : Nat
  sent : Nat := 0
  deriving DecidableEq, Repr

/-- An allocated buffer cell (R339, R361): its frame and index, its recorded deadline, and the port and channel its credit returns
to. -/
structure BufCell where
  frame : Nat
  no : Nat
  deadline : Nat
  credit : Option (Nat × Nat)
  deriving DecidableEq, Repr

/-- A stream of an accelerator port's reorder buffer (R326 to R328). -/
structure RobStream where
  src : Nat
  group : Nat
  cseq : Nat
  exp : Option Nat := none
  opened : Nat
  /-- FT since which it holds no frame. -/
  idle : Nat := 0
  /-- Frames held, with their arrival, in order of arrival. -/
  frames : List (Nat × Nat) := []
  /-- Attempts of EXP whose RESULT frame has been released. -/
  results : List Nat := []
  /-- Ranges of chunks that forced releases passed over. -/
  passed : List (Nat × Nat) := []
  deriving DecidableEq, Repr

/-- A token bucket in units of 1/1,650 byte (R357), as of a slot boundary; `rate` is the rate the refill uses. -/
structure Shaper where
  en : Bool := false
  rate : Nat := 1
  burst : Nat := 1
  tok : Int := 422400
  /-- Last slot boundary whose refill is counted. -/
  slot : Nat := 0
  deriving DecidableEq, Repr

/-- An output queue's settings and counts (R354 to R359). -/
structure QState where
  quantum : Nat := 16
  strict : Option Bool := none
  shaper : Shaper := {}
  deficit : Nat := 0
  maxDepth : Nat := 0
  lastDelay : Nat := 0
  maxDelay : Nat := 0
  /-- Average depth in units of 2^-16 cell. -/
  avg : Int := 0
  deriving DecidableEq, Repr

/-- A port's scheduler: its shaper and round-robin position. -/
structure PState where
  shaper : Shaper := {}
  rr : Nat := 0
  deriving DecidableEq, Repr

/-- The parameters of a policer (R366). -/
structure PolParams where
  cir : Nat := 0xFFFFF
  pir : Nat := 0xFFFFF
  cbs : Nat := 0xFFFFF
  pbs : Nat := 0xFFFFF
  redDrop : Bool := false
  deriving DecidableEq, Repr

/-- A policer (R351 to R353): its parameters, counts and the beat of their update, and parameters applied in this beat. -/
structure Policer where
  cur : PolParams := {}
  next : Option (PolParams × Nat) := none
  tc : Nat := 0xFFFFF * 422400
  tp : Nat := 0xFFFFF * 422400
  last : Nat := 0
  green : Nat := 0
  yellow : Nat := 0
  red : Nat := 0
  deriving DecidableEq, Repr

/-- A COMMIT of GRQ that was rejected with STATE, until the end of its beat: KEEP, and BLK_STAT and BLK_IRQ_STAT before and after (R250). -/
structure LateCommit where
  beat : Nat
  keep : Bool
  stat : Word × Word
  irq : Word × Word
  deriving DecidableEq, Repr

/-- A candidate copy of a frame for an output queue (R343 step 5). -/
structure Cand where
  frame : Nat
  dest : Nat
  queue : Nat
  deriving DecidableEq, Repr

/-- The adaptive side of one plane. -/
structure Fabric where
  /-- Ports that carried traffic at the end of the last beat (R325). -/
  wasUp : List Nat := []
  lanes : SMap LaneLink := []
  links : SMap PortLink := []
  /-- Adaptive cells accepted by the links and not yet written into the buffer, oldest first, with their port. -/
  arrived : List (Nat × Cell) := []
  frames : List Held := []
  nextId : Nat := 0
  /-- Candidate copies of the frames admitted in this beat, in the order offered (R354). -/
  cands : List Cand := []
  /-- Output queue 8 p + q, copies in order of linking. -/
  queues : SMap (List QCopy) := []
  bufs : SMap BufCell := []
  /-- The auditor's next cell, and the FT of its last visit. -/
  audit : Nat := 0
  auditAt : Option Nat := none
  robs : SMap (List RobStream) := []
  qs : SMap QState := []
  ps : SMap PState := []
  pols : SMap Policer := []
  /-- Words of the epoch tables that differ from their reset values, by bank, table, index and word. -/
  tbl : SMap Word := []
  /-- Whether EPOCH_CNT0 and EPOCH_CNT1 were nonzero at the start of the beat (R362). -/
  epochStart : Bool × Bool := (false, false)
  /-- Bank that becomes current in the next beat. -/
  flip : Option Nat := none
  /-- Ports whose RTE_ADMIT bit the module cleared, that keep their place in their set until the next COMMIT (R325). -/
  left : List Nat := []
  /-- The resume time was reached in this beat in DRAINED (R335). -/
  resumeHit : Bool := false
  /-- The resume is armed (R334), and the beat of START. -/
  resume : Bool := false
  startAt : Nat := 0
  /-- CHECK_ENT has become RELEASED in this beat (R333). -/
  sample : Bool := false
  /-- The pattern of the slot that a key runs, with the slot. -/
  pat : Option (Nat × Payload) := none
  /-- Staging positions that a damaged scheduled cell left invalid: lane, slot, address (R295). -/
  stageMiss : List (Nat × Nat × Nat) := []
  deriving DecidableEq, Repr

/-- One plane beyond its registers. -/
structure Plane where
  ftm : Ftm := {}
  /-- The ACLK setting that a started relock brings (R31, R32), none where no relock has started. -/
  relock : Option Nat := none
  /-- The active lanes at the end of the last beat: the port part of the unit map (R30). -/
  lanesNow : List Nat := []
  latch : SMap LatchEntry := []
  /-- Frames the plane's units have issued and that wait for admission, oldest first (R340). -/
  unitFrames : List UnitFrame := []
  /-- Accesses that wait for a host window, in arrival order (R261). -/
  hostQ : List HostAccess := []
  /-- Replayed contributions that wait for unused lane-cycles: position, context, chunk, MIDX, cell number, payload (R295). -/
  lateCells : List (Nat × Nat × Nat × Nat × Nat × Payload) := []
  /-- Lane-cycles that each position has used in a slot, with the slot (R153). -/
  cyclesUsed : Nat × SMap Nat := (0, [])
  /-- The COMMIT of GRQ that was rejected with STATE in this beat (R250). -/
  lateCommit : Option LateCommit := none
  /-- Plane memory: address and byte, addresses strictly rising; an unlisted address reads 0x00 (assumption log 11). -/
  mem : List Host.Cell := []
  /-- Poisoned granules: first address of each, rising (R265). -/
  poison : List Nat := []
  /-- Granules poisoned in a beat, and that beat: they end it poisoned (R267). -/
  poisonNow : Nat × List Nat := (0, [])
  /-- TAG of the data cells that contribution frames placed in open staging, by address (R167). -/
  stageTags : SMap Nat := []
  /-- DRAM granules whose stored copy holds a correctable error (R264), rising. -/
  latent : List Nat := []
  /-- F-tier channels that were fenced at the last plane or module reset: the interleave was formed without them (R254). -/
  lostChans : List Nat := []
  /-- Granules that a SEALED chunk wrote: the first address, group, CSEQ and chunk of each write (R180). -/
  written : List (Nat × Nat × Nat × Nat) := []
  /-- Physical banks fenced in operation and not yet mapped out (R268), and the partition in force (SPM_PART_CFG). -/
  fencedBanks : List Nat := []
  part : Option Word := none
  /-- The logical bank map in force, physical bank of each logical bank; none before it is formed from the self-test. -/
  bankMap : Option (List Nat) := none
  /-- FT of the partition apply in progress. -/
  applyAt : Option Nat := none
  tgts : SMap Target := []
  keys : List KeyBank := [{}, {}]
  xpt : SMap Pattern := []
  /-- Staging cells marked invalid or poisoned, by address (R258, R266). -/
  stageBad : List Nat := []
  stagePoison : List Nat := []
  schedIn : List SchedIn := []
  schedOut : List SchedOut := []
  fab : Fabric := {}
  /-- Events that the PMU counts (Table 16.1): beat, code, instance, number; core events: core, code, ACLK cycle, number; and
  histogram samples: point, SEL, value. -/
  events : List (Nat × Nat × Nat × Nat) := []
  coreEvents : List (Nat × Nat × Nat × Nat) := []
  samples : List (Nat × Nat × Nat) := []
  /-- CFG of counters as it was before a write of this beat (R448), and a snapshot due at the end of the beat (R449). -/
  pmuOld : SMap Word := []
  snapDue : Bool := false
  /-- Sync-object operations of the slot, applied at this FT (R103): operation, object, value. -/
  sops : Option (Nat × List (Nat × Nat × Nat)) := none
  groups : SMap Group := []
  cores : SMap Core := []
  /-- Beat at which each running management core's watchdog was last restarted (R442). -/
  mgcDog : SMap Nat := []
  /-- Digest of the plane firmware that runs (R440, Table 15.9 indices 3 to 6). -/
  fwDigest : List Byte := []
  /-- The 32 MiB private memory of the plane's management cores (R442): its nonzero bytes, addresses rising (log 81). -/
  mgcMem : List Host.Cell := []
  /-- Values of the sync objects that are not 0. -/
  syncs : SMap Word := []
  /-- The updates of sync objects that this beat has brought, in the order of R202. -/
  syncLog : List SyncUpd := []
  ctxs : SMap Ctx := []
  colls : List Coll := []
  feeds : List Feed' := []
  streams : List ResStream := []
  repairs : SMap (List RepairRef) := []
  /-- Element captured for inspection of each slice (R158). -/
  captures : SMap LongAcc := []
  /-- A key swap with CTRL_PATH 1: its end beat E and, once known, S2 (R376). -/
  swapLow : Option (Nat × Option Nat) := none
  deriving DecidableEq, Repr

/-- The whole module. -/
structure State where
  /-- Every register field of every block that holds a stored value: unit number (Table 13.4), then byte offset over the
  block's pages. An unlisted register holds its reset value. -/
  regs : SMap (SMap Word)
  /-- Interrupt conditions that are present for the current beat only, by unit. -/
  pulse : SMap Word
  /-- The report logic of each unit. -/
  rep : SMap Reporter
  planes : Quad Plane
  hubs : Pair Hub
  pwr : PowerCtl
  lease : Lease
  mbx : SMap Channel
  cfg : ModConfig
  ident : Ident
  fitted : Fitted
  /-- Present from the entry into the deadbolt state (R408). -/
  dead : Option Deadbolt
  /-- The level of PPS_OUT, and the FT of its last rise. -/
  ppsOut : Option Nat
  /-- What the module has sent, oldest first. -/
  out : List Output
  /-- The model's own counter for free values (assumption log 7). -/
  fresh : Nat
  /-- The commands that wait, first in, first out. -/
  pending : List Instr
  deriving DecidableEq, Repr

/-- The module before its first feed is OK: every register at its Reset column, memories empty, no command waiting. (DESIGN CHOICE, log 4) -/
def State.reset : State where
  regs := []
  pulse := []
  rep := []
  planes := Quad.const {}
  hubs := ⟨{}, {}⟩
  pwr := {}
  lease := {}
  mbx := []
  cfg := {}
  ident := {}
  fitted := {}
  dead := none
  ppsOut := none
  out := []
  fresh := 0
  pending := []

end Sys2Proof.Machine
end

