-- ==== Sys2Proof/Machine/Fields.lean ====
section
/-! DEFINITION. Sys2Proof/Machine/Fields.lean: every register field of the module, one definition each, named
REGISTER_FIELD as the register tables of the spec name them (Tables 1.6, 1.12, 2.2, 3.4, 3.5, 3.8, 4.12, 4.13, 5.8,
7.6, 7.10, 8.5, 9.6, 9.7, 10.8, 10.9, 11.9, 12.3, 12.5, 12.6, 13.6 to 13.10, 14.12, 15.10 to 15.12, 16.3), and the
field list of each block type. `src` marks a field whose Reset column names a source instead of a value. -/

namespace Sys2Proof.Machine.Fld

def PLN_CFG_ACLK_SET : RField := { off := 0x040, hi := 1, lo := 0, acc := .rwl, src := true, legal := .le 2 }
def PLN_STATE : RField := { off := 0x044, hi := 3, lo := 0, acc := .ro, rst := 0x1 }
def PLN_STATE_ACLK_NOW : RField := { off := 0x044, hi := 5, lo := 4, acc := .ro, src := true }
def PLN_STATE_FT_LOCKED : RField := { off := 0x044, hi := 8, lo := 8, acc := .ro }
def PLN_UNIT_SLICE_SLICE_ACT : RField := { off := 0x048, hi := 16, lo := 0, acc := .ro, src := true }
def PLN_UNIT_SLICE_SPARE_IDX : RField := { off := 0x048, hi := 24, lo := 20, acc := .ro, src := true }
def PLN_UNIT_MEM_FMC_ACT : RField := { off := 0x04C, hi := 5, lo := 0, acc := .ro, src := true }
def PLN_UNIT_MEM_NMC_ACT : RField := { off := 0x04C, hi := 8, lo := 8, acc := .ro, rst := 0x1 }
def PLN_UNIT_MEM_CC_ACT : RField := { off := 0x04C, hi := 31, lo := 16, acc := .ro, rst := 0xFFFF }
def PLN_UNIT_SPM_LO_BANK_ACT_LO : RField := { off := 0x050, hi := 31, lo := 0, acc := .ro, rst := 0xFFFFFFFF }
def PLN_UNIT_SPM_HI_BANK_ACT_HI : RField := { off := 0x054, hi := 31, lo := 0, acc := .ro, rst := 0xFFFFFFFF }
def PLN_UNIT_SEQ : RField := { off := 0x058, hi := 31, lo := 0, acc := .ro }
def HUB_LINK_CTL_EN : RField := { off := 0x400, hi := 0, lo := 0, acc := .rwl, rst := 0x1, stride := 16, n := 4 }
def HUB_LINK_STAT_UP : RField := { off := 0x404, hi := 0, lo := 0, acc := .ro, stride := 16, n := 4 }
def HUB_LINK_STAT_CLOSED : RField := { off := 0x404, hi := 1, lo := 1, acc := .ro, stride := 16, n := 4 }
def HUB_LINK_STAT_TMO_CNT : RField := { off := 0x404, hi := 31, lo := 16, acc := .ro, stride := 16, n := 4 }
def HUB_LINK_DELAY : RField := { off := 0x408, hi := 15, lo := 0, acc := .ro, src := true, stride := 16, n := 4 }
def HUB_LINK_REQ : RField := { off := 0x40C, hi := 31, lo := 0, acc := .ro, stride := 16, n := 4 }
def HUB_PEER_PEER_OK : RField := { off := 0x440, hi := 0, lo := 0, acc := .ro }
def HUB_PEER_MISS : RField := { off := 0x440, hi := 31, lo := 16, acc := .ro }
def BLK_ID_INSTANCE : RField := { off := 0x000, hi := 7, lo := 0, acc := .ro, src := true }
def BLK_ID_TYPE : RField := { off := 0x000, hi := 15, lo := 8, acc := .ro, src := true }
def BLK_ID_SITE : RField := { off := 0x000, hi := 18, lo := 16, acc := .ro, src := true }
def BLK_ID_PAGE : RField := { off := 0x000, hi := 31, lo := 20, acc := .ro, src := true }
def BLK_REV_STEPPING : RField := { off := 0x004, hi := 7, lo := 0, acc := .ro, src := true }
def BLK_REV_BLK_VER : RField := { off := 0x004, hi := 15, lo := 8, acc := .ro, rst := 0x1 }
def BLK_CTRL_EN : RField := { off := 0x008, hi := 0, lo := 0, acc := .rw }
def BLK_CTRL_SRST : RField := { off := 0x008, hi := 1, lo := 1, acc := .wo }
def BLK_CTRL_LOCK : RField := { off := 0x008, hi := 2, lo := 2, acc := .rw }
def BLK_STAT_REJ : RField := { off := 0x00C, hi := 0, lo := 0, acc := .w1c }
def BLK_STAT_LOCK_HIT : RField := { off := 0x00C, hi := 1, lo := 1, acc := .w1c }
def BLK_STAT_LOCKED : RField := { off := 0x00C, hi := 2, lo := 2, acc := .ro }
def BLK_STAT_EN_NOW : RField := { off := 0x00C, hi := 3, lo := 3, acc := .ro }
def BLK_STAT_RST_BUSY : RField := { off := 0x00C, hi := 4, lo := 4, acc := .ro }
def BLK_STAT_TEST : RField := { off := 0x00C, hi := 5, lo := 5, acc := .ro, src := true }
def BLK_STAT_REJ_CODE : RField := { off := 0x00C, hi := 11, lo := 8, acc := .ro }
def BLK_STAT_REJ_OFF : RField := { off := 0x00C, hi := 23, lo := 12, acc := .ro }
def BLK_STAT_REJ_CNT : RField := { off := 0x00C, hi := 31, lo := 24, acc := .ro }
def BLK_IRQ_RAW : RField := { off := 0x010, hi := 31, lo := 0, acc := .ro }
def BLK_IRQ_EN : RField := { off := 0x014, hi := 31, lo := 0, acc := .rw }
def BLK_IRQ_STAT : RField := { off := 0x018, hi := 31, lo := 0, acc := .w1c }
def BLK_ERR_CLASS : RField := { off := 0x01C, hi := 1, lo := 0, acc := .ro }
def BLK_ERR_CLASS_OVF : RField := { off := 0x01C, hi := 2, lo := 2, acc := .ro }
def BLK_ERR_CLASS_ACK : RField := { off := 0x01C, hi := 3, lo := 3, acc := .wo }
def BLK_ERR_CLASS_SOURCE : RField := { off := 0x01C, hi := 15, lo := 8, acc := .ro }
def BLK_ERR_CLASS_C_COUNT : RField := { off := 0x01C, hi := 31, lo := 16, acc := .ro }
def BLK_ERR_LOG0_FT_LO : RField := { off := 0x020, hi := 31, lo := 0, acc := .ro }
def BLK_ERR_LOG1_FT_HI : RField := { off := 0x024, hi := 31, lo := 0, acc := .ro }
def BLK_ERR_LOG2_WHERE : RField := { off := 0x028, hi := 31, lo := 0, acc := .ro }
def BLK_ERR_LOG3_DETAIL : RField := { off := 0x02C, hi := 31, lo := 0, acc := .ro }
def BLK_ERR_INJ_INJ_SRC : RField := { off := 0x030, hi := 7, lo := 0, acc := .rw }
def BLK_ERR_INJ_INJ_CLASS : RField := { off := 0x030, hi := 9, lo := 8, acc := .rw }
def BLK_ERR_INJ_GO : RField := { off := 0x030, hi := 31, lo := 31, acc := .wo }
def BLK_FENCE_FENCED : RField := { off := 0x034, hi := 0, lo := 0, acc := .ro }
def BLK_FENCE_POWERED : RField := { off := 0x034, hi := 1, lo := 1, acc := .ro, rst := 0x1 }
def BLK_FENCE_CAUSE : RField := { off := 0x034, hi := 7, lo := 4, acc := .ro }
def BLK_FENCE_FENCE_REQ : RField := { off := 0x034, hi := 8, lo := 8, acc := .wo }
def BLK_SEQ : RField := { off := 0x038, hi := 31, lo := 0, acc := .ro }
def FTM_CFG_ROLE : RField := { off := 0x040, hi := 1, lo := 0, acc := .rwl, src := true, legal := .le 2 }
def FTM_CFG_REF_HUB : RField := { off := 0x040, hi := 2, lo := 2, acc := .rwl }
def FTM_CFG_RELAY_EN : RField := { off := 0x040, hi := 3, lo := 3, acc := .rwl, rst := 0x1 }
def FTM_CFG_HOLD_LIMIT : RField := { off := 0x040, hi := 15, lo := 8, acc := .rw, rst := 0x10, legal := .count }
def FTM_UPSTREAM_PRI_PORT : RField := { off := 0x044, hi := 6, lo := 0, acc := .rwl, src := true }
def FTM_UPSTREAM_PRI_EN : RField := { off := 0x044, hi := 7, lo := 7, acc := .rwl, src := true }
def FTM_UPSTREAM_ALT_PORT : RField := { off := 0x044, hi := 14, lo := 8, acc := .rwl, src := true }
def FTM_UPSTREAM_ALT_EN : RField := { off := 0x044, hi := 15, lo := 15, acc := .rwl, src := true }
def FTM_STAT_STATE : RField := { off := 0x048, hi := 2, lo := 0, acc := .ro }
def FTM_STAT_SRC : RField := { off := 0x048, hi := 6, lo := 4, acc := .ro }
def FTM_STAT_DEPTH : RField := { off := 0x048, hi := 11, lo := 8, acc := .ro, rst := 0xF }
def FTM_STAT_PHASE_ERR : RField := { off := 0x048, hi := 31, lo := 16, acc := .ro }
def FTM_CAP : RField := { off := 0x04C, hi := 0, lo := 0, acc := .wo }
def FTM_CAP_LO : RField := { off := 0x050, hi := 31, lo := 0, acc := .ro }
def FTM_CAP_HI : RField := { off := 0x054, hi := 31, lo := 0, acc := .ro }
def FTM_SEED_LO : RField := { off := 0x058, hi := 31, lo := 0, acc := .rw }
def FTM_SEED_HI : RField := { off := 0x05C, hi := 31, lo := 0, acc := .rw }
def FTM_XCNT : RField := { off := 0x060, hi := 31, lo := 0, acc := .ro }
def FTM_ASYM : RField := { off := 0x100, hi := 15, lo := 0, acc := .rw, stride := 4, n := 128 }
def TRF_CFG_REF_SRC : RField := { off := 0x040, hi := 1, lo := 0, acc := .rw, src := true, legal := .le 2 }
def TRF_CFG_PPS_OUT_EN : RField := { off := 0x040, hi := 4, lo := 4, acc := .rw }
def TRF_CFG_PPS_OUT_PLANE : RField := { off := 0x040, hi := 6, lo := 5, acc := .rw }
def TRF_CFG_PTP_DOMAIN : RField := { off := 0x040, hi := 15, lo := 8, acc := .rw }
def TRF_CFG_PTP_TRANSPORT : RField := { off := 0x040, hi := 17, lo := 16, acc := .rw, legal := .le 1 }
def TRF_STAT_REF_OK : RField := { off := 0x044, hi := 0, lo := 0, acc := .ro }
def TRF_STAT_PPS_OK : RField := { off := 0x044, hi := 1, lo := 1, acc := .ro }
def TRF_STAT_PTP_OK : RField := { off := 0x044, hi := 2, lo := 2, acc := .ro }
def TRF_STAT_FREQ_ERR : RField := { off := 0x044, hi := 31, lo := 16, acc := .ro }
def TRF_PPS_CNT : RField := { off := 0x048, hi := 31, lo := 0, acc := .ro }
def TRF_PPS_PHASE : RField := { off := 0x04C, hi := 31, lo := 0, acc := .ro }
def TRF_PPS_REJ : RField := { off := 0x050, hi := 15, lo := 0, acc := .ro }
def LAT_CFG_MARGIN : RField := { off := 0x040, hi := 19, lo := 0, acc := .rw, rst := 0x4000, legal := .between 1024 1048575 }
def LAT_STAT_DISCARD_CNT : RField := { off := 0x044, hi := 15, lo := 0, acc := .ro }
def LAT_STAT_MISSED_CNT : RField := { off := 0x044, hi := 31, lo := 16, acc := .ro }
def LAT_DONE_LO : RField := { off := 0x048, hi := 31, lo := 0, acc := .w1c }
def LAT_DONE_HI : RField := { off := 0x04C, hi := 31, lo := 0, acc := .w1c }
def ENT_CTRL_ARM : RField := { off := 0x400, hi := 0, lo := 0, acc := .wo, stride := 32, n := 64 }
def ENT_CTRL_ABORT : RField := { off := 0x400, hi := 1, lo := 1, acc := .wo, stride := 32, n := 64 }
def ENT_CTRL_ARRIVE : RField := { off := 0x400, hi := 2, lo := 2, acc := .wo, stride := 32, n := 64 }
def ENT_CTRL_ROOT : RField := { off := 0x400, hi := 4, lo := 4, acc := .rw, stride := 32, n := 64 }
def ENT_CTRL_ACT_SYNC : RField := { off := 0x400, hi := 5, lo := 5, acc := .rw, stride := 32, n := 64 }
def ENT_CTRL_ACT_KEY : RField := { off := 0x400, hi := 6, lo := 6, acc := .rw, stride := 32, n := 64 }
def ENT_CTRL_ACT_IRQ : RField := { off := 0x400, hi := 7, lo := 7, acc := .rw, stride := 32, n := 64 }
def ENT_CTRL_LOCAL_N : RField := { off := 0x400, hi := 15, lo := 8, acc := .rw, rst := 0x1, legal := .custom, stride := 32, n := 64 }
def ENT_CTRL_GEN : RField := { off := 0x400, hi := 23, lo := 16, acc := .rw, stride := 32, n := 64 }
def ENT_CFG_N : RField := { off := 0x404, hi := 12, lo := 0, acc := .rw, rst := 0x1, legal := .countLe 4096, stride := 32, n := 64 }
def ENT_CFG_PIDX : RField := { off := 0x404, hi := 27, lo := 16, acc := .rw, stride := 32, n := 64 }
def ENT_ROOT_ROOT_MOD : RField := { off := 0x408, hi := 15, lo := 0, acc := .rw, stride := 32, n := 64 }
def ENT_ROOT_SYNC_IDX : RField := { off := 0x408, hi := 27, lo := 16, acc := .rw, stride := 32, n := 64 }
def ENT_TMO_LO : RField := { off := 0x40C, hi := 31, lo := 0, acc := .rw, rst := 0xFFFFFFFF, stride := 32, n := 64 }
def ENT_TMO_HI : RField := { off := 0x410, hi := 31, lo := 0, acc := .rw, rst := 0xFFFFFFFF, stride := 32, n := 64 }
def ENT_STAT_STATE : RField := { off := 0x414, hi := 3, lo := 0, acc := .ro, stride := 32, n := 64 }
def ENT_STAT_LOCAL_CNT : RField := { off := 0x414, hi := 11, lo := 4, acc := .ro, stride := 32, n := 64 }
def ENT_STAT_ARR_CNT : RField := { off := 0x414, hi := 28, lo := 16, acc := .ro, stride := 32, n := 64 }
def ENT_STAT_MISS : RField := { off := 0x414, hi := 29, lo := 29, acc := .ro, stride := 32, n := 64 }
def ENT_STRIKE_LO : RField := { off := 0x418, hi := 31, lo := 0, acc := .ro, stride := 32, n := 64 }
def ENT_STRIKE_HI : RField := { off := 0x41C, hi := 31, lo := 0, acc := .ro, stride := 32, n := 64 }
def KSQ_CMD : RField := { off := 0x040, hi := 2, lo := 0, acc := .wo, legal := .custom }
def KSQ_SRC_LO : RField := { off := 0x044, hi := 31, lo := 0, acc := .rw }
def KSQ_SRC_HI : RField := { off := 0x048, hi := 15, lo := 0, acc := .rw }
def KSQ_SRC_LEN : RField := { off := 0x04C, hi := 31, lo := 0, acc := .rw, legal := .count }
def KSQ_START_LO : RField := { off := 0x050, hi := 31, lo := 0, acc := .rw }
def KSQ_START_HI : RField := { off := 0x054, hi := 31, lo := 0, acc := .rw }
def KSQ_ARM_CFG_LATCH_ENT : RField := { off := 0x058, hi := 5, lo := 0, acc := .rw }
def KSQ_ARM_CFG_VIA_LATCH : RField := { off := 0x058, hi := 6, lo := 6, acc := .rw }
def KSQ_PAUSE_LO : RField := { off := 0x05C, hi := 31, lo := 0, acc := .rw }
def KSQ_PAUSE_HI : RField := { off := 0x060, hi := 31, lo := 0, acc := .rw }
def KSQ_STAT_ACTIVE_BANK : RField := { off := 0x064, hi := 0, lo := 0, acc := .ro }
def KSQ_STAT_SWAP_WIN : RField := { off := 0x064, hi := 1, lo := 1, acc := .ro }
def KSQ_STAT_GAP_HIT : RField := { off := 0x064, hi := 2, lo := 2, acc := .w1c }
def KSQ_STAT_LATE_CNT : RField := { off := 0x064, hi := 31, lo := 16, acc := .ro }
def KSQ_B_STAT_STATE : RField := { off := 0x080, hi := 2, lo := 0, acc := .ro, stride := 64, n := 2 }
def KSQ_B_STAT_RCODE : RField := { off := 0x080, hi := 12, lo := 8, acc := .ro, stride := 64, n := 2 }
def KSQ_B_STAT_END : RField := { off := 0x080, hi := 19, lo := 16, acc := .ro, stride := 64, n := 2 }
def KSQ_B_ID_LO : RField := { off := 0x084, hi := 31, lo := 0, acc := .ro, stride := 64, n := 2 }
def KSQ_B_ID_HI : RField := { off := 0x088, hi := 31, lo := 0, acc := .ro, stride := 64, n := 2 }
def KSQ_B_LINES : RField := { off := 0x08C, hi := 18, lo := 0, acc := .ro, stride := 64, n := 2 }
def KSQ_B_START_LO_S_LO : RField := { off := 0x090, hi := 31, lo := 0, acc := .ro, stride := 64, n := 2 }
def KSQ_B_START_HI_S_HI : RField := { off := 0x094, hi := 31, lo := 0, acc := .ro, stride := 64, n := 2 }
def KSQ_B_POS_LINE : RField := { off := 0x098, hi := 17, lo := 0, acc := .ro, stride := 64, n := 2 }
def KSQ_B_LOOP_LOOP_LEFT : RField := { off := 0x09C, hi := 15, lo := 0, acc := .ro, stride := 64, n := 2 }
def KSQ_B_LOOP_REP_LEFT : RField := { off := 0x09C, hi := 31, lo := 16, acc := .ro, stride := 64, n := 2 }
def KSQ_B_END_LO_E_LO : RField := { off := 0x0A0, hi := 31, lo := 0, acc := .ro, stride := 64, n := 2 }
def KSQ_B_END_HI_E_HI : RField := { off := 0x0A4, hi := 31, lo := 0, acc := .ro, stride := 64, n := 2 }
def KSQ_B_GAP : RField := { off := 0x0A8, hi := 31, lo := 0, acc := .ro, stride := 64, n := 2 }
def KSQ_B_RSVD : RField := { off := 0x0AC, hi := 31, lo := 0, acc := .res, stride := 4, n := 5 }
def KSQ_B1_RSVD : RField := { off := 0x0EC, hi := 31, lo := 0, acc := .res, stride := 4, n := 5 }
def XPT_RD_IDX_PAT : RField := { off := 0x040, hi := 11, lo := 0, acc := .rw }
def XPT_RD_STAT_OWNER : RField := { off := 0x044, hi := 1, lo := 0, acc := .ro, rst := 0x3 }
def XPT_RD_STAT_REDIRECT : RField := { off := 0x044, hi := 2, lo := 2, acc := .ro }
def XPT_RD_STAT_ALT : RField := { off := 0x044, hi := 15, lo := 4, acc := .ro }
def XPT_CNT_DEF0 : RField := { off := 0x048, hi := 12, lo := 0, acc := .ro }
def XPT_CNT_DEF1 : RField := { off := 0x048, hi := 28, lo := 16, acc := .ro }
def XPT_RD_DATA : RField := { off := 0x100, hi := 31, lo := 0, acc := .ro, stride := 4, n := 64 }
def TMB_STAT_ROLE : RField := { off := 0x040, hi := 1, lo := 0, acc := .ro, src := true }
def TMB_STAT_FOR_POS : RField := { off := 0x040, hi := 8, lo := 4, acc := .ro, src := true }
def TMB_STAT_CTX_BOUND : RField := { off := 0x040, hi := 31, lo := 16, acc := .ro }
def TMB_STORE_USED : RField := { off := 0x044, hi := 21, lo := 0, acc := .ro }
def TMB_OVR_OVR_CNT : RField := { off := 0x048, hi := 15, lo := 0, acc := .ro }
def TMB_ACC_SEL_CTX : RField := { off := 0x050, hi := 3, lo := 0, acc := .rw }
def TMB_ACC_SEL_ELEM : RField := { off := 0x050, hi := 20, lo := 4, acc := .rw }
def TMB_ACC_SEL_GO : RField := { off := 0x050, hi := 31, lo := 31, acc := .wo }
def TMB_ACC_FLAGS_NAN : RField := { off := 0x054, hi := 0, lo := 0, acc := .ro }
def TMB_ACC_FLAGS_PINF : RField := { off := 0x054, hi := 1, lo := 1, acc := .ro }
def TMB_ACC_FLAGS_NINF : RField := { off := 0x054, hi := 2, lo := 2, acc := .ro }
def TMB_ACC_FLAGS_ALLNEG0 : RField := { off := 0x054, hi := 3, lo := 3, acc := .ro }
def TMB_ACC_FLAGS_VALID : RField := { off := 0x054, hi := 4, lo := 4, acc := .ro }
def TMB_ACC_FLAGS_N : RField := { off := 0x054, hi := 31, lo := 7, acc := .ro }
def TMB_ACC_DATA : RField := { off := 0x058, hi := 31, lo := 0, acc := .ro, stride := 4, n := 10 }
def TMB_ACC_FLAGS2_FIN : RField := { off := 0x080, hi := 0, lo := 0, acc := .ro }
def TMB_ACC_FLAGS2_NEG0 : RField := { off := 0x080, hi := 1, lo := 1, acc := .ro }
def TMB_ACC_FLAGS2_POS0 : RField := { off := 0x080, hi := 2, lo := 2, acc := .ro }
def TMB_CTX_CFG_IN_FMT : RField := { off := 0x100, hi := 3, lo := 0, acc := .ro, stride := 16, n := 16 }
def TMB_CTX_CFG_OUT_FMT : RField := { off := 0x100, hi := 7, lo := 4, acc := .ro, stride := 16, n := 16 }
def TMB_CTX_CFG_OP : RField := { off := 0x100, hi := 9, lo := 8, acc := .ro, stride := 16, n := 16 }
def TMB_CTX_CFG_ACC : RField := { off := 0x100, hi := 10, lo := 10, acc := .ro, stride := 16, n := 16 }
def TMB_CTX_CFG_RND : RField := { off := 0x100, hi := 11, lo := 11, acc := .ro, stride := 16, n := 16 }
def TMB_CTX_CFG_OVF : RField := { off := 0x100, hi := 12, lo := 12, acc := .ro, stride := 16, n := 16 }
def TMB_CTX_CFG_STATE : RField := { off := 0x100, hi := 15, lo := 13, acc := .ro, stride := 16, n := 16 }
def TMB_CTX_CFG_STATUS : RField := { off := 0x100, hi := 23, lo := 16, acc := .ro, stride := 16, n := 16 }
def TMB_CTX_SIZE_CHUNK_CELLS : RField := { off := 0x104, hi := 8, lo := 0, acc := .ro, stride := 16, n := 16 }
def TMB_CTX_SIZE_FOOT_KIB : RField := { off := 0x104, hi := 27, lo := 16, acc := .ro, stride := 16, n := 16 }
def TMB_CTX_IDX_LO : RField := { off := 0x108, hi := 31, lo := 0, acc := .ro, stride := 16, n := 16 }
def TMB_CTX_IDX_HI : RField := { off := 0x10C, hi := 31, lo := 0, acc := .ro, stride := 16, n := 16 }
def SYN_STAT_TMO_CNT : RField := { off := 0x040, hi := 15, lo := 0, acc := .ro }
def SYN_WATCH_CFG_OBJ : RField := { off := 0x080, hi := 11, lo := 0, acc := .rw, stride := 8, n := 4 }
def SYN_WATCH_CFG_EN : RField := { off := 0x080, hi := 31, lo := 31, acc := .rw, stride := 8, n := 4 }
def SYN_WATCH_TGT : RField := { off := 0x084, hi := 31, lo := 0, acc := .rw, stride := 8, n := 4 }
def SYN_OBJ_VAL : RField := { off := 0x400, hi := 31, lo := 0, acc := .rw, stride := 4, n := 256, pg := 0, npg := 16 }
def SYN_ADD : RField := { off := 0x800, hi := 31, lo := 0, acc := .wo, stride := 4, n := 256, pg := 0, npg := 16 }
def CCX_CTRL_RUN : RField := { off := 0x040, hi := 0, lo := 0, acc := .wo }
def CCX_CTRL_HALT : RField := { off := 0x040, hi := 1, lo := 1, acc := .wo }
def CCX_CTRL_SAVE : RField := { off := 0x040, hi := 2, lo := 2, acc := .wo }
def CCX_CTRL_RESTORE : RField := { off := 0x040, hi := 3, lo := 3, acc := .wo }
def CCX_STAT_STATE : RField := { off := 0x044, hi := 2, lo := 0, acc := .ro }
def CCX_STAT_IMG_BAD : RField := { off := 0x044, hi := 3, lo := 3, acc := .w1c }
def CCX_STAT_RESTORED : RField := { off := 0x044, hi := 4, lo := 4, acc := .ro }
def CCX_STAT_HCAUSE : RField := { off := 0x044, hi := 15, lo := 8, acc := .ro }
def CCX_CFG_KEY_EN : RField := { off := 0x048, hi := 0, lo := 0, acc := .rwl }
def CCX_CFG_FOLLOW_KEY : RField := { off := 0x048, hi := 1, lo := 1, acc := .rw }
def CCX_CFG_WDOG : RField := { off := 0x048, hi := 31, lo := 16, acc := .rw, rst := 0x3E8, legal := .count }
def CCX_PC : RField := { off := 0x04C, hi := 17, lo := 0, acc := .rw }
def CCX_SAVE_LO : RField := { off := 0x050, hi := 31, lo := 0, acc := .rw }
def CCX_SAVE_HI : RField := { off := 0x054, hi := 15, lo := 0, acc := .rw }
def CCX_LS_ADDR : RField := { off := 0x058, hi := 17, lo := 2, acc := .rw }
def CCX_LS_DATA : RField := { off := 0x05C, hi := 31, lo := 0, acc := .rw }
def CCX_MSG_DROP : RField := { off := 0x060, hi := 15, lo := 0, acc := .ro }
def CCX_MSG_INBOX : RField := { off := 0x060, hi := 20, lo := 16, acc := .ro }
def CCX_INFO_XOUT : RField := { off := 0x064, hi := 3, lo := 0, acc := .ro }
def CCX_INFO_FOUT : RField := { off := 0x064, hi := 6, lo := 4, acc := .ro }
def CCX_INFO_WAIT_KIND : RField := { off := 0x064, hi := 10, lo := 8, acc := .ro }
def GRQ_SEL_GROUP : RField := { off := 0x040, hi := 9, lo := 0, acc := .rw }
def GRQ_G_CFG_CORE : RField := { off := 0x044, hi := 3, lo := 0, acc := .rw }
def GRQ_G_CFG_TCLASS : RField := { off := 0x044, hi := 5, lo := 4, acc := .rw }
def GRQ_G_CFG_LAUNCH : RField := { off := 0x044, hi := 6, lo := 6, acc := .rw }
def GRQ_G_CFG_CIRQ : RField := { off := 0x044, hi := 7, lo := 7, acc := .rw }
def GRQ_G_CFG_EN : RField := { off := 0x044, hi := 8, lo := 8, acc := .rw }
def GRQ_G_CFG_MCOUNT : RField := { off := 0x044, hi := 28, lo := 16, acc := .rw, rst := 0x1, legal := .countLe 4096 }
def GRQ_G_QBASE : RField := { off := 0x048, hi := 27, lo := 0, acc := .rw }
def GRQ_G_SIZE_QENT : RField := { off := 0x04C, hi := 12, lo := 0, acc := .rw, rst := 0x8, legal := .count }
def GRQ_G_SIZE_CENT : RField := { off := 0x04C, hi := 28, lo := 16, acc := .rw, rst := 0x8, legal := .count }
def GRQ_G_CBASE : RField := { off := 0x050, hi := 27, lo := 0, acc := .rw }
def GRQ_G_MBASE : RField := { off := 0x054, hi := 27, lo := 0, acc := .rw }
def GRQ_G_PTR_PROD : RField := { off := 0x058, hi := 15, lo := 0, acc := .ro }
def GRQ_G_PTR_CONS : RField := { off := 0x058, hi := 31, lo := 16, acc := .ro }
def GRQ_G_CPTR_CPROD : RField := { off := 0x05C, hi := 15, lo := 0, acc := .ro }
def GRQ_G_CPTR_CCONS : RField := { off := 0x05C, hi := 31, lo := 16, acc := .rw }
def GRQ_G_STAT_GEN : RField := { off := 0x060, hi := 15, lo := 0, acc := .ro }
def GRQ_G_STAT_DSEQ : RField := { off := 0x060, hi := 31, lo := 16, acc := .ro }
def GRQ_G_CTL_COMMIT : RField := { off := 0x064, hi := 0, lo := 0, acc := .wo }
def GRQ_G_CTL_KEEP : RField := { off := 0x064, hi := 1, lo := 1, acc := .wo }
def GRQ_DISCARD_FRAME_DISC : RField := { off := 0x068, hi := 15, lo := 0, acc := .ro }
def GRQ_DISCARD_LAUNCH_REF : RField := { off := 0x068, hi := 31, lo := 16, acc := .ro }
def GRQ_CPEND : RField := { off := 0x100, hi := 31, lo := 0, acc := .w1c, stride := 4, n := 32 }
def GRQ_DB_PROD : RField := { off := 0x400, hi := 15, lo := 0, acc := .rw, stride := 4, n := 256, pg := 1, npg := 4 }
def FMC_CFG_PATROL_EN : RField := { off := 0x040, hi := 0, lo := 0, acc := .rwl, rst := 0x1 }
def FMC_STAT_READY : RField := { off := 0x044, hi := 0, lo := 0, acc := .ro }
def FMC_STAT_SCHED : RField := { off := 0x044, hi := 1, lo := 1, acc := .ro }
def FMC_STAT_MIRRORED : RField := { off := 0x044, hi := 2, lo := 2, acc := .ro, src := true }
def FMC_STAT_PARTNER_LOST : RField := { off := 0x044, hi := 3, lo := 3, acc := .ro }
def FMC_STAT_HOT : RField := { off := 0x044, hi := 4, lo := 4, acc := .ro }
def FMC_STAT_TEMP : RField := { off := 0x044, hi := 15, lo := 8, acc := .ro }
def FMC_REF_SINCE : RField := { off := 0x048, hi := 15, lo := 0, acc := .ro }
def FMC_PATROL_LO_PTR_LO : RField := { off := 0x04C, hi := 31, lo := 0, acc := .ro }
def FMC_PATROL_HI_PTR_HI : RField := { off := 0x050, hi := 15, lo := 0, acc := .ro, src := true }
def FMC_POISON_CNT_PCNT : RField := { off := 0x054, hi := 31, lo := 0, acc := .ro }
def FMC_LASTP_LO_LP_LO : RField := { off := 0x058, hi := 31, lo := 0, acc := .ro }
def FMC_LASTP_HI_LP_HI : RField := { off := 0x05C, hi := 15, lo := 0, acc := .ro }
def FMC_PADDR_LO : RField := { off := 0x060, hi := 31, lo := 0, acc := .rw }
def FMC_PADDR_HI : RField := { off := 0x064, hi := 15, lo := 0, acc := .rw }
def FMC_CMD_POISON : RField := { off := 0x068, hi := 0, lo := 0, acc := .wo }
def SPM_PART_CFG_KEYB : RField := { off := 0x040, hi := 2, lo := 0, acc := .rw, src := true, legal := .between 1 4 }
def SPM_PART_CFG_GQ : RField := { off := 0x040, hi := 6, lo := 3, acc := .rw, src := true, legal := .between 1 8 }
def SPM_PART_CFG_REORD : RField := { off := 0x040, hi := 11, lo := 7, acc := .rw, src := true, legal := .between 2 16 }
def SPM_PART_CFG_ADAPT : RField := { off := 0x040, hi := 17, lo := 12, acc := .rw, src := true, legal := .between 8 32 }
def SPM_PART_CFG_RET : RField := { off := 0x040, hi := 23, lo := 18, acc := .rw, src := true }
def SPM_PART_CTL_APPLY : RField := { off := 0x044, hi := 0, lo := 0, acc := .wo }
def SPM_PART_SIG : RField := { off := 0x048, hi := 31, lo := 0, acc := .ro, src := true }
def SPM_STAT_ACTIVE : RField := { off := 0x04C, hi := 6, lo := 0, acc := .ro, src := true }
def SPM_STAT_APPLY_BUSY : RField := { off := 0x04C, hi := 7, lo := 7, acc := .ro }
def SPM_STAT_STAGE : RField := { off := 0x04C, hi := 13, lo := 8, acc := .ro, src := true }
def SPM_RET_FREE_FREE_KIB : RField := { off := 0x050, hi := 17, lo := 0, acc := .ro, src := true }
def SPM_POISON_CNT_PCNT : RField := { off := 0x054, hi := 31, lo := 0, acc := .ro }
def FPT_CFG_PEN : RField := { off := 0x040, hi := 0, lo := 0, acc := .rw, src := true }
def FPT_CFG_WIDTH : RField := { off := 0x040, hi := 2, lo := 1, acc := .rw, src := true, legal := .le 2 }
def FPT_CFG_ROLE : RField := { off := 0x040, hi := 5, lo := 3, acc := .rw, src := true, legal := .le 4 }
def FPT_CFG_VC8 : RField := { off := 0x040, hi := 6, lo := 6, acc := .rw, src := true }
def FPT_CFG_SLAT : RField := { off := 0x040, hi := 13, lo := 8, acc := .rw, src := true, legal := .between 4 63 }
def FPT_PLAN_PLAN_ADDR : RField := { off := 0x044, hi := 15, lo := 0, acc := .rw, src := true }
def FPT_PLAN_PLAN_KIND : RField := { off := 0x044, hi := 20, lo := 18, acc := .rw, src := true, legal := .between 1 3 }
def FPT_PLAN_PLAN_PORT : RField := { off := 0x044, hi := 27, lo := 21, acc := .rw, src := true }
def FPT_PLAN_SER_LO : RField := { off := 0x048, hi := 31, lo := 0, acc := .rw, src := true }
def FPT_PLAN_SER_HI : RField := { off := 0x04C, hi := 31, lo := 0, acc := .rw, src := true }
def FPT_STAT_STATE : RField := { off := 0x050, hi := 3, lo := 0, acc := .ro }
def FPT_STAT_WIDTH_NOW : RField := { off := 0x050, hi := 5, lo := 4, acc := .ro }
def FPT_STAT_LANE_ACT : RField := { off := 0x050, hi := 9, lo := 6, acc := .ro }
def FPT_STAT_QCAUSE : RField := { off := 0x050, hi := 13, lo := 10, acc := .ro }
def FPT_STAT_RTT : RField := { off := 0x050, hi := 31, lo := 16, acc := .ro }
def FPT_LANE_LOCK : RField := { off := 0x054, hi := 0, lo := 0, acc := .ro }
def FPT_LANE_REMOVED : RField := { off := 0x054, hi := 1, lo := 1, acc := .ro }
def FPT_CRC_CNT : RField := { off := 0x058, hi := 31, lo := 0, acc := .ro }
def FPT_REPLAY_CNT : RField := { off := 0x05C, hi := 31, lo := 0, acc := .ro }
def FPT_FEC_CE_CNT : RField := { off := 0x060, hi := 31, lo := 0, acc := .ro }
def FPT_FEC_UE_CNT : RField := { off := 0x064, hi := 31, lo := 0, acc := .ro }
def FPT_SDROP_CNT : RField := { off := 0x068, hi := 31, lo := 0, acc := .ro }
def FPT_HDR_CNT : RField := { off := 0x06C, hi := 31, lo := 0, acc := .ro }
def FPT_HELLO_DATA : RField := { off := 0x080, hi := 31, lo := 0, acc := .ro, stride := 4, n := 12 }
def FPT_VC_GRANT : RField := { off := 0x100, hi := 11, lo := 0, acc := .rw, src := true, stride := 4, n := 8 }
def FPT_VC_AVAIL : RField := { off := 0x100, hi := 27, lo := 16, acc := .ro, stride := 4, n := 8 }
def SDS_CFG_LT_EN : RField := { off := 0x040, hi := 0, lo := 0, acc := .rwl, rst := 0x1 }
def SDS_TXPOL_LO : RField := { off := 0x044, hi := 31, lo := 0, acc := .rwl, src := true }
def SDS_TXPOL_HI : RField := { off := 0x048, hi := 31, lo := 0, acc := .rwl, src := true }
def SDS_RXPOL_LO : RField := { off := 0x04C, hi := 31, lo := 0, acc := .rwl, src := true }
def SDS_RXPOL_HI : RField := { off := 0x050, hi := 31, lo := 0, acc := .rwl, src := true }
def SDS_LOCK_LO : RField := { off := 0x054, hi := 31, lo := 0, acc := .ro }
def SDS_LOCK_HI : RField := { off := 0x058, hi := 31, lo := 0, acc := .ro }
def SDS_TEMP : RField := { off := 0x05C, hi := 7, lo := 0, acc := .ro }
def RTE_ID_MOD_ADDR : RField := { off := 0x040, hi := 15, lo := 0, acc := .rw }
def RTE_ID_MY_JOB : RField := { off := 0x040, hi := 23, lo := 16, acc := .rw }
def RTE_ID_SPINE_MOD : RField := { off := 0x040, hi := 24, lo := 24, acc := .rw }
def RTE_EXT_KX : RField := { off := 0x044, hi := 4, lo := 0, acc := .rw, rst := 0x1, legal := .countLe 16 }
def RTE_EXT_KY : RField := { off := 0x044, hi := 9, lo := 5, acc := .rw, rst := 0x1, legal := .countLe 16 }
def RTE_EXT_KZ : RField := { off := 0x044, hi := 14, lo := 10, acc := .rw, rst := 0x1, legal := .countLe 16 }
def RTE_EXT_WRAP : RField := { off := 0x044, hi := 18, lo := 16, acc := .rw }
def RTE_EXT_F2_EN : RField := { off := 0x044, hi := 20, lo := 20, acc := .rw }
def RTE_BOX_LOX : RField := { off := 0x048, hi := 3, lo := 0, acc := .rw }
def RTE_BOX_HIX : RField := { off := 0x048, hi := 7, lo := 4, acc := .rw }
def RTE_BOX_LOY : RField := { off := 0x048, hi := 11, lo := 8, acc := .rw }
def RTE_BOX_HIY : RField := { off := 0x048, hi := 15, lo := 12, acc := .rw }
def RTE_BOX_LOZ : RField := { off := 0x048, hi := 19, lo := 16, acc := .rw }
def RTE_BOX_HIZ : RField := { off := 0x048, hi := 23, lo := 20, acc := .rw }
def RTE_PLAN_LO : RField := { off := 0x04C, hi := 31, lo := 0, acc := .rw }
def RTE_PLAN_HI : RField := { off := 0x050, hi := 31, lo := 0, acc := .rw }
def RTE_ADMIT : RField := { off := 0x054, hi := 31, lo := 0, acc := .rw, stride := 4, n := 4 }
def RTE_ROB_WAIT : RField := { off := 0x064, hi := 15, lo := 0, acc := .rw, rst := 0x400, legal := .count }
def RTE_ROB_OPEN : RField := { off := 0x064, hi := 31, lo := 16, acc := .rw, rst := 0x40, legal := .count }
def RTE_HOLD_LO : RField := { off := 0x068, hi := 31, lo := 0, acc := .rw }
def RTE_HOLD_HI : RField := { off := 0x06C, hi := 31, lo := 0, acc := .rw }
def RTE_RESUME_LO_RES_LO : RField := { off := 0x070, hi := 31, lo := 0, acc := .rw }
def RTE_RESUME_HI_RES_HI : RField := { off := 0x074, hi := 31, lo := 0, acc := .rw }
def RTE_DRAIN_CHECK_ENT : RField := { off := 0x078, hi := 5, lo := 0, acc := .rw }
def RTE_DRAIN_CONFIRM_ENT : RField := { off := 0x078, hi := 13, lo := 8, acc := .rw }
def RTE_CTL_START : RField := { off := 0x07C, hi := 0, lo := 0, acc := .wo }
def RTE_CTL_COMMIT : RField := { off := 0x07C, hi := 1, lo := 1, acc := .wo }
def RTE_CTL_RESUME : RField := { off := 0x07C, hi := 2, lo := 2, acc := .wo }
def RTE_STAT_STATE : RField := { off := 0x080, hi := 2, lo := 0, acc := .ro }
def RTE_STAT_ZERO_AT_CHECK : RField := { off := 0x080, hi := 4, lo := 4, acc := .ro }
def RTE_STAT_DRAIN_FAIL : RField := { off := 0x080, hi := 5, lo := 5, acc := .w1c }
def RTE_INFLIGHT_FRAMES : RField := { off := 0x084, hi := 19, lo := 0, acc := .ro }
def RTE_DISC_SRC_NOROUTE : RField := { off := 0x088, hi := 15, lo := 0, acc := .ro }
def RTE_DISC_SRC : RField := { off := 0x088, hi := 31, lo := 16, acc := .ro }
def RTE_DISC_OWN : RField := { off := 0x08C, hi := 15, lo := 0, acc := .ro }
def RTE_DISC_OWN_LOOP : RField := { off := 0x08C, hi := 31, lo := 16, acc := .ro }
def RTE_DISC_F2 : RField := { off := 0x090, hi := 15, lo := 0, acc := .ro }
def RTE_DISC_F2_ISO : RField := { off := 0x090, hi := 31, lo := 16, acc := .ro }
def RTE_ROB_CNT_LATE : RField := { off := 0x094, hi := 15, lo := 0, acc := .ro }
def RTE_ROB_CNT_FORCE : RField := { off := 0x094, hi := 31, lo := 16, acc := .ro }
def RTE_OWN_OWN0 : RField := { off := 0x100, hi := 7, lo := 0, acc := .rw, stride := 4, n := 32 }
def RTE_OWN_OWN1 : RField := { off := 0x100, hi := 15, lo := 8, acc := .rw, stride := 4, n := 32 }
def RTE_OWN_OWN2 : RField := { off := 0x100, hi := 23, lo := 16, acc := .rw, stride := 4, n := 32 }
def RTE_OWN_OWN3 : RField := { off := 0x100, hi := 31, lo := 24, acc := .rw, stride := 4, n := 32 }
def SWC_CFG_MAX_FLEN : RField := { off := 0x040, hi := 11, lo := 0, acc := .rwl, rst := 0x108, legal := .count }
def SWC_CFG_AUDIT_EN : RField := { off := 0x040, hi := 16, lo := 16, acc := .rw, rst := 0x1 }
def SWC_BUF_CELLS : RField := { off := 0x044, hi := 19, lo := 0, acc := .ro, src := true }
def SWC_FREE : RField := { off := 0x048, hi := 19, lo := 0, acc := .ro, src := true }
def SWC_RESV : RField := { off := 0x04C, hi := 19, lo := 0, acc := .ro }
def SWC_RESV_OVERCOMMIT : RField := { off := 0x04C, hi := 20, lo := 20, acc := .ro }
def SWC_HELD : RField := { off := 0x050, hi := 19, lo := 0, acc := .ro }
def SWC_AUDIT_GRACE : RField := { off := 0x054, hi := 15, lo := 0, acc := .rw, rst := 0x10, legal := .count }
def SWC_AUDIT_LEAK_CNT : RField := { off := 0x054, hi := 31, lo := 16, acc := .ro }
def SWC_DISC_A_BUF_FULL : RField := { off := 0x058, hi := 15, lo := 0, acc := .ro }
def SWC_DISC_A_FLEN : RField := { off := 0x058, hi := 31, lo := 16, acc := .ro }
def SWC_DISC_B_TRUNC : RField := { off := 0x05C, hi := 15, lo := 0, acc := .ro }
def SWC_DISC_B_AGED : RField := { off := 0x05C, hi := 31, lo := 16, acc := .ro }
def SWC_DISC_C_MASKED : RField := { off := 0x060, hi := 15, lo := 0, acc := .ro }
def SWC_DISC_C_EGR_FENCED : RField := { off := 0x060, hi := 31, lo := 16, acc := .ro }
def SWC_DROP_A_GREEN : RField := { off := 0x064, hi := 15, lo := 0, acc := .ro }
def SWC_DROP_A_YELLOW : RField := { off := 0x064, hi := 31, lo := 16, acc := .ro }
def SWC_DROP_B_RED : RField := { off := 0x068, hi := 15, lo := 0, acc := .ro }
def SWC_DROP_B_POLICED : RField := { off := 0x068, hi := 31, lo := 16, acc := .ro }
def SWC_EPOCH_CUR : RField := { off := 0x06C, hi := 0, lo := 0, acc := .ro }
def SWC_EPOCH_FLIP : RField := { off := 0x06C, hi := 1, lo := 1, acc := .wo }
def SWC_EPOCH_CNT0 : RField := { off := 0x070, hi := 19, lo := 0, acc := .ro }
def SWC_EPOCH_CNT1 : RField := { off := 0x074, hi := 19, lo := 0, acc := .ro }
def SWC_SEED_LO : RField := { off := 0x078, hi := 31, lo := 0, acc := .rw }
def SWC_SEED_HI : RField := { off := 0x07C, hi := 31, lo := 0, acc := .rw }
def SWC_TBL_SEL_TABLE : RField := { off := 0x080, hi := 1, lo := 0, acc := .rw, legal := .le 2 }
def SWC_TBL_SEL_BANK : RField := { off := 0x080, hi := 2, lo := 2, acc := .rw }
def SWC_TBL_SEL_INDEX : RField := { off := 0x080, hi := 12, lo := 4, acc := .rw }
def SWC_TBL_SEL_WORD : RField := { off := 0x080, hi := 18, lo := 16, acc := .rw }
def SWC_TBL_DATA : RField := { off := 0x084, hi := 31, lo := 0, acc := .rw, src := true }
def SWC_DRAW_LO : RField := { off := 0x088, hi := 31, lo := 0, acc := .ro }
def SWC_DRAW_HI : RField := { off := 0x08C, hi := 31, lo := 0, acc := .ro }
def QSH_SEL_QUEUE : RField := { off := 0x040, hi := 9, lo := 0, acc := .rw }
def QSH_Q_CFG_QUANTUM : RField := { off := 0x044, hi := 11, lo := 0, acc := .rw, rst := 0x10, legal := .count }
def QSH_Q_CFG_STRICT : RField := { off := 0x044, hi := 12, lo := 12, acc := .rw, src := true }
def QSH_Q_CFG_SHAPE_EN : RField := { off := 0x044, hi := 13, lo := 13, acc := .rw }
def QSH_Q_RATE : RField := { off := 0x048, hi := 19, lo := 0, acc := .rw, rst := 0x1, legal := .count }
def QSH_Q_BURST : RField := { off := 0x04C, hi := 19, lo := 0, acc := .rw, rst := 0x1, legal := .count }
def QSH_Q_STAT_DEPTH : RField := { off := 0x050, hi := 19, lo := 0, acc := .ro }
def QSH_Q_STAT_INPROG : RField := { off := 0x050, hi := 20, lo := 20, acc := .ro }
def QSH_Q_TOK_LO : RField := { off := 0x054, hi := 31, lo := 0, acc := .ro }
def QSH_Q_TOK_HI : RField := { off := 0x058, hi := 31, lo := 0, acc := .ro }
def QSH_Q_MAXD_MAXDEPTH : RField := { off := 0x05C, hi := 19, lo := 0, acc := .ro }
def QSH_Q_DELAY_LAST : RField := { off := 0x060, hi := 15, lo := 0, acc := .ro }
def QSH_Q_DELAY_MAX : RField := { off := 0x060, hi := 31, lo := 16, acc := .ro }
def QSH_P_CFG_SHAPE_EN : RField := { off := 0x064, hi := 0, lo := 0, acc := .rw }
def QSH_P_RATE : RField := { off := 0x068, hi := 19, lo := 0, acc := .rw, rst := 0x1, legal := .count }
def QSH_P_BURST : RField := { off := 0x06C, hi := 19, lo := 0, acc := .rw, rst := 0x1, legal := .count }
def QSH_P_TOK_LO : RField := { off := 0x070, hi := 31, lo := 0, acc := .ro }
def QSH_P_TOK_HI : RField := { off := 0x074, hi := 31, lo := 0, acc := .ro }
def QSH_CMD_CLRMAX : RField := { off := 0x078, hi := 0, lo := 0, acc := .wo }
def POL_SEL_POLICER : RField := { off := 0x040, hi := 11, lo := 0, acc := .rw }
def POL_CIR : RField := { off := 0x044, hi := 19, lo := 0, acc := .rw, rst := 0xFFFFF, legal := .count }
def POL_PIR : RField := { off := 0x048, hi := 19, lo := 0, acc := .rw, rst := 0xFFFFF, legal := .count }
def POL_CBS : RField := { off := 0x04C, hi := 19, lo := 0, acc := .rw, rst := 0xFFFFF, legal := .count }
def POL_PBS : RField := { off := 0x050, hi := 19, lo := 0, acc := .rw, rst := 0xFFFFF, legal := .count }
def POL_CFG_RED_DROP : RField := { off := 0x054, hi := 0, lo := 0, acc := .rw }
def POL_CTL_APPLY : RField := { off := 0x058, hi := 0, lo := 0, acc := .wo }
def POL_TC_LO : RField := { off := 0x05C, hi := 31, lo := 0, acc := .ro, src := true }
def POL_TC_HI : RField := { off := 0x060, hi := 7, lo := 0, acc := .ro, src := true }
def POL_TP_LO : RField := { off := 0x064, hi := 31, lo := 0, acc := .ro, src := true }
def POL_TP_HI : RField := { off := 0x068, hi := 7, lo := 0, acc := .ro, src := true }
def POL_CNT_G_GREEN : RField := { off := 0x06C, hi := 31, lo := 0, acc := .ro }
def POL_CNT_Y_YELLOW : RField := { off := 0x070, hi := 31, lo := 0, acc := .ro }
def POL_CNT_R_RED : RField := { off := 0x074, hi := 31, lo := 0, acc := .ro }
def CH_STAT_COUNT : RField := { off := 0x000, hi := 3, lo := 0, acc := .ro }
def CH_STAT_DEPTH : RField := { off := 0x000, hi := 7, lo := 4, acc := .ro, src := true }
def CH_STAT_EN : RField := { off := 0x000, hi := 8, lo := 8, acc := .ro, src := true }
def CH_STAT_FULL : RField := { off := 0x000, hi := 9, lo := 9, acc := .ro }
def CH_STAT_REJ_CNT : RField := { off := 0x000, hi := 31, lo := 16, acc := .ro }
def CH_CTRL_GO : RField := { off := 0x004, hi := 0, lo := 0, acc := .wo }
def CH_CTRL_POP : RField := { off := 0x004, hi := 1, lo := 1, acc := .wo }
def CH_TXLEN_LEN : RField := { off := 0x008, hi := 8, lo := 0, acc := .rw, legal := .custom }
def CH_RXLEN_LEN : RField := { off := 0x00C, hi := 8, lo := 0, acc := .ro }
def CH_RXLEN_SEQ : RField := { off := 0x00C, hi := 31, lo := 16, acc := .ro }
def CH_IRQ_EN_EMPTY_EN : RField := { off := 0x010, hi := 0, lo := 0, acc := .rw }
def CH_IRQ_EN_ARRIVE_EN : RField := { off := 0x010, hi := 1, lo := 1, acc := .rw }
def CH_IRQ_EN_DB_EN : RField := { off := 0x010, hi := 2, lo := 2, acc := .rw }
def CH_IRQ_EMPTY : RField := { off := 0x014, hi := 0, lo := 0, acc := .w1c }
def CH_IRQ_ARRIVE : RField := { off := 0x014, hi := 1, lo := 1, acc := .w1c }
def CH_IRQ_DB : RField := { off := 0x014, hi := 2, lo := 2, acc := .w1c }
def CH_DB_SET : RField := { off := 0x018, hi := 31, lo := 0, acc := .wo }
def CH_DB_PEND : RField := { off := 0x01C, hi := 31, lo := 0, acc := .w1c }
def CH_TXSEQ : RField := { off := 0x020, hi := 15, lo := 0, acc := .ro }
def CH_TXBUF : RField := { off := 0x100, hi := 31, lo := 0, acc := .rw, stride := 4, n := 64 }
def CH_RXWIN : RField := { off := 0x200, hi := 31, lo := 0, acc := .ro, stride := 4, n := 64 }
def MBX_STAT_FULL_CNT : RField := { off := 0x040, hi := 15, lo := 0, acc := .ro }
def MBX_WARD_SEND : RField := { off := 0x400, hi := 3, lo := 0, acc := .rwl, src := true, legal := .custom, stride := 4, n := 128 }
def MBX_WARD_RECV : RField := { off := 0x400, hi := 7, lo := 4, acc := .rwl, src := true, legal := .custom, stride := 4, n := 128 }
def MBX_WARD_DEPTH : RField := { off := 0x400, hi := 11, lo := 8, acc := .rwl, src := true, legal := .countLe 8, stride := 4, n := 128 }
def MBX_WARD_EN : RField := { off := 0x400, hi := 12, lo := 12, acc := .rwl, src := true, stride := 4, n := 128 }
def PCI_STAT_RATE : RField := { off := 0x040, hi := 2, lo := 0, acc := .ro }
def PCI_STAT_WIDTH : RField := { off := 0x040, hi := 6, lo := 3, acc := .ro }
def PCI_STAT_FLIT : RField := { off := 0x040, hi := 7, lo := 7, acc := .ro }
def PCI_STAT_LINK_UP : RField := { off := 0x040, hi := 8, lo := 8, acc := .ro }
def PCI_STAT_D3HOT : RField := { off := 0x040, hi := 9, lo := 9, acc := .ro }
def PCI_STAT_BME : RField := { off := 0x040, hi := 10, lo := 10, acc := .ro }
def PCI_CFG_READY : RField := { off := 0x044, hi := 0, lo := 0, acc := .rw }
def PCI_LEASE_REQ : RField := { off := 0x048, hi := 0, lo := 0, acc := .wo }
def PCI_LEASE_RENEW : RField := { off := 0x048, hi := 1, lo := 1, acc := .wo }
def PCI_LEASE_RELEASE : RField := { off := 0x048, hi := 2, lo := 2, acc := .wo }
def PCI_LEASE_HOLDER : RField := { off := 0x048, hi := 5, lo := 4, acc := .ro }
def PCI_LEASE_TERM : RField := { off := 0x048, hi := 31, lo := 16, acc := .rw, src := true, legal := .custom }
def PCI_LEASE_LEFT : RField := { off := 0x04C, hi := 31, lo := 0, acc := .ro }
def PCI_WIN_WPLANE : RField := { off := 0x050, hi := 1, lo := 0, acc := .rw }
def PCI_WIN_WBASE : RField := { off := 0x050, hi := 25, lo := 8, acc := .rw }
def PCI_CNT_A_DENY : RField := { off := 0x054, hi := 15, lo := 0, acc := .ro }
def PCI_CNT_A_B2_REJ : RField := { off := 0x054, hi := 31, lo := 16, acc := .ro }
def PCI_CNT_B_POISON : RField := { off := 0x058, hi := 15, lo := 0, acc := .ro }
def SVC_CFG_EN : RField := { off := 0x040, hi := 0, lo := 0, acc := .rw, src := true }
def SVC_CFG_RDMA_EN : RField := { off := 0x040, hi := 1, lo := 1, acc := .rw }
def SVC_CFG_PRIO : RField := { off := 0x040, hi := 4, lo := 2, acc := .rw, rst := 0x3 }
def SVC_STAT_LINK_UP : RField := { off := 0x044, hi := 0, lo := 0, acc := .ro }
def SVC_RDMA_IP : RField := { off := 0x048, hi := 31, lo := 0, acc := .rw }
def SVC_MAC_LO : RField := { off := 0x04C, hi := 31, lo := 0, acc := .ro, src := true }
def SVC_MAC_HI : RField := { off := 0x050, hi := 15, lo := 0, acc := .ro, src := true }
def SVC_CNT_DROP : RField := { off := 0x054, hi := 15, lo := 0, acc := .ro }
def SVC_CNT_POISON : RField := { off := 0x054, hi := 31, lo := 16, acc := .ro }
def FCL_CFG_CACK : RField := { off := 0x040, hi := 15, lo := 0, acc := .rw, rst := 0x3E8, legal := .count }
def FCL_CFG_ALIVE_EN : RField := { off := 0x040, hi := 16, lo := 16, acc := .rw }
def FCL_STAT_DEADBOLT : RField := { off := 0x044, hi := 0, lo := 0, acc := .ro }
def FCL_STAT_PEER_OK : RField := { off := 0x044, hi := 1, lo := 1, acc := .ro }
def FCL_STAT_ALIVE : RField := { off := 0x044, hi := 2, lo := 2, acc := .ro }
def FCL_STAT_BROKEN : RField := { off := 0x044, hi := 26, lo := 16, acc := .ro }
def FCL_CNT_C_TOTAL : RField := { off := 0x048, hi := 15, lo := 0, acc := .ro }
def FCL_CNT_U_TOTAL : RField := { off := 0x048, hi := 31, lo := 16, acc := .ro }
def FCL_U_SEL_UNIT : RField := { off := 0x04C, hi := 10, lo := 0, acc := .rw, legal := .le 0x417 }
def FCL_U_STAT_CLASS : RField := { off := 0x050, hi := 1, lo := 0, acc := .ro }
def FCL_U_STAT_PAIR_OK : RField := { off := 0x050, hi := 2, lo := 2, acc := .ro }
def FCL_U_STAT_PEER_PAIR_OK : RField := { off := 0x050, hi := 3, lo := 3, acc := .ro }
def FCL_U_STAT_FENCED : RField := { off := 0x050, hi := 4, lo := 4, acc := .ro }
def FCL_U_STAT_RSEQ : RField := { off := 0x050, hi := 11, lo := 8, acc := .ro }
def FCL_U_STAT_CAUSE : RField := { off := 0x050, hi := 15, lo := 12, acc := .ro }
def FCL_LIFT_UNIT : RField := { off := 0x054, hi := 10, lo := 0, acc := .wo, legal := .custom }
def FCL_FATAL_UNIT : RField := { off := 0x058, hi := 10, lo := 0, acc := .ro }
def FCL_FATAL_SOURCE : RField := { off := 0x058, hi := 23, lo := 16, acc := .ro }
def FCL_FATAL_PATH : RField := { off := 0x058, hi := 25, lo := 24, acc := .ro }
def FCL_FATAL_VALID : RField := { off := 0x058, hi := 31, lo := 31, acc := .ro }
def FCL_FATAL_FT_LO : RField := { off := 0x05C, hi := 31, lo := 0, acc := .ro }
def FCL_FATAL_FT_HI : RField := { off := 0x060, hi := 31, lo := 0, acc := .ro }
def FCL_PREV : RField := { off := 0x064, hi := 31, lo := 0, acc := .ro, src := true }
def FCL_PREV_FT_LO : RField := { off := 0x068, hi := 31, lo := 0, acc := .ro, src := true }
def FCL_PREV_FT_HI : RField := { off := 0x06C, hi := 31, lo := 0, acc := .ro, src := true }
def FCL_PEND : RField := { off := 0x100, hi := 31, lo := 0, acc := .ro, stride := 4, n := 33 }
def MGC_CTRL_RUN : RField := { off := 0x040, hi := 3, lo := 0, acc := .wo }
def MGC_CTRL_HALT : RField := { off := 0x040, hi := 7, lo := 4, acc := .wo }
def MGC_STAT_RUNNING : RField := { off := 0x044, hi := 3, lo := 0, acc := .ro }
def MGC_STAT_WDOG_HIT : RField := { off := 0x044, hi := 11, lo := 8, acc := .w1c }
def MGC_WDOG_KICK : RField := { off := 0x048, hi := 3, lo := 0, acc := .wo }
def MGC_NEXT_SRC : RField := { off := 0x04C, hi := 11, lo := 0, acc := .ro, rst := 0xFFF, stride := 4, n := 4 }
def MGC_IE : RField := { off := 0x100, hi := 31, lo := 0, acc := .rw, stride := 4, n := 256 }
def PWR_CFG_PREFER : RField := { off := 0x040, hi := 0, lo := 0, acc := .rw, src := true }
def PWR_FEED_A_STATE : RField := { off := 0x044, hi := 1, lo := 0, acc := .ro }
def PWR_FEED_A_ACTIVE : RField := { off := 0x044, hi := 2, lo := 2, acc := .ro }
def PWR_FEED_A_MV : RField := { off := 0x044, hi := 31, lo := 16, acc := .ro }
def PWR_LOAD_WATTS : RField := { off := 0x04C, hi := 15, lo := 0, acc := .ro }
def PWR_DOM_STAT_ON : RField := { off := 0x050, hi := 31, lo := 0, acc := .ro, rst := 0x3 }
def PWR_DOM_PEND : RField := { off := 0x054, hi := 31, lo := 0, acc := .ro }
def PWR_DOM_ON_ON_REQ : RField := { off := 0x058, hi := 31, lo := 0, acc := .wo }
def PWR_DOM_OFF_OFF_REQ : RField := { off := 0x05C, hi := 31, lo := 0, acc := .wo }
def PWR_CREDIT : RField := { off := 0x060, hi := 14, lo := 0, acc := .ro }
def PWR_CMD_MODULE_RESET : RField := { off := 0x064, hi := 0, lo := 0, acc := .wo }
def PWR_CMD_PLANE_RESET : RField := { off := 0x064, hi := 1, lo := 1, acc := .wo }
def PWR_CMD_HUB_RESET : RField := { off := 0x064, hi := 2, lo := 2, acc := .wo }
def PWR_CMD_PLANE : RField := { off := 0x064, hi := 5, lo := 4, acc := .wo }
def PWR_CMD_HUB : RField := { off := 0x064, hi := 6, lo := 6, acc := .wo }
def PWR_HOLD_HOLDUP_OK : RField := { off := 0x068, hi := 0, lo := 0, acc := .ro }
def KPL_STAT_STATE : RField := { off := 0x040, hi := 1, lo := 0, acc := .ro }
def KPL_STAT_SLOT : RField := { off := 0x040, hi := 2, lo := 2, acc := .ro, src := true }
def KPL_STAT_OPMODE : RField := { off := 0x040, hi := 4, lo := 3, acc := .ro, src := true }
def KPL_STAT_OWNED : RField := { off := 0x040, hi := 5, lo := 5, acc := .ro, src := true }
def KPL_STAT_CFG_MISMATCH : RField := { off := 0x040, hi := 6, lo := 6, acc := .ro }
def KPL_STAT_REVOKED : RField := { off := 0x040, hi := 11, lo := 8, acc := .ro, src := true }
def KPL_STAT_DBG_LEVEL : RField := { off := 0x040, hi := 13, lo := 12, acc := .ro }
def KPL_STAT_DBG_FAIL : RField := { off := 0x040, hi := 23, lo := 16, acc := .ro }
def KPL_CMD : RField := { off := 0x044, hi := 3, lo := 0, acc := .wo, legal := .between 1 7 }
def KPL_SRC_LO : RField := { off := 0x048, hi := 31, lo := 0, acc := .rw }
def KPL_SRC_HI : RField := { off := 0x04C, hi := 15, lo := 0, acc := .rw }
def KPL_SRC_HI_PLANE : RField := { off := 0x04C, hi := 17, lo := 16, acc := .rw }
def KPL_SRC_HI_CORE : RField := { off := 0x04C, hi := 23, lo := 20, acc := .rw }
def KPL_SRC_HI_PREF : RField := { off := 0x04C, hi := 24, lo := 24, acc := .rw }
def KPL_SRC_LEN : RField := { off := 0x050, hi := 31, lo := 0, acc := .rw, legal := .count }
def KPL_RESULT_CODE : RField := { off := 0x054, hi := 7, lo := 0, acc := .ro }
def KPL_RESULT_TYPE : RField := { off := 0x054, hi := 15, lo := 8, acc := .ro }
def KPL_SVN : RField := { off := 0x058, hi := 31, lo := 0, acc := .ro, src := true }
def KPL_SERIAL_LO_SER_LO : RField := { off := 0x05C, hi := 31, lo := 0, acc := .ro, src := true }
def KPL_SERIAL_HI_SER_HI : RField := { off := 0x060, hi := 31, lo := 0, acc := .ro, src := true }
def KPL_NONCE : RField := { off := 0x080, hi := 31, lo := 0, acc := .ro, stride := 4, n := 8 }
def KPL_IDREC : RField := { off := 0x800, hi := 31, lo := 0, acc := .ro, src := true, stride := 4, n := 512 }
def PMU_CTL_SNAP : RField := { off := 0x040, hi := 0, lo := 0, acc := .wo }
def PMU_CTL_CLR_ALL : RField := { off := 0x040, hi := 1, lo := 1, acc := .wo }
def PMU_MARK : RField := { off := 0x044, hi := 31, lo := 0, acc := .rw }
def PMU_TD_CTL_TD_EN : RField := { off := 0x048, hi := 0, lo := 0, acc := .rw }
def PMU_TD_CTL_TD_CLR : RField := { off := 0x048, hi := 1, lo := 1, acc := .wo }
def PMU_WIN_START_LO_WS_LO : RField := { off := 0x050, hi := 31, lo := 0, acc := .rw }
def PMU_WIN_START_HI_WS_HI : RField := { off := 0x054, hi := 31, lo := 0, acc := .rw }
def PMU_WIN_END_LO_WE_LO : RField := { off := 0x058, hi := 31, lo := 0, acc := .rw, rst := 0xFFFFFFFF }
def PMU_WIN_END_HI_WE_HI : RField := { off := 0x05C, hi := 31, lo := 0, acc := .rw, rst := 0xFFFFFFFF }
def PMU_HIST_CFG_POINT : RField := { off := 0x080, hi := 3, lo := 0, acc := .rw, stride := 16, n := 4 }
def PMU_HIST_CFG_SEL : RField := { off := 0x080, hi := 13, lo := 4, acc := .rw, stride := 16, n := 4 }
def PMU_HIST_CFG_EN : RField := { off := 0x080, hi := 16, lo := 16, acc := .rw, stride := 16, n := 4 }
def PMU_HIST_CFG_CLR : RField := { off := 0x080, hi := 17, lo := 17, acc := .wo, stride := 16, n := 4 }
def PMU_HIST_N_SAMPLES : RField := { off := 0x084, hi := 31, lo := 0, acc := .ro, stride := 16, n := 4 }
def PMU_C_CFG_EVENT : RField := { off := 0x100, hi := 7, lo := 0, acc := .rw, stride := 32, n := 48 }
def PMU_C_CFG_INST : RField := { off := 0x100, hi := 15, lo := 8, acc := .rw, rst := 0xFF, stride := 32, n := 48 }
def PMU_C_CFG_EN : RField := { off := 0x100, hi := 16, lo := 16, acc := .rw, stride := 32, n := 48 }
def PMU_C_CFG_IRQ : RField := { off := 0x100, hi := 17, lo := 17, acc := .rw, stride := 32, n := 48 }
def PMU_C_CFG_OVF : RField := { off := 0x100, hi := 18, lo := 18, acc := .w1c, stride := 32, n := 48 }
def PMU_C_CFG_WIN : RField := { off := 0x100, hi := 19, lo := 19, acc := .rw, stride := 32, n := 48 }
def PMU_C_RLD_LO : RField := { off := 0x104, hi := 31, lo := 0, acc := .rw, stride := 32, n := 48 }
def PMU_C_RLD_HI : RField := { off := 0x108, hi := 15, lo := 0, acc := .rw, stride := 32, n := 48 }
def PMU_C_CNT_LO : RField := { off := 0x10C, hi := 31, lo := 0, acc := .rw, stride := 32, n := 48 }
def PMU_C_CNT_HI : RField := { off := 0x110, hi := 15, lo := 0, acc := .rw, stride := 32, n := 48 }
def PMU_C_SNAP_LO : RField := { off := 0x114, hi := 31, lo := 0, acc := .ro, stride := 32, n := 48 }
def PMU_C_SNAP_HI : RField := { off := 0x118, hi := 15, lo := 0, acc := .ro, stride := 32, n := 48 }
def PMU_TDK_LO_TD_LO : RField := { off := 0x780, hi := 31, lo := 0, acc := .ro, stride := 8, n := 5 }
def PMU_TDK_HI_TD_HI : RField := { off := 0x784, hi := 15, lo := 0, acc := .ro, stride := 8, n := 5 }
def PMU_TDC_LO_TD_LO : RField := { off := 0x800, hi := 31, lo := 0, acc := .ro, stride := 8, n := 64 }
def PMU_TDC_HI_TD_HI : RField := { off := 0x804, hi := 15, lo := 0, acc := .ro, stride := 8, n := 64 }
def PMU_BIN_COUNT : RField := { off := 0x800, hi := 31, lo := 0, acc := .ro, stride := 4, n := 64, pg := 1, npg := 4 }
def PWR_FEED_B_STATE : RField := { off := 0x048, hi := 1, lo := 0, acc := .ro }
def PWR_FEED_B_ACTIVE : RField := { off := 0x048, hi := 2, lo := 2, acc := .ro }
def PWR_FEED_B_MV : RField := { off := 0x048, hi := 31, lo := 16, acc := .ro }
def HDR_RSVD : RField := { off := 0x03C, hi := 31, lo := 0, acc := .res }
def PCI_ROUTE_VECTOR : RField := { off := 0x800, hi := 7, lo := 0, acc := .rw, stride := 4, n := 512, pg := 1, npg := 4 }
def PCI_ROUTE_EN : RField := { off := 0x800, hi := 8, lo := 8, acc := .rw, stride := 4, n := 512, pg := 1, npg := 4 }
def SVC_QP_RQPN : RField := { off := 0x800, hi := 23, lo := 0, acc := .rw, stride := 16, n := 64, pg := 1 }
def SVC_QP_EN : RField := { off := 0x800, hi := 24, lo := 24, acc := .rw, stride := 16, n := 64, pg := 1 }
def SVC_QP_ERR : RField := { off := 0x800, hi := 25, lo := 25, acc := .ro, stride := 16, n := 64, pg := 1 }
def SVC_QP_RIP : RField := { off := 0x804, hi := 31, lo := 0, acc := .rw, stride := 16, n := 64, pg := 1 }
def SVC_QP_EPSN : RField := { off := 0x808, hi := 23, lo := 0, acc := .rw, stride := 16, n := 64, pg := 1 }
def SVC_QP_RSVD : RField := { off := 0x80C, hi := 31, lo := 0, acc := .res, stride := 16, n := 64, pg := 1 }
def SVC_RG_BASE_LO : RField := { off := 0x800, hi := 31, lo := 0, acc := .rw, stride := 32, n := 64, pg := 2 }
def SVC_RG_BASE_HI : RField := { off := 0x804, hi := 15, lo := 0, acc := .rw, stride := 32, n := 64, pg := 2 }
def SVC_RG_PLANE : RField := { off := 0x804, hi := 17, lo := 16, acc := .rw, stride := 32, n := 64, pg := 2 }
def SVC_RG_LEN_LO : RField := { off := 0x808, hi := 31, lo := 0, acc := .rw, stride := 32, n := 64, pg := 2 }
def SVC_RG_LEN_HI : RField := { off := 0x80C, hi := 15, lo := 0, acc := .rw, stride := 32, n := 64, pg := 2 }
def SVC_RG_TAG : RField := { off := 0x810, hi := 23, lo := 0, acc := .rw, stride := 32, n := 64, pg := 2 }
def SVC_RG_RD : RField := { off := 0x814, hi := 0, lo := 0, acc := .rw, stride := 32, n := 64, pg := 2 }
def SVC_RG_WR : RField := { off := 0x814, hi := 1, lo := 1, acc := .rw, stride := 32, n := 64, pg := 2 }
def SVC_RG_EN : RField := { off := 0x814, hi := 2, lo := 2, acc := .rw, stride := 32, n := 64, pg := 2 }
def SVC_RG_RSVD0 : RField := { off := 0x818, hi := 31, lo := 0, acc := .res, stride := 32, n := 64, pg := 2 }
def SVC_RG_RSVD1 : RField := { off := 0x81C, hi := 31, lo := 0, acc := .res, stride := 32, n := 64, pg := 2 }
def RTE_EPT : RField := { off := 0x800, hi := 31, lo := 0, acc := .rw, stride := 4, n := 512, pg := 1, npg := 128 }
def RTE_CHIP_LO : RField := { off := 0x800, hi := 31, lo := 0, acc := .rw, stride := 8, n := 256, pg := 129, npg := 64 }
def RTE_CHIP_HI : RField := { off := 0x804, hi := 31, lo := 0, acc := .rw, stride := 8, n := 256, pg := 129, npg := 64 }

/-- The fields of the PLN register table. -/
def tblPLN : List RField :=
  [PLN_CFG_ACLK_SET, PLN_STATE, PLN_STATE_ACLK_NOW, PLN_STATE_FT_LOCKED, PLN_UNIT_SLICE_SLICE_ACT, PLN_UNIT_SLICE_SPARE_IDX, PLN_UNIT_MEM_FMC_ACT, PLN_UNIT_MEM_NMC_ACT, PLN_UNIT_MEM_CC_ACT, PLN_UNIT_SPM_LO_BANK_ACT_LO, PLN_UNIT_SPM_HI_BANK_ACT_HI, PLN_UNIT_SEQ]

/-- The fields of the HUB register table. -/
def tblHUB : List RField :=
  [HUB_LINK_CTL_EN, HUB_LINK_STAT_UP, HUB_LINK_STAT_CLOSED, HUB_LINK_STAT_TMO_CNT, HUB_LINK_DELAY, HUB_LINK_REQ, HUB_PEER_PEER_OK, HUB_PEER_MISS]

/-- The fields of the HDR register table. -/
def tblHDR : List RField :=
  [BLK_ID_INSTANCE, BLK_ID_TYPE, BLK_ID_SITE, BLK_ID_PAGE, BLK_REV_STEPPING, BLK_REV_BLK_VER, BLK_CTRL_EN, BLK_CTRL_SRST, BLK_CTRL_LOCK, BLK_STAT_REJ, BLK_STAT_LOCK_HIT, BLK_STAT_LOCKED, BLK_STAT_EN_NOW, BLK_STAT_RST_BUSY, BLK_STAT_TEST, BLK_STAT_REJ_CODE, BLK_STAT_REJ_OFF, BLK_STAT_REJ_CNT, BLK_IRQ_RAW, BLK_IRQ_EN, BLK_IRQ_STAT, BLK_ERR_CLASS, BLK_ERR_CLASS_OVF, BLK_ERR_CLASS_ACK, BLK_ERR_CLASS_SOURCE, BLK_ERR_CLASS_C_COUNT, BLK_ERR_LOG0_FT_LO, BLK_ERR_LOG1_FT_HI, BLK_ERR_LOG2_WHERE, BLK_ERR_LOG3_DETAIL, BLK_ERR_INJ_INJ_SRC, BLK_ERR_INJ_INJ_CLASS, BLK_ERR_INJ_GO, BLK_FENCE_FENCED, BLK_FENCE_POWERED, BLK_FENCE_CAUSE, BLK_FENCE_FENCE_REQ, BLK_SEQ, HDR_RSVD]

/-- The fields of the FTM register table. -/
def tblFTM : List RField :=
  [FTM_CFG_ROLE, FTM_CFG_REF_HUB, FTM_CFG_RELAY_EN, FTM_CFG_HOLD_LIMIT, FTM_UPSTREAM_PRI_PORT, FTM_UPSTREAM_PRI_EN, FTM_UPSTREAM_ALT_PORT, FTM_UPSTREAM_ALT_EN, FTM_STAT_STATE, FTM_STAT_SRC, FTM_STAT_DEPTH, FTM_STAT_PHASE_ERR, FTM_CAP, FTM_CAP_LO, FTM_CAP_HI, FTM_SEED_LO, FTM_SEED_HI, FTM_XCNT, FTM_ASYM]

/-- The fields of the TRF register table. -/
def tblTRF : List RField :=
  [TRF_CFG_REF_SRC, TRF_CFG_PPS_OUT_EN, TRF_CFG_PPS_OUT_PLANE, TRF_CFG_PTP_DOMAIN, TRF_CFG_PTP_TRANSPORT, TRF_STAT_REF_OK, TRF_STAT_PPS_OK, TRF_STAT_PTP_OK, TRF_STAT_FREQ_ERR, TRF_PPS_CNT, TRF_PPS_PHASE, TRF_PPS_REJ]

/-- The fields of the LAT register table. -/
def tblLAT : List RField :=
  [LAT_CFG_MARGIN, LAT_STAT_DISCARD_CNT, LAT_STAT_MISSED_CNT, LAT_DONE_LO, LAT_DONE_HI, ENT_CTRL_ARM, ENT_CTRL_ABORT, ENT_CTRL_ARRIVE, ENT_CTRL_ROOT, ENT_CTRL_ACT_SYNC, ENT_CTRL_ACT_KEY, ENT_CTRL_ACT_IRQ, ENT_CTRL_LOCAL_N, ENT_CTRL_GEN, ENT_CFG_N, ENT_CFG_PIDX, ENT_ROOT_ROOT_MOD, ENT_ROOT_SYNC_IDX, ENT_TMO_LO, ENT_TMO_HI, ENT_STAT_STATE, ENT_STAT_LOCAL_CNT, ENT_STAT_ARR_CNT, ENT_STAT_MISS, ENT_STRIKE_LO, ENT_STRIKE_HI]

/-- The fields of the KSQ register table. -/
def tblKSQ : List RField :=
  [KSQ_CMD, KSQ_SRC_LO, KSQ_SRC_HI, KSQ_SRC_LEN, KSQ_START_LO, KSQ_START_HI, KSQ_ARM_CFG_LATCH_ENT, KSQ_ARM_CFG_VIA_LATCH, KSQ_PAUSE_LO, KSQ_PAUSE_HI, KSQ_STAT_ACTIVE_BANK, KSQ_STAT_SWAP_WIN, KSQ_STAT_GAP_HIT, KSQ_STAT_LATE_CNT, KSQ_B_STAT_STATE, KSQ_B_STAT_RCODE, KSQ_B_STAT_END, KSQ_B_ID_LO, KSQ_B_ID_HI, KSQ_B_LINES, KSQ_B_START_LO_S_LO, KSQ_B_START_HI_S_HI, KSQ_B_POS_LINE, KSQ_B_LOOP_LOOP_LEFT, KSQ_B_LOOP_REP_LEFT, KSQ_B_END_LO_E_LO, KSQ_B_END_HI_E_HI, KSQ_B_GAP, KSQ_B_RSVD, KSQ_B1_RSVD]

/-- The fields of the XPT register table. -/
def tblXPT : List RField :=
  [XPT_RD_IDX_PAT, XPT_RD_STAT_OWNER, XPT_RD_STAT_REDIRECT, XPT_RD_STAT_ALT, XPT_CNT_DEF0, XPT_CNT_DEF1, XPT_RD_DATA]

/-- The fields of the TMB register table. -/
def tblTMB : List RField :=
  [TMB_STAT_ROLE, TMB_STAT_FOR_POS, TMB_STAT_CTX_BOUND, TMB_STORE_USED, TMB_OVR_OVR_CNT, TMB_ACC_SEL_CTX, TMB_ACC_SEL_ELEM, TMB_ACC_SEL_GO, TMB_ACC_FLAGS_NAN, TMB_ACC_FLAGS_PINF, TMB_ACC_FLAGS_NINF, TMB_ACC_FLAGS_ALLNEG0, TMB_ACC_FLAGS_VALID, TMB_ACC_FLAGS_N, TMB_ACC_DATA, TMB_ACC_FLAGS2_FIN, TMB_ACC_FLAGS2_NEG0, TMB_ACC_FLAGS2_POS0, TMB_CTX_CFG_IN_FMT, TMB_CTX_CFG_OUT_FMT, TMB_CTX_CFG_OP, TMB_CTX_CFG_ACC, TMB_CTX_CFG_RND, TMB_CTX_CFG_OVF, TMB_CTX_CFG_STATE, TMB_CTX_CFG_STATUS, TMB_CTX_SIZE_CHUNK_CELLS, TMB_CTX_SIZE_FOOT_KIB, TMB_CTX_IDX_LO, TMB_CTX_IDX_HI]

/-- The fields of the SYN register table. -/
def tblSYN : List RField :=
  [SYN_STAT_TMO_CNT, SYN_WATCH_CFG_OBJ, SYN_WATCH_CFG_EN, SYN_WATCH_TGT, SYN_OBJ_VAL, SYN_ADD]

/-- The fields of the CCX register table. -/
def tblCCX : List RField :=
  [CCX_CTRL_RUN, CCX_CTRL_HALT, CCX_CTRL_SAVE, CCX_CTRL_RESTORE, CCX_STAT_STATE, CCX_STAT_IMG_BAD, CCX_STAT_RESTORED, CCX_STAT_HCAUSE, CCX_CFG_KEY_EN, CCX_CFG_FOLLOW_KEY, CCX_CFG_WDOG, CCX_PC, CCX_SAVE_LO, CCX_SAVE_HI, CCX_LS_ADDR, CCX_LS_DATA, CCX_MSG_DROP, CCX_MSG_INBOX, CCX_INFO_XOUT, CCX_INFO_FOUT, CCX_INFO_WAIT_KIND]

/-- The fields of the GRQ register table. -/
def tblGRQ : List RField :=
  [GRQ_SEL_GROUP, GRQ_G_CFG_CORE, GRQ_G_CFG_TCLASS, GRQ_G_CFG_LAUNCH, GRQ_G_CFG_CIRQ, GRQ_G_CFG_EN, GRQ_G_CFG_MCOUNT, GRQ_G_QBASE, GRQ_G_SIZE_QENT, GRQ_G_SIZE_CENT, GRQ_G_CBASE, GRQ_G_MBASE, GRQ_G_PTR_PROD, GRQ_G_PTR_CONS, GRQ_G_CPTR_CPROD, GRQ_G_CPTR_CCONS, GRQ_G_STAT_GEN, GRQ_G_STAT_DSEQ, GRQ_G_CTL_COMMIT, GRQ_G_CTL_KEEP, GRQ_DISCARD_FRAME_DISC, GRQ_DISCARD_LAUNCH_REF, GRQ_CPEND, GRQ_DB_PROD]

/-- The fields of the FMC register table. -/
def tblFMC : List RField :=
  [FMC_CFG_PATROL_EN, FMC_STAT_READY, FMC_STAT_SCHED, FMC_STAT_MIRRORED, FMC_STAT_PARTNER_LOST, FMC_STAT_HOT, FMC_STAT_TEMP, FMC_REF_SINCE, FMC_PATROL_LO_PTR_LO, FMC_PATROL_HI_PTR_HI, FMC_POISON_CNT_PCNT, FMC_LASTP_LO_LP_LO, FMC_LASTP_HI_LP_HI, FMC_PADDR_LO, FMC_PADDR_HI, FMC_CMD_POISON]

/-- The fields of the SPM register table. -/
def tblSPM : List RField :=
  [SPM_PART_CFG_KEYB, SPM_PART_CFG_GQ, SPM_PART_CFG_REORD, SPM_PART_CFG_ADAPT, SPM_PART_CFG_RET, SPM_PART_CTL_APPLY, SPM_PART_SIG, SPM_STAT_ACTIVE, SPM_STAT_APPLY_BUSY, SPM_STAT_STAGE, SPM_RET_FREE_FREE_KIB, SPM_POISON_CNT_PCNT]

/-- The fields of the FPT register table. -/
def tblFPT : List RField :=
  [FPT_CFG_PEN, FPT_CFG_WIDTH, FPT_CFG_ROLE, FPT_CFG_VC8, FPT_CFG_SLAT, FPT_PLAN_PLAN_ADDR, FPT_PLAN_PLAN_KIND, FPT_PLAN_PLAN_PORT, FPT_PLAN_SER_LO, FPT_PLAN_SER_HI, FPT_STAT_STATE, FPT_STAT_WIDTH_NOW, FPT_STAT_LANE_ACT, FPT_STAT_QCAUSE, FPT_STAT_RTT, FPT_LANE_LOCK, FPT_LANE_REMOVED, FPT_CRC_CNT, FPT_REPLAY_CNT, FPT_FEC_CE_CNT, FPT_FEC_UE_CNT, FPT_SDROP_CNT, FPT_HDR_CNT, FPT_HELLO_DATA, FPT_VC_GRANT, FPT_VC_AVAIL]

/-- The fields of the SDS register table. -/
def tblSDS : List RField :=
  [SDS_CFG_LT_EN, SDS_TXPOL_LO, SDS_TXPOL_HI, SDS_RXPOL_LO, SDS_RXPOL_HI, SDS_LOCK_LO, SDS_LOCK_HI, SDS_TEMP]

/-- The fields of the RTE register table. -/
def tblRTE : List RField :=
  [RTE_ID_MOD_ADDR, RTE_ID_MY_JOB, RTE_ID_SPINE_MOD, RTE_EXT_KX, RTE_EXT_KY, RTE_EXT_KZ, RTE_EXT_WRAP, RTE_EXT_F2_EN, RTE_BOX_LOX, RTE_BOX_HIX, RTE_BOX_LOY, RTE_BOX_HIY, RTE_BOX_LOZ, RTE_BOX_HIZ, RTE_PLAN_LO, RTE_PLAN_HI, RTE_ADMIT, RTE_ROB_WAIT, RTE_ROB_OPEN, RTE_HOLD_LO, RTE_HOLD_HI, RTE_RESUME_LO_RES_LO, RTE_RESUME_HI_RES_HI, RTE_DRAIN_CHECK_ENT, RTE_DRAIN_CONFIRM_ENT, RTE_CTL_START, RTE_CTL_COMMIT, RTE_CTL_RESUME, RTE_STAT_STATE, RTE_STAT_ZERO_AT_CHECK, RTE_STAT_DRAIN_FAIL, RTE_INFLIGHT_FRAMES, RTE_DISC_SRC_NOROUTE, RTE_DISC_SRC, RTE_DISC_OWN, RTE_DISC_OWN_LOOP, RTE_DISC_F2, RTE_DISC_F2_ISO, RTE_ROB_CNT_LATE, RTE_ROB_CNT_FORCE] ++
  [RTE_OWN_OWN0, RTE_OWN_OWN1, RTE_OWN_OWN2, RTE_OWN_OWN3, RTE_EPT, RTE_CHIP_LO, RTE_CHIP_HI]

/-- The fields of the SWC register table. -/
def tblSWC : List RField :=
  [SWC_CFG_MAX_FLEN, SWC_CFG_AUDIT_EN, SWC_BUF_CELLS, SWC_FREE, SWC_RESV, SWC_RESV_OVERCOMMIT, SWC_HELD, SWC_AUDIT_GRACE, SWC_AUDIT_LEAK_CNT, SWC_DISC_A_BUF_FULL, SWC_DISC_A_FLEN, SWC_DISC_B_TRUNC, SWC_DISC_B_AGED, SWC_DISC_C_MASKED, SWC_DISC_C_EGR_FENCED, SWC_DROP_A_GREEN, SWC_DROP_A_YELLOW, SWC_DROP_B_RED, SWC_DROP_B_POLICED, SWC_EPOCH_CUR, SWC_EPOCH_FLIP, SWC_EPOCH_CNT0, SWC_EPOCH_CNT1, SWC_SEED_LO, SWC_SEED_HI, SWC_TBL_SEL_TABLE, SWC_TBL_SEL_BANK, SWC_TBL_SEL_INDEX, SWC_TBL_SEL_WORD, SWC_TBL_DATA, SWC_DRAW_LO, SWC_DRAW_HI]

/-- The fields of the QSH register table. -/
def tblQSH : List RField :=
  [QSH_SEL_QUEUE, QSH_Q_CFG_QUANTUM, QSH_Q_CFG_STRICT, QSH_Q_CFG_SHAPE_EN, QSH_Q_RATE, QSH_Q_BURST, QSH_Q_STAT_DEPTH, QSH_Q_STAT_INPROG, QSH_Q_TOK_LO, QSH_Q_TOK_HI, QSH_Q_MAXD_MAXDEPTH, QSH_Q_DELAY_LAST, QSH_Q_DELAY_MAX, QSH_P_CFG_SHAPE_EN, QSH_P_RATE, QSH_P_BURST, QSH_P_TOK_LO, QSH_P_TOK_HI, QSH_CMD_CLRMAX]

/-- The fields of the POL register table. -/
def tblPOL : List RField :=
  [POL_SEL_POLICER, POL_CIR, POL_PIR, POL_CBS, POL_PBS, POL_CFG_RED_DROP, POL_CTL_APPLY, POL_TC_LO, POL_TC_HI, POL_TP_LO, POL_TP_HI, POL_CNT_G_GREEN, POL_CNT_Y_YELLOW, POL_CNT_R_RED]

/-- The fields of the CH register table. -/
def tblCH : List RField :=
  [CH_STAT_COUNT, CH_STAT_DEPTH, CH_STAT_EN, CH_STAT_FULL, CH_STAT_REJ_CNT, CH_CTRL_GO, CH_CTRL_POP, CH_TXLEN_LEN, CH_RXLEN_LEN, CH_RXLEN_SEQ, CH_IRQ_EN_EMPTY_EN, CH_IRQ_EN_ARRIVE_EN, CH_IRQ_EN_DB_EN, CH_IRQ_EMPTY, CH_IRQ_ARRIVE, CH_IRQ_DB, CH_DB_SET, CH_DB_PEND, CH_TXSEQ, CH_TXBUF, CH_RXWIN]

/-- The fields of the MBX register table. -/
def tblMBX : List RField :=
  [MBX_STAT_FULL_CNT, MBX_WARD_SEND, MBX_WARD_RECV, MBX_WARD_DEPTH, MBX_WARD_EN]

/-- The fields of the PCI register table. -/
def tblPCI : List RField :=
  [PCI_STAT_RATE, PCI_STAT_WIDTH, PCI_STAT_FLIT, PCI_STAT_LINK_UP, PCI_STAT_D3HOT, PCI_STAT_BME, PCI_CFG_READY, PCI_LEASE_REQ, PCI_LEASE_RENEW, PCI_LEASE_RELEASE, PCI_LEASE_HOLDER, PCI_LEASE_TERM, PCI_LEASE_LEFT, PCI_WIN_WPLANE, PCI_WIN_WBASE, PCI_CNT_A_DENY, PCI_CNT_A_B2_REJ, PCI_CNT_B_POISON, PCI_ROUTE_VECTOR, PCI_ROUTE_EN]

/-- The fields of the SVC register table. -/
def tblSVC : List RField :=
  [SVC_CFG_EN, SVC_CFG_RDMA_EN, SVC_CFG_PRIO, SVC_STAT_LINK_UP, SVC_RDMA_IP, SVC_MAC_LO, SVC_MAC_HI, SVC_CNT_DROP, SVC_CNT_POISON, SVC_QP_RQPN, SVC_QP_EN, SVC_QP_ERR, SVC_QP_RIP, SVC_QP_EPSN, SVC_QP_RSVD, SVC_RG_BASE_LO, SVC_RG_BASE_HI, SVC_RG_PLANE, SVC_RG_LEN_LO, SVC_RG_LEN_HI, SVC_RG_TAG, SVC_RG_RD, SVC_RG_WR, SVC_RG_EN, SVC_RG_RSVD0, SVC_RG_RSVD1]

/-- The fields of the FCL register table. -/
def tblFCL : List RField :=
  [FCL_CFG_CACK, FCL_CFG_ALIVE_EN, FCL_STAT_DEADBOLT, FCL_STAT_PEER_OK, FCL_STAT_ALIVE, FCL_STAT_BROKEN, FCL_CNT_C_TOTAL, FCL_CNT_U_TOTAL, FCL_U_SEL_UNIT, FCL_U_STAT_CLASS, FCL_U_STAT_PAIR_OK, FCL_U_STAT_PEER_PAIR_OK, FCL_U_STAT_FENCED, FCL_U_STAT_RSEQ, FCL_U_STAT_CAUSE, FCL_LIFT_UNIT, FCL_FATAL_UNIT, FCL_FATAL_SOURCE, FCL_FATAL_PATH, FCL_FATAL_VALID, FCL_FATAL_FT_LO, FCL_FATAL_FT_HI, FCL_PREV, FCL_PREV_FT_LO, FCL_PREV_FT_HI, FCL_PEND]

/-- The fields of the MGC register table. -/
def tblMGC : List RField :=
  [MGC_CTRL_RUN, MGC_CTRL_HALT, MGC_STAT_RUNNING, MGC_STAT_WDOG_HIT, MGC_WDOG_KICK, MGC_NEXT_SRC, MGC_IE]

/-- The fields of the PWR register table. -/
def tblPWR : List RField :=
  [PWR_CFG_PREFER, PWR_FEED_A_STATE, PWR_FEED_A_ACTIVE, PWR_FEED_A_MV, PWR_LOAD_WATTS, PWR_DOM_STAT_ON, PWR_DOM_PEND, PWR_DOM_ON_ON_REQ, PWR_DOM_OFF_OFF_REQ, PWR_CREDIT, PWR_CMD_MODULE_RESET, PWR_CMD_PLANE_RESET, PWR_CMD_HUB_RESET, PWR_CMD_PLANE, PWR_CMD_HUB, PWR_HOLD_HOLDUP_OK, PWR_FEED_B_STATE, PWR_FEED_B_ACTIVE, PWR_FEED_B_MV]

/-- The fields of the KPL register table. -/
def tblKPL : List RField :=
  [KPL_STAT_STATE, KPL_STAT_SLOT, KPL_STAT_OPMODE, KPL_STAT_OWNED, KPL_STAT_CFG_MISMATCH, KPL_STAT_REVOKED, KPL_STAT_DBG_LEVEL, KPL_STAT_DBG_FAIL, KPL_CMD, KPL_SRC_LO, KPL_SRC_HI, KPL_SRC_HI_PLANE, KPL_SRC_HI_CORE, KPL_SRC_HI_PREF, KPL_SRC_LEN, KPL_RESULT_CODE, KPL_RESULT_TYPE, KPL_SVN, KPL_SERIAL_LO_SER_LO, KPL_SERIAL_HI_SER_HI, KPL_NONCE, KPL_IDREC]

/-- The fields of the PMU register table. -/
def tblPMU : List RField :=
  [PMU_CTL_SNAP, PMU_CTL_CLR_ALL, PMU_MARK, PMU_TD_CTL_TD_EN, PMU_TD_CTL_TD_CLR, PMU_WIN_START_LO_WS_LO, PMU_WIN_START_HI_WS_HI, PMU_WIN_END_LO_WE_LO, PMU_WIN_END_HI_WE_HI, PMU_HIST_CFG_POINT, PMU_HIST_CFG_SEL, PMU_HIST_CFG_EN, PMU_HIST_CFG_CLR, PMU_HIST_N_SAMPLES, PMU_C_CFG_EVENT, PMU_C_CFG_INST, PMU_C_CFG_EN, PMU_C_CFG_IRQ, PMU_C_CFG_OVF, PMU_C_CFG_WIN, PMU_C_RLD_LO, PMU_C_RLD_HI, PMU_C_CNT_LO, PMU_C_CNT_HI, PMU_C_SNAP_LO, PMU_C_SNAP_HI, PMU_TDK_LO_TD_LO, PMU_TDK_HI_TD_HI, PMU_TDC_LO_TD_LO, PMU_TDC_HI_TD_HI, PMU_BIN_COUNT]

end Sys2Proof.Machine.Fld
end

