-- ==== Sys2Proof/Machine/Sha512.lean ====
section
/-! DEFINITION. Sys2Proof/Machine/Sha512.lean: SHA-512 (FIPS 180-4), which image headers, key images and measurements
name (R434, R114, Table 15.9). -/

namespace Sys2Proof.Machine

/-- Whether `n` < 441 is prime. -/
def shaPrime (n : Nat) : Bool := decide (2 ≤ n) && (List.range 21).all (fun d => decide (d < 2) || d = n || n % d ≠ 0)

/-- The greatest number below `acc` + 2^`b` whose `k`-th power is not above `n`, bit by bit from the top. -/
def rootFrom (k n : Nat) : Nat → Nat → Nat
  | 0, acc => acc
  | b + 1, acc => rootFrom k n b (if (acc + 2 ^ b) ^ k ≤ n then acc + 2 ^ b else acc)

/-- The first 64 bits of the fraction of the `k`-th root of `p`. -/
def rootFrac (k p : Nat) : Dword := BitVec.ofNat 64 (rootFrom k (p * 2 ^ (64 * k)) 70 0)

/-- The round constants of SHA-512: from the cube roots of the 80 primes up to 409. -/
def shaK : List Dword := ((List.range 410).filter shaPrime).map (rootFrac 3)

/-- The initial hash value of SHA-512: from the square roots of the 8 primes up to 19. -/
def shaH : List Dword := ((List.range 20).filter shaPrime).map (rootFrac 2)

/-- The number of big-endian bytes. -/
def ofBytesBE (l : List Byte) : Nat := l.foldl (fun a b => 256 * a + b.toNat) 0

/-- Big-endian bytes of a number. -/
def bytesBE (n v : Nat) : List Byte := (bytesOf n v).reverse

/-- Rotate right. -/
def rotr (x : Dword) (n : Nat) : Dword := x.rotateRight n

/-- The message schedule, latest word first: `n` further words. -/
def shaSchedule : Nat → List Dword → List Dword
  | 0, w => w
  | n + 1, w =>
    let a := w.getD 1 0
    let b := w.getD 14 0
    let s1 := rotr a 19 ^^^ rotr a 61 ^^^ (a >>> 6)
    let s0 := rotr b 1 ^^^ rotr b 8 ^^^ (b >>> 7)
    shaSchedule n ((s1 + w.getD 6 0 + s0 + w.getD 15 0) :: w)

/-- One round. -/
def shaRound (h : List Dword) (kw : Dword × Dword) : List Dword :=
  match h with
  | [a, b, c, d, e, f, g, hh] =>
    let t1 := hh + (rotr e 14 ^^^ rotr e 18 ^^^ rotr e 41) + ((e &&& f) ^^^ (~~~e &&& g)) + kw.1 + kw.2
    let t2 := (rotr a 28 ^^^ rotr a 34 ^^^ rotr a 39) + ((a &&& b) ^^^ (a &&& c) ^^^ (b &&& c))
    [t1 + t2, a, b, c, d + t1, e, f, g]
  | l => l

/-- The words of one block. -/
def shaWords : Nat → List Byte → List Dword
  | 0, _ => []
  | n + 1, l => BitVec.ofNat 64 (ofBytesBE (l.take 8)) :: shaWords n (l.drop 8)

/-- One 128-byte block. -/
def shaBlock (h : List Dword) (blk : List Byte) : List Dword :=
  let w := (shaSchedule 64 (shaWords 16 blk).reverse).reverse
  (h.zip ((shaK.zip w).foldl shaRound h)).map (fun e => e.1 + e.2)

/-- `n` blocks of a padded message. -/
def shaBlocks : Nat → List Dword → List Byte → List Dword
  | 0, h, _ => h
  | n + 1, h, l => shaBlocks n (shaBlock h (l.take 128)) (l.drop 128)

/-- SHA-512: 64 bytes. (PRESUMED, log 8) -/
def sha512 (m : List Byte) : List Byte :=
  let z := (239 - m.length % 128) % 128
  let p := m ++ (0x80 :: List.replicate z 0) ++ bytesBE 16 (8 * m.length)
  (shaBlocks (p.length / 128) shaH p).flatMap (fun d => bytesBE 8 d.toNat)

end Sys2Proof.Machine
end

