-- ==== Sys2Proof/Machine/Ops.lean ====
section
/-! DEFINITION. Sys2Proof/Machine/Ops.lean: the named operations every meaning is written with: unit numbers,
register access, plane and hub access, power, outputs and the free-value counter. -/

namespace Sys2Proof.Machine

/-! ### Fields -/

/-- The number of bits of a field. -/
def RField.width (f : RField) : Nat := f.hi - f.lo + 1

/-- The offset key of a field's register (its first instance). -/
def RField.key (f : RField) : Nat := f.pg * 4096 + f.off

/-- The field of instance `i` of a register that repeats. -/
def RField.at (f : RField) (i : Nat) : RField := { f with off := f.off + i * f.stride, n := 1 }

/-- The field of instance `i` in page `g`. -/
def RField.atPage (f : RField) (g i : Nat) : RField := { f with off := f.off + i * f.stride, pg := g, n := 1, npg := 1 }

/-- The field's bits as a mask. -/
def RField.mask (f : RField) : Word := (BitVec.allOnes f.width).setWidth 32 <<< f.lo

/-- Whether a field's register, in one of its instances, has the offset key `off`. -/
def RField.covers (f : RField) (off : Nat) : Bool :=
  let g := off / 4096
  let o := off % 4096
  f.pg ≤ g && g < f.pg + f.npg && f.off ≤ o &&
    (if f.n ≤ 1 then o = f.off else (o - f.off) % f.stride = 0 && (o - f.off) / f.stride < f.n)

/-- The value of a field within a register word. -/
def fieldGet (w : Word) (f : RField) : Nat := (w.extractLsb' f.lo f.width).toNat

/-- A register word with one field replaced. -/
def fieldSet (w : Word) (f : RField) (v : Nat) : Word :=
  (w &&& ~~~f.mask) ||| ((BitVec.ofNat 32 v <<< f.lo) &&& f.mask)

/-! ### Units (Table 13.4) -/

/-- The block type codes of Table 2.4. -/
def Blk.code : Blk → Nat
  | .PLN => 0x01 | .FTM => 0x02 | .LAT => 0x03 | .KSQ => 0x04 | .XPT => 0x05 | .TMB => 0x06 | .SPM => 0x07
  | .NMC => 0x08 | .FMC => 0x09 | .FPT => 0x0A | .SDS => 0x0B | .RTE => 0x0C | .SWC => 0x0D | .QSH => 0x0E
  | .POL => 0x0F | .CCX => 0x10 | .GRQ => 0x11 | .SYN => 0x12 | .PMU => 0x13 | .MGC => 0x14
  | .HUB => 0x20 | .PCI => 0x21 | .MBX => 0x22 | .FCL => 0x23 | .PWR => 0x24 | .KPL => 0x25 | .SVC => 0x26
  | .TRF => 0x27

/-- Unit number of a single-instance block of a plane. -/
def pu (p : PlaneId) (b : Blk) : Nat := 256 * p.val + b.code
/-- Unit number of TMB n. -/
def uTMB (p : PlaneId) (n : Nat) : Nat := 256 * p.val + 0x20 + n
/-- Unit number of FMC n. -/
def uFMC (p : PlaneId) (n : Nat) : Nat := 256 * p.val + 0x38 + n
/-- Unit number of SDS n. -/
def uSDS (p : PlaneId) (n : Nat) : Nat := 256 * p.val + 0x3E + n
/-- Unit number of CCX n. -/
def uCCX (p : PlaneId) (n : Nat) : Nat := 256 * p.val + 0x40 + n
/-- Unit number of FPT n. -/
def uFPT (p : PlaneId) (n : Nat) : Nat := 256 * p.val + 0x80 + n
/-- Unit number of a block of a hub. -/
def hu (h : HubId) (b : Blk) : Nat := 0x400 + 0x10 * h.num + (b.code - 0x20)

/-- The block type of a unit within a plane, from the low byte of its number. -/
def planeBlk (c : Nat) : Option (Blk × Nat) :=
  if 0x80 ≤ c then some (.FPT, c - 0x80)
  else if 0x40 ≤ c ∧ c < 0x50 then some (.CCX, c - 0x40)
  else if 0x3E ≤ c ∧ c < 0x40 then some (.SDS, c - 0x3E)
  else if 0x38 ≤ c ∧ c < 0x3E then some (.FMC, c - 0x38)
  else if 0x20 ≤ c ∧ c < 0x31 then some (.TMB, c - 0x20)
  else match c with
    | 0x01 => some (.PLN, 0) | 0x02 => some (.FTM, 0) | 0x03 => some (.LAT, 0) | 0x04 => some (.KSQ, 0)
    | 0x05 => some (.XPT, 0) | 0x07 => some (.SPM, 0) | 0x08 => some (.NMC, 0) | 0x0C => some (.RTE, 0)
    | 0x0D => some (.SWC, 0) | 0x0E => some (.QSH, 0) | 0x0F => some (.POL, 0) | 0x11 => some (.GRQ, 0)
    | 0x12 => some (.SYN, 0) | 0x13 => some (.PMU, 0) | 0x14 => some (.MGC, 0) | _ => none

/-- The block type of a unit of a hub. -/
def hubBlk (c : Nat) : Option Blk :=
  match c with
  | 0 => some .HUB | 1 => some .PCI | 2 => some .MBX | 3 => some .FCL | 4 => some .PWR | 5 => some .KPL
  | 6 => some .SVC | 7 => some .TRF | _ => none

/-- The plane that contains a unit. -/
def unitPlane (u : Nat) : Option PlaneId := if h : u / 256 < 4 then some ⟨u / 256, h⟩ else none

/-- A plane by its number. -/
def planeOf (n : Nat) : PlaneId := ⟨n % 4, Nat.mod_lt _ (by decide)⟩

/-- The hub that contains a unit. -/
def unitHub (u : Nat) : Option HubId := if u / 16 = 0x40 then some .a else if u / 16 = 0x41 then some .b else none

/-- The block type and instance of a unit, where Table 13.4 assigns its number. -/
def unitBlk (u : Nat) : Option (Blk × Nat) :=
  if u < 0x400 then planeBlk (u % 256)
  else if u < 0x420 then (hubBlk (u % 16)).map (fun b => (b, 0)) else none

/-- The unit numbers within a plane that Table 13.4 assigns. -/
def planeUnitCodes : List Nat :=
  [0x01, 0x02, 0x03, 0x04, 0x05, 0x07, 0x08, 0x0C, 0x0D, 0x0E, 0x0F, 0x11, 0x12, 0x13, 0x14] ++
  (List.range 17).map (0x20 + ·) ++ (List.range 24).map (0x38 + ·) ++ (List.range 128).map (0x80 + ·)

/-- Every unit of a plane. -/
def planeUnits (p : PlaneId) : List Nat := planeUnitCodes.map (256 * p.val + ·)

/-- Every unit of a hub. -/
def hubUnits (h : HubId) : List Nat := (List.range 8).map (0x400 + 0x10 * h.num + ·)

/-- The power domain of a unit (Table 15.2). -/
def unitDomain (u : Nat) : Nat :=
  match unitHub u with
  | some h => 2 + h.num
  | none =>
    let p := u / 256
    match planeBlk (u % 256) with
    | some (.NMC, _) => 4 + 7 * p + 1
    | some (.FMC, _) => 4 + 7 * p + 2
    | some (.SDS, n) => 4 + 7 * p + 3 + n
    | some (.TMB, _) => 4 + 7 * p + 5
    | some (.CCX, _) => 4 + 7 * p + 6
    | some (.SYN, _) => 4 + 7 * p + 6
    | _ => 4 + 7 * p

/-! ### Register tables and reset values -/

/-- The fields of a block type beyond the header. The HUB page holds Table 15.10 as well (R33). -/
def blkTable : Blk → List RField
  | .PLN => Fld.tblPLN | .FTM => Fld.tblFTM | .LAT => Fld.tblLAT | .KSQ => Fld.tblKSQ | .XPT => Fld.tblXPT
  | .TMB => Fld.tblTMB | .SPM => Fld.tblSPM | .NMC => Fld.tblFMC | .FMC => Fld.tblFMC | .FPT => Fld.tblFPT
  | .SDS => Fld.tblSDS | .RTE => Fld.tblRTE | .SWC => Fld.tblSWC | .QSH => Fld.tblQSH | .POL => Fld.tblPOL
  | .CCX => Fld.tblCCX | .GRQ => Fld.tblGRQ | .SYN => Fld.tblSYN | .PMU => Fld.tblPMU | .MGC => Fld.tblMGC
  | .HUB => Fld.tblHUB ++ Fld.tblMGC | .PCI => Fld.tblPCI | .MBX => Fld.tblMBX | .FCL => Fld.tblFCL
  | .PWR => Fld.tblPWR | .KPL => Fld.tblKPL | .SVC => Fld.tblSVC | .TRF => Fld.tblTRF

/-- The key of a register: a header register is the same in every page of its block (R42), and both PWR pages present
one power controller (R443). (DESIGN CHOICE, log 99) -/
def regKey (u off : Nat) : Nat × Nat :=
  if off % 4096 < 0x40 then (u, off % 4096)
  else if u = 0x414 then (0x404, off) else (u, off)

/-- The fields of the register at an offset of a block. -/
def fieldsAt (b : Blk) (off : Nat) : List RField :=
  if off % 4096 < 0x40 then Fld.tblHDR.filter (·.covers (off % 4096)) else (blkTable b).filter (·.covers off)

/-- OR of the constant reset values of a register's fields (R13). -/
def constReset (fs : List RField) : Word := fs.foldl (fun w f => fieldSet w f f.rst) 0

/-- The topology plan's reset value of a register of a plane (Table 15.8 TAG 0x0009). -/
def planReset (s : State) (p : PlaneId) (u off : Nat) : Option Word :=
  (mget (s.cfg.planes.get p).plan (u % 256)).bind (mget · off)

/-- A position's slice role at reset, from the identity record: 0 ACTIVE, 1 SPARE, 3 UNUSABLE. A slice that fails its
self-test is fenced when its domain starts (R430). -/
def sliceRole0 (s : State) (p : PlaneId) (n : Nat) : Nat :=
  if s.ident.unusable.get p = n then 3
  else if s.ident.spare.get p = n then 1 else 0

/-- The reset value of a register of a plane whose Reset column names a source (R13). -/
def planeSrcReset (s : State) (p : PlaneId) (u off : Nat) (b : Blk) (n : Nat) : Option Word :=
  let c := s.cfg.planes.get p
  match b, off with
  | .PLN, 0x040 => some (BitVec.ofNat 32 c.aclk)
  | .PLN, 0x044 => some (BitVec.ofNat 32 (1 + 16 * c.aclk))
  | .PLN, 0x048 =>
    let act := (List.range 17).foldl (fun a i => if sliceRole0 s p i = 0 then a + 2 ^ i else a) 0
    let sp := s.ident.spare.get p
    some (BitVec.ofNat 32 (act + 2 ^ 20 * (if sliceRole0 s p sp = 1 then sp else 0x1F)))
  | .PLN, 0x04C =>
    let fm := (List.range 6).foldl (fun a i => if (6 * p.val + i) ∈ s.fitted.badDimm ∨
      mget s.fitted.spd (6 * p.val + i) ≠ mget s.ident.dimm (6 * p.val + i) then a else a + 2 ^ i) 0
    some (BitVec.ofNat 32 (fm + (if p.val ∈ s.fitted.badHbm then 0 else 0x100) + 0xFFFF0000))
  | .FTM, 0x040 => some (BitVec.ofNat 32 (c.role + 0x1008))
  | .TMB, 0x040 => some (BitVec.ofNat 32 (sliceRole0 s p n + 16 * (if sliceRole0 s p n = 0 then n else 0x1F)))
  | .FMC, 0x044 => some (if c.mirror then 4 else 0)
  | .FMC, 0x050 => some 0x0100
  | .SPM, 0x040 => some c.part
  | .SDS, o =>
    if 0x044 ≤ o ∧ o ≤ 0x050 then some (mgetD s.ident.polarity (8 * p.val + 4 * n + (o - 0x044) / 4) 0) else none
  | .FTM, _ => planReset s p u off
  | .FPT, _ => planReset s p u off
  | .RTE, _ => planReset s p u off
  | _, _ => none

/-- The ordering code of a grade (Table 0.1), in 16 bytes. -/
def gradeCode : Grade → List Byte
  | .s096 => sliceB ("KZ-7104-S096".toList.map (fun c => BitVec.ofNat 8 c.toNat)) 0 16
  | .s128 => sliceB ("KZ-7104-S128".toList.map (fun c => BitVec.ofNat 8 c.toNat)) 0 16
  | .e096 => sliceB ("KZ-7104-E096".toList.map (fun c => BitVec.ofNat 8 c.toNat)) 0 16

/-- The body of the identity record: what R437 lists, in its order. (DESIGN CHOICE, log 102) -/
def identBody (i : Ident) : List Byte :=
  bytesOf 8 i.serial.toNat ++ gradeCode i.grade ++ bytesOf 4 i.stepping ++
    (bytesOf 2 i.vendorId ++ bytesOf 2 i.subVendor ++ bytesOf 4 i.subSystem ++ bytesOf 8 i.devSerial.toNat) ++
    (bytesOf 6 i.mac.a ++ bytesOf 6 i.mac.b) ++
    (List.finRange 4).flatMap (fun p => bytesOf 1 (i.unusable.get p) ++ bytesOf 1 (i.spare.get p)) ++
    (List.range 24).flatMap (fun k => bytesOf 8 (mgetD i.dimm k 0)) ++
    ((List.range 32).flatMap (fun k => bytesOf 4 (mgetD i.polarity k 0).toNat) ++ i.presets) ++
    (List.range 8).flatMap (fun k => bytesOf 2 (mgetD i.linkDelay k 0))

/-- The identity record image that a Keyplate presents in KPL_IDREC and measures (R434, R437, Table 15.9): an IDENTITY image signed by
Damcen whose body is that of the module's `Ident`. (DESIGN CHOICE, log 102) -/
def identImage (s : State) (h : HubId) : List Byte :=
  let body := identBody s.ident
  let head := bytesOf 4 0x4D495A4B ++ bytesOf 2 1 ++ bytesOf 2 256 ++ bytesOf 4 0x0107 ++ List.replicate 20 0 ++ bytesOf 4 body.length ++
    List.replicate 4 0 ++ bytesOf 4 3 ++ List.replicate 4 0 ++ bytesOf 8 s.ident.serial.toNat ++ List.replicate 8 0 ++ sha512 body
  sliceB head 0 256 ++ sliceB (s.hubs.get h).kpl.flash.idSig 0 192 ++ body

/-- The reset value of a register of a hub whose Reset column names a source (R13). -/
def hubSrcReset (s : State) (h : HubId) (off : Nat) (b : Blk) : Option Word :=
  let fl := (s.hubs.get h).kpl.flash
  match b, off with
  | .TRF, 0x040 => some (s.cfg.trf.get h)
  | .SVC, 0x040 => some (BitVec.ofNat 32 (b2n (s.cfg.svcEn.get h) + 12))
  | .SVC, 0x04C => some (BitVec.ofNat 32 (s.ident.mac.get h))
  | .SVC, 0x050 => some (BitVec.ofNat 32 (s.ident.mac.get h / 2 ^ 32 % 2 ^ 16))
  | .PCI, 0x048 => some (BitVec.ofNat 32 (s.cfg.term * 2 ^ 16))
  | .PWR, 0x040 => some (BitVec.ofNat 32 s.cfg.prefer)
  | .KPL, 0x040 => some (BitVec.ofNat 32 (4 * ((s.hubs.get h).kpl.slot % 2) + 8 * s.cfg.opmode + 32 * b2n fl.owner.isSome + 256 * fl.revoked))
  | .KPL, 0x058 => some (BitVec.ofNat 32 (fl.svnHub + 2 ^ 8 * fl.svnPlane + 2 ^ 16 * fl.svnCc + 2 ^ 24 * fl.svnCfg))
  | .KPL, 0x05C => some (s.ident.serial.setWidth 32)
  | .KPL, 0x060 => some ((s.ident.serial >>> 32).setWidth 32)
  | .FCL, 0x064 => fl.dead.map (fun d => BitVec.ofNat 32 (d.unit + 2 ^ 16 * d.source + 2 ^ 24 * d.path + 2 ^ 31))
  | .FCL, 0x068 => fl.dead.map (fun d => BitVec.ofNat 32 d.ft)
  | .FCL, 0x06C => fl.dead.map (fun d => BitVec.ofNat 32 (d.ft / 2 ^ 32))
  | .HUB, o =>
    if 0x400 ≤ o ∧ o < 0x440 ∧ o % 16 = 8 then
      some (BitVec.ofNat 32 (mgetD s.ident.linkDelay (4 * h.num + (o - 0x400) / 16) 0)) else none
  | .MBX, o => if 0x400 ≤ o ∧ o < 0x600 then some (mgetD s.cfg.wards (128 * h.num + (o - 0x400) / 4) 0) else none
  | .KPL, o => if 0x800 ≤ o ∧ o < 0x1000 then some (BitVec.ofNat 32 (ofBytes (sliceB (identImage s h) (o - 0x800) 4))) else none
  | _, _ => none

/-- The reset value of the register at key `off` of unit `u` (R13). -/
def resetVal (s : State) (u off : Nat) : Word :=
  match unitBlk u with
  | none => 0
  | some (b, n) =>
    let src := if off % 4096 < 0x40 then none else match unitHub u with
      | some h => hubSrcReset s h off b
      | none => match unitPlane u with
        | some p => planeSrcReset s p u off b n
        | none => none
    src.getD (constReset (fieldsAt b off))

/-! ### The register store -/

/-- The value of a register as the block holds it. -/
def State.reg (s : State) (u off : Nat) : Word :=
  let k := regKey u off
  ((mget s.regs k.1).bind (mget · k.2)).getD (resetVal s k.1 k.2)

/-- Store a register. -/
def State.setReg (s : State) (u off : Nat) (w : Word) : State :=
  let k := regKey u off
  { s with regs := mput s.regs k.1 (mput (mgetD s.regs k.1 []) k.2 w) }

/-- The value of a field. -/
def State.get (s : State) (u : Nat) (f : RField) : Nat := fieldGet (s.reg u f.key) f

/-- Store a field. -/
def State.put (s : State) (u : Nat) (f : RField) (v : Nat) : State := s.setReg u f.key (fieldSet (s.reg u f.key) f v)

/-- Add to a field that wraps. -/
def State.inc (s : State) (u : Nat) (f : RField) (n : Nat := 1) : State := s.put u f ((s.get u f + n) % 2 ^ f.width)

/-- Add to a field that holds at its largest value. -/
def State.incSat (s : State) (u : Nat) (f : RField) (n : Nat := 1) : State :=
  s.put u f (min (s.get u f + n) (2 ^ f.width - 1))

/-- Whether a one-bit field is 1. -/
def State.on (s : State) (u : Nat) (f : RField) : Bool := s.get u f = 1

/-- Two 32-bit fields as one 64-bit value. -/
def State.get64 (s : State) (u : Nat) (lo hi : RField) : Nat := s.get u lo + 2 ^ 32 * s.get u hi

/-- Store a 64-bit value in a low and a high field. -/
def State.put64 (s : State) (u : Nat) (lo hi : RField) (v : Nat) : State := (s.put u lo (v % 2 ^ 32)).put u hi (v / 2 ^ 32)

/-- Every register of a block back to its reset value (R55), but for the named offsets it keeps. -/
def State.eraseRegs (s : State) (u : Nat) (keep : List Nat) : State :=
  { s with regs := mput s.regs u ((mgetD s.regs u []).filter (fun e => e.1 ∈ keep)) }

/-! ### Planes, hubs, outputs, free values -/

/-- The plane's own state. -/
def State.pl (s : State) (p : PlaneId) : Plane := s.planes.get p
/-- Change a plane's own state. -/
def State.modPl (s : State) (p : PlaneId) (f : Plane → Plane) : State := { s with planes := s.planes.set p (f (s.planes.get p)) }
/-- The hub's own state. -/
def State.hub (s : State) (h : HubId) : Hub := s.hubs.get h
/-- Change a hub's own state. -/
def State.modHub (s : State) (h : HubId) (f : Hub → Hub) : State := { s with hubs := s.hubs.set h (f (s.hubs.get h)) }
/-- Change the power controller. -/
def State.modPwr (s : State) (f : PowerCtl → PowerCtl) : State := { s with pwr := f s.pwr }
/-- Send something out of the module. (DESIGN CHOICE, log 10) -/
def State.emit (s : State) (o : Output) : State := { s with out := s.out ++ [o] }
/-- Raise interrupt conditions of a unit for the current beat. -/
def State.pulseBit (s : State) (u n : Nat) : State :=
  { s with pulse := mput s.pulse u ((mgetD s.pulse u 0) ||| (1#32 <<< n)) }

/-- A free value of `w` bits: the next number of the counter, and the counter advanced (assumption log 7). (DEDUCED, log 90) -/
def State.takeFree (s : State) : Dword × State := (Config.freeDword s.fresh, { s with fresh := s.fresh + 1 })

/-- Fabric time of a plane. -/
def State.ft (s : State) (p : PlaneId) : Nat := (s.pl p).ftm.ft
/-- The beats that a plane has counted; no load of FT moves this count. (DEDUCED, log 108) -/
def State.beats (s : State) (p : PlaneId) : Nat := (s.pl p).ftm.beats


/-- Record events of this beat for the PMU (Table 16.1). -/
def State.event (s : State) (p : PlaneId) (code inst n : Nat) : State :=
  if n = 0 then s else s.modPl p (fun x => { x with events := (x.ftm.ft, code, inst, n) :: x.events })
/-- Record events of a later beat for the PMU. -/
def State.eventAt (s : State) (p : PlaneId) (beat code inst n : Nat) : State :=
  if n = 0 then s else s.modPl p (fun x => { x with events := (beat, code, inst, n) :: x.events })
/-- Record events of a core in an ACLK cycle. -/
def State.coreEvent (s : State) (p : PlaneId) (core code cyc n : Nat) : State :=
  if n = 0 then s else s.modPl p (fun x => { x with coreEvents := (core, code, cyc, n) :: x.coreEvents })
/-- Record a histogram sample (Table 16.2). -/
def State.sample (s : State) (p : PlaneId) (point sel v : Nat) : State :=
  s.modPl p (fun x => { x with samples := (point, sel, v) :: x.samples })

/-- Whether a domain is powered and stable (PWR_DOM_STAT). -/
def State.domOn (s : State) (d : Nat) : Bool := bit (s.get (hu .a .PWR) Fld.PWR_DOM_STAT_ON) d

/-- Whether a unit has power. -/
def State.powered (s : State) (u : Nat) : Bool := s.domOn (unitDomain u)

/-- Whether a unit's hasp is closed. -/
def State.fenced (s : State) (u : Nat) : Bool := s.on u Fld.BLK_FENCE_FENCED

/-- Whether a hub's hasp is closed. -/
def State.hubFenced (s : State) (h : HubId) : Bool := s.fenced (hu h .HUB)

/-- Whether the hub link from a hub to a plane is closed (R33). -/
def linkShut (s : State) (h : HubId) (p : PlaneId) : Bool := s.on (hu h .HUB) (Fld.HUB_LINK_STAT_CLOSED.at p.val) || (s.hub h).closed.contains p.val

/-- Whether a plane's hasp is closed. -/
def State.planeFenced (s : State) (p : PlaneId) : Bool := s.fenced (pu p .PLN)

/-- PLN_STATE.STATE of a plane: without its CORE domain FENCED while its hasp is closed, else OFF. -/
def State.plnState (s : State) (p : PlaneId) : Nat :=
  if s.domOn (4 + 7 * p.val) then s.get (pu p .PLN) Fld.PLN_STATE else if s.planeFenced p then 6 else 0

/-- Whether the module runs in test mode (R431). -/
def State.testMode (s : State) : Bool := s.cfg.opmode = 2

/-- Whether bring-up functions are open (R431, R441): BRINGUP, TEST, or DBG_LEVEL bit 1 in normal service. -/
def State.bringup (s : State) : Bool :=
  s.cfg.opmode = 1 || s.cfg.opmode = 2 || bit (s.get (hu .a .KPL) Fld.KPL_STAT_DBG_LEVEL) 1 ||
    bit (s.get (hu .b .KPL) Fld.KPL_STAT_DBG_LEVEL) 1

/-- The next state, as an outcome. -/
abbrev Out := Host.Outcome State Fault Refusal

end Sys2Proof.Machine
end

