-- ==== Sys2Proof/Machine/Arith.lean ====
section
/-! DEFINITION. Sys2Proof/Machine/Arith.lean: the element formats, the long accumulator, the single rounding, stochastic
rounding and FP32 arithmetic (R135 to R151, R193). -/

namespace Sys2Proof.Machine

/-! ### Formats (Tables 5.1 and 5.2) -/

/-- Width of an element in bits. -/
def fmtWidth (f : Nat) : Nat :=
  match f with
  | 0 => 32 | 1 => 16 | 2 => 16 | 3 => 8 | 4 => 8 | 5 => 6 | 6 => 6 | 7 => 4 | 8 => 32 | 9 => 16 | 10 => 8 | _ => 4

/-- Elements in a cell. -/
def fmtPerCell (f : Nat) : Nat :=
  match fmtWidth f with
  | 32 => 64 | 16 => 128 | 4 => 512 | _ => 256

/-- An integer format. -/
def fmtInt (f : Nat) : Bool := 8 ≤ f && f ≤ 11

/-- A code of Table 5.1. -/
def fmtLegal (f : Nat) : Bool := f ≤ 11

/-- Significand bits `m`, and bias, of a floating format. -/
def fmtSig (f : Nat) : Nat × Nat :=
  match f with
  | 0 => (23, 127) | 1 => (7, 127) | 2 => (10, 15) | 3 => (3, 7) | 4 => (2, 15) | 5 => (2, 3) | 6 => (3, 1) | _ => (1, 1)

/-- The largest finite code. -/
def fmtLargest (f : Nat) : Nat :=
  match f with
  | 0 => 0x7F7FFFFF | 1 => 0x7F7F | 2 => 0x7BFF | 3 => 0x7E | 4 => 0x7B | 5 => 0x1F | 6 => 0x1F | _ => 0x7

/-- The code of +∞, where the format has one. -/
def fmtInf (f : Nat) : Option Nat :=
  match f with
  | 0 => some 0x7F800000 | 1 => some 0x7F80 | 2 => some 0x7C00 | 4 => some 0x7C | _ => none

/-- The NaN that the tumbler produces, where the format has one. -/
def fmtNan (f : Nat) : Option Nat :=
  match f with
  | 0 => some 0x7FC00000 | 1 => some 0x7FC0 | 2 => some 0x7E00 | 3 => some 0x7F | 4 => some 0x7E | _ => none

/-- An exact value: a NaN, an infinity with its sign, or (−1)^neg × mant × 2^exp. -/
inductive Num where
  | nan
  | inf (neg : Bool)
  | fin (neg : Bool) (mant : Nat) (exp : Int)
  deriving DecidableEq, Repr

/-- The exact value of a code (R136). -/
def decodeElem (f code : Nat) : Num :=
  if fmtInt f then
    let v := toSigned (fmtWidth f) code
    .fin (decide (v < 0)) v.natAbs 0
  else
    let w := fmtWidth f
    let (m, bias) := fmtSig f
    let neg := bit code (w - 1)
    let mag := code % 2 ^ (w - 1)
    let e := mag / 2 ^ m
    let s := mag % 2 ^ m
    if mag ≤ fmtLargest f then
      if e = 0 then .fin neg s (1 - (bias : Int) - m) else .fin neg (2 ^ m + s) ((e : Int) - bias - m)
    else if some mag = fmtInf f then .inf neg else .nan

/-- `a × 2^x ≤ b × 2^y` over exact values. -/
def dyLe (a : Nat) (x : Int) (b : Nat) (y : Int) : Bool :=
  if x ≤ y then decide (a ≤ b * 2 ^ (y - x).toNat) else decide (a * 2 ^ (x - y).toNat ≤ b)

/-! ### Stochastic rounding (R148) -/

/-- The mixing step. -/
def mix64 (z : Dword) : Dword :=
  let z := (z ^^^ (z >>> 30)) * 0xBF58476D1CE4E5B9
  let z := (z ^^^ (z >>> 27)) * 0x94D049BB133111EB
  z ^^^ (z >>> 31)

/-- The 32-bit draw of a seed and an element index. -/
def srDraw (seed : Nat) (idx : Nat) : Nat :=
  let z := mix64 (BitVec.ofNat 64 idx + 0x9E3779B97F4A7C15)
  let z := mix64 (z ^^^ BitVec.ofNat 64 seed)
  (z >>> 32).toNat

/-! ### The single rounding (R144 to R147) -/

/-- How a context rounds: OUT_FMT, RND, OVF and SEED of Table 5.3. -/
structure RndCtx where
  fmt : Nat
  stoch : Bool := false
  inf : Bool := false
  seed : Nat := 0
  deriving DecidableEq, Repr

/-- Status bits of Table 5.6. -/
def stInexact : Nat := 1
def stOverflow : Nat := 2
def stNanOut : Nat := 4
def stNanLost : Nat := 8
def stInfOut : Nat := 16
def stInfClamp : Nat := 32
def stZeroTiny : Nat := 64

/-- A floating code with its sign. -/
def signed (f : Nat) (neg : Bool) (code : Nat) : Nat := code + (if neg then 2 ^ (fmtWidth f - 1) else 0)

/-- The largest integer of an integer format for a sign, as a magnitude. -/
def intLim (f : Nat) (neg : Bool) : Nat := if neg then 2 ^ (fmtWidth f - 1) else 2 ^ (fmtWidth f - 1) - 1

/-- The code of an integer given by sign and magnitude, modulo 2^n. -/
def intCode (f : Nat) (neg : Bool) (m : Nat) : Nat := ofSigned (fmtWidth f) (if neg then -(m : Int) else m)

/-- The code of `k × 2^qe` in a floating format, where `qe` is the quantum's exponent (R144). -/
def encodeFloat (f : Nat) (neg : Bool) (k : Nat) (qe : Int) : Nat :=
  let (m, bias) := fmtSig f
  let (k, qe) := if k = 2 ^ (m + 1) then (2 ^ m, qe + 1) else (k, qe)
  if k < 2 ^ m then signed f neg k
  else signed f neg (k - 2 ^ m + 2 ^ m * (qe + m + bias).toNat)

/-- The result of an overflow (Table 5.4), with the status bits beyond INEXACT. -/
def overflowOut (c : RndCtx) (neg : Bool) (wrapped : Nat) : Nat × Nat :=
  if fmtInt c.fmt then
    if c.inf then (intCode c.fmt neg wrapped, stOverflow) else (intCode c.fmt neg (intLim c.fmt neg), stOverflow)
  else if c.inf then
    match fmtInf c.fmt with
    | some i => (signed c.fmt neg i, stOverflow + stInfOut)
    | none => match fmtNan c.fmt with
      | some q => (q, stOverflow + stNanOut)
      | none => (signed c.fmt neg (fmtLargest c.fmt), stOverflow)
  else (signed c.fmt neg (fmtLargest c.fmt), stOverflow)

/-- Round a finite nonzero magnitude `mant × 2^exp` once (R144, R145, R149). `draw` is the random value of the element. -/
def roundFin (c : RndCtx) (draw : Nat) (neg : Bool) (mant : Nat) (exp : Int) : Nat × Nat :=
  let isI := fmtInt c.fmt
  let (m, bias) := fmtSig c.fmt
  let emin : Int := 1 - (bias : Int)
  let qe : Int := if isI then 0 else max ((Nat.log2 mant : Int) + exp) emin - m
  let d := (qe - exp).toNat
  let lo := if exp ≤ qe then mant / 2 ^ d else mant * 2 ^ (exp - qe).toNat
  let rem := if exp ≤ qe then mant % 2 ^ d else 0
  let up := decide (2 ^ d < 2 * rem) || (decide (0 < rem ∧ 2 ^ d = 2 * rem) && lo % 2 = 1)
  let rne := lo + b2n up
  let inex := if rem ≠ 0 then stInexact else 0
  let sto := lo + b2n (decide (draw < rem * 2 ^ 32 / 2 ^ d))
  let (lm, le) : Nat × Int := if isI then (intLim c.fmt neg, 0) else
    match decodeElem c.fmt (fmtLargest c.fmt) with
    | .fin _ a b => (a, b)
    | _ => (0, 0)
  if !dyLe rne qe lm le then
    let (code, st) := overflowOut c neg (if c.stoch then sto else rne)
    -- A wrapped integer that is written as 0 is a zero (Table 5.6).
    (code, st + inex + (if isI ∧ code = 0 then stZeroTiny else 0))
  else
    let k := if dyLe lm le rne qe then rne else if c.stoch then sto else rne
    let tiny := if k = 0 then stZeroTiny else 0
    (if isI then intCode c.fmt neg k else encodeFloat c.fmt neg k qe, inex + tiny)

/-- The code of a value in the output format, and its status bits (R144 to R147). -/
def roundOut (c : RndCtx) (draw : Nat) (v : Num) : Nat × Nat :=
  match v with
  | .nan => match fmtNan c.fmt with
    | some q => (q, stNanOut)
    | none => (0, stNanLost)
  | .inf neg =>
    if fmtInt c.fmt then (intCode c.fmt neg (intLim c.fmt neg), stInfClamp)
    else match fmtInf c.fmt with
      | some i => (signed c.fmt neg i, stInfOut)
      | none => if c.inf ∧ c.fmt = 3 then (0x7F, stNanOut) else (signed c.fmt neg (fmtLargest c.fmt), stInfClamp)
  | .fin neg 0 _ => (if fmtInt c.fmt then 0 else signed c.fmt neg 0, 0)
  | .fin neg mant exp => roundFin c draw neg mant exp

/-- Multiply by the combined scale K (R143). -/
def scaleNum (k x : Num) : Num :=
  match k, x with
  | .fin kn km ke, .fin n m e => .fin (n != kn) (m * km) (e + ke)
  | .fin kn _ _, .inf n => .inf (n != kn)
  | _, _ => .nan

/-! ### The long accumulator (R141, R142, R151) -/

/-- The largest number of addends of an element (R141). (DEDUCED, log 84) -/
def accMax : Nat := 16777216

/-- Add one addend under OP (0 SUM, 1 MAX, 2 MIN). -/
def accAdd (op : Nat) (x : LongAcc) (e : Num) : LongAcc :=
  let x := { x with n := x.n + 1 }
  match e with
  | .nan => { x with nan := true, allneg0 := false }
  | .inf true => { x with ninf := true, allneg0 := false }
  | .inf false => { x with pinf := true, allneg0 := false }
  | .fin neg mant exp =>
    let zero := mant = 0
    let x := { x with
      neg0 := x.neg0 || (zero && neg), pos0 := x.pos0 || (zero && !neg)
      allneg0 := x.allneg0 && zero && neg }
    let m := mant * 2 ^ (exp + 149).toNat
    let v : Int := if neg then -(m : Int) else m
    let a := if op = 0 then x.a + v else if !x.fin then v else if op = 1 then max x.a v else min x.a v
    { x with fin := true, a := a }

/-- The exact result X at close (R142). -/
def accResult (op : Nat) (x : LongAcc) : Num :=
  let ofA (negZero : Bool) : Num :=
    if x.a = 0 then .fin negZero 0 0 else .fin (decide (x.a < 0)) x.a.natAbs (-149)
  if op = 0 then
    if x.nan || (x.pinf && x.ninf) then .nan
    else if x.pinf then .inf false
    else if x.ninf then .inf true
    else ofA (decide (0 < x.n) && x.allneg0)
  else if x.nan then .nan
  else if x.n = 0 then .fin false 0 0
  else if op = 1 then
    if x.pinf then .inf false
    else if !x.fin then .inf true
    else ofA (x.neg0 && !x.pos0)
  else
    if x.ninf then .inf true
    else if !x.fin then .inf false
    else ofA x.neg0

/-! ### FP32 (R151, R193) -/

/-- A code of FP32. -/
def f32 (w : Nat) : Num := decodeElem 0 w

/-- Round to FP32, ties to even, overflow to infinity. -/
def toF32 (v : Num) : Nat := (roundOut { fmt := 0, inf := true } 0 v).1

/-- The exact sum of two values; +0 for an exact zero sum of opposite-signed operands. -/
def addNum (x y : Num) : Num :=
  match x, y with
  | .nan, _ => .nan
  | _, .nan => .nan
  | .inf a, .inf b => if a = b then .inf a else .nan
  | .inf a, _ => .inf a
  | _, .inf b => .inf b
  | .fin a m e, .fin b n f =>
    let g := min e f
    let p : Int := ((m * 2 ^ (e - g).toNat : Nat) : Int)
    let q : Int := ((n * 2 ^ (f - g).toNat : Nat) : Int)
    let s := (if a then -p else p) + (if b then -q else q)
    if s = 0 then .fin (a && b) 0 0 else .fin (decide (s < 0)) s.natAbs g

/-- The exact product of two values. -/
def mulNum (x y : Num) : Num :=
  match x, y with
  | .nan, _ => .nan
  | _, .nan => .nan
  | .inf a, .inf b => .inf (a != b)
  | .inf a, .fin b n _ => if n = 0 then .nan else .inf (a != b)
  | .fin a m _, .inf b => if m = 0 then .nan else .inf (a != b)
  | .fin a m e, .fin b n f => .fin (a != b) (m * n) (e + f)

/-- IEEE binary32 addition. -/
def f32Add (a b : Nat) : Nat := toF32 (addNum (f32 a) (f32 b))
/-- IEEE binary32 subtraction. -/
def f32Sub (a b : Nat) : Nat := toF32 (addNum (f32 a) (f32 (if bit b 31 then b - 2 ^ 31 else b + 2 ^ 31)))
/-- IEEE binary32 multiplication. -/
def f32Mul (a b : Nat) : Nat := toF32 (mulNum (f32 a) (f32 b))
/-- IEEE binary32 fused multiply-add, a × b + c. -/
def f32Fma (a b c : Nat) : Nat := toF32 (addNum (mulNum (f32 a) (f32 b)) (f32 c))

/-- The place of a non-NaN code in the order of binary32 with −0 below +0. -/
def f32Key (w : Nat) : Int := if bit w 31 then -((w % 2 ^ 31 : Nat) : Int) - 1 else (w % 2 ^ 31 : Nat)

/-- Accumulate one addend under WIDE32 (R151); MAX and MIN keep the exact state as well. -/
def wideAdd (op : Nat) (x : LongAcc) (e : Num) : LongAcc :=
  let w := if x.n = 0 then toF32 e else toF32 (addNum (f32 x.w) e)
  let y := accAdd op x e
  if op = 0 then { y with w := w } else { y with w := toF32 (accResult op y) }

/-! ### Elements in a payload (R137) -/

/-- The code of element `i` of a payload. -/
def elemOf (f : Nat) (d : Payload) (i : Nat) : Nat :=
  let w := fmtWidth f
  if w = 6 then (d.extractLsb' (24 * (i / 4) + 6 * (i % 4)) 6).toNat else (d.extractLsb' (w * i) w).toNat

/-- The codes of all elements of a payload. -/
def elemsOf (f : Nat) (d : Payload) : List Nat := (List.range (fmtPerCell f)).map (elemOf f d)

/-- Codes packed from bit 0 on, `w` bits each. -/
def packCodes (w : Nat) (l : List Nat) : Nat := l.foldr (fun c a => c % 2 ^ w + 2 ^ w * a) 0

/-- The payload of result codes; the spare bytes of a 6-bit cell are zero. -/
def elemsTo (f : Nat) (l : List Nat) : Payload := BitVec.ofNat 2048 (packCodes (fmtWidth f) (l.take (fmtPerCell f)))

end Sys2Proof.Machine
end

