-- ==== Sys2Proof/Machine/CoreDecode.lean ====
section
/-! DEFINITION. Sys2Proof/Machine/CoreDecode.lean: the instructions of a collective core (R185, R195, R197, Table 7.5): which row of the
table of operations an instruction word belongs to, its operands, integer arithmetic, and the vector unit's lanes (R193). -/

namespace Sys2Proof.Machine

/-! ### Fields of an instruction word -/

def insOp (w : Word) : Nat := bits w.toNat 6 0
def insRd (w : Word) : Nat := bits w.toNat 11 7
def insF3 (w : Word) : Nat := bits w.toNat 14 12
def insRs1 (w : Word) : Nat := bits w.toNat 19 15
def insRs2 (w : Word) : Nat := bits w.toNat 24 20
def insRs3 (w : Word) : Nat := bits w.toNat 31 27
def insF7 (w : Word) : Nat := bits w.toNat 31 25
/-- The 12-bit field of an I-type word, which also names a CSR. -/
def insCsr (w : Word) : Nat := bits w.toNat 31 20

/-- The immediates of the standard layouts, sign-extended. -/
def immI (w : Word) : Dword := (w.extractLsb' 20 12).signExtend 64
def immS (w : Word) : Dword := (w.extractLsb' 25 7 ++ w.extractLsb' 7 5).signExtend 64
def immB (w : Word) : Dword := (w.extractLsb' 31 1 ++ w.extractLsb' 7 1 ++ w.extractLsb' 25 6 ++ w.extractLsb' 8 4 ++ 0#1).signExtend 64
def immU (w : Word) : Dword := (w.extractLsb' 12 20 ++ 0#12).signExtend 64
def immJ (w : Word) : Dword := (w.extractLsb' 31 1 ++ w.extractLsb' 12 8 ++ w.extractLsb' 20 1 ++ w.extractLsb' 21 10 ++ 0#1).signExtend 64

/-! ### Rows -/

/-- The instruction rows of the table of operations. Every encoding that Table 7.5 and RV64IM with Zicsr do not list belongs to
`scalar`, where it raises the illegal-instruction exception. -/
inductive CoreRow where
  | scalar | csr | vld | vst | spld | spst | vaddF | vsubF | vmulF | vfmaF | vmaxF | vminF | vaddI32 | vaddI16 | vaddI8 | vand | vor | vxor
  | vsplat | vext | vcvtTo | vcvtFrom | xfer | xwait | cbind | cunbind | cfeed | cclose | csend | cstore | crelease | cstat
  | sadd | sset | srd | swait | qpop | qdone | qwait | msend | mrecv | kcmd | larr | kdig | ftwait
  deriving DecidableEq, Repr

/-- custom-0 by funct3 and funct7. -/
def rowC0 (f3 f7 : Nat) : CoreRow :=
  match f3, f7 with
  | 0, _ => .vld
  | 1, _ => .vst
  | 2, 0x00 => .spld
  | 3, 0x00 => .spst
  | 4, 0x00 => .vaddF
  | 4, 0x01 => .vsubF
  | 4, 0x02 => .vmulF
  | 4, 0x03 => .vfmaF
  | 4, 0x04 => .vmaxF
  | 4, 0x05 => .vminF
  | 5, 0x00 => .vaddI32
  | 5, 0x01 => .vaddI16
  | 5, 0x02 => .vaddI8
  | 5, 0x08 => .vand
  | 5, 0x09 => .vor
  | 5, 0x0A => .vxor
  | 6, 0x00 => .vsplat
  | 6, 0x01 => .vext
  | 7, f => if f < 0x0C then .vcvtTo else if 0x40 ≤ f ∧ f < 0x4C then .vcvtFrom else .scalar
  | _, _ => .scalar

/-- custom-1 by funct3 and funct7. -/
def rowC1 (f3 f7 : Nat) : CoreRow :=
  match f3, f7 with
  | 0, 0 => .xfer
  | 1, 0 => .xwait
  | 2, 0 => .cbind
  | 2, 1 => .cunbind
  | 3, 0 => .cfeed
  | 4, 0 => .cclose
  | 5, 0 => .csend
  | 5, 1 => .cstore
  | 6, 0 => .crelease
  | 7, 0 => .cstat
  | _, _ => .scalar

/-- custom-2 by funct3 and funct7; SWAIT, of the R4 layout, by funct2. -/
def rowC2 (f3 f7 : Nat) : CoreRow :=
  match f3, f7 with
  | 0, 0 => .sadd
  | 0, 1 => .sset
  | 0, 2 => .srd
  | 1, f => if f % 4 = 0 then .swait else .scalar
  | 2, 0 => .qpop
  | 2, 1 => .qdone
  | 3, 0 => .qwait
  | 4, 0 => .msend
  | 5, 0 => .mrecv
  | 6, 0 => .kcmd
  | 6, 1 => .larr
  | 6, 2 => .kdig
  | 7, 0 => .ftwait
  | _, _ => .scalar

/-- The row that an instruction word belongs to. (DESIGN CHOICE, log 65) -/
def rowOf (w : Word) : CoreRow :=
  match insOp w with
  | 0x0B => rowC0 (insF3 w) (insF7 w)
  | 0x2B => rowC1 (insF3 w) (insF7 w)
  | 0x5B => rowC2 (insF3 w) (insF7 w)
  | 0x73 => if insF3 w % 4 = 0 then .scalar else .csr
  | _ => .scalar

/-- An instruction of the extension (Table 16.1 CC_EXT_RET). -/
def extRow (r : CoreRow) : Bool := r ≠ .scalar && r ≠ .csr

/-- The integer registers that an instruction reads. -/
def srcsX (w : Word) : List Nat :=
  match rowOf w with
  | .scalar =>
    match insOp w with
    | 0x67 => [insRs1 w]
    | 0x03 => [insRs1 w]
    | 0x13 => [insRs1 w]
    | 0x1B => [insRs1 w]
    | 0x63 => [insRs1 w, insRs2 w]
    | 0x23 => [insRs1 w, insRs2 w]
    | 0x33 => [insRs1 w, insRs2 w]
    | 0x3B => [insRs1 w, insRs2 w]
    | _ => []
  | .csr => if insF3 w < 4 then [insRs1 w] else []
  | .swait => [insRs1 w, insRs2 w, insRs3 w]
  | .cfeed => [insRs1 w, insRs2 w]
  | .csend => [insRs1 w, insRs2 w]
  | .cstore => [insRs1 w, insRs2 w]
  | .sadd => [insRs1 w, insRs2 w]
  | .sset => [insRs1 w, insRs2 w]
  | .qpop => [insRs1 w, insRs2 w]
  | .qdone => [insRs1 w, insRs2 w]
  | .msend => [insRs1 w, insRs2 w]
  | .mrecv => [insRs1 w, insRs2 w]
  | .kcmd => [insRs1 w, insRs2 w]
  | .vext => [insRs2 w]
  | .vaddF => [] | .vsubF => [] | .vmulF => [] | .vfmaF => [] | .vmaxF => [] | .vminF => []
  | .vaddI32 => [] | .vaddI16 => [] | .vaddI8 => [] | .vand => [] | .vor => [] | .vxor => []
  | .vcvtTo => [] | .vcvtFrom => []
  | _ => [insRs1 w]

/-- The vector registers that an instruction reads. -/
def srcsW (w : Word) : List Nat :=
  match rowOf w with
  | .vst => [insRs2 w]
  | .spst => [insRs2 w]
  | .vaddF => [insRs1 w, insRs2 w]
  | .vsubF => [insRs1 w, insRs2 w]
  | .vmulF => [insRs1 w, insRs2 w]
  | .vfmaF => [insRs1 w, insRs2 w, insRd w]
  | .vmaxF => [insRs1 w, insRs2 w]
  | .vminF => [insRs1 w, insRs2 w]
  | .vaddI32 => [insRs1 w, insRs2 w]
  | .vaddI16 => [insRs1 w, insRs2 w]
  | .vaddI8 => [insRs1 w, insRs2 w]
  | .vand => [insRs1 w, insRs2 w]
  | .vor => [insRs1 w, insRs2 w]
  | .vxor => [insRs1 w, insRs2 w]
  | .vext => [insRs1 w]
  | .vcvtTo => [insRs1 w]
  | .vcvtFrom => [insRs1 w]
  | _ => []

/-! ### Integer arithmetic (RV64IM) -/

/-- A 32-bit result, sign-extended. -/
def sext32 (v : Word) : Dword := v.signExtend 64

/-- The operation of funct3 of OP and OP-IMM; `alt` is SUB or an arithmetic shift. -/
def aluOp (f3 : Nat) (alt : Bool) (a b : Dword) : Dword :=
  match f3 with
  | 0 => if alt then a - b else a + b
  | 1 => a <<< (b.toNat % 64)
  | 2 => if a.slt b then 1 else 0
  | 3 => if a.ult b then 1 else 0
  | 4 => a ^^^ b
  | 5 => if alt then a.sshiftRight (b.toNat % 64) else a >>> (b.toNat % 64)
  | 6 => a ||| b
  | _ => a &&& b

/-- The operation of funct3 of OP-32 and OP-IMM-32. -/
def aluOpW (f3 : Nat) (alt : Bool) (a b : Dword) : Dword :=
  let x : Word := a.setWidth 32
  let y : Word := b.setWidth 32
  sext32 (match f3 with
    | 0 => if alt then x - y else x + y
    | 1 => x <<< (y.toNat % 32)
    | _ => if alt then x.sshiftRight (y.toNat % 32) else x >>> (y.toNat % 32))

/-- Division and remainder of RV64M: by zero the quotient is all ones and the remainder the dividend. -/
def divS {w : Nat} (a b : BitVec w) : BitVec w := if b = 0 then BitVec.allOnes w else a.sdiv b
def divU {w : Nat} (a b : BitVec w) : BitVec w := if b = 0 then BitVec.allOnes w else a / b
def remS {w : Nat} (a b : BitVec w) : BitVec w := if b = 0 then a else a.srem b
def remU {w : Nat} (a b : BitVec w) : BitVec w := if b = 0 then a else a % b

/-- The high half of a product of two 128-bit extensions. -/
def mulHigh (a b : BitVec 128) : Dword := (a * b).extractLsb' 64 64

/-- The operation of funct3 of MULDIV. -/
def mulOp (f3 : Nat) (a b : Dword) : Dword :=
  match f3 with
  | 0 => a * b
  | 1 => mulHigh (a.signExtend 128) (b.signExtend 128)
  | 2 => mulHigh (a.signExtend 128) (b.zeroExtend 128)
  | 3 => mulHigh (a.zeroExtend 128) (b.zeroExtend 128)
  | 4 => divS a b
  | 5 => divU a b
  | 6 => remS a b
  | _ => remU a b

/-- The operation of funct3 of MULDIV-32. -/
def mulOpW (f3 : Nat) (a b : Dword) : Dword :=
  let x : Word := a.setWidth 32
  let y : Word := b.setWidth 32
  sext32 (match f3 with
    | 0 => x * y
    | 4 => divS x y
    | 5 => divU x y
    | 6 => remS x y
    | _ => remU x y)

/-- A branch is taken. -/
def brTaken (f3 : Nat) (a b : Dword) : Bool :=
  match f3 with
  | 0 => a = b
  | 1 => a ≠ b
  | 4 => a.slt b
  | 5 => !a.slt b
  | 6 => a.ult b
  | _ => !a.ult b

/-! ### Lanes (R193) -/

/-- Lane `i` of `k` bits of a vector. -/
def lane (k : Nat) (v : Vec) (i : Nat) : Nat := (v.extractLsb' (k * i) k).toNat

/-- The lanes of `k` bits of a vector. -/
def lanes (k : Nat) (v : Vec) : List Nat := (List.range (1024 / k)).map (lane k v)

/-- A vector from its lanes of `k` bits. -/
def ofLanes (k : Nat) (l : List Nat) : Vec := BitVec.ofNat 1024 (packCodes k l)

/-- An operation on each pair of lanes. -/
def lanes2 (k : Nat) (f : Nat → Nat → Nat) (a b : Vec) : Vec := ofLanes k (List.zipWith f (lanes k a) (lanes k b))

/-- Lane-wise addition, modulo the lane. -/
def vaddLanes (k : Nat) (a b : Vec) : Vec := lanes2 k (· + ·) a b

/-- Maximum and minimum of two FP32 codes with −0 below +0; a NaN operand gives the NaN. -/
def f32Max (a b : Nat) : Nat := if f32 a = .nan ∨ f32 b = .nan then 0x7FC00000 else if f32Key a < f32Key b then b else a
def f32Min (a b : Nat) : Nat := if f32 a = .nan ∨ f32 b = .nan then 0x7FC00000 else if f32Key b < f32Key a then b else a

/-- ws1 × ws2 + wd in each lane, rounded once. -/
def vfma (a b d : Vec) : Vec := ofLanes 32 (List.zipWith (fun f c => f c) (List.zipWith (fun x y c => f32Fma x y c) (lanes 32 a) (lanes 32 b)) (lanes 32 d))

/-- VCVT.TO (R194): each lane as a one-addend SUM with K = 1; the codes as elements 0 to 31 and the OR of the status bits. -/
def vcvtTo (f : Nat) (inf : Bool) (a : Vec) : Vec × Nat :=
  let r := (lanes 32 a).map (fun x => roundOut { fmt := f, inf := inf } 0 (accResult 0 (accAdd 0 {} (f32 x))))
  (ofLanes (fmtWidth f) (r.map (·.1)), (r.map (·.2)).foldl (· ||| ·) 0)

/-- VCVT.FROM (R194): elements 0 to 31 as FP32 lanes. -/
def vcvtFrom (f : Nat) (a : Vec) : Vec := ofLanes 32 ((List.range 32).map (fun i => toF32 (decodeElem f (elemOf f (a.setWidth 2048) i))))

end Sys2Proof.Machine
end

