-- ==== Sys2Proof/Machine/Crc.lean ====
section
/-! DEFINITION. Sys2Proof/Machine/Crc.lean: the three checks the module uses: CRC-16 of lines and link control words
(R101, R281), CRC-32 of cell positions (R281), CRC-32C of results, seals and save images (R169, R222). -/

namespace Sys2Proof.Machine

/-- `n` steps of CRC-16 with polynomial 0x1021, most significant bit first. -/
def crc16Bits : Nat → Nat → Nat
  | 0, c => c
  | n + 1, c => crc16Bits n (if c / 2 ^ 15 % 2 = 1 then (2 * c % 2 ^ 16) ^^^ 0x1021 else 2 * c % 2 ^ 16)

/-- CRC-16: polynomial 0x1021, initial value 0xFFFF, no reflection. -/
def crc16 (l : List Byte) : Nat := l.foldl (fun c b => crc16Bits 8 (c ^^^ (256 * b.toNat))) 0xFFFF

/-- `n` steps of a reflected 32-bit CRC. -/
def crc32Bits (poly : Nat) : Nat → Nat → Nat
  | 0, c => c
  | n + 1, c => crc32Bits poly n (if c % 2 = 1 then (c / 2) ^^^ poly else c / 2)

/-- A reflected 32-bit CRC with initial value and final XOR 0xFFFF_FFFF. -/
def crcReflected (poly : Nat) (l : List Byte) : Nat :=
  (l.foldl (fun c b => crc32Bits poly 8 (c ^^^ b.toNat)) 0xFFFFFFFF) ^^^ 0xFFFFFFFF

/-- CRC-32 of IEEE 802.3 (polynomial 0x04C1_1DB7). -/
def crc32 (l : List Byte) : Nat := crcReflected 0xEDB88320 l

/-- CRC-32C of RFC 3720 (polynomial 0x1EDC_6F41). -/
def crc32c (l : List Byte) : Nat := crcReflected 0x82F63B78 l

end Sys2Proof.Machine
end

