-- ==== Sys2Proof/Machine/FaultLog.lean ====
section
/-! DEFINITION. Sys2Proof/Machine/FaultLog.lean: the fault sources of Table 14.2 and the log of a unit (R47, R393, R399). -/

namespace Sys2Proof.Machine

/-- Class codes of BLK_ERR_CLASS.CLASS (Table 14.1). -/
def classCode : FaultClass → Nat
  | .none => 0 | .c => 1 | .u => 2 | .f => 3

/-- The class a CLASS field names. -/
def classOf (n : Nat) : FaultClass :=
  match n with
  | 0 => .none | 1 => .c | 2 => .u | _ => .f

/-- The SOURCE codes a block is assigned (Table 14.2), each with whether it takes part in escalation. -/
def sourcesOf : Blk → List (Nat × Bool)
  | .FTM => [(1, false), (2, false), (3, false)]
  | .KSQ => [(1, true), (2, false), (3, false), (4, false)]
  | .XPT => [(1, false), (2, true)]
  | .TMB => [(1, false), (2, true), (3, false), (4, true), (5, false), (6, false), (7, false)]
  | .SPM => [(1, false), (2, true), (3, true)]
  | .NMC => [(1, false), (2, true), (3, false), (4, false), (5, true)]
  | .FMC => [(1, false), (2, true), (3, false), (4, false), (5, true)]
  | .FPT => [(1, false), (2, false), (3, false)]
  | .SDS => [(1, true)]
  | .RTE => [(1, false), (2, false), (3, false), (4, false), (5, false), (6, false), (7, false)]
  | .SWC => [(1, false), (2, false), (3, true)]
  | .CCX => [(1, true), (2, true)]
  | .MGC => [(1, true), (2, true)]
  | .PLN => [(1, true), (2, true)]
  | .HUB => [(1, true), (2, true), (3, true)]
  | .FCL => [(1, false), (2, true), (3, false)]
  | .PWR => [(1, false), (2, true), (3, false)]
  | .KPL => [(1, false)]
  | _ => []

/-- Sources whose injection also corrupts the next protected item (Inj D of Table 14.2). -/
def injectsD : Blk → Nat → Bool
  | .KSQ, 1 => true | .XPT, _ => true | .TMB, 2 => true | .SPM, 1 => true | .SPM, 2 => true
  | .NMC, 1 => true | .NMC, 2 => true | .FMC, 1 => true | .FMC, 2 => true | .FPT, 1 => true
  | .SWC, 3 => true | .CCX, 1 => true | .MGC, 1 => true | _, _ => false

/-- Whether a source is assigned to a block. -/
def assigned (b : Blk) (src : Nat) : Bool := (sourcesOf b).any (·.1 = src)

/-- Whether a source takes part in escalation. -/
def escSource (b : Blk) (src : Nat) : Bool := (sourcesOf b).any (fun e => e.1 = src && e.2)

/-- The beat of the clock a unit runs on: its plane's count of beats, or its hub's beat. -/
def unitBeat (s : State) (u : Nat) : Nat :=
  match unitPlane u with
  | some p => s.beats p
  | none => match unitHub u with
    | some h => (s.hub h).beat
    | none => 0

/-- The fabric time a unit's log captures. A hub block takes the FT of the plane its TRF_CFG.PPS_OUT_PLANE names
(assumption log 15). -/
def unitFt (s : State) (u : Nat) : Nat :=
  match unitPlane u with
  | some p => s.ft p
  | none => match unitHub u with
    | some h => s.ft ⟨s.get (hu h .TRF) Fld.TRF_CFG_PPS_OUT_PLANE % 4, Nat.mod_lt _ (by decide)⟩
    | none => 0

/-- The class C self-acknowledgment period in force (R400), in beats: Hub A's CACK, or Hub B's while Hub A is fenced. -/
def cackBeats (s : State) : Nat :=
  1650 * s.get (hu (if s.hubFenced .a then .b else .a) .FCL) Fld.FCL_CFG_CACK

/-- The report logic of a unit. -/
def State.rp (s : State) (u : Nat) : Reporter := mgetD s.rep u {}

/-- Change the report logic of a unit. -/
def State.modRp (s : State) (u : Nat) (f : Reporter → Reporter) : State := { s with rep := mput s.rep u (f (s.rp u)) }

/-- The log of a unit as it stands. -/
def logNow (s : State) (u : Nat) : LogSave :=
  { cls := s.reg u Fld.BLK_ERR_CLASS.key, log0 := s.reg u Fld.BLK_ERR_LOG0_FT_LO.key, log1 := s.reg u Fld.BLK_ERR_LOG1_FT_HI.key
    log2 := s.reg u Fld.BLK_ERR_LOG2_WHERE.key, log3 := s.reg u Fld.BLK_ERR_LOG3_DETAIL.key
    rseq := (s.rp u).rseq, capAt := (s.rp u).capAt, capFor := (s.rp u).capFor }

/-- A unit's log takes a value. -/
def setLog (u : Nat) (x : LogSave) (s : State) : State :=
  let s := ((s.setReg u Fld.BLK_ERR_CLASS.key x.cls).setReg u Fld.BLK_ERR_LOG0_FT_LO.key x.log0).setReg u Fld.BLK_ERR_LOG1_FT_HI.key x.log1
  let s := (s.setReg u Fld.BLK_ERR_LOG2_WHERE.key x.log2).setReg u Fld.BLK_ERR_LOG3_DETAIL.key x.log3
  s.modRp u (fun r => { r with rseq := x.rseq, capAt := x.capAt, capFor := x.capFor })

/-- CLASS of a log. -/
def LogSave.held (x : LogSave) : Nat := fieldGet x.cls Fld.BLK_ERR_CLASS

/-- A log is free again: CLASS, OVF and SOURCE clear (Table 2.2). -/
def LogSave.free (x : LogSave) : LogSave :=
  { x with cls := fieldSet (fieldSet (fieldSet x.cls Fld.BLK_ERR_CLASS 0) Fld.BLK_ERR_CLASS_OVF 0) Fld.BLK_ERR_CLASS_SOURCE 0 }

/-- A free log captures a fault (R47) at a fabric time, in a beat, with CACK's period: its class, source, WHERE and DETAIL, under the
next RSEQ. -/
def LogSave.capture (ft beat cack : Nat) (x : LogSave) (d : Detection) : LogSave :=
  { cls := fieldSet (fieldSet (fieldSet x.cls Fld.BLK_ERR_CLASS (classCode d.cls)) Fld.BLK_ERR_CLASS_SOURCE d.src) Fld.BLK_ERR_CLASS_OVF 0
    log0 := BitVec.ofNat 32 ft, log1 := BitVec.ofNat 32 (ft / 2 ^ 32), log2 := BitVec.ofNat 32 d.loc, log3 := BitVec.ofNat 32 d.detail
    rseq := (x.rseq + 1) % 16, capAt := beat, capFor := cack }

/-- CLASS rises under RSEQ's next value (R395). -/
def LogSave.raise (cls : Nat) (x : LogSave) : LogSave :=
  { x with cls := fieldSet x.cls Fld.BLK_ERR_CLASS cls, rseq := (x.rseq + 1) % 16 }

/-- The log of block `b` after one more detection (R47, Table 14.4): C_COUNT counts a class C fault; a free log captures; a held one sets
OVF and escalates. -/
def LogSave.add (b : Blk) (ft beat cack : Nat) (x : LogSave) (d : Detection) : LogSave :=
  let heldEsc := escSource b (fieldGet x.cls Fld.BLK_ERR_CLASS_SOURCE)
  let esc := escSource b d.src
  let count := fieldGet x.cls Fld.BLK_ERR_CLASS_C_COUNT
  let y := if d.cls = .c then { x with cls := fieldSet x.cls Fld.BLK_ERR_CLASS_C_COUNT (min (count + 1) 0xFFFF) } else x
  if x.held = 0 then y.capture ft beat cack d
  else
    let y := { y with cls := fieldSet y.cls Fld.BLK_ERR_CLASS_OVF 1 }
    if x.held ≠ 3 ∧ (d.cls = .f ∨ (x.held = 2 ∧ d.cls = .u ∧ esc ∧ heldEsc)) then y.raise 3
    else if x.held = 1 ∧ esc ∧ (d.cls = .u ∨ (d.cls = .c ∧ heldEsc)) then y.raise 2
    else y

/-- The detections of this beat of a unit's clock, in SOURCE order. -/
def detectedNow (s : State) (u : Nat) : List Detection := if (s.rp u).seenAt = unitBeat s u then (s.rp u).seen else []

/-- A class C fault that has been held for its period acknowledges itself (R400). -/
def LogSave.due (beat : Nat) (x : LogSave) : Bool := x.held = 1 && x.capAt + x.capFor ≤ beat

/-- The log before the detections of this beat. The acknowledgment that ends a class C fault's period comes before them (R47, R400). -/
def logBase (s : State) (u : Nat) : LogSave :=
  if detectedNow s u = [] then
    let x := logNow s u
    if x.due (unitBeat s u) then x.free else x
  else (s.rp u).base

/-- One more detection among those of a beat, in increasing SOURCE order; a source counts once, at its highest class (R402). (DEDUCED,
log 100) -/
def addDetection (d : Detection) : List Detection → List Detection
  | [] => [d]
  | e :: r =>
    if d.src < e.src then d :: e :: r
    else if d.src = e.src then (if classCode e.cls < classCode d.cls then d else e) :: r
    else e :: addDetection d r

/-- The log that the detections of a beat leave, applied to the log before them. -/
def settleLog (s : State) (u : Nat) (b : Blk) (base : LogSave) (ds : List Detection) : LogSave :=
  ds.foldl (LogSave.add b (unitFt s u) (unitBeat s u) (cackBeats s)) base

/-- The log of a unit after a detection (R47, R399, R402): the detections of the beat are applied anew, in SOURCE order, to the log before
them. -/
def logDetection (u : Nat) (b : Blk) (d : Detection) (s : State) : State :=
  let base := logBase s u
  let ds := addDetection d (detectedNow s u)
  (setLog u (settleLog s u b base ds) s).modRp u (fun r => { r with seenAt := unitBeat s u, seen := ds, base := base })

/-- A fault is logged. -/
def logFault (u : Nat) (b : Blk) (src : Nat) (cls : FaultClass) (wh detail : Nat) (s : State) : State :=
  logDetection u b { src := src, cls := cls, loc := wh, detail := detail } s

/-- The detection that raised CLASS to F, among those of a beat in SOURCE order. -/
def fatalOf (s : State) (u : Nat) (b : Blk) : LogSave → List Detection → Option Detection
  | _, [] => none
  | x, d :: r =>
    let y := x.add b (unitFt s u) (unitBeat s u) (cackBeats s) d
    if x.held ≠ 3 ∧ y.held = 3 then some d else fatalOf s u b y r

/-- FCL_FATAL.PATH of a fault that raised CLASS to F (Table 14.12). -/
def Detection.path (d : Detection) : Nat := if d.cls = .f then (if d.injected then 3 else 0) else 1

/-- ACK (R47): the log is free again, and then the faults of this beat are applied. (DEDUCED, log 104) -/
def ackFault (u : Nat) (s : State) : State :=
  match unitBlk u with
  | none => s
  | some (b, _) =>
    let base := (logBase s u).free
    (setLog u (settleLog s u b base (detectedNow s u)) s).modRp u (fun r => { r with base := base })

/-- Log a fault of a source that has no reaction and takes no part in escalation. -/
def report (u src : Nat) (cls : FaultClass) (wh detail : Nat) (s : State) : State :=
  match unitBlk u with
  | some (b, _) => logFault u b src cls wh detail s
  | none => s

end Sys2Proof.Machine
end

