-- ==== Sys2Proof/Machine/MemData.lean ====
section
/-! DEFINITION. Sys2Proof/Machine/MemData.lean: plane memory as data: its bytes, its populated ranges, the F-tier
interleave, the scratchpad's bank map and partition, and the poison marks (R65, R66, R252 to R255, R265 to R271). -/

namespace Sys2Proof.Machine

/-! ### Bytes -/

/-- The byte at an address: 0x00 where nothing is listed (assumption log 11). -/
def memByte (m : List Host.Cell) (a : Nat) : Byte := mgetD m a 0

/-- Store one byte in the canonical form. (DESIGN CHOICE, log 11) -/
def memPut (m : List Host.Cell) (a : Nat) (b : Byte) : List Host.Cell := if b = 0 then mdel m a else mput m a b

/-- Store bytes at rising addresses. -/
def memPuts (m : List Host.Cell) (a : Nat) : List Byte → List Host.Cell
  | [] => m
  | b :: r => memPuts (memPut m a b) (a + 1) r

/-- `n` bytes from an address. -/
def memBytes (m : List Host.Cell) (a n : Nat) : List Byte := (List.range n).map (fun i => memByte m (a + i))

/-- The canonical form: addresses strictly rising, and no entry that an unlisted address reads as. -/
def memWf (m : List Host.Cell) : Bool := keysRise m && m.all (fun e => e.2 ≠ 0)

/-- `n` bytes of a plane's memory. -/
def memRead (s : State) (p : PlaneId) (addr n : Nat) : List Byte := memBytes (s.pl p).mem addr n

/-! ### Regions and partitions -/

/-- Base of the F-tier. -/
def baseF : Nat := 0x010000000000
/-- Base of the scratchpad. -/
def baseS : Nat := 0xFF0000000000
/-- The N-tier's 36 GB. -/
def popN : Nat := 38654705664

/-- Whether mirroring is on in a plane. -/
def mirrored (s : State) (p : PlaneId) : Bool := (s.cfg.planes.get p).mirror

/-- The active channels the interleave was formed over at plane reset (R253, R254): those that the reset found, without the ones then
fenced. (DEDUCED, log 86) -/
def formedChans (s : State) (p : PlaneId) : List Nat :=
  let w := (resetVal s (pu p .PLN) 0x04C).toNat
  (List.range 6).filter (fun c => bit w c && !(s.pl p).lostChans.contains c)

/-- The interleave's units: channels, or with mirroring the lower channels of the pairs with an active channel (R255). (DEDUCED, log 86) -/
def formedUnits (s : State) (p : PlaneId) : List Nat :=
  if mirrored s p then [0, 2, 4].filter (fun c => c ∈ formedChans s p ∨ c + 1 ∈ formedChans s p) else formedChans s p

/-- Bytes of one MRDIMM. -/
def dimmBytes (s : State) : Nat := (if s.ident.grade = .s128 then 128 else 96) * 2 ^ 30

/-- The populated F-tier range in bytes. -/
def popF (s : State) (p : PlaneId) : Nat := (formedUnits s p).length * dimmBytes s

/-- Physical banks mapped in (PLN_UNIT_SPM). -/
def bankActive (s : State) (p : PlaneId) (b : Nat) : Bool :=
  if b < 32 then bit (s.get (pu p .PLN) Fld.PLN_UNIT_SPM_LO_BANK_ACT_LO) b
  else bit (s.get (pu p .PLN) Fld.PLN_UNIT_SPM_HI_BANK_ACT_HI) (b - 32)

/-- The map of R268 over a set of active physical banks: each logical bank keeps its own, or takes a replacement from the
highest-numbered active banks, in decreasing order. -/
def formBankMap (act : List Nat) : List Nat :=
  let n := act.length
  let spare := (act.filter (fun b => n ≤ b)).reverse
  ((List.range n).foldl (fun (acc : List Nat × List Nat) l =>
    if l ∈ act then (acc.1 ++ [l], acc.2) else (acc.1 ++ [acc.2.headD 0], acc.2.tail)) ([], spare)).1

/-- The logical bank map in force. -/
def bankMapNow (s : State) (p : PlaneId) : List Nat :=
  (s.pl p).bankMap.getD (formBankMap ((List.range 64).filter (fun b => (64 * p.val + b) ∉ s.fitted.badBank)))

/-- ACTIVE: the banks of the map in force. -/
def spmActive (s : State) (p : PlaneId) : Nat := (bankMapNow s p).length

/-- The partition in force, as SPM_PART_CFG encodes it. -/
def partNow (s : State) (p : PlaneId) : Nat := ((s.pl p).part.getD (s.cfg.planes.get p).part).toNat

def partKeyb (w : Nat) : Nat := bits w 2 0
def partGq (w : Nat) : Nat := bits w 6 3
def partReord (w : Nat) : Nat := bits w 11 7
def partAdapt (w : Nat) : Nat := bits w 17 12
def partRet (w : Nat) : Nat := bits w 23 18

/-- STAGE banks of a partition with ACTIVE banks (R269). -/
def partStage (w act : Nat) : Nat := act - (partGq w + 2 * partKeyb w + partReord w + partAdapt w)

/-- The partition signature (R270). -/
def partSig (s : State) (p : PlaneId) : Nat :=
  let w := partNow s p
  partKeyb w + 2 ^ 3 * partGq w + 2 ^ 7 * partReord w + 2 ^ 12 * partAdapt w + 2 ^ 18 * partStage w (spmActive s p) +
    2 ^ 24 * spmActive s p

/-- Bytes of a bank. -/
def bankBytes : Nat := 4194304

/-- The partitions of Table 9.4. -/
inductive Part where
  | gq | kb0 | kb1 | reord | adapt | open_ | ret
  deriving DecidableEq, Repr

/-- Offset and length of a partition, in bytes from the scratchpad base (R269). -/
def partRange (s : State) (p : PlaneId) (q : Part) : Nat × Nat :=
  let w := partNow s p
  let k := partKeyb w
  let st := partStage w (spmActive s p)
  let g := partGq w
  let r := partReord w
  let a := partAdapt w
  let (b, n) : Nat × Nat := match q with
    | .gq => (0, g)
    | .kb0 => (g, k)
    | .kb1 => (g + k, k)
    | .reord => (g + 2 * k, r)
    | .adapt => (g + 2 * k + r, a)
    | .open_ => (g + 2 * k + r + a, st - partRet w)
    | .ret => (g + 2 * k + r + a + (st - partRet w), partRet w)
  (b * bankBytes, n * bankBytes)

/-- Whether a range lies in a partition. -/
def inPart (s : State) (p : PlaneId) (q : Part) (addr n : Nat) : Bool :=
  let r := partRange s p q
  baseS + r.1 ≤ addr && addr + n ≤ baseS + r.1 + r.2

/-- Whether an extent lies in the populated range of a single region (R57, R59). -/
def extentOk (s : State) (p : PlaneId) (addr n : Nat) : Bool :=
  (addr + n ≤ popN) || (baseF ≤ addr && addr + n ≤ baseF + popF s p) ||
    (baseS ≤ addr && addr + n ≤ baseS + spmActive s p * bankBytes)

/-- Whether hub links reach an extent (Table 9.5, R275). -/
def hubReach (s : State) (p : PlaneId) (write : Bool) (addr n : Nat) : Bool :=
  extentOk s p addr n && (decide (addr < baseS) || inPart s p .gq addr n || inPart s p .open_ addr n ||
    (!write && (inPart s p .kb0 addr n || inPart s p .kb1 addr n)))

/-- Whether collective cores reach a scratchpad extent (Table 9.5). -/
def coreReach (s : State) (p : PlaneId) (addr n : Nat) : Bool :=
  extentOk s p addr n && (decide (addr < baseS) || inPart s p .gq addr n || inPart s p .open_ addr n)

/-- Whether a plane's management cores reach an extent (Table 9.5): GQ and open staging as well as memory, and the other partitions for a
read. -/
def mgcReach (s : State) (p : PlaneId) (write : Bool) (addr n : Nat) : Bool :=
  extentOk s p addr n && (decide (addr < baseS) || inPart s p .gq addr n || inPart s p .open_ addr n || !write)

/-- Whether an extent meets the plane's guard range while CC_VERIFY is 1 (R439). -/
def guarded (s : State) (p : PlaneId) (addr n : Nat) : Bool :=
  let c := s.cfg.planes.get p
  s.cfg.ccVerify && decide (addr < c.guardBase + c.guardLen) && decide (c.guardBase < addr + n)

/-! ### Targets -/

/-- Where a DRAM address lies: its target (6 for the N-tier; else the channel, or the lower channel of the pair), the pseudo-channel of an
N-tier address, and the offset there. -/
structure Place where
  target : Nat
  pseudo : Nat
  offset : Nat
  deriving DecidableEq, Repr

/-- The place of an address (R252, R253, R255). -/
def placeOf (s : State) (p : PlaneId) (addr : Nat) : Option Place :=
  if addr < popN then some { target := 6, pseudo := addr / 256 % 32, offset := addr / 256 / 32 * 256 + addr % 256 }
  else if baseF ≤ addr ∧ addr < baseF + popF s p then
    let u := formedUnits s p
    let g := (addr - baseF) / 256
    if u = [] then none
    else some { target := u.getD (g % u.length) 0, pseudo := 0, offset := g / u.length * 256 + addr % 256 }
  else none

/-- The target that holds an address. -/
def targetOf (s : State) (p : PlaneId) (addr : Nat) : Option Nat := (placeOf s p addr).map (·.target)

/-- Whether an F-tier channel's hasp is closed or its domain off. -/
def chanLost (s : State) (p : PlaneId) (c : Nat) : Bool := s.fenced (uFMC p c) || !bit (s.get (pu p .PLN) Fld.PLN_UNIT_MEM_FMC_ACT) c

/-- Whether the target that holds an address is lost, so that its granules read poisoned (R254, R255). -/
def targetLost (s : State) (p : PlaneId) (addr : Nat) : Bool :=
  match targetOf s p addr with
  | some 6 => false
  | some c => if mirrored s p then chanLost s p c && chanLost s p (c + 1) else chanLost s p c
  | none => false

/-- The physical bank of a scratchpad address. -/
def bankOf (s : State) (p : PlaneId) (addr : Nat) : Nat := (bankMapNow s p).getD ((addr - baseS) / bankBytes) 64

/-- Bytes of the poison granule at an address (Table 9.2). -/
def granule (addr : Nat) : Nat := if baseS ≤ addr then 128 else 256

/-- The first address of an address's granule. -/
def granuleOf (addr : Nat) : Nat := addr / granule addr * granule addr

/-- Whether one granule reads as poisoned. -/
def poisonedGr (s : State) (p : PlaneId) (g : Nat) : Bool :=
  (s.pl p).poison.contains g || targetLost s p g || (decide (baseS ≤ g) && (s.pl p).fencedBanks.contains (bankOf s p g))

/-- Whether a range meets a poisoned granule. -/
def poisonedAt (s : State) (p : PlaneId) (addr n : Nat) : Bool :=
  let g := granule addr
  (List.range ((addr + n + g - 1) / g - addr / g)).any (fun i => poisonedGr s p (addr / g * g + i * g))

/-- Insert into a rising list without repeats. -/
def insertNat (x : Nat) : List Nat → List Nat
  | [] => [x]
  | y :: r => if x < y then x :: y :: r else if x = y then y :: r else y :: insertNat x r

/-- The block that counts a granule's poisonings. -/
def poisonUnit (s : State) (p : PlaneId) (g : Nat) : Nat :=
  match targetOf s p g with
  | some 6 => pu p .NMC
  | some c => uFMC p c
  | none => pu p .SPM

/-- Mark a granule poisoned and count it (R265); it ends the beat poisoned (R267). -/
def markPoison (p : PlaneId) (addr : Nat) (s : State) : State :=
  let g := granuleOf addr
  let u := poisonUnit s p g
  let now := s.beats p
  let s := s.modPl p (fun x => { x with
    poison := insertNat g x.poison, poisonNow := (now, g :: (if x.poisonNow.1 = now then x.poisonNow.2 else [])) })
  if u = pu p .SPM then s.incSat u Fld.SPM_POISON_CNT_PCNT
  else (s.incSat u Fld.FMC_POISON_CNT_PCNT).put64 u Fld.FMC_LASTP_LO_LP_LO Fld.FMC_LASTP_HI_LP_HI g

/-- Whether a running key's MEM_MAP names the target that holds an address (R261). -/
def runningMemMap (s : State) (p : PlaneId) : Nat :=
  let st (b : Nat) : Nat := s.get (pu p .KSQ) (Fld.KSQ_B_STAT_STATE.at b)
  if st 0 = 4 then ((s.pl p).keys.getD 0 {}).memMap else if st 1 = 4 then ((s.pl p).keys.getD 1 {}).memMap else 0

/-- Whether a MEM_MAP names a target. -/
def mapNames (mm t : Nat) : Bool := if t = 6 then bit mm 8 else bit mm t

/-- Whether a running key schedules the target of an address. -/
def keyHolds (s : State) (p : PlaneId) (addr : Nat) : Bool :=
  match targetOf s p addr with
  | some t => mapNames (runningMemMap s p) t
  | none => false

/-- Whether a running key schedules a channel of the region of an address (R206). -/
def keyHoldsRegion (s : State) (p : PlaneId) (addr : Nat) : Bool :=
  let mm := runningMemMap s p
  if addr < baseF then bit mm 8 else if addr < baseS then decide (mm % 64 ≠ 0) else false

end Sys2Proof.Machine
end

