-- ==== Sys2Proof/Machine/ChunkData.lean ====
section
/-! DEFINITION. Sys2Proof/Machine/ChunkData.lean: contexts, chunks, copies and seals as data (R159 to R184): states, seals,
releases and repair queues. -/

namespace Sys2Proof.Machine

/-! ### Slices and contexts -/

/-- TMB_STAT.ROLE of a slice: 0 ACTIVE, 1 SPARE, 2 STANDIN, 3 UNUSABLE. -/
def sliceRole (s : State) (p : PlaneId) (n : Nat) : Nat := s.get (uTMB p n) Fld.TMB_STAT_ROLE

/-- The slice that executes a position's operations (Table 5.8). -/
def serverOf (s : State) (p : PlaneId) (pos : Nat) : Option Nat :=
  (List.range 17).find? (fun n => (sliceRole s p n = 0 && n = pos) ||
    (sliceRole s p n = 2 && s.get (uTMB p n) Fld.TMB_STAT_FOR_POS = pos))

/-- The slice of the plane whose role is SPARE. -/
def spareSlice (s : State) (p : PlaneId) : Option Nat := (List.range 17).find? (fun n => sliceRole s p n = 1)

/-- The unit that reports for a position: its server, or the position's own block. -/
def posUnit (s : State) (p : PlaneId) (pos : Nat) : Nat := uTMB p ((serverOf s p pos).getD pos)

/-- Key of a context. -/
def ctxKey (pos c : Nat) : Nat := 16 * pos + c

/-- A bound context of a position. -/
def getCtx (s : State) (p : PlaneId) (pos c : Nat) : Option Ctx := mget (s.pl p).ctxs (ctxKey pos c)

/-- Store a context. -/
def setCtx (p : PlaneId) (pos c : Nat) (x : Ctx) (s : State) : State :=
  s.modPl p (fun y => { y with ctxs := mput y.ctxs (ctxKey pos c) x })

/-- Change a context where it is bound. -/
def modCtx (p : PlaneId) (pos c : Nat) (f : Ctx → Ctx) (s : State) : State :=
  match getCtx s p pos c with
  | some x => setCtx p pos c (f x) s
  | none => s

/-- Elements per cell of the input and the output format, and cells of a result (R160). -/
def Ctx.elems (x : Ctx) : Nat := x.chunkCells * fmtPerCell x.inFmt
def Ctx.resCells (x : Ctx) : Nat := x.elems / fmtPerCell x.outFmt

/-- Store footprint of one cell (Table 5.7). -/
def footCell (fmt : Nat) (wide : Bool) : Nat :=
  fmtPerCell fmt * (if wide then 4 else if fmt ≤ 1 then 40 else if fmt = 2 then 16 else 8)

/-- The reservation of a context in the accumulator store (R155). -/
def Ctx.foot (x : Ctx) : Nat := x.chunkCells * footCell x.inFmt x.wide

/-- Bytes of the RET banks a binding reserves (R165). -/
def Ctx.retBytes (x : Ctx) : Nat := (x.m * x.chunkCells + x.resCells) * 256 * x.d

/-- The contexts bound on a position: number and context. -/
def ctxsOf (s : State) (p : PlaneId) (pos : Nat) : List (Nat × Ctx) :=
  ((s.pl p).ctxs.filter (fun e => e.1 / 16 = pos)).map (fun e => (e.1 % 16, e.2))

/-- Bytes of a position's accumulator store in use. -/
def storeUsed (s : State) (p : PlaneId) (pos : Nat) : Nat := ((ctxsOf s p pos).map (fun e => e.2.foot)).sum

/-- Bytes of the RET banks in use. -/
def retUsed (s : State) (p : PlaneId) : Nat := ((s.pl p).ctxs.map (fun e => e.2.retBytes)).sum

/-! ### Collectives -/

/-- The collective of a group and CSEQ. -/
def getColl (s : State) (p : PlaneId) (g q : Nat) : Coll :=
  ((s.pl p).colls.find? (fun c => c.group = g && c.cseq = q)).getD { group := g, cseq := q }

/-- Change a collective. -/
def modColl (p : PlaneId) (g q : Nat) (f : Coll → Coll) (s : State) : State :=
  let c := f (getColl s p g q)
  s.modPl p (fun x => { x with colls := c :: x.colls.filter (fun c => !(c.group = g && c.cseq = q)) })

/-! ### Chunks -/

/-- The chunk of a context with a number. -/
def Ctx.chunk (x : Ctx) (n : Nat) : Option Chunk := x.chunks.find? (·.num = n)

/-- The FILLING chunk of a context. -/
def Ctx.filling (x : Ctx) : Option Chunk := x.chunks.find? (·.st = .filling)

/-- Change one chunk of a context. -/
def Ctx.modChunk (x : Ctx) (n : Nat) (f : Chunk → Chunk) : Ctx :=
  { x with chunks := x.chunks.map (fun k => if k.num = n then f k else k) }

/-- Change one chunk. -/
def modChunk (p : PlaneId) (pos c n : Nat) (f : Chunk → Chunk) (s : State) : State := modCtx p pos c (·.modChunk n f) s

/-- Closed and not released (R162, R166). -/
def Chunk.held (k : Chunk) : Bool :=
  match k.st with
  | .filling => false
  | .closing => false
  | .released => false
  | _ => true

/-- CSTAT's code of a state (R215). -/
def ChunkState.code : ChunkState → Nat
  | .filling => 0 | .closing => 1 | .sending => 2 | .repair => 3 | .sealed => 4 | .failed => 5 | .released => 6

/-- The copy takes a FINAL seal with a reason, unless one is due to it already. -/
def Copy.endWith (y : Copy) (reason : Nat) : Copy := { y with final := if y.final = 0 then reason else y.final }

/-- The members that have delivered cells of the chunk to its context (R212). -/
def Chunk.delivered (k : Chunk) : List Nat := (k.given ++ k.ins.map (·.midx) ++ k.bad).eraseDups

/-- A CCLOSE, or the close of a collective whose time is over: closing begins once the feeds accepted before it are accumulated (R213). A
chunk that is already asked to close keeps its request. -/
def Chunk.askClose (k : Chunk) (feeds : Nat) : Chunk := if k.closeReq then k else { k with closeReq := true, closeFeeds := feeds }

/-- Feeds of a context that are outstanding. -/
def ctxFeeds (s : State) (p : PlaneId) (pos c : Nat) : Nat := ((s.pl p).feeds.filter (fun f => f.pos = pos && f.ctx = c)).length

/-- Free what a chunk retains (R166). The seals that its copies have received stay known for CSTAT (R215), and a copy that was not
sealed POSITIVE or FINAL has nothing left to be sent from: RETAIN (Table 6.5). -/
def Chunk.release (k : Chunk) : Chunk :=
  { k with
    st := .released, given := k.delivered, ins := [], result := [], expect := [], missed := []
    copies := k.copies.map (fun y => if (y.kind = 0 ∨ y.kind = 2) ∧ k.fail = 0 then y.endWith 8 else y)
    marked := false, recompNeed := none, recompOn := none }

/-- A recompute of the chunk is needed or runs. -/
def Chunk.recomputing (k : Chunk) : Bool := k.recompNeed.isSome || k.recompOn.isSome

/-- The state of a closed chunk that its seals give it (Table 6.2): FAILED and SEALED are left by release only, REPAIR when every copy,
those of ports that have not begun among them, has received a POSITIVE or FINAL seal. -/
def Chunk.stateOf (k : Chunk) : ChunkState :=
  if k.fail ≠ 0 ∨ k.st = .failed ∨ k.copies.any (·.kind = 3) then .failed
  else if k.copies.any (·.kind = 2) ∨ k.recomputing then .repair
  else if k.copies ≠ [] ∧ k.expect = [] ∧ k.copies.all (·.kind = 1) then .sealed
  else if k.st = .repair ∨ k.st = .sealed then k.st
  else .sending

/-- A release that is marked on the chunk is applied now (R166): in SEALED or FAILED, once a delivery that a member asked for has
left, or where no copy was ever asked of the chunk. (DEDUCED, log 28) -/
def Chunk.mayRelease (k : Chunk) : Bool :=
  k.marked && (k.st = .sealed || k.st = .failed || (k.copies = [] && k.expect = [])) && !k.copies.any (fun y => y.kind = 1 && y.queued)

/-- The state that the seals of a chunk's copies give it once it is closed, and the release that waits for it. -/
def Chunk.settle (k : Chunk) : Chunk :=
  if k.held then
    let k := { k with st := k.stateOf }
    if k.mayRelease then k.release else k
  else k

/-- TAG of a result or seal cell (Table 6.3). -/
def resTag (x : Ctx) (num cell attempt : Nat) : Nat :=
  cell % 2 ^ 12 + 2 ^ 12 * (num % 2 ^ 20) + 2 ^ 32 * (x.cseq % 2 ^ 16) + 2 ^ 48 * (x.group % 2 ^ 10) + 2 ^ 58 * (attempt % 64)

/-- The members of a chunk's agreement set (R174, R208): all but the memory contribution. -/
def agreeNeeds (x : Ctx) (k : Chunk) : List Nat :=
  let mem : Bool := x.accum || (!x.feed && k.nextCell.any (fun e => 128 ≤ e.1))
  List.range (if mem then x.m - 1 else x.m)

/-- Whether the agreement set of a chunk's collective is complete. -/
def agreed (s : State) (p : PlaneId) (x : Ctx) (k : Chunk) : Bool :=
  let c := getColl s p x.group x.cseq
  (agreeNeeds x k).all (fun m => c.matched.contains m)

/-- The seal due to a copy now: KIND and REASON (R170, R174 to R181). -/
def sealFor (s : State) (p : PlaneId) (x : Ctx) (k : Chunk) (c : Copy) : Nat × Nat :=
  let neg (r : Nat) : Nat × Nat := if 3 ≤ c.attempt then (3, 9) else (2, r)
  let late : Bool := c.negAt.any (fun t => decide (t + 1650000 < s.beats p))
  if (getColl s p x.group x.cseq).aborted.isSome then (3, 7)
  else if c.final ≠ 0 then (3, c.final)
  else if late then (3, 9)
  else if k.fail ≠ 0 then (3, k.fail)
  else if c.attempt = 0 ∧ k.neg ≠ 0 then neg k.neg
  else if !agreed s p x k then neg 4
  else if c.crcBad then neg 1
  else (1, 0)

/-- The seal cell's payload (Table 6.4). -/
def sealPayload (x : Ctx) (k : Chunk) (kind reason attempt : Nat) : Payload :=
  let body := bytesOf 1 kind ++ bytesOf 1 reason ++ bytesOf 1 k.status ++ bytesOf 1 attempt ++ bytesOf 2 x.group ++
    bytesOf 2 x.cseq ++ bytesOf 4 k.num ++ bytesOf 2 x.resCells ++ bytesOf 1 x.outFmt ++ [0] ++
    bytesOf 8 (k.num * x.elems) ++ bytesOf 8 x.digest ++ bytesOf 4 k.rcrc ++ bytesOf 8 k.closeFt ++ List.replicate 208 0
  payloadOf (body ++ bytesOf 4 (crc32c body))

/-- Record a seal on a copy: a POSITIVE one ends the wait of R179. -/
def Copy.sealed (c : Copy) (kind reason now : Nat) : Copy :=
  { c with kind := kind, reason := reason, queued := false, crcBad := false, failedOnce := c.failedOnce || c.crcBad
           negAt := if kind = 2 then some (c.negAt.getD now) else none, negLast := if kind = 2 then now else c.negLast }

/-- Change the copies of a chunk with a destination. -/
def Chunk.modCopy (k : Chunk) (d : CopyDst) (f : Copy → Copy) : Chunk :=
  { k with copies := k.copies.map (fun c => if c.dst = d then f c else c) }

/-- A recompute is needed (R177, R178): copies at their first attempt will be sealed NEGATIVE with the reason, and a repair under way
does not count. -/
def Chunk.needRecompute (k : Chunk) (reason now : Nat) : Chunk :=
  { k with neg := if k.neg = 0 then reason else k.neg, recompNeed := if k.recomputing then k.recompNeed else some now
           copies := k.copies.map (fun y => if y.queued ∧ 0 < y.sent then { y with crcBad := true } else y) }

/-- A chunk whose closing has ended reaches SEALED or FAILED: a sample of SEAL_LAT (Table 16.2). `k` is the chunk as it was. -/
def sealSample (p : PlaneId) (pos : Nat) (k : Chunk) (st : ChunkState) (s : State) : State :=
  let ended (st : ChunkState) : Bool := st = .sealed || st = .failed || st = .released
  if ended st && !ended k.st && k.closeFt ≠ 0 then s.sample p 2 (posUnit s p pos % 256 - 0x20) (s.ft p - k.closeFt) else s

/-- A chunk changes outside its seals, and SEAL_LAT takes its sample where that fails it. -/
def endChunk (p : PlaneId) (pos c n : Nat) (f : Chunk → Chunk) (s : State) : State :=
  match (getCtx s p pos c).bind (·.chunk n) with
  | some k => sealSample p pos k (f k).st (modChunk p pos c n f s)
  | none => s

/-- A copy receives its seal (R172, R178): a copy that fails its egress check reports XPT_COPY, and one that fails it again
needs a recompute. Answers the seal cell. -/
def sealOne (p : PlaneId) (pos c n : Nat) (d : CopyDst) (s : State) : Option Cell × State :=
  match getCtx s p pos c with
  | none => (none, s)
  | some x => match x.chunk n with
    | none => (none, s)
    | some k => match k.copies.find? (·.dst = d) with
      | none => (none, s)
      | some cp =>
        let (kind, reason) := sealFor s p x k cp
        let k' := k.modCopy d (·.sealed kind reason (s.beats p))
        let k' := if cp.crcBad ∧ cp.failedOnce ∧ kind = 2 then k'.needRecompute 1 (s.beats p) else k'
        let cell : Cell := { sched := true, cls := 3, tag := resTag x n 0xFFF cp.attempt, data := sealPayload x k kind reason cp.attempt }
        let s := setCtx p pos c (x.modChunk n (fun _ => k'.settle)) s
        let s := s.event p (0x0B + kind) (posUnit s p pos % 256 - 0x20) 1
        -- Result cells of a keyed copy fall in a slot-accounting category when their seal is sent (R454).
        let s := match d with
          | .port _ => if cp.attempt = 0 then s.event p (if kind = 1 then 0x100 else 0x101) 0 cp.sent else s
          | _ => s
        let s := sealSample p pos k k'.settle.st s
        (some cell, if cp.crcBad then report (pu p .XPT) 1 .c n 0 s else s)

/-- TCLASS of a group. -/
def groupTc (s : State) (p : PlaneId) (g : Nat) : Nat := (mgetD (s.pl p).groups g {}).tclass

/-- Append a frame of a unit of the plane to those that wait for admission. -/
def issueFrame (p : PlaneId) (f : UnitFrame) (s : State) : State := s.modPl p (fun x => { x with unitFrames := x.unitFrames ++ [f] })

/-- Append to a port's repair queue. -/
def queueRepair (p : PlaneId) (port : Nat) (r : RepairRef) (s : State) : State :=
  s.modPl p (fun x => { x with repairs := mput x.repairs port (mgetD x.repairs port [] ++ [r]) })

/-- Issue the seal cell of a copy to an endpoint, as a unit frame in the group's traffic class (R214). -/
def issueSeal (p : PlaneId) (pos c ep : Nat) (r : Option Cell × State) : State :=
  match r.1 with
  | some cell => issueFrame p { unit := posUnit r.2 p pos, cls := 3, dests := [ep]
                                tc := some (groupTc r.2 p ((getCtx r.2 p pos c).elim 0 (·.group))), tag := cell.tag, cells := [cell.data] } r.2
  | none => r.2

/-- A copy that will only receive its FINAL seal: at once to an endpoint, in an open slot of a port, and by record for a
copy to memory (R184, R214). No egress check is made for it. -/
def finalOnly (p : PlaneId) (pos c n : Nat) (d : CopyDst) (s : State) : State :=
  let s := modChunk p pos c n (·.modCopy d (fun y => { y with crcBad := false, queued := true })) s
  match d with
  | .endpoint ep _ => issueSeal p pos c ep (sealOne p pos c n d s)
  | .port port => queueRepair p port { pos := pos, ctx := c, chunk := n, dst := d, sealOnly := true } s
  | .mem _ _ => (sealOne p pos c n d s).2

/-- Copies of a released chunk that waited for a repair receive their FINAL seals (R166, Table 6.5). -/
def endReleased (p : PlaneId) (pos c n : Nat) (s : State) : State :=
  match (getCtx s p pos c).bind (·.chunk n) with
  | some k =>
    if k.st = .released then
      (k.copies.filter (fun y => y.kind = 2 && !y.queued)).foldl (fun s y => finalOnly p pos c n y.dst s) s
    else s
  | none => s

/-- A copy receives its seal, and a release that waited for it is applied. -/
def sealCopy (p : PlaneId) (pos c n : Nat) (d : CopyDst) (s : State) : Option Cell × State :=
  let r := sealOne p pos c n d s
  (r.1, endReleased p pos c n r.2)

/-- Where the retained inputs and results of a context lie (R164, R165): the spec gives the RET banks but no placement in them, so that
the model packs the bindings in order of position and context. (DESIGN CHOICE, log 115) -/
def retBase (s : State) (p : PlaneId) (pos c : Nat) : Nat :=
  baseS + (partRange s p .ret).1 + (((s.pl p).ctxs.filter (fun e => decide (e.1 < ctxKey pos c))).map (fun e => e.2.retBytes)).sum

/-- Address of a chunk's retained inputs, and of its retained result. (DESIGN CHOICE, log 115) -/
def retInputs (s : State) (p : PlaneId) (pos c : Nat) (x : Ctx) (n : Nat) : Nat := retBase s p pos c + n % x.d * (x.retBytes / x.d)
def retResult (s : State) (p : PlaneId) (pos c : Nat) (x : Ctx) (n : Nat) : Nat := retInputs s p pos c x n + 256 * (x.m * x.chunkCells)

/-- Fail a chunk: every copy not yet sealed POSITIVE or FINAL receives a FINAL seal with the reason, those of the ports that have not
begun among them. `extra` are further copies that had not begun. (DEDUCED, log 30) -/
def failChunk (p : PlaneId) (pos c n reason : Nat) (extra : List CopyDst) (s : State) : State :=
  let s := endChunk p pos c n (fun (k : Chunk) =>
    let new : List Copy := ((k.expect.map CopyDst.port ++ extra).eraseDups.filter (fun d => !k.copies.any (·.dst = d))).map (fun d => { dst := d })
    let st : ChunkState := if k.st = .filling ∨ k.st = .closing then .failed else k.st
    let fl := if k.fail = 0 then reason else k.fail
    { k with fail := fl, copies := k.copies ++ new, expect := [], recompNeed := none, recompOn := none, st := st }.settle) s
  let open' : List CopyDst := match (getCtx s p pos c).bind (·.chunk n) with
    | some k => (k.copies.filter (fun y => (y.kind = 0 || y.kind = 2) && !y.queued)).map (·.dst)
    | none => []
  open'.foldl (fun s d => finalOnly p pos c n d s) s

/-- Every (position, context, chunk number) of a plane whose chunk meets a test. -/
def chunksWhere (s : State) (p : PlaneId) (f : Ctx → Chunk → Bool) : List (Nat × Nat × Nat) :=
  (s.pl p).ctxs.flatMap (fun e => (e.2.chunks.filter (f e.2)).map (fun k => (e.1 / 16, e.1 % 16, k.num)))

/-- The collective of a context is aborted (R175): every chunk of it that has not reached SEALED receives FINAL seals with
MISMATCH. A chunk still FILLING or CLOSING closes failed; a copy whose seal is still to come takes it then; one that waits
for a repair takes it now. -/
def abortColl (p : PlaneId) (g q midx digest : Nat) (s : State) : State :=
  if (getColl s p g q).aborted.isSome then s
  else
    let s := modColl p g q (fun c => { c with aborted := some (midx, digest) }) s
    (chunksWhere s p (fun x k => x.group = g && x.cseq = q && k.st ≠ .sealed && k.st ≠ .failed && k.st ≠ .released)).foldl
      (fun s e =>
        let s := endChunk p e.1 e.2.1 e.2.2 (fun (k : Chunk) => { k with fail := 7, recompNeed := none, recompOn := none }.settle) s
        let wait : List CopyDst := match (getCtx s p e.1 e.2.1).bind (·.chunk e.2.2) with
          | some k => (k.copies.filter (fun y => y.kind = 2 && !y.queued)).map (·.dst)
          | none => []
        wait.foldl (fun s d => finalOnly p e.1 e.2.1 e.2.2 d s) s) s

/-! ### Releases (R166) -/

/-- Withdraw a repair delivery of a copy from its port's queue. -/
def dropRepair (p : PlaneId) (pos c n : Nat) (d : CopyDst) (s : State) : State :=
  s.modPl p (fun x => { x with repairs := x.repairs.map (fun e =>
    (e.1, e.2.filter (fun r => !(r.pos = pos && r.ctx = c && r.chunk = n && r.dst = d)))) })

/-- The FINAL seal that answers a request for a chunk already released (R178): sent to the member's endpoint. -/
def answerReleased (p : PlaneId) (x : Ctx) (n ep : Nat) (s : State) : State :=
  issueFrame p { unit := pu p .GRQ, cls := 3, dests := [ep], tc := some (groupTc s p x.group), tag := resTag x n 0xFFF 0
                 cells := [sealPayload x { num := n } 3 0x0A 0] } s

/-- Requests that became visible in the beat of the release arrive after it (R181): their deliveries are taken back, and the answer to
each is a FINAL seal with RELEASED. -/
def dropRequests (p : PlaneId) (pos c n : Nat) (s : State) : State :=
  match getCtx s p pos c with
  | none => s
  | some x => match x.chunk n with
    | none => s
    | some k =>
      let now (y : Copy) : Bool := y.asked.any (fun a => a.1 = s.beats p)
      let back (y : Copy) : Copy := if now y then { y with queued := false, asked := none, attempt := y.attempt - 1, kind := 1, final := 0 } else y
      let k' : Chunk := { k with copies := k.copies.map back }
      if ({ k' with marked := true }.settle).st = .released then
        (k.copies.filter now).foldl (fun s y =>
          let s := dropRepair p pos c n y.dst s
          let mine (f : UnitFrame) : Bool := f.unit = posUnit s p pos && (match y.dst with
            | .endpoint ep _ => f.dests = [ep] && f.tag / 4096 = resTag x n 0 y.attempt / 4096
            | _ => false)
          answerReleased p x n (y.asked.elim 0 (·.2)) (s.modPl p (fun z => { z with unitFrames := z.unitFrames.filter (fun f => !mine f) })))
          (modChunk p pos c n (fun _ => k') s)
      else s

/-- Release a chunk, or mark it (R166). -/
def releaseChunk (p : PlaneId) (pos c n : Nat) (s : State) : State :=
  endReleased p pos c n (modChunk p pos c n (fun k => ({ k with marked := true }).settle) (dropRequests p pos c n s))

/-- A DISCARD releases the oldest closed chunk that is neither released nor marked. -/
def discardOldest (p : PlaneId) (pos c : Nat) (s : State) : State :=
  match getCtx s p pos c with
  | none => s
  | some x => match x.chunks.find? (fun k => k.held && !k.marked) with
    | some k => releaseChunk p pos c k.num s
    | none => s

/-! ### Opening (R160, R162) -/

/-- The clearing part of OPEN_CTX, or the first feed of a chunk: a new chunk, its elements cleared. A record of that number that the
context still has gives way to it; the members that delivered to it stay known (R212). (DEDUCED, log 71) -/
def openChunk (p : PlaneId) (pos c n : Nat) (bank : Option Nat) (s : State) : State :=
  modCtx p pos c (fun x =>
    let keep := x.chunks.filter (fun k => k.num ≠ n)
    let full := x.d ≤ (keep.filter (fun k => k.held || k.st = .closing)).length
    { x with chunks := keep ++ [{ num := n, bank := bank, overD := full, given := (x.chunk n).elim [] (·.delivered) }], lastIdx := n * x.elems,
             acc := List.replicate x.elems {} }) s

end Sys2Proof.Machine
end

