-- ==== Sys2Proof/Machine/CoreData.lean ====
section
/-! DEFINITION. Sys2Proof/Machine/CoreData.lean: collective cores as data: their state, their registers, the ACLK cycles of a
plane, and a halt (R185, R190, R221, R226). -/

namespace Sys2Proof.Machine

/-- Kinds of delayed operations of a core. -/
def opAdd : Nat := 0
def opSet : Nat := 1
def opRd : Nat := 2
def opArrive : Nat := 3
def opKey : Nat := 4
/-- SPLD, SPST, and a turn that QPOP or QDONE uses: `b` is the turn's cycle (R191). -/
def opSpld : Nat := 5
def opSpst : Nat := 6
def opTurn : Nat := 7

/-- A core beyond its CCX page. -/
def coreOf (s : State) (p : PlaneId) (n : Nat) : Core := mgetD (s.pl p).cores n {}

/-- Store a core. -/
def setCore (p : PlaneId) (n : Nat) (c : Core) (s : State) : State := s.modPl p (fun x => { x with cores := mput x.cores n c })

/-- Change a core. -/
def modCore (p : PlaneId) (n : Nat) (f : Core → Core) (s : State) : State := setCore p n (f (coreOf s p n)) s

/-- CCX_STAT.STATE: 0 HALTED, 1 RUNNING, 2 WAITING, 3 SAVING, 4 SAVED, 5 RESTORING. -/
def coreSt (s : State) (p : PlaneId) (n : Nat) : Nat := s.get (uCCX p n) Fld.CCX_STAT_STATE

/-- Set CCX_STAT.STATE. -/
def setCoreSt (p : PlaneId) (n v : Nat) (s : State) : State := s.put (uCCX p n) Fld.CCX_STAT_STATE v

/-- CCX_STAT.HCAUSE codes (Table 7.10). -/
def HCause.code : HCause → Nat
  | .reset => 0 | .halt => 1 | .trap => 2 | .wdog => 3 | .fence => 4 | .saveRej => 5

/-- A core halts with a cause, abandoning a wait (R226). -/
def haltCore (p : PlaneId) (n : Nat) (c : HCause) (s : State) : State :=
  let s := (setCoreSt p n 0 s).put (uCCX p n) Fld.CCX_STAT_HCAUSE c.code
  modCore p n (fun x => { x with wait := none }) s

/-- ACLK cycles in a slot at the setting in force (Table 7.3 kzslot). -/
def cyclesPerSlot (s : State) (p : PlaneId) : Nat :=
  match s.get (pu p .PLN) Fld.PLN_STATE_ACLK_NOW with
  | 0 => 40
  | 1 => 32
  | _ => 24

/-- The beat that contains the start of an ACLK cycle, counted from FT 0; each slot begins a cycle (R199). -/
def cycleBeat (cps c : Nat) : Nat := c / cps * 20 + c % cps * 20 / cps

/-- The first ACLK cycle that begins at or after the start of a beat. -/
def cycleFrom (cps b : Nat) : Nat := b / 20 * cps + (b % 20 * cps + 19) / 20

/-- The value of an integer register. -/
def Core.reg (c : Core) (r : Nat) : Dword := if r = 0 then 0 else mgetD c.x r 0

/-- Write an integer register; x0 discards writes. -/
def Core.setX (c : Core) (r : Nat) (v : Dword) : Core := if r = 0 then c else { c with x := mput c.x r v }

/-- A later instruction writes a register first: the result still to come for it is dropped. -/
def dropLateX (r : Nat) (c : Core) : Core := { c with ops := c.ops.map (fun o => if o.kind < opSpld ∧ o.rd = r then { o with rd := 0 } else o) }
def dropLateW (r : Nat) (c : Core) : Core := { c with ops := c.ops.map (fun o => if o.kind = opSpld ∧ o.rd = r then { o with rd := 32 } else o) }

/-- The value of a vector register. -/
def Core.vreg (c : Core) (r : Nat) : Vec := mgetD c.w r 0

/-- Write a vector register. -/
def Core.setW (c : Core) (r : Nat) (v : Vec) : Core := { c with w := mput c.w r v }

/-- Outstanding feeds of a core (R212). -/
def feedsOf (s : State) (p : PlaneId) (n : Nat) : Nat := ((s.pl p).feeds.filter (fun f => f.core = n)).length

/-- Cores of a plane are rebased when the count of ACLK cycles jumps, at a load of fabric time or a new ACLK setting (R32, R72, R80): the
next issue falls in the first cycle of the beat, mcycle goes on from its value, and what is due in a later beat stays as far off as it was
(R198, R201). `ft0` and `was` are the beat and its first cycle before. -/
def rebaseCores (p : PlaneId) (ft0 was : Nat) (s : State) : State :=
  let now := cycleFrom (cyclesPerSlot s p) (s.ft p)
  let ft := s.ft p
  let wait (w : CoreWait) : CoreWait :=
    { w with cyc := now, at' := ft - (ft0 - w.at'), deadline := w.deadline.map (fun d => ft + (d - ft0))
             met := w.met.map (fun m => if w.kind = 5 then (now, m.2) else (ft - (ft0 - m.1), m.2)) }
  let core (c : Core) : Core :=
    { c with ready := now + (c.ready - was), xr := [], wr := [], winAt := 0, retired := ft - (ft0 - c.retired), cycOff := c.cycOff + was - now, acct := now
             irqAt := c.irqAt.map (fun _ => now), xfers := c.xfers.map (fun x => { x with next := 0, last := now })
             ops := c.ops.map (fun o => if 5 ≤ o.kind then { o with at' := ft + (o.at' - ft0), b := now + (o.b - was) } else { o with at' := ft + (o.at' - ft0) })
             wait := c.wait.map wait }
  s.modPl p (fun x => { x with cores := x.cores.map (fun e => (e.1, core e.2)) })

end Sys2Proof.Machine
end

