-- ==== Sys2Proof/Machine/PortData.lean ====
section
/-! DEFINITION. Sys2Proof/Machine/PortData.lean: ports and lanes as the registers show them (R35, R117, R284, R307). -/

namespace Sys2Proof.Machine

/-- Configured width of the port whose lowest lane is `n`, in lanes. -/
def portWidth (s : State) (p : PlaneId) (n : Nat) : Nat := 2 ^ s.get (uFPT p n) Fld.FPT_CFG_WIDTH

/-- Whether the page of lane `n` configures a port. -/
def portPen (s : State) (p : PlaneId) (n : Nat) : Bool := s.on (uFPT p n) Fld.FPT_CFG_PEN

/-- FPT_STAT.STATE of a port: 0 DISABLED, 1 TRAINING, 2 DISCOVER, 3 UP, 4 QUARANTINE, 5 ABSENT, 6 FENCED, 7 NARROWING. -/
def portState (s : State) (p : PlaneId) (n : Nat) : Nat := s.get (uFPT p n) Fld.FPT_STAT_STATE

/-- The port that a lane belongs to. -/
def portOf (s : State) (p : PlaneId) (lane : Nat) : Option Nat :=
  [lane, lane / 2 * 2, lane / 4 * 4].find? (fun n => portPen s p n && decide (lane < n + portWidth s p n))

/-- The lanes of a port. -/
def portLanes (s : State) (p : PlaneId) (n : Nat) : List Nat := (List.range (portWidth s p n)).map (n + ·)

/-- Whether a port carries traffic. -/
def portUp (s : State) (p : PlaneId) (n : Nat) : Bool := portPen s p n && (portState s p n = 3 || portState s p n = 7)

/-- Whether a port carries link control messages (R303). -/
def portTalks (s : State) (p : PlaneId) (n : Nat) : Bool := portPen s p n && [2, 3, 4, 7].contains (portState s p n)

/-- Whether a lane is active (R117, R307): its port carries traffic and narrowing has not removed it. (DEDUCED, log 85) -/
def laneActive (s : State) (p : PlaneId) (lane : Nat) : Bool :=
  match portOf s p lane with
  | some n => portUp s p n && bit (s.get (uFPT p n) Fld.FPT_STAT_LANE_ACT) (lane - n)
  | none => false

/-- The port, or the lane itself where it belongs to none (R116). -/
def portOr (s : State) (p : PlaneId) (lane : Nat) : Nat := (portOf s p lane).getD lane

end Sys2Proof.Machine
end

