-- ==== Sys2Proof/Machine/KeyData.lean ====
section
/-! DEFINITION. Sys2Proof/Machine/KeyData.lean: key banks, lines and patterns as data, the plane state they give, and the end
of a key (R96 to R111, R121, R122, R184). -/

namespace Sys2Proof.Machine

/-! ### Banks -/

/-- KSQ_Bb_STAT.STATE of a bank: 0 EMPTY, 1 LOADING, 2 LOADED, 3 ARMED, 4 RUNNING, 5 PAUSED, 6 REJECTED, 7 DONE. -/
def bankSt (s : State) (p : PlaneId) (b : Nat) : Nat := s.get (pu p .KSQ) (Fld.KSQ_B_STAT_STATE.at b)

/-- Set a bank's state. -/
def setBankSt (p : PlaneId) (b v : Nat) (s : State) : State := s.put (pu p .KSQ) (Fld.KSQ_B_STAT_STATE.at b) v

/-- Set a bank's RCODE. -/
def setRcode (p : PlaneId) (b v : Nat) (s : State) : State := s.put (pu p .KSQ) (Fld.KSQ_B_STAT_RCODE.at b) v

/-- The bank's data. -/
def bankOfKey (s : State) (p : PlaneId) (b : Nat) : KeyBank := (s.pl p).keys.getD b {}

/-- Change a bank's data. -/
def modBank (p : PlaneId) (b : Nat) (f : KeyBank → KeyBank) (s : State) : State :=
  s.modPl p (fun x => { x with keys := [if b = 0 then f (x.keys.getD 0 {}) else x.keys.getD 0 {},
                                        if b = 0 then x.keys.getD 1 {} else f (x.keys.getD 1 {})] })

/-- ACTIVE_BANK and the standby bank. -/
def activeBank (s : State) (p : PlaneId) : Nat := s.get (pu p .KSQ) Fld.KSQ_STAT_ACTIVE_BANK
def standbyBank (s : State) (p : PlaneId) : Nat := 1 - activeBank s p

/-- The bank in a state, if one is. -/
def bankIn (s : State) (p : PlaneId) (v : Nat) : Option Nat :=
  if bankSt s p 0 = v then some 0 else if bankSt s p 1 = v then some 1 else none

/-- Whether a bank is LOADING, ARMED, RUNNING or PAUSED (R426). -/
def keyBusy (s : State) (p : PlaneId) : Bool :=
  let f (b : Nat) : Bool := let v := bankSt s p b; v = 1 || v = 3 || v = 4 || v = 5
  f 0 || f 1

/-- Set PLN_STATE.STATE, with the interrupt condition of its change (R30). -/
def setPlnState (p : PlaneId) (v : Nat) (s : State) : State :=
  if s.get (pu p .PLN) Fld.PLN_STATE = v then s else (s.put (pu p .PLN) Fld.PLN_STATE v).pulseBit (pu p .PLN) 1

/-- The plane state that the banks give (R121, R122): SCHEDULED, ARMED or ADAPTIVE; other states stay. -/
def syncPln (p : PlaneId) (s : State) : State :=
  let st := s.get (pu p .PLN) Fld.PLN_STATE
  if st = 2 ∨ st = 3 ∨ st = 4 then
    setPlnState p (if (bankIn s p 4).isSome then 4 else if (bankIn s p 3).isSome then 3 else 2) s
  else s

/-- UNIT_SEQ advances, with the interrupt condition of a change of the unit map (R30). -/
def unitChange (p : PlaneId) (s : State) : State := (s.inc (pu p .PLN) Fld.PLN_UNIT_SEQ).pulseBit (pu p .PLN) 0

/-! ### Lines -/

/-- Plane address of line `i` of a bank: the lines lie from the base of its partition in order (R97, R269). -/
def lineAddr (s : State) (p : PlaneId) (b i : Nat) : Nat :=
  baseS + (partRange s p (if b = 0 then .kb0 else .kb1)).1 + 64 * i

/-- A line's fields (Table 4.3). -/
structure Line where
  kind : Nat
  pat : Nat
  rep : Nat
  /-- SEAL of a RUN line, TARGET of a LOOP line. -/
  word1 : Nat
  tops : List Nat
  mops : List Nat
  sops : List Nat
  mark : Nat
  lchk : Nat
  /-- Bytes 25 to 27 and 60 to 61, which are reserved. -/
  rsvd : Nat
  deriving DecidableEq, Repr

/-- The fields of a line's bytes. -/
def parseLine (l : List Byte) : Line :=
  let w := ofBytes (sliceB l 0 4)
  { kind := bits w 3 0, pat := bits w 15 4, rep := bits w 31 16, word1 := ofBytes (sliceB l 4 4)
    tops := (sliceB l 8 17).map (·.toNat)
    mops := [28, 32, 36, 40].map (fun o => ofBytes (sliceB l o 4))
    sops := [44, 48, 52].map (fun o => ofBytes (sliceB l o 4))
    mark := ofBytes (sliceB l 56 4), lchk := ofBytes (sliceB l 62 2)
    rsvd := ofBytes (sliceB l 25 3 ++ sliceB l 60 2) }

/-- Line `i` of a bank, as the keyway reads it. -/
def readLine (s : State) (p : PlaneId) (b i : Nat) : Line := parseLine (memRead s p (lineAddr s p b i) 64)

/-- Whether a line's read fails LCHK or meets poison (R122). -/
def lineBad (s : State) (p : PlaneId) (b i : Nat) : Bool :=
  let a := lineAddr s p b i
  poisonedAt s p a 64 || crc16 (memRead s p a 62) ≠ (readLine s p b i).lchk

/-! ### Patterns -/

/-- Byte `i` of a pattern entry. -/
def patByte (d : Payload) (i : Nat) : Nat := (d.extractLsb' (8 * i) 8).toNat

/-- The entry used for a pattern number: its redirect where one is held; pattern 0 and an undefined pattern are all OPEN. -/
def patEntry (s : State) (p : PlaneId) (n : Nat) : Payload :=
  match mget (s.pl p).xpt n with
  | some e => match e.alt with
    | some a => ((mget (s.pl p).xpt a).map (·.data)).getD 0
    | none => e.data
  | none => 0

/-- The slots that each pattern still fills from where a bank stands, the passes of a loop counted (R102): pattern and slots. -/
def slotsAhead (s : State) (p : PlaneId) (b : Nat) : List (Nat × Nat) :=
  let k := bankOfKey s p b
  let ls := (List.range (k.lineCnt - k.line)).map (fun i => (k.line + i, readLine s p b (k.line + i)))
  let once := ls.filterMap (fun e => if e.2.kind = 0 then some (e.2.pat, if e.1 = k.line ∧ 0 < k.repLeft then k.repLeft else e.2.rep) else none)
  let again := ls.flatMap (fun e =>
    if e.2.kind = 1 then
      let left := if k.loopAt = some e.1 then k.loopLeft else e.2.rep - 1
      (List.range (e.1 - e.2.word1)).filterMap (fun j =>
        let l := readLine s p b (e.2.word1 + j)
        if l.kind = 0 then some (l.pat, left * l.rep) else none)
    else [])
  once ++ again

/-- The lanes of a port that a pattern names RESULT of a position. -/
def resultLanes (s : State) (p : PlaneId) (d : Payload) (pos q : Nat) : Nat :=
  ((List.range 128).filter (fun i => patByte d (128 + i) = 1 + pos && portOr s p i = q)).length

/-- The ports to which a key will still send result cells of a position, and how many (R105); `now` is the pattern of a slot that has
begun and whose egress is still to come. -/
def resultAhead (s : State) (p : PlaneId) (b pos : Nat) (now : Option Payload) : List (Nat × Nat) :=
  let u := now.toList.map (fun d => (d, 1)) ++ (slotsAhead s p b).map (fun e => (patEntry s p e.1, e.2))
  let ports := ((List.range 128).map (portOr s p)).eraseDups
  (ports.map (fun q => (q, (u.map (fun e => e.2 * resultLanes s p e.1 pos q)).sum))).filter (fun e => e.2 ≠ 0)

/-- The result stream that a port is sending of a position, if its chunk has cells left. (DEDUCED, log 26) -/
def streamOf (s : State) (p : PlaneId) (pos q : Nat) : Option ResStream := (s.pl p).streams.find? (fun r => r.pos = pos && r.port = q)

/-- Result cells of a stream's copy that are still to be sent. -/
def streamLeft (s : State) (p : PlaneId) (r : ResStream) : Nat :=
  match getCtx s p r.pos r.ctx with
  | some x => match x.chunk r.chunk with
    | some k => x.resCells - ((k.copies.find? (fun y => y.dst = .port r.port)).elim 0 (·.sent))
    | none => 0
  | none => 0

/-- Result cells of a position that a port sends before those of a chunk (R105): the rest of its stream, and the chunks that closed before
it. -/
def cellsBefore (s : State) (p : PlaneId) (pos : Nat) (k : Chunk) (q : Nat) : Nat :=
  (streamOf s p pos q).elim 0 (streamLeft s p) + ((ctxsOf s p pos).map (fun e =>
    (e.2.chunks.filter (fun j => j.bank = k.bank && j.num ≠ k.num && (k.st = .filling || decide (j.closeAt < k.closeAt) || (j.closeAt = k.closeAt && decide (j.num < k.num))) &&
      (j.st = .closing || (j.held && j.expect.contains q)))).length * e.2.resCells)).sum

/-- The ports to which the key sends a chunk that no port has begun: those with more result cells of its position ahead than earlier
chunks take (R105, R162). (DEDUCED, log 30) -/
def portsDue (s : State) (p : PlaneId) (pos : Nat) (k : Chunk) (now : Option Payload) : List Nat :=
  match k.bank with
  | some b =>
    if bankSt s p b = 4 ∨ bankSt s p b = 5 then
      ((resultAhead s p b pos now).filter (fun e => decide (cellsBefore s p pos k e.1 < e.2))).map (·.1)
    else []
  | none => []

/-! ### The end of a key -/

/-- END codes of Table 4.10. -/
def KeyEnd.code : KeyEnd → Nat
  | .done => 1 | .paused => 2 | .stopped => 3 | .ftLost => 4 | .corrupt => 5 | .refreshMiss => 6 | .order => 7 | .fenced => 8

/-- Insert by chunk number. -/
def insertChunk (e : Nat × Nat × Nat) : List (Nat × Nat × Nat) → List (Nat × Nat × Nat)
  | [] => [e]
  | x :: r => if e.2.2 < x.2.2 then e :: x :: r else x :: insertChunk e r

/-- The chunks of an ended key that are FILLING or CLOSING, and the copies whose scheduled seal slot has not come, receive FINAL seals with
ABORT, in increasing chunk number (R184). A copy that waits for a repair keeps it. (DEDUCED, log 30) -/
def abortKeyChunks (p : PlaneId) (b : Nat) (s : State) : State :=
  let l := (chunksWhere s p (fun _ k => k.bank = some b && k.st ≠ .released)).foldl (fun l e => insertChunk e l) []
  let due := l.map (fun (e : Nat × Nat × Nat) => (e, match (getCtx s p e.1 e.2.1).bind (·.chunk e.2.2) with
    | some k => (portsDue s p e.1 k none).map CopyDst.port
    | none => []))
  due.foldl (fun s (w : (Nat × Nat × Nat) × List CopyDst) =>
    let pos := w.1.1
    let c := w.1.2.1
    let n := w.1.2.2
    match (getCtx s p pos c).bind (·.chunk n) with
    | none => s
    | some k =>
      if k.st = .filling ∨ k.st = .closing then failChunk p pos c n 0x0B w.2 s
      else
        let new : List Copy := (k.expect.filter (fun q => !k.copies.any (·.dst = .port q))).map (fun q => { dst := .port q })
        let s := modChunk p pos c n (fun k => { k with copies := k.copies ++ new, expect := [] }) s
        let open' := (k.copies ++ new).filter (fun y => y.kind = 0 && !y.queued && (match y.dst with
          | .port _ => true
          | _ => false))
        open'.foldl (fun s y => finalOnly p pos c n y.dst (modChunk p pos c n (·.modCopy y.dst (Copy.endWith · 0x0B)) s)) s) s

/-- KEY contexts that a fenced core left bound are unbound when the running key ends (R405). -/
def dropOrphans (p : PlaneId) (s : State) : State :=
  s.modPl p (fun x => { x with ctxs := x.ctxs.filter (fun e => !e.2.orphan) })

/-- A key ends (R122): the end code and FT are recorded, the bank becomes DONE or PAUSED, and its slots are open. A key that
ends other than by END or a pause aborts its chunks. Any end but a fence begins the open interval before the
start of an armed key (R125). (DEDUCED, log 56) -/
def endKey (p : PlaneId) (b : Nat) (c : KeyEnd) (s : State) : State :=
  let u := pu p .KSQ
  let s := s.put u (Fld.KSQ_B_STAT_END.at b) c.code
  let s := s.put64 u (Fld.KSQ_B_END_LO_E_LO.at b) (Fld.KSQ_B_END_HI_E_HI.at b) (s.ft p)
  let s := setBankSt p b (if c = .paused then 5 else 7) s
  let s := modBank p b (fun k => { k with pauseAt := none, stop := none, ftLost := none, corrupt := false, endSlot := [], ahead := [] }) s
  let s := if c = .done ∨ c = .paused then s else abortKeyChunks p b s
  let s := if c = .paused then s else s.modPl p (fun x => { x with streams := [] })
  let s := if c = .fenced then s.modPl p (fun x => { x with sops := none }) else s
  let s := dropOrphans p s
  -- A channel that received fewer SCRUB steps than the patrol rate asks for (R112); one report for all of them (assumption log 112).
  let k := bankOfKey s p b
  let t := s.ft p - k.start.getD (s.ft p)
  let short (x : Nat) : Bool := mapNames k.memMap x && decide (mgetD k.scrubs (if x < 6 ∧ mirrored s p then x / 2 * 2 else x) 0 < t / 262144)
  let s := if (List.range 7).any short then report u 3 .c 0 0 s else s
  let arm := bankSt s p (1 - b) = 3
  let s := if arm ∧ c ≠ .fenced then s.put u Fld.KSQ_STAT_SWAP_WIN 1 else s
  let s := if arm ∧ c ≠ .fenced ∧ bit (bankOfKey s p (1 - b)).flags 1 then
    s.modPl p (fun x => { x with swapLow := some (s.ft p, (bankOfKey s p (1 - b)).start) }) else s
  syncPln p s

/-- An ARMED bank returns to LOADED, or to PAUSED when it was being resumed, with a code (R119, R120, R121, R127). -/
def disarm (p : PlaneId) (b rcode : Nat) (s : State) : State :=
  let k := bankOfKey s p b
  let s := setRcode p b rcode (setBankSt p b (if k.resumed then 5 else 2) s)
  let s := modBank p b (fun k => { k with viaLatch := none, start := if k.resumed then k.start else none, resumed := false, ahead := [] }) s
  let s := (s.put (pu p .KSQ) Fld.KSQ_STAT_SWAP_WIN 0).modPl p (fun x => { x with swapLow := none })
  syncPln p (if rcode = 0x10 then s.incSat (pu p .KSQ) Fld.KSQ_STAT_LATE_CNT else s)

/-- The key ends with a code at the end of the slot of this beat (R122): of the slot that begins in it, where one does. -/
def endAtSlot (p : PlaneId) (b code : Nat) (s : State) : State :=
  modBank p b (fun k => { k with endSlot := k.endSlot ++ [(code, if k.nextSlot ≤ s.ft p then k.nextSlot + 20 else k.nextSlot)] }) s

/-- A bank whose key has ended in this beat with another code than FENCED. -/
def endedNow (s : State) (p : PlaneId) (b : Nat) : Bool :=
  let u := pu p .KSQ
  let c := s.get u (Fld.KSQ_B_STAT_END.at b)
  (bankSt s p b = 5 || bankSt s p b = 7) && c ≠ 0 && c ≠ 8 && s.get64 u (Fld.KSQ_B_END_LO_E_LO.at b) (Fld.KSQ_B_END_HI_E_HI.at b) = s.ft p

/-- A fence ends the running key, and in the beat of another end its code is the one recorded (R122). -/
def fenceKey (p : PlaneId) (s : State) : State :=
  match bankIn s p 4 with
  | some b => endKey p b .fenced s
  | none =>
    match ([0, 1] : List Nat).find? (endedNow s p) with
    | some b => (endKey p b .fenced ((s.put (pu p .KSQ) Fld.KSQ_STAT_SWAP_WIN 0).modPl p (fun x => { x with swapLow := none })))
    | none => s

/-- A reaction ends the running key (Table 14.2): at the line boundary, at the end of the slot, or for a fence at once. A
loss of fabric time also returns an ARMED key (R121). -/
def endRunningKey (p : PlaneId) (c : KeyEnd) (s : State) : State :=
  let s := if c = .ftLost then
    match bankIn s p 3 with
    | some b => disarm p b 0x13 s
    | none => s else s
  if c = .fenced then fenceKey p s
  else match bankIn s p 4 with
  | none => s
  | some b => match c with
    | .ftLost => modBank p b (fun k => { k with ftLost := some (s.ft p) }) s
    | .corrupt => modBank p b (fun k => { k with corrupt := true }) s
    | .refreshMiss => endAtSlot p b 6 s
    | .stopped => modBank p b (fun k => { k with stop := some (s.ft p) }) s
    | _ => s

/-- GAP_HIT is set (R113). -/
def setGapHit (p : PlaneId) (s : State) : State := s.put (pu p .KSQ) Fld.KSQ_STAT_GAP_HIT 1

/-- Free the patterns a bank owns (R111, R114). -/
def freePatterns (p : PlaneId) (b : Nat) (s : State) : State :=
  s.modPl p (fun x => { x with xpt := x.xpt.filter (fun e => ¬ (e.2.owner = b)) })

end Sys2Proof.Machine
end

