-- ==== Sys2Proof/Machine/Fences.lean ====
section
/-! DEFINITION. Sys2Proof/Machine/Fences.lean: the fence actions of Table 14.6 and the lifts of its last column, and the other
reactions of Table 14.2 that act on one unit (R404 to R407). -/

namespace Sys2Proof.Machine

/-- The causes of Table 14.5 that are faults of the unit itself: FAULT, ESCALATED, REPORT, START, LANES. -/
def faultCause (c : Nat) : Bool := c = 2 || c = 3 || c = 5 || c = 7 || c = 8

/-- A hasp closes with a cause, where it is open. CAUSE records the fault where a FENCE_REQ closed the hasp in the same beat (R402). -/
def closeHasp (u cause : Nat) (s : State) : State :=
  let t := unitBeat s u
  let r := s.rp u
  let s1 :=
    if s.fenced u then
      if faultCause cause ∧ s.get u Fld.BLK_FENCE_CAUSE = 1 ∧ r.askedAt = some t then s.put u Fld.BLK_FENCE_CAUSE cause else s
    else
      let s := (s.put u Fld.BLK_FENCE_FENCED 1).put u Fld.BLK_FENCE_CAUSE cause
      if cause = 1 then s.modRp u (fun r => { r with askedAt := some t }) else s
  if faultCause cause then s1.modRp u (fun r => { r with hitAt := some t }) else s1

/-- A hasp opens: the unit's block is reset first (R407), so that its log and counters start anew. -/
def openHasp (u : Nat) (keep : List Nat) (s : State) : State :=
  { (s.eraseRegs u keep) with rep := mdel s.rep u, pulse := mdel s.pulse u }

/-! ### Ports and chiplets -/

/-- The FPT pages that a fence of lane `n` closes (R309): those of the whole port it belongs to, or its own. -/
def portPages (s : State) (p : PlaneId) (n : Nat) : List Nat :=
  match portOf s p n with
  | some q => portLanes s p q
  | none => [n]

/-- An event of a port's beat begins: its pages are kept as they were before the first event of the beat (R308). -/
def noteEvent (p : PlaneId) (n : Nat) (s : State) : State :=
  let l := mgetD (s.pl p).fab.links n {}
  if l.saved.any (fun e => e.beat = s.beats p) then s
  else
    let pages : List PageSave := (portPages s p n).map (fun i => { unit := uFPT p i, regs := mgetD s.regs (uFPT p i) [], rep := s.rp (uFPT p i) })
    s.modPl p (fun x => { x with fab := { x.fab with links := mput x.fab.links n { l with saved := some { beat := x.ftm.beats, pages := pages } } } })

/-- A hasp closes in the beat of other events of its port: those are ignored, and the port's pages are as before them (R308). -/
def undoEvents (p : PlaneId) (n : Nat) (s : State) : State :=
  match (mgetD (s.pl p).fab.links (portOr s p n) {}).saved with
  | some e =>
    if e.beat = s.beats p then e.pages.foldl (fun s x => { s with regs := mput s.regs x.unit x.regs, rep := mput s.rep x.unit x.rep }) s else s
  | none => s

/-- A port is fenced (Table 14.6, R309): every page of it reads FENCED, its state is FENCED, its lanes are inactive and its link is
down. -/
def shutPort (p : PlaneId) (n c : Nat) (s : State) : State :=
  let s1 := (portPages s p n).foldl (fun t i => closeHasp (uFPT p i) c t) s
  match portOf s p n with
  | some q => ((s1.put (uFPT p q) Fld.FPT_STAT_STATE 6).put (uFPT p q) Fld.FPT_STAT_LANE_ACT 0).modPl p
      (fun x => { x with fab := { x.fab with links := mdel x.fab.links q } })
  | none => s1

/-- A port's hasp closes: no other event of the beat counts (R308). -/
def fencePort (p : PlaneId) (n c : Nat) (s : State) : State := shutPort p n c (undoEvents p n s)

/-- A lift of a port, named by the unit of any lane of it (R309): it becomes DISABLED, its log and counters reset; its plan
registers stay. -/
def liftPort (p : PlaneId) (n : Nat) (s : State) : State :=
  let q := portOr s p n
  let keep := [0x040, 0x044, 0x048, 0x04C, 0x100, 0x104, 0x108, 0x10C, 0x110, 0x114, 0x118, 0x11C]
  let s := (portPages s p n).foldl (fun t i => openHasp (uFPT p i) keep t) s
  let s := (s.put (uFPT p q) Fld.FPT_CFG_PEN 0).put (uFPT p q) Fld.FPT_STAT_STATE 0
  s.modPl p (fun x => { x with repairs := mdel x.repairs q, fab := { x.fab with links := mdel x.fab.links q } })

/-- A SerDes chiplet is fenced: every port with a lane on it is fenced with CAUSE PARENT. -/
def fenceChiplet (p : PlaneId) (n c : Nat) (s : State) : State :=
  if s.fenced (uSDS p n) then closeHasp (uSDS p n) c s
  else
    let s := closeHasp (uSDS p n) c s
    (List.range 64).foldl (fun s i =>
      let l := 64 * n + i
      if (portOf s p l).getD l = l then fencePort p l 4 s else s) s

/-- A lift of a chiplet: the ports fenced with it become DISABLED and train again on PEN. -/
def liftChiplet (p : PlaneId) (n : Nat) (s : State) : State :=
  let s := openHasp (uSDS p n) [] s
  (List.range 64).foldl (fun s i =>
    let u := uFPT p (64 * n + i)
    if s.fenced u && s.get u Fld.BLK_FENCE_CAUSE = 4 then liftPort p (64 * n + i) s else s) s

/-! ### Slices -/

/-- A slice is fenced (R123, R182, R406): it becomes UNUSABLE; a spare whose ROLE is SPARE stands in for the position it served,
whose FILLING and CLOSING chunks will be recomputed; without one every chunk of the position not yet SEALED fails with FAULT.
Recomputes that ran on the slice start again. -/
def fenceSlice (p : PlaneId) (n c : Nat) (s : State) : State :=
  let u := uTMB p n
  if s.fenced u then closeHasp u c s
  else
    let role := sliceRole s p n
    let pos := if role = 2 then s.get u Fld.TMB_STAT_FOR_POS else n
    let s := ((closeHasp u c s).put u Fld.TMB_STAT_ROLE 3).put u Fld.TMB_STAT_FOR_POS 0x1F
    let act := s.get (pu p .PLN) Fld.PLN_UNIT_SLICE_SLICE_ACT
    let s := s.put (pu p .PLN) Fld.PLN_UNIT_SLICE_SLICE_ACT (act &&& (0x1FFFF - 2 ^ n))
    let s := s.modPl p (fun x => { x with ctxs := x.ctxs.map (fun e => (e.1, { e.2 with chunks := e.2.chunks.map (fun k =>
      match k.recompOn with
      | some (_, g) => if g = n then { k with recompOn := none } else k
      | none => k) })) })
    let s := match (if role = 1 ∨ role = 3 then none else spareSlice s p) with
      | some sp =>
        let s := (s.put (uTMB p sp) Fld.TMB_STAT_ROLE 2).put (uTMB p sp) Fld.TMB_STAT_FOR_POS pos
        let act := s.get (pu p .PLN) Fld.PLN_UNIT_SLICE_SLICE_ACT
        let s := (s.put (pu p .PLN) Fld.PLN_UNIT_SLICE_SLICE_ACT (act ||| 2 ^ sp)).put (pu p .PLN) Fld.PLN_UNIT_SLICE_SPARE_IDX 0x1F
        s.modPl p (fun x => { x with ctxs := x.ctxs.map (fun e =>
          if e.1 / 16 = pos then (e.1, { e.2 with chunks := e.2.chunks.map (fun k =>
            if k.st = .filling ∨ k.st = .closing then { k with takeover := true } else k) }) else e) })
      | none =>
        if role = 1 then s.put (pu p .PLN) Fld.PLN_UNIT_SLICE_SPARE_IDX 0x1F
        else if role = 3 then s
        else (chunksWhere s p (fun _ k => k.st ≠ .sealed && k.st ≠ .released && k.st ≠ .failed)).foldl (fun s e =>
          if e.1 = pos then
            let ports := ((getCtx s p e.1 e.2.1).bind (·.chunk e.2.2)).elim [] (fun k => if k.held then [] else portsDue s p pos k none)
            failChunk p e.1 e.2.1 e.2.2 6 (ports.map CopyDst.port) s
          else s) s
    if role = 3 then s else unitChange p s

/-! ### Memory -/

/-- An F-tier channel is fenced (R254, R255): its FMC_ACT bit clears. The loss of a channel of a mirrored pair is reported as FMC_DIMM,
which is what fences it already where the cause is a reaction or the start-up checks. -/
def fenceChannel (p : PlaneId) (n c : Nat) (s : State) : State :=
  if s.fenced (uFMC p n) then closeHasp (uFMC p n) c s
  else
    let s := if mirrored s p ∧ ([1, 3, 5] : List Nat).contains c then logFault (uFMC p n) .FMC 5 .u n 0 s else s
    let s := closeHasp (uFMC p n) c s
    let act := s.get (pu p .PLN) Fld.PLN_UNIT_MEM_FMC_ACT
    unitChange p (s.put (pu p .PLN) Fld.PLN_UNIT_MEM_FMC_ACT (act &&& (0x3F - 2 ^ n)))

/-- A physical scratchpad bank is fenced (R268): its PLN_UNIT_SPM bit clears, and it reads as poisoned. -/
def fenceBank (p : PlaneId) (b : Nat) (s : State) : State :=
  if b < 64 ∧ bankActive s p b then
    let f := if b < 32 then Fld.PLN_UNIT_SPM_LO_BANK_ACT_LO else Fld.PLN_UNIT_SPM_HI_BANK_ACT_HI
    let s := s.put (pu p .PLN) f (s.get (pu p .PLN) f &&& (2 ^ 32 - 1 - 2 ^ (b % 32)))
    unitChange p (s.modPl p (fun x => { x with fencedBanks := insertNat b x.fencedBanks }))
  else s

/-- An uncorrectable error poisons the granule that the log names (R265). -/
def poisonWhere (p : PlaneId) (addr : Nat) (s : State) : State := markPoison p addr s

/-- A plane's memory contents are lost (R409, R426). -/
def loseMemory (p : PlaneId) (s : State) : State :=
  s.modPl p (fun x => { x with mem := [], poison := [], latent := [], stageTags := [], written := [], stageBad := [], stagePoison := [] })

/-! ### Cores -/

/-- The contexts of a fenced core (R405): FEED contexts fail with ABORT, are released and unbound; KEY contexts stay bound until
the running key ends. -/
def dropCoreCtxs (p : PlaneId) (n : Nat) (s : State) : State :=
  let running := (bankIn s p 4).isSome
  let s := (chunksWhere s p (fun x k => x.core = n && x.feed && k.st ≠ .sealed && k.st ≠ .released)).foldl
    (fun s e => failChunk p e.1 e.2.1 e.2.2 0x0B [] s) s
  s.modPl p (fun x => { x with
    feeds := x.feeds.filter (fun f => f.core ≠ n)
    ctxs := (x.ctxs.filter (fun e => !(e.2.core = n && (e.2.feed || !running)))).map (fun e =>
      if e.2.core = n then (e.1, { e.2 with orphan := true }) else e) })

/-- A collective core is fenced: halted with HCAUSE FENCE, its CC_ACT bit cleared (R405). -/
def fenceCore (p : PlaneId) (n c : Nat) (s : State) : State :=
  if s.fenced (uCCX p n) then closeHasp (uCCX p n) c s
  else
    let s := haltCore p n .fence (closeHasp (uCCX p n) c s)
    let act := s.get (pu p .PLN) Fld.PLN_UNIT_MEM_CC_ACT
    unitChange p (dropCoreCtxs p n (s.put (pu p .PLN) Fld.PLN_UNIT_MEM_CC_ACT (act &&& (0xFFFF - 2 ^ n))))

/-- A lift of a core: its block is reset and the core becomes HALTED. -/
def liftCore (p : PlaneId) (n : Nat) (s : State) : State :=
  let s := (openHasp (uCCX p n) [] s).modPl p (fun x => { x with cores := mdel x.cores n })
  unitChange p (s.put (pu p .PLN) Fld.PLN_UNIT_MEM_CC_ACT (s.get (pu p .PLN) Fld.PLN_UNIT_MEM_CC_ACT ||| 2 ^ n))

/-- A plane's management cores are fenced: they halt (Table 14.6). -/
def fenceMgc (p : PlaneId) (c : Nat) (s : State) : State := (closeHasp (pu p .MGC) c s).put (pu p .MGC) Fld.MGC_STAT_RUNNING 0

/-- A lift of the management cores: the block is reset; hub firmware starts them with RUN. -/
def liftMgc (p : PlaneId) (s : State) : State := (openHasp (pu p .MGC) [] s).put (pu p .MGC) Fld.MGC_STAT_RUNNING 0

/-! ### Planes and hubs -/

/-- A plane is fenced: the running key ends FENCED, STATE is FENCED, cores and management cores halt, ports idle, and every
block whose hasp was open shows CAUSE PARENT (DEADBOLT in that state). -/
def fencePlane (p : PlaneId) (c : Nat) (s : State) : State :=
  let on := s.domOn (4 + 7 * p.val)
  if s.planeFenced p ∨ ¬ on then (if on then closeHasp (pu p .PLN) c s else s)
  else
    let s := endRunningKey p .fenced s
    let s := closeHasp (pu p .PLN) c s
    let s := (planeUnits p).foldl (fun s u => closeHasp u (if c = 6 then 6 else 4) s) s
    let s := (List.range 16).foldl (fun s n => haltCore p n .fence s) s
    let s := s.put (pu p .MGC) Fld.MGC_STAT_RUNNING 0
    let s := (List.range 128).foldl (fun s n => if portPen s p n then (s.put (uFPT p n) Fld.FPT_STAT_STATE 6).put (uFPT p n) Fld.FPT_STAT_LANE_ACT 0
      else s) s
    setPlnState p 6 s

/-- A hub link shows its state: a closed one stays closed (R33), another is up with its plane's CORE domain. -/
def showLink (h : HubId) (p : PlaneId) (s : State) : State :=
  let shut := (s.hub h).closed.contains p.val
  (s.put (hu h .HUB) (Fld.HUB_LINK_STAT_CLOSED.at p.val) (b2n shut)).put (hu h .HUB) (Fld.HUB_LINK_STAT_UP.at p.val)
    (b2n (!shut && s.domOn (4 + 7 * p.val)))

/-- A hub link is closed (Table 14.6). -/
def closeHubLink (h : HubId) (p : Nat) (s : State) : State :=
  ((s.put (hu h .HUB) (Fld.HUB_LINK_STAT_CLOSED.at p) 1).put (hu h .HUB) (Fld.HUB_LINK_STAT_UP.at p) 0).modHub h
    (fun x => { x with closed := if x.closed.contains p then x.closed else x.closed ++ [p] })

/-- A hub is fenced (Table 14.6): every block of it shows CAUSE PARENT but the HUB block, the lease held through it ends, its
mailboxes are lost, its ALIVE output stays low. -/
def fenceHub (h : HubId) (c : Nat) (s : State) : State :=
  if s.hubFenced h then closeHasp (hu h .HUB) c s
  else
    let s := (hubUnits h).foldl (fun s u => closeHasp u 4 s) (closeHasp (hu h .HUB) c s)
    let code := h.num + 1
    let s := if s.get (hu .a .PCI) Fld.PCI_LEASE_HOLDER = code then
      let t := (s.put (hu .a .PCI) Fld.PCI_LEASE_HOLDER 0).put (hu .b .PCI) Fld.PCI_LEASE_HOLDER 0
      let mark (t : State) (x : HubId) : State := t.modHub x (fun y => { y with pci := { y.pci with holderChg := true } })
      { mark (mark t .a) .b with lease := { t.lease with low := false } } else s
    let s := { s with mbx := s.mbx.filter (fun e => ¬ (e.1 / 128 = h.num)) }
    s.modHub h (fun x => { x with alive := .stopped, aliveLevel := false, wdog := [] })

/-- A drain that fails leaves the plane ISOLATED (R335). -/
def isolatePlane (p : PlaneId) (s : State) : State := s.put (pu p .RTE) Fld.RTE_STAT_STATE 0

/-- LOCKED ends without a reference or source (Table 3.2): the plane enters HOLDOVER. -/
def enterHoldover (p : PlaneId) (s : State) : State :=
  ((s.put (pu p .FTM) Fld.FTM_STAT_STATE 4).put (pu p .PLN) Fld.PLN_STATE_FT_LOCKED 1).modPl p
    (fun x => { x with ftm := { x.ftm with holdSince := x.ftm.beats } })

end Sys2Proof.Machine
end

