-- ==== Sys2Proof/Machine/Faults.lean ====
section
/-! DEFINITION. Sys2Proof/Machine/Faults.lean: the detection of a fault (R393): logging, escalation (R399), the reaction of
Table 14.2 and the entry into the deadbolt state (R408, R409). -/

namespace Sys2Proof.Machine

/-- Entry into the deadbolt state (R408, R409): the record, every plane's hasp closed with CAUSE DEADBOLT, every wake-up
request withdrawn, the service ports down, plane memory lost. Nothing leaves this state. -/
def enterDeadbolt (unit source path : Nat) (s : State) : State :=
  match s.dead with
  | some _ => s
  | none =>
    let ft := unitFt s unit
    let word := unit + 2 ^ 16 * source + 2 ^ 24 * path + 2 ^ 31
    let mark (s : State) (h : HubId) : State :=
      ((((s.put (hu h .FCL) Fld.FCL_STAT_DEADBOLT 1).setReg (hu h .FCL) 0x058 (BitVec.ofNat 32 word)).put64 (hu h .FCL)
        Fld.FCL_FATAL_FT_LO Fld.FCL_FATAL_FT_HI ft)).put (hu h .SVC) Fld.SVC_STAT_LINK_UP 0
    let s := { s with dead := some { record := ⟨unit, source, path, ft⟩, at' := ⟨(s.hub .a).beat, (s.hub .b).beat⟩ } }
    let s := mark (mark s .a) .b
    let s := s.put (hu .a .PWR) Fld.PWR_DOM_PEND 0
    ([0, 1, 2, 3] : List PlaneId).foldl (fun s p => loseMemory p (fencePlane p 6 s)) s

/-- A collector's view of a unit. -/
def view (s : State) (h : HubId) (u : Nat) : UnitView := mgetD (s.hub h).views u {}

/-- A detection is logged (R393). A fault that raises CLASS to F is kept for its report; one of a collector itself is visible there at once
(R408). (DEDUCED, log 93) -/
def logOrDead (u : Nat) (b : Blk) (d : Detection) (s : State) : State :=
  let base := logBase s u
  let before := settleLog s u b base (detectedNow s u)
  let t := logDetection u b d s
  if before.held ≠ 3 ∧ (logNow t u).held = 3 then
    let f := (fatalOf s u b base (detectedNow t u)).getD d
    let t := t.modRp u (fun r => { r with fatalSrc := f.src, fatalPath := f.path })
    if b = .FCL then enterDeadbolt u f.src f.path t else t
  else t

/-- The hasp of a plane's unit closes (R404): a block without a row of its own in Table 14.6 fences its whole plane. -/
def fencePlaneUnit (p : PlaneId) (u cause : Nat) (s : State) : State :=
  match planeBlk (u % 256) with
  | some (.FPT, n) => fencePort p n cause s
  | some (.TMB, n) => fenceSlice p n cause s
  | some (.FMC, n) => fenceChannel p n cause s
  | some (.CCX, n) => fenceCore p n cause s
  | some (.MGC, _) => fenceMgc p cause s
  | some (.SDS, n) => fenceChiplet p n cause s
  | _ => fencePlane p cause s

/-- A hasp would close on the hub that alone is left: it stays open, its collector reports HUB_BOTH, and the module enters the deadbolt
state (R408). -/
def hubBoth (h : HubId) (s : State) : State :=
  enterDeadbolt (hu h .FCL) 3 2 (logFault (hu h .FCL) .FCL 3 .f (hu h .HUB) 0 s)

/-- The units whose report pair to a collector is broken. -/
def brokenUnits (s : State) (h : HubId) : List Nat := ((s.hub h).views.filter (fun e => !e.2.pairOk)).map (·.1)

/-- The other hub has just been fenced: the units whose pair to this hub is broken are lost (R396). They are reported once, in one beat,
and their hasps close with CAUSE REPORT. -/
def loseUnits (h : HubId) (s : State) : State :=
  match brokenUnits s h with
  | [] => s
  | u :: r =>
    let lose (s : State) (v : Nat) : State := match unitPlane v with
      | some p => fencePlaneUnit p v 5 s
      | none => if unitHub v = some h then hubBoth h s else closeHasp v 5 s
    (u :: r).foldl lose (logOrDead (hu h .FCL) .FCL { src := 2, cls := .u, loc := u, detail := 0 } s)

/-- A hub's hasp closes (Table 14.6, R404). While the other hub is already fenced this hub stays open and its collector
reports HUB_BOTH, which is the deadbolt state (R408). -/
def fenceHubOrBoth (h : HubId) (cause : Nat) (s : State) : State :=
  if s.hubFenced h then closeHasp (hu h .HUB) cause s
  else if s.hubFenced h.other then hubBoth h s
  else loseUnits h.other (fenceHub h cause s)

/-- The hasp of the unit that a FENCE_REQ or a reaction names closes (R404): a block without a row of its own in Table
14.6 fences its whole plane or hub. -/
def fenceUnit (u cause : Nat) (s : State) : State :=
  match unitPlane u with
  | some p => fencePlaneUnit p u cause s
  | none => match unitHub u with
    | some h => fenceHubOrBoth h cause s
    | none => s

/-- A hub that loses the peer connection would close the other's hasp (R398): the other's HUB unit is lost or reports class F at its own
collector. -/
def peerCondemns (s : State) (h : HubId) : Bool :=
  let v := view s h (hu h.other .HUB)
  !v.pairOk || v.cls = 3

/-- A hub's connection to the other has been silent for 192 beats, as it has still to find. -/
def peerSilent (s : State) (h : HubId) : Bool :=
  s.on (hu h .HUB) Fld.HUB_PEER_PEER_OK && decide ((s.hub h).peerAt + 192 < (s.hub h).beat)

/-- HUB_PEER (R398): the peer connection is lost. A hub that condemns the other closes its hasp; when both would in one beat, only Hub B's
closes. -/
def losePeer (h : HubId) (s : State) : State :=
  let yields := h = .b && peerSilent s .a && peerCondemns s .a
  let t := (s.put (hu h .HUB) Fld.HUB_PEER_PEER_OK 0).put (hu h .FCL) Fld.FCL_STAT_PEER_OK 0
  if peerCondemns s h ∧ ¬ yields then fenceHubOrBoth h.other 2 t else t

/-- The reaction of Table 14.2 that belongs to the source itself. `wh` is the WHERE of the log. The reactions that act on
one cell, chunk or frame are carried out by the meaning that finds the fault. -/
def react (u : Nat) (b : Blk) (src : Nat) (cls : FaultClass) (wh detail : Nat) (s : State) : State :=
  match unitPlane u with
  | some p =>
    match b, src with
    | .FTM, 1 => if s.get (pu p .FTM) Fld.FTM_STAT_STATE = 3 then enterHoldover p s else s
    | .FTM, 2 => if s.get (pu p .FTM) Fld.FTM_STAT_STATE = 3 then enterHoldover p s else s
    | .FTM, 3 => endRunningKey p .ftLost s
    | .KSQ, 1 => endRunningKey p .corrupt s
    | .KSQ, 2 => endRunningKey p .refreshMiss s
    | .KSQ, 4 => setGapHit p s
    | .TMB, 4 => fenceSlice p (u % 256 - 0x20) 7 s
    | .TMB, 7 => fenceSlice p (u % 256 - 0x20) 2 s
    | .SPM, 2 => poisonWhere p (wh + 2 ^ 32 * detail) s
    | .SPM, 3 => fenceBank p wh s
    | .NMC, 2 => poisonWhere p (wh + 2 ^ 32 * detail) s
    | .NMC, 5 => fencePlane p 2 s
    | .FMC, 2 => poisonWhere p (wh + 2 ^ 32 * detail) s
    | .FMC, 5 => fenceChannel p (u % 256 - 0x38) 2 s
    | .SDS, 1 => fenceChiplet p (u % 256 - 0x3E) 2 s
    | .RTE, 7 => isolatePlane p s
    | .CCX, 2 => haltCore p (u % 256 - 0x40) .wdog s
    | .MGC, _ => if cls = .u ∨ src = 2 then fenceMgc p 2 s else s
    | .PLN, _ => fencePlane p 2 s
    | _, _ => s
  | none => match unitHub u with
    | some h =>
      match b, src with
      | .HUB, 1 => closeHubLink h (wh % 4) s
      | .HUB, 2 => losePeer h s
      | .HUB, 3 => fenceHubOrBoth h 2 s
      | .FCL, 2 => fenceUnit wh 5 s
      | .PWR, 2 => if 4 ≤ wh ∧ wh < 32 then fencePlane ⟨(wh - 4) / 7 % 4, Nat.mod_lt _ (by decide)⟩ 2 s else s
      | _, _ => s
    | none => s

/-- A block detects a fault (R393): it is logged, the reaction is carried out in the same beat, and two class C faults that escalate close
the hasp of the source's fence unit with CAUSE ESCALATED (R399). (DESIGN CHOICE, log 24) (DEDUCED, log 93) -/
def detectFault (u : Nat) (d : Detection) (s : State) : State :=
  match unitBlk u with
  | none => s
  | some (b, _) =>
    let t := logOrDead u b d s
    let toU := d.cls = .c ∧ (settleLog s u b (logBase s u) (detectedNow s u)).held = 1 ∧ (logNow t u).held = 2
    let t := react u b d.src d.cls d.loc d.detail t
    if toU then fenceUnit u 3 t else t

/-- A block detects a fault of its own. -/
def detect (u src : Nat) (cls : FaultClass) (wh detail : Nat) (s : State) : State :=
  detectFault u { src := src, cls := cls, loc := wh, detail := detail } s

/-- The class a source has when no Table 14.2 row gives it a choice (its first class). -/
def firstClass : Blk → Nat → FaultClass
  | .FTM, 3 => .u | .FTM, _ => .c
  | .KSQ, 1 => .u | .KSQ, 2 => .u | .KSQ, _ => .c
  | .XPT, 1 => .c | .XPT, _ => .u
  | .TMB, 2 => .c | .TMB, _ => .u
  | .SPM, 1 => .c | .SPM, _ => .u
  | .NMC, 1 => .c | .NMC, _ => .u
  | .FMC, 1 => .c | .FMC, _ => .u
  | .FPT, _ => .c
  | .RTE, 7 => .u | .RTE, _ => .c
  | .SWC, 2 => .c | .SWC, _ => .u
  | .CCX, 1 => .c | .CCX, _ => .u
  | .MGC, 1 => .c | .MGC, _ => .u
  | .FCL, 1 => .c | .FCL, 3 => .f | .FCL, _ => .u
  | .PWR, 1 => .c | .PWR, 3 => .f | .PWR, _ => .u
  | .KPL, _ => .f
  | _, _ => .u

/-- Whether an environment can show a fault of this source at this class (Table 14.2). -/
def classAllowed (b : Blk) (src : Nat) (cls : FaultClass) (wh : Nat) : Bool :=
  assigned b src && (cls = firstClass b src ||
    (cls = .u && ((b = .TMB && src = 2) || (b = .FPT && src = 2) || (b = .CCX && src = 1) || (b = .MGC && src = 1))) ||
    (cls = .f && b = .PWR && src = 2 && wh < 4)) && !(b = .PWR && src = 2 && cls = .u && (wh < 4 || 32 ≤ wh))

end Sys2Proof.Machine
end

