-- ==== Sys2Proof/Machine/MemCore.lean ====
section
/-! DEFINITION. Sys2Proof/Machine/MemCore.lean: writes to plane memory, poisoning, and what an injected memory fault strikes
(R180, R254, R264 to R267). -/

namespace Sys2Proof.Machine

/-- A collective in progress in the group whose collective wrote a granule ends with FAILED_AFTER_USE, for the chunk that the granule
belongs to (R180): the first that is popped and not completed. -/
def endAfterUse (p : PlaneId) (g chunk : Nat) (s : State) : State :=
  match (mgetD (s.pl p).groups g {}).popped with
  | [] => s
  | (q, _) :: _ => modColl p g q (fun c => { c with afterUse := insertNat chunk c.afterUse }) s

/-- An error is found in a granule that a SEALED chunk wrote: RDX_AFTER_USE (R180). -/
def afterUse (p : PlaneId) (addr : Nat) (s : State) : State :=
  let hit := (s.pl p).written.filter (fun e => e.1 = granuleOf addr)
  if addr < baseS ∧ hit ≠ [] then
    hit.foldl (fun s e => endAfterUse p e.2.1 e.2.2.2 s) (report (poisonUnit s p addr) 4 .u (addr % 2 ^ 32) (addr / 2 ^ 32) s)
  else s

/-- Poison the granule of an address (R265). -/
def poisonGranule (p : PlaneId) (addr : Nat) (s : State) : State := afterUse p addr (markPoison p addr s)

/-- The instance that memory events of an address count under: the target, by its own block. -/
def memInst (s : State) (p : PlaneId) (addr : Nat) : Option Nat := targetOf s p addr

/-- Count the granules of a range as read (Table 16.1 MEM_RD). -/
def countReads (p : PlaneId) (addr n : Nat) (s : State) : State :=
  (List.range ((addr + n + 255) / 256 - addr / 256)).foldl (fun s i => match memInst s p (addr / 256 * 256 + 256 * i) with
    | some t => s.event p 0x0F t 1
    | none => s) s

/-- Write part of one granule (R254, R267): a lost target's write is discarded and counted; so is a write that covers only
part of a poisoned granule; a write of the whole granule clears its
poison, but not that of a POISON command of the same beat. Answers whether it was discarded. -/
def storeGranule (p : PlaneId) (addr : Nat) (d : List Byte) (s : State) : Bool × State :=
  let g := granuleOf addr
  let lost := targetLost s p addr || (decide (baseS ≤ addr) && (s.pl p).fencedBanks.contains (bankOf s p addr))
  let marked := (s.pl p).poison.contains g
  let whole := d.length = granule addr
  if lost ∨ (marked ∧ ¬ whole) then
    let u := poisonUnit s p addr
    -- SPM_POISON_CNT counts granules poisoned only (Table 9.7).
    (true, if u = pu p .SPM then s else s.incSat u Fld.FMC_POISON_CNT_PCNT)
  else
    (false, ((memInst s p addr).elim s (fun t => s.event p 0x10 t 1)).modPl p (fun x => { x with
      mem := memPuts x.mem addr d, poison := if marked ∧ ¬ (x.poisonNow.1 = x.ftm.beats ∧ x.poisonNow.2.contains g) then x.poison.erase g else x.poison
      stageTags := if x.stageTags = [] then [] else mdel x.stageTags (addr / 256 * 256), latent := x.latent.erase g, written := x.written.filter (fun e => e.1 ≠ g) }))

/-- Write bytes to plane memory granule by granule; `fuel` bounds the granules. Answers whether any part was discarded. -/
def storeParts (p : PlaneId) : Nat → Nat → List Byte → Bool × State → Bool × State
  | 0, _, _, r => r
  | fuel + 1, addr, d, r =>
    if d = [] then r
    else
      let n := granule addr - addr % granule addr
      let q := storeGranule p addr (d.take n) r.2
      storeParts p fuel (addr + n) (d.drop n) (r.1 || q.1, q.2)

/-- Write bytes to plane memory. Answers whether any part met poison. -/
def memStore (p : PlaneId) (addr : Nat) (d : List Byte) (s : State) : Bool × State := storeParts p (d.length / 128 + 2) addr d (false, s)

/-- Write bytes to plane memory. -/
def memWrite (p : PlaneId) (addr : Nat) (d : List Byte) (s : State) : State := (memStore p addr d s).2

/-- A corrected error of a DRAM granule (R264): it is reported, and the stored copy keeps it while a key schedules the target. -/
def corrected (p : PlaneId) (addr : Nat) (s : State) : State :=
  let held := keyHolds s p addr
  let g := granuleOf addr
  detect (poisonUnit s p addr) 1 .c (addr % 2 ^ 32) (addr / 2 ^ 32)
    (s.modPl p (fun x => { x with latent := if held then insertNat g x.latent else x.latent.erase g }))

/-- One granule of plane memory is read and checked (R263): an injected D fault strikes the first access to the block after its injection
(R417), and a correctable error that a granule still holds is corrected again (R264). (DESIGN CHOICE, log 54) (DESIGN CHOICE, log 92) -/
def memTouch (p : PlaneId) (addr : Nat) (s : State) : State :=
  let u := poisonUnit s p addr
  match (s.rp u).corrupt with
  | none => if (s.pl p).latent.contains (granuleOf addr) && keyHolds s p addr then corrected p addr s else s
  | some src =>
    let s := s.modRp u (fun r => { r with corrupt := none })
    if src = 1 then corrected p addr s
    else afterUse p addr (detect u 2 .u (granuleOf addr % 2 ^ 32) (granuleOf addr / 2 ^ 32) s)

/-- The memories of a plane that an injected fault waits in. -/
def memArmed (s : State) (p : PlaneId) : Bool :=
  (s.pl p).latent ≠ [] || (pu p .SPM :: (List.range 7).map (fun t => if t = 6 then pu p .NMC else uFMC p t)).any (fun u => (s.rp u).corrupt.isSome)

/-- Every granule of a range is read and checked (R263). -/
def memTouchAll (p : PlaneId) (addr n : Nat) (s : State) : State :=
  if memArmed s p then
    let g := granule addr
    (List.range ((addr + n + g - 1) / g - addr / g)).foldl (fun s i => memTouch p (max addr (addr / g * g + i * g)) s) s
  else s

/-- PARTNER_LOST, SCHED and the rest of a controller's status that other state decides (Table 9.6). -/
def fmcStat (s : State) (p : PlaneId) (t : Nat) (w : Word) : Word :=
  let w := fieldSet w Fld.FMC_STAT_SCHED (b2n (mapNames (runningMemMap s p) t))
  if t < 6 ∧ mirrored s p then fieldSet w Fld.FMC_STAT_PARTNER_LOST (b2n (s.fenced (uFMC p (t ^^^ 1)))) else w

/-- The target whose refresh and budget a channel shares: with mirroring its pair's lower channel (R256). -/
def targetKey (s : State) (p : PlaneId) (t : Nat) : Nat := if t < 6 ∧ mirrored s p then t / 2 * 2 else t

/-- The state of a target. -/
def tgt (s : State) (p : PlaneId) (t : Nat) : Target := mgetD (s.pl p).tgts t {}

/-- Beats since the start of the last refresh round of a target (R259). -/
def sinceRef (s : State) (p : PlaneId) (t : Nat) : Nat := s.beats p - (tgt s p (targetKey s p t)).lastRef

/-- Change a target. -/
def modTgt (p : PlaneId) (t : Nat) (f : Target → Target) (s : State) : State :=
  s.modPl p (fun x => { x with tgts := mput x.tgts t (f (mgetD x.tgts t {})) })

/-- The block of a target. -/
def tgtUnit (p : PlaneId) (t : Nat) : Nat := if t = 6 then pu p .NMC else uFMC p t

/-- Whether a target serves accesses: its block has power, is not fenced and is READY. -/
def tgtReady (s : State) (p : PlaneId) (t : Nat) : Bool :=
  s.powered (tgtUnit p t) && !s.fenced (tgtUnit p t) && s.on (tgtUnit p t) Fld.FMC_STAT_READY

/-- Base and bytes of a target's region. -/
def tgtRegion (s : State) (p : PlaneId) (t : Nat) : Nat × Nat := if t = 6 then (0, popN) else (baseF, popF s p)

/-- The patrol pointer of a target. -/
def patrolPtr (s : State) (p : PlaneId) (t : Nat) : Nat := s.get64 (tgtUnit p t) Fld.FMC_PATROL_LO_PTR_LO Fld.FMC_PATROL_HI_PTR_HI

/-- The patrol pointer 256 bytes on, from the top of the populated range to its base (R260). (DEDUCED, log 118) -/
def patrolNext (s : State) (p : PlaneId) (t a : Nat) : Nat :=
  let (b, n) := tgtRegion s p t
  if a + 256 < b + n then a + 256 else b

/-- One patrol-scrub step (R260, R264): the granule at the pointer is read and checked, a correctable error of its stored copy is written
back, and the pointer advances. -/
def scrubStep (p : PlaneId) (t : Nat) (s : State) : State :=
  let a := patrolPtr s p t
  let s := (memTouch p a s).modPl p (fun x => { x with latent := x.latent.erase (granuleOf a) })
  let s := s.put64 (tgtUnit p t) Fld.FMC_PATROL_LO_PTR_LO Fld.FMC_PATROL_HI_PTR_HI (patrolNext s p t a)
  modTgt p t (fun x => { x with lastPatrol := s.beats p }) s

/-- PATROL_STEP: a controller steps its patrol while no key schedules the target and PATROL_EN is 1, once in 262,144 beats
(R260). -/
def execPatrolStep (p : PlaneId) (t : Fin 7) (s : State) : Out :=
  if tgtReady s p t.val ∧ s.on (tgtUnit p t.val) Fld.FMC_CFG_PATROL_EN ∧ ¬ mapNames (runningMemMap s p) t.val ∧
      (tgt s p t.val).lastPatrol + 262144 ≤ s.beats p then .next (scrubStep p t.val s)
  else .next s

/-- CTRL_REFRESH: a controller begins a round 3,000 beats after the start of the round before it, on a target that no key
schedules; a round that fell due while a key held the target begins once it no longer does (R259). -/
def execCtrlRefresh (p : PlaneId) (t : Fin 7) (s : State) : Out :=
  let k := targetKey s p t.val
  if tgtReady s p t.val ∧ ¬ mapNames (runningMemMap s p) t.val ∧ (tgt s p k).lastRef + 3000 ≤ s.beats p then
    .next (modTgt p k (fun x => { x with lastRef := s.beats p }) s)
  else .next s

/-- The checks of NMC and FMC writes (R276). -/
def fmcVerdict (s : State) (p : PlaneId) (t off : Nat) (v : Word) : Verdict :=
  if off = 0x068 ∧ v.getLsbD 0 then
    let a := s.get64 (tgtUnit p t) Fld.FMC_PADDR_LO Fld.FMC_PADDR_HI
    let (b, n) := tgtRegion s p t
    let mine : Bool := t = 6 || (match targetOf s p a with
      | some c => c = t || (mirrored s p && c + 1 = t)
      | none => false)
    { range := a % 256 ≠ 0, bounds := !(b ≤ a && a < b + n && mine) }
  else {}

/-- A write of POISON poisons the granule at PADDR (R267). -/
def fmcEffect (p : PlaneId) (t off : Nat) (v : Word) (s : State) : State :=
  if off = 0x068 ∧ v.getLsbD 0 then
    let a := s.get64 (tgtUnit p t) Fld.FMC_PADDR_LO Fld.FMC_PADDR_HI
    poisonGranule p a s
  else s

/-! ### The scratchpad's partition (R272) -/

/-- What blocks an APPLY that belongs to other blocks. -/
def ringsFit (s : State) (p : PlaneId) (gq : Nat) : Bool :=
  (s.pl p).groups.all (fun e => !e.2.en || (e.2.qbase + 128 * e.2.qent ≤ gq * bankBytes && e.2.cbase + 128 * e.2.cent ≤ gq * bankBytes &&
    e.2.mbase + 4 * e.2.mcount ≤ gq * bankBytes))

end Sys2Proof.Machine
end

