-- ==== Sys2Proof/Machine/SyncCore.lean ====
section
/-! DEFINITION. Sys2Proof/Machine/SyncCore.lean: the values of the sync objects and their updates (R201 to R203). -/

namespace Sys2Proof.Machine

/-- The delayed operations of a kind set that are due in this beat, in increasing core number, with their core. -/
def dueOps (s : State) (p : PlaneId) (f : CoreOp → Bool) : List (Nat × CoreOp) :=
  (s.pl p).cores.flatMap (fun e => (e.2.ops.filter (fun o => f o && decide (o.at' ≤ s.ft p))).map (fun o => (e.1, o)))

/-- An update of a sync object in this beat, with its place among those of the beat (R202): 1 + e for the release of entry e, 65 + n for core
n, 81 for a register write. -/
def SyncUpd.applyTo (v : Word) (u : SyncUpd) : Word := if u.set then u.val else v + u.val

/-- Keep the updates of a beat in the order of R202; those of one place stay in their order of arrival. -/
def insertUpd (u : SyncUpd) : List SyncUpd → List SyncUpd
  | [] => [u]
  | x :: r => if u.rank < x.rank then u :: x :: r else x :: insertUpd u r

/-- The updates of this beat: those made, and the SADD and SSET of cores that fall due in it. -/
def syncLog (s : State) (p : PlaneId) : List SyncUpd :=
  (dueOps s p (fun o => o.kind = opAdd || o.kind = opSet)).foldl (fun l e =>
    insertUpd { rank := 65 + e.1, obj := e.2.a % 4096, set := e.2.kind = opSet, val := BitVec.ofNat 32 e.2.b } l) (s.pl p).syncLog

/-- An object's value before the updates of a beat. -/
def syncBase (s : State) (p : PlaneId) (i : Nat) : Word := mgetD (s.pl p).syncs (i % 4096) 0

/-- An object's value after the updates made in this beat whose place is at most one (R202). -/
def syncBefore (s : State) (p : PlaneId) (i rank : Nat) : Word :=
  ((s.pl p).syncLog.filter (fun u => u.obj = i % 4096 && decide (u.rank ≤ rank))).foldl SyncUpd.applyTo (syncBase s p i)

/-- The value of a sync object (R201, R202): 0 after plane reset; an update is visible in the beat in which it is applied. -/
def syncVal (s : State) (p : PlaneId) (i : Nat) : Word :=
  ((syncLog s p).filter (fun u => u.obj = i % 4096)).foldl SyncUpd.applyTo (syncBase s p i)

/-- An update of a sync object, in its place among those of this beat. -/
def syncUpdate (p : PlaneId) (rank i : Nat) (set : Bool) (v : Word) (s : State) : State :=
  (s.event p 0x17 0xFF 1).modPl p (fun x => { x with syncLog := insertUpd { rank := rank, obj := i % 4096, set := set, val := v } x.syncLog })

/-- Store a value before the updates of this beat. -/
def syncPut (i : Nat) (v : Word) (l : SMap Word) : SMap Word := if v = 0 then mdel l (i % 4096) else mput l (i % 4096) v

/-- The end of a beat: its updates are in the objects. -/
def syncCommit (p : PlaneId) (s : State) : State :=
  s.modPl p (fun x => { x with
    syncs := x.syncLog.foldl (fun m u => syncPut u.obj (SyncUpd.applyTo (mgetD m u.obj 0) u) m) x.syncs, syncLog := [] })

/-- A sync-object operation of a key line, before every other update of its beat (R202). -/
def syncSop (p : PlaneId) (i : Nat) (set : Bool) (v : Word) (s : State) : State :=
  (s.event p 0x17 0xFF 1).modPl p (fun x => { x with syncs := syncPut i (if set then v else mgetD x.syncs (i % 4096) 0 + v) x.syncs })

/-- A value meets a target (R203): their difference, as a signed 32-bit number, is not negative. -/
def syncMet (v target : Word) : Bool := !(v - target).msb

end Sys2Proof.Machine
end

