-- ==== Sys2Proof/Machine/WriteCore.lean ====
section
/-! DEFINITION. Sys2Proof/Machine/WriteCore.lean: the record a block keeps of its rejected and accepted writes (R52), the
check order of Table 2.3, and how an accepted value meets the access types of a register (R12, R54). -/

namespace Sys2Proof.Machine

/-- REJ_CODE of a rejection (Table 2.3). -/
def RejCode.code : RejCode → Nat
  | .width => 0x8 | .unmapped => 0x9 | .busy => 0x7 | .fenced => 0x6 | .state => 0x5 | .reserved => 0x1
  | .range => 0x2 | .zero => 0x3 | .bounds => 0x4

/-- A rejected write sets REJ, counts, and records its code and offset when REJ was 0 (R52). -/
def reject (u off : Nat) (c : RejCode) (s : State) : State :=
  let first := !s.on u Fld.BLK_STAT_REJ
  let s := (s.put u Fld.BLK_STAT_REJ 1).incSat u Fld.BLK_STAT_REJ_CNT
  if first then (s.put u Fld.BLK_STAT_REJ_CODE c.code).put u Fld.BLK_STAT_REJ_OFF (off % 4096) else s

/-- The first condition of Table 2.3 that fails, in its checking order. -/
def firstReject (width unmapped busy fenced : Bool) (v : Verdict) (reserved : Bool) : Option RejCode :=
  if width then some .width
  else if unmapped then some .unmapped
  else if busy then some .busy
  else if fenced then some .fenced
  else if v.state then some .state
  else if reserved then some .reserved
  else if v.range then some .range
  else if v.zero then some .zero
  else if v.bounds then some .bounds
  else none

/-- OR of the masks of the fields with an access type. -/
def accMask (fs : List RField) (p : Acc → Bool) : Word := fs.foldl (fun w f => if p f.acc then w ||| f.mask else w) 0

/-- Bits of a register that no field covers: reserved (R12). -/
def reservedMask (fs : List RField) : Word := ~~~ accMask fs (fun a => a ≠ .res)

/-- The value range and zero checks that the Meaning cells state (R57, Table 2.3). -/
def legalVerdict (fs : List RField) (v : Word) : Verdict :=
  fs.foldl (fun a f =>
    let x := fieldGet v f
    match f.legal with
    | .le n => { a with range := a.range || decide (n < x) }
    | .between b t => { a with range := a.range || decide (x < b ∨ t < x) }
    | .count => { a with zero := a.zero || x = 0 }
    | .countLe t => { a with zero := a.zero || x = 0, range := a.range || decide (t < x) }
    | _ => a) {}

/-- Both verdicts together. -/
def Verdict.or (a b : Verdict) : Verdict := ⟨a.state || b.state, a.range || b.range, a.zero || b.zero, a.bounds || b.bounds⟩

/-- A written value with the current value in the place of every locked field: what the checks of a block judge (R54). -/
def unlockedValue (fs : List RField) (locked : Bool) (old v : Word) : Word :=
  if locked then let m := accMask fs (fun a => a = .rwl); (old &&& m) ||| (v &&& ~~~m) else v

/-- The stored value after an accepted write (R12, R54): RW takes the value, RWL as well until LOCK is set, W1C clears the
bits written 1, everything else keeps its value. -/
def mergeWrite (fs : List RField) (locked : Bool) (old v : Word) : Word :=
  let rw := accMask fs (fun a => a = .rw || (a = .rwl && !locked))
  let w1c := accMask fs (fun a => a = .w1c)
  ((old &&& ~~~rw) ||| (v &&& rw)) &&& ~~~(w1c &&& v)

/-- A write carries, for a locked RWL field, a value other than the current one (R54). -/
def lockHit (fs : List RField) (locked : Bool) (old v : Word) : Bool :=
  locked && fs.any (fun f => f.acc = .rwl && fieldGet old f ≠ fieldGet v f)

end Sys2Proof.Machine
end

