-- ==== Sys2Proof/Machine/CoreCtl.lean ====
section
/-! DEFINITION. Sys2Proof/Machine/CoreCtl.lean: collective cores apart from their instructions: the sync objects' delayed
updates, waits, transfers, messages, save and restore, the watchdog and the CCX and SYN registers (R191, R198 to R206, R220 to
R226). -/

namespace Sys2Proof.Machine

/-! ### Sync objects (R201, R202, R204) -/

/-- rd of a status and a value (R196). -/
def statusVal (code value : Nat) : Dword := BitVec.ofNat 64 (code % 256 + 2 ^ 32 * (value % 2 ^ 32))

/-- Take an operation off its core's list. -/
def dropOp (p : PlaneId) (n : Nat) (o : CoreOp) (s : State) : State := modCore p n (fun c => { c with ops := c.ops.erase o }) s

/-- A delayed sync-object operation of a core is done: SADD and SSET return the value just before their own update, SRD the value after every
update of the beat (R202). -/
def runSyncOp (p : PlaneId) (e : Nat × CoreOp) (s : State) : State :=
  let o := e.2
  let old := if o.kind = opRd then syncVal s p o.a else syncBefore s p o.a (65 + e.1)
  let s := if o.kind = opRd then s else syncUpdate p (65 + e.1) o.a (o.kind = opSet) (BitVec.ofNat 32 o.b) s
  modCore p e.1 (fun c => { c with ops := c.ops.erase o }.setX o.rd (statusVal 0 old.toNat)) s

/-- The delayed sync-object operations of this beat are done, SADD and SSET in increasing core number and SRD after every update; the
updates of the beat are then in the objects (R202). -/
def flushSync (p : PlaneId) (s : State) : State :=
  let s := (dueOps s p (fun o => o.kind = opAdd || o.kind = opSet)).foldl (fun s e => runSyncOp p e s) s
  syncCommit p ((dueOps s p (fun o => o.kind = opRd)).foldl (fun s e => runSyncOp p e s) s)

/-- The object that a SYN register names: page times 256 plus its index. -/
def synObj (off : Nat) : Nat := 256 * (off / 4096) + off % 1024 / 4

/-- The effects of SYN writes (R204). -/
def synEffect (p : PlaneId) (off : Nat) (v : Word) (s : State) : State :=
  let o := off % 4096
  if 0x400 ≤ o ∧ o < 0x800 then syncUpdate p 81 (synObj off) true v s
  else if 0x800 ≤ o ∧ o < 0xC00 then syncUpdate p 81 (synObj off) false v s
  else s

/-- SYN_OBJ reads the object; SYN_ADD, write-only, reads 0. -/
def synRead (s : State) (p : PlaneId) (off : Nat) : Option Word :=
  let o := off % 4096
  if 0x400 ≤ o ∧ o < 0x800 then some (syncVal s p (synObj off)) else if 0x800 ≤ o ∧ o < 0xC00 then some 0 else none

/-! ### Waits (R198, R199, R203) -/

/-- Whether a group has a descriptor that its serving core can pop (R216, R230). -/
def grpWaiting (g : Group) : Bool := g.en && g.prod ≠ g.cons

/-- The lowest group of a core with a descriptor waiting. -/
def queueReady (s : State) (p : PlaneId) (n : Nat) : Option Nat :=
  ((s.pl p).groups.find? (fun e => e.2.core = n && grpWaiting e.2)).map (·.1)

/-- Whether a wait's condition holds now, and its value (R198, R199). -/
def waitHolds (s : State) (p : PlaneId) (n : Nat) (w : CoreWait) : Option Nat :=
  match w.kind with
  | 1 => let v := syncVal s p w.arg
         if syncMet v (BitVec.ofNat 32 w.target) then some v.toNat else none
  | 2 => queueReady s p n
  | 3 => if (coreOf s p n).inbox ≠ [] then some 0 else none
  | 4 => if w.target ≤ s.ft p then some 0 else none
  | _ => if (coreOf s p n).xfers.length ≤ w.arg then some 0 else none

/-- A wait may still succeed in this beat. -/
def CoreWait.live (w : CoreWait) (now : Nat) : Bool :=
  match w.deadline with
  | none => true
  | some d => decide (now ≤ d)

/-- The value a wait that times out returns: SWAIT returns the object. -/
def timeoutValue (s : State) (p : PlaneId) (w : CoreWait) : Nat := if w.kind = 1 then (syncVal s p w.arg).toNat else 0

/-- The end of a beat: a wait whose condition holds for the first time by its deadline succeeds (R198). -/
def markWait (p : PlaneId) (n : Nat) (s : State) : State :=
  match (coreOf s p n).wait with
  | none => s
  | some w =>
    if w.met.isSome ∨ ¬ w.live (s.ft p) then s
    else
      -- What a SWAIT that times out returns is the object in its last beat (R198).
      let s := if w.deadline = some (s.ft p) then modCore p n (fun c => { c with wait := some { w with lapse := some (timeoutValue s p w) } }) s else s
      match waitHolds s p n w with
      | some v =>
        let at' := if w.kind = 5 then cycleFrom (cyclesPerSlot s p) (s.ft p + 1) - 1 else s.ft p
        modCore p n (fun c => { c with wait := some { w with met := some (at', v) } }) s
      | none => s

/-- Mark every waiting core of a plane. -/
def markWaits (p : PlaneId) (s : State) : State := (List.range 16).foldl (fun s n => markWait p n s) s

/-- The ACLK cycle in which a successful wait retires (R198, R199). -/
def retireCycle (cps : Nat) (w : CoreWait) (met : Nat) : Nat :=
  if w.kind = 5 then max met w.cyc + 1
  else if w.kind = 4 then (if w.target ≤ w.at' then w.cyc + 1 else cycleFrom cps w.target)
  else cycleFrom cps (met + 1)

/-- A wait ends in a cycle with a status and a value: rd is written, and the next instruction issues there (after 16 more cycles
for MRECV). -/
def endWait (p : PlaneId) (n : Nat) (w : CoreWait) (cyc code value : Nat) (s : State) : State :=
  let s := modCore p n (fun c =>
    let msg : Option CoreMsg := if w.kind = 3 ∧ code = 0 then c.inbox.head? else none
    let value := match msg with
      | some m => m.srcMod + 65536 * m.core
      | none => value
    let ls := match msg with
      | some m => memPuts c.ls w.arg (payloadBytes m.data)
      | none => c.ls
    let inbox := if msg.isSome then c.inbox.tail else c.inbox
    let ready := cyc + (if w.kind = 3 then 16 else 0)
    let c' : Core := { c with
      wait := none, ls := ls, inbox := inbox, pc := c.pc + 4, ready := ready, retired := s.ft p, acct := cyc
      csr := mput c.csr 0xB02 (mgetD c.csr 0xB02 0 + 1) }
    (dropLateX w.rd c').setX w.rd (statusVal code value)) s
  let first := max w.cyc (cycleFrom (cyclesPerSlot s p) (s.ft p))
  let s := (List.range (cyc - first)).foldl (fun t i => t.coreEvent p n 0x43 (first + i) 1) s
  let s := ((s.coreEvent p n 0x41 cyc 1).coreEvent p n 0x42 cyc 1).coreEvent p n (if code = 0 then 0x102 else 0x101) cyc (cyc - w.cyc)
  let s := if code = 0 ∧ w.kind ≤ 3 then s.sample p 6 n (s.ft p - w.at') else s
  let s := if w.kind = 1 ∧ code ≠ 0 then s.incSat (pu p .SYN) Fld.SYN_STAT_TMO_CNT else s
  setCoreSt p n 1 s

/-- WAIT_RETIRE: the awaited condition has held by the deadline, and the wait retires in the cycle that R198 or R199 gives. -/
def execWaitRetire (p : PlaneId) (n : CoreId) (s : State) : Out :=
  match (coreOf s p n.val).wait with
  | none => .next s
  | some w =>
    let cps := cyclesPerSlot s p
    let hit : Option (Nat × Nat) := if w.kind = 4 then (if w.target ≤ s.ft p then some (0, 0) else none) else w.met
    match hit with
    | none => .next s
    | some (m, v) =>
      let cyc := retireCycle cps w m
      if coreSt s p n.val = 2 ∧ cycleBeat cps cyc ≤ s.ft p then .next (endWait p n.val w cyc 0 v s) else .next s

/-- WAIT_TIMEOUT: the wait ends with TIMEOUT at the start of beat D + 1 (R198). -/
def execWaitTimeout (p : PlaneId) (n : CoreId) (s : State) : Out :=
  match (coreOf s p n.val).wait with
  | none => .next s
  | some w => match w.deadline with
    | none => .next s
    | some d =>
      if coreSt s p n.val = 2 ∧ w.met.isNone ∧ d < s.ft p then
        .next (endWait p n.val w (cycleFrom (cyclesPerSlot s p) (d + 1)) 0x10 (w.lapse.getD (timeoutValue s p w)) s)
      else .next s

/-! ### Transfers (R191, R206) -/

/-- Bytes of a core's local store. -/
def lsRead (s : State) (p : PlaneId) (n a k : Nat) : List Byte := memBytes (coreOf s p n).ls a k

/-- An injected or found error of the local store strikes a read (R190, R417): 0 none, 1 corrected, 2 uncorrectable. -/
def lsStrike (p : PlaneId) (n a k : Nat) (s : State) : Nat × State :=
  let u := uCCX p n
  match (s.rp u).corrupt with
  | none => (0, s)
  | some x =>
    let word := x / 512
    if word = 0 ∨ (a / 8 < word ∧ word ≤ (a + k - 1) / 8 + 1) then
      let s := s.modRp u (fun r => { r with corrupt := none })
      let at' := if word = 0 then a / 8 * 8 else (word - 1) * 8
      if bit x 8 then (2, detect u 1 .u at' 0 s) else (1, detect u 1 .c at' 0 s)
    else (0, s)

/-- The first turn of a core at or after a cycle. -/
def turnFrom (n c : Nat) : Nat := c + (n % 8 + 8 - c % 8) % 8

/-- Turns that a transfer takes: two for each part of SP_TO_SP, one otherwise; none for one through the memory controllers. -/
def Xfer.onTurns (x : Xfer) : Bool := x.kind = 0 || x.kind = 1 || x.kind = 4
def Xfer.parts (x : Xfer) : Nat := x.len / 128

/-- Move one 128-byte part of a transfer; a poisoned source part is not moved. Answers whether it met poison. An uncorrectable error of the
local store poisons the granule that its bytes go to. (DESIGN CHOICE, log 57) (DESIGN CHOICE, log 116) -/
def movePart (p : PlaneId) (n : Nat) (x : Xfer) (i : Nat) (s : State) : Bool × State :=
  let a := x.src + 128 * i
  let d := x.dst + 128 * i
  if x.kind = 0 then
    let e := lsStrike p n a 128 s
    let w := memStore p d (memBytes (coreOf e.2 p n).ls a 128) e.2
    (w.1, if e.1 = 2 then poisonGranule p d w.2 else w.2)
  else
    let s := memTouchAll p a 128 s
    if poisonedAt s p a 128 then (true, s)
    else if x.kind = 1 then
      let b := memRead s p a 128
      (false, countReads p a 128 (modCore p n (fun c => { c with ls := memPuts c.ls d b }) s))
    else memStore p d (memRead s p a 128) (countReads p a 128 s)

/-- The first unfinished transfer and its place. -/
def headXfer (c : Core) : Option (Nat × Xfer) := (c.xfers.zipIdx.find? (fun e => decide (e.1.done < e.1.parts))).map (fun e => (e.2, e.1))

/-- Replace a transfer. -/
def setXfer (p : PlaneId) (n i : Nat) (x : Xfer) (s : State) : State := modCore p n (fun c => { c with xfers := c.xfers.set i x }) s

/-- The first turn at or after a cycle that no operation of the core of certain kinds has taken. -/
def openTurn (n : Nat) (c : Core) (f : CoreOp → Bool) (cyc : Nat) : Nat :=
  let taken := (c.ops.filter f).map (·.b)
  let t := turnFrom n cyc
  t + 8 * ((List.range (taken.length + 1)).findIdx (fun k => !taken.contains (t + 8 * k)))

/-- The first turn at or after a cycle that no SPLD, SPST, QPOP or QDONE of the core has taken. -/
def freeTurn (n : Nat) (c : Core) (cyc : Nat) : Nat := openTurn n c (fun o => decide (opSpld ≤ o.kind)) cyc

/-- Move the parts whose turns have come by a cycle, in issue order. -/
def advanceXfers (p : PlaneId) (n upto : Nat) : Nat → State → State
  | 0, s => s
  | fuel + 1, s =>
    match headXfer (coreOf s p n) with
    | none => s
    | some (i, x) =>
      if !x.onTurns then s
      else
        let c := coreOf s p n
        let prev := match c.xfers[i - 1]? with
          | some y => if 0 < i then y.last + 1 else 0
          | none => 0
        let next := if x.next = 0 then freeTurn n c (max prev (x.last + 1)) else x.next
        if upto < next then (if x.next = 0 then setXfer p n i { x with next := next } s else s)
        else
          let r := movePart p n x x.done s
          let last := if x.kind = 4 then freeTurn n c (next + 8) else next
          let r := (r.1, (if x.kind = 4 then r.2.coreEvent p n 0x44 last 1 else r.2).coreEvent p n 0x44 next 1)
          advanceXfers p n upto fuel
            (setXfer p n i { x with done := x.done + 1, next := freeTurn n c (last + 8), last := last, poison := x.poison || r.1 } r.2)

/-- Bring a core's transfers up to a cycle. -/
def moveXfers (p : PlaneId) (n c : Nat) (s : State) : State := advanceXfers p n c (((coreOf s p n).xfers.map (·.parts)).sum) s

/-- An SPLD or SPST in its turn. -/
def runTurnOp (p : PlaneId) (n : Nat) (o : CoreOp) (s : State) : State :=
  if o.kind = opSpld then
    let v := BitVec.ofNat 1024 (ofBytes (memRead s p o.a 128))
    modCore p n (fun c => if o.rd < 32 then c.setW o.rd v else c) s
  else if o.kind = opSpst then memWrite p o.a o.params s
  else s

/-- Insert by turn. -/
def insertTurn (o : CoreOp) : List CoreOp → List CoreOp
  | [] => [o]
  | x :: r => if o.b < x.b then o :: x :: r else x :: insertTurn o r

/-- Bring the turns of a core up to a cycle: its loads, stores and transfers, in the order of their turns. (DESIGN CHOICE, log 68) -/
def runXfers (p : PlaneId) (n c : Nat) (s : State) : State :=
  let due := ((coreOf s p n).ops.filter (fun o => decide (opSpld ≤ o.kind ∧ o.b ≤ c))).foldl (fun l o => insertTurn o l) []
  moveXfers p n c (due.foldl (fun s o =>
    runTurnOp p n o (modCore p n (fun x => { x with ops := x.ops.erase o }) (moveXfers p n (o.b - 1) s))) s)

/-- A turn taken from transfers: the one that would use it goes to its next turn, and what follows it moves along. -/
def stealFrom (turn : Nat) : List Xfer → List Xfer
  | [] => []
  | x :: r =>
    if x.onTurns && x.next = turn && decide (x.done < x.parts) then { x with next := turn + 8 } :: r
    else if x.kind = 4 && decide (0 < x.done) && x.last = turn then
      { x with last := turn + 8, next := if x.done < x.parts then turn + 16 else x.next } :: stealFrom (turn + 8) r
    else x :: stealFrom turn r

/-- An SPLD, SPST, QPOP or QDONE takes the core's turn in a cycle before the transfers (R191). -/
def stealTurn (p : PlaneId) (n turn : Nat) (s : State) : State :=
  (modCore p n (fun c => { c with xfers := stealFrom turn c.xfers }) s).coreEvent p n 0x44 turn 1

/-- A turn for an SPLD or SPST (R191): a QPOP or QDONE that holds it goes to the next free turn. -/
def spTurn (p : PlaneId) (n cyc : Nat) (s : State) : Nat × State :=
  let c := coreOf s p n
  let turn := openTurn n c (fun o => o.kind = opSpld || o.kind = opSpst) cyc
  match c.ops.find? (fun o => o.kind = opTurn && o.b = turn) with
  | some o =>
    let next := freeTurn n c (turn + 8)
    (turn, stealTurn p n next (modCore p n (fun c => { c with
      ops := c.ops.map (fun x => if x = o then { o with b := next, at' := cycleBeat (cyclesPerSlot s p) next } else x) }) s))
  | none => (turn, stealTurn p n turn s)

/-- Move every part of a transfer that goes through the memory controllers: as one write where its source holds no poison (R267). -/
def moveAll (p : PlaneId) (n : Nat) (x : Xfer) (s : State) : Bool × State :=
  let s := memTouchAll p x.src x.len s
  if poisonedAt s p x.src x.len then
    (List.range x.parts).foldl (fun (r : Bool × State) i => (fun q : Bool × State => (r.1 || q.1, q.2)) (movePart p n x i r.2)) (false, s)
  else memStore p x.dst (memRead s p x.src x.len) (countReads p x.src x.len s)

/-- XFER_COMPLETE: the oldest outstanding transfer of a core completes: 6 cycles after its last turn, or, through the memory
controllers, when its data has moved; a poisoned range leaves POISON in kzxerr (R206). -/
def execXferComplete (p : PlaneId) (n : CoreId) (s : State) : Out :=
  let cps := cyclesPerSlot s p
  let s := runXfers p n.val (cycleFrom cps (s.ft p + 1) - 1) s
  match (coreOf s p n.val).xfers with
  | [] => .next s
  | x :: _ =>
    if x.onTurns ∧ (x.done < x.parts ∨ s.ft p < cycleBeat cps (x.last + 6)) then .next s
    else
      let r := if x.onTurns then (x.poison, s) else moveAll p n.val x s
      let cyc := if x.onTurns then x.last + 6 else cycleFrom cps (s.ft p)
      let r := (r.1, r.2.coreEvent p n.val 0x46 cyc 1)
      .next (modCore p n.val (fun c =>
        let left := match c.xfers.drop 1 with
          | [] => []
          | y :: l => (if x.onTurns ∨ y.next ≠ 0 then y else { y with last := max y.last cyc }) :: l
        let w := c.wait.map (fun w => if w.kind = 5 ∧ w.met.isNone ∧ left.length ≤ w.arg then { w with met := some (cyc, 0) } else w)
        { c with xfers := left, wait := w, csr := if r.1 then mput c.csr 0x7C0 0x16 else c.csr }) r.2)

/-! ### Messages (R220) -/

/-- MSG_ARRIVE: a message reaches a core's inbox, or is discarded and counted. (DESIGN CHOICE, log 69) -/
def execMsgArrive (p : PlaneId) (n : CoreId) (srcMod : Fin 65536) (srcCore : CoreId) (d : Payload) (s : State) : Out :=
  let st := coreSt s p n.val
  if ¬ s.powered (uCCX p n.val) then .next s
  else if st = 3 ∨ st = 4 ∨ 16 ≤ (coreOf s p n.val).inbox.length then .next (s.incSat (uCCX p n.val) Fld.CCX_MSG_DROP)
  else .next (modCore p n.val (fun c => { c with inbox := c.inbox ++ [⟨srcMod.val, srcCore.val, d⟩] }) s)

/-! ### Watchdog (R221) -/

/-- CC_WATCHDOG: a RUNNING or WAITING core has retired nothing for WDOG × 1,650 beats. -/
def execCcWatchdog (p : PlaneId) (n : CoreId) (s : State) : Out :=
  let u := uCCX p n.val
  if (coreSt s p n.val = 1 ∨ coreSt s p n.val = 2) ∧ (coreOf s p n.val).retired + 1650 * s.get u Fld.CCX_CFG_WDOG ≤ s.ft p then
    .next (detect u 2 .u n.val 0 s)
  else .next s

/-! ### Save and restore (R222 to R225) -/

/-- Bytes of a save image. -/
def imageBytes : Nat := 274432

/-- CCX_SAVE of a core. -/
def saveAddr (s : State) (p : PlaneId) (n : Nat) : Nat := s.get64 (uCCX p n) Fld.CCX_SAVE_LO Fld.CCX_SAVE_HI

/-- The checks of a SAVE or RESTORE's area. -/
def saveVerdict (s : State) (p : PlaneId) (n : Nat) : Verdict :=
  let a := saveAddr s p n
  { range := a % 4096 ≠ 0, bounds := !(extentOk s p a imageBytes && decide (a < baseS)), state := keyHoldsRegion s p a }

/-- A save begins in this beat: the core stops, and an abandoned wait keeps its remaining time (R223). -/
def beginSave (p : PlaneId) (n : Nat) (s : State) : State :=
  let now := s.ft p
  let s := modCore p n (fun c =>
    { c with since := now, wait := none
             again := match c.wait with
              | some w => some (w.kind, w.deadline.map (· - now))
              | none => c.again }) s
  setCoreSt p n 3 s

/-- A save for FOLLOW_KEY: begun, or refused with HCAUSE SAVE_REJ (R223). -/
def followSave (p : PlaneId) (n : Nat) (s : State) : State :=
  let v := saveVerdict s p n
  let st := coreSt s p n
  if ¬ s.on (uCCX p n) Fld.CCX_CFG_FOLLOW_KEY ∨ s.fenced (uCCX p n) ∨ ¬ s.powered (uCCX p n) then s
  else if (st = 0 ∨ st = 1 ∨ st = 2) ∧ ¬ v.range ∧ ¬ v.bounds ∧ ¬ v.state then beginSave p n s
  else haltCore p n .saveRej s

/-- The bits of a CSR that software writes; none where it writes none. -/
def csrMask (k : Nat) : Option Dword :=
  match k with
  | 0x300 => some 0x88
  | 0x301 => some 0
  | 0x304 => some 0x2000
  | 0x305 => some (~~~3#64)
  | 0x340 => some (BitVec.allOnes 64)
  | 0x341 => some (~~~3#64)
  | 0x342 => some (BitVec.allOnes 64)
  | 0x343 => some (BitVec.allOnes 64)
  | 0x344 => some 0x2000
  | 0x7C0 => some 0xFF
  | 0x7C1 => some 1
  | 0x7C2 => some 0xFF
  | 0xB00 => some (BitVec.allOnes 64)
  | 0xB02 => some (BitVec.allOnes 64)
  | _ => none

/-- The CSRs of a save image, in its order (Table 7.9). -/
def savedCsrs : List Nat := [0x300, 0x305, 0x340, 0x341, 0x342, 0x343, 0x304, 0xB00, 0xB02, 0x7C0, 0x7C1, 0x7C2]

/-- mcycle of a core in a beat. -/
def mcycleAt (s : State) (p : PlaneId) (c : Core) (cyc : Nat) : Dword := BitVec.ofInt 64 ((cyc : Int) + c.cycOff)

/-- A save image (Table 7.9). -/
def saveImage (s : State) (p : PlaneId) (n : Nat) : List Byte :=
  let c := coreOf s p n
  let csr (k : Nat) : Dword :=
    if k = 0xB00 then mcycleAt s p c (cycleFrom (cyclesPerSlot s p) c.since)
    else if k = 0x300 then mgetD c.csr k 0 ||| 0x1800 else mgetD c.csr k 0
  let body :=
    (List.range 31).flatMap (fun i => bytesOf 8 (c.reg (i + 1)).toNat) ++ bytesOf 8 c.pc.toNat ++
    savedCsrs.flatMap (fun k => bytesOf 8 (csr k).toNat) ++ List.replicate 96 0 ++ List.replicate 3584 0 ++
    (List.range 32).flatMap (fun i => bytesOf 128 (c.vreg i).toNat) ++
    (List.range 16).flatMap (fun i => match c.inbox[i]? with
      | some m => payloadBytes m.data
      | none => List.replicate 256 0) ++
    memBytes c.ls 0 0x40000
  let (k, left) : Nat × Nat := match c.again with
    | none => (0, 0)
    | some (k, l) => (k, if k = 4 ∨ k = 5 then 0 else l.getD (2 ^ 64 - 1))
  bytesOf 4 0x58435A4B ++ bytesOf 2 1 ++ bytesOf 1 (n + 16 * p.val) ++ bytesOf 1 k ++ bytesOf 8 c.since ++ bytesOf 8 left ++
    bytesOf 4 c.inbox.length ++ bytesOf 4 (crc32c body) ++ List.replicate 32 0 ++ body

/-- CC_SAVE_DONE: the outstanding transfers and feeds are over, the image is written, and the core is SAVED (R223). -/
def execCcSaveDone (p : PlaneId) (n : CoreId) (s : State) : Out :=
  let c := coreOf s p n.val
  if coreSt s p n.val = 3 ∧ c.xfers = [] ∧ c.ops = [] ∧ feedsOf s p n.val = 0 then
    .next (setCoreSt p n.val 4 ((memWrite p (saveAddr s p n.val) (saveImage s p n.val) s).coreEvent p n.val 0x44
      (cycleFrom (cyclesPerSlot s p) (s.ft p)) (imageBytes / 128)))
  else .next s

/-- A little-endian field of an image. -/
def img (l : List Byte) (o n : Nat) : Nat := ofBytes (sliceB l o n)

/-- The messages of a restored inbox. The image holds their bytes only; their senders are free values. -/
def restoreInbox (l : List Byte) : Nat → Nat → State → List CoreMsg × State
  | 0, _, s => ([], s)
  | k + 1, i, s =>
    let f := s.takeFree
    let r := restoreInbox l k (i + 1) f.2
    (⟨f.1.toNat % 65536, f.1.toNat / 65536 % 16, payloadOf (sliceB l (0x2000 + 256 * i) 256)⟩ :: r.1, r.2)

/-- The core that an image gives. -/
def restoreCore (s : State) (p : PlaneId) (c : Core) (l : List Byte) : Core × State :=
  let ib := restoreInbox l (min 16 (img l 0x18 4 % 32)) 0 s
  let x := (List.range 31).foldl (fun m i => mput m (i + 1) (BitVec.ofNat 64 (img l (0x40 + 8 * i) 8))) ([] : SMap Dword)
  let cs := savedCsrs.zipIdx.foldl (fun m e => mput m e.1 (BitVec.ofNat 64 (img l (0x140 + 8 * e.2) 8) &&& (csrMask e.1).getD 0)) c.csr
  let w := (List.range 32).foldl (fun m i => mput m i (BitVec.ofNat 1024 (ofBytes (sliceB l (0x1000 + 128 * i) 128)))) ([] : SMap Vec)
  let k := img l 7 1
  let left := img l 0x10 8
  let now := cycleFrom (cyclesPerSlot s p) (s.ft p + 1)
  ({ c with x := x, w := w, pc := BitVec.ofNat 64 (img l 0x138 8), csr := cs, cycOff := (img l 0x178 8 : Int) - now
            ls := memPuts [] 0 (sliceB l 0x3000 0x40000), inbox := ib.1, xr := [], wr := [], winAt := 0, wait := none
            again := if k = 0 then none else some (k, if k = 4 ∨ k = 5 then none else if left = 2 ^ 64 - 1 then none else some left) }, ib.2)

/-- Whether an image passes its checks (R224). -/
def imageOk (p : PlaneId) (l : List Byte) : Bool :=
  img l 0 4 = 0x58435A4B && img l 4 2 = 1 && img l 6 1 / 16 = p.val && (crc32c (l.drop 0x40)) = img l 0x1C 4

/-- CC_RESTORE_DONE: the image is read and checked; the core is HALTED with RESTORED, or keeps its state with IMG_BAD (R224). -/
def execCcRestoreDone (p : PlaneId) (n : CoreId) (s : State) : Out :=
  if coreSt s p n.val ≠ 5 then .next s
  else
    let u := uCCX p n.val
    let a := saveAddr s p n.val
    let s := (countReads p a imageBytes (memTouchAll p a imageBytes s)).coreEvent p n.val 0x44 (cycleFrom (cyclesPerSlot s p) (s.ft p)) (imageBytes / 128)
    let l := memRead s p a imageBytes
    let c := coreOf s p n.val
    if imageOk p l ∧ ¬ poisonedAt s p a imageBytes then
      let r := restoreCore s p c l
      .next (setCoreSt p n.val 0 ((setCore p n.val r.1 r.2).put u Fld.CCX_STAT_RESTORED 1))
    else .next (setCoreSt p n.val (if c.wasSaved then 4 else 0) (s.put u Fld.CCX_STAT_IMG_BAD 1))

/-! ### CCX registers (R226) -/

/-- Command bits of CCX_CTRL. -/
def ccxCmds (v : Word) : Nat := b2n (v.getLsbD 0) + b2n (v.getLsbD 1) + b2n (v.getLsbD 2) + b2n (v.getLsbD 3)

/-- An area lies in the plane's guard range (R439). -/
def inGuard (s : State) (p : PlaneId) (a n : Nat) : Bool :=
  let c := s.cfg.planes.get p
  decide (c.guardBase ≤ a ∧ a + n ≤ c.guardBase + c.guardLen)

/-- The checks of CCX writes. -/
def ccxVerdict (s : State) (p : PlaneId) (n off : Nat) (v : Word) : Verdict :=
  let st := coreSt s p n
  let halted : Bool := st = 0 || st = 4
  if off = 0x040 then
    let multi : Verdict := { range := decide (1 < ccxCmds v) }
    let run : Verdict := { state := v.getLsbD 0 && !halted }
    let halt : Verdict := { state := v.getLsbD 1 && !(st = 1 || st = 2 || st = 4) }
    let area := saveVerdict s p n
    let save : Verdict := if v.getLsbD 2 then area.or { state := !(st = 0 || st = 1 || st = 2) } else {}
    let rest : Verdict := if v.getLsbD 3 then area.or { state := !halted || (s.cfg.ccVerify && !inGuard s p (saveAddr s p n) imageBytes) } else {}
    (multi.or run).or ((halt.or save).or rest)
  else if off = 0x04C then { state := !halted, range := v.toNat % 4 ≠ 0 }
  else if off = 0x05C then { state := !halted || s.cfg.ccVerify }
  else {}

/-- RUN: the core starts at its pc, in the first cycle of the next beat. -/
def runCore (p : PlaneId) (n : Nat) (s : State) : State :=
  let s := s.put (uCCX p n) Fld.CCX_STAT_RESTORED 0
  setCoreSt p n 1 (modCore p n (fun c =>
    let start := cycleFrom (cyclesPerSlot s p) (s.ft p + 1)
    { c with ready := start, retired := s.ft p, acct := start }) s)

/-- The effects of CCX writes. -/
def ccxEffect (p : PlaneId) (n off : Nat) (v : Word) (s : State) : State :=
  if off = 0x040 then
    if v.getLsbD 0 then runCore p n s
    else if v.getLsbD 1 then haltCore p n .halt s
    else if v.getLsbD 2 then beginSave p n s
    else if v.getLsbD 3 then
      setCoreSt p n 5 (modCore p n (fun c => { c with since := s.ft p, wasSaved := coreSt s p n = 4 }) s)
    else s
  else if off = 0x04C then modCore p n (fun c => { c with pc := BitVec.ofNat 64 (v.toNat % 2 ^ 18) }) s
  else if off = 0x05C then
    let a := s.get (uCCX p n) Fld.CCX_LS_ADDR
    (modCore p n (fun c => { c with ls := memPuts c.ls (4 * a) (bytesOf 4 v.toNat) }) s).inc (uCCX p n) Fld.CCX_LS_ADDR
  else s

/-- The registers of a CCX page that show other state (Table 7.10). -/
def ccxRead (s : State) (p : PlaneId) (n off : Nat) : Option Word :=
  let c := coreOf s p n
  let st := coreSt s p n
  let w (v : Nat) : Option Word := some (BitVec.ofNat 32 v)
  if off = 0x04C then w (c.pc.toNat % 2 ^ 18)
  else if off = 0x05C then
    if st = 0 ∨ st = 4 then w (ofBytes (memBytes c.ls (4 * s.get (uCCX p n) Fld.CCX_LS_ADDR) 4)) else w 0
  else if off = 0x060 then w (s.get (uCCX p n) Fld.CCX_MSG_DROP + 65536 * c.inbox.length)
  else if off = 0x064 then w (c.xfers.length + 16 * feedsOf s p n + 256 * (c.wait.elim 0 (·.kind)))
  else none

end Sys2Proof.Machine
end

