-- ==== Sys2Proof/Machine/Chunks.lean ====
section
/-! DEFINITION. Sys2Proof/Machine/Chunks.lean: what happens to a chunk between its first contribution and its release: cells
into a context, closing, recompute, repair deliveries, copies to memory, the spare, and accumulator inspection (R141,
R151, R154 to R184, R123, R213). -/

namespace Sys2Proof.Machine

/-! ### Contributions -/

/-- Add the elements of one cell of the chunk to its accumulators (R141, R151). -/
def Ctx.addCell (x : Ctx) (no : Nat) (d : Payload) (acc : List LongAcc) : List LongAcc :=
  let n := fmtPerCell x.inFmt
  let o := no * n
  let add (a : LongAcc) (c : Nat) : LongAcc :=
    if x.wide then wideAdd x.op a (decodeElem x.inFmt c) else accAdd x.op a (decodeElem x.inFmt c)
  acc.take o ++ List.zipWith add ((acc.drop o).take n) (elemsOf x.inFmt d) ++ acc.drop (o + n)

/-- A further addend would reach an element that already holds 16,777,216 (R141). (DEDUCED, log 84) -/
def Ctx.countFull (x : Ctx) (no : Nat) : Bool :=
  ((x.acc.drop (no * fmtPerCell x.inFmt)).take (fmtPerCell x.inFmt)).any (fun a => accMax ≤ a.n)

/-- A member's contribution to the FILLING chunk becomes invalid (R164). -/
def spoil (p : PlaneId) (pos c midx : Nat) (s : State) : State :=
  modCtx p pos c (fun x => match x.filling with
    | some k => x.modChunk k.num (fun k => { k with bad := insertNat midx k.bad })
    | none => x) s

/-- A cell enters a context as cell `no` of a member (R164): a further cell for the same member and number, or a number
beyond the chunk, spoils the contribution; otherwise it is retained and accumulated. (DEDUCED, log 51) -/
def acceptCell (p : PlaneId) (pos c midx no : Nat) (d : Payload) (s : State) : State :=
  match getCtx s p pos c with
  | none => s
  | some x => match x.filling with
    | none => s
    | some k =>
      if x.fault then s
      else if x.chunkCells ≤ no ∨ k.ins.any (fun i => i.midx = midx && i.no = no) then
        report (posUnit s p pos) 5 .u k.num midx (spoil p pos c midx s)
      else if x.countFull no then report (posUnit s p pos) 6 .u k.num c (modCtx p pos c (fun x => { x with fault := true }) s)
      else
        let x := x.modChunk k.num (fun k => { k with ins := k.ins ++ [⟨midx, no, d⟩] })
        setCtx p pos c { x with acc := x.addCell no d x.acc } s

/-- The digest of a member's cell against the context's (R174, R175): `none` where the cell is accepted and the member has
matched, else the state after the abort or the spoiled contribution. -/
def checkDigest (p : PlaneId) (pos c midx digest : Nat) (s : State) : Bool × State :=
  match getCtx s p pos c with
  | none => (false, s)
  | some x =>
    let co := getColl s p x.group x.cseq
    if digest = x.digest then
      (true, modColl p x.group x.cseq (fun y => { y with matched := insertNat midx y.matched }) s)
    else if co.matched.contains midx then (false, spoil p pos c midx s)
    else (false, abortColl p x.group x.cseq midx digest s)

/-- Whether the collective of a context is aborted, so that it accepts no cell (R175). -/
def ctxAborted (s : State) (p : PlaneId) (x : Ctx) : Bool := (getColl s p x.group x.cseq).aborted.isSome

/-- Number of the next cell of a source of the FILLING chunk, and the state with it counted (R105). -/
def nextNo (p : PlaneId) (pos c src : Nat) (s : State) : Nat × State :=
  match (getCtx s p pos c).bind (·.filling) with
  | none => (0, s)
  | some k =>
    let n := mgetD k.nextCell src 0
    (n, modChunk p pos c k.num (fun k => { k with nextCell := mput k.nextCell src (n + 1) }) s)

/-- A key lane delivers a cell, or no valid cell, to a context (R105, R174, R210, R295). (DEDUCED, log 51) -/
def laneCell (p : PlaneId) (pos c lane slot : Nat) (cell : Option Cell) (s : State) : State :=
  match getCtx s p pos c with
  | none => if cell.isSome then report (posUnit s p pos) 3 .u c lane s else s
  | some x =>
    let midx := x.lmap.getD lane 0xFFFF
    if x.feed ∨ midx = 0xFFFF then
      if cell.isSome then report (posUnit s p pos) 3 .u c lane s else s
    else if ctxAborted s p x then s
    else
      let (no, s) := nextNo p pos c (portOr s p lane) s
      match cell with
      | none => modCtx p pos c (fun x => match x.filling with
          | some k => x.modChunk k.num (fun k => { k with missed := k.missed ++ [(lane, slot, midx, no)] })
          | none => x) s
      | some cl =>
        if cl.poison then spoil p pos c midx s
        else
          let r := checkDigest p pos c midx cl.tag s
          if r.1 then acceptCell p pos c midx no cl.data r.2 else r.2

/-- A key FEED delivers a staged cell, or an invalid one, as the memory contribution of a context (R208, R258). -/
def feedCell (p : PlaneId) (pos c f : Nat) (d : Option Payload) (s : State) : State :=
  match getCtx s p pos c with
  | none => report (posUnit s p pos) 3 .u c (128 + f) s
  | some x =>
    if x.feed then report (posUnit s p pos) 3 .u c (128 + f) s
    else if ctxAborted s p x then s
    else
      let (no, s) := nextNo p pos c 128 s
      match d with
      | some v => acceptCell p pos c (x.m - 1) no v s
      | none => spoil p pos c (x.m - 1) s

/-- Lane-cycles that one cell costs (R153). -/
def cellCost (fmt : Nat) : Nat := if fmtWidth fmt = 32 then 64 else 128

/-- Lane-cycles of a slice in one slot (R153): 32 lanes at the ACLK setting in force. -/
def slotCycles (s : State) (p : PlaneId) : Nat :=
  32 * (match s.get (pu p .PLN) Fld.PLN_STATE_ACLK_NOW with
    | 0 => 40
    | 1 => 32
    | _ => 24)

/-- A replay of a scheduled cell reaches the retained inputs of its chunk (R295): it is accumulated while the chunk is still
FILLING under EXACT, with lane-cycles that the key leaves unused, so that it waits for those. -/
def replayCell (p : PlaneId) (pos c lane slot : Nat) (cell : Cell) (s : State) : State :=
  match getCtx s p pos c with
  | none => s
  | some x => match x.filling with
    | none => s
    | some k => match k.missed.find? (fun e => e.1 = lane && e.2.1 = slot) with
      | none => s
      | some (_, _, midx, no) =>
        if x.wide ∨ ctxAborted s p x ∨ cell.poison then s
        else
          let s := modChunk p pos c k.num (fun k => { k with missed := k.missed.filter (fun e => !(e.1 = lane && e.2.1 = slot)) }) s
          let r := checkDigest p pos c midx cell.tag s
          if r.1 then r.2.modPl p (fun z => { z with lateCells := z.lateCells ++ [(pos, c, k.num, midx, no, cell.data)] }) else r.2

/-- Lane-cycles of a position that this slot has used. -/
def usedCycles (s : State) (p : PlaneId) (pos : Nat) : Nat :=
  if (s.pl p).cyclesUsed.1 = s.ft p / 20 then mgetD (s.pl p).cyclesUsed.2 pos 0 else 0

/-- One replayed contribution at the end of a beat (R295): accumulated where its slice has lane-cycles left in the slot, discarded once its
chunk is no longer FILLING; otherwise it waits. -/
def tryLate (p : PlaneId) (s : State) (e : Nat × Nat × Nat × Nat × Nat × Payload) : State :=
  let (pos, c, num, midx, no, d) := e
  match getCtx s p pos c with
  | none => s
  | some x =>
    if !x.filling.any (·.num = num) then s
    else if usedCycles s p pos + cellCost x.inFmt ≤ slotCycles s p then
      let used := usedCycles s p pos + cellCost x.inFmt
      acceptCell p pos c midx no d (s.modPl p (fun z => { z with
        cyclesUsed := (z.ftm.ft / 20, mput (if z.cyclesUsed.1 = z.ftm.ft / 20 then z.cyclesUsed.2 else []) pos used) }))
    else s.modPl p (fun z => { z with lateCells := z.lateCells ++ [e] })

/-- The replayed contributions that wait, in order of arrival. -/
def tryLates (p : PlaneId) (s : State) : State :=
  (s.pl p).lateCells.foldl (tryLate p) (s.modPl p (fun z => { z with lateCells := [] }))

/-- A slot overruns a slice (R154): every context that received a cell enters FAULT. -/
def overrun (p : PlaneId) (pos : Nat) (ctxs : List Nat) (s : State) : State :=
  let s := ctxs.foldl (fun s c => modCtx p pos c (fun x => { x with fault := true }) s) s
  let u := posUnit s p pos
  report u 1 .u (ctxs.headD 0) 0 (s.incSat u Fld.TMB_OVR_OVR_CNT)

/-! ### Opening and closing -/

/-- A chunk whose context opens again before a CLOSE ended it (R162). -/
def cutChunk (p : PlaneId) (pos c : Nat) (s : State) : State :=
  match getCtx s p pos c with
  | none => s
  | some x => match x.filling with
    | none => s
    | some k =>
      let d := (s.pl p).fab.pat.bind (fun e => if e.1 = s.ft p / 20 then some e.2 else none)
      failChunk p pos c k.num 5 ((portsDue s p pos k d).map CopyDst.port) (report (posUnit s p pos) 5 .u k.num c s)

/-- The clearing part of OPEN_CTX (R103, R160, R162): the context's next chunk takes the collective's next number, and the
context leaves FAULT. -/
def openByKey (p : PlaneId) (b pos c : Nat) (s : State) : State :=
  let s := cutChunk p pos c s
  match getCtx s p pos c with
  | none => s
  | some x =>
    if x.feed then s
    else
      let n := (getColl s p x.group x.cseq).next
      let s := modColl p x.group x.cseq (fun y => { y with next := n + 1 }) s
      openChunk p pos c n (some b) (modCtx p pos c (fun x => { x with fault := false }) s)

/-- The combined scale K (R143). -/
def Ctx.scale (x : Ctx) : Num := mulNum (f32 x.scaleIn) (f32 x.scaleOut)

/-- The code and status of element `j` of chunk `n` from its accumulator (R142 to R151). -/
def Ctx.elemOut (x : Ctx) (n j : Nat) (a : LongAcc) : Nat × Nat :=
  let v := if x.wide ∧ x.op = 0 then f32 a.w else accResult x.op a
  let draw := if x.stoch then srDraw x.seed (n * x.elems + j) else 0
  roundOut { fmt := x.outFmt, stoch := x.stoch, inf := x.ovfInf, seed := x.seed } draw (scaleNum x.scale v)

/-- Cut a list of codes into result cells. -/
def codesToCells (f : Nat) : Nat → List Nat → List Payload
  | 0, _ => []
  | n + 1, l => elemsTo f l :: codesToCells f n (l.drop (fmtPerCell f))

/-- OR of status bits. -/
def orStatus (l : List Nat) : Nat := l.foldl (· ||| ·) 0

/-- The result cells and the status byte of a chunk from its accumulators. -/
def Ctx.closeOut (x : Ctx) (n : Nat) (acc : List LongAcc) : List Payload × Nat :=
  let r := acc.zipIdx.map (fun e => x.elemOut n e.2 e.1)
  (codesToCells x.outFmt x.resCells (r.map (·.1)), orStatus (r.map (·.2)))

/-- RCRC: CRC-32C over the payload bytes of the result in cell order (R169). -/
def resultCrc (l : List Payload) : Nat := crc32c (l.flatMap payloadBytes)

/-- Whether a member lacks a cell of a chunk (R164, R213). -/
def Ctx.incomplete (x : Ctx) (k : Chunk) : Bool := k.bad ≠ [] || k.ins.length < x.m * x.chunkCells

/-- An injected fault of a source strikes: the injection is spent (R417). -/
def strike (u src : Nat) (s : State) : Bool × State :=
  if (s.rp u).corrupt = some src then (true, s.modRp u (fun r => { r with corrupt := none })) else (false, s)

/-- A delivery begins to read the retained result (R178). One that is unreadable poisons its granule, is reported as SPM_UE, and the chunk
is recomputed. Answers whether it can be read. -/
def readResult (p : PlaneId) (pos c n : Nat) (s : State) : Bool × State :=
  match getCtx s p pos c with
  | none => (true, s)
  | some x => match x.chunk n with
    | none => (true, s)
    | some k =>
      let a := retResult s p pos c x n
      let y := strike (pu p .SPM) 2 s
      if (y.1 ∨ poisonedAt s p a (256 * x.resCells)) ∧ k.held then
        let s := if y.1 then detect (pu p .SPM) 2 .u (a % 2 ^ 32) (a / 2 ^ 32) y.2 else y.2
        (false, modChunk p pos c n (fun k => (k.needRecompute 2 (s.beats p)).settle) s)
      else (true, y.2)

/-- Send the result cells of copies to endpoints as one frame, and then each copy's seal, as unit frames in the group's traffic class (R214);
copies sent together are one multicast frame (R348). -/
def sendEndpoints (p : PlaneId) (pos c n : Nat) (l : List (CopyDst × Nat)) (s : State) : State :=
  match l with
  | [] => s
  | (d, _) :: _ =>
    let s := (readResult p pos c n s).2
    match getCtx s p pos c with
    | none => s
    | some x => match x.chunk n with
    | none => s
    | some k =>
      let at' := ((k.copies.find? (·.dst = d)).map (·.attempt)).getD 0
      -- An injected egress fault corrupts the next copy that is sent (R417).
      let s := l.foldl (fun s e =>
        let hit := strike (pu p .XPT) 1 s
        modChunk p pos c n (·.modCopy e.1 (fun y => { y with crcBad := y.crcBad || hit.1, sent := k.result.length })) hit.2) s
      let s := issueFrame p { unit := posUnit s p pos, cls := 2, dests := l.map (·.2), tc := some (groupTc s p x.group)
                              tag := resTag x n 0 at', cells := k.result } s
      l.foldl (fun s e => issueSeal p pos c e.2 (sealCopy p pos c n e.1 s)) s

/-- Send a copy to an endpoint. -/
def sendEndpoint (p : PlaneId) (pos c n : Nat) (d : CopyDst) (ep : Nat) (s : State) : State := sendEndpoints p pos c n [(d, ep)] s

/-- Closing begins (R162, R176): scale, round, write of the retained result, RCRC. A comparison that fails reports TMB_RESIDUE. (DEDUCED, log 53) -/
def closeBegin (p : PlaneId) (pos c : Nat) (s : State) : State :=
  match getCtx s p pos c with
  | none => s
  | some x => match x.filling with
    | none => s
    | some k =>
      let u := posUnit s p pos
      let (res, st) := x.closeOut k.num x.acc
      let hit := strike u 2 s
      let now := s.ft p
      let at' := if k.bank.isSome then k.closeAt else now
      let x := x.modChunk k.num (fun k => { k with
        st := .closing, closeAt := at', closeFt := at' + 19, result := res, status := st, rcrc := resultCrc res
        resultAt := s.beats p + 20 - (now - at')
        neg := if hit.1 then 2 else k.neg, fail := if x.fault ∧ k.fail = 0 then 6 else k.fail })
      let s := setCtx p pos c { x with lastStatus := st } hit.2
      if hit.1 then detect u 2 .c k.num c s else s

/-- The endpoint that a copy goes to. -/
def copyEp : CopyDst → Option Nat
  | .endpoint ep _ => some ep
  | _ => none

/-- A chunk's copies that wait for its close leave now, those to endpoints as one multicast frame (R214, R348); a failed chunk's receive
their FINAL seals. -/
def releaseCopies (p : PlaneId) (pos c n : Nat) (s : State) : State :=
  match (getCtx s p pos c).bind (·.chunk n) with
  | none => s
  | some k =>
    let l := k.copies.filter (fun y => y.kind = 0)
    if k.fail ≠ 0 then l.foldl (fun s y => match y.dst with
      | .port _ => s
      | d => finalOnly p pos c n d s) s
    else sendEndpoints p pos c n (l.filterMap (fun y => (copyEp y.dst).map (fun ep => (y.dst, ep)))) s

/-- The slot in which closing ends is over (Table 6.2, R162, R181): the chunk goes to SENDING, REPAIR or FAILED. (DEDUCED, log 52)
(DEDUCED, log 53) -/
def closeEnd (p : PlaneId) (pos c n : Nat) (s : State) : State :=
  match getCtx s p pos c with
  | none => s
  | some x => match x.chunk n with
    | none => s
    | some k =>
      let f := if ctxAborted s p x then 7 else if k.fail ≠ 0 then k.fail else if x.incomplete k then 5 else if k.overD then 8 else 0
      let neg := if k.takeover then 3 else k.neg
      let s := if f = 5 ∧ k.fail = 0 then report (posUnit s p pos) 5 .u n c s else s
      let due := portsDue s p pos k none
      let s := endChunk p pos c n (fun (k : Chunk) => ({ k with
        st := .sending, fail := f, neg := neg, expect := due, recompNeed := if neg ≠ 0 ∧ f = 0 then some (s.beats p) else none } : Chunk).settle) s
      releaseCopies p pos c n (s.event p 0x0B (posUnit s p pos % 256 - 0x20) 1)

/-- Whether a FILLING chunk's closing is due: the CLOSE line's last slot is over, or CCLOSE was issued and every earlier feed
has been accumulated (R103, R213). -/
def closeDue (s : State) (p : PlaneId) (pos c : Nat) (k : Chunk) : Bool :=
  k.st = .filling && k.closeReq && (if k.bank.isSome then decide (k.closeAt ≤ s.ft p)
    else k.closeFeeds = 0)

/-- CHUNK_CLOSE_BEGIN (R213, R103). -/
def execChunkCloseBegin (p : PlaneId) (pos : SliceId) (c : Fin 16) (s : State) : Out :=
  match (getCtx s p pos.val c.val).bind (·.filling) with
  | some k => if closeDue s p pos.val c.val k then .next (closeBegin p pos.val c.val s) else .next s
  | none => .next s

/-- The closing chunk of a context whose closing slot is over. -/
def closeOver (s : State) (x : Ctx) (p : PlaneId) : Option Nat :=
  (x.chunks.find? (fun k => k.st = .closing && decide (k.resultAt ≤ s.beats p))).map (·.num)

/-- CHUNK_CLOSE_END (R162). -/
def execChunkCloseEnd (p : PlaneId) (pos : SliceId) (c : Fin 16) (s : State) : Out :=
  match getCtx s p pos.val c.val with
  | some x => match closeOver s x p with
    | some n => .next (closeEnd p pos.val c.val n s)
    | none => .next s
  | none => .next s

/-- Every closing of a key that is due in this beat begins and ends before the slot's line takes effect (R104). -/
def closesDue (p : PlaneId) (s : State) : State :=
  (s.pl p).ctxs.foldl (fun s e =>
    let pos := e.1 / 16
    let c := e.1 % 16
    let s := match (getCtx s p pos c).bind (fun x => closeOver s x p) with
      | some n => closeEnd p pos c n s
      | none => s
    match (getCtx s p pos c).bind (·.filling) with
    | some k => if k.bank.isSome ∧ closeDue s p pos c k then closeBegin p pos c s else s
    | none => s) s

/-! ### Recompute (R177) -/

/-- The slice that runs a position's recompute: the spare while its ROLE is SPARE, else the slice that serves the position. -/
def engineOf (s : State) (p : PlaneId) (pos : Nat) : Nat := (spareSlice s p).getD ((serverOf s p pos).getD pos)

/-- The chunks that wait for a recompute: need, position, context, chunk. -/
def waiting (s : State) (p : PlaneId) : List (Nat × Nat × Nat × Nat) :=
  (s.pl p).ctxs.flatMap (fun e => e.2.chunks.filterMap (fun k => match k.recompNeed, k.recompOn with
    | some t, none => some (t, e.1 / 16, e.1 % 16, k.num)
    | _, _ => none))

/-- Whether an engine runs a recompute. -/
def engineBusy (s : State) (p : PlaneId) (e : Nat) : Bool :=
  (s.pl p).ctxs.any (fun x => x.2.chunks.any (fun k => match k.recompOn with
    | some (_, g) => g = e
    | none => false))

/-- The order in which recomputes wait: by beat of need, then position. -/
def before (a b : Nat × Nat × Nat × Nat) : Bool := a.1 < b.1 || (a.1 = b.1 && a.2.1 < b.2.1)

/-- RECOMPUTE_START: the first waiting recompute of an idle engine starts (R177). -/
def execRecomputeStart (p : PlaneId) (pos : SliceId) (c : Fin 16) (n : Nat) (s : State) : Out :=
  let e := engineOf s p pos.val
  let mine := (waiting s p).filter (fun w => engineOf s p w.2.1 = e)
  match mine.find? (fun w => w.2 = (pos.val, c.val, n)) with
  | some w =>
    if engineBusy s p e ∨ mine.any (fun v => before v w) then .next s
    else .next (modChunk p pos.val c.val n (fun k => { k with recompOn := some (s.beats p, e) }) s)
  | none => .next s

/-- Beats that a recompute takes at least: its cells at the engine's full rate, and one slot to close. -/
def recompBeats (s : State) (p : PlaneId) (x : Ctx) (k : Chunk) : Nat :=
  20 * ((k.ins.length * cellCost x.inFmt + slotCycles s p - 1) / slotCycles s p) + 20

/-- The accumulators that the retained inputs give, in the order in which they were accepted. -/
def Ctx.rebuild (x : Ctx) (k : Chunk) : List LongAcc :=
  k.ins.foldl (fun a i => x.addCell i.no i.data a) (List.replicate x.elems {})

/-- RECOMPUTE_DONE: a recompute closes with the checks of R176 (R177). A second failure, or retained inputs that cannot be
read, fails the chunk with RETAIN. -/
def execRecomputeDone (p : PlaneId) (pos : SliceId) (c : Fin 16) (n : Nat) (s : State) : Out :=
  match getCtx s p pos.val c.val with
  | none => .next s
  | some x => match x.chunk n with
    | none => .next s
    | some k => match k.recompOn with
      | none => .next s
      | some (t, e) =>
        if s.beats p < t + recompBeats s p x k then .next s
        else
          let at' := retInputs s p pos.val c.val x n
          let a := strike (pu p .SPM) 2 s
          let b := strike (uTMB p e) 2 a.2
          if a.1 then .next (failChunk p pos.val c.val n 8 [] (detect (pu p .SPM) 2 .u (at' % 2 ^ 32) (at' / 2 ^ 32) b.2))
          else if poisonedAt s p at' (256 * (x.m * x.chunkCells)) then .next (failChunk p pos.val c.val n 8 [] b.2)
          else if b.1 then .next (failChunk p pos.val c.val n 8 [] (detect (uTMB p e) 2 .u n c.val b.2))
          else
            let r := x.closeOut n (x.rebuild k)
            let g := retResult s p pos.val c.val x n
            let s2 := (b.2.event p 0x0B e 1).modPl p (fun y => { y with poison := y.poison.filter (fun a => !(g ≤ a && a < g + 256 * x.resCells)) })
            .next (setCtx p pos.val c.val ({ x with lastStatus := r.2 }.modChunk n (fun k => ({ k with
              result := r.1, status := r.2, rcrc := resultCrc r.1, closeFt := s.ft p - 1, resultAt := s.beats p, recompNeed := none
              recompOn := none, takeover := false, neg := if k.bank.isSome then k.neg else 0 } : Chunk).settle)) s2)

/-! ### Repair deliveries (R178, R179) -/

/-- A copy that waits for a repair delivery and may have one now: its NEGATIVE seal has been sent, the retained result is
ready for 20 beats, and, where the agreement set was incomplete, it is complete. -/
def repairable (s : State) (p : PlaneId) (x : Ctx) (k : Chunk) (y : Copy) : Bool :=
  y.kind = 2 && !y.queued && decide (y.attempt < 3) && k.held && k.fail = 0 && k.recompNeed.isNone && k.recompOn.isNone &&
    y.final = 0 && !ctxAborted s p x && decide (k.resultAt + 20 ≤ s.beats p) && (y.reason ≠ 4 || agreed s p x k)

/-- The next attempt of a copy begins: result cells from 0, a fresh egress CRC. -/
def Copy.again (y : Copy) : Copy := { y with attempt := y.attempt + 1, sent := 0, crcBad := false, queued := true }

/-- Start a delivery of a copy: on its port's repair queue, as unit frames to an endpoint, or as a new write to memory. (DEDUCED, log 29) -/
def startDelivery (p : PlaneId) (pos c n : Nat) (d : CopyDst) (s : State) : State :=
  let s := modChunk p pos c n (·.modCopy d Copy.again) s
  match d with
  | .port q => queueRepair p q { pos := pos, ctx := c, chunk := n, dst := d } s
  | .endpoint ep _ => sendEndpoint p pos c n d ep s
  | .mem _ _ => s

/-- The repairable copies of a plane: seal time, chunk, position, context, destination. -/
def repairList (s : State) (p : PlaneId) (d : CopyDst) : List (Nat × Nat × Nat × Nat) :=
  (s.pl p).ctxs.flatMap (fun e => e.2.chunks.flatMap (fun k =>
    (k.copies.filter (fun y => y.dst = d && repairable s p e.2 k y)).map (fun y => (y.negLast, k.num, e.1 / 16, e.1 % 16))))

/-- REPAIR_DELIVERY: the copy to a destination whose NEGATIVE seal was sent first, lowest chunk number first within one beat,
is delivered again (R179). (DEDUCED, log 29) -/
def execRepairDelivery (p : PlaneId) (pos : SliceId) (c : Fin 16) (n : Nat) (d : CopyDst) (s : State) : Out :=
  let l := repairList s p d
  match l.find? (fun e => e.2 = (n, pos.val, c.val)) with
  | some w => if l.any (fun v => v.1 < w.1 || (v.1 = w.1 && v.2.1 < w.2.1)) then .next s else .next (startDelivery p pos.val c.val n d s)
  | none => .next s

/-- REPAIR_LIMIT: 1,650,000 beats have passed since a copy's first NEGATIVE seal without a POSITIVE one (R179, R88). -/
def execRepairLimit (p : PlaneId) (pos : SliceId) (c : Fin 16) (n : Nat) (d : CopyDst) (s : State) : Out :=
  match (getCtx s p pos.val c.val).bind (·.chunk n) with
  | none => .next s
  | some k => match k.copies.find? (fun y => y.dst = d && y.kind = 2) with
    | none => .next s
    | some y => match y.negAt with
      | some t =>
        if t + 1650000 < s.beats p ∧ k.held then
          .next (finalOnly p pos.val c.val n d (dropRepair p pos.val c.val n d s))
        else .next s
      | none => .next s

/-- The endpoint of a member: its 4-byte entry of the group's member table (R228, Table 8.2). -/
def memberEntry (s : State) (p : PlaneId) (g m : Nat) : Nat := ofBytes (memRead s p (baseS + (mgetD (s.pl p).groups g {}).mbase + 4 * m) 4)

/-- The copy that belongs to a member: the copy to its endpoint, or to the port of a lane that delivers its contribution. -/
def memberCopy (s : State) (p : PlaneId) (x : Ctx) (k : Chunk) (m : Nat) : Option CopyDst :=
  let ep := memberEntry s p x.group m % 65536
  let ports := ((List.range 128).filter (fun i => x.lmap.getD i 0xFFFF = m)).map (portOr s p)
  (k.copies.find? (fun y => match y.dst with
    | .endpoint e _ => e = ep
    | .port q => ports.contains q
    | .mem _ _ => false)).map (·.dst)

/-- REPAIR_REQUEST: a member asks for a copy again (R178). A chunk still held is delivered again, a fourth delivery is refused with
LIMIT (R179), and a copy on its way answers by itself; for a request that comes after the release the answer is a FINAL seal with
RELEASED, sent to the member's endpoint. -/
def execRepairRequest (p : PlaneId) (g : Fin 1024) (cseq : Fin 65536) (n : Nat) (m : Nat) (s : State) : Out :=
  let hit := (s.pl p).ctxs.find? (fun e => e.2.group = g.val && e.2.cseq = cseq.val && e.2.chunks.any (fun k => k.num = n && k.held))
  let ep := memberEntry s p g.val m % 65536
  match hit with
  | some (key, x) => match x.chunk n with
    | some k => match memberCopy s p x k m with
      | some d =>
        let pos := key / 16
        let c := key % 16
        let busy := (k.copies.any (fun y => y.dst = d && (y.queued || y.kind = 0 || y.kind = 3))) || k.recomputing
        if busy then .next s
        else if k.copies.any (fun y => y.dst = d && 3 ≤ y.attempt) then
          .next (finalOnly p pos c n d (modChunk p pos c n (·.modCopy d (Copy.endWith · 9)) s))
        else .next (startDelivery p pos c n d (modChunk p pos c n (·.modCopy d (fun y => { y with asked := some (s.beats p, ep) })) s))
      | none => .next s
    | none => .next s
  | none =>
    let x : Ctx := (((s.pl p).ctxs.find? (fun e => e.2.group = g.val && e.2.cseq = cseq.val)).map (·.2)).getD
      { core := 0, group := g.val, cseq := cseq.val }
    .next (answerReleased p x n ep s)

/-! ### Copies to memory (R180) -/

/-- CSTORE_WRITE_DONE: a copy queued by CSTORE has been written and read back, and is sealed (R180). A readback that meets poison leaves
POISON in kzxerr and fails the copy's check (R266); so does a write that is discarded because its target is lost. (DEDUCED, log 119) -/
def execCstoreWriteDone (p : PlaneId) (pos : SliceId) (c : Fin 16) (n : Nat) (addr : BitVec 48) (s : State) : Out :=
  match getCtx s p pos.val c.val with
  | none => .next s
  | some x => match x.chunk n with
    | none => .next s
    | some k =>
      match k.copies.find? (fun y => (match y.dst with
          | .mem a _ => a = addr.toNat
          | _ => false) && (y.kind = 0 || y.queued)) with
      | none => .next s
      | some cp =>
        let d := cp.dst
        if ¬ k.held ∨ k.fail ≠ 0 ∨ ctxAborted s p x ∨ k.recomputing then .next s
        else
          let r := readResult p pos.val c.val n s
          let n' := 256 * k.result.length
          let w := memStore p addr.toNat (k.result.flatMap payloadBytes) r.2
          let s := countReads p addr.toNat n' (memTouchAll p addr.toNat n' w.2)
          let pz := w.1 || poisonedAt s p addr.toNat n'
          let hit := strike (pu p .XPT) 1 (if pz then modCore p x.core (fun c => { c with csr := mput c.csr 0x7C0 0x16 }) s else s)
          let bad := pz || hit.1 || !r.1
          let s := modChunk p pos.val c.val n (·.modCopy d (fun y => { y with crcBad := bad, sent := k.result.length })) hit.2
          let s := (sealCopy p pos.val c.val n d s).2
          let good := ((getCtx s p pos.val c.val).bind (·.chunk n)).any (fun k => k.copies.any (fun y => y.dst = d && y.kind = 1))
          let gr := (List.range k.result.length).map (fun i => (granuleOf (addr.toNat + 256 * i), x.group, x.cseq, n))
          if good then .next (s.modPl p (fun y => { y with written := y.written ++ gr }))
          else .next s

/-! ### Feeds (R212) -/

/-- The cells of an accepted contribution frame enter the context as the member's cells 0 upward; a cell in a poisoned granule, or whose TAG
carries another digest (R174, R175), enters as an invalid cell. Answers whether one met poison. -/
def runFeed (p : PlaneId) (f : Feed') (s : State) : Bool × State :=
  match getCtx s p f.pos f.ctx with
  | none => (false, s)
  | some x =>
    (List.range x.chunkCells).foldl (fun (r : Bool × State) i =>
      let a := f.addr + 256 * (i + 1)
      let s := countReads p a 256 (memTouchAll p a 256 r.2)
      if ctxAborted s p x then r
      else if poisonedAt s p a 256 then (true, spoil p f.pos f.ctx f.midx s)
      else if !(x.accum && f.midx + 1 = x.m) && mgetD (s.pl p).stageTags a x.digest ≠ x.digest then (r.1, spoil p f.pos f.ctx f.midx s)
      else (r.1, acceptCell p f.pos f.ctx f.midx i (payloadOf (memRead s p a 256)) s)) (false, s)

/-! ### Slices (R123, R157) -/

/-- A key names a position in its SLICE_MAP while it is ARMED, RUNNING or PAUSED (R123). -/
def keyNamesSlice (s : State) (p : PlaneId) (n : Nat) : Bool :=
  [0, 1].any (fun b => (bankSt s p b = 3 || bankSt s p b = 4 || bankSt s p b = 5) && bit (bankOfKey s p b).sliceMap n)

/-- SPARE_ACTIVATE: a STANDIN spare becomes ACTIVE in its own position (R123). -/
def execSpareActivate (p : PlaneId) (n : SliceId) (s : State) : Out :=
  let u := uTMB p n.val
  let q := s.get u Fld.TMB_STAT_FOR_POS
  if sliceRole s p n.val = 2 ∧ ctxsOf s p q = [] ∧ ¬ keyNamesSlice s p q then
    let s := (s.put u Fld.TMB_STAT_ROLE 0).put u Fld.TMB_STAT_FOR_POS n.val
    .next (unitChange p (s.put (pu p .PLN) Fld.PLN_UNIT_SLICE_SLICE_ACT (s.get (pu p .PLN) Fld.PLN_UNIT_SLICE_SLICE_ACT ||| 2 ^ n.val)))
  else .next s

/-- TMB_FAIL: the continuous checks of a slice find it failed (R123): the fault is reported and its reaction closes the hasp. -/
def execTmbFail (p : PlaneId) (n : SliceId) (s : State) : Out :=
  if s.powered (uTMB p n.val) ∧ ¬ s.fenced (uTMB p n.val) then .next (detect (uTMB p n.val) 7 .u n.val 0 s) else .next s

/-- The position whose contexts a slice's page shows. (DEDUCED, log 55) -/
def pagePos (s : State) (p : PlaneId) (n : Nat) : Option Nat :=
  match sliceRole s p n with
  | 0 => some n
  | 2 => some (s.get (uTMB p n) Fld.TMB_STAT_FOR_POS)
  | _ => none

/-- A context as a slice's page shows it. -/
def pageCtx (s : State) (p : PlaneId) (n c : Nat) : Option Ctx := (pagePos s p n).bind (fun q => getCtx s p q c)

/-- TMB_CTX_CFG.STATE of a context. -/
def Ctx.stateCode (x : Ctx) : Nat :=
  if x.fault then 4
  else if x.chunks.any (fun k => k.st = .filling || k.st = .closing) then 2
  else if x.chunks.any (·.held) then 3 else 1

/-- Checks of a TMB write (R158). -/
def tmbVerdict (s : State) (p : PlaneId) (n off : Nat) (v : Word) : Verdict :=
  if off = 0x050 then
    let go := v.getLsbD 31
    match pageCtx s p n (v.toNat % 16) with
    | none => { state := !s.bringup || go }
    | some x => { state := !s.bringup, range := go && decide (x.elems ≤ v.toNat / 16 % 2 ^ 17) }
  else {}

/-- A GO write captures an element (R158). On a BOUND context in which no chunk has opened it captures the state that OPEN_CTX gives; after a
close, that of the last chunk. Under WIDE32 the captured flags are those of the exact state that the model keeps beside *w* (R151, R157).
(DESIGN CHOICE, log 127) (DESIGN CHOICE, log 128) -/
def tmbEffect (p : PlaneId) (n off : Nat) (v : Word) (s : State) : State :=
  if off = 0x050 ∧ v.getLsbD 31 then
    match pageCtx s p n (v.toNat % 16) with
    | some x =>
      let a := x.acc.getD (v.toNat / 16 % 2 ^ 17) {}
      s.modPl p (fun y => { y with captures := mput y.captures n (if x.wide then { a with a := a.w } else a) })
    | none => s
  else s

/-- The registers of a TMB page that show other state (Table 5.8). (DEDUCED, log 55) -/
def tmbRead (s : State) (p : PlaneId) (n off : Nat) : Option Word :=
  let w (v : Nat) : Option Word := some (BitVec.ofNat 32 v)
  let cap := mget (s.pl p).captures n
  if off = 0x040 then
    let b := (List.range 16).foldl (fun a c => if (pageCtx s p n c).isSome then a + 2 ^ c else a) 0
    some (fieldSet (s.reg (uTMB p n) 0x040) Fld.TMB_STAT_CTX_BOUND b)
  else if off = 0x044 then w ((pagePos s p n).elim 0 (storeUsed s p))
  else if 0x054 ≤ off ∧ off < 0x080 ∨ off = 0x080 then
    if !s.bringup then w 0
    else match cap with
      | none => w 0
      | some a =>
        if off = 0x054 then w (b2n a.nan + 2 * b2n a.pinf + 4 * b2n a.ninf + 8 * b2n a.allneg0 + 16 + 128 * a.n)
        else if off = 0x080 then w (b2n a.fin + 2 * b2n a.neg0 + 4 * b2n a.pos0)
        else w (bits (ofSigned 320 a.a) (32 * ((off - 0x058) / 4) + 31) (32 * ((off - 0x058) / 4)))
  else if 0x100 ≤ off ∧ off < 0x200 then
    match pageCtx s p n ((off - 0x100) / 16) with
    | none => w 0
    | some x => match off % 16 with
      | 0 => w (x.inFmt + 16 * x.outFmt + 256 * x.op + 1024 * b2n x.wide + 2048 * b2n x.stoch + 4096 * b2n x.ovfInf + 8192 * x.stateCode +
          65536 * x.lastStatus)
      | 4 => w (x.chunkCells + 65536 * (x.foot / 1024))
      | 8 => w x.lastIdx
      | _ => w (x.lastIdx / 2 ^ 32)
  else none

end Sys2Proof.Machine
end

