-- ==== Sys2Proof/Machine/PortCore.lean ====
section
/-! DEFINITION. Sys2Proof/Machine/PortCore.lean: the link state of ports and lanes, cells as bits (Table 10.2), and link control
messages that wait for a message position (R301). -/

namespace Sys2Proof.Machine

/-- Change the adaptive side of a plane. -/
def modFab (p : PlaneId) (f : Fabric → Fabric) (s : State) : State := s.modPl p (fun x => { x with fab := f x.fab })
/-- The adaptive side of a plane. -/
def State.fab (s : State) (p : PlaneId) : Fabric := (s.pl p).fab
/-- A port's link. -/
def linkOf (s : State) (p : PlaneId) (n : Nat) : PortLink := mgetD (s.fab p).links n {}
/-- Change a port's link. -/
def modLink (p : PlaneId) (n : Nat) (f : PortLink → PortLink) (s : State) : State :=
  modFab p (fun x => { x with links := mput x.links n (f (mgetD x.links n {})) }) s
/-- A lane's link. -/
def laneOf (s : State) (p : PlaneId) (n : Nat) : LaneLink := mgetD (s.fab p).lanes n {}
/-- Change a lane's link. -/
def modLane (p : PlaneId) (n : Nat) (f : LaneLink → LaneLink) (s : State) : State :=
  modFab p (fun x => { x with lanes := mput x.lanes n (f (mgetD x.lanes n {})) }) s

/-! ### Cells as bits (R283) -/

/-- The 16-byte header of a cell as a number (Table 10.2). -/
def Cell.header (c : Cell) : Nat :=
  c.pos % 4 + 4 * b2n c.sched + 8 * (c.vc % 8) + 64 * (c.cls % 4) + 256 * b2n c.poison + 512 * b2n c.f2 + 2 ^ 16 * (c.dest % 65536) +
    2 ^ 32 * (c.src % 65536) + 2 ^ 48 * (c.flen % 4096) + 2 ^ 64 * (c.tag % 2 ^ 64)

/-- The 272 bytes of a cell position. -/
def Cell.bits (c : Cell) : BitVec 2176 := (c.data.setWidth 2176 <<< 128) ||| BitVec.ofNat 2176 c.header

/-- The cell in a cell position, and whether its reserved fields are 0. -/
def cellOf (b : BitVec 2176) : Cell × Bool :=
  let h := (b.extractLsb' 0 128).toNat
  ({ pos := h % 4, sched := bit h 2, vc := bits h 5 3, cls := bits h 7 6, poison := bit h 8, f2 := bit h 9, dest := bits h 31 16
     src := bits h 47 32, flen := bits h 59 48, tag := bits h 127 64, data := b.extractLsb' 128 2048 },
   bits h 15 10 = 0 && bits h 63 60 = 0)

/-- The fields of a header agree with its POS (Table 10.2): a scheduled cell is ONLY with DEST, SRC, FLEN and VC 0; a single-cell frame
has one cell, a HEAD begins at least two, and a MID or TAIL has an index above 0. -/
def Cell.consistent (c : Cell) : Bool :=
  if c.sched then c.pos = 3 && c.dest = 0 && c.src = 0 && c.flen = 0 && c.vc = 0
  else match c.pos with
    | 3 => c.flen = 1
    | 1 => decide (2 ≤ c.flen)
    | _ => decide (1 ≤ c.flen)

/-- A payload laid out as a latch message (Table 3.7): a known TYPE and reserved bytes 0. A single-cell CONTROL frame with such a
payload is taken to be a latch message (assumption log 40). -/
def latchForm (d : Payload) : Bool :=
  let v := d.toNat
  decide (1 ≤ bits v 7 0 ∧ bits v 7 0 ≤ 4) && bits v 63 60 + bits v 2047 128 = 0

/-- An adaptive cell that is a whole latch message. (DEDUCED, log 40) -/
def Cell.isLatch (c : Cell) : Bool := !c.sched && c.cls = 1 && c.pos = 3 && latchForm c.data

/-- A relock waits for its cells or runs (R32): new credits are withheld on every port. -/
def relocking (s : State) (p : PlaneId) : Bool := (s.pl p).relock.isSome || s.get (pu p .PLN) Fld.PLN_STATE = 5

/-! ### Link control messages -/

/-- Queue a message on a lane. -/
def queueCtl (p : PlaneId) (lane : Nat) (m : CtlMsg) (s : State) : State := modLane p lane (fun l => { l with tx := l.tx ++ [m] }) s

/-- The 48 bytes of a message of one MTYPE and a body. -/
def ctlBytes (kind : Nat) (body : List Byte) : List Byte := sliceB (BitVec.ofNat 8 kind :: body) 0 48

/-- The fields of Table 3.1, bit-packed in table order (Table 10.4). -/
def timeBits (m : TsyncMsg) : Nat :=
  (if m.echo then 2 else 1) + 2 ^ 2 * (m.seq % 2 ^ 16) + 2 ^ 18 * (m.state % 8) + 2 ^ 21 * (m.depth % 16) + 2 ^ 25 * (m.tTx % 2 ^ 70) +
    2 ^ 95 * (m.tRxPrev % 2 ^ 70)

/-- A TIME message. -/
def timeBody (m : TsyncMsg) : List Byte := ctlBytes 2 (bytesOf 47 (timeBits m))

/-- The fields of Table 3.1 in a TIME message. -/
def timeOf (b : List Byte) : TsyncMsg :=
  let v := ofBytes (b.drop 1)
  { echo := bits v 1 0 = 2, seq := bits v 17 2, state := bits v 20 18, depth := bits v 24 21, tTx := bits v 94 25, tRxPrev := bits v 164 95 }

/-- The lanes of a port that are in use. -/
def actLanes (s : State) (p : PlaneId) (n : Nat) : List Nat :=
  (portLanes s p n).filter (fun l => bit (s.get (uFPT p n) Fld.FPT_STAT_LANE_ACT) (l - n) && !(linkOf s p n).bad.contains (l - n))

/-- The lowest lane of a port in use: messages that a rule sends on a port leave on it (assumption log 41). -/
def ctlLane (s : State) (p : PlaneId) (n : Nat) : Nat := (actLanes s p n).headD n

/-- A TSYNC or TSYNC_ECHO is queued on a port (R74). Its T_TX is written as it is sent. (DESIGN CHOICE, log 41) -/
def sendTime (p : PlaneId) (n : PortId) (m : TsyncMsg) (s : State) : State :=
  queueCtl p (ctlLane s p n.val) { kind := 2, body := timeBody m, due := s.ft p } s

/-! ### Shapers (R357, R358) -/

/-- A bucket brought to a slot boundary; while SHAPE_EN is 0 it holds its burst. -/
def Shaper.refill (b : Shaper) (slot : Nat) : Shaper :=
  if !b.en then { b with tok := ((b.burst * 422400 : Nat) : Int), slot := slot }
  else if b.slot < slot then
    { b with tok := min (b.tok + ((b.rate * 20 * (slot - b.slot) : Nat) : Int)) ((b.burst * 422400 : Nat) : Int), slot := slot }
  else { b with slot := slot }

/-- A bucket permits a cell. -/
def Shaper.may (b : Shaper) : Bool := !b.en || decide (0 < b.tok)
/-- A cell is charged. -/
def Shaper.charge (b : Shaper) : Shaper := if b.en then { b with tok := b.tok - 422400 } else b

/-- A write of RATE, BURST or SHAPE_EN (R358): the refill of the boundary in this beat uses the old values; the count is kept and capped;
setting SHAPE_EN loads the bucket full. -/
def Shaper.write (b : Shaper) (slot : Nat) (en : Bool) (rate burst : Nat) : Shaper :=
  let b := b.refill slot
  let full : Int := ((burst * 422400 : Nat) : Int)
  { b with en := en, rate := rate, burst := burst, tok := if !en || !b.en then full else min b.tok full }

end Sys2Proof.Machine
end

