-- ==== Sys2Proof/Machine/DrainCore.lean ====
section
/-! DEFINITION. Sys2Proof/Machine/DrainCore.lean: the frames in flight and what a latch entry's end means to a drain (R332, R333). -/

namespace Sys2Proof.Machine

/-- RTE_STAT.STATE: 0 ISOLATED, 1 RUN, 2 ARMED, 3 HOLDING, 4 DRAINED, 5 COMMITTED. -/
def rteState (s : State) (p : PlaneId) : Nat := s.get (pu p .RTE) Fld.RTE_STAT_STATE
/-- Set RTE_STAT.STATE. -/
def setRte (p : PlaneId) (v : Nat) (s : State) : State := s.put (pu p .RTE) Fld.RTE_STAT_STATE v

/-- Adaptive injection is held (Table 11.7). -/
def held (s : State) (p : PlaneId) : Bool := rteState s p ≠ 1 && rteState s p ≠ 2

/-- Whether the plane holds a cell of a frame: in the packet buffer, in a reorder buffer, or come and still to be written. -/
def holdsCell (f : Fabric) (x : Held) : Bool :=
  f.bufs.any (·.2.frame = x.id) ||
    (x.rob.isSome && (f.robs.any (fun e => e.2.any (fun r => r.frames.any (·.1 = x.id))) ||
      f.queues.any (fun e => e.2.any (fun c => c.frame = x.id && decide (c.sent < x.data.length))))) ||
    f.arrived.any (fun a => a.2.pos ≠ 1 && a.2.pos ≠ 3 && (mget (mgetD f.links a.1 {}).asm a.2.vc).any (·.frame = x.id))

/-- RTE_INFLIGHT (R332): adaptive frames other than latch messages of which the packet buffer or a reorder buffer holds a cell, frames
whose heads have come and are still to be written, and frames sent whose last cell the far end has not acknowledged. -/
def inflight (s : State) (p : PlaneId) : Nat :=
  let f := s.fab p
  ((f.frames.filter (fun x => !x.latch && holdsCell f x)).map (·.origin)).eraseDups.length +
  (f.arrived.filter (fun a => (a.2.pos = 1 || a.2.pos = 3) && !a.2.isLatch)).length +
  (f.links.map (fun l => (l.2.retry.filter (fun c => !c.cell.sched && (c.cell.pos = 2 || c.cell.pos = 3) && !c.cell.isLatch)).length)).sum

/-- A latch entry of the plane ends (R333): CHECK_ENT RELEASED samples INFLIGHT at the end of the beat; CONFIRM_ENT RELEASED in
HOLDING drains the plane; either entry ending TIMEOUT, ABORTED or MISSED there sets DRAIN_FAIL. `st` is the entry's state. -/
def drainOutcome (p : PlaneId) (e st : Nat) (s : State) : State :=
  let u := pu p .RTE
  let chk := s.get u Fld.RTE_DRAIN_CHECK_ENT = e
  let cnf := s.get u Fld.RTE_DRAIN_CONFIRM_ENT = e
  let s := if chk ∧ st = 4 then modFab p (fun f => { f with sample := true }) s else s
  if rteState s p ≠ 3 then s
  else if cnf ∧ st = 4 then
    -- A drain confirmed in the resume beat leaves no time for writes: the plane stays HOLDING and becomes ISOLATED (R335).
    if (s.fab p).resume ∧ s.get64 u Fld.RTE_RESUME_LO_RES_LO Fld.RTE_RESUME_HI_RES_HI = s.ft p then s else setRte p 4 s
  else if (chk ∨ cnf) ∧ 5 ≤ st then s.put u Fld.RTE_STAT_DRAIN_FAIL 1 else s

/-- The end of a beat in which CHECK_ENT became RELEASED: ZERO_AT_CHECK. -/
def drainSample (p : PlaneId) (s : State) : State :=
  if (s.fab p).sample then
    modFab p (fun f => { f with sample := false }) (s.put (pu p .RTE) Fld.RTE_STAT_ZERO_AT_CHECK (b2n (inflight s p = 0)))
  else s

end Sys2Proof.Machine
end

