-- ==== Sys2Proof/Machine/Route.lean ====
section
/-! DEFINITION. Sys2Proof/Machine/Route.lean: topology, routes, ownership and the drain (R311 to R337). -/

namespace Sys2Proof.Machine

/-! ### Ports of the topology -/

/-- FPT_CFG.ROLE of a port: 1 ACCEL, 2 TORUS, 3 SPINE_UP, 4 SPINE_DOWN. -/
def portRole (s : State) (p : PlaneId) (n : Nat) : Nat := s.get (uFPT p n) Fld.FPT_CFG_ROLE
/-- FPT_PLAN.PLAN_ADDR of a port. -/
def planAddr (s : State) (p : PlaneId) (n : Nat) : Nat := s.get (uFPT p n) Fld.FPT_PLAN_PLAN_ADDR
/-- RTE_ADMIT of a port. -/
def admitted (s : State) (p : PlaneId) (n : Nat) : Bool := bit (s.get (pu p .RTE) (Fld.RTE_ADMIT.at (n / 32))) (n % 32)
/-- RTE_OWN of a lane position. -/
def ownerOf (s : State) (p : PlaneId) (n : Nat) : Nat :=
  bits (s.reg (pu p .RTE) (0x100 + 4 * (n / 4))).toNat (8 * (n % 4) + 7) (8 * (n % 4))
/-- A port whose owner is a frame's job; a link that no job owns is nobody's (R329). -/
def ownedBy (s : State) (p : PlaneId) (job n : Nat) : Bool := job ≠ 0 && ownerOf s p n = job
/-- Channels of a port (R298). -/
def portVcs (s : State) (p : PlaneId) (n : Nat) : Nat := if s.on (uFPT p n) Fld.FPT_CFG_VC8 then 8 else 4
/-- AVAIL of a channel. -/
def availOf (s : State) (p : PlaneId) (n v : Nat) : Nat := s.get (uFPT p n) (Fld.FPT_VC_AVAIL.at v)
/-- The enabled ports with a role. -/
def portsOf (s : State) (p : PlaneId) (role : Nat) : List Nat := (List.range 128).filter (fun n => portPen s p n && portRole s p n = role)

/-- This module's address, job and kind (RTE_ID). -/
def selfAddr (s : State) (p : PlaneId) : Nat := s.get (pu p .RTE) Fld.RTE_ID_MOD_ADDR
def myJob (s : State) (p : PlaneId) : Nat := s.get (pu p .RTE) Fld.RTE_ID_MY_JOB
def spineMod (s : State) (p : PlaneId) : Bool := s.on (pu p .RTE) Fld.RTE_ID_SPINE_MOD

/-- Coordinate of an address on an axis (0 X, 1 Y, 2 Z), and its domain (Table 11.2). -/
def coord (m a : Nat) : Nat := bits m (4 * a + 3) (4 * a)
def domainOf (m : Nat) : Nat := bits m 15 12
/-- An address with one coordinate replaced. -/
def withCoord (m a c : Nat) : Nat := m - coord m a * 2 ^ (4 * a) + c * 2 ^ (4 * a)
/-- The extent of an axis (RTE_EXT). -/
def extent (s : State) (p : PlaneId) (a : Nat) : Nat := bits (s.reg (pu p .RTE) 0x044).toNat (5 * a + 4) (5 * a)
/-- RTE_EXT.WRAP of an axis. -/
def wraps (s : State) (p : PlaneId) (a : Nat) : Bool := bit (s.get (pu p .RTE) Fld.RTE_EXT_WRAP) a
/-- LO and HI of the job slice's box on an axis (RTE_BOX). -/
def boxLo (s : State) (p : PlaneId) (a : Nat) : Nat := bits (s.reg (pu p .RTE) 0x048).toNat (8 * a + 3) (8 * a)
def boxHi (s : State) (p : PlaneId) (a : Nat) : Nat := bits (s.reg (pu p .RTE) 0x048).toNat (8 * a + 7) (8 * a + 4)

/-- Axis and direction of a torus port (Table 1.9): true for +. -/
def torusDir (n : Nat) : Option (Nat × Bool) :=
  if 64 ≤ n ∧ n < 112 ∧ n % 4 = 0 then some ((n - 64) / 16, (n - 64) % 16 < 8) else none

/-- The neighbor's coordinate in a direction (R314). -/
def neighborC (k c : Nat) (plus : Bool) : Nat := if plus then (c + 1) % k else (c + k - 1) % k

/-- A link from coordinate `c` in a direction crosses the hinge line of its ring (R322). -/
def crossesHinge (k c : Nat) (plus : Bool) : Bool := if plus then c + 1 = k else c = 0

/-- The module is flat (Table 11.1): it is no spine module and no enabled port leads to another module. (DEDUCED, log 48) -/
def flatMod (s : State) (p : PlaneId) : Bool := !spineMod s p && (List.range 128).all (fun n => !portPen s p n || portRole s p n ≤ 1)

/-! ### Endpoints and chips -/

/-- The endpoint table's entry (R316, R337). -/
def epEntry (s : State) (p : PlaneId) (e : Nat) : Nat := (s.reg (pu p .RTE) (4096 * (1 + e / 512) + 0x800 + 4 * (e % 512))).toNat
def epMod (w : Nat) : Nat := bits w 15 0
def epPort (w : Nat) : Nat := bits w 22 16
def epValid (w : Nat) : Bool := bit w 24
/-- The chip table's words (R319, R337). -/
def chipLo (s : State) (p : PlaneId) (c : Nat) : Nat := (s.reg (pu p .RTE) (4096 * (129 + c / 256) + 0x800 + 8 * (c % 256))).toNat
def chipHi (s : State) (p : PlaneId) (c : Nat) : Nat := (s.reg (pu p .RTE) (4096 * (129 + c / 256) + 0x804 + 8 * (c % 256))).toNat

/-! ### Routes (R320 to R325, R329) -/

/-- What RTE decides for a frame or a copy: the plane's units, an egress port with its channel, or a discard: 0 NOROUTE, 1 LOOP, 2 OWN,
3 NOROUTE for a spray set without an active member. -/
inductive Route where
  | units
  | port (n chan : Nat)
  | discard (why : Nat)
  deriving DecidableEq, Repr

/-- A frame as routing sees it. -/
structure Req where
  cls : Nat
  dest : Nat
  src : Nat
  tc : Nat
  job : Nat
  inPort : Option Nat
  inVc : Nat
  deriving DecidableEq, Repr

/-- The flow hash (R324). -/
def flowHash (src dest tc : Nat) : Nat := crc16 (bytesOf 2 src ++ bytesOf 2 dest ++ bytesOf 1 tc)

/-- The members of `l` from position `i` on, wrapping. -/
def rotate (l : List Nat) (i : Nat) : List Nat := l.drop i ++ l.take i

/-- The member that a frame takes of a set whose configured members are `ms` and active members satisfy `act` (R324). -/
def sprayPick (s : State) (p : PlaneId) (r : Req) (ms : List Nat) (act : Nat → Bool) (chan : Nat) : Option Nat :=
  if r.cls = 2 ∨ r.cls = 3 then
    let l := ms.filter act
    l.find? (fun n => l.all (fun m => availOf s p m chan < availOf s p n chan || (availOf s p m chan = availOf s p n chan && decide (n ≤ m))))
  else if ms = [] then none
  else (rotate ms (flowHash r.src r.dest r.tc % ms.length)).find? act

/-- Route over a spray set of ports (R323, R329). A member that the module has taken out of its set is not active, and keeps its index until
the next COMMIT, so that the flows of the other members do not move (R325). (DEDUCED, log 49) (DEDUCED, log 120) -/
def spray (s : State) (p : PlaneId) (r : Req) (set : List Nat) (chan : Nat) : Route :=
  let ms := set.filter (admitted s p)
  let mine := ms.filter (ownedBy s p r.job)
  if ms ≠ [] ∧ mine = [] then .discard 2
  else
    let all := set.filter (fun n => admitted s p n || (s.fab p).left.contains n)
    match sprayPick s p r all (fun n => portUp s p n && admitted s p n && ownedBy s p r.job n) chan with
    | some n => .port n chan
    | none => .discard 3

/-- The half H of a hop on an axis (R322): kept from an arrival on the same axis and direction, set by a hinge crossing. -/
def halfOf (s : State) (p : PlaneId) (r : Req) (a : Nat) (plus : Bool) : Nat :=
  let kept : Bool := match r.inPort with
    | some n => portRole s p n = 2 && (torusDir n).map (·.1) = some a && r.inVc % 2 = 1
    | none => false
  b2n (kept || crossesHinge (extent s p a) (coord (selfAddr s p) a) plus)

/-- The direction from coordinate `c` to `t` on an axis (R321): true for +. -/
def dirTo (s : State) (p : PlaneId) (a c t : Nat) : Bool :=
  if wraps s p a then
    let k := extent s p a
    let d := (t + k - c % k) % k
    decide (d ≤ k - d)
  else decide (c < t)

/-- The route to a module other than this one (R320). -/
def routeAway (s : State) (p : PlaneId) (r : Req) (m : Nat) : Route :=
  let self := selfAddr s p
  if spineMod s p then
    match (portsOf s p 4).filter (fun n => planAddr s p n = m) with
    | [] => spray s p r ((portsOf s p 4).filter (fun n => domainOf (planAddr s p n) = domainOf m)) (2 * r.tc)
    | l => match l.find? (fun n => portUp s p n && ownedBy s p r.job n) with
      | some n => .port n (2 * r.tc)
      | none => if l.any (ownedBy s p r.job) then .discard 0 else .discard 2
  else if flatMod s p then .discard 0
  else if domainOf m ≠ domainOf self then
    match r.inPort with
    | some n => if portRole s p n = 1 then spray s p r (portsOf s p 3) (2 * r.tc) else .discard 1
    | none => spray s p r (portsOf s p 3) (2 * r.tc)
  else match [0, 1, 2].find? (fun a => coord m a ≠ coord self a) with
    | none => .discard 0
    | some a =>
      let plus := dirTo s p a (coord self a) (coord m a)
      let set := (portsOf s p 2).filter (fun n => torusDir n = some (a, plus))
      spray s p r set (2 * r.tc + halfOf s p r a plus)

/-- The route of a frame (R320). A local accelerator port must carry traffic, or be FENCED, which admission masks (R307, R349). -/
def route (s : State) (p : PlaneId) (r : Req) : Route :=
  if r.cls = 1 then (if r.dest = selfAddr s p then .units else routeAway s p r r.dest)
  else
    let e := epEntry s p r.dest
    if !epValid e then .discard 0
    else if epMod e = selfAddr s p then
      if portUp s p (epPort e) || (portPen s p (epPort e) && portState s p (epPort e) = 6) then .port (epPort e) r.tc else .discard 0
    else routeAway s p r (epMod e)

/-- Count a frame that routing discards, and report it (R317, R320, R329). -/
def countDiscard (p : PlaneId) (why dest src : Nat) (s : State) : State :=
  let u := pu p .RTE
  match why with
  | 1 => report u 4 .c dest src (s.incSat u Fld.RTE_DISC_OWN_LOOP)
  | 2 => report u 5 .c dest src (s.incSat u Fld.RTE_DISC_OWN)
  | _ => report u 2 .c dest src (s.incSat u Fld.RTE_DISC_SRC_NOROUTE)

/-! ### Frames from an accelerator port (R317 to R319) -/

/-- What the source check and the translation make of a frame's head: its new DEST, or a discard: 1 source, 5 F2. -/
def acceptHead (s : State) (p : PlaneId) (n : Nat) (c : Cell) : Except Nat Nat :=
  if portRole s p n ≠ 1 then .ok c.dest
  else
    let e := epEntry s p c.src
    if ¬ (epValid e ∧ epMod e = selfAddr s p ∧ epPort e = n) then .error 1
    else if !c.f2 then .ok c.dest
    else
      let chip := c.dest % 2 ^ 14
      let lo := chipLo s p chip
      let off := bits c.data.toNat 47 0
      if ¬ s.on (pu p .RTE) Fld.RTE_EXT_F2_EN ∨ c.cls ≠ 0 ∨ 2 ^ 14 ≤ c.dest ∨ ¬ bit lo 16 ∨ chipHi s p chip * 65536 ≤ off then .error 5
      else .ok (bits lo 15 0)

/-- Count a frame that the checks at an accelerator ingress discard. -/
def countIngress (p : PlaneId) (why dest src : Nat) (s : State) : State :=
  let u := pu p .RTE
  if why = 1 then report u 1 .c dest src (s.incSat u Fld.RTE_DISC_SRC) else report u 3 .c dest src (s.incSat u Fld.RTE_DISC_F2)

/-! ### The drain (R331 to R336) -/

/-- HOLD_FT and the resume time. -/
def holdFt (s : State) (p : PlaneId) : Nat := s.get64 (pu p .RTE) Fld.RTE_HOLD_LO Fld.RTE_HOLD_HI
def resumeFt (s : State) (p : PlaneId) : Nat := s.get64 (pu p .RTE) Fld.RTE_RESUME_LO_RES_LO Fld.RTE_RESUME_HI_RES_HI

/-- The offsets of a plane's RTE tables that hold an entry other than its reset. -/
def tableOffs (s : State) (p : PlaneId) : List Nat :=
  (((mgetD s.regs (pu p .RTE) []).map (·.1)) ++ ((mgetD (s.cfg.planes.get p).plan ((pu p .RTE) % 256) []).map (·.1))).filter (0x1000 ≤ ·)

/-- An axis whose WRAP bit breaks R330. -/
def badWrap (s : State) (p : PlaneId) (a : Nat) : Bool :=
  wraps s p a && !(boxLo s p a = 0 && boxHi s p a + 1 = extent s p a)

/-- A port whose owner breaks R330, or an owner byte of a lane that starts no torus or spine port. -/
def badOwner (s : State) (p : PlaneId) (n : Nat) : Bool :=
  let o := ownerOf s p n
  let role := if portPen s p n then portRole s p n else 0
  if role < 2 then o ≠ 0
  else if spineMod s p then false
  else (decide (role ≤ 3) && o ≠ 0 && o ≠ myJob s p) || (role = 2 && o ≠ 0 && match torusDir n with
    | none => false
    | some (a, plus) =>
      let c := coord (selfAddr s p) a
      let k := extent s p a
      let t := neighborC k c plus
      decide (t < boxLo s p a ∨ boxHi s p a < t) || (crossesHinge k c plus && !wraps s p a))

/-- An enabled torus port whose PLAN_ADDR is not its neighbor's address (R314). -/
def badNeighbor (s : State) (p : PlaneId) (n : Nat) : Bool :=
  portPen s p n && portRole s p n = 2 && match torusDir n with
    | none => true
    | some (a, plus) =>
      let self := selfAddr s p
      planAddr s p n ≠ withCoord self a (neighborC (extent s p a) (coord self a) plus)

/-- A table entry that breaks the RANGE checks of COMMIT. -/
def badEntry (s : State) (p : PlaneId) (off : Nat) : Bool :=
  let w := (s.reg (pu p .RTE) off).toNat
  if off < 0x81000 then
    bit w 23 || bits w 31 25 ≠ 0 || (epValid w && epMod w = selfAddr s p && !(portPen s p (epPort w) && portRole s p (epPort w) = 1))
  else off % 8 = 0 && bits w 31 17 ≠ 0

/-- The checks of COMMIT on the whole routing state (R334). -/
def commitVerdict (s : State) (p : PlaneId) : Verdict :=
  let self := selfAddr s p
  let kx := extent s p 0
  let ky := extent s p 1
  let kz := extent s p 2
  let inside := decide (coord self 0 < kx ∧ coord self 1 < ky ∧ coord self 2 < kz)
  let place := if spineMod s p then inside else (!flatMod s p && !inside)
  let box := [0, 1, 2].any (fun a => decide (extent s p a < boxHi s p a ∨ boxHi s p a < boxLo s p a))
  let offs := tableOffs s p
  { state := !(rteState s p = 4 || rteState s p = 0)
    range := decide (1024 < kx * ky * kz) || place || box || [0, 1, 2].any (badWrap s p) ||
      (List.range 128).any (fun n => badOwner s p n || badNeighbor s p n) || offs.any (badEntry s p)
    zero := kx = 0 || ky = 0 || kz = 0 ||
      offs.any (fun o => decide (0x81000 ≤ o) && o % 8 = 0 && bit (s.reg (pu p .RTE) o).toNat 16 && (s.reg (pu p .RTE) (o + 4)).toNat = 0) }

/-- The checks of RTE writes (R331, R334, R336). -/
def rteVerdict (s : State) (p : PlaneId) (off : Nat) (v : Word) : Verdict :=
  let st := rteState s p
  if off = 0x07C then
    let n := b2n (v.getLsbD 0) + b2n (v.getLsbD 1) + b2n (v.getLsbD 2)
    let base : Verdict := { range := decide (1 < n) }
    if 1 < n then base
    else if v.getLsbD 0 then { base with
      state := !(st = 1 && s.on (pu p .PLN) Fld.PLN_STATE_FT_LOCKED), range := !decide (holdFt s p < resumeFt s p) }
    else if v.getLsbD 1 then commitVerdict s p
    else if v.getLsbD 2 then { base with state := st ≠ 5 || decide (resumeFt s p < s.ft p) }
    else base
  else if off = 0x064 then { state := !(st = 4 || st = 0) }
  else if off = 0x068 ∨ off = 0x06C then { state := st ≠ 1 }
  else if off = 0x070 ∨ off = 0x074 then { state := !(st = 1 || st = 0 || st = 5) }
  else if (0x040 ≤ off ∧ off < 0x064) ∨ (0x100 ≤ off ∧ off < 0x180) ∨ 0x1000 ≤ off then { state := !(st = 4 || st = 0) }
  else {}

/-- Credits held back from accelerator ports return when injection opens (R332), unless a relock still withholds them (R32). -/
def returnOwed (p : PlaneId) (s : State) : State :=
  if relocking s p then s
  else modFab p (fun f => { f with links := f.links.map (fun e => (e.1, { e.2 with
    given := e.2.owed.foldl (fun g o => mput g o.1 ((mgetD g o.1 0 + o.2) % 4096)) e.2.given, owed := [] })) }) s

/-- The plane becomes ISOLATED: every adaptive frame it holds is discarded and counted, and the credits of its cells return (R331). -/
def enterIsolated (p : PlaneId) (s : State) : State :=
  let f := s.fab p
  let creds := f.bufs.filterMap (fun e => e.2.credit)
  let s := f.frames.foldl (fun t x => if x.latch ∧ x.toUnits then t else t.incSat (pu p .RTE) Fld.RTE_DISC_F2_ISO) s
  let s := creds.foldl (fun t c => modLink p c.1 (fun l =>
    if portRole t p c.1 = 1 then { l with owed := mput l.owed c.2 (mgetD l.owed c.2 0 + 1) }
    else { l with given := mput l.given c.2 ((mgetD l.given c.2 0 + 1) % 4096) }) t) s
  setRte p 0 (modFab p (fun f => { f with frames := [], cands := [], queues := [], bufs := [], robs := [], resume := false, resumeHit := false }) s)

/-- HOLD_FT: an ARMED plane enters HOLDING at HOLD_FT, or in the beat after a START that came later (R331, R334). -/
def execHoldFt (p : PlaneId) (s : State) : Out :=
  if rteState s p = 2 ∧ holdFt s p ≤ s.ft p ∧ (s.fab p).startAt < s.ft p then .next (setRte p 3 s) else .next s

/-- A COMMITTED plane becomes RUN at its resume time (R334). -/
def resumeRun (p : PlaneId) (s : State) : State :=
  returnOwed p (setRte p 1 (modFab p (fun f => { f with resume := false, resumeHit := false }) s))

/-- A plane that reached its resume time without a commit becomes ISOLATED and reports ROUTE_DRAIN (R335). -/
def missResume (p : PlaneId) (s : State) : State := enterIsolated p (detect (pu p .RTE) 7 .u 0 0 s)

/-- RESUME_TIME: at the armed resume time a COMMITTED plane becomes RUN, and a HOLDING or DRAINED plane ISOLATED. A COMMIT of the same beat
comes first, so that a DRAINED plane is ISOLATED at the end of the beat (R335). -/
def execResumeTime (p : PlaneId) (s : State) : Out :=
  let st := rteState s p
  if (s.fab p).resume ∧ resumeFt s p ≤ s.ft p then
    if st = 5 then .next (resumeRun p s)
    else if st = 3 then .next (missResume p s)
    else if st = 4 then .next (if resumeFt s p = s.ft p then modFab p (fun f => { f with resumeHit := true }) s else missResume p s)
    else .next s
  else .next s

/-- The end of a beat: a DRAINED plane whose resume time was reached in it, and that no COMMIT followed, becomes ISOLATED (R335). -/
def endResume (p : PlaneId) (s : State) : State := if (s.fab p).resumeHit then missResume p s else s

/-- The effects of RTE_CTL writes (R334). -/
def rteEffect (p : PlaneId) (off : Nat) (v : Word) (s : State) : State :=
  if off = 0x07C then
    if v.getLsbD 0 then setRte p 2 (modFab p (fun f => { f with resume := true, startAt := s.ft p }) s)
    else if v.getLsbD 1 then
      let hit := (s.fab p).resumeHit
      let s := setRte p 5 (modFab p (fun f => { f with left := [] }) s)
      if hit then resumeRun p s else s
    else if v.getLsbD 2 then modFab p (fun f => { f with resume := true }) s
    else s
  else s

/-- The RTE registers that show other state: RTE_INFLIGHT. -/
def rteRead (s : State) (p : PlaneId) (off : Nat) : Option Word :=
  if off = 0x084 then some (BitVec.ofNat 32 (min (inflight s p) 0xFFFFF)) else none

end Sys2Proof.Machine
end

