-- ==== Sys2Proof/Machine/Switch.lean ====
section
/-! DEFINITION. Sys2Proof/Machine/Switch.lean: the adaptive switch core: its buffer, admission, policing, drop profiles, multicast,
reorder buffers, egress scheduling, shapers, ageing and audit (R326 to R328, R338 to R366). -/

namespace Sys2Proof.Machine

/-! ### Epoch tables (R362, R364) -/

/-- Key of a word of an epoch table. -/
def tblKey (bank table idx word : Nat) : Nat := ((bank * 4 + table) * 512 + idx) * 8 + word

/-- The reset value of a word (R364). -/
def tblReset (table idx word : Nat) : Word :=
  match table, word with
  | 0, 0 => BitVec.ofNat 32 (1 + 2 * b2n (idx = 3) + 1000 * 2 ^ 16)
  | 1, 6 => 9
  | 1, 0 => 0x1FFF1FFF#32
  | 1, 2 => 0x1FFF1FFF#32
  | 1, 4 => 0x1FFF1FFF#32
  | _, _ => 0

/-- A word of an epoch table. -/
def tblWord (s : State) (p : PlaneId) (bank table idx word : Nat) : Nat :=
  (mgetD (s.fab p).tbl (tblKey bank table idx word) (tblReset table idx word)).toNat

/-- SWC_EPOCH.CUR. -/
def curBank (s : State) (p : PlaneId) : Nat := s.get (pu p .SWC) Fld.SWC_EPOCH_CUR

def tcLossless (s : State) (p : PlaneId) (bank tc : Nat) : Bool := bit (tblWord s p bank 0 tc 0) 0
def tcAge (s : State) (p : PlaneId) (bank tc : Nat) : Nat := bits (tblWord s p bank 0 tc 0) 31 16
/-- The control class: the TC whose CTRL bit is set (R341). -/
def ctrlTc (s : State) (p : PlaneId) : Nat := ((List.range 4).find? (fun t => bit (tblWord s p (curBank s p) 0 t 0) 1)).getD 3

/-! ### The buffer (R338 to R340) -/

/-- CELLS of the partition in force. -/
def bufCells (s : State) (p : PlaneId) : Nat := partAdapt (partNow s p) * 16384
/-- FREE. -/
def bufFree (s : State) (p : PlaneId) : Nat := bufCells s p - (s.fab p).bufs.length
/-- HELD. -/
def bufHeld (s : State) (p : PlaneId) : Nat := ((s.fab p).bufs.filter (·.2.credit.isSome)).length
/-- GRANT of a channel. -/
def grantOf (s : State) (p : PlaneId) (n v : Nat) : Nat := s.get (uFPT p n) (Fld.FPT_VC_GRANT.at v)
/-- RESV: the grants of every enabled port's channels. (DEDUCED, log 50) -/
def bufResv (s : State) (p : PlaneId) : Nat :=
  (((List.range 128).filter (portPen s p)).map (fun n => ((List.range (portVcs s p n)).map (grantOf s p n)).sum)).sum
/-- MAX_FLEN. -/
def maxFlen (s : State) (p : PlaneId) : Nat := s.get (pu p .SWC) Fld.SWC_CFG_MAX_FLEN
/-- OVERCOMMIT (R340). (DEDUCED, log 50) -/
def overcommit (s : State) (p : PlaneId) : Bool := bufCells s p < bufResv s p + maxFlen s p

/-- The check at an accepted PEN write and at a partition apply (R340). -/
def checkCommit (p : PlaneId) (s : State) : State :=
  if overcommit s p then detect (pu p .SWC) 1 .u (bufResv s p % 2 ^ 32) (bufCells s p) s else s

/-- The lowest buffer cell that is free (assumption log 13). -/
def lowFree : List Nat → Nat → Nat
  | [], n => n
  | k :: r, n => if k = n then lowFree r (n + 1) else n

/-- A credit returns to a channel's sender, or is kept back: from an accelerator port while injection is held, from every port during a
relock (R32, R299, R332). -/
def returnCredit (p : PlaneId) (n v : Nat) (s : State) : State :=
  modLink p n (fun l =>
    if relocking s p || (held s p && portRole s p n = 1) then { l with owed := mput l.owed v (mgetD l.owed v 0 + 1) }
    else { l with given := mput l.given v ((mgetD l.given v 0 + 1) % 4096) }) s

/-- Return the credit of a freed cell, where it has one. -/
def returnOpt (p : PlaneId) (c : Option (Nat × Nat)) (s : State) : State :=
  match c with
  | some (n, v) => returnCredit p n v s
  | none => s

/-- A frame in the switch core. -/
def frameOf (s : State) (p : PlaneId) (id : Nat) : Option Held := (s.fab p).frames.find? (·.id = id)

/-- Change a frame. -/
def modFrame (p : PlaneId) (id : Nat) (f : Held → Held) (s : State) : State :=
  modFab p (fun x => { x with frames := x.frames.map (fun h => if h.id = id then f h else h) }) s

/-- The copies of a frame in the output queues. -/
def copiesOf (s : State) (p : PlaneId) (id : Nat) : List QCopy := ((s.fab p).queues.flatMap (·.2)).filter (·.frame = id)

/-- Whether a reorder buffer holds a frame. -/
def inRob (s : State) (p : PlaneId) (id : Nat) : Bool :=
  (s.fab p).robs.any (fun e => e.2.any (fun r => r.frames.any (·.1 = id)))

/-- Whether cell `no` of a frame is still needed in the buffer: by a copy that has not sent it, by a candidate copy, or by a unit. A cell that
a reorder buffer takes leaves (R346). -/
def cellNeeded (f : Fabric) (h : Held) (cs : List QCopy) (no : Nat) : Bool :=
  h.toUnits || f.cands.any (·.frame = h.id) || (h.rob.isNone && cs.any (fun c => decide (c.sent ≤ no)))

/-- Whether anything is left of a frame to send, to release or to hand over. -/
def frameLive (s : State) (p : PlaneId) (h : Held) : Bool :=
  h.toUnits || (s.fab p).cands.any (·.frame = h.id) || copiesOf s p h.id ≠ [] || inRob s p h.id

/-- A cell that nothing references leaves the buffer and returns its credit. -/
def freeBuf (p : PlaneId) (s : State) (e : Nat × BufCell) : State :=
  returnOpt p e.2.credit (modFab p (fun f => { f with bufs := mdel f.bufs e.1 }) s)

/-- Free a frame's cells that no copy needs, and the frame itself once nothing is left of it (R343, R348). -/
def tidyFrame (p : PlaneId) (id : Nat) (s : State) : State :=
  match frameOf s p id with
  | none => s
  | some h =>
    let cs := copiesOf s p id
    let s := ((s.fab p).bufs.filter (fun e => e.2.frame = id && !cellNeeded (s.fab p) h cs e.2.no)).foldl (freeBuf p) s
    if h.complete ∧ ¬ frameLive s p h then
      modFab p (fun f => { f with frames := f.frames.filter (·.id ≠ id) }) s
    else s

/-- A frame is truncated (R345): its copies stop, and nothing of it is delivered. -/
def truncateFrame (p : PlaneId) (id : Nat) (s : State) : State :=
  let now := s.beats p
  let s := modFab p (fun f => { f with
    cands := f.cands.filter (·.frame ≠ id)
    queues := f.queues.map (fun e => (e.1, e.2.filter (·.frame ≠ id)))
    robs := f.robs.map (fun e => (e.1, e.2.map (fun r =>
      if r.frames.any (·.1 = id) then
        let left := r.frames.filter (·.1 ≠ id)
        { r with frames := left, idle := if left = [] then now else r.idle }
      else r)))
    frames := f.frames.map (fun h => if h.id = id then { h with complete := true, toUnits := false } else h) }) s
  tidyFrame p id s

/-- Count a truncation or a discarded cell (R345). -/
def countTrunc (p : PlaneId) (s : State) : State := s.incSat (pu p .SWC) Fld.SWC_DISC_B_TRUNC

/-! ### Queues (R341, R342, R359) -/

/-- Whether Table 12.1 uses queue `q` of a port. -/
def queueUsed (s : State) (p : PlaneId) (n q : Nat) : Bool :=
  match portRole s p n with
  | 1 => decide (q < 4)
  | 2 => true
  | 3 => q % 2 = 0
  | 4 => q % 2 = 0
  | _ => false

/-- A queue's settings and counts; a queue that carries TC 3 is strict at reset (Table 12.5). -/
def qState (s : State) (p : PlaneId) (k : Nat) : QState := mgetD (s.fab p).qs k {}
/-- Change a queue's settings and counts. -/
def modQ (p : PlaneId) (k : Nat) (f : QState → QState) (s : State) : State :=
  modFab p (fun x => { x with qs := mput x.qs k (f (mgetD x.qs k {})) }) s
/-- Change a port's scheduler. -/
def modP (p : PlaneId) (n : Nat) (f : PState → PState) (s : State) : State :=
  modFab p (fun x => { x with ps := mput x.ps n (f (mgetD x.ps n {})) }) s
/-- A port's scheduler. -/
def pState (s : State) (p : PlaneId) (n : Nat) : PState := mgetD (s.fab p).ps n {}

/-- STRICT of a queue. -/
def qStrict (s : State) (p : PlaneId) (k : Nat) : Bool :=
  let q := k % 8
  ((qState s p k).strict).getD (match portRole s p (k / 8) with
    | 1 => q = 3
    | 2 => decide (6 ≤ q)
    | 3 => q = 6
    | 4 => q = 6
    | _ => false)

/-- The copies of a queue. -/
def queueOf (s : State) (p : PlaneId) (k : Nat) : List QCopy := mgetD (s.fab p).queues k []
/-- Replace the copies of a queue. -/
def setQueue (p : PlaneId) (k : Nat) (l : List QCopy) (s : State) : State :=
  modFab p (fun f => { f with queues := if l = [] then mdel f.queues k else mput f.queues k l }) s

/-- Cells of a frame written so far. -/
def writtenOf (s : State) (p : PlaneId) (id : Nat) : Nat := ((frameOf s p id).map (·.data.length)).getD 0
/-- DEPTH: cells of a queue's copies that have been written and not yet sent (R359). -/
def depthOf (s : State) (p : PlaneId) (k : Nat) : Nat := ((queueOf s p k).map (fun c => writtenOf s p c.frame - c.sent)).sum

/-- MAXDEPTH of every queue follows its DEPTH. -/
def noteDepths (p : PlaneId) (s : State) : State :=
  (s.fab p).queues.foldl (fun t e => modQ p e.1 (fun q => { q with maxDepth := max q.maxDepth (depthOf s p e.1) }) t) s

/-- The copy of a frame is linked to the tail of a queue (R343, R360). -/
def linkCopy (p : PlaneId) (id dest k : Nat) (s : State) : State :=
  match frameOf s p id with
  | none => s
  | some h =>
    let now := s.ft p
    let c : QCopy := { frame := id, dest := dest, head := h.headAt, admitFt := now, deadline := now + tcAge s p h.epoch h.tc * 1650 }
    setQueue p k (queueOf s p k ++ [c]) s

/-! ### Policing (R351 to R353) -/

/-- A policer's counts brought to a beat under its parameters (R352). -/
def Policer.refill (x : Policer) (now : Nat) : Policer :=
  { x with tc := min (x.tc + x.cur.cir * (now - x.last)) (x.cur.cbs * 422400)
           tp := min (x.tp + x.cur.pir * (now - x.last)) (x.cur.pbs * 422400), last := now }

/-- Parameters applied in an earlier beat come into force: the counts are kept and capped (R353). -/
def Policer.settle (x : Policer) (now : Nat) : Policer :=
  match x.next with
  | some (q, b) =>
    if b < now then { x with cur := q, next := none, tc := min x.tc (q.cbs * 422400), tp := min x.tp (q.pbs * 422400) } else x
  | none => x

/-- The color of a frame of so many cells: 0 green, 1 yellow, 2 red (R352). -/
def Policer.police (x : Policer) (now flen : Nat) : Nat × Policer :=
  let y := (x.settle now).refill now
  let b := flen * 422400
  if y.tp < b then (2, { y with red := min (y.red + 1) 0xFFFFFFFF })
  else
    let y := { y with tp := y.tp - b }
    if y.tc < b then (1, { y with yellow := min (y.yellow + 1) 0xFFFFFFFF })
    else (0, { y with tc := y.tc - b, green := min (y.green + 1) 0xFFFFFFFF })

/-- Color a frame from a port: its color, whether RED_DROP discards it, and the state (R343 step 4). -/
def colorFrame (p : PlaneId) (n tc flen : Nat) (s : State) : Nat × Bool × State :=
  let m := tblWord s p (curBank s p) 2 (4 * n + tc) 0
  if !bit m 12 then (0, false, s)
  else
    let i := bits m 11 0
    let x := mgetD (s.fab p).pols i {}
    let drop := (x.settle (s.beats p)).cur.redDrop
    let r := x.police (s.beats p) flen
    (r.1, r.1 = 2 && drop, modFab p (fun f => { f with pols := mput f.pols i r.2 }) s)

/-! ### Drop profiles (R354) -/

/-- The profile of a copy by its egress port's role. -/
def profileOf (s : State) (p : PlaneId) (bank tc n : Nat) : Nat :=
  let w := tblWord s p bank 0 tc 1
  match portRole s p n with
  | 1 => bits w 3 0
  | 2 => bits w 7 4
  | _ => bits w 11 8

/-- The drop draw counter (SWC_DRAW). -/
def drawCount (s : State) (p : PlaneId) : Nat := s.get64 (pu p .SWC) Fld.SWC_DRAW_LO Fld.SWC_DRAW_HI

/-- The decision of a copy's profile; the average and the draw counter advance. -/
def profileDrop (p : PlaneId) (h : Held) (k : Nat) (s : State) : Bool × State :=
  let f := profileOf s p h.epoch h.tc (k / 8)
  let w0 := tblWord s p h.epoch 1 f (2 * h.color)
  let maxp := bits (tblWord s p h.epoch 1 f (2 * h.color + 1)) 15 0
  let wt := bits (tblWord s p h.epoch 1 f 6) 3 0
  let avg0 := (qState s p k).avg
  let avg : Int := avg0 + (((depthOf s p k * 65536 : Nat) : Int) - avg0) / ((2 ^ wt : Nat) : Int)
  let s := modQ p k (fun q => { q with avg := avg }) s
  let minTh := bits w0 12 0
  let lo : Int := (minTh * 64 * 65536 : Nat)
  let hi : Int := (bits w0 28 16 * 64 * 65536 : Nat)
  if minTh = 0x1FFF ∨ avg < lo then (false, s)
  else if hi ≤ avg then (true, s)
  else
    let pr : Int := (maxp : Int) * (avg - lo) / (hi - lo)
    let n := drawCount s p
    let r := srDraw (s.get64 (pu p .SWC) Fld.SWC_SEED_LO Fld.SWC_SEED_HI) n / 65536
    (decide ((r : Int) < pr), s.put64 (pu p .SWC) Fld.SWC_DRAW_LO Fld.SWC_DRAW_HI ((n + 1) % 2 ^ 64))

/-- Steps 6 and 7 of admission for one candidate: the profile, then the link. -/
def offerCopy (p : PlaneId) (s : State) (c : Cand) : State :=
  match frameOf s p c.frame with
  | none => s
  | some h =>
    let r := if tcLossless s p h.epoch h.tc then (false, s) else profileDrop p h c.queue s
    if r.1 then
      let f := match h.color with
        | 0 => Fld.SWC_DROP_A_GREEN
        | 1 => Fld.SWC_DROP_A_YELLOW
        | _ => Fld.SWC_DROP_B_RED
      (r.2.incSat (pu p .SWC) f).event p 0x13 0xFF 1
    else linkCopy p c.frame c.dest c.queue r.2

/-- The candidates of one beat in increasing output queue number, within a queue in the order offered (R354). -/
def sortCands (l : List Cand) : List Cand := ((l.map (·.queue)).foldr insertNat []).flatMap (fun q => l.filter (·.queue = q))

/-- A copy becomes a candidate of the beat (R343 step 5). -/
def addCand (p : PlaneId) (c : Cand) (s : State) : State := modFab p (fun f => { f with cands := f.cands ++ [c] }) s

/-- The end of a beat: the candidates of every admission of the beat are offered, the draws in increasing queue number (R354), and what
no copy is left of is freed. -/
def offerCands (p : PlaneId) (s : State) : State :=
  let l := (s.fab p).cands
  if l = [] then s
  else
    let s := (sortCands l).foldl (offerCopy p) (modFab p (fun f => { f with cands := [] }) s)
    (l.map (·.frame)).eraseDups.foldl (fun t id => tidyFrame p id t) s

/-! ### Reorder buffers (R326 to R328) -/

/-- CHUNK, CSEQ, GROUP and ATTEMPT of a TAG (Table 6.3). -/
def tagChunk (t : Nat) : Nat := bits t 31 12
def tagCseq (t : Nat) : Nat := bits t 47 32
def tagGroup (t : Nat) : Nat := bits t 57 48
def tagAttempt (t : Nat) : Nat := bits t 63 58

/-- ROB_WAIT and ROB_OPEN in beats. -/
def robWait (s : State) (p : PlaneId) : Nat := 16 * s.get (pu p .RTE) Fld.RTE_ROB_WAIT
def robOpen (s : State) (p : PlaneId) : Nat := 16 * s.get (pu p .RTE) Fld.RTE_ROB_OPEN

/-- Cells of an accelerator port's share (R326). -/
def robShare (s : State) (p : PlaneId) : Nat := partReord (partNow s p) * 16384 / max 1 (portsOf s p 1).length

/-- The streams of a port. -/
def robOf (s : State) (p : PlaneId) (n : Nat) : List RobStream := mgetD (s.fab p).robs n []
/-- Replace the streams of a port. -/
def setRob (p : PlaneId) (n : Nat) (l : List RobStream) (s : State) : State :=
  modFab p (fun f => { f with robs := if l = [] then mdel f.robs n else mput f.robs n l }) s

/-- The stream of a frame. -/
def RobStream.mine (r : RobStream) (h : Held) : Bool := r.src = h.src && r.group = tagGroup h.tag && r.cseq = tagCseq h.tag

/-- Change a frame's stream. -/
def modStream (p : PlaneId) (n : Nat) (h : Held) (f : RobStream → RobStream) (s : State) : State :=
  setRob p n ((robOf s p n).map (fun r => if r.mine h then f r else r)) s

/-- Serial distance from chunk `a` to chunk `b`, in 20 bits: less than half is at or after `a`. -/
def serialDist (a b : Nat) : Nat := (b + 2 ^ 20 - a % 2 ^ 20) % 2 ^ 20
/-- Chunk `a` is below chunk `b` in serial order. -/
def serialBelow (a b : Nat) : Bool := 2 ^ 19 ≤ serialDist b a

/-- A seal's KIND, 3 FINAL. -/
def sealKind (h : Held) : Nat := ((h.data.head?).map (fun d => d.1.toNat % 256)).getD 0

/-- The order of R327 relative to a base chunk: chunk, attempt (a FINAL seal after every result of its chunk), results before seals. -/
def robKey (base : Nat) (h : Held) : Nat :=
  let d := (serialDist base (tagChunk h.tag) + 2 ^ 19) % 2 ^ 20
  (d * 128 + (if h.cls = 3 ∧ sealKind h = 3 then 64 else tagAttempt h.tag)) * 2 + b2n (h.cls = 3)

/-- The frames a stream holds. -/
def robFrames (s : State) (p : PlaneId) (r : RobStream) : List Held := r.frames.filterMap (fun e => frameOf s p e.1)

/-- The first held frame in the order of R327. -/
def robFirst (s : State) (p : PlaneId) (r : RobStream) : Option Held :=
  let l := robFrames s p r
  let base := r.exp.getD (((l.head?).map (fun h => tagChunk h.tag)).getD 0)
  l.find? (fun h => l.all (fun g => decide (robKey base h ≤ robKey base g)))

/-- Release one frame to queue TC of its port, with ADMIT_FT now (R346). -/
def robRelease (p : PlaneId) (n : Nat) (h : Held) (s : State) : State :=
  let now := s.beats p
  let at' := ((robOf s p n).flatMap (·.frames)).find? (·.1 = h.id)
  let s := match at' with
    | some e => s.sample p 5 n (now - e.2)
    | none => s
  let seal' := h.cls = 3
  let ch := tagChunk h.tag
  let s := modStream p n h (fun r =>
    let left := r.frames.filter (·.1 ≠ h.id)
    let r := { r with frames := left, idle := if left = [] then now else r.idle }
    if r.exp = some ch then
      if seal' then { r with exp := some ((ch + 1) % 2 ^ 20), results := [] } else { r with results := tagAttempt h.tag :: r.results }
    else r) s
  tidyFrame p h.id (linkCopy p h.id h.dest (8 * n + h.tc) s)

/-- Whether a stream's first held frame may go now (R327). -/
def robReady (r : RobStream) (h : Held) : Bool :=
  match r.exp with
  | none => false
  | some e =>
    let ch := tagChunk h.tag
    if ch = e then h.cls = 2 || sealKind h = 3 || r.results.contains (tagAttempt h.tag) else serialBelow ch e

/-- The next frame that a stream may release: the first in order, or a FINAL seal of EXP, which waits only for the RESULT frames of its
chunk that the stream holds and not for a seal without its own (R327). -/
def robNext (s : State) (p : PlaneId) (r : RobStream) : Option Held :=
  match robFirst s p r with
  | none => none
  | some f =>
    if robReady r f then some f
    else
      let l := robFrames s p r
      l.find? (fun h => h.cls = 3 && sealKind h = 3 && r.exp = some (tagChunk h.tag) &&
        l.all (fun g => !(g.cls = 2 && tagChunk g.tag = tagChunk h.tag)))

/-- Release what a frame's stream may release. -/
def robDrain (p : PlaneId) (n : Nat) (h : Held) : Nat → State → State
  | 0, s => s
  | fuel + 1, s =>
    match (robOf s p n).find? (·.mine h) with
    | none => s
    | some r => match robNext s p r with
      | none => s
      | some f => robDrain p n h fuel (robRelease p n f s)

/-- Count a FORCE or LATE event (R328). -/
def countRob (p : PlaneId) (f : RField) (s : State) : State := report (pu p .RTE) 6 .c 0 0 (s.incSat (pu p .RTE) f)

/-- The ranges of chunks from `a` up to `b` that hold none of a list's chunks. -/
def gapsOf (a b : Nat) (l : List Nat) : List (Nat × Nat) :=
  let ds := (0 :: (l.map (fun c => serialDist a c + 1))).filter (fun d => decide (d ≤ serialDist a b))
  (ds.filter (fun d => !l.any (fun c => serialDist a c = d) && decide (d < serialDist a b))).map (fun d =>
    let stop := (((l.map (serialDist a)).filter (fun x => decide (d < x))).min?).getD (serialDist a b)
    ((a + d) % 2 ^ 20, (a + min stop (serialDist a b)) % 2 ^ 20))

/-- A forced release of a held frame, with every held frame of its stream before it (R328). -/
def robForce (p : PlaneId) (n : Nat) (h : Held) (s : State) : State :=
  match (robOf s p n).find? (·.mine h) with
  | none => s
  | some r =>
    let base := r.exp.getD (tagChunk h.tag)
    let l := (robFrames s p r).filter (fun g => decide (robKey base g ≤ robKey base h))
    let order := ((l.map (fun g => robKey base g)).foldr insertNat []).flatMap (fun k => l.filter (fun g => robKey base g = k))
    let ch := tagChunk h.tag
    let next := if h.cls = 3 then (ch + 1) % 2 ^ 20 else ch
    let s := order.foldl (fun t g => robRelease p n g t) s
    let gaps := match r.exp with
      | some e => if serialBelow ch e then [] else gapsOf e ch (l.map (fun g => tagChunk g.tag))
      | none => []
    -- The attempts of the chunk whose RESULT frames have been released let their seals follow.
    let sent := (l.filter (fun g => g.cls = 2 && tagChunk g.tag = ch)).map (fun g => tagAttempt g.tag)
    let known := if h.cls = 3 then [] else if r.exp = some ch then sent ++ r.results else sent
    let s := modStream p n h (fun q =>
      let q := { q with passed := q.passed ++ gaps }
      if r.exp.any (fun e => serialBelow ch e) then q else { q with exp := some next, results := known }) s
    robDrain p n h (r.frames.length + 1) (countRob p Fld.RTE_ROB_CNT_FORCE s)

/-- The oldest frame that a port's reorder buffer holds. -/
def robOldest (s : State) (p : PlaneId) (n : Nat) : Option Held :=
  let l := (robOf s p n).flatMap (·.frames)
  (l.find? (fun e => l.all (fun g => decide (e.2 < g.2 ∨ (e.2 = g.2 ∧ e.1 ≤ g.1))))).bind (fun e => frameOf s p e.1)

/-- Cells a port's reorder buffer holds. -/
def robCells (s : State) (p : PlaneId) (n : Nat) : Nat := (((robOf s p n).flatMap (·.frames)).map (fun e => writtenOf s p e.1)).sum

/-- Make room for a cell in a port's share: while it is full, the oldest held frame is released by force (R328). -/
def robRoom (p : PlaneId) (n : Nat) : Nat → State → State
  | 0, s => s
  | fuel + 1, s =>
    if robCells s p n < robShare s p then s
    else match robOldest s p n with
      | none => s
      | some h => robRoom p n fuel (robForce p n h s)

/-- Frames that a port's reorder buffer holds. -/
def robCount (s : State) (p : PlaneId) (n : Nat) : Nat := ((robOf s p n).flatMap (·.frames)).length

/-- Whether a RESULT frame comes late to its stream: below EXP, for a chunk that a forced release passed over (R328). -/
def robLate (r : RobStream) (h : Held) : Bool :=
  let ch := tagChunk h.tag
  h.cls = 2 && (r.exp.any (serialBelow ch)) && r.passed.any (fun g => serialDist g.1 ch < serialDist g.1 g.2)

/-- A RESULT or SEAL frame bound for an accelerator port of this module enters its reorder buffer with its head cell (R326 to R328, R346).
A late frame, and one of a seventeenth stream, passes. -/
def robEnter (p : PlaneId) (n id : Nat) (s : State) : State :=
  match frameOf s p id with
  | none => s
  | some h =>
    let now := s.beats p
    let pass (s : State) : State := tidyFrame p id (linkCopy p id h.dest (8 * n + h.tc) s)
    let stream (s : State) : Option RobStream := (robOf s p n).find? (·.mine h)
    match stream s with
    | some r =>
      let s := if robLate r h then s else robRoom p n (robCount s p n) s
      if (stream s).any (fun r => robLate r h) then pass (countRob p Fld.RTE_ROB_CNT_LATE s)
      else robDrain p n h (r.frames.length + 2) (modStream p n h (fun r => { r with frames := r.frames ++ [(id, now)] }) s)
    | none =>
      if 16 ≤ (robOf s p n).length then pass (countRob p Fld.RTE_ROB_CNT_FORCE s)
      else
        let s := robRoom p n (robCount s p n) s
        setRob p n (robOf s p n ++ [{ src := h.src, group := tagGroup h.tag, cseq := tagCseq h.tag, opened := now, frames := [(id, now)] }]) s

/-- A later cell of a held frame comes: its port's share makes room (R328). -/
def robMore (p : PlaneId) (id : Nat) (s : State) : State :=
  match (frameOf s p id).bind (·.rob) with
  | some n => if inRob s p id then robRoom p n (robCount s p n) s else s
  | none => s

/-- ROB_OPEN_EXPIRE: a stream of a port has been open for ROB_OPEN beats: EXP is the lowest chunk it holds (R327). -/
def execRobOpenExpire (p : PlaneId) (n : PortId) (s : State) : Out :=
  .next ((robOf s p n.val).foldl (fun t r =>
    if r.exp.isNone ∧ r.opened + robOpen s p ≤ s.beats p then
      match robFirst t p r with
      | some h => robDrain p n.val h (r.frames.length + 1) (modStream p n.val h (fun q => { q with exp := some (tagChunk h.tag) }) t)
      | none => t
    else t) s)

/-- ROB_WAIT_EXPIRE: frames of a port held for ROB_WAIT beats are released by force, oldest first (R328). -/
def execRobWaitExpire (p : PlaneId) (n : PortId) (s : State) : Out :=
  .next (((robOf s p n.val).flatMap (·.frames)).foldl (fun t e =>
    if e.2 + robWait s p ≤ s.beats p ∧ inRob t p e.1 then
      match frameOf t p e.1 with
      | some h => robForce p n.val h t
      | none => t
    else t) s)

/-- ROB_STREAM_CLOSE: streams of a port that have held no frame for ROB_WAIT beats close (R326). -/
def execRobStreamClose (p : PlaneId) (n : PortId) (s : State) : Out :=
  .next (setRob p n.val ((robOf s p n.val).filter (fun r => !(r.frames = [] && decide (r.idle + robWait s p ≤ s.beats p)))) s)

/-! ### Admission (R343 to R350) -/

/-- A new frame in the switch core. -/
def addFrame (p : PlaneId) (h : Held) (s : State) : State :=
  modFab p (fun f => { f with frames := f.frames ++ [h], nextId := f.nextId + 1 }) s

/-- Write one cell of a frame into the buffer (R339, R340): false where no cell is free. A cell that no copy, unit or reorder buffer
will take is freed at once, and so is one that moves to a reorder buffer. (DESIGN CHOICE, log 13) -/
def writeCell (p : PlaneId) (id : Nat) (c : Cell) (credit : Option (Nat × Nat)) (s : State) : Bool × State :=
  match frameOf s p id with
  | none => (false, s)
  | some h =>
    if bufFree s p = 0 then (false, returnOpt p credit (s.incSat (pu p .SWC) Fld.SWC_DISC_A_BUF_FULL))
    else
      let no := h.data.length
      let dl := (((copiesOf s p id).map (·.deadline)).max?).getD (h.admitFt + tcAge s p h.epoch h.tc * 1650)
      let s := modFrame p id (fun x => { x with data := x.data ++ [(c.data, c.poison)], tags := x.tags ++ [c.tag] }) s
      (true, modFab p (fun f => { f with bufs := mput f.bufs (lowFree (f.bufs.map (·.1)) 0) { frame := id, no := no, deadline := dl, credit := credit } }) s)

/-- A CONTROL frame for this module has its last cell: it is handed to its unit (R342). -/
def handOver (p : PlaneId) (id : Nat) (s : State) : State :=
  match frameOf s p id with
  | none => s
  | some h =>
    let s := s.emit (.handOver p h.src h.tag (h.data.map (·.1)))
    tidyFrame p id (modFrame p id (fun x => { x with toUnits := false }) s)

/-- The last cell of a frame has been written. -/
def finishFrame (p : PlaneId) (id : Nat) (s : State) : State :=
  let s := modFrame p id (fun x => { x with complete := true }) s
  match frameOf s p id with
  | none => s
  | some h => if h.toUnits then handOver p id s else tidyFrame p id s

/-- Count a copy that is not made (R349). -/
def countMasked (p : PlaneId) (s : State) : State := s.incSat (pu p .SWC) Fld.SWC_DISC_C_MASKED

/-- Step 5 for one destination of a frame whose route is known: the units, a reorder buffer, or a candidate. (DEDUCED, log 49) -/
def placeCopy (p : PlaneId) (h : Held) (dest : Nat) (r : Route) (s : State) : State :=
  match r with
  | .units => modFrame p h.id (fun x => { x with toUnits := true }) s
  | .discard _ => s
  | .port n chan =>
    if portState s p n = 6 then countMasked p s
    else if portRole s p n = 1 ∧ (h.cls = 2 ∨ h.cls = 3) then modFrame p h.id (fun x => { x with rob := some n, dest := dest }) s
    else addCand p ⟨h.id, dest, 8 * n + chan⟩ s

/-- The head of a frame that arrives on a channel opens its assembly. -/
def openAsm (p : PlaneId) (n vc id flen : Nat) (s : State) : State :=
  modLink p n (fun l => { l with asm := if flen = 1 then mdel l.asm vc else mput l.asm vc { frame := id, next := 1, flen := flen } }) s

/-- The frame open on a channel is truncated. -/
def dropAsm (p : PlaneId) (n vc id : Nat) (s : State) : State :=
  truncateFrame p id (modLink p n (fun l => { l with asm := mdel l.asm vc }) s)

/-- TC of a frame that arrives on a channel (R341, Table 11.5). -/
def arrivalTc (s : State) (p : PlaneId) (n vc : Nat) : Nat := (if portRole s p n = 1 then vc else vc / 2) % 4

/-- What admission decides for the head of a frame from a port (R343 steps 1 to 5): the discard's count, or where it goes. -/
def admitHead (p : PlaneId) (n : Nat) (c : Cell) (h : Held) (s : State) : State :=
  if maxFlen s p < c.flen then s.incSat (pu p .SWC) Fld.SWC_DISC_A_FLEN
  else if rteState s p = 0 ∧ ¬ (c.isLatch ∧ c.dest = selfAddr s p) then s.incSat (pu p .RTE) Fld.RTE_DISC_F2_ISO
  else match acceptHead s p n c with
    | .error w => countIngress p w c.dest c.src s
    | .ok dest =>
      let job := if portRole s p n = 1 then myJob s p else ownerOf s p n
      let r := route s p { cls := c.cls, dest := dest, src := c.src, tc := h.tc, job := job, inPort := some n, inVc := c.vc }
      let r := if portRole s p n ≠ 1 ∧ job = 0 then Route.discard 2 else r
      match r with
      | .discard w => countDiscard p w dest c.src s
      | _ =>
        let q := colorFrame p n h.tc c.flen s
        if q.2.1 then q.2.2.incSat (pu p .SWC) Fld.SWC_DROP_B_POLICED
        else
          let s := modFrame p h.id (fun x => { x with dest := dest, job := job, color := q.1 }) q.2.2
          placeCopy p h dest r (s.event p 0x12 0xFF 1)

/-- An adaptive HEAD or ONLY cell is written into the buffer, and its frame is admitted (R339, R343, R345). -/
def takeHead (p : PlaneId) (n : Nat) (c : Cell) (s : State) : State :=
  let s := match mget (linkOf s p n).asm c.vc with
    | some a => dropAsm p n c.vc a.frame (countTrunc p s)
    | none => s
  let id := (s.fab p).nextId
  let h : Held := { id := id, origin := id, inPort := some n, vc := c.vc, cls := c.cls, f2 := c.f2, dest := c.dest, src := c.src
                    flen := c.flen, tag := c.tag, tc := arrivalTc s p n c.vc, job := 0, epoch := curBank s p, color := 0
                    admitFt := s.ft p, latch := c.isLatch, headAt := s.ft p / 20, complete := c.flen = 1 }
  let w := writeCell p id c (some (n, c.vc)) (openAsm p n c.vc id c.flen (addFrame p h s))
  if !w.1 then dropAsm p n c.vc id (countTrunc p w.2)
  else
    let hit := strike (pu p .SWC) 3 w.2
    if hit.1 then dropAsm p n c.vc id (detect (pu p .SWC) 3 .u n c.vc hit.2)
    else
      let s := admitHead p n c h hit.2
      let s := match (frameOf s p id).bind (·.rob) with
        | some q => robEnter p q id s
        | none => s
      match frameOf s p id with
      | some x => if x.toUnits ∧ x.complete then handOver p id s else tidyFrame p id s
      | none => s

/-- An adaptive MID or TAIL cell is written into the buffer (R344, R345). -/
def takeRest (p : PlaneId) (n : Nat) (c : Cell) (s : State) : State :=
  let lose (s : State) : State := returnCredit p n c.vc (countTrunc p s)
  match mget (linkOf s p n).asm c.vc with
  | none => lose s
  | some a =>
    let last := a.next + 1 = a.flen
    if c.flen ≠ a.next ∨ (c.pos = 2) ≠ last then lose s
    else
      let s := modLink p n (fun l => { l with asm := if last then mdel l.asm c.vc else mput l.asm c.vc { a with next := a.next + 1 } }) s
      let w := writeCell p a.frame c (some (n, c.vc)) (robMore p a.frame s)
      if !w.1 then
        let gone := (frameOf s p a.frame).isNone
        dropAsm p n c.vc a.frame (if gone then returnCredit p n c.vc w.2 else countTrunc p w.2)
      else if last then finishFrame p a.frame w.2
      else tidyFrame p a.frame w.2

/-- One adaptive cell that a link has accepted enters the buffer: a cell beyond its channel's GRANT was sent without a credit (R339). -/
def takeCell (p : PlaneId) (s : State) (e : Nat × Cell) : State :=
  let used := ((s.fab p).bufs.filter (fun b => b.2.credit = some (e.1, e.2.vc))).length
  if grantOf s p e.1 e.2.vc ≤ used then s.incSat (pu p .SWC) Fld.SWC_DISC_A_BUF_FULL
  else if e.2.pos = 1 ∨ e.2.pos = 3 then takeHead p e.1 e.2 s else takeRest p e.1 e.2 s

/-- FRAME_ADMIT: the adaptive cells that the links have accepted are written into the buffer, in increasing arrival port, and the
frames whose heads they bring are admitted (R343, R352); their copies are offered at the end of the beat (R354). -/
def execFrameAdmit (p : PlaneId) (s : State) : Out :=
  let l := (List.range 128).flatMap (fun n => (s.fab p).arrived.filter (·.1 = n))
  .next (if l = [] then s else l.foldl (takeCell p) (modFab p (fun f => { f with arrived := [] }) s))

/-! ### Frames of the plane's own units (R340, R341, R348) -/

/-- A copy of a unit's frame for a local accelerator port moves into that port's reorder buffer (R346). -/
def robClone (p : PlaneId) (h : Held) (n dest : Nat) (s : State) : State :=
  let id := (s.fab p).nextId
  robEnter p n id (addFrame p { h with id := id, dest := dest, rob := some n, toUnits := false } s)

/-- One destination of a unit's frame (R343 step 5, R349). A copy for a fenced port is not made, and neither is a copy of a multicast frame
whose spray set has no active member. -/
def unitCopy (p : PlaneId) (h : Held) (many : Bool) (s : State) (dest : Nat) : State :=
  let r := route s p { cls := h.cls, dest := dest, src := h.src, tc := h.tc, job := h.job, inPort := none, inVc := 0 }
  match r with
  | .discard w => if many ∧ w = 3 then countMasked p s else countDiscard p w dest h.src s
  | .units => modFrame p h.id (fun x => { x with toUnits := true }) s
  | .port n chan =>
    if portState s p n = 6 then countMasked p s
    else if portRole s p n = 1 ∧ (h.cls = 2 ∨ h.cls = 3) then robClone p h n dest s
    else addCand p ⟨h.id, dest, 8 * n + chan⟩ s

/-- Take a frame off the frames that wait at the units. -/
def dropUnitFrame (p : PlaneId) (f : UnitFrame) (s : State) : State := s.modPl p (fun x => { x with unitFrames := x.unitFrames.erase f })

/-- A unit's frame as the switch core holds it: each result cell carries its own TAG (Table 6.3). -/
def unitHeld (s : State) (p : PlaneId) (f : UnitFrame) : Held :=
  let id := (s.fab p).nextId
  { id := id, origin := id, inPort := none, vc := 0, cls := f.cls, f2 := false, dest := f.dests.headD 0, src := selfAddr s p, flen := f.cells.length
    tag := f.tag, tc := f.tc.getD (ctrlTc s p), job := myJob s p, epoch := curBank s p, color := 0, admitFt := s.ft p
    latch := f.unit = pu p .LAT, data := f.cells.map (fun d => (d, false)), headAt := s.ft p / 20, complete := true
    tags := if f.cls = 2 then (List.range f.cells.length).map (f.tag + ·) else [] }

/-- UNIT_FRAME_ADMIT: the oldest waiting frame of a unit is admitted once the headroom covers it; latch messages are exempt from the
hold of injection (R332, R340). Its copies share the stored cells (R348). -/
def execUnitFrameAdmit (p : PlaneId) (u : Nat) (s : State) : Out :=
  match (s.pl p).unitFrames.find? (·.unit = u) with
  | none => .next s
  | some f =>
    let flen := f.cells.length
    let room := bufFree s p + bufHeld s p - bufResv s p
    if (held s p && u ≠ pu p .LAT) || room < flen then .next s
    else
      let s := dropUnitFrame p f s
      let toSelf : Bool := f.cls = 1 && f.dests = [selfAddr s p]
      if maxFlen s p < flen then .next (s.incSat (pu p .SWC) Fld.SWC_DISC_A_FLEN)
      else if rteState s p = 0 ∧ ¬ toSelf then .next (s.incSat (pu p .RTE) Fld.RTE_DISC_F2_ISO)
      else
        let h := unitHeld s p f
        let s := (addFrame p h s).event p 0x12 0xFF 1
        let dl := s.ft p + tcAge s p h.epoch h.tc * 1650
        let s := (List.range flen).foldl (fun t i => modFab p (fun x => { x with
          bufs := mput x.bufs (lowFree (x.bufs.map (·.1)) 0) { frame := h.id, no := i, deadline := dl, credit := none } }) t) s
        let s := f.dests.foldl (unitCopy p h (decide (1 < f.dests.length))) s
        .next (match frameOf s p h.id with
          | some x => if x.toUnits then handOver p h.id s else tidyFrame p h.id s
          | none => s)

/-! ### Egress (R355, R356) -/

/-- The shaper of a queue and of a port in the slot of this beat. -/
def qShaper (s : State) (p : PlaneId) (k : Nat) : Shaper := (qState s p k).shaper.refill (s.ft p / 20)
def pShaper (s : State) (p : PlaneId) (n : Nat) : Shaper := (pState s p n).shaper.refill (s.ft p / 20)

/-- The head copy of a queue has a cell to send: a written one of the copy in progress, or an eligible head copy (R344); a copy past
its deadline sends no more (R360). -/
def hasCell (s : State) (p : PlaneId) (k : Nat) : Bool :=
  match queueOf s p k with
  | [] => false
  | c :: _ => (decide (0 < c.sent) || decide (c.head < s.ft p / 20)) && decide (c.sent < writtenOf s p c.frame) && decide (s.ft p ≤ c.deadline)

/-- A queue is ready (R355). -/
def qReady (s : State) (p : PlaneId) (k : Nat) : Bool := hasCell s p k && decide (0 < availOf s p (k / 8) (k % 8)) && (qShaper s p k).may

/-- The round robin of the queues that are not strict. -/
def pickRound (p : PlaneId) (n : Nat) : Nat → State → Option Nat × State
  | 0, s => (none, s)
  | fuel + 1, s =>
    let r := (pState s p n).rr
    let k := 8 * n + r
    let q := qState s p k
    if !qStrict s p k && qReady s p k then
      let d := (if q.deficit = 0 then q.quantum else q.deficit) - 1
      let s := modQ p k (fun q => { q with deficit := d }) s
      (some r, if d = 0 then modP p n (fun x => { x with rr := (r + 1) % 8 }) s else s)
    else pickRound p n fuel (modP p n (fun x => { x with rr := (r + 1) % 8 }) (modQ p k (fun q => { q with deficit := 0 }) s))

/-- The queue that a port serves next (R356). -/
def pickQueue (p : PlaneId) (n : Nat) (s : State) : Option Nat × State :=
  if !(pShaper s p n).may then (none, s)
  else match [7, 6, 5, 4, 3, 2, 1, 0].find? (fun q => qStrict s p (8 * n + q) && qReady s p (8 * n + q)) with
    | some q => (some q, s)
    | none => pickRound p n 8 s

/-- AVAIL of a channel follows the latest CCUM and the cells first sent (R299). -/
def setAvail (p : PlaneId) (n v : Nat) (s : State) : State :=
  let l := linkOf s p n
  s.put (uFPT p n) (Fld.FPT_VC_AVAIL.at v) ((mgetD l.ccum v 0 + 4096 - mgetD l.first v 0 % 4096) % 4096)

/-- The next cell of the head copy of a queue leaves (R355, R359). -/
def popCell (p : PlaneId) (n q : Nat) (s : State) : Option Cell × State :=
  let k := 8 * n + q
  match queueOf s p k with
  | [] => (none, s)
  | c :: rest => match frameOf s p c.frame with
    | none => (none, s)
    | some h =>
      let d := h.data.getD c.sent (0, false)
      let last := c.sent + 1 = h.flen
      let first : Bool := c.sent = 0
      let pos := if h.flen = 1 then 3 else if first then 1 else if last then 2 else 0
      let cell : Cell := { pos := pos, vc := q, cls := h.cls, poison := d.2, f2 := h.f2, dest := c.dest, src := h.src
                           flen := if first then h.flen else c.sent, tag := h.tags.getD c.sent h.tag, data := d.1 }
      let now := s.ft p
      let delay := min ((now - c.admitFt) / 16) 0xFFFF
      let s := if first then (modQ p k (fun x => { x with lastDelay := delay, maxDelay := max x.maxDelay delay }) s).sample p 1 k (now - c.admitFt) else s
      let slot := now / 20
      let s := modQ p k (fun x => { x with shaper := (x.shaper.refill slot).charge }) s
      let s := modP p n (fun x => { x with shaper := (x.shaper.refill slot).charge }) s
      let s := setAvail p n q (modLink p n (fun l => { l with first := mput l.first q ((mgetD l.first q 0 + 1) % 4096) }) s)
      let s := setQueue p k (if last then rest else { c with sent := c.sent + 1 } :: rest) s
      (some cell, tidyFrame p c.frame s)

/-- The adaptive cell that an open lane of a port sends. -/
def pickCell (p : PlaneId) (n : Nat) (s : State) : Option Cell × State :=
  let r := pickQueue p n s
  match r.1 with
  | some q => popCell p n q r.2
  | none => (none, r.2)

/-! ### Ports that leave (R325, R349) -/

/-- The route of a queued copy as it is now. -/
def reroute (s : State) (p : PlaneId) (h : Held) (c : QCopy) : Route :=
  route s p { cls := h.cls, dest := c.dest, src := h.src, tc := h.tc, job := h.job, inPort := h.inPort, inVc := h.vc }

/-- A copy of a port that has left its set moves ahead of the later frames of the queue it now takes; one that has begun is stopped, and
one without another member stays. -/
def moveCopy (p : PlaneId) (k : Nat) (acc : SMap (List QCopy) × State) (c : QCopy) : SMap (List QCopy) × State :=
  match frameOf acc.2 p c.frame with
  | none => acc
  | some h => match reroute acc.2 p h c with
    | .port n chan =>
      let k' := 8 * n + chan
      if k' = k then acc
      else
        let s := setQueue p k ((queueOf acc.2 p k).erase c) acc.2
        if 0 < c.sent then (acc.1, tidyFrame p c.frame s)
        else (mput acc.1 k' (mgetD acc.1 k' [] ++ [c]), s)
    | _ => acc

/-- A torus or spine port that carried traffic and no longer does leaves its spray set: its RTE_ADMIT bit clears and its queued copies
move (R325). -/
def leaveSet (p : PlaneId) (n : Nat) (s : State) : State :=
  if portUp s p n ∨ ¬ (s.fab p).wasUp.contains n ∨ ¬ admitted s p n ∨ portRole s p n < 2 then s
  else
    let f := Fld.RTE_ADMIT.at (n / 32)
    let s := modFab p (fun x => { x with left := insertNat n x.left }) (s.put (pu p .RTE) f (s.get (pu p .RTE) f &&& (2 ^ 32 - 1 - 2 ^ (n % 32))))
    (List.range 8).foldl (fun s q =>
      let k := 8 * n + q
      let r := (queueOf s p k).foldl (moveCopy p k) (([] : SMap (List QCopy)), s)
      -- Moved copies go ahead of later frames: behind the copy in progress, in order of admission.
      r.1.foldl (fun t e =>
        let old := queueOf t p e.1
        let run := old.takeWhile (fun c => decide (0 < c.sent))
        setQueue p e.1 (run ++ e.2 ++ old.drop run.length) t) r.2) s

/-- The copies of a fenced port are discarded as they reach the head of their queue: each queue drains in one beat per copy (R349). -/
def drainFenced (p : PlaneId) (n : Nat) (s : State) : State :=
  if portState s p n ≠ 6 then s
  else (List.range 8).foldl (fun s q => match queueOf s p (8 * n + q) with
    | [] => s
    | c :: rest => tidyFrame p c.frame ((setQueue p (8 * n + q) rest s).incSat (pu p .SWC) Fld.SWC_DISC_C_EGR_FENCED)) s

/-- Frames whose link went down while they were incomplete are truncated. -/
def dropPartial (p : PlaneId) (s : State) : State :=
  let lost := (s.fab p).frames.filter (fun h => !h.complete && (match h.inPort with
    | some n => !(linkOf s p n).asm.any (fun a => a.2.frame = h.id)
    | none => false))
  lost.foldl (fun t h => truncateFrame p h.id (countTrunc p t)) s

/-- Ports that left their sets, fenced ports and broken frames are tidied once a beat. -/
def tidyPorts (p : PlaneId) (s : State) : State :=
  let s := (List.range 128).foldl (fun t n => drainFenced p n (leaveSet p n t)) s
  noteDepths p (dropPartial p (modFab p (fun f => { f with wasUp := (List.range 128).filter (portUp s p) }) s))

/-! ### Ageing and audit (R360, R361) -/

/-- COPY_AGE_EXPIRE: the copies of an output queue whose deadline has passed are discarded (R360). -/
def execCopyAgeExpire (p : PlaneId) (k : Fin 1024) (s : State) : Out :=
  let old := (queueOf s p k.val).filter (fun c => decide (c.deadline < s.ft p))
  if old = [] then .next s
  else
    let s1 := setQueue p k.val ((queueOf s p k.val).filter (fun c => decide (s.ft p ≤ c.deadline))) s
    .next (old.foldl (fun t c => ((tidyFrame p c.frame t).incSat (pu p .SWC) Fld.SWC_DISC_B_AGED).event p 0x14 0xFF 1) s1)

/-- AUDIT_VISIT: once per beat the auditor visits the next buffer cell, and frees it when it has leaked (R361). -/
def execAuditVisit (p : PlaneId) (s : State) : Out :=
  let f := s.fab p
  if ¬ s.on (pu p .SWC) Fld.SWC_CFG_AUDIT_EN ∨ f.auditAt = some (s.beats p) ∨ bufCells s p = 0 then .next s
  else
    let i := f.audit % bufCells s p
    let s1 := modFab p (fun f => { f with audit := (i + 1) % bufCells s p, auditAt := some (s.beats p) }) s
    match mget f.bufs i with
    | some b =>
      if b.deadline + s.get (pu p .SWC) Fld.SWC_AUDIT_GRACE * 65536 < s.ft p then
        .next (report (pu p .SWC) 2 .c i 0 ((freeBuf p s1 (i, b)).incSat (pu p .SWC) Fld.SWC_AUDIT_LEAK_CNT))
      else .next s1
    | none => .next s1

/-! ### SWC, QSH and POL registers (R363, R365, R366) -/

/-- Frames held under an epoch, from their admission until their last copy is sent or discarded (R362). -/
def epochCount (s : State) (p : PlaneId) (b : Nat) : Nat :=
  (((s.fab p).frames.filter (fun h => h.epoch = b && frameLive s p h)).map (·.origin)).eraseDups.length

/-- Whether an index and word lie in a table (Table 12.4), and the word's bits that are not reserved. -/
def tblFits (table idx word : Nat) : Bool :=
  match table with
  | 0 => decide (idx < 4 ∧ word < 2)
  | 1 => decide (idx < 16 ∧ word < 7)
  | 2 => word = 0
  | _ => false

def tblMask (table word : Nat) : Nat :=
  match table, word with
  | 0, 0 => 0xFFFF0003
  | 0, _ => 0xFFF
  | 1, 6 => 0xF
  | 1, w => if w % 2 = 0 then 0x1FFF1FFF else 0xFFFF
  | _, _ => 0x1FFF

/-- SWC_TBL_SEL: table, bank, index, word. -/
def tblSel (s : State) (p : PlaneId) : Nat × Nat × Nat × Nat :=
  let u := pu p .SWC
  (s.get u Fld.SWC_TBL_SEL_TABLE, s.get u Fld.SWC_TBL_SEL_BANK, s.get u Fld.SWC_TBL_SEL_INDEX, s.get u Fld.SWC_TBL_SEL_WORD)

/-- The checks of SWC writes (R362). -/
def swcVerdict (s : State) (p : PlaneId) (off : Nat) (v : Word) : Verdict :=
  if off = 0x084 then
    let (t, b, i, w) := tblSel s p
    let start := if b = 0 then (s.fab p).epochStart.1 else (s.fab p).epochStart.2
    { state := b = curBank s p || start, range := !tblFits t i w }
  else if off = 0x06C ∧ v.getLsbD 1 then
    let b := 1 - curBank s p
    let ctrl := ((List.range 4).filter (fun t => bit (tblWord s p b 0 t 0) 1)).length
    let bad := (List.range 16).any (fun f => (List.range 3).any (fun c =>
      let w := tblWord s p b 1 f (2 * c)
      bits w 12 0 ≠ 0x1FFF && decide (bits w 28 16 < bits w 12 0)))
    { range := ctrl ≠ 1 || bad, zero := (List.range 4).any (fun t => tcAge s p b t = 0) }
  else {}

/-- Reserved bits of the selected table word (Table 12.4). -/
def swcReserved (s : State) (p : PlaneId) (off : Nat) (v : Word) : Bool :=
  off = 0x084 && (let (t, _, i, w) := tblSel s p; tblFits t i w && decide (v.toNat &&& tblMask t w ≠ v.toNat))

/-- The effects of SWC writes. -/
def swcEffect (p : PlaneId) (off : Nat) (v : Word) (s : State) : State :=
  if off = 0x084 then
    let (t, b, i, w) := tblSel s p
    modFab p (fun f => { f with tbl := mput f.tbl (tblKey b t i w) v }) s
  else if off = 0x06C ∧ v.getLsbD 1 then modFab p (fun f => { f with flip := some (1 - curBank s p) }) s
  else if off = 0x07C then s.put64 (pu p .SWC) Fld.SWC_DRAW_LO Fld.SWC_DRAW_HI 0
  else s

/-- The SWC registers that show other state. -/
def swcRead (s : State) (p : PlaneId) (off : Nat) : Option Word :=
  let w (v : Nat) : Option Word := some (BitVec.ofNat 32 v)
  match off with
  | 0x044 => w (bufCells s p % 2 ^ 20)
  | 0x048 => w (bufFree s p % 2 ^ 20)
  | 0x04C => w (bufResv s p % 2 ^ 20 + 2 ^ 20 * b2n (overcommit s p))
  | 0x050 => w (bufHeld s p % 2 ^ 20)
  | 0x070 => w (epochCount s p 0 % 2 ^ 20)
  | 0x074 => w (epochCount s p 1 % 2 ^ 20)
  | 0x084 => let (t, b, i, x) := tblSel s p
             if tblFits t i x then w (tblWord s p b t i x) else w 0
  | _ => none

/-- The queue that QSH_SEL presents. -/
def qshSel (s : State) (p : PlaneId) : Nat := s.get (pu p .QSH) Fld.QSH_SEL_QUEUE

/-- A write of a QSH register acts on the selected queue or its port (R358, R365). A queue that Table 12.1 does not use keeps nothing. -/
def qshEffect (p : PlaneId) (off : Nat) (v : Word) (s : State) : State :=
  let k := qshSel s p
  let n := k / 8
  let slot := s.ft p / 20
  let x := v.toNat
  let q := (qState s p k).shaper
  let t := (pState s p n).shaper
  if 0x044 ≤ off ∧ off < 0x064 ∧ ¬ queueUsed s p n (k % 8) then s
  else match off with
    | 0x044 => modQ p k (fun y => { y with quantum := x % 4096, strict := some (bit x 12), shaper := y.shaper.write slot (bit x 13) q.rate q.burst }) s
    | 0x048 => modQ p k (fun y => { y with shaper := y.shaper.write slot q.en (x % 2 ^ 20) q.burst }) s
    | 0x04C => modQ p k (fun y => { y with shaper := y.shaper.write slot q.en q.rate (x % 2 ^ 20) }) s
    | 0x064 => modP p n (fun y => { y with shaper := y.shaper.write slot (bit x 0) t.rate t.burst }) s
    | 0x068 => modP p n (fun y => { y with shaper := y.shaper.write slot t.en (x % 2 ^ 20) t.burst }) s
    | 0x06C => modP p n (fun y => { y with shaper := y.shaper.write slot t.en t.rate (x % 2 ^ 20) }) s
    | 0x078 => if bit x 0 then modQ p k (fun y => { y with maxDepth := depthOf s p k, maxDelay := 0 }) s else s
    | _ => s

/-- The QSH registers show the selected queue and its port. QSH_Q_TOK and QSH_P_TOK show the bucket, which holds BURST × 422,400 from reset on
(R357), beside the reset value 0 of Table 12.5. (DESIGN CHOICE, log 122) -/
def qshRead (s : State) (p : PlaneId) (off : Nat) : Option Word :=
  let k := qshSel s p
  let n := k / 8
  let q := qState s p k
  let w (v : Nat) : Option Word := some (BitVec.ofNat 32 v)
  let qt := ofSigned 64 (qShaper s p k).tok
  let pt := ofSigned 64 (pShaper s p n).tok
  if 0x044 ≤ off ∧ off < 0x064 ∧ ¬ queueUsed s p n (k % 8) then w 0
  else match off with
    | 0x044 => w (q.quantum + 4096 * b2n (qStrict s p k) + 8192 * b2n q.shaper.en)
    | 0x048 => w q.shaper.rate
    | 0x04C => w q.shaper.burst
    | 0x050 => w (depthOf s p k % 2 ^ 20 + 2 ^ 20 * b2n ((queueOf s p k).head?.any (fun c => decide (0 < c.sent))))
    | 0x054 => w (qt % 2 ^ 32)
    | 0x058 => w (qt / 2 ^ 32)
    | 0x05C => w (q.maxDepth % 2 ^ 20)
    | 0x060 => w (q.lastDelay + 65536 * q.maxDelay)
    | 0x064 => w (b2n (pState s p n).shaper.en)
    | 0x068 => w (pState s p n).shaper.rate
    | 0x06C => w (pState s p n).shaper.burst
    | 0x070 => w (pt % 2 ^ 32)
    | 0x074 => w (pt / 2 ^ 32)
    | _ => none

/-- The policer that POL_SEL presents, as of this beat. -/
def polSel (s : State) (p : PlaneId) : Policer :=
  (mgetD (s.fab p).pols (s.get (pu p .POL) Fld.POL_SEL_POLICER) {}).settle (s.beats p)

/-- The checks of POL_CTL.APPLY (R366). -/
def polVerdict (s : State) (p : PlaneId) (off : Nat) (v : Word) : Verdict :=
  let u := pu p .POL
  if off = 0x058 ∧ v.getLsbD 0 then
    let c := s.get u Fld.POL_CIR
    let i := s.get u Fld.POL_PIR
    let b := s.get u Fld.POL_CBS
    let q := s.get u Fld.POL_PBS
    { zero := c = 0 || i = 0 || b = 0 || q = 0, range := decide (i < c ∨ q < b) }
  else {}

/-- The effects of POL writes: load the staging copy, or apply it from the next beat (R353). -/
def polEffect (p : PlaneId) (off : Nat) (v : Word) (s : State) : State :=
  let u := pu p .POL
  if off = 0x040 then
    let x := polSel s p
    let c := (x.next.map (·.1)).getD x.cur
    ((((s.put u Fld.POL_CIR c.cir).put u Fld.POL_PIR c.pir).put u Fld.POL_CBS c.cbs).put u Fld.POL_PBS c.pbs).put u Fld.POL_CFG_RED_DROP (b2n c.redDrop)
  else if off = 0x058 ∧ v.getLsbD 0 then
    let c : PolParams := { cir := s.get u Fld.POL_CIR, pir := s.get u Fld.POL_PIR, cbs := s.get u Fld.POL_CBS, pbs := s.get u Fld.POL_PBS
                           redDrop := s.on u Fld.POL_CFG_RED_DROP }
    let i := s.get u Fld.POL_SEL_POLICER
    modFab p (fun f => { f with pols := mput f.pols i { ((mgetD f.pols i {}).settle (s.beats p)) with next := some (c, s.beats p) } }) s
  else s

/-- The POL registers that show the selected policer. -/
def polRead (s : State) (p : PlaneId) (off : Nat) : Option Word :=
  let x := polSel s p
  let w (v : Nat) : Option Word := some (BitVec.ofNat 32 v)
  match off with
  | 0x05C => w (x.tc % 2 ^ 32)
  | 0x060 => w (x.tc / 2 ^ 32)
  | 0x064 => w (x.tp % 2 ^ 32)
  | 0x068 => w (x.tp / 2 ^ 32)
  | 0x06C => w x.green
  | 0x070 => w x.yellow
  | 0x074 => w x.red
  | _ => none

end Sys2Proof.Machine
end

