-- ==== Sys2Proof/Machine/Time.lean ====
section
/-! DEFINITION. Sys2Proof/Machine/Time.lean: fabric time (R67 to R87): the counter, the references, the TSYNC exchange,
the lock states of Table 3.2, and PPS_OUT. -/

namespace Sys2Proof.Machine

/-- FTM_STAT.STATE of a plane: 0 FREE, 1 ACQUIRE, 2 FREQ, 3 LOCKED, 4 HOLDOVER, 5 DEPTH_BAD. -/
def ftmState (s : State) (p : PlaneId) : Nat := s.get (pu p .FTM) Fld.FTM_STAT_STATE

/-- FTM_CFG.ROLE of a plane: 0 SLAVE, 1 MASTER_SB, 2 MASTER_PTP. -/
def ftmRole (s : State) (p : PlaneId) : Nat := s.get (pu p .FTM) Fld.FTM_CFG_ROLE

/-- Change a plane's fabric-time internals. -/
def modFtm (s : State) (p : PlaneId) (f : Ftm → Ftm) : State := s.modPl p (fun x => { x with ftm := f x.ftm })

/-- Enter an FTM state. PLN_STATE.FT_LOCKED is 1 exactly in LOCKED and HOLDOVER (R79); SRC reads NONE in FREE and
DEPTH_BAD (Table 3.4). -/
def setFtmState (p : PlaneId) (st : Nat) (s : State) : State :=
  let s := (s.put (pu p .FTM) Fld.FTM_STAT_STATE st).put (pu p .PLN) Fld.PLN_STATE_FT_LOCKED (b2n (st = 3 || st = 4))
  if st = 0 ∨ st = 5 then s.put (pu p .FTM) Fld.FTM_STAT_SRC 0 else s

/-- The hub whose TRF supplies a plane's reference and relay: REF_HUB, or the other hub while that one is fenced (Table
3.4). -/
def refHub (s : State) (p : PlaneId) : HubId :=
  let h := if s.on (pu p .FTM) Fld.FTM_CFG_REF_HUB then HubId.b else .a
  if s.hubFenced h then h.other else h

/-- A hub's TRF reaches a plane: its hub link is up and has not been closed (R19, R33). -/
def timeLink (s : State) (h : HubId) (p : PlaneId) : Bool :=
  s.powered (hu h .TRF) && s.on (hu h .HUB) (Fld.HUB_LINK_STAT_UP.at p.val) && !linkShut s h p

/-- The hub's reference is present for a master's role: TIMEREF_10M under SIDEBAND, a selected PTP master under PTP, over a hub link that
carries it (R19). -/
def refPresent (s : State) (p : PlaneId) : Bool :=
  let h := refHub s p
  let src := s.get (hu h .TRF) Fld.TRF_CFG_REF_SRC
  timeLink s h p && match ftmRole s p with
  | 1 => src = 1 && s.on (hu h .TRF) Fld.TRF_STAT_REF_OK
  | 2 => src = 2 && (s.hub h).ptp.master.isSome
  | _ => false

/-- The switch core's times move with a load of FT: every shaper goes on from the boundary it has reached, a head cell written in an
earlier slot stays written in an earlier slot, and admission times and deadlines keep their distance. -/
def rebaseSwitch (p : PlaneId) (v : Nat) (s : State) : State :=
  let old := s.ft p / 20
  let new := v / 20
  let shape (b : Shaper) : Shaper := { b.refill old with slot := new }
  let slot (n : Nat) : Nat := if n < old then 0 else new
  let ft (t : Nat) : Nat := t + v - s.ft p
  modFab p (fun f => { f with
    qs := f.qs.map (fun e => (e.1, { e.2 with shaper := shape e.2.shaper }))
    ps := f.ps.map (fun e => (e.1, { e.2 with shaper := shape e.2.shaper }))
    frames := f.frames.map (fun h => { h with headAt := slot h.headAt, admitFt := ft h.admitFt })
    queues := f.queues.map (fun e => (e.1, e.2.map (fun c => { c with head := slot c.head, admitFt := ft c.admitFt, deadline := ft c.deadline })))
    bufs := f.bufs.map (fun e => (e.1, { e.2 with deadline := ft e.2.deadline })) }) s

/-- Load FT (R72, R80). The local times of an exchange that has begun move with it, so that the next offset is that of the new FT. -/
def loadFt (p : PlaneId) (v : Nat) (s : State) : State :=
  let by64 : Int := 64 * (((v % 2 ^ 64 : Nat) : Int) - (s.ft p : Int))
  rebaseCores p (s.ft p) (cycleFrom (cyclesPerSlot s p) (s.ft p)) (modFtm (rebaseSwitch p (v % 2 ^ 64) s) p (fun f =>
    { f with ft := v % 2 ^ 64, ups := f.ups.map (fun u => { u with t2 := u.t2 + by64, t3 := u.t3 + by64 }) }))

/-- Every latch entry of a plane is IDLE or terminal (R80). -/
def latchesQuiet (s : State) (p : PlaneId) : Bool :=
  (List.range 64).all (fun e =>
    let st := s.get (pu p .LAT) (Fld.ENT_STAT_STATE.at e)
    st = 0 || 4 ≤ st)

/-- The conditions under which a plane in FREQ may load FT (R80). -/
def mayLoad (s : State) (p : PlaneId) : Bool := (s.plnState p = 2 || s.plnState p = 1) && latchesQuiet s p

/-- A stream is usable by a slave: its sender is LOCKED or HOLDOVER at a depth below 15 (Table 3.2). -/
def usableUp (u : Upstream) : Bool := (u.state = 3 || u.state = 4) && u.depth < 15

/-- The sibling whose stream a hub relays to a plane: the lowest-numbered one that is LOCKED (R78). -/
def relaySibling (s : State) (p : PlaneId) : Option PlaneId := (List.finRange 4).find? (fun r => r ≠ p && ftmState s r = 3)

/-- The order in which a slave takes its sources: the primary upstream port, the alternate, then a relay (Table 3.2,
R78). -/
def sourceOrder (s : State) (p : PlaneId) : List TimeSource :=
  let u := pu p .FTM
  let port (f : RField) : TimeSource := .port ⟨s.get u f % 128, Nat.mod_lt _ (by decide)⟩
  (if s.on u Fld.FTM_UPSTREAM_PRI_EN then [port Fld.FTM_UPSTREAM_PRI_PORT] else []) ++
  (if s.on u Fld.FTM_UPSTREAM_ALT_EN then [port Fld.FTM_UPSTREAM_ALT_PORT] else []) ++
  (if s.on u Fld.FTM_CFG_RELAY_EN then (relaySibling s p).toList.map (fun q => TimeSource.relay (refHub s p) q) else [])

/-- The link of a source is up: the port, or both hub links of a relay. (DEDUCED, log 47) -/
def sourceUp (s : State) (p : PlaneId) : TimeSource → Bool
  | .port n => portPen s p n.val && portState s p n.val = 3
  | .relay h q => timeLink s h p && timeLink s h q

/-- The last TSYNC of a source is no older than three intervals. -/
def sourceFresh (s : State) (p : PlaneId) (u : Upstream) : Bool := decide (s.beats p ≤ u.lastAt + 196608)

/-- A source carries time now: its link is up, and its last TSYNC is valid and no older than three intervals. (DEDUCED, log 47) -/
def sourceLive (s : State) (p : PlaneId) (src : TimeSource) : Bool :=
  sourceUp s p src && (s.pl p).ftm.ups.any (fun u => u.src = src && usableUp u && sourceFresh s p u)

/-- The first usable source of a slave, in order. -/
def pickSource (s : State) (p : PlaneId) : Option TimeSource := (sourceOrder s p).find? (sourceLive s p)

/-- FTM_STAT.SRC of a source: Table 3.4. A master's source is its reference. -/
def srcCode (s : State) (p : PlaneId) : Option TimeSource → Nat
  | none => if ftmRole s p = 0 then 0 else 1
  | some (.relay _ _) => 4
  | some (.port n) => if s.on (pu p .FTM) Fld.FTM_UPSTREAM_PRI_EN ∧ n.val = s.get (pu p .FTM) Fld.FTM_UPSTREAM_PRI_PORT then 2 else 3

/-- The depth through the source that a plane takes into use: 0 for a master, one more than the sender's for a slave (R77); none where
no source is. -/
def depthVia (s : State) (p : PlaneId) (src : Option TimeSource) : Option Nat :=
  if ftmRole s p ≠ 0 then some 0
  else ((s.pl p).ftm.ups.find? (fun u => src = some u.src)).map (fun u => min (u.depth + 1) 15)

/-- A plane takes a source, or none, into use. -/
def useSource (p : PlaneId) (src : Option TimeSource) (s : State) : State :=
  let t := (modFtm s p (fun f => { f with inUse := src, good := 0 })).put (pu p .FTM) Fld.FTM_STAT_SRC (srcCode s p src)
  match depthVia s p src with
  | some d => t.put (pu p .FTM) Fld.FTM_STAT_DEPTH d
  | none => t

/-- The loss of the source in use (Table 3.2): LOCKED enters HOLDOVER with its fault, ACQUIRE and FREQ return to FREE. -/
def sourceLost (p : PlaneId) (s : State) : State :=
  match ftmState s p with
  | 3 => detect (pu p .FTM) (if ftmRole s p = 0 then 2 else 1) .c 0 0 s
  | 1 => setFtmState p 0 (useSource p none s)
  | 2 => setFtmState p 0 (useSource p none s)
  | _ => s

/-- A usable source appears (Table 3.2): FREE goes to ACQUIRE, HOLDOVER back to LOCKED. -/
def sourceFound (p : PlaneId) (src : Option TimeSource) (s : State) : State :=
  match ftmState s p with
  | 0 => setFtmState p 1 (useSource p src s)
  | 4 => setFtmState p 3 (useSource p src s)
  | _ => s

/-- A master plane follows its hub's reference (Table 3.2, R81). -/
def followReference (p : PlaneId) (s : State) : State :=
  if ftmRole s p = 0 then s
  else if refPresent s p then sourceFound p none s
  else sourceLost p s

/-- Every master plane follows the references. -/
def followReferences (s : State) : State := followReference 3 (followReference 2 (followReference 1 (followReference 0 s)))

/-- A slave re-evaluates its sources (Table 3.2): a lost source in use, or a usable one from FREE or HOLDOVER. -/
def followUpstream (p : PlaneId) (s : State) : State :=
  if ftmRole s p ≠ 0 then s
  else match (s.pl p).ftm.inUse with
    | some src =>
      if sourceLive s p src then (if ftmState s p = 4 then sourceFound p (pickSource s p) s else s)
      else match ftmState s p with
        | 3 => sourceLost p s
        | 4 => match pickSource s p with
          | some x => sourceFound p (some x) s
          | none => s
        | _ => let s := sourceLost p s
               match pickSource s p with
               | some x => sourceFound p (some x) s
               | none => s
    | none => match pickSource s p with
      | some x => sourceFound p (some x) s
      | none => s

/-- The end of a beat (R79, R81): a master follows its hub's reference and hub link, and a slave whose source in use has lost its link
re-evaluates its sources. (DEDUCED, log 47) -/
def followLink (p : PlaneId) (s : State) : State :=
  if s.fenced (pu p .FTM) then s
  else if ftmRole s p ≠ 0 then followReference p s
  else if ((s.pl p).ftm.inUse.map (sourceUp s p)).getD true then s else followUpstream p s

/-- TIMEREF_CHANGE: TRF's judgment of TIMEREF_10M changes (R68): the input is present with a frequency error in ppb, or
it has been absent or out of range for so many beats. -/
def execTimerefChange (h : HubId) (present : Bool) (ppb : Int) (beats : Nat) (s : State) : Out :=
  if s.powered (hu h .TRF) then
    let inRange := present && decide (-10000 ≤ ppb ∧ ppb ≤ 10000)
    let s := s.put (hu h .TRF) Fld.TRF_STAT_FREQ_ERR (ofSigned 16 (satSigned 16 ppb))
    if inRange then .next (followReferences (s.put (hu h .TRF) Fld.TRF_STAT_REF_OK 1))
    else if 16500 ≤ beats then .next (followReferences (s.put (hu h .TRF) Fld.TRF_STAT_REF_OK 0))
    else .next s
  else .next s

/-- Beats of a second. -/
def secBeats : Nat := 1650000000

/-- The plane that times a hub's PPS (TRF_CFG.PPS_OUT_PLANE); it is the hub's reference plane of R69 (assumption log 16). -/
def ppsPlane (s : State) (h : HubId) : PlaneId := ⟨s.get (hu h .TRF) Fld.TRF_CFG_PPS_OUT_PLANE % 4, Nat.mod_lt _ (by decide)⟩

/-- Signed distance in 1/64 beat of a time (FT and phase) from the nearest second boundary (TRF_PPS_PHASE). -/
def ppsPhase (ft sub : Nat) : Int :=
  let t := (64 * ft + sub) % (64 * secBeats)
  if t ≤ 32 * secBeats then (t : Int) else (t : Int) - (64 * secBeats : Nat)

/-- An edge counts (R69): it stays high for 1,650 beats and, once the reference plane is LOCKED, falls within 16,500
beats of a second boundary: the nearest one, whether or not an edge has counted for it. (DESIGN CHOICE, log 21) (DESIGN CHOICE, log 123) -/
def ppsCounts (s : State) (h : HubId) (high sub : Nat) : Bool :=
  let p := ppsPlane s h
  decide (1650 ≤ high) &&
    (ftmState s p ≠ 3 || decide (-(64 * 16500 : Int) ≤ ppsPhase (s.ft p) sub ∧ ppsPhase (s.ft p) sub ≤ 64 * 16500))

/-- A measured offset, in 1/64 beat (R75, R76): FTM_STAT shows it, and the clock phase is slewed by it. -/
def takeOffset (p : PlaneId) (offset : Int) (s : State) : State :=
  modFtm (s.put (pu p .FTM) Fld.FTM_STAT_PHASE_ERR (ofSigned 16 (satSigned 16 offset))) p (fun f => { f with slew := offset })

/-- A counted edge at a master under MASTER_SB: in FREQ it loads the completed seed and enters LOCKED (R72, Table 3.2); in LOCKED the
distance from the second boundary is the offset that the plane slews back by (R76, R81). (DEDUCED, log 109) -/
def seedLoad (h : HubId) (sub : Nat) (p : PlaneId) (s : State) : State :=
  if ftmRole s p = 1 ∧ refHub s p = h ∧ timeLink s h p then
    match ftmState s p, (s.pl p).ftm.seed with
    | 2, some v => setFtmState p 3 (loadFt p v s)
    | 3, _ => takeOffset p (ppsPhase (s.ft p) sub) s
    | _, _ => s
  else s

/-- PPS_EDGE: a rising edge on PPS_IN, `sub` 64ths into the beat, that stays high for `high` beats (R69, R72). (DESIGN CHOICE, log 21) -/
def execPpsEdge (h : HubId) (high : Nat) (sub : Fin 64) (s : State) : Out :=
  if s.powered (hu h .TRF) then
    let u := hu h .TRF
    if ppsCounts s h high sub.val then
      let ph := satSigned 32 (ppsPhase (s.ft (ppsPlane s h)) sub.val)
      let s := ((s.inc u Fld.TRF_PPS_CNT).put u Fld.TRF_STAT_PPS_OK 1).put u Fld.TRF_PPS_PHASE (ofSigned 32 ph)
      let s := s.modHub h (fun x => { x with ppsAt := some x.beat })
      if s.get u Fld.TRF_CFG_REF_SRC = 1 then .next ((List.finRange 4).foldl (fun t p => seedLoad h sub.val p t) s) else .next s
    else .next (s.incSat u Fld.TRF_PPS_REJ)
  else .next s

/-- PPS_LOSS: 1.01 s pass without a counted edge and PPS_OK clears (Table 3.5). -/
def execPpsLoss (h : HubId) (s : State) : Out :=
  match (s.hub h).ppsAt with
  | some b => if b + 1666500000 < (s.hub h).beat then
      .next ((s.put (hu h .TRF) Fld.TRF_STAT_PPS_OK 0).modHub h (fun x => { x with ppsAt := none })) else .next s
  | none => .next s

/-- PTP time in beats (R72): a nanosecond count halfway between two beats goes to the later one. -/
def ptpBeats (sec ns : Nat) : Nat := sec * secBeats + (2 * 165 * ns + 100) / 200

/-- A master under MASTER_PTP in FREQ loads FT from PTP time and enters LOCKED when TRF reports PTP_OK (Table 3.2); in LOCKED the
difference from PTP time is the offset that the plane slews back by (R76, R81). (DEDUCED, log 109) -/
def ptpLoad (h : HubId) (now : Int) (p : PlaneId) (s : State) : State :=
  if ftmRole s p = 2 ∧ refHub s p = h ∧ timeLink s h p then
    match ftmState s p with
    | 2 => setFtmState p 3 (loadFt p now.toNat s)
    | 3 => takeOffset p (64 * ((s.ft p : Int) - now)) s
    | _ => s
  else s

/-- The best of the masters that have announced themselves: the smallest data set, then the smallest identity (IEEE 1588). (PRESUMED, log 20) -/
def bestMaster (l : List (Nat × Nat)) : Option Nat :=
  (l.foldl (fun (a : Option (Nat × Nat)) x => match a with
    | none => some x
    | some y => if x.2 < y.2 ∨ (x.2 = y.2 ∧ x.1 < y.1) then some x else a) none).map (·.1)

/-- The masters known to a hub's clock change: the best one is selected. Where that is another than before, its time is not in use yet
(R70, R87), and without any the master planes lose their reference. -/
def chooseMaster (h : HubId) (l : List (Nat × Nat)) (s : State) : State :=
  let m := bestMaster l
  if (s.hub h).ptp.master = m then s.modHub h (fun x => { x with ptp := { x.ptp with foreign := l } })
  else followReferences ((s.modHub h (fun x => { x with ptp := { foreign := l, master := m } })).put (hu h .TRF) Fld.TRF_STAT_PTP_OK 0)

/-- TRF_CFG changes (R70, R87): a clock of another source, domain or transport starts without a master. -/
def trfEffect (h : HubId) (v old : Word) (s : State) : State :=
  let same (f : RField) : Bool := fieldGet v f = fieldGet old f
  followReferences (if same Fld.TRF_CFG_REF_SRC && same Fld.TRF_CFG_PTP_DOMAIN && same Fld.TRF_CFG_PTP_TRANSPORT then s else chooseMaster h [] s)

/-- PTP_MESSAGE: an IEEE 1588 message of the configured domain and transport reaches the clock (R70, R72). An announce
enters its sender among the known masters, of which the best is selected; a sync (with its origin time, or followed by a follow-up) is
answered with a delay request; the delay response completes the path measurement, from which the hub's time is in use. (PRESUMED, log 20) -/
def execPtpMessage (h : HubId) (domain : Byte) (eth : Bool) (msg : PtpMsg) (s : State) : Out :=
  let u := hu h .TRF
  if s.powered u ∧ s.get u Fld.TRF_CFG_REF_SRC = 2 ∧ s.get u Fld.TRF_CFG_PTP_DOMAIN = domain.toNat ∧
      s.get u Fld.TRF_CFG_PTP_TRANSPORT = b2n eth then
    let c := (s.hub h).ptp
    let b := (s.hub h).beat
    let setC (c : PtpClock) : State := s.modHub h (fun x => { x with ptp := c })
    match msg with
    | .announce m rank => .next (chooseMaster h (c.foreign.filter (·.1 ≠ m) ++ [(m, rank)]) s)
    | .sync m seq origin =>
      if c.master = some m then
        let t1 := origin.map (fun o => ptpBeats o.1 o.2)
        let s := setC { c with seq := seq, t1 := t1, t2 := b, t3 := b }
        .next (if t1.isSome then s.emit (.delayReq h seq) else s)
      else .next s
    | .followUp m seq sec ns =>
      if c.master = some m ∧ c.seq = seq ∧ c.t1.isNone then
        .next ((setC { c with t1 := some (ptpBeats sec ns), t3 := b }).emit (.delayReq h seq))
      else .next s
    | .delayResp m seq sec ns =>
      match c.t1 with
      | some t1 =>
        if c.master = some m ∧ c.seq = seq then
          let t4 := ptpBeats sec ns
          let path : Int := (((c.t2 : Int) - t1) + ((t4 : Int) - c.t3)) / 2
          let now : Int := (t1 : Int) + path + ((b : Int) - c.t2)
          let s := (setC { c with path := some path }).put u Fld.TRF_STAT_PTP_OK 1
          .next ((List.finRange 4).foldl (fun t p => ptpLoad h now p t) s)
        else .next s
      | none => .next s
  else .next s

/-- PTP_MASTER_LOST: the selected PTP master no longer supplies time (R70, R87): the best of the others, if any, takes its place. -/
def execPtpMasterLost (h : HubId) (s : State) : Out :=
  match (s.hub h).ptp.master with
  | some m => .next (chooseMaster h ((s.hub h).ptp.foreign.filter (·.1 ≠ m)) s)
  | none => .next s

/-- FREQ_LOCK: the clocks of an acquiring plane have frequency-locked to their source (Table 3.2). -/
def execFreqLock (p : PlaneId) (s : State) : Out :=
  if ftmState s p = 1 then .next (setFtmState p 2 (modFtm s p (fun f => { f with good := 0, slew := 0 }))) else .next s

/-- The ports of a plane whose link is up. (DEDUCED, log 47) -/
def upPorts (s : State) (p : PlaneId) : List PortId := (List.finRange 128).filter (fun n => portTalks s p n.val)

/-- Sibling slaves whose relay comes from this plane (R78): they have RELAY_EN and no live port source, this plane is
the lowest-numbered LOCKED sibling, and the hub links of both carry it. -/
def relayTargets (s : State) (p : PlaneId) : List PlaneId :=
  (List.finRange 4).filter (fun q => q ≠ p && ftmRole s q = 0 && s.on (pu q .FTM) Fld.FTM_CFG_RELAY_EN &&
    !((sourceOrder s q).any (fun x => match x with | .port _ => sourceLive s q x | .relay _ _ => false)) &&
    relaySibling s q = some p && sourceUp s q (.relay (refHub s q) p))

/-- TSYNC_SEND: once every 65,536 beats a LOCKED or HOLDOVER plane sends TSYNC on every port whose link is up, and its
hub relays the stream where R78 says. `sub` is the departure phase within the beat. An echo's time goes out once: a TSYNC whose own echo
was lost leaves T_RX_PREV 0 in the next one. (DESIGN CHOICE, log 18) -/
def execTsyncSend (p : PlaneId) (sub : Fin 64) (s : State) : Out :=
  let f := (s.pl p).ftm
  let st := ftmState s p
  let due : Bool := match f.lastTx with
    | none => true
    | some t => decide (t + 65536 ≤ f.beats)
  if (st = 3 ∨ st = 4) ∧ due then
    let depth := s.get (pu p .FTM) Fld.FTM_STAT_DEPTH
    let msg (prev : Nat) : TsyncMsg := ⟨false, f.txSeq, st, depth, 64 * f.ft + sub.val, prev⟩
    let s1 := (upPorts s p).foldl (fun s n => sendTime p n (msg (mgetD f.echoAt n.val 0)) s) s
    let s2 := (relayTargets s p).foldl (fun t q => t.emit (.relay (refHub s q) q (msg (mgetD f.echoAt (128 + q.val) 0)))) s1
    .next (modFtm s2 p (fun f => { f with txSeq := (f.txSeq + 1) % 65536, lastTx := some f.beats, echoAt := [] }))
  else .next s

/-- A slave uses a complete exchange (R75, R80, Table 3.2): the offset is measured; in FREQ a large offset is removed by
one load when the plane permits it, and 16 exchanges in a row within 16/64 beat lock the plane. -/
def useExchange (p : PlaneId) (u : Upstream) (t4 : Nat) (asym : Int) (s : State) : State :=
  let delay : Int := (((t4 : Int) - u.t1) - (u.t3 - u.t2)) / 2 + asym
  let offset : Int := u.t2 - (u.t1 + delay)
  let s := takeOffset p offset (s.inc (pu p .FTM) Fld.FTM_XCNT)
  if ftmState s p = 2 then
    if offset > 64 * 32 ∨ offset < -(64 * 32) then
      if mayLoad s p then
        let beats := offset / 64
        modFtm (loadFt p ((((s.ft p : Int) - beats) % (2 ^ 64 : Nat)).toNat) s) p (fun f => { f with good := 0, slew := offset - 64 * beats })
      else modFtm s p (fun f => { f with good := 0, slew := 0 })
    else
      let good := if offset ≤ 16 ∧ -16 ≤ offset then (s.pl p).ftm.good + 1 else 0
      let s := modFtm s p (fun f => { f with good := good })
      if 16 ≤ good then setFtmState p 3 s else s
  else s

/-- Asymmetry correction of a source: FTM_ASYM of the port; a relay's delay is calibrated and the same both ways (R33,
R75). -/
def asymOf (s : State) (p : PlaneId) : TimeSource → Int
  | .port n => toSigned 16 (s.get (pu p .FTM) (Fld.FTM_ASYM.at n.val))
  | .relay _ _ => 0

/-- A TSYNC brings a depth (R77): that of the source in use, or of a source the plane would have to take because no other is usable. A
depth above 15 is DEPTH_BAD; a plane leaves DEPTH_BAD to FREE once its upstream, or another source, is usable. (DEDUCED, log 110) -/
def takeDepth (p : PlaneId) (src : TimeSource) (depth : Nat) (s : State) : State :=
  let mine : Bool := (s.pl p).ftm.inUse = some src
  if ftmState s p = 5 then (if (pickSource s p).isSome ∨ (mine ∧ depth < 15) then setFtmState p 0 (useSource p none s) else s)
  else if depth < 15 then (if mine then s.put (pu p .FTM) Fld.FTM_STAT_DEPTH (depth + 1) else s)
  else if mine ∨ ((s.pl p).ftm.inUse.isNone ∧ (sourceOrder s p).contains src ∧ (pickSource s p).isNone) then
    setFtmState p 5 (modFtm s p (fun f => { f with inUse := some src }))
  else s

/-- A TSYNC reaches a plane from a port or a relay at `now` and is answered at `t3`, both in 1/64 beat (R74). Its T_RX_PREV is the
fourth timestamp of the exchange before it (R75). (DESIGN CHOICE, log 18) -/
def tsyncIn (p : PlaneId) (src : TimeSource) (msg : TsyncMsg) (now t3 : Nat) (s : State) : State :=
  let linkOk : Bool := match src with
    | .port n => portTalks s p n.val
    | .relay h q => s.on (pu p .FTM) Fld.FTM_CFG_RELAY_EN && refHub s p = h && q ≠ p && sourceUp s p src
  if linkOk ∧ ¬ msg.echo ∧ s.powered (pu p .FTM) then
    let old := (s.pl p).ftm.ups.find? (fun u => u.src = src)
    let new : Upstream := ⟨src, msg.seq, msg.state, msg.depth, msg.tTx, now, t3, s.beats p⟩
    let s1 := modFtm s p (fun f => { f with ups := new :: f.ups.filter (fun u => u.src ≠ src) })
    let echo : TsyncMsg := ⟨true, msg.seq, ftmState s p, s.get (pu p .FTM) Fld.FTM_STAT_DEPTH, t3, now⟩
    let s2 := match src with
      | .port n => sendTime p n echo s1
      | .relay h q => s1.emit (.relay h q echo)
    let s3 := if ftmRole s2 p = 0 then followUpstream p (takeDepth p src msg.depth s2) else s2
    match old with
    | some u =>
      if ftmRole s3 p = 0 ∧ (s3.pl p).ftm.inUse = some src ∧ (u.seq + 1) % 65536 = msg.seq ∧ msg.tRxPrev ≠ 0 ∧
          (ftmState s3 p = 2 ∨ ftmState s3 p = 3) then
        useExchange p u msg.tRxPrev (asymOf s3 p src) s3
      else s3
    | none => s3
  else s

/-- TSYNC_RECEIVE: a TSYNC reaches a plane, `sub` 64ths into the beat, and is timestamped and answered on the same port (R74). -/
def execTsyncReceive (p : PlaneId) (src : TimeSource) (msg : TsyncMsg) (sub echoSub : Fin 64) (s : State) : Out :=
  .next (tsyncIn p src msg (64 * s.ft p + sub.val) (64 * s.ft p + echoSub.val) s)

/-- The echo of a TSYNC reaches its sender at `now`, in 1/64 beat. Its arrival is the fourth timestamp of the exchange, which the next
TSYNC on that port returns to the slave (R75). (DESIGN CHOICE, log 18) -/
def echoIn (p : PlaneId) (src : TimeSource) (msg : TsyncMsg) (now : Nat) (s : State) : State :=
  if msg.echo ∧ (msg.seq + 1) % 65536 = (s.pl p).ftm.txSeq then
    let k := match src with
      | .port n => n.val
      | .relay _ q => 128 + q.val
    modFtm s p (fun f => { f with echoAt := mput f.echoAt k now })
  else s

/-- TSYNC_ECHO_RECEIVE: the echo of a TSYNC reaches its sender, `sub` 64ths into the beat (R75). -/
def execTsyncEchoReceive (p : PlaneId) (src : TimeSource) (msg : TsyncMsg) (sub : Fin 64) (s : State) : Out :=
  .next (echoIn p src msg (64 * s.ft p + sub.val) s)

/-- The echo queued on a port leaves at `t`: that is the third timestamp of its exchange (R75). -/
def echoLeft (p : PlaneId) (n : PortId) (t : Nat) (s : State) : State :=
  modFtm s p (fun f => { f with ups := f.ups.map (fun u => if u.src = .port n then { u with t3 := t } else u) })

/-- PHASE_STEP: the fabric clock phase moves by 1/64 beat toward a zero offset, at most once per 1,024 beats (R76). -/
def execPhaseStep (p : PlaneId) (s : State) : Out :=
  let f := (s.pl p).ftm
  if f.slew ≠ 0 ∧ f.lastStep + 1024 ≤ f.beats ∧ (ftmState s p = 2 ∨ ftmState s p = 3) then
    .next (modFtm s p (fun f => { f with slew := if f.slew > 0 then f.slew - 1 else f.slew + 1, lastStep := f.beats }))
  else .next s

/-- TSYNC_TIMEOUT: no valid TSYNC for 196,608 beats from the source in use of a slave (R82, R88): LOCKED enters HOLDOVER, and ACQUIRE and
FREQ return to FREE, from which the first usable source is taken again (Table 3.2). -/
def execTsyncTimeout (p : PlaneId) (s : State) : Out :=
  match (s.pl p).ftm.inUse with
  | some src =>
    if ftmRole s p = 0 ∧ 1 ≤ ftmState s p ∧ ftmState s p ≤ 3 ∧
        ((s.pl p).ftm.ups.find? (fun u => u.src = src)).all (fun u => decide (u.lastAt + 196608 < s.beats p)) then
      if ftmState s p = 3 then .next (sourceLost p s) else .next (followUpstream p s)
    else .next s
  | none => .next s

/-- The holdover of a slave has reached its limit (Table 3.2). In the beat of a write of HOLD_LIMIT the limit before it must be reached as
well: a shorter limit that is already over takes effect in the beat after the write (R86). -/
def holdoverOver (s : State) (p : PlaneId) : Bool :=
  let f := (s.pl p).ftm
  let past (n : Nat) : Bool := decide (f.holdSince + 65536 * n ≤ f.beats)
  past (s.get (pu p .FTM) Fld.FTM_CFG_HOLD_LIMIT) && (f.holdWas.1 ≠ f.beats || f.holdWas.2 = 0 || past f.holdWas.2)

/-- HOLDOVER_EXPIRE: a slave in HOLDOVER for HOLD_LIMIT enters FREE and reports FT_LOST (Table 3.2, R82). -/
def execHoldoverExpire (p : PlaneId) (s : State) : Out :=
  if ftmRole s p = 0 ∧ ftmState s p = 4 ∧ holdoverOver s p then
    .next (detect (pu p .FTM) 3 .u 0 0 (setFtmState p 0 (useSource p none s)))
  else .next s

/-- The hub that drives PPS_OUT (R85): Hub A while it is unfenced with PPS_OUT_EN 1, otherwise Hub B under the same
condition. -/
def ppsDriver (s : State) : Option HubId :=
  if !s.hubFenced .a && s.powered (hu .a .TRF) && s.on (hu .a .TRF) Fld.TRF_CFG_PPS_OUT_EN then some .a
  else if !s.hubFenced .b && s.powered (hu .b .TRF) && s.on (hu .b .TRF) Fld.TRF_CFG_PPS_OUT_EN then some .b
  else none

/-- PPS_OUT_RISE: PPS_OUT rises at an FT that is a multiple of a second, timed by the driver's plane while that plane is
FT_LOCKED (R85). -/
def execPpsOutRise (s : State) : Out :=
  match ppsDriver s with
  | some h =>
    let p := ppsPlane s h
    if s.ft p % secBeats = 0 ∧ s.on (pu p .PLN) Fld.PLN_STATE_FT_LOCKED then .next { s with ppsOut := some (s.ft p) } else .next s
  | none => .next s

/-- PPS_OUT_FALL: PPS_OUT falls 165,000 beats after its rise, or when no plane may time it (R85). (DEDUCED, log 97) -/
def execPpsOutFall (s : State) : Out :=
  match s.ppsOut, ppsDriver s with
  | some r, some h =>
    let p := ppsPlane s h
    if r + 165000 ≤ s.ft p ∨ ¬ s.on (pu p .PLN) Fld.PLN_STATE_FT_LOCKED then .next { s with ppsOut := none } else .next s
  | some _, none => .next { s with ppsOut := none }
  | none, _ => .next s

/-- The checks of FTM writes (R72, R86). (DEDUCED, log 22) -/
def ftmVerdict (s : State) (p : PlaneId) (off : Nat) (v : Word) : Verdict :=
  if off = 0x05C then
    { state := ftmState s p = 3 || ftmState s p = 4 || ftmRole s p ≠ 1
      range := (s.get (pu p .FTM) Fld.FTM_SEED_LO + 2 ^ 32 * v.toNat) % secBeats ≠ 0 }
  else if off = 0x058 then { state := ftmState s p = 3 || ftmState s p = 4 || ftmRole s p ≠ 1 }
  else {}

/-- The effects of FTM writes: a changed role, limit or source order (R79, R86), a capture (R73) and a completed seed (R72). -/
def ftmEffect (p : PlaneId) (off : Nat) (v old : Word) (s : State) : State :=
  if off = 0x040 ∨ off = 0x044 then
    let s := if off = 0x040 then modFtm s p (fun f =>
        { f with holdWas := if f.holdWas.1 = f.beats ∧ f.holdWas.2 ≠ 0 then f.holdWas else (f.beats, fieldGet old Fld.FTM_CFG_HOLD_LIMIT) }) else s
    followUpstream p (followReference p s)
  else if off = 0x04C ∧ v.getLsbD 0 then s.put64 (pu p .FTM) Fld.FTM_CAP_LO Fld.FTM_CAP_HI (s.ft p)
  else if off = 0x05C then modFtm s p (fun f => { f with seed := some (s.get64 (pu p .FTM) Fld.FTM_SEED_LO Fld.FTM_SEED_HI) })
  else s

end Sys2Proof.Machine
end

