-- ==== Sys2Proof/Machine/LinkCore.lean ====
section
/-! DEFINITION. Sys2Proof/Machine/LinkCore.lean: port states, lane faults and narrowing, discovery and the link control messages
(R284 to R289, R301 to R308). -/

namespace Sys2Proof.Machine

/-! ### Widths and lanes (R286) -/

/-- The offsets that a port of so many lanes runs on, given its bad set (R286). -/
def selectLanes (width : Nat) (bad : List Nat) : List Nat :=
  let all := List.range width
  if all.all (fun i => !bad.contains i) then all
  else if width = 4 ∧ [0, 1].all (fun i => !bad.contains i) then [0, 1]
  else if width = 4 ∧ [2, 3].all (fun i => !bad.contains i) then [2, 3]
  else (all.filter (fun i => !bad.contains i)).take 1

/-- Offsets as a mask, and a mask as offsets. -/
def maskOf (l : List Nat) : Nat := (l.eraseDups.map (2 ^ ·)).sum
def offsOf (m : Nat) : List Nat := (List.range 4).filter (bit m)

/-- The offsets that are active (FPT_STAT.LANE_ACT). -/
def activeOffs (s : State) (p : PlaneId) (n : Nat) : List Nat := offsOf (s.get (uFPT p n) Fld.FPT_STAT_LANE_ACT)

/-- Set the active offsets and the width in force. -/
def setActive (p : PlaneId) (n : Nat) (l : List Nat) (s : State) : State :=
  (s.put (uFPT p n) Fld.FPT_STAT_LANE_ACT (maskOf l)).put (uFPT p n) Fld.FPT_STAT_WIDTH_NOW (Nat.log2 l.length)

/-- A port enters a state. -/
def setPort (p : PlaneId) (n st : Nat) (s : State) : State :=
  modLink p n (fun l => { l with since := s.beats p }) (s.put (uFPT p n) Fld.FPT_STAT_STATE st)

/-- No channel of a port has credits. -/
def dropCredits (p : PlaneId) (n : Nat) (s : State) : State :=
  (List.range 8).foldl (fun t v => t.put (uFPT p n) (Fld.FPT_VC_AVAIL.at v) 0) s

/-- What carries cells on a port is lost; its bad lanes and the narrowings that wait stay. -/
def dropLink (p : PlaneId) (n : Nat) (s : State) : State :=
  dropCredits p n (modLink p n (fun l => { since := l.since, bad := l.bad, narrow := l.narrow, probed := l.probed, fromUp := l.fromUp
                                           offset := l.offset, saved := l.saved }) s)

/-- A lane of a port stops: nothing of its link is kept but its HELLO count and what its last training took. -/
def dropLane (p : PlaneId) (lane : Nat) (s : State) : State :=
  modLane p lane (fun l => { hseq := l.hseq, helloIn := l.helloIn, txPol := l.txPol, rxPol := l.rxPol, trains := l.trains }) s

/-- A lane enters TRAINING: it takes the polarity and LT_EN of its chiplet (R310). -/
def trainLane (p : PlaneId) (lane : Nat) (s : State) : State :=
  let u := uSDS p (lane / 64)
  let pol (lo hi : RField) : Bool := bit (s.get u (if lane % 64 < 32 then lo else hi)) (lane % 32)
  modLane p lane (fun l => { l with txPol := pol Fld.SDS_TXPOL_LO Fld.SDS_TXPOL_HI, rxPol := pol Fld.SDS_RXPOL_LO Fld.SDS_RXPOL_HI
                                    trains := s.on u Fld.SDS_CFG_LT_EN }) s

/-- No lane of a port remains (R286): it is fenced with CAUSE LANES and reports FPT_LANE. -/
def portGone (p : PlaneId) (n : Nat) (s : State) : State :=
  shutPort p n 8 (detect (uFPT p n) 2 .u n 0 s)

/-! ### Replays that a narrowing causes (R287, R296) -/

/-- Serial distance from SEQ `a` to SEQ `b`, modulo 4,096. -/
def seqDist (a b : Nat) : Nat := (b + 4096 - a % 4096) % 4096
/-- SEQ `a` is before SEQ `b`. -/
def seqBefore (a b : Nat) : Bool := 2048 ≤ seqDist b a && seqDist b a ≠ 0

/-- The SEQ that a replay of a cell brings with it: its own, and for an adaptive cell every later adaptive cell (R296). -/
def replaySet (l : PortLink) (e : Sent) : List Nat :=
  if e.cell.sched then [e.seq]
  else (l.retry.filter (fun x => !x.cell.sched && (x.seq = e.seq || seqBefore e.seq x.seq))).map (·.seq)

/-- Replays join the order of first NAKs (R294): the cell that is asked for keeps its place where it waits already; cells that follow it in
their original order take the place of the first of them (R296). -/
def addReplays (l : PortLink) (q : List Nat) : PortLink :=
  if l.replays.contains (q.headD 4096) then l
  else
    let i := l.replays.findIdx q.contains
    let keep (r : List Nat) : List Nat := r.filter (fun x => !q.contains x)
    { l with replays := keep (l.replays.take i) ++ q ++ keep (l.replays.drop i) }

/-- Adaptive cells that wait for acknowledgment on removed lanes are replayed on the others. -/
def replayRemoved (lanes : List Nat) (l : PortLink) : PortLink :=
  let free (e : Sent) : Sent := if e.bound.any lanes.contains then { e with bound := none } else e
  let l := { l with retry := l.retry.map free, pends := l.pends.map free }
  match l.retry.find? (fun e => !e.cell.sched && lanes.contains e.lane) with
  | some e => addReplays l (replaySet l e)
  | none => l

/-- The offsets of a mask stop in both directions. -/
def applyMask (p : PlaneId) (n : Nat) (m : List Nat) (s : State) : State :=
  let act := activeOffs s p n
  let gone := act.filter (fun i => m.contains i)
  let s := setActive p n (act.filter (fun i => !m.contains i)) s
  let s := gone.foldl (fun t i => dropLane p (n + i) (t.put (uFPT p (n + i)) Fld.FPT_LANE_REMOVED 1)) s
  modLink p n (fun l => replayRemoved (gone.map (n + ·)) { l with bad := (l.bad ++ m).eraseDups }) s

/-! ### Training (R304, R306) -/

/-- A port starts training. Lanes that narrowing removed stay removed until PEN is written. -/
def startTraining (p : PlaneId) (n : Nat) (s : State) : State :=
  let s := setActive p n [] (setPort p n 1 s)
  let s := dropLink p n (modLink p n (fun l => { l with probed := false, fromUp := false, narrow := [], offset := none }) s)
  (portLanes s p n).foldl (fun t i => trainLane p i (dropLane p i (t.put (uFPT p i) Fld.FPT_LANE_LOCK 0))) s

/-- Beats of training, of DISCOVER without a HELLO, and of ABSENT. -/
def trainBeats : Nat := 165000000
def discoverBeats : Nat := 262144

/-! ### Entry to UP and QUARANTINE (R289, R299, R305) -/

/-- The round trip fits SLAT (R289). -/
def latencyOk (s : State) (p : PlaneId) (n : Nat) : Bool :=
  let rtt : Int := (s.get (uFPT p n) Fld.FPT_STAT_RTT : Nat)
  let slat : Int := (s.get (uFPT p n) Fld.FPT_CFG_SLAT : Nat)
  decide (rtt - 40 ≤ 2 * (20 * slat - 20))

/-- A port enters QUARANTINE with a cause. -/
def quarantineBy (log : State → State) (p : PlaneId) (n cause : Nat) (s : State) : State :=
  let up := portUp s p n
  let s := dropLink p n (setPort p n 4 (noteEvent p n s))
  let s := modLink p n (fun l => { l with fromUp := up }) (s.put (uFPT p n) Fld.FPT_STAT_QCAUSE cause)
  let s := (portLanes s p n).foldl (fun t i => modLane p i (fun l => { l with streak := 0 }) t) s
  followUpstream p (log s)

/-- A port enters QUARANTINE and reports FPT_NEIGHBOR. -/
def quarantine (p : PlaneId) (n cause : Nat) (s : State) : State := quarantineBy (detect (uFPT p n) 3 .c n cause) p n cause s

/-- A port enters UP: its numbering and its credits start afresh, and its grants are returned at once (R299), but held
back during a relock (R32). -/
def enterUp (p : PlaneId) (n : Nat) (s : State) : State :=
  let s := dropLink p n (setPort p n 3 s)
  let given := (List.range (portVcs s p n)).map (fun v => (v, grantOf s p n v))
  let hold := relocking s p
  followUpstream p (modLink p n (fun l => { l with given := if hold then [] else given, owed := if hold then given else [], fromUp := false }) s)

/-- A port whose active lanes have all matched, once from DISCOVER and four times in a row from QUARANTINE, goes to UP, or to
QUARANTINE with LATENCY. -/
def tryUp (p : PlaneId) (n : Nat) (s : State) : State :=
  let need := if portState s p n = 4 then 4 else 1
  let l := actLanes s p n
  if (portState s p n = 2 ∨ portState s p n = 4) ∧ l ≠ [] ∧ l.all (fun i => decide (need ≤ (laneOf s p i).streak)) then
    if latencyOk s p n then enterUp p n s else quarantine p n 8 s
  else s

/-! ### Lane faults and narrowing (R285 to R287, R308) -/

/-- The first multiple of 1,280 beats not less than `d` + 3,300. -/
def switchTime (d : Nat) : Nat := (d + 3300 + 1279) / 1280 * 1280

/-- A NARROW or NARROW_ACK message. -/
def narrowBody (kind mask t : Nat) : List Byte := ctlBytes kind (BitVec.ofNat 8 mask :: bytesOf 8 t)

/-- A narrowing at `t` of one end (`own`: this one) meets those of the other end that wait: all happen at the later time (R287).
(DEDUCED, log 44) -/
def meet (own : Bool) (now t : Nat) (l : List Narrowing) : Nat × List Narrowing :=
  let other := l.filter (fun x => x.own ≠ own && decide (now < x.t))
  let top := other.foldl (fun a x => max a x.t) t
  (top, l.map (fun x => if x.own ≠ own && decide (now < x.t) then { x with t := max x.t t } else x))

/-- A further bad lane of a port that carries traffic: NARROW goes out in four message positions of every lane that is still good. -/
def sendNarrow (p : PlaneId) (n : Nat) (bad : List Nat) (s : State) : State :=
  let now := s.ft p
  let keep := selectLanes (portWidth s p n) bad
  let mask := (activeOffs s p n).filter (fun i => !keep.contains i)
  let t := switchTime now
  let r := meet true now t (linkOf s p n).narrow
  let s := modLink p n (fun l => { l with bad := bad, narrow := r.2 ++ [⟨maskOf mask, r.1, true⟩] }) s
  (keep.map (n + ·)).foldl (fun s i =>
    ([0, 1, 2, 3] : List Nat).foldl (fun s _ => queueCtl p i { kind := 3, body := narrowBody 3 (maskOf mask) t, due := now } s) s) s

/-- A lane fault (R285): the port narrows, or loses the lane at once where it carries no traffic. `log` records the fault. -/
def laneFaultBy (log : Nat → State → State) (p : PlaneId) (lane : Nat) (s : State) : State :=
  match portOf s p lane with
  | none => s
  | some n =>
    let off := lane - n
    let st := portState s p n
    let bad := (linkOf s p n).bad
    if bad.contains off ∨ st = 0 ∨ st = 5 ∨ st = 6 then s
    else
      let bad := bad ++ [off]
      let s := log n (noteEvent p n s)
      if st = 3 ∨ st = 7 ∨ (st = 4 ∧ (linkOf s p n).fromUp ∧ (linkOf s p n).since = s.beats p) then
        let s := sendNarrow p n bad s
        if st = 3 then followUpstream p (s.put (uFPT p n) Fld.FPT_STAT_STATE 7) else s
      else if st = 1 then
        let keep := selectLanes (portWidth s p n) bad
        let gone := (List.range (portWidth s p n)).filter (fun i => !keep.contains i)
        let s := gone.foldl (fun t i => t.put (uFPT p (n + i)) Fld.FPT_LANE_REMOVED 1) (modLink p n (fun l => { l with bad := gone }) s)
        if keep = [] then portGone p n s else s
      else
        let keep := selectLanes (portWidth s p n) bad
        let s := applyMask p n ((activeOffs s p n).filter (fun i => !keep.contains i)) (modLink p n (fun l => { l with bad := bad }) s)
        if keep = [] then portGone p n s else tryUp p n s

/-- A lane fault that the port finds: FPT_LANE of class C. (DESIGN CHOICE, log 43) -/
def laneFault (p : PlaneId) (lane : Nat) (s : State) : State := laneFaultBy (fun n t => detect (uFPT p n) 2 .c lane 0 t) p lane s

/-- LANE_FAULT: a lane loses its signal or FEC lock, or another fault of R285 is found on it. `locked` says whether FEC lock holds. -/
def execLaneFault (p : PlaneId) (lane : PortId) (locked : Bool) (s : State) : Out :=
  if s.powered (uFPT p lane.val) then
    .next (laneFault p lane.val (if locked then s else s.put (uFPT p lane.val) Fld.FPT_LANE_LOCK 0))
  else .next s

/-- A NARROW message arrives on a lane (R287). (DEDUCED, log 44) -/
def narrowIn (p : PlaneId) (lane mask t : Nat) (s : State) : State :=
  match portOf s p lane with
  | none => s
  | some n =>
    if !portTalks s p n then s
    else
      let now := s.ft p
      let s := noteEvent p n s
      let s := queueCtl p lane { kind := 4, body := narrowBody 4 mask t, due := now } s
      let l := linkOf s p n
      let known := l.narrow.any (fun x => !x.own && x.mask = mask % 16 && decide (t ≤ x.t))
      let left := (activeOffs s p n).filter (bit mask)
      if known ∨ left = [] then s
      else if t ≤ now then
        let s := applyMask p n left s
        if activeOffs s p n = [] then portGone p n s else s
      else
        let r := meet false now t l.narrow
        let s := modLink p n (fun l => { l with narrow := r.2 ++ [⟨mask % 16, r.1, false⟩] }) s
        if portState s p n = 3 then followUpstream p (s.put (uFPT p n) Fld.FPT_STAT_STATE 7) else s

/-- NARROW: the far end removes lanes; it is acknowledged, and the lanes leave at T. -/
def execNarrow (p : PlaneId) (lane : PortId) (mask : Fin 16) (t : Dword) (s : State) : Out := .next (narrowIn p lane.val mask.val t.toNat s)

/-- NARROW_ACK: the far end has accepted a NARROW. This end switches at T in any case (R287), so nothing changes. -/
def execNarrowAck (_p : PlaneId) (_lane : PortId) (_mask : Fin 16) (_t : Dword) (s : State) : Out := .next s

/-- NARROW_SWITCH: at the start of T the lanes of the narrowings due in this beat stop. -/
def execNarrowSwitch (p : PlaneId) (n : PortId) (s : State) : Out :=
  let now := s.ft p
  let due := (linkOf s p n.val).narrow.filter (fun x => decide (x.t ≤ now))
  if due = [] ∨ ¬ portTalks s p n.val then .next s
  else
    let s := modLink p n.val (fun l => { l with narrow := l.narrow.filter (fun x => decide (now < x.t)) }) s
    let s := applyMask p n.val (due.flatMap (fun x => offsOf x.mask)) s
    if activeOffs s p n.val = [] then .next (portGone p n.val s)
    else if portState s p n.val = 7 ∧ (linkOf s p n.val).narrow = [] then .next (followUpstream p (s.put (uFPT p n.val) Fld.FPT_STAT_STATE 3))
    else .next (tryUp p n.val s)

/-! ### Round trip (R300, R301) -/

/-- A probe arrives on a lane and is answered with its departure FT. (DEDUCED, log 46) -/
def probeIn (p : PlaneId) (lane dep : Nat) (s : State) : State :=
  match portOf s p lane with
  | some n =>
    if portTalks s p n ∨ portState s p n = 1 then queueCtl p lane { kind := 6, body := ctlBytes 6 (bytesOf 8 dep), due := s.ft p } s else s
  | none => s

/-- RTT_PROBE: a probe is answered with RTT_ECHO. -/
def execRttProbe (p : PlaneId) (lane : PortId) (dep : Dword) (s : State) : Out := .next (probeIn p lane.val dep.toNat s)

/-- The round trip in whole beats, of the time from a probe's departure to its echo's arrival in 1/64 beat (R300). (DESIGN CHOICE, log 46) -/
def rttBeats (p : PlaneId) (lane elapsed : Nat) : Nat := (elapsed - Config.echoHeld p.val lane elapsed + 63) / 64

/-- An echo arrives at `now`, in 1/64 beat: the round trip in whole beats, rounded up and held at 0xFFFF (R300, R309). The time that the
echo was held for its message position (R301) is no part of it; the spec does not say how a port learns that time. (DESIGN CHOICE, log 46) -/
def rttIn (p : PlaneId) (lane dep now : Nat) (s : State) : State :=
  match portOf s p lane with
  | some n =>
    if portTalks s p n ∨ portState s p n = 1 then s.put (uFPT p n) Fld.FPT_STAT_RTT (min (rttBeats p lane (now - 64 * dep)) 0xFFFF) else s
  | none => s

/-- RTT_ECHO: the echo of this port's probe arrives, `sub` 64ths into the beat. -/
def execRttEcho (p : PlaneId) (lane : PortId) (dep : Dword) (sub : Fin 64) (s : State) : Out :=
  .next (rttIn p lane.val dep.toNat (64 * s.ft p + sub.val) s)

/-! ### HELLO (R302 to R306) -/

/-- The identity of the topology plan in force (RTE_PLAN). -/
def planId (s : State) (p : PlaneId) : Nat := s.get64 (pu p .RTE) Fld.RTE_PLAN_LO Fld.RTE_PLAN_HI

/-- The HELLO of a lane (Table 10.5). -/
def helloBody (s : State) (p : PlaneId) (n lane : Nat) : List Byte :=
  let u := uFPT p n
  let g (f : RField) : Nat := s.get u f
  ctlBytes 1 ([1, 1, BitVec.ofNat 8 p.val] ++ bytesOf 8 s.ident.serial.toNat ++ bytesOf 2 (selfAddr s p) ++
    bytesOf 4 (n + 2 ^ 8 * (lane - n + 4 * g Fld.FPT_CFG_WIDTH) + 2 ^ 16 * g Fld.FPT_CFG_ROLE + 2 ^ 24 * portVcs s p n) ++
    bytesOf 2 (g Fld.FPT_CFG_SLAT) ++ bytesOf 8 (planId s p) ++ bytesOf 4 (laneOf s p lane).hseq)

/-- HELLO_SEND: a lane's HELLO of this interval of 65,536 beats is due. -/
def execHelloSend (p : PlaneId) (lane : PortId) (s : State) : Out :=
  match portOf s p lane.val with
  | none => .next s
  | some n =>
    let k := s.ft p / 65536
    if portTalks s p n ∧ (actLanes s p n).contains lane.val ∧ (laneOf s p lane.val).helloIn ≠ some k then
      .next (modLane p lane.val (fun l => { l with helloIn := some k, hseq := (l.hseq + 1) % 2 ^ 32 })
        (queueCtl p lane.val { kind := 1, body := helloBody s p n lane.val, due := 65536 * k } s))
    else .next s

/-- The first comparison of Table 10.7 that a HELLO fails, 0 for none. -/
def helloCause (s : State) (p : PlaneId) (n lane : Nat) (b : List Byte) : Nat :=
  let f (i k : Nat) : Nat := ofBytes (sliceB b i k)
  let u := uFPT p n
  let g (x : RField) : Nat := s.get u x
  let ser := s.get64 u Fld.FPT_PLAN_SER_LO Fld.FPT_PLAN_SER_HI
  let kind := f 2 1
  if f 4 8 = s.ident.serial.toNat ∧ f 3 1 % 4 = p.val ∧ f 14 1 = n then 9
  else if kind ≠ g Fld.FPT_PLAN_PLAN_KIND then 5
  else if kind = 1 ∧ f 3 1 % 4 ≠ p.val then 3
  else if ser ≠ 0 ∧ f 4 8 ≠ ser then 1
  else if f 12 2 ≠ g Fld.FPT_PLAN_PLAN_ADDR then 2
  else if f 14 1 ≠ g Fld.FPT_PLAN_PLAN_PORT then 4
  else if f 15 1 % 4 ≠ lane - n ∨ f 15 1 / 4 % 4 ≠ g Fld.FPT_CFG_WIDTH ∨ f 17 1 ≠ portVcs s p n ∨ f 18 1 ≠ g Fld.FPT_CFG_SLAT then 6
  else if kind = 1 ∧ f 20 8 ≠ planId s p then 7
  else 0

/-- A HELLO arrives on a lane: it is kept and compared. -/
def helloIn (p : PlaneId) (lane : Nat) (b : List Byte) (s : State) : State :=
  match portOf s p lane with
  | none => s
  | some n =>
    if ofBytes (b.take 1) ≠ 1 ∨ ofBytes (sliceB b 1 1) ≠ 1 ∨ ¬ portTalks s p n ∨ ¬ (actLanes s p n).contains lane then s
    else
      let s := noteEvent p n s
      let s := (List.range 12).foldl (fun t k => t.put (uFPT p lane) (Fld.FPT_HELLO_DATA.at k) (ofBytes (sliceB b (4 * k) 4))) s
      let c := helloCause s p n lane b
      let s := modLane p lane (fun l => { l with heard := true, streak := if c = 0 then min (l.streak + 1) 4 else 0 }) s
      if c = 0 then tryUp p n s
      else if portState s p n = 4 then s
      else quarantine p n c s

/-- HELLO: a HELLO of 48 bytes arrives on a lane. -/
def execHello (p : PlaneId) (lane : PortId) (msg : BitVec 384) (s : State) : Out := .next (helloIn p lane.val (bytesOf 48 msg.toNat) s)

/-! ### Training and retries (R304, R306) -/

/-- TRAINING_DONE: the training of a port ends with the offsets that trained. A lane that fails needs the whole of its time; with none
the port is ABSENT. -/
def execTrainingDone (p : PlaneId) (n : PortId) (trained : Fin 16) (s : State) : Out :=
  let l := linkOf s p n.val
  let all := List.range (portWidth s p n.val)
  let want := all.filter (fun i => !l.bad.contains i)
  let good := want.filter (fun i => bit trained.val i)
  let late := l.since + trainBeats ≤ s.beats p
  if ¬ portPen s p n.val ∨ portState s p n.val ≠ 1 ∨ (good ≠ want ∧ ¬ late) then .next s
  else
    let failed := want.filter (fun i => !good.contains i)
    let keep := selectLanes (portWidth s p n.val) (l.bad ++ failed)
    let s := failed.foldl (fun t i => detect (uFPT p n.val) 2 .c (n.val + i) 0 t) s
    if good = [] then .next (setPort p n.val 5 s)
    else
    let s := good.foldl (fun t i => t.put (uFPT p (n.val + i)) Fld.FPT_LANE_LOCK 1) s
    let s := (all.filter (fun i => !keep.contains i)).foldl (fun t i => t.put (uFPT p (n.val + i)) Fld.FPT_LANE_REMOVED 1) s
    let s := modLink p n.val (fun l => { l with bad := all.filter (fun i => !keep.contains i) }) s
    .next (setPort p n.val 2 (setActive p n.val keep s))

/-- DISCOVER_TIMEOUT: 262,144 beats after DISCOVER without a HELLO on some lane (R306). -/
def execDiscoverTimeout (p : PlaneId) (n : PortId) (s : State) : Out :=
  if ¬ portPen s p n.val ∨ portState s p n.val ≠ 2 ∨ s.beats p ≤ (linkOf s p n.val).since + discoverBeats then .next s
  else
    let s := noteEvent p n.val s
    let quiet := (activeOffs s p n.val).filter (fun i => !(laneOf s p (n.val + i)).heard)
    if quiet = [] then .next s
    else if quiet.length = (activeOffs s p n.val).length then .next (setActive p n.val [] (setPort p n.val 5 s))
    else
      let bad := (linkOf s p n.val).bad ++ quiet
      let keep := selectLanes (portWidth s p n.val) bad
      let s := applyMask p n.val ((activeOffs s p n.val).filter (fun i => !keep.contains i)) (modLink p n.val (fun l => { l with bad := bad }) s)
      .next (tryUp p n.val s)

/-- ABSENT_RETRY: every 165,000,000 beats an ABSENT port trains again. -/
def execAbsentRetry (p : PlaneId) (n : PortId) (s : State) : Out :=
  if portPen s p n.val ∧ portState s p n.val = 5 ∧ (linkOf s p n.val).since + trainBeats ≤ s.beats p then .next (startTraining p n.val s)
  else .next s

end Sys2Proof.Machine
end

