-- ==== Sys2Proof/Machine/Inject.lean ====
section
/-! DEFINITION. Sys2Proof/Machine/Inject.lean: a fault of Table 14.2 with every reaction that belongs to it, as a block finds it
(FAULT_DETECT, R393) or as test mode injects it (R417). -/

namespace Sys2Proof.Machine

/-- The reactions of a port's faults (R285, R308): FPT_LANE takes the lane out, FPT_NEIGHBOR puts the port in QUARANTINE. An injected
FPT_NEIGHBOR names no mismatch, so that QCAUSE is a free value. -/
def fptReact (p : PlaneId) (n src : Nat) (s : State) : State :=
  if src = 2 then laneFaultBy (fun _ t => t) p n s
  else if src = 3 then
    match portOf s p n with
    | some q => if portTalks s p q then (fun r => quarantineBy id p q (r.1.toNat % 16) r.2) s.takeFree else s
    | none => s
  else s

/-- The reactions of a slice's faults (Table 14.2), on the context and the chunk that the log names: an overrun (R154) or a count that is
exceeded (R141) leaves the context in FAULT, a contribution that is missing and a recompute that fails end the chunk's close in FINAL
seals (R162, R177), and a residue that differs at the close leads to a recompute. WHERE holds the context of an overrun, and the chunk's
number else, with the context in DETAIL. -/
def tmbReact (p : PlaneId) (n src : Nat) (cls : FaultClass) (wh detail : Nat) (s : State) : State :=
  match (List.range 16).find? (fun pos => serverOf s p pos = some n) with
  | none => s
  | some pos =>
    let c := detail % 16
    let closing (f : Chunk → Chunk) : State := modCtx p pos c (fun x => { x with chunks := x.chunks.map (fun k =>
      if k.st = .filling ∨ k.st = .closing then f k else k) }) s
    match src with
    | 1 => modCtx p pos (wh % 16) (fun x => { x with fault := true }) (s.incSat (uTMB p n) Fld.TMB_OVR_OVR_CNT)
    | 2 =>
      if cls = .c then closing (fun k => if k.st = .closing then { k with neg := 2 } else k)
      else if ((getCtx s p pos c).bind (·.chunk wh)).any (·.recomputing) then failChunk p pos c wh 8 [] s
      else closing (fun k => if k.num = wh ∧ k.fail = 0 then { k with fail := 8 } else k)
    | 5 => closing (fun k => if k.fail = 0 then { k with fail := 5 } else k)
    | 6 => modCtx p pos c (fun x => { x with fault := true }) s
    | _ => s

/-- A fault with every reaction of its source: those of `detect`, the report of a range that a SEALED chunk wrote (R180), and those
of ports and slices. -/
def detectAll (injected : Bool) (u src : Nat) (cls : FaultClass) (wh detail : Nat) (s : State) : State :=
  let s := detectFault u { src := src, cls := cls, loc := wh, detail := detail, injected := injected } s
  match unitPlane u with
  | none => s
  | some p => match planeBlk (u % 256) with
    | some (.FPT, n) => fptReact p n src s
    | some (.TMB, n) => tmbReact p n src cls wh detail s
    | some (.NMC, _) => if src = 2 then afterUse p (wh + 2 ^ 32 * detail) s else s
    | some (.FMC, _) => if src = 2 then afterUse p (wh + 2 ^ 32 * detail) s else s
    | _ => s

/-- The next item that the check of a D source protects is corrupted (R417). A local store's error is correctable or not, by the
class, and lies in one 64-bit word of it, or in the next word read. (DESIGN CHOICE, log 92) -/
def corruptNext (u src : Nat) (b : Blk) (cls : FaultClass) (word : Option Nat) (s : State) : State :=
  s.modRp u (fun r => { r with corrupt := some (if b = .CCX then src + (if cls = .u then 256 else 0) + 512 * (word.elim 0 (· + 1)) else src) })

/-- FAULT_DETECT: a block detects a fault of its own (R393, R394). With `item` the fault strikes the next item that a D
source's check protects, and that check detects it. A block without power, or a source and class that Table 14.2 does
not give it, detects nothing (assumption log 2). -/
def execFaultDetect (u src : Nat) (cls : FaultClass) (wh detail : Nat) (item : Bool) (s : State) : Out :=
  match unitBlk u with
  | none => .next s
  | some (b, _) =>
    if s.powered u ∧ classAllowed b src cls wh ∧ s.dead.isNone then
      if item ∧ injectsD b src then .next (corruptNext u src b cls (some (wh / 8)) s)
      else .next (detectAll false u src cls wh detail s)
    else .next s

/-- The checks of a BLK_ERR_INJ write (R48, R417). -/
def injVerdict (s : State) (b : Blk) (v : Word) : Verdict :=
  if v.getLsbD 31 then
    { state := !s.testMode, range := !assigned b (v.toNat % 256) || bits v.toNat 9 8 = 0 }
  else {}

/-- Every unit that Table 13.4 assigns. -/
def allUnits : List Nat := ([0, 1, 2, 3] : List PlaneId).flatMap planeUnits ++ [HubId.a, HubId.b].flatMap hubUnits

/-- WHERE and DETAIL of an injected fault, from a free value: a scratchpad bank, a power domain, a unit, or an address of the memory
where the reaction acts on one. -/
def injWhere (s : State) (u : Nat) (b : Blk) (src f : Nat) : Nat × Nat :=
  let at' (a : Nat) : Nat × Nat := (a % 2 ^ 32, a / 2 ^ 32)
  match b, src with
  | .SPM, 2 => at' (baseS + f % 2 ^ 28)
  | .SPM, 3 => (f % 64, f / 2 ^ 32)
  | .PWR, 2 => (f % 32, f / 2 ^ 32)
  | .FCL, 2 => (allUnits.getD (f % allUnits.length) u, f / 2 ^ 32)
  | .NMC, _ => at' (f % popN)
  | .FMC, _ => at' (baseF + f % max 1 (((unitPlane u).map (popF s)).getD 1))
  | _, _ => at' f

/-- An accepted GO injects one fault of INJ_SRC and INJ_CLASS (R417); WHERE and DETAIL of an injected fault are free values. -/
def inject (u : Nat) (b : Blk) (v : Word) (s : State) : State :=
  let src := v.toNat % 256
  let cls := classOf (bits v.toNat 9 8)
  let r := s.takeFree
  let w := injWhere s u b src r.1.toNat
  let s := detectAll true u src cls w.1 w.2 r.2
  if injectsD b src then corruptNext u src b cls none s else s

end Sys2Proof.Machine
end

