-- ==== Sys2Proof/Machine/KeyCore.lean ====
section
/-! DEFINITION. Sys2Proof/Machine/KeyCore.lean: what a latch entry does to the key armed for it (R93, R120). -/

namespace Sys2Proof.Machine

/-- The start FT of a bank is known: it stands in KSQ_Bb_START, and the hubs learn it for a CTRL_PATH swap (R120, R126). -/
def setKeyStart (p : PlaneId) (b t : Nat) (s : State) : State :=
  let s := s.put64 (pu p .KSQ) (Fld.KSQ_B_START_LO_S_LO.at b) (Fld.KSQ_B_START_HI_S_HI.at b) t
  let s := modBank p b (fun k => { k with start := some t }) s
  s.modPl p (fun x => { x with swapLow := x.swapLow.map (fun e => (e.1, some t)) })

/-- The ARMED bank that waits for a latch entry. -/
def latchedBank (s : State) (p : PlaneId) (e : Nat) : Option Nat :=
  (bankIn s p 3).bind (fun b => if (bankOfKey s p b).viaLatch = some e then some b else none)

/-- An entry with ACT_KEY becomes STRUCK: it supplies S to the key armed for it (R93). -/
def keyLatchStrike (p : PlaneId) (e t : Nat) (s : State) : State :=
  match latchedBank s p e with
  | some b => setKeyStart p b t s
  | none => s

/-- An entry reaches a terminal state other than RELEASED (R120): MISSED returns the bank with LATE, TIMEOUT and ABORTED with
LATCH. -/
def keyLatchEnd (p : PlaneId) (e st : Nat) (s : State) : State :=
  match latchedBank s p e with
  | some b => if st = 7 then disarm p b 0x10 s else if st = 5 ∨ st = 6 then disarm p b 0x12 s else s
  | none => s

end Sys2Proof.Machine
end

