-- ==== Sys2Proof/Machine/KeyLoad.lean ====
section
/-! DEFINITION. Sys2Proof/Machine/KeyLoad.lean: loading and arming a key (R99 to R121, R127, R128): the image, its checks in the
order of Table 4.9, and the KSQ commands. -/

namespace Sys2Proof.Machine

/-! ### The image -/

/-- A key image's parts, as Table 4.1 places them. -/
structure KeyImage where
  raw : List Byte
  flags : Nat
  lineCnt : Nat
  patCnt : Nat
  sliceMap : Nat
  memMap : Nat
  bankMap : Nat
  portMap : Nat
  valid : Nat
  streams : List StreamDef
  alts : List (Nat × Nat)
  pats : List (Nat × Payload)
  lines : List (List Byte)
  deriving DecidableEq, Repr

/-- A little-endian field of a byte string. -/
def le (l : List Byte) (o n : Nat) : Nat := ofBytes (sliceB l o n)

/-- Cut bytes into records of a size. -/
def records (size : Nat) : Nat → List Byte → List (List Byte)
  | 0, _ => []
  | n + 1, l => sliceB l 0 size :: records size n (l.drop size)

/-- Read an image of Table 4.1 from its bytes. -/
def parseKey (l : List Byte) : KeyImage :=
  let pc := le l 0x20 4
  let lc := le l 0x1C 4
  let alt := (records 4 64 (l.drop 0x300)).map ofBytes
  let pr := records 320 pc (l.drop 0x400)
  { raw := l, flags := le l 0x18 4, lineCnt := lc, patCnt := pc, sliceMap := le l 0x2C 4, memMap := le l 0x30 4
    bankMap := le l 0x38 8, portMap := le l 0x40 16, valid := le l 0x50 4
    streams := (records 32 16 (l.drop 0x100)).map (fun r => { base := le r 0 8, len := le r 8 8, stage := le r 16 8, stageLen := le r 24 4 })
    alts := (alt.filter (fun w => bit w 31)).map (fun w => (bits w 11 0, bits w 27 16))
    pats := pr.map (fun r => (le r 0 4, payloadOf (r.drop 64)))
    lines := records 64 lc (l.drop (0x400 + 320 * pc)) }

/-- FLAGS.SIGNED. -/
def KeyImage.signed (k : KeyImage) : Bool := bit k.flags 0

/-- The length that R99 gives an image. -/
def keyLength (pc lc : Nat) (signed : Bool) : Nat := 0x400 + 320 * pc + 64 * lc + (if signed then 192 else 0)

/-- All bytes zero. -/
def zeros (l : List Byte) : Bool := l.all (· = 0)

/-- FORMAT (Table 4.9): fixed fields, reserved bytes and bits, and the length. -/
def formatOk (l : List Byte) : Bool :=
  let pc := le l 0x20 4
  let lc := le l 0x1C 4
  let fl := le l 0x18 4
  let sg := bit fl 0
  decide (l.length = keyLength pc lc sg) && le l 0 4 = 0x594B5A4B && le l 4 2 = 1 && le l 6 2 = 256 && le l 8 8 ≠ 0 &&
    fl < 64 && le l 0x2C 4 < 2 ^ 17 && (le l 0x30 4 / 64 % 4 = 0 && le l 0x30 4 < 512) && zeros (sliceB l 0x34 4) &&
    le l 0x50 4 < 65536 && zeros (sliceB l 0x54 12) && zeros (sliceB l 0xA0 96) &&
    (records 32 16 (l.drop 0x100)).all (fun r => zeros (sliceB r 6 2) && zeros (sliceB r 0x1C 4)) &&
    (records 4 64 (l.drop 0x300)).all (fun r => bits (ofBytes r) 15 12 = 0 && bits (ofBytes r) 30 28 = 0) &&
    (records 320 pc (l.drop 0x400)).all (fun r => zeros (sliceB r 4 60)) &&
    (!sg || zeros (sliceB l (0x400 + 320 * pc + 64 * lc + 132) 60))

/-- The byte string that DIGEST and the signature cover (Table 4.2). -/
def digestBytes (k : KeyImage) : List Byte :=
  k.raw.take 0x60 ++ (k.raw.drop 0x100).take (0x300 + 320 * k.patCnt + 64 * k.lineCnt)

/-- SIGNATURE: a signed image must verify under the key-signing key that the configuration image names; an unsigned one is refused where
keys must be signed (R100). (DEDUCED, log 56) -/
def signatureOk (s : State) (k : KeyImage) : Bool :=
  if k.signed then
    match s.cfg.keySign with
    | some pk => Config.ecdsaVerify pk (digestBytes k) (sliceB k.raw (0x400 + 320 * k.patCnt + 64 * k.lineCnt) 192)
    | none => false
  else !s.cfg.keyMust

/-- UNITMAP (Table 4.9), at load and at arm time. -/
def unitMapOk (s : State) (p : PlaneId) (sliceMap memMap bankMap valid : Nat) (streams : List StreamDef) : Bool :=
  let act := s.get (pu p .PLN) Fld.PLN_UNIT_SLICE_SLICE_ACT
  let fm := s.get (pu p .PLN) Fld.PLN_UNIT_MEM_FMC_ACT
  let nm := s.on (pu p .PLN) Fld.PLN_UNIT_MEM_NMC_ACT
  let map := bankMapNow s p
  (List.range 17).all (fun n => !bit sliceMap n || bit act n) &&
    (List.range 6).all (fun c => !bit memMap c || bit fm c) && (!bit memMap 8 || nm) &&
    (List.range 64).all (fun b => !bit bankMap b || (decide (b < map.length) && bankActive s p (map.getD b 64))) &&
    (!(streams.zipIdx.any (fun e => bit valid e.2 && decide (baseF ≤ e.1.base))) || memMap % 64 = fm)

/-- The ingress and egress codes of lane `i` in an entry. -/
def inCode (d : Payload) (i : Nat) : Nat := patByte d i
def outCode (d : Payload) (i : Nat) : Nat := patByte d (128 + i)

/-- A code of Table 4.8 in one direction. -/
def codeOk (ingress : Bool) (c : Nat) : Bool :=
  c ≤ 0x11 || (0x20 ≤ c && c < 0x30) || (if ingress then c = 0x40 else (0x41 ≤ c && c ≤ 0x51) || 0x80 ≤ c)

/-- The slice a code names, the stream a code names. -/
def codeSlice (c : Nat) : Option Nat := if 1 ≤ c ∧ c ≤ 0x11 then some (c - 1) else if 0x41 ≤ c ∧ c ≤ 0x51 then some (c - 0x41) else none
def codeStream (c : Nat) : Option Nat := if 0x20 ≤ c ∧ c < 0x30 then some (c - 0x20) else none

/-- PATTERN for one entry (Table 4.9). -/
def entryOk (k : KeyImage) (d : Payload) : Bool :=
  (List.range 128).all (fun i =>
    let a := inCode d i
    let b := outCode d i
    let names (c : Nat) : Bool := (codeSlice c).all (bit k.sliceMap) && (codeStream c).all (bit k.valid)
    codeOk true a && codeOk false b && ((a = 0 && b = 0) || bit k.portMap i) && names a && names b &&
      (decide (b < 0x80) || inCode d (b - 0x80) = 0x40))

/-- The entry a key defines for a pattern number; pattern 0 is all OPEN. -/
def KeyImage.entry (k : KeyImage) (n : Nat) : Option Payload := if n = 0 then some 0 else (k.pats.find? (·.1 = n)).map (·.2)

/-- The entries a pattern may act with: its own and those of its valid alternates. -/
def KeyImage.entries (k : KeyImage) (n : Nat) : List Payload :=
  (k.entry n).toList ++ (k.alts.filter (·.1 = n)).filterMap (fun a => k.entry a.2)

/-- The index of the first record that fails PATTERN; `none` where none does. Alternate entries fail with index 0. -/
def patternFail (k : KeyImage) : Option Nat :=
  let bad := k.pats.zipIdx.find? (fun e => e.1.1 = 0 || decide (4095 < e.1.1) || (k.pats.take e.2).any (·.1 = e.1.1) || !entryOk k e.1.2)
  match bad with
  | some e => some e.2
  | none => if k.alts.all (fun a => a.1 ≠ 0 && (k.entry a.1).isSome && (k.entry a.2).isSome) then none else some 0

/-- One memory operation's fields (R106). -/
def mopOk (k : KeyImage) (tops : List Nat) (m : Nat) : Bool :=
  let op := bits m 3 0
  let sel := bits m 7 4
  let cells := bits m 15 8
  let sl := bits m 20 16
  let stream : Bool := bit k.valid sel && decide (1 ≤ cells ∧ cells ≤ 64)
  let top := tops.getD sl 0 % 16
  m < 2 ^ 21 && (match op with
    | 0 => m = 0
    | 3 => stream && decide (sl ≤ 16) && bit k.sliceMap sl && top ≠ 0 && top ≠ 4
    | 4 => sel ≤ 6 && mapNames k.memMap sel && cells = 0 && sl = 0
    | 5 => sel ≤ 6 && mapNames k.memMap sel && cells = 0 && sl = 0
    | 6 => sel ≤ 6 && mapNames k.memMap sel && cells = 0 && sl = 0
    | 1 => stream && sl = 0 && (if (k.streams.getD sel {}).base < baseF then bit k.memMap 8 else k.memMap % 64 ≠ 0)
    | 2 => stream && sl = 0 && (if (k.streams.getD sel {}).base < baseF then bit k.memMap 8 else k.memMap % 64 ≠ 0)
    | _ => false)

/-- A RUN line (Table 4.9 LINE). -/
def runOk (k : KeyImage) (l : Line) : Bool :=
  (k.entry l.pat).isSome && l.rep ≠ 0 && l.word1 < 2 ^ 17 &&
    l.tops.zipIdx.all (fun e => let op := e.1 % 16
      if op = 0 then e.1 = 0 else op ≤ 4 && bit k.sliceMap e.2) &&
    l.mops.all (mopOk k l.tops) &&
    l.sops.all (fun w => let op := w % 16
      if op = 0 then w = 0 else op ≤ 2) &&
    (k.entries l.pat).all (fun d => (List.range 128).all (fun i =>
      let c := inCode d i
      !(1 ≤ c && c ≤ 0x11) || (let op := l.tops.getD (c - 1) 0 % 16; op ≠ 0 && op ≠ 4)))

/-- Whether a line's RUN fields are all zero. -/
def plainLine (l : Line) : Bool := l.pat = 0 && l.tops.all (· = 0) && l.mops.all (· = 0) && l.sops.all (· = 0)

/-- One line (Table 4.9 LINE), at its index. -/
def lineOk (k : KeyImage) (lines : List Line) (b : List Byte) (i : Nat) (l : Line) : Bool :=
  crc16 (b.take 62) = l.lchk && l.rsvd = 0 && (match l.kind with
    | 0 => runOk k l
    | 1 => plainLine l && l.rep ≠ 0 && l.word1 < i && ((lines.take i).drop l.word1).all (·.kind ≠ 1)
    | 2 => plainLine l && l.rep = 0 && l.word1 = 0
    | _ => false)

/-- The index of the first line that fails LINE; a missing or early END counts at the last line. -/
def lineFail (k : KeyImage) : Option Nat :=
  let ls := k.lines.map parseLine
  match (k.lines.zip ls).zipIdx.find? (fun e => !lineOk k ls e.1.1 e.2 e.1.2) with
  | some e => some e.2
  | none =>
    let ends := ls.zipIdx.filter (fun e => e.1.kind = 2)
    if ends.map (·.2) = [k.lineCnt - 1] then none else some (k.lineCnt - 1)

/-- The port of a lane for the SEAL check: a configured port, or the lane alone. -/
def sealPort (s : State) (p : PlaneId) (lane : Nat) : Nat := portOr s p lane

/-- The RUN lines that can follow line `i`; `none` stands for the END line. -/
def follows (ls : List Line) (i : Nat) : List (Option Line) :=
  let at' (j : Nat) : Option Line := (ls[j]?).bind (fun l => if l.kind = 0 then some l else none)
  match ls[i + 1]? with
  | none => [none]
  | some l => if l.kind = 1 then (if 1 < l.rep then [at' l.word1] else []) ++ [at' (i + 2)] else [at' (i + 1)]

/-- A line fails SEAL (Table 4.9). -/
def sealBad (s : State) (p : PlaneId) (k : KeyImage) (ls : List Line) (i : Nat) (l : Line) : Bool :=
  l.kind = 0 &&
    (let d := (k.entry l.pat).getD 0
     ((List.range 128).any (fun n => let c := outCode d n; 0x41 ≤ c && c ≤ 0x51) && l.rep ≠ 1) ||
      (List.range 17).any (fun n => bit l.word1 n &&
        (let ports := (((List.range 128).filter (fun x => outCode d x = 1 + n)).map (sealPort s p)).eraseDups
         !((follows ls i).all (fun f => match f with
            | none => false
            | some g => g.rep = 1 && ports.all (fun q => outCode ((k.entry g.pat).getD 0) q = 0x41 + n))))))

/-- The index of the first line that fails SEAL. -/
def sealFail (s : State) (p : PlaneId) (k : KeyImage) : Option Nat :=
  let ls := k.lines.map parseLine
  (ls.zipIdx.find? (fun e => sealBad s p k ls e.2 e.1)).map (·.2)

/-- Whether an entry uses an inactive lane. -/
def usesInactive (s : State) (p : PlaneId) (portMap : Nat) (d : Payload) : Bool :=
  (List.range 128).any (fun i => bit portMap i && (inCode d i ≠ 0 || outCode d i ≠ 0) && !laneActive s p i)

/-- The redirect of a pattern (R117): `some none` where none is needed, `some (some alt)` where one is found, `none` where the
key is refused with PORT. -/
def redirectOf (s : State) (p : PlaneId) (portMap : Nat) (entry : Nat → Option Payload) (alts : List (Nat × Nat)) (n : Nat) : Option (Option Nat) :=
  if usesInactive s p portMap ((entry n).getD 0) then
    match alts.find? (fun a => a.1 = n && !usesInactive s p portMap ((entry a.2).getD 0)) with
    | some a => some (some a.2)
    | none => none
  else some none

/-- The stream checks ZERO, RANGE and BOUNDS of the valid streams. -/
def validStreams (k : KeyImage) : List StreamDef := (k.streams.zipIdx.filter (fun e => bit k.valid e.2)).map (·.1)

/-- The first failed load check: RCODE and KSQ_Bb_POS (Table 4.9). -/
def loadFail (s : State) (p : PlaneId) (b : Nat) (addr len : Nat) : Option (Nat × Nat) :=
  let raw := memRead s p addr len
  let k := parseKey raw
  let vs := validStreams k
  if poisonedAt s p addr len then some (0x14, 0)
  else if !formatOk raw then some (0x01, 0)
  else if sha512 (digestBytes k) ≠ sliceB raw 0x60 64 then some (0x0E, 0)
  else if !signatureOk s k then some (0x0F, 0)
  else if bits k.flags 5 4 ≠ p.val then some (0x02, 0)
  else if bits k.flags 3 2 ≠ s.get (pu p .PLN) Fld.PLN_STATE_ACLK_NOW then some (0x03, 0)
  else if le raw 0x28 4 ≠ partSig s p then some (0x05, 0)
  else if !unitMapOk s p k.sliceMap k.memMap k.bankMap k.valid k.streams then some (0x04, 0)
  else if k.lineCnt = 0 ∨ k.patCnt = 0 ∨ vs.any (fun x => x.len = 0 || x.stageLen = 0) then some (0x06, 0)
  else if 4095 < k.patCnt ∨ vs.any (fun x => x.base % 256 ≠ 0 || x.len % 256 ≠ 0 || x.stage % 256 ≠ 0 || x.stageLen % 256 ≠ 0) then some (0x07, 0)
  else if partKeyb (partNow s p) * 65536 < k.lineCnt ∨
      vs.any (fun x => !(extentOk s p x.base x.len && decide (x.base < baseS)) || !inPart s p .open_ x.stage x.stageLen) then some (0x08, 0)
  else match patternFail k with
    | some i => some (0x09, i)
    | none =>
      if k.pats.any (fun e => (mget (s.pl p).xpt e.1).any (fun x => x.owner ≠ b)) then some (0x0A, 0)
      else match lineFail k with
        | some i => some (0x0B, i)
        | none => match sealFail s p k with
          | some i => some (0x0C, i)
          | none => if k.pats.all (fun e => (redirectOf s p k.portMap k.entry k.alts e.1).isSome) then none else some (0x0D, 0)

/-- Store bytes of a bank's lines in its partition. -/
def storeLines (p : PlaneId) (b : Nat) (k : KeyImage) (s : State) : State := memWrite p (lineAddr s p b 0) k.lines.flatten s

/-- A load that passes fills the bank: its lines, tables, patterns with their redirects, and registers (R114). -/
def fillBank (p : PlaneId) (b : Nat) (k : KeyImage) (s : State) : State :=
  let u := pu p .KSQ
  let pats : List (Nat × Pattern) := k.pats.map (fun e =>
    (e.1, { owner := b, data := e.2, alt := (redirectOf s p k.portMap k.entry k.alts e.1).getD none }))
  let s := storeLines p b k s
  let s := s.modPl p (fun x => { x with xpt := pats.foldl (fun m e => mput m e.1 e.2) x.xpt })
  let id := le k.raw 8 8
  let s := (s.put64 u (Fld.KSQ_B_ID_LO.at b) (Fld.KSQ_B_ID_HI.at b) id).put u (Fld.KSQ_B_LINES.at b) k.lineCnt
  let s := s.put u (Fld.KSQ_B_GAP.at b) (le k.raw 0x24 4)
  let kb : KeyBank := { keyId := id, prevId := le k.raw 0x10 8, flags := k.flags, lineCnt := k.lineCnt, partSig := le k.raw 0x28 4
                        sliceMap := k.sliceMap, memMap := k.memMap, bankMap := k.bankMap, portMap := k.portMap, streamValid := k.valid
                        gap := le k.raw 0x24 4, streams := k.streams, alts := k.alts, pats := k.pats.map (·.1) }
  setBankSt p b 2 (modBank p b (fun _ => kb) s)

/-- KEY_LOAD_DONE: loading ends, and the bank becomes LOADED, or REJECTED with the first failed check (R114, R116). (DEDUCED, log 12) -/
def execKeyLoadDone (p : PlaneId) (s : State) : Out :=
  match bankIn s p 1 with
  | none => .next s
  | some b =>
    let kb := bankOfKey s p b
    let s := countReads p kb.srcAddr kb.srcLen (memTouchAll p kb.srcAddr kb.srcLen s)
    match loadFail s p b kb.srcAddr kb.srcLen with
    | some (code, pos) =>
      .next ((setRcode p b code (setBankSt p b 6 (freePatterns p b s))).put (pu p .KSQ) (Fld.KSQ_B_POS_LINE.at b) pos)
    | none => .next (fillBank p b (parseKey (memRead s p kb.srcAddr kb.srcLen)) s)

/-! ### Arming -/

/-- The start FT of ARM and RESUME, and the latch entry, as the registers hold them. -/
def armStart (s : State) (p : PlaneId) : Nat := s.get64 (pu p .KSQ) Fld.KSQ_START_LO Fld.KSQ_START_HI
def armEntry (s : State) (p : PlaneId) : Nat := s.get (pu p .KSQ) Fld.KSQ_ARM_CFG_LATCH_ENT
def armVia (s : State) (p : PlaneId) : Bool := s.on (pu p .KSQ) Fld.KSQ_ARM_CFG_VIA_LATCH

/-- The STATE conditions that ARM and RESUME share (R118, R127). -/
def armState (s : State) (p : PlaneId) : Bool :=
  let e := armEntry s p
  let st := s.get (pu p .LAT) (Fld.ENT_STAT_STATE.at e)
  !s.on (pu p .PLN) Fld.PLN_STATE_FT_LOCKED || s.plnState p = 5 || s.plnState p = 6 || (bankIn s p 3).isSome ||
    (armVia s p && (!s.on (pu p .LAT) (Fld.ENT_CTRL_ACT_KEY.at e) || 4 ≤ st))

/-- The checks of a KSQ write (R114, R118, R127, R128). -/
def ksqVerdict (s : State) (p : PlaneId) (off : Nat) (v : Word) : Verdict :=
  let u := pu p .KSQ
  if off ≠ 0x040 then {}
  else
    let sb := standbyBank s p
    let st := bankSt s p sb
    let len := s.get u Fld.KSQ_SRC_LEN
    let run := (bankIn s p 4).isSome
    match v.toNat % 8 with
    | 1 => { state := !(st = 0 || st = 6 || st = 7), zero := len = 0, bounds := !extentOk s p (s.get64 u Fld.KSQ_SRC_LO Fld.KSQ_SRC_HI) len }
    | 2 => { state := st ≠ 2 || armState s p, range := !armVia s p && armStart s p % 20 ≠ 0 }
    | 3 => { state := bankSt s p (activeBank s p) ≠ 5 || armState s p, range := !armVia s p && armStart s p % 20 ≠ 0 }
    | 4 => { state := !run || decide (s.get64 u Fld.KSQ_PAUSE_LO Fld.KSQ_PAUSE_HI < s.ft p) }
    | 5 => { state := !run }
    | 6 => { state := st = 1 || st = 3 }
    | _ => { range := true }

/-- The checks that ARM and RESUME repeat (R119): the first that fails, and the redirects applied afresh. -/
def armFail (s : State) (p : PlaneId) (b : Nat) (prev : Bool) : Option Nat :=
  let k := bankOfKey s p b
  let entry (n : Nat) : Option Payload := if n = 0 then some 0 else (mget (s.pl p).xpt n).map (·.data)
  if bits k.flags 3 2 ≠ s.get (pu p .PLN) Fld.PLN_STATE_ACLK_NOW then some 0x03
  else if k.partSig ≠ partSig s p then some 0x05
  else if !unitMapOk s p k.sliceMap k.memMap k.bankMap k.streamValid k.streams then some 0x04
  else if !k.pats.all (fun n => (redirectOf s p k.portMap entry k.alts n).isSome) then some 0x0D
  else if prev ∧ k.prevId ≠ 0 ∧ k.prevId ≠ (bankOfKey s p (activeBank s p)).keyId then some 0x11
  else none

/-- Hold the redirects of R117 in XPT. -/
def applyRedirects (p : PlaneId) (b : Nat) (s : State) : State :=
  let k := bankOfKey s p b
  let entry (n : Nat) : Option Payload := if n = 0 then some 0 else (mget (s.pl p).xpt n).map (·.data)
  let rd (n : Nat) : Option Nat := (redirectOf s p k.portMap entry k.alts n).getD none
  s.modPl p (fun x => { x with xpt := x.xpt.map (fun e => if e.2.owner = b then (e.1, { e.2 with alt := rd e.1 }) else e) })

/-- An ARMED key whose predecessor has already ended opens the swap window (R125, R126). (DEDUCED, log 56) -/
def openWindow (p : PlaneId) (b : Nat) (s : State) : State :=
  let a := 1 - b
  let u := pu p .KSQ
  if bankSt s p a = 7 ∨ bankSt s p a = 5 then
    let s := s.put u Fld.KSQ_STAT_SWAP_WIN 1
    if bit (bankOfKey s p b).flags 1 then
      s.modPl p (fun x => { x with swapLow := some (s.get64 u (Fld.KSQ_B_END_LO_E_LO.at a) (Fld.KSQ_B_END_HI_E_HI.at a), (bankOfKey s p b).start) })
    else s
  else s

/-- ARM or RESUME of a bank (R118 to R120, R127). -/
def armBank (p : PlaneId) (b : Nat) (resume : Bool) (s : State) : State :=
  let back := if resume then 5 else 2
  match armFail s p b (!resume) with
  | some code => setRcode p b code (setBankSt p b back s)
  | none =>
    let e := armEntry s p
    let struck := s.get (pu p .LAT) (Fld.ENT_STAT_STATE.at e) = 3
    let start : Option Nat := if !armVia s p then some (armStart s p)
      else if struck then some (s.get64 (pu p .LAT) (Fld.ENT_STRIKE_LO.at e) (Fld.ENT_STRIKE_HI.at e)) else none
    let lanes := (List.range 128).filter (laneActive s p)
    let s := modBank p b (fun k => { k with lanesArm := lanes, resumed := resume, viaLatch := if armVia s p then some e else none, start := none })
      (applyRedirects p b s)
    let s := setBankSt p b 3 s
    match start with
    | some t => if t < s.ft p + 4096 then disarm p b 0x10 s
      else syncPln p (setKeyStart p b t (if resume then s else openWindow p b s))
    | none => syncPln p (if resume then s else openWindow p b s)

/-- The effects of a KSQ write (R114, R118, R127, R128). After a new LOAD, a rejected one or a DISCARD the bank's other registers keep what
they read. (DESIGN CHOICE, log 124) -/
def ksqEffect (p : PlaneId) (off : Nat) (v : Word) (s : State) : State :=
  let u := pu p .KSQ
  if off ≠ 0x040 then s
  else
    let sb := standbyBank s p
    match v.toNat % 8 with
    | 1 =>
      let s := setRcode p sb 0 (setBankSt p sb 1 (freePatterns p sb s))
      modBank p sb (fun _ => { srcAddr := s.get64 u Fld.KSQ_SRC_LO Fld.KSQ_SRC_HI, srcLen := s.get u Fld.KSQ_SRC_LEN })
        (s.put u (Fld.KSQ_B_POS_LINE.at sb) 0)
    | 2 => armBank p sb false s
    | 3 => armBank p (activeBank s p) true s
    | 4 => match bankIn s p 4 with
      | some b => modBank p b (fun k => { k with pauseAt := some (s.get64 u Fld.KSQ_PAUSE_LO Fld.KSQ_PAUSE_HI) }) s
      | none => s
    | 5 => endRunningKey p .stopped s
    | 6 => setBankSt p sb 0 (modBank p sb (fun _ => {}) (freePatterns p sb s))
    | _ => s

/-! ### The pattern table's registers (R130) -/

/-- The XPT registers that show the pattern table. -/
def xptRead (s : State) (p : PlaneId) (off : Nat) : Option Word :=
  let n := s.get (pu p .XPT) Fld.XPT_RD_IDX_PAT
  let e := if n = 0 then none else mget (s.pl p).xpt n
  if off = 0x044 then
    some (BitVec.ofNat 32 (if n = 0 then 3 else match e with
      | none => 0
      | some x => 1 + x.owner + (match x.alt with
        | some a => 4 + 16 * a
        | none => 0)))
  else if off = 0x048 then
    let cnt (b : Nat) : Nat := ((s.pl p).xpt.filter (fun e => e.2.owner = b)).length
    some (BitVec.ofNat 32 (cnt 0 + 65536 * cnt 1))
  else if 0x100 ≤ off ∧ off < 0x200 then
    some ((e.elim 0 (·.data)).extractLsb' (8 * (off - 0x100)) 32)
  else none

end Sys2Proof.Machine
end

