-- ==== Sys2Proof/Machine/Msix.lean ====
section
/-! DEFINITION. Sys2Proof/Machine/Msix.lean: the delivery of interrupt requests as MSI-X messages (R369, R378). -/

namespace Sys2Proof.Machine

/-- A port may send messages now: MSI-X is enabled and Bus Master Enable is 1 (R369). -/
def msixOpen (s : State) (h : HubId) : Bool := (s.hub h).pci.msixEn && s.on (hu h .PCI) Fld.PCI_STAT_BME

/-- A port sends a message on a vector, or holds it as a pending bit while the vector is masked or BME is 0 (R369). -/
def sendMsix (h : HubId) (vec : Nat) (s : State) : State :=
  let e := mgetD (s.hub h).pci.msix vec {}
  if msixOpen s h && !e.masked then s.emit (.msix h vec e.addr e.data)
  else if (s.hub h).pci.msixEn then
    s.modHub h (fun x => { x with pci := { x.pci with pba := if vec ∈ x.pci.pba then x.pci.pba else x.pci.pba ++ [vec] } })
  else s

/-- Pending bits whose vectors may now be sent are sent (PCI Express, R369). -/
def flushMsix (h : HubId) (s : State) : State :=
  let pend := (s.hub h).pci.pba
  let s := s.modHub h (fun x => { x with pci := { x.pci with pba := [] } })
  pend.foldl (fun s v => sendMsix h v s) s

/-- The routing entry of a source in a hub's PCI pages 1 to 4 (R378): VECTOR, when EN is 1. -/
def routeOf (s : State) (h : HubId) (src : Nat) : Option Nat :=
  let w := s.reg (hu h .PCI) (4096 * (1 + src / 512) + 0x800 + 4 * (src % 512))
  if w.getLsbD 8 then some (w.toNat % 256) else none

/-- The request of a source rises at one port (R378). -/
def requestAt (h : HubId) (src : Nat) (s : State) : State :=
  if s.powered (hu h .PCI) then match routeOf s h src with
    | some v => sendMsix h v s
    | none => s
  else s

/-- The request of a source rises: each port has its own routing table (R378). -/
def requestRises (src : Nat) (s : State) : State := requestAt .b src (requestAt .a src s)

end Sys2Proof.Machine
end

