-- ==== Sys2Proof/Machine/HostPort.lean ====
section
/-! DEFINITION. Sys2Proof/Machine/HostPort.lean: the PCI Express ports, the control lease, the ready and busy pins, and
host accesses to plane memory (R367 to R379). -/

namespace Sys2Proof.Machine

/-- PCI_LEASE.HOLDER: 0 NONE, 1 PORT_A, 2 PORT_B. -/
def holder (s : State) : Nat := s.get (hu .a .PCI) Fld.PCI_LEASE_HOLDER

/-- The holder code of a hub's port. -/
def portCode : HubId → Nat
  | .a => 1
  | .b => 2

/-- HOLDER changes, the same in both hubs, and interrupt bit 0 of both PCI pages with it (R373, R375). -/
def setHolder (v : Nat) (s : State) : State :=
  if holder s = v then s
  else
    let s := (s.put (hu .a .PCI) Fld.PCI_LEASE_HOLDER v).put (hu .b .PCI) Fld.PCI_LEASE_HOLDER v
    let mark (s : State) (h : HubId) : State := s.modHub h (fun x => { x with pci := { x.pci with holderChg := true } })
    { mark (mark s .a) .b with lease := { s.lease with low := false, newB := false } }

/-- The lease is set to expire TERM milliseconds from now (R373). -/
def setDeadline (h : HubId) (s : State) : State :=
  { s with lease := { s.lease with deadline := (s.hub h).beat + 1650000 * s.get (hu h .PCI) Fld.PCI_LEASE_TERM, low := false } }

/-- A port's lease ends (R375). -/
def endLease (h : HubId) (s : State) : State := if holder s = portCode h then setHolder 0 s else s

/-- The hub whose beat counter times the lease: the holder's. -/
def leaseHub (s : State) : HubId := if holder s = 2 then .b else .a

/-- The lease is past its deadline (R373, R88). -/
def leaseOver (s : State) : Bool := decide (holder s ≠ 0 ∧ s.lease.deadline < (s.hub (leaseHub s)).beat)

/-- At the start of the beat after the deadline HOLDER becomes NONE (R373). -/
def lapseLease (s : State) : State := if leaseOver s then setHolder 0 s else s

/-- LEASE_EXPIRE: the lease passes its deadline and HOLDER becomes NONE (R373). -/
def execLeaseExpire (s : State) : Out := .next (lapseLease s)

/-- The holder's remaining lease in beats. -/
def leaseLeft (s : State) : Nat := s.lease.deadline - (s.hub (leaseHub s)).beat

/-- The remaining lease is below a quarter of TERM, the condition of interrupt bit 1 (R390). -/
def leaseBelow (s : State) : Bool :=
  decide (holder s ≠ 0 ∧ 4 * leaseLeft s < 1650000 * s.get (hu (leaseHub s) .PCI) Fld.PCI_LEASE_TERM)

/-- LEASE_LOW: the remaining lease falls below a quarter of TERM, and interrupt bit 1 rises (R390). -/
def execLeaseLow (s : State) : Out := .next (if leaseBelow s then { s with lease := { s.lease with low := true } } else s)

/-- The hubs' peer connection is lost (R398): this hub has received nothing over it for 192 beats, and the other hub has power and is not
fenced. -/
def peerLost (s : State) (h : HubId) : Bool :=
  !s.on (hu h .HUB) Fld.HUB_PEER_PEER_OK && decide ((s.hub h).peerAt + 192 < (s.hub h).beat) &&
    s.powered (hu h.other .HUB) && !s.hubFenced h.other

/-- Port B took the lease in this beat, and a request of port A goes first (R375). -/
def aGoesFirst (s : State) (h : HubId) : Bool := h = .a && holder s = 2 && s.lease.newB

/-- The checks of a PCI page 0 write (R373, R376, Table 13.9). -/
def pciVerdict (s : State) (acc : Accessor) (h : HubId) (off : Nat) (v : Word) : Verdict :=
  let isHost := match acc with
    | .host _ => true
    | _ => false
  let isHubCore := match acc with
    | .hubCore _ => true
    | _ => false
  let code := match acc with
    | .host x => portCode x
    | _ => 0
  if off = 0x044 then
    -- READY is written only by the hub's management cores.
    { state := isHost }
  else if off = 0x048 then
    let n := b2n (v.getLsbD 0) + b2n (v.getLsbD 1) + b2n (v.getLsbD 2)
    let term := (v >>> 16).toNat
    let changes := term ≠ s.get (hu h .PCI) Fld.PCI_LEASE_TERM
    { state := (v.getLsbD 0 && ((holder s ≠ 0 && !(isHost && aGoesFirst s h)) || !isHost || peerLost s h)) || ((v.getLsbD 1 || v.getLsbD 2) && (code = 0 || holder s ≠ code)) ||
        (changes && !(isHubCore || (code ≠ 0 && holder s = code)))
      range := decide (1 < n)
      zero := term = 0 }
  else {}

/-- A routing entry that no source number of Table 13.4 names (R378). -/
def routeReserved (off : Nat) : Bool :=
  let src := 512 * (off / 4096 - 1) + (off % 4096 - 0x800) / 4
  0x1000 ≤ off && 0x800 ≤ off % 4096 && off % 4096 < 0x1000 && (unitBlk src).isNone && !(0x600 ≤ src && src < 0x700)

/-- Port B's accepted REQ of this beat becomes a rejected one (R375). -/
def turnAwayB (s : State) : State :=
  let u := hu .b .PCI
  reject u 0x048 .state (s.put u Fld.BLK_SEQ ((s.get u Fld.BLK_SEQ + (2 ^ Fld.BLK_SEQ.width - 1)) % 2 ^ Fld.BLK_SEQ.width))

/-- REQ grants the lease to a port (R373, R375). -/
def grantLease (x : HubId) (s : State) : State :=
  let s := if aGoesFirst s x then turnAwayB s else s
  let s := setDeadline x (setHolder (portCode x) s)
  { s with lease := { s.lease with newB := x = .b } }

/-- The effects of a PCI page 0 write: the lease commands (R373). -/
def pciEffect (acc : Accessor) (off : Nat) (v : Word) (s : State) : State :=
  if off = 0x048 then
    let s := match acc with
      | .host x =>
        if v.getLsbD 0 then grantLease x s
        else if v.getLsbD 1 then setDeadline x s
        else if v.getLsbD 2 then setHolder 0 s
        else s
      | _ => s
    { s with lease := { s.lease with low := s.lease.low && leaseBelow s } }
  else s

/-- The pins that a hub's port is busy for (Table 13.2), but for key swaps. -/
def portBusy (s : State) (h : HubId) : Bool :=
  (s.hub h).pci.perst || (s.hub h).pci.perstHold || s.hubFenced h || !s.powered (hu h .PCI) ||
    (match s.dead with
      | some d => decide ((d.at'.get h) + 8 ≤ (s.hub h).beat)
      | none => false)

/-- A plane's CTRL_PATH key swap holds the pins low from E + 8 until the later of S2 + 8 and E + 1,658 (R376, R126). -/
def swapBusy (s : State) (p : PlaneId) : Bool :=
  match (s.pl p).swapLow with
  | some (e, s2) => decide (e + 8 ≤ s.ft p) && (match s2 with
      | none => true
      | some b => decide (s.ft p < max (b + 8) (e + 1658)))
  | none => false

/-- The level of RDYBSY of a hub (R376): high only while READY is 1 and no busy condition holds. -/
def rdybsy (s : State) (h : HubId) : Bool :=
  s.on (hu h .PCI) Fld.PCI_CFG_READY && !portBusy s h && !(swapBusy s 0 || swapBusy s 1 || swapBusy s 2 || swapBusy s 3)

/-- What a port reset resets (R372): the PCI block, its MSI-X state and its link, and the lease it holds. Under a module
that runs, READY is written again by hub firmware (Table 13.2). -/
def portReset (h : HubId) (s : State) : State :=
  let hold := holder s
  let s := endLease h s
  let s := s.eraseRegs (hu h .PCI) []
  let s := s.put (hu h .PCI) Fld.PCI_LEASE_HOLDER (if hold = portCode h then 0 else hold)
  s.modHub h (fun x => { x with pci := { x.pci with msix := [], pba := [], msixEn := false, cfg := [], holderChg := hold = portCode h } })

/-- PERST: the filtered assertion of a port's PERST input (R372, R415). -/
def execPerst (h : HubId) (beats : Nat) (s : State) : Out :=
  if 1650 ≤ beats ∧ s.pwr.offUntil.isNone then
    .next ((portReset h s).modHub h (fun x => { x with pci := { x.pci with perst := true, perstHold := true } }))
  else .next s

/-- PERST_RELEASE: the filtered release of PERST (R372, R415). -/
def execPerstRelease (h : HubId) (beats : Nat) (s : State) : Out :=
  if 1650 ≤ beats ∧ s.pwr.offUntil.isNone then
    .next (s.modHub h (fun x => { x with pci := { x.pci with perst := false } })) else .next s

/-- FLR: a Function Level Reset of a port (R372). -/
def execFlr (h : HubId) (s : State) : Out := if s.powered (hu h .PCI) then .next (portReset h s) else .next s

/-- PCIE_LINK_DOWN: the port's link goes down and its lease ends (R375). -/
def execPcieLinkDown (h : HubId) (s : State) : Out :=
  let u := hu h .PCI
  .next (endLease h ((((s.put u Fld.PCI_STAT_LINK_UP 0).put u Fld.PCI_STAT_RATE 0).put u Fld.PCI_STAT_WIDTH 0).put u Fld.PCI_STAT_FLIT 0))

/-- PCIE_LINK_UP: the port trains to a rate (Table 13.9) and width (R367). FLIT mode runs at 64 GT/s. (DEDUCED, log 87) -/
def execPcieLinkUp (h : HubId) (rate : Fin 7) (width : Fin 9) (s : State) : Out :=
  let u := hu h .PCI
  if s.powered u ∧ ¬ (s.hub h).pci.perst ∧ rate.val ≠ 0 ∧ (width.val = 1 ∨ width.val = 2 ∨ width.val = 4 ∨ width.val = 8) then
    let s := s.modHub h (fun x => { x with pci := { x.pci with perstHold := false } })
    .next ((((s.put u Fld.PCI_STAT_LINK_UP 1).put u Fld.PCI_STAT_RATE rate.val).put u Fld.PCI_STAT_WIDTH width.val).put u
      Fld.PCI_STAT_FLIT (b2n (rate.val = 6)))
  else .next s

/-- A dword of the function's configuration space (R367, R368): its identifiers, BME, the three 64-bit memory BARs of Table 13.1 (256 MiB;
64 GiB, prefetchable; 1 MiB), the Subsystem IDs; every other dword is held as written. (DEDUCED, log 87) -/
def cfgRead (s : State) (h : HubId) (reg : Nat) : Word :=
  let w := mgetD (s.hub h).pci.cfg reg 0
  match reg with
  | 0 => BitVec.ofNat 32 (s.ident.vendorId % 2 ^ 16 + 2 ^ 16 * 0x7104)
  | 1 => fieldSet w { off := 0, hi := 2, lo := 2, acc := .rw } (s.get (hu h .PCI) Fld.PCI_STAT_BME)
  | 2 => BitVec.ofNat 32 (2 ^ 8 * 0x120000)
  | 4 => (w &&& 0xF0000000#32) ||| 0x4#32
  | 6 => 0xC#32
  | 7 => w &&& 0xFFFFFFF0#32
  | 8 => (w &&& 0xFFF00000#32) ||| 0x4#32
  | 11 => BitVec.ofNat 32 (s.ident.subVendor % 2 ^ 16 + 2 ^ 16 * (s.ident.subSystem % 2 ^ 16))
  | _ => w

/-- Bus Master Enable changes; set, it releases the messages held (R369). -/
def setBme (h : HubId) (on : Bool) (s : State) : State :=
  let s := s.put (hu h .PCI) Fld.PCI_STAT_BME (b2n on)
  if on then flushMsix h s else s

/-- CONFIGURATION_REQUEST: a configuration write reaches the function (R367, R372): the command register (BME), the
power state, the MSI-X control, the BARs, and the MSI-X table through BAR4. (DEDUCED, log 87) -/
def execConfigurationRequest (h : HubId) (w : CfgWrite) (s : State) : Out :=
  let u := hu h .PCI
  if s.powered u ∧ ¬ (s.hub h).pci.perst then
    let setPci (f : PciFn → PciFn) : State := s.modHub h (fun x => { x with pci := f x.pci })
    match w with
    | .busMaster on => .next (setBme h on s)
    | .powerState d3hot => .next (s.put u Fld.PCI_STAT_D3HOT (b2n d3hot))
    | .msixEnable on => .next (setPci (fun x => { x with msixEn := on }))
    | .msixEntry i addr data masked =>
      .next (flushMsix h (setPci (fun x => { x with msix := mput x.msix i.val { addr := addr, data := data, masked := masked } })))
    | .dword reg v =>
      let t := setPci (fun x => { x with cfg := mput x.cfg reg.val v })
      .next (if reg.val = 1 then setBme h (v.getLsbD 2) t else t)
  else .next s

/-- Split an access at 256-byte granule boundaries (R371); `fuel` bounds the number of parts. (DESIGN CHOICE, log 31) -/
def splitParts : Nat → Nat → List Byte → List AccessPart
  | 0, _, _ => []
  | fuel + 1, addr, d =>
    let n := 256 - addr % 256
    if d.length ≤ n then [{ addr := addr, len := d.length, data := d }]
    else { addr := addr, len := n, data := d.take n } :: splitParts fuel (addr + n) (d.drop n)

/-- Serve one part of an access: a read takes its bytes, and a poisoned granule is reported; a write that covers only part
of a poisoned granule is discarded, and a write of a whole granule clears its poison (R267, R371). -/
def servePart (p : PlaneId) (write : Bool) (x : AccessPart) (s : State) : AccessPart × State :=
  if write then
    let r := memStore p x.addr x.data s
    ({ x with served := true, poisoned := r.1 }, r.2)
  else
    let s := memTouchAll p x.addr x.len s
    ({ x with served := true, poisoned := poisonedAt s p x.addr x.len, data := memRead s p x.addr x.len }, countReads p x.addr x.len s)

/-- A queue pair enters the error state (R388). -/
def qpError (h : HubId) (q : Nat) (s : State) : State := s.put (hu h .SVC) (Fld.SVC_QP_ERR.at q) 1

/-- The kinds of response of the RDMA engine: 0 acknowledge, 1 read response, 2 NAK of a sequence error, 3 NAK Invalid
Request, 4 NAK Remote Access Error, 5 NAK Remote Operation Error. -/
def roceNak (h : HubId) (q kind psn : Nat) (s : State) : State := s.emit (.roce h q kind psn [])

/-- Packets of a message at a path MTU of 4,096 bytes. -/
def roceCount (n : Nat) : Nat := max 1 ((n + 4095) / 4096)

/-- The response packets of a READ up to the first poisoned granule (R388). `d` is what the granules hold. -/
def readPackets (h : HubId) (q : Nat) : Nat → Nat → List Byte → State → State
  | 0, _, _, s => s
  | fuel + 1, psn, d, s =>
    if d = [] then s
    else readPackets h q fuel ((psn + 1) % 2 ^ 24) (d.drop 4096) (s.emit (.roce h q 1 psn (d.take 4096)))

/-- Complete an RDMA access: a write is acknowledged; a read answers with its data up to the first poisoned granule, and then with a
NAK (R388). The tag holds the queue pair and the packet sequence number. (DESIGN CHOICE, log 96) -/
def finishRdma (h : HubId) (a : HostAccess) (s : State) : State :=
  let q := a.tag % 64
  let psn := a.tag / 64
  if a.write then s.emit (.roce h q 0 ((psn + roceCount ((a.parts.map (·.len)).sum) - 1) % 2 ^ 24) [])
  else
    let good := a.parts.takeWhile (fun x => !x.poisoned)
    let d := (good.map (·.data)).flatten
    let whole := good.length = a.parts.length
    let sent := if whole then d else d.take (d.length / 4096 * 4096)
    let s := readPackets h q (d.length / 4096 + 1) psn sent s
    if whole then s
    else (qpError h q (roceNak h q 5 ((psn + sent.length / 4096) % 2 ^ 24) s)).incSat (hu h .SVC) Fld.SVC_CNT_POISON

/-- Complete an access whose parts have all been served (R371, R388). The image that a Keyplate command reads (R444) is then there; one
that meets poison is no image. (DEDUCED, log 61) -/
def finishAccess (a : HostAccess) (s : State) : State :=
  match a.via with
  | .host h =>
    let bad := a.parts.any (·.poisoned)
    let s := if bad then s.incSat (hu h .PCI) Fld.PCI_CNT_B_POISON else s
    if a.write then s else s.emit (.completion h a.tag true bad ((a.parts.map (·.data)).flatten))
  | .hubCore h =>
    if a.rdma then finishRdma h a s
    else s.modHub h (fun x => { x with kpl := { x.kpl with
      image := some (if a.parts.any (·.poisoned) then [] else (a.parts.map (·.data)).flatten) } })
  | .planeCore p =>
    let bad := a.parts.any (·.poisoned)
    if a.write then s else s.emit (.mgcLoad p a.tag bad (if bad then [] else (a.parts.map (·.data)).flatten))
  | _ => s

/-- Serve up to `n` of the parts that a test selects, in order; each gives a sample of HOSTWIN_WAIT (Table 16.2). Answers the parts, what
is left of `n`, and the state. -/
def serveParts (p : PlaneId) (a : HostAccess) (now : State → AccessPart → Bool) : List AccessPart → Nat × State → List AccessPart × Nat × State
  | [], r => ([], r)
  | x :: l, r =>
    if r.1 = 0 ∨ x.served ∨ ¬ now r.2 x then
      let q := serveParts p a now l r
      (x :: q.1, q.2)
    else
      let y := servePart p a.write x ((targetOf r.2 p x.addr).elim r.2 (fun t => r.2.sample p 4 t (r.2.beats p - a.at')))
      let q := serveParts p a now l (r.1 - 1, y.2)
      (y.1 :: q.1, q.2)

/-- Whether two accesses come from one source: a host port, or a queue pair of a hub's RDMA engine (R275). -/
def sameSource (a b : HostAccess) : Bool := a.via = b.via && a.rdma = b.rdma && (!a.rdma || a.tag % 64 = b.tag % 64)

/-- Whether an access waits for an earlier one that waits (R275): writes of one source are applied in order, a read sees every earlier
write of its source, and the responses of a queue pair come in order. (DESIGN CHOICE, log 31) -/
def waitsFor (a b : HostAccess) : Bool := sameSource a b && (b.write || b.rdma)

/-- Serve a waiting access where no earlier one holds it back (R261, R275); one that is complete leaves the queue. -/
def serveAccess (p : PlaneId) (now : State → AccessPart → Bool) (acc : List HostAccess × Nat × State) (a : HostAccess) :
    List HostAccess × Nat × State :=
  if acc.1.any (waitsFor a) then (acc.1 ++ [a], acc.2)
  else
    let q := serveParts p a now a.parts acc.2
    let a' := { a with parts := q.1 }
    if a'.parts.all (·.served) then (acc.1, q.2.1, finishAccess a' q.2.2) else (acc.1 ++ [a'], q.2)

/-- Serve the waiting accesses of a plane, up to `n` of the parts that a test selects. Answers what is left of `n`. -/
def serveQueue (p : PlaneId) (n : Nat) (now : State → AccessPart → Bool) (s : State) : Nat × State :=
  let r := (s.pl p).hostQ.foldl (serveAccess p now) ([], n, s)
  (r.2.1, r.2.2.modPl p (fun x => { x with hostQ := r.1 }))

/-- Serve what waits for no host window: no key schedules its target (R262). -/
def serveOpen (p : PlaneId) (s : State) : State :=
  if (s.pl p).hostQ = [] then s
  else (serveQueue p (((s.pl p).hostQ.map (·.parts.length)).sum) (fun s x => !keyHolds s p x.addr) s).2

/-- An access arrives at the memory controllers of a plane (R261, R262, R275): it is served in the order of arrival, its parts on a target
that a running key schedules in that target's host windows. -/
def arriveAccess (p : PlaneId) (a : HostAccess) (s : State) : State := serveOpen p (s.modPl p (fun x => { x with hostQ := x.hostQ ++ [a] }))

/-- An access of a plane's management core to its plane's memory (R26, R261, R266, R271): outside its partitions an access fault; to a target
that a running key schedules in host windows. No row of the table commands one: what the cores' programs do is the environment's (log 81). -/
def mgcAccess (p : PlaneId) (write : Bool) (addr : Nat) (data : List Byte) (tag : Nat) (s : State) : State :=
  if ¬ s.powered (pu p .MGC) ∨ s.fenced (pu p .MGC) then s
  else if ¬ mgcReach s p write addr data.length then
    if write then s.emit (.slaveError p.val) else s.emit (.mgcLoad p tag true [])
  else arriveAccess p { via := .planeCore p, rdma := false, tag := tag, write := write, parts := splitParts (data.length + 1) addr data
                        at' := s.beats p } s

/-- BAR2 refuses an access (R371): the write is discarded, the read completes with Completer Abort; both are logged and
counted. -/
def bar2Refuse (h : HubId) (write : Bool) (tag addr : Nat) (s : State) : State :=
  let s := (s.emit (.aer h addr)).incSat (hu h .PCI) Fld.PCI_CNT_A_B2_REJ
  if write then s else s.emit (.completion h tag false false [])

/-- Whether a hub can carry accesses to a plane now: its link is open and both ends have power. (DEDUCED, log 23) -/
def hubCarries (s : State) (h : HubId) (p : PlaneId) : Bool :=
  s.powered (hu h .HUB) && !linkShut s h p && s.on (hu h .HUB) (Fld.HUB_LINK_CTL_EN.at p.val) &&
    s.domOn (4 + 7 * p.val)

/-- A request goes out on a hub link (R33, Table 14.11): the earliest one starts the link's timeout. (DEDUCED, log 121) -/
def linkRequest (h : HubId) (p : PlaneId) (s : State) : State :=
  (s.inc (hu h .HUB) (Fld.HUB_LINK_REQ.at p.val)).modHub h (fun x => { x with
    reqAt := if (mget x.reqAt p.val).isSome then x.reqAt else mput x.reqAt p.val x.beat })

/-- BAR2_ACCESS: a host access through a port's BAR2 window (R275, R371, R374). A write without the
lease is discarded and denied; an access outside what hub links may reach is refused; one to a target that a running key
schedules waits for a host window. (DEDUCED, log 23) -/
def execBar2Access (h : HubId) (offset : BitVec 36) (write : Bool) (data : List Byte) (tag : Nat) (s : State) : Out :=
  let u := hu h .PCI
  let p : PlaneId := ⟨s.get u Fld.PCI_WIN_WPLANE % 4, Nat.mod_lt _ (by decide)⟩
  let addr := s.get u Fld.PCI_WIN_WBASE * 2 ^ 30 + offset.toNat
  if ¬ s.on u Fld.PCI_STAT_LINK_UP ∨ s.on u Fld.PCI_STAT_D3HOT then .next s
  else if write ∧ holder s ≠ portCode h then .next ((s.emit (.aer h offset.toNat)).incSat u Fld.PCI_CNT_A_DENY)
  else if s.dead.isSome ∧ write then .next (s.emit (.aer h offset.toNat))
  else if s.dead.isSome then .next (s.emit (.completion h tag false false []))
  else
    let parts := splitParts (data.length + 1) addr data
    if ¬ hubCarries s h p then .next (bar2Refuse h write tag offset.toNat s)
    else
      -- Each part is checked separately; a write keeps its good parts, a read with a bad part is aborted whole.
      let bad := parts.filter (fun x => !(hubReach s p write x.addr x.len && !(write && guarded s p x.addr x.len)))
      let good := parts.filter (fun x => hubReach s p write x.addr x.len && !(write && guarded s p x.addr x.len))
      let s1 := bad.foldl (fun t x => (t.emit (.aer h x.addr)).incSat u Fld.PCI_CNT_A_B2_REJ)
        (linkRequest h p s)
      if bad ≠ [] ∧ (¬ write ∨ good = []) then .next (if write then s1 else s1.emit (.completion h tag false false []))
      else
        let a : HostAccess := { via := .host h, tag := tag, write := write, parts := good, at' := s.beats p }
        .next (arriveAccess p a s1)

end Sys2Proof.Machine
end

