-- ==== Sys2Proof/Machine/Service.lean ====
section
/-! DEFINITION. Sys2Proof/Machine/Service.lean: the service Ethernet port and its RDMA engine (R386 to R391). -/

namespace Sys2Proof.Machine

/-- SVC_FRAME_RECEIVE: a received frame is dispatched in the order of R387. IEEE 1588 messages of a hub whose REF_SRC is
PTP go to TRF (PTP_MESSAGE gives their effect), RoCE packets to the RDMA engine (RDMA_REQUEST gives theirs). (DESIGN CHOICE, log 96) -/
def execSvcFrameReceive (h : HubId) (f : SvcFrame) (s : State) : Out :=
  let u := hu h .SVC
  let toCores (d : List Byte) : State := s.modHub h (fun x => { x with rxFrames := x.rxFrames ++ [d] })
  let drop : State := s.incSat u Fld.SVC_CNT_DROP
  if ¬ (s.on u Fld.SVC_CFG_EN ∧ s.on u Fld.SVC_STAT_LINK_UP ∧ s.powered u) then .next s
  else match f with
    | .ptp d => if s.get (hu h .TRF) Fld.TRF_CFG_REF_SRC = 2 then .next s else .next (toCores d)
    | .roce ip d =>
      if s.on u Fld.SVC_CFG_RDMA_EN ∧ ip.toNat = s.get u Fld.SVC_RDMA_IP then .next s
      else if d.length ≤ 9216 then .next (toCores d) else .next drop
    | .pfc q => .next (s.modHub h (fun x => { x with pause := q }))
    | .other dst d =>
      if d.length ≤ 9216 ∧ (dst.toNat = s.get64 u Fld.SVC_MAC_LO Fld.SVC_MAC_HI ∨ dst.getLsbD 40) then .next (toCores d)
      else .next drop

/-- A region entry's extent and permissions (Table 13.8). -/
structure Region where
  base : Nat
  len : Nat
  plane : PlaneId
  tag : Nat
  rd : Bool
  wr : Bool
  en : Bool
  deriving DecidableEq, Repr

/-- Region `r` of a hub. -/
def regionOf (s : State) (h : HubId) (r : Nat) : Region :=
  let u := hu h .SVC
  { base := s.get u (Fld.SVC_RG_BASE_LO.at r) + 2 ^ 32 * s.get u (Fld.SVC_RG_BASE_HI.at r)
    len := s.get u (Fld.SVC_RG_LEN_LO.at r) + 2 ^ 32 * s.get u (Fld.SVC_RG_LEN_HI.at r)
    plane := ⟨s.get u (Fld.SVC_RG_PLANE.at r) % 4, Nat.mod_lt _ (by decide)⟩
    tag := s.get u (Fld.SVC_RG_TAG.at r)
    rd := s.on u (Fld.SVC_RG_RD.at r)
    wr := s.on u (Fld.SVC_RG_WR.at r)
    en := s.on u (Fld.SVC_RG_EN.at r) }

/-- Bytes of received writes that wait in a port's receive buffer (R389). -/
def rxWaiting (s : State) (h : HubId) : Nat :=
  ((List.finRange 4).map (fun p => ((((s.pl p).hostQ.filter (fun a => a.rdma && a.write && a.via = .hubCore h)).flatMap (·.parts)).filter
    (fun x => !x.served)).map (·.len))).flatten.sum

/-- RDMA_REQUEST: a RoCE v2 request reaches a queue pair of the RDMA engine (R388). A request to a target that a running
key schedules waits for host windows as its parts (R261, R275). A write that finds the port's 2 MiB receive buffer full is lost (R389). -/
def execRdmaRequest (h : HubId) (q : Fin 64) (rip : Word) (psn : BitVec 24) (rkey : Word) (addr : BitVec 48) (op : RdmaOp)
    (s : State) : Out :=
  let u := hu h .SVC
  if ¬ (s.on u Fld.SVC_CFG_EN ∧ s.on u Fld.SVC_CFG_RDMA_EN ∧ s.on u Fld.SVC_STAT_LINK_UP ∧ s.powered u ∧
      s.on u (Fld.SVC_QP_EN.at q.val) ∧ s.get u (Fld.SVC_QP_RIP.at q.val) = rip.toNat) ∨ s.on u (Fld.SVC_QP_ERR.at q.val) then .next s
  else if psn.toNat ≠ s.get u (Fld.SVC_QP_EPSN.at q.val) then
    .next (roceNak h q.val 2 (s.get u (Fld.SVC_QP_EPSN.at q.val)) s)
  else
    let n := match op with
      | .write d => d.length
      | .read n => n
      | .other => 0
    match op with
    | .other => .next (roceNak h q.val 3 psn.toNat s)
    | _ =>
      let r := regionOf s h (rkey.toNat % 64)
      let isWrite : Bool := match op with
        | .write _ => true
        | _ => false
      if isWrite && decide (0 < n ∧ 2 ^ 21 < rxWaiting s h + n) then .next (s.incSat u Fld.SVC_CNT_DROP)
      else
      let ok := r.en && r.tag = rkey.toNat / 256 && (if isWrite then r.wr else r.rd) && decide (r.base ≤ addr.toNat) &&
        decide (addr.toNat + n ≤ r.base + r.len) && hubCarries s h r.plane && (n = 0 || hubReach s r.plane isWrite addr.toNat n) && !(isWrite && guarded s r.plane addr.toNat n)
      if ¬ ok then .next (qpError h q.val (roceNak h q.val 4 psn.toNat s))
      else
        let s := s.put u (Fld.SVC_QP_EPSN.at q.val) ((psn.toNat + roceCount n) % 2 ^ 24)
        let s := linkRequest h r.plane s
        let d : List Byte := match op with
          | .write d => d
          | _ => List.replicate n 0
        let parts := splitParts (n / 256 + 2) addr.toNat d
        .next (arriveAccess r.plane
          { via := .hubCore h, rdma := true, tag := q.val + 64 * psn.toNat, write := isWrite, parts := parts, at' := s.beats r.plane } s)

/-- SERVICE_LINK_CHANGE: the service port's link comes up at 400 Gb/s while the port is enabled, or goes down (R391). -/
def execServiceLinkChange (h : HubId) (up : Bool) (s : State) : Out :=
  let u := hu h .SVC
  if ¬ up then .next (s.put u Fld.SVC_STAT_LINK_UP 0)
  else if s.powered u ∧ s.on u Fld.SVC_CFG_EN ∧ s.dead.isNone then .next (s.put u Fld.SVC_STAT_LINK_UP 1)
  else .next s

/-- The checks of SVC writes (R388, R391): entries are closed to hosts; a region is checked when its EN is written 1. -/
def svcVerdict (s : State) (acc : Accessor) (h : HubId) (off : Nat) (v : Word) : Verdict :=
  let isHost := match acc with
    | .host _ => true
    | _ => false
  let isCore := match acc with
    | .hubCore x => x = h
    | _ => false
  if off < 0x1000 then {}
  else if 0x2000 ≤ off ∧ (off - 0x2800) % 32 = 0x14 ∧ v.getLsbD 2 then
    let r : Region := { regionOf s h ((off - 0x2800) / 32) with rd := v.getLsbD 0, wr := v.getLsbD 1 }
    { state := isHost || !isCore
      range := decide (r.base % 4096 ≠ 0 ∨ r.len % 4096 ≠ 0)
      zero := r.len = 0
      bounds := !(extentOk s r.plane r.base r.len && hubReach s r.plane r.wr r.base r.len) }
  else { state := isHost || !isCore }

/-- The effects of SVC writes: a queue pair leaves the error state when EN is written 0 (Table 13.8); a disabled port's
link goes down. -/
def svcEffect (h : HubId) (off : Nat) (v : Word) (s : State) : State :=
  if 0x1800 ≤ off ∧ off < 0x1C00 ∧ (off - 0x1800) % 16 = 0 ∧ !v.getLsbD 24 then
    s.put (hu h .SVC) (Fld.SVC_QP_ERR.at ((off - 0x1800) / 16)) 0
  else if off = 0x040 ∧ !v.getLsbD 0 then s.put (hu h .SVC) Fld.SVC_STAT_LINK_UP 0
  else s

end Sys2Proof.Machine
end

