-- ==== Sys2Proof/Machine/Keyway.lean ====
section
/-! DEFINITION. Sys2Proof/Machine/Keyway.lean: a running key (R96 to R113, R121 to R128, R256 to R261): its start, its slots, its
memory operations and host windows, and its end. -/

namespace Sys2Proof.Machine

/-! ### Lines -/

/-- Follow LOOP lines from a line to the RUN line reached, the END line, or a line whose read fails (R102); `fuel` bounds them. -/
def reach (s : State) (p : PlaneId) (b : Nat) : Nat → LineAhead → LineAhead
  | 0, r => r
  | fuel + 1, r =>
    if lineBad s p b r.line then { r with bad := true }
    else
      let l := readLine s p b r.line
      if l.kind = 2 then { r with isEnd := true }
      else if l.kind = 1 then
        let left := if r.loopAt = some r.line then r.loopLeft else l.rep - 1
        if 0 < left then reach s p b fuel { r with line := l.word1, loopAt := some r.line, loopLeft := left - 1 }
        else reach s p b fuel { r with line := r.line + 1, loopAt := some r.line, loopLeft := 0 }
      else { r with left := l.rep, data := memRead s p (lineAddr s p b r.line) 64 }

/-- The slot at which a bank stands, read now: the rest of its line, or the line it comes to. -/
def readHere (s : State) (p : PlaneId) (b : Nat) : LineAhead :=
  let k := bankOfKey s p b
  let r : LineAhead := { line := k.line, loopAt := k.loopAt, loopLeft := k.loopLeft }
  if 0 < k.repLeft then { r with left := k.repLeft, first := false, data := memRead s p (lineAddr s p b k.line) 64 } else reach s p b 4 r

/-- The next slot of a running bank: as it was read two slots before it (R97). -/
def reached (s : State) (p : PlaneId) (b : Nat) : LineAhead := (bankOfKey s p b).ahead.headD (readHere s p b)

/-- Read the line at which a bank stands, and the line that it leads to: each word that is read is checked (R263), and an injected fault
strikes the read (R417). -/
def readAt (p : PlaneId) (b : Nat) (read : State → LineAhead) (line : Nat) (s : State) : LineAhead × State :=
  let x := strike (pu p .KSQ) 1 (memTouchAll p (lineAddr s p b line) 64 s)
  let s := memTouchAll p (lineAddr x.2 p b (read x.2).line) 64 x.2
  ({ read s with bad := (read s).bad || x.1 }, s)

/-- The slot after one, read now where it begins a line. -/
def readNext (p : PlaneId) (b : Nat) (a : LineAhead) (s : State) : LineAhead × State :=
  if a.isEnd || a.bad then (a, s)
  else if 1 < a.left then ({ a with left := a.left - 1, first := false }, s)
  else readAt p b (fun s => reach s p b 4 { line := a.line + 1, loopAt := a.loopAt, loopLeft := a.loopLeft }) (a.line + 1) s

/-- The slot of this beat is taken, and the slot two slots later is read (R97). (DESIGN CHOICE, log 113) -/
def advance (p : PlaneId) (b : Nat) (s : State) : State :=
  let x := match (bankOfKey s p b).ahead.drop 1 with
    | n :: _ => (n, s)
    | [] => readNext p b (reached s p b) s
  let y := readNext p b x.1 x.2
  modBank p b (fun k => { k with ahead := [x.1, y.1] }) y.2

/-- The first two slots of an armed key are read two slots before its start FT (R97). (DESIGN CHOICE, log 113) -/
def readAhead (p : PlaneId) (s : State) : State :=
  match bankIn s p 3 with
  | some b =>
    if (bankOfKey s p b).start = some (s.ft p + 40) then
      let s := if (bankOfKey s p b).resumed then s
        else modBank p b (fun k => { k with line := 0, repLeft := 0, loopAt := none, loopLeft := 0 }) s
      let x := readAt p b (fun s => readHere s p b) (bankOfKey s p b).line s
      let y := readNext p b x.1 x.2
      modBank p b (fun k => { k with ahead := [x.1, y.1] }) y.2
    else s
  | none => s

/-- The end code due at the start of the next slot of a running bank, the lowest of those that are due (R122). -/
def dueEnd (s : State) (p : PlaneId) (b : Nat) : Option KeyEnd :=
  let k := bankOfKey s p b
  let r := reached s p b
  let past (o : Option Nat) : Bool := o.any (fun t => decide (t < s.ft p))
  let code (c : Nat) : Bool := k.endSlot.any (fun e => e.1 = c && decide (e.2 ≤ s.ft p))
  if r.first ∧ r.isEnd then some .done
  else if r.first ∧ k.pauseAt.any (fun t => decide (t ≤ s.ft p)) then some .paused
  else if r.first ∧ past k.stop then some .stopped
  else if r.first ∧ past k.ftLost then some .ftLost
  else if r.first ∧ (r.bad ∨ k.corrupt) then some .corrupt
  else if code 6 then some .refreshMiss
  else if code 7 then some .order
  else none

/-- The running bank whose next slot begins in this beat. -/
def slotBank (s : State) (p : PlaneId) : Option Nat :=
  (bankIn s p 4).bind (fun b => if (bankOfKey s p b).nextSlot = s.ft p then some b else none)

/-- The running key ends in this beat where an end is due (R122). Answers the code. -/
def endRun (p : PlaneId) (s : State) : Option KeyEnd × State :=
  match slotBank s p with
  | none => (none, s)
  | some b => match dueEnd s p b with
    | none => (none, s)
    | some c =>
      let r := reached s p b
      -- Each cause that reports a fault still reports it (R122); `corrupt` marks a fault reported already.
      let s := if r.first ∧ r.bad ∧ ¬ (bankOfKey s p b).corrupt then detect (pu p .KSQ) 1 .u r.line 0 s else s
      let s := modBank p b (fun k => { k with line := r.line, loopAt := r.loopAt, loopLeft := r.loopLeft, repLeft := 0 }) s
      let u := pu p .KSQ
      let s := ((s.put u (Fld.KSQ_B_POS_LINE.at b) r.line).put u (Fld.KSQ_B_LOOP_LOOP_LEFT.at b) r.loopLeft).put u
        (Fld.KSQ_B_LOOP_REP_LEFT.at b) 0
      (some c, endKey p b c s)

/-! ### Start (R121, R125, R126) -/

/-- A key that is paused in the active bank when the standby key starts becomes DONE and is lost for a resume (R126, R184). -/
def dropPaused (p : PlaneId) (b : Nat) (s : State) : State :=
  if bankSt s p b = 5 then dropOrphans p ((abortKeyChunks p b (setBankSt p b 7 s)).modPl p (fun x => { x with streams := [] })) else s

/-- An outstanding transfer through the memory controllers that meets a region the key schedules (R206). -/
def xferStops (mm : Nat) (x : Xfer) : Bool :=
  let meets (a : Nat) : Bool := if a < baseF then bit mm 8 else decide (a < baseS) && mm % 64 ≠ 0
  (x.kind = 2 && meets x.src) || (x.kind = 3 && meets x.dst)

/-- Transfers stop at the key's start FT and complete with STATE (R206). How much of each has been moved by then the spec leaves
open: a free number of granules. (DESIGN CHOICE, log 57) -/
def stopXfers (p : PlaneId) (mm : Nat) (s : State) : State :=
  (s.pl p).cores.foldl (fun s e =>
    e.2.xfers.foldl (fun s x =>
      if xferStops mm x then
        let (v, s) := s.takeFree
        let n := 128 * (v.toNat % (x.len / 128 + 1))
        let s := memWrite p x.dst (memRead s p x.src n) s
        -- An XWAIT whose transfers stop meets its condition in the first cycle of the beat (R199).
        let cyc := cycleFrom (cyclesPerSlot s p) (s.ft p)
        modCore p e.1 (fun c =>
          let left := c.xfers.erase x
          let w := c.wait.map (fun w => if w.kind = 5 ∧ w.met.isNone ∧ left.length ≤ w.arg then { w with met := some (cyc, 0) } else w)
          { c with xfers := left, wait := w, csr := mput c.csr 0x7C0 5 }) s
      else s) s) s

/-- KEY_START: at the start of beat S an ARMED key becomes RUNNING, unless the active key still runs (R121, R125, R127). In a
plane that is FENCED or OFF at S it does not start. (DESIGN CHOICE, log 126) -/
def execKeyStart (p : PlaneId) (s : State) : Out :=
  match bankIn s p 3 with
  | none => .next s
  | some b =>
    let k := bankOfKey s p b
    if k.start ≠ some (s.ft p) ∨ (bankIn s p 4).isSome then .next s
    else if s.plnState p = 6 ∨ s.plnState p = 0 then .next (modBank p b (fun k => { k with ahead := [] }) (setBankSt p b (if k.resumed then 5 else 2) s))
    else
      let s := if k.resumed then s else dropPaused p (1 - b) s
      let s := (s.put (pu p .KSQ) Fld.KSQ_STAT_ACTIVE_BANK b).put (pu p .KSQ) Fld.KSQ_STAT_SWAP_WIN 0
      let s := modBank p b (fun k =>
        let k := { k with nextSlot := s.ft p, scrubs := [], windows := [], gapSeen := [], pauseAt := none, stop := none, ftLost := none
                          corrupt := false, endSlot := [], viaLatch := none }
        if k.resumed then { k with resumed := false }
        else { k with line := 0, repLeft := 0, loopAt := none, loopLeft := 0, ptrs := List.replicate 16 {} }) s
      let s := if k.resumed then s else s.modPl p (fun x => { x with streams := [] })
      .next (syncPln p (stopXfers p k.memMap (setBankSt p b 4 s)))

/-- KEY_SWAP_LATE: the active key has not reached its END at S2 (R126). -/
def execKeySwapLate (p : PlaneId) (s : State) : Out :=
  match bankIn s p 3, bankIn s p 4 with
  | some b, some a =>
    if (bankOfKey s p b).start = some (s.ft p) ∧ ¬ (slotBank s p = some a ∧ (dueEnd s p a).isSome) then .next (disarm p b 0x10 s)
    else .next s
  | _, _ => .next s

/-! ### Memory operations (R106, R107, R256 to R261) -/

/-- A stream's pointers. -/
def ptrOf (k : KeyBank) (i : Nat) : StreamPtr := k.ptrs.getD i {}

/-- Change a stream's pointers. -/
def setPtr (p : PlaneId) (b i : Nat) (f : StreamPtr → StreamPtr) (s : State) : State :=
  modBank p b (fun k => { k with ptrs := k.ptrs.zipIdx.map (fun e => if e.2 = i then f e.1 else e.1) }) s

/-- Advance an offset by one cell within a length. -/
def wrapAdd (o len : Nat) : Nat := if o + 256 < len then o + 256 else 0

/-- Bring a target's units to the current slot. -/
def Target.roll (t : Target) (slot : Nat) : Target :=
  if t.slot = slot then t
  else if t.slot + 1 = slot then { t with u2 := t.u1, u1 := t.u0, u0 := 0, slot := slot }
  else if t.slot + 2 = slot then { t with u2 := t.u0, u1 := 0, u0 := 0, slot := slot }
  else { t with u2 := 0, u1 := 0, u0 := 0, slot := slot }

/-- Units a target has left in a slot (Table 9.1). -/
def Target.left (t : Target) (isN : Bool) (slot : Nat) : Nat :=
  if t.blocked.any (fun b => slot ≤ b) then 0 else if isN then 58 - t.u0 else 10 - (t.u0 + t.u1 + t.u2)

/-- Take units of a target in the current slot. Answers whether the budget covers them; where it does not, the target reports
MEM_OVERRUN, once in the slot, and moves nothing more in it (R258). -/
def takeUnits (p : PlaneId) (t n : Nat) (s : State) : Bool × State :=
  let key := targetKey s p t
  let slot := s.ft p / 20
  let x := (tgt s p key).roll slot
  if x.surplus = some slot then (false, s)
  else if n ≤ x.left (t = 6) slot then (true, modTgt p key (fun _ => { x with u0 := x.u0 + n }) s)
  else (false, modTgt p key (fun _ => { x with surplus := some slot }) (report (tgtUnit p key) 3 .u slot n s))

/-- Mark a staging cell: invalid, poisoned, or good. -/
def markStage (p : PlaneId) (a : Nat) (bad poison : Bool) (s : State) : State :=
  s.modPl p (fun x => { x with
    stageBad := if bad then insertNat a x.stageBad else x.stageBad.erase a
    stagePoison := if poison then insertNat a x.stagePoison else x.stagePoison.erase a })

/-- Place a cell in the staging range of a stream at its fill pointer (R107). -/
def placeStage (p : PlaneId) (b i : Nat) (d : Option Payload) (poison : Bool) (s : State) : State :=
  let k := bankOfKey s p b
  let st := k.streams.getD i {}
  let a := st.stage + (ptrOf k i).fill
  let s := match d with
    | some v => markStage p a false poison (memWrite p a (payloadBytes v) s)
    | none => markStage p a true false s
  setPtr p b i (fun q => { q with fill := wrapAdd q.fill st.stageLen }) s

/-- The staging address that the next cell of a stream takes. -/
def stageFill (s : State) (p : PlaneId) (b i : Nat) : Nat :=
  ((bankOfKey s p b).streams.getD i {}).stage + (ptrOf (bankOfKey s p b) i).fill

/-- Take the cell at a stream's drain pointer: its address, whether it is good, and whether it is poisoned (R107, R258). -/
def drainStage (p : PlaneId) (b i : Nat) (s : State) : (Nat × Bool × Payload) × State :=
  let k := bankOfKey s p b
  let st := k.streams.getD i {}
  let a := st.stage + (ptrOf k i).drain
  let s := memTouchAll p a 256 s
  let ok := !(s.pl p).stageBad.contains a && !(s.pl p).stagePoison.contains a && !poisonedAt s p a 256
  ((a, ok, payloadOf (memRead s p a 256)), setPtr p b i (fun q => { q with drain := wrapAdd q.drain st.stageLen })
    (s.modPl p (fun x => { x with fab := { x.fab with stageMiss := x.fab.stageMiss.filter (fun e => e.2.2 ≠ a) } })))

/-- One cell of a READ (R107, R258, R266). -/
def readOne (p : PlaneId) (b i : Nat) (s : State) : State :=
  let k := bankOfKey s p b
  let st := k.streams.getD i {}
  let a := st.base + (ptrOf k i).mem
  let t := (targetOf s p a).getD 6
  let r := takeUnits p t 1 s
  let s := if r.1 then
    let s := countReads p a 256 (memTouch p a r.2)
    placeStage p b i (some (payloadOf (memRead s p a 256))) (poisonedAt s p a 256) s
  else placeStage p b i none false r.2
  setPtr p b i (fun q => { q with mem := wrapAdd q.mem st.len }) s

/-- One cell of a WRITE (R107, R258): a cell that is not good poisons its granule instead. -/
def writeOne (p : PlaneId) (b i : Nat) (s : State) : State :=
  let k := bankOfKey s p b
  let st := k.streams.getD i {}
  let a := st.base + (ptrOf k i).mem
  let t := (targetOf s p a).getD 6
  let r := takeUnits p t 1 s
  let d := drainStage p b i r.2
  let s := if r.1 then (if d.1.2.1 then memWrite p a (payloadBytes d.1.2.2) d.2 else poisonGranule p a d.2) else d.2
  setPtr p b i (fun q => { q with mem := wrapAdd q.mem st.len }) s

/-- Repeat an action. -/
def repeatN (n : Nat) (f : State → State) (s : State) : State :=
  match n with
  | 0 => s
  | m + 1 => repeatN m f (f s)

/-- A refresh round begins on a target: its slot and the next two carry no other unit (Table 9.1). -/
def refreshRound (p : PlaneId) (t : Nat) (s : State) : State :=
  modTgt p (targetKey s p t) (fun x => { x with lastRef := s.beats p, blocked := some (s.ft p / 20 + 2) }) s

/-- The targets a MEM_MAP names, one per mirrored pair. -/
def mapTargets (s : State) (p : PlaneId) (mm : Nat) : List Nat := (List.range 7).filter (fun t => mapNames mm t && targetKey s p t = t)

/-- The refresh deadline of a scheduled target (R259): 3,000 beats after the start of its last round, and at first after S. -/
def refreshDue (s : State) (p : PlaneId) (b t : Nat) : Nat :=
  max (s.ft p - sinceRef s p t) ((bankOfKey s p b).start.getD 0) + 3000

/-- The memory operations of the line that the slot of this beat runs. -/
def slotMops (s : State) (p : PlaneId) (b : Nat) : List Nat := (parseLine (reached s p b).data).mops

/-- Whether the line refreshes a target. -/
def refreshes (s : State) (p : PlaneId) (mops : List Nat) (t : Nat) : Bool :=
  mops.any (fun m => m % 16 = 4 && targetKey s p (bits m 7 4) = targetKey s p t)

/-- The controller refreshes at the deadline and the key ends with REFRESH_MISS (R112). -/
def forceRefresh (p : PlaneId) (t : Nat) (s : State) : State := detect (pu p .KSQ) 2 .u t 0 (refreshRound p t s)

/-- REFRESH_DEADLINE (R112): a target of the running key reaches its deadline, and the line of this beat's slot does not refresh
it. -/
def execRefreshDeadline (p : PlaneId) (t : Fin 7) (s : State) : Out :=
  match bankIn s p 4 with
  | none => .next s
  | some b =>
    let mine : Bool := slotBank s p = some b && (dueEnd s p b).isNone && refreshes s p (slotMops s p b) t.val
    if mapNames (bankOfKey s p b).memMap t.val ∧ refreshDue s p b t.val ≤ s.ft p ∧ ¬ mine then .next (forceRefresh p t.val s) else .next s

/-- A host window on a target: up to 3 waiting accesses on the F-tier, 16 on the N-tier (R261); then what waited for them alone. -/
def hostWindow (p : PlaneId) (t : Nat) (s : State) : State :=
  let n := if t = 6 then 16 else 3
  let mine (s : State) (x : AccessPart) : Bool := (targetOf s p x.addr).map (targetKey s p) = some (targetKey s p t)
  let r := serveQueue p n mine s
  serveOpen p (r.2.event p 0x11 t (n - r.1))

/-- One memory operation of a line in one slot (Table 4.6). FEED is handled with the slices. -/
def runMop (p : PlaneId) (b m : Nat) (s : State) : State :=
  let sel := bits m 7 4
  let n := bits m 15 8
  match bits m 3 0 with
  | 1 => repeatN n (readOne p b sel) s
  | 2 => repeatN n (writeOne p b sel) s
  | 4 => refreshRound p sel s
  | 5 =>
    let r := takeUnits p sel 2 s
    if r.1 then modBank p b (fun k => { k with scrubs := mput k.scrubs (targetKey s p sel) (mgetD k.scrubs (targetKey s p sel) 0 + 1) }) (scrubStep p sel r.2)
    else r.2
  | 6 =>
    let r := takeUnits p sel (if sel = 6 then 16 else 3) s
    if r.1 then modBank p b (fun k => { k with windows := mput k.windows (targetKey s p sel) (s.ft p), gapSeen := k.gapSeen.erase (targetKey s p sel) }) (hostWindow p sel r.2)
    else r.2
  | _ => s

/-- GAP of every scheduled target, before a window of this slot opens (R113). The first interval is counted from the key's start FT.
(DESIGN CHOICE, log 114) -/
def checkGaps (p : PlaneId) (b : Nat) (s : State) : State :=
  let k := bankOfKey s p b
  (mapTargets s p k.memMap).foldl (fun s t =>
    let last := mgetD (bankOfKey s p b).windows t (k.start.getD 0)
    if k.gap < s.ft p - last ∧ ¬ (bankOfKey s p b).gapSeen.contains t then
      modBank p b (fun k => { k with gapSeen := insertNat t k.gapSeen }) (detect (pu p .KSQ) 4 .c t 0 s)
    else s) s

/-! ### Lanes -/

/-- The cell presented on a lane in a slot: none where nothing came, `some none` for a damaged cell or placeholder. -/
def presented (s : State) (p : PlaneId) (lane slot : Nat) : Option (Option Cell) :=
  ((s.pl p).schedIn.find? (fun e => e.lane = lane && e.slot = slot)).map (·.cell)

/-- Count a scheduled cell that is discarded (R124, R290). -/
def sdrop (p : PlaneId) (lane : Nat) (s : State) : State := s.incSat (uFPT p lane) Fld.FPT_SDROP_CNT

/-- A lane carries scheduled cells of the running key: it is active, and was when the key was armed (R117, R124, R307). -/
def laneRuns (s : State) (p : PlaneId) (lane : Nat) : Bool :=
  laneActive s p lane && (bankIn s p 4).all (fun b => (bankOfKey s p b).lanesArm.contains lane)

/-- The good cell of a scheduled lane, if it is active and brings one; an injected parity fault makes it invalid (Table 14.2). -/
def takeLane (p : PlaneId) (lane slot : Nat) (s : State) : Option Cell × State :=
  match presented s p lane slot with
  | some (some c) =>
    if laneRuns s p lane then
      let hit := strike (pu p .XPT) 2 s
      if hit.1 then (none, detect (pu p .XPT) 2 .u lane slot hit.2) else (some c, hit.2)
    else (none, sdrop p lane s)
  | _ => (none, s)

/-- A scheduled cell leaves on a lane in this beat's slot; one routed to an inactive lane is discarded and counted (R124). -/
def sendLane (p : PlaneId) (lane : Nat) (c : Cell) (pend : Bool) (fwd : Nat) (s : State) : State :=
  if laneRuns s p lane then
    s.modPl p (fun x => { x with schedOut := x.schedOut ++ [{ lane := lane, slot := s.ft p / 20, cell := c, pend := pend, fwd := fwd }] })
  else sdrop p lane s

/-- What a slot's lanes bring, lane by lane (R105, R107, R109): contributions by position, cells held by FWD. -/
structure LaneWork where
  st : State
  /-- Position, lane and cell of each contribution, in lane order. -/
  contrib : List (Nat × Nat × Option Cell) := []
  held : List (Nat × Option Cell) := []
  deriving DecidableEq, Repr

/-- One lane's ingress, and its STAGE egress (R107). (DEDUCED, log 58) -/
def laneIn (p : PlaneId) (b : Nat) (d : Payload) (w : LaneWork) (lane : Nat) : LaneWork :=
  let slot := w.st.ft p / 20
  let c := inCode d lane
  let w :=
    if c = 0 then
      match presented w.st p lane slot with
      | some (some _) => { w with st := sdrop p lane w.st }
      | _ => w
    else
      let r := takeLane p lane slot w.st
      if c ≤ 0x11 then { w with st := r.2, contrib := w.contrib ++ [(c - 1, lane, r.1)] }
      else if c = 0x40 then { w with st := r.2, held := w.held ++ [(lane, r.1)] }
      else
        let a := stageFill r.2 p b (c - 0x20)
        let st := placeStage p b (c - 0x20) (r.1.map (·.data)) (r.1.any (·.poison)) r.2
        { w with st := st.modPl p (fun x => { x with fab := { x.fab with stageMiss :=
          (if r.1.isNone then [(lane, slot, a)] else []) ++ x.fab.stageMiss.filter (fun e => e.2.2 ≠ a) } }) }
  let e := outCode d lane
  if 0x20 ≤ e ∧ e < 0x30 then
    let r := drainStage p b (e - 0x20) w.st
    { w with st := sendLane p lane { sched := true, poison := !r.1.2.1, data := r.1.2.2 } false 0 r.2 }
  else w

/-- FWD egress: the cell held on the named ingress lane, or a placeholder for a damaged one (R109, R295). -/
def laneFwd (p : PlaneId) (d : Payload) (held : List (Nat × Option Cell)) (s : State) (lane : Nat) : State :=
  let e := outCode d lane
  if e < 0x80 then s
  else
    let i := e - 0x80
    match held.find? (fun h => h.1 = i) with
    | some (_, some c) => sendLane p lane c false 0 s
    | some (_, none) =>
      if (presented s p i (s.ft p / 20)).isSome then sendLane p lane { sched := true } true i s else s
    | none => s

/-- The oldest closed chunk of a position that the key closed and that this port has not begun (R105). (DEDUCED, log 26) -/
def nextResult (s : State) (p : PlaneId) (b pos q : Nat) : Option ResStream :=
  let l := (ctxsOf s p pos).flatMap (fun e => (e.2.chunks.filter (fun k => k.bank = some b && k.held && k.result ≠ [] &&
    !k.copies.any (fun y => y.dst = .port q))).map (fun k => (k.closeAt, k.num, e.1)))
  let first := l.find? (fun a => l.all (fun c => a.1 < c.1 || (a.1 = c.1 && a.2.1 ≤ c.2.1)))
  first.map (fun a => { pos := pos, port := q, ctx := a.2.2, chunk := a.2.1 })

/-- Begin a result stream: a copy to the port; an injected egress fault or an unreadable retained result strikes it (R178). -/
def beginStream (p : PlaneId) (r : ResStream) (s : State) : State :=
  let x := strike (pu p .XPT) 1 s
  let s := x.2.modPl p (fun z => { z with streams := z.streams.filter (fun t => !(t.pos = r.pos && t.port = r.port)) ++ [r] })
  let s := modChunk p r.pos r.ctx r.chunk (fun (k : Chunk) => ({ k with
    copies := k.copies ++ [{ dst := .port r.port, crcBad := x.1 }], expect := k.expect.erase r.port } : Chunk).settle) s
  (readResult p r.pos r.ctx r.chunk s).2

/-- Send the next cell of a result stream on a lane. -/
def sendResult (p : PlaneId) (r : ResStream) (lane : Nat) (s : State) : State :=
  match getCtx s p r.pos r.ctx with
  | none => s
  | some x => match x.chunk r.chunk with
    | none => s
    | some k =>
      let i := (k.copies.find? (fun y => y.dst = .port r.port)).elim 0 (·.sent)
      let cell : Cell := { sched := true, cls := 2, tag := resTag x k.num i 0, data := k.result.getD i 0 }
      sendLane p lane cell false 0 (modChunk p r.pos r.ctx r.chunk (·.modCopy (.port r.port) (fun y =>
        { y with sent := y.sent + 1 })) s)

/-- RESULT egress (R104, R105, R406): the next cell of the port's stream; a slice without a closed result ends the key with ORDER;
a position that nothing serves sends nothing. -/
def laneResult (p : PlaneId) (b pos lane : Nat) (s : State) : State :=
  let q := portOr s p lane
  if (serverOf s p pos).isNone then s
  else match streamOf s p pos q with
    | some r =>
      if 0 < streamLeft s p r then sendResult p r lane s
      else match nextResult s p b pos q with
        | some r' => sendResult p r' lane (beginStream p r' s)
        | none => endAtSlot p b 7 s
    | none => match nextResult s p b pos q with
      | some r' => sendResult p r' lane (beginStream p r' s)
      | none => endAtSlot p b 7 s

/-- SEAL egress (R109, R172): the seal of the chunk whose result stream ended on the port. -/
def laneSeal (p : PlaneId) (pos lane : Nat) (s : State) : State :=
  let q := portOr s p lane
  match streamOf s p pos q with
  | none => s
  | some r =>
    let short := 0 < streamLeft s p r
    let s := if short then modChunk p r.pos r.ctx r.chunk (·.modCopy (.port q) (fun y => { y with crcBad := true })) s else s
    let t := sealCopy p r.pos r.ctx r.chunk (.port q) s
    let s := t.2.modPl p (fun z => { z with streams := z.streams.filter (fun y => !(y.pos = pos && y.port = q)) })
    match t.1 with
    | some c => sendLane p lane c false 0 s
    | none => s

/-- RESULT and SEAL egress of a lane. -/
def laneOut (p : PlaneId) (b : Nat) (d : Payload) (s : State) (lane : Nat) : State :=
  let e := outCode d lane
  if 1 ≤ e ∧ e ≤ 0x11 then laneResult p b (e - 1) lane s
  else if 0x41 ≤ e ∧ e ≤ 0x51 then laneSeal p (e - 0x41) lane s
  else s

/-! ### Slices in a slot -/

/-- The clearing part of OPEN_CTX and the DISCARD of a line's first slot (R103). -/
def firstTops (p : PlaneId) (b : Nat) (tops : List Nat) (s : State) : State :=
  tops.zipIdx.foldl (fun s e =>
    if e.1 % 16 = 1 then openByKey p b e.2 (e.1 / 16) s
    else if e.1 % 16 = 4 then discardOldest p e.2 (e.1 / 16) s else s) s

/-- The closing part of CLOSE after a line's last slot: closing begins with the next slot (R103, R104). -/
def lastTops (p : PlaneId) (tops : List Nat) (s : State) : State :=
  tops.zipIdx.foldl (fun s e =>
    if e.1 % 16 = 3 then modCtx p e.2 (e.1 / 16) (fun x => match x.filling with
      | some k => x.modChunk k.num (fun k => { k with closeReq := true, closeAt := s.ft p + 20 })
      | none => x) s
    else s) s

/-- Cells that FEED operations bring to a position in a slot. -/
def feedCount (mops : List Nat) (pos : Nat) : Nat := ((mops.filter (fun m => m % 16 = 3 && bits m 20 16 = pos)).map (fun m => bits m 15 8)).sum

/-- Whether a position overruns in a slot (R153, R154): the cells that reach a bound context cost more than the slice has. -/
def overruns (s : State) (p : PlaneId) (tops mops : List Nat) (contrib : List (Nat × Nat × Option Cell)) (pos : Nat) : Bool :=
  match getCtx s p pos (tops.getD pos 0 / 16) with
  | none => false
  | some x =>
    let n := (contrib.filter (fun e => e.1 = pos && e.2.2.isSome)).length + feedCount mops pos
    decide (slotCycles s p < n * cellCost x.inFmt)

/-- The lane contributions of a slot enter their contexts, in lane order (R152). -/
def runContrib (p : PlaneId) (tops : List Nat) (dead : List Nat) (contrib : List (Nat × Nat × Option Cell)) (s : State) : State :=
  contrib.foldl (fun s e =>
    if dead.contains e.1 ∨ (serverOf s p e.1).isNone then s
    else laneCell p e.1 (tops.getD e.1 0 / 16) e.2.1 (s.ft p / 20) e.2.2 s) s

/-- One FEED operation in one slot (Table 4.6). -/
def runFeedMop (p : PlaneId) (b : Nat) (tops dead : List Nat) (m : Nat) (s : State) : State :=
  let pos := bits m 20 16
  repeatN (bits m 15 8) (fun s =>
    let r := drainStage p b (bits m 7 4) s
    if dead.contains pos ∨ (serverOf r.2 p pos).isNone then r.2
    else feedCell p pos (tops.getD pos 0 / 16) (bits m 7 4) (if r.1.2.1 then some r.1.2.2 else none) r.2) s

/-- The sync-object operations of a line, due in beat 19 of its last slot (R103, R108). -/
def lineSops (l : Line) : List (Nat × Nat × Nat) :=
  (l.sops.filter (fun w => w % 16 ≠ 0)).map (fun w => (w % 16, bits w 15 4, bits w 31 16))

/-- Lane-cycles that a position's contributions of a slot use (R153). -/
def laneCycles (s : State) (p : PlaneId) (tops mops : List Nat) (contrib : List (Nat × Nat × Option Cell)) (pos : Nat) : Nat :=
  match getCtx s p pos (tops.getD pos 0 / 16) with
  | none => 0
  | some x => ((contrib.filter (fun e => e.1 = pos && e.2.2.isSome)).length + feedCount mops pos) * cellCost x.inFmt

/-- The slot-accounting category of a lane's ingress (R454): 0 RETIRED, 1 WASTED, 2 FRONT, 4 LENT. -/
def tdIn (s : State) (p : PlaneId) (d : Payload) (lane : Nat) : Nat :=
  if inCode d lane = 0 then 4
  else match presented s p lane (s.ft p / 20) with
    | some (some _) => if laneRuns s p lane then 0 else 1
    | _ => 2

/-- The slot-accounting category of a lane's egress: 0 RETIRED, 3 BACK, 4 LENT; none for a result cell, which its seal decides. -/
def tdOut (s : State) (p : PlaneId) (d : Payload) (lane : Nat) : Option Nat :=
  let e := outCode d lane
  if e = 0 then some 4
  else match (s.pl p).schedOut.find? (fun o => o.lane = lane && o.slot = s.ft p / 20) with
    | none => some 3
    | some o => if 1 ≤ e ∧ e ≤ 0x11 then none else if o.pend ∨ (0x20 ≤ e ∧ e < 0x30 ∧ o.cell.poison) then some 3 else some 0

/-- Count the lane slots of a slot that fell in each category. -/
def tdSlot (p : PlaneId) (l : List Nat) (s : State) : State :=
  (List.range 5).foldl (fun s j => s.event p (0x100 + j) 0 (l.filter (· = j)).length) s

/-- One slot of a line (R98, R103): first-slot operations, lanes, slices, memory operations, egress, and what follows the last
slot. -/
def runSlot (p : PlaneId) (b : Nat) (l : Line) (first last : Bool) (s : State) : State :=
  let d := patEntry s p l.pat
  let s := s.modPl p (fun x => { x with fab := { x.fab with pat := some (x.ftm.ft / 20, d) } })
  let tdi := (List.range 128).map (tdIn s p d)
  let s := if first then firstTops p b l.tops s else s
  let w := (List.range 128).foldl (laneIn p b d) ({ st := s } : LaneWork)
  let hot : List Nat := (List.range 17).filter (fun n => overruns w.st p l.tops l.mops w.contrib n)
  let s := hot.foldl (fun s n => overrun p n [l.tops.getD n 0 / 16] s) w.st
  let s := (List.range 17).foldl (fun s n =>
    s.eventAt p (s.ft p + 19) 0x0A ((serverOf s p n).getD n) (laneCycles s p l.tops l.mops w.contrib n)) s
  let s := s.modPl p (fun x => { x with
    cyclesUsed := (x.ftm.ft / 20, (List.range 17).map (fun n => (n, laneCycles s p l.tops l.mops w.contrib n))) })
  let s := runContrib p l.tops hot w.contrib s
  let due := (mapTargets s p (bankOfKey s p b).memMap).filter (fun t => decide (refreshDue s p b t ≤ s.ft p) && !refreshes s p l.mops t)
  let s := checkGaps p b (due.foldl (fun s t => forceRefresh p t s) s)
  let s := (l.mops.filter (fun m => m % 16 = 4)).foldl (fun s m => runMop p b m s) s
  let s := (l.mops.filter (fun m => m % 16 ≠ 4)).foldl (fun s m => if m % 16 = 3 then runFeedMop p b l.tops hot m s else runMop p b m s) s
  let s := (List.range 128).foldl (laneFwd p d w.held) s
  let s := (List.range 128).foldl (laneOut p b d) s
  let s := tdSlot p (tdi ++ (List.range 128).filterMap (tdOut s p d)) s
  let s := if last then lastTops p l.tops s else s
  let s := if last ∧ lineSops l ≠ [] then s.modPl p (fun x => { x with sops := some (s.ft p + 19, lineSops l) }) else s
  s.modPl p (fun x => { x with schedIn := x.schedIn.filter (fun e => e.slot ≠ x.ftm.ft / 20) })

/-- KEY_SLOT: the slot of a running key that begins in this beat (R96, R98). It begins only where no end is due. REP_LEFT
counts the slot that begins. (DESIGN CHOICE, log 27) (DESIGN CHOICE, log 98) (DESIGN CHOICE, log 125) -/
def execKeySlot (p : PlaneId) (s : State) : Out :=
  match slotBank s p with
  | none => .next s
  | some b =>
    if (dueEnd s p b).isSome then .next s
    else
      let s := closesDue p s
      let r := reached s p b
      let l := parseLine r.data
      let first := r.first
      let left := r.left
      let u := pu p .KSQ
      let s := ((s.put u (Fld.KSQ_B_POS_LINE.at b) r.line).put u (Fld.KSQ_B_LOOP_LOOP_LEFT.at b) r.loopLeft).put u
        (Fld.KSQ_B_LOOP_REP_LEFT.at b) left
      let s := modBank p b (fun k => { k with
        line := if left = 1 then r.line + 1 else r.line, repLeft := left - 1, loopAt := r.loopAt, loopLeft := r.loopLeft
        nextSlot := k.nextSlot + 20 }) (advance p b s)
      let s := s.event p 0x02 0xFF 1
      let s := if first ∧ l.mark = s.get (pu p .PMU) Fld.PMU_MARK then s.event p 0x03 0xFF 1 else s
      .next (runSlot p b l first (left = 1) s)

end Sys2Proof.Machine
end

