-- ==== Sys2Proof/Machine/Links.lean ====
section
/-! DEFINITION. Sys2Proof/Machine/Links.lean: link units: what a port receives and sends in each slot, errors and replay, scheduled
cells, credits and the stream of control messages (R280 to R301). -/

namespace Sys2Proof.Machine

/-! ### The link control word (Table 10.1) -/

/-- The fields of a link control word. -/
structure Lcw where
  ccrc : Nat := 0
  seq : Nat := 0
  cvalid : Bool := false
  sched : Bool := false
  replay : Bool := false
  pend : Bool := false
  slot : Nat := 0
  ack : Option Nat := none
  nak : Option Nat := none
  cvc : Nat := 0
  ccum : Option Nat := none
  ctl : List Byte := []
  deriving DecidableEq, Repr

/-- The first 26 bytes of a link control word as a number. -/
def Lcw.word (w : Lcw) : Nat :=
  w.ccrc + 2 ^ 32 * w.seq + 2 ^ 44 * b2n w.cvalid + 2 ^ 45 * b2n w.sched + 2 ^ 46 * b2n w.replay + 2 ^ 47 * b2n w.pend +
    2 ^ 48 * (w.slot % 256) + 2 ^ 64 * (w.ack.getD 0) + 2 ^ 76 * b2n w.ack.isSome + 2 ^ 80 * (w.nak.getD 0) + 2 ^ 92 * b2n w.nak.isSome +
    2 ^ 96 * w.cvc + 2 ^ 99 * b2n w.ccum.isSome + 2 ^ 100 * (w.ccum.getD 0) + 2 ^ 112 * ofBytes (sliceB w.ctl 0 12)

/-- The fields in the 26 bytes. -/
def lcwOf (v : Nat) : Lcw where
  ccrc := bits v 31 0
  seq := bits v 43 32
  cvalid := bit v 44
  sched := bit v 45
  replay := bit v 46
  pend := bit v 47
  slot := bits v 55 48
  ack := if bit v 76 then some (bits v 75 64) else none
  nak := if bit v 92 then some (bits v 91 80) else none
  cvc := bits v 98 96
  ccum := if bit v 99 then some (bits v 111 100) else none
  ctl := bytesOf 12 (bits v 207 112)

/-- A link unit: a cell position, the control word and its LCRC (R280, R281). -/
def linkUnit (cell : BitVec 2176) (w : Lcw) : BitVec 2400 :=
  let v := w.word
  cell.setWidth 2400 ||| (BitVec.ofNat 2400 (v + 2 ^ 208 * crc16 (bytesOf 26 v)) <<< 2176)

/-- CCRC of a cell position. -/
def ccrcOf (b : BitVec 2176) : Nat := crc32 (bytesOf 272 b.toNat)

/-! ### Cells received (R288 to R296) -/

/-- SLAT of a port. -/
def slatOf (s : State) (p : PlaneId) (n : Nat) : Nat := s.get (uFPT p n) Fld.FPT_CFG_SLAT

/-- The slot a unit was sent in, in full (R288): the one closest to this slot minus SLAT that agrees with SLOT. -/
def fullSlot (s : State) (p : PlaneId) (n slot : Nat) : Nat :=
  let e : Int := ((s.ft p / 20 : Nat) : Int) - (slatOf s p n : Nat)
  let d : Int := ((slot : Int) - e) % 256
  (if d ≤ 128 then e + d else e + d - 256).toNat

/-- Count a cell that is discarded under R283, R298 or R307. -/
def hdrDrop (p : PlaneId) (lane : Nat) (s : State) : State := s.incSat (uFPT p lane) Fld.FPT_HDR_CNT

/-- A position of a lane without a good cell: its presentation slot is yet to begin. -/
def presentNone (p : PlaneId) (lane slot : Nat) (s : State) : State :=
  if slot * 20 ≤ s.ft p ∨ (presented s p lane slot).isSome then s
  else s.modPl p (fun x => { x with schedIn := x.schedIn ++ [⟨lane, slot, none⟩] })

/-- A scheduled cell is placed in its presentation slot, or discarded (R290). -/
def presentCell (p : PlaneId) (lane slot : Nat) (c : Cell) (s : State) : State :=
  if slot * 20 ≤ s.ft p ∨ (presented s p lane slot).isSome then sdrop p lane s
  else (s.modPl p (fun x => { x with schedIn := x.schedIn ++ [⟨lane, slot, some c⟩] })).event p 0x04 lane 1

/-- An adaptive cell passes its link (R283, R298): discarded with its credit returned, or handed to the switch core. -/
def acceptAdaptive (p : PlaneId) (n lane : Nat) (c : Cell) (s : State) : State :=
  if !c.consistent ∨ portVcs s p n ≤ c.vc then returnCredit p n c.vc (hdrDrop p lane s)
  else (modFab p (fun f => { f with arrived := f.arrived ++ [(n, c)] }) s).event p 0x06 lane 1

/-- The cell of a position as its header and the control word show it: one whose reserved fields or SCHED bit are wrong is made
inconsistent, so that it is discarded as R283 says. -/
def readCell (b : BitVec 2176) (sched : Bool) : Cell :=
  let c := cellOf b
  if c.2 && c.1.sched = sched then c.1 else { c.1 with sched := sched, flen := 0, pos := 0 }

/-- Record an awaited replay; of a ninth NAK the oldest is dropped, and its cell is lost (R293). -/
def addNak (k : Nak) (l : PortLink) : PortLink :=
  if l.naks.any (·.seq = k.seq) then l
  else
    let l := { l with naks := l.naks ++ [k] }
    if 8 < (l.naks.filter (!·.pend)).length then
      match l.naks.find? (!·.pend) with
      | some old => { l with naks := l.naks.filter (·.seq ≠ old.seq) }
      | none => l
    else l

/-- The adaptive cells, known or possible, that a receiver waits for. -/
def awaited (l : PortLink) : List Nat := ((l.naks.filter (fun k => !k.pend && k.sched ≠ some true)).map (·.seq)) ++ l.skipped

/-- The first of a list of SEQ. -/
def firstSeq (q : List Nat) : Option Nat := q.find? (fun a => q.all (fun b => a = b || seqBefore a b))

/-- A NAK for the first skipped cell, where nothing else asks for the cells that were discarded. -/
def chaseSkipped (l : PortLink) : PortLink :=
  match firstSeq (awaited l) with
  | some a => if l.skipped.contains a then addNak { seq := a, place := none, sched := some false } { l with skipped := l.skipped.filter (· ≠ a) } else l
  | none => l

/-- SEQ missing before a cell of the sequence, with the places of discarded units where their number agrees (R293). (DEDUCED, log 45) -/
def noteGap (seq : Nat) (l : PortLink) : PortLink :=
  let d := seqDist l.rxSeq seq
  if 2048 ≤ d then l
  else
    let place (i : Nat) : Option (Nat × Nat) := if l.lost.length = d then (l.lost.getD i (0, 0)) else none
    let l1 := (List.range d).foldl (fun a i => addNak { seq := (l.rxSeq + i) % 4096, place := place i, sched := none } a) l
    { l1 with rxSeq := (seq + 1) % 4096, lost := [] }

/-- Cells held behind missing ones of unknown kind are accepted once none is missing. (DEDUCED, log 45) -/
def releaseAside (p : PlaneId) (n : Nat) (s : State) : State :=
  let l := linkOf s p n
  if l.naks.any (fun k => !k.pend && k.sched ≠ some true) ∨ l.skipped ≠ [] then s
  else l.aside.foldl (fun t e => acceptAdaptive p n (ctlLane t p n) e.2 t) (modLink p n (fun l => { l with aside := [] }) s)

/-- An adaptive cell comes for the first time: in order it is accepted; behind a damaged or missing adaptive cell it is discarded (R296). -/
def adaptiveNew (p : PlaneId) (n lane seq : Nat) (c : Cell) (s : State) : State :=
  let l := linkOf s p n
  if l.skipped ≠ [] ∨ l.naks.any (fun k => !k.pend && k.sched = some false) then modLink p n (fun l => { l with skipped := l.skipped ++ [seq] }) s
  else if l.naks.any (fun k => !k.pend && k.sched = none) then modLink p n (fun l => { l with aside := l.aside ++ [(seq, c)] }) s
  else acceptAdaptive p n lane c s

/-- The replay of an adaptive cell (R296): the first of those awaited is accepted, a later one is discarded again, and one that nothing
awaits is dropped. -/
def adaptiveReplay (p : PlaneId) (n lane seq : Nat) (c : Cell) (s : State) : State :=
  let l := linkOf s p n
  if !(awaited l).contains seq then s
  else if firstSeq (awaited l) = some seq then
    let s := modLink p n (fun l =>
      -- Cells held aside followed an adaptive cell after all: their replays come.
      { l with naks := l.naks.filter (·.seq ≠ seq), skipped := l.skipped.filter (· ≠ seq) ++ l.aside.map (·.1), aside := [] }) s
    acceptAdaptive p n lane c s
  else modLink p n (fun l => chaseSkipped { l with naks := l.naks.filter (·.seq ≠ seq), skipped := if l.skipped.contains seq then l.skipped else l.skipped ++ [seq] }) s

/-- The placeholders of a forwarded cell take its content, and each lane replays its own SEQ (R295). -/
def fillForward (p : PlaneId) (lane slot : Nat) (c : Cell) (s : State) : State :=
  modFab p (fun f => { f with links := f.links.map (fun e =>
    let mine (x : Sent) : Bool := x.pend && x.fwdLane = lane && x.fwdSlot = slot
    let fill (x : Sent) : Sent := if mine x then { x with cell := c, pend := false, bound := some x.lane } else x
    let q := ((e.2.retry ++ e.2.pends).filter mine).map (·.seq)
    (e.1, { e.2 with retry := e.2.retry.map fill, pends := e.2.pends.map fill, replays := e.2.replays ++ q })) }) s

/-- The replay of a scheduled cell goes where its presentation slot's ingress code put the position (R295). -/
def placeReplay (p : PlaneId) (lane slot : Nat) (c : Cell) (s : State) : State :=
  if s.ft p < slot * 20 then
    (s.modPl p (fun x => { x with schedIn := x.schedIn.map (fun e => if e.lane = lane ∧ e.slot = slot ∧ e.cell.isNone then { e with cell := some c } else e) })).event p 0x04 lane 1
  else
    let s := match (s.fab p).stageMiss.find? (fun e => e.1 = lane && e.2.1 = slot) with
      | some e =>
        modFab p (fun f => { f with stageMiss := f.stageMiss.filter (fun x => x ≠ e) })
          (markStage p e.2.2 false c.poison (memWrite p e.2.2 (payloadBytes c.data) s))
      | none => s
    let s := (s.pl p).ctxs.foldl (fun t e => replayCell p (e.1 / 16) (e.1 % 16) lane slot c t) s
    fillForward p lane slot c s

/-- A scheduled cell that was awaited has come. -/
def schedReplay (p : PlaneId) (n seq : Nat) (own : Option (Nat × Nat)) (c : Cell) (s : State) : State :=
  match (linkOf s p n).naks.find? (·.seq = seq) with
  | none => s
  | some k =>
    let s := modLink p n (fun l => { l with naks := l.naks.filter (·.seq ≠ seq) }) s
    let s := if !c.consistent then hdrDrop p (ctlLane s p n) s
      else match own.or k.place with
        | some (lane, slot) => placeReplay p lane (slot + slatOf s p n) c s
        | none => s
    if k.sched = none then releaseAside p n s else s

/-- A cell fails its CRC (R285, R293, R297): the first failure of a new cell starts the lane's count for its SEQ. A placeholder is such a
failure for which no NAK is needed (R295). (DESIGN CHOICE, log 43) -/
def crcFail (p : PlaneId) (n lane slot : Nat) (w : Lcw) (s : State) : State :=
  let s := report (uFPT p lane) 1 .c lane w.seq (s.incSat (uFPT p lane) Fld.FPT_CRC_CNT)
  let times := if w.replay then mgetD (laneOf s p lane).fails w.seq 0 + 1 else 1
  let s := modLane p lane (fun l => { l with fails := mput l.fails w.seq times }) s
  let s := if w.replay then
      modLink p n (fun l => if l.skipped.contains w.seq then chaseSkipped l else l) s
    else
      let s := modLink p n (addNak { seq := w.seq, place := some (lane, slot), sched := some w.sched, pend := w.pend }) s
      if w.sched then presentNone p lane (slot + slatOf s p n) s else s
  if 3 ≤ times then laneFault p lane s else s

/-- A valid cell position of a unit with a good LCW arrives on a port that carries traffic. -/
def cellIn (p : PlaneId) (n lane slot : Nat) (w : Lcw) (b : BitVec 2176) (s : State) : State :=
  let l := linkOf s p n
  let old : Bool := !w.replay && 2048 ≤ seqDist l.rxSeq w.seq
  let s := if w.replay then s else modLink p n (noteGap w.seq) s
  let hit := strike (uFPT p lane) 1 s
  let s := hit.2
  if (w.pend ∧ ¬ w.replay) ∨ hit.1 ∨ ccrcOf b ≠ w.ccrc then crcFail p n lane slot w s
  else
    let s := modLane p lane (fun l => { l with fails := mdel l.fails w.seq }) s
    let c := readCell b w.sched
    if w.sched then
      if w.replay then schedReplay p n w.seq none c s
      else if old then schedReplay p n w.seq (some (lane, slot)) c s
      else if !c.consistent then hdrDrop p lane (presentNone p lane (slot + slatOf s p n) s)
      else presentCell p lane (slot + slatOf s p n) c s
    else if w.replay ∨ old then adaptiveReplay p n lane w.seq c s
    else adaptiveNew p n lane w.seq c s

/-! ### What a unit's control word says (R292, R293, R299) -/

/-- ACKSEQ frees every cell before it; a placeholder without its content keeps waiting for it. -/
def ackIn (ack : Nat) (l : PortLink) : PortLink :=
  let freed := l.retry.filter (fun e => seqBefore e.seq ack)
  { l with retry := l.retry.filter (fun e => !seqBefore e.seq ack), pends := l.pends ++ freed.filter (·.pend)
           replays := l.replays.filter (fun q => !freed.any (fun e => e.seq = q && !e.pend)), nakAt := l.nakAt.filter (fun e => !seqBefore e.1 ack) }

/-- A NAK asks for a cell: its replay is queued at the first NAK, and repeated ones are ignored for 64 slots. -/
def nakIn (slot seq : Nat) (l : PortLink) : PortLink :=
  match l.retry.find? (fun e => e.seq = seq && !e.pend) with
  | none => l
  | some e =>
    if (mget l.nakAt seq).any (fun t => decide (slot < t + 64)) then l
    else addReplays { l with nakAt := mput l.nakAt seq slot } (replaySet l e)

/-- A complete link control message arrives on a lane (Table 10.4); its first unit came at `now`. -/
def messageIn (p : PlaneId) (n lane now : Nat) (b : List Byte) (s : State) : State :=
  let f (i k : Nat) : Nat := ofBytes (sliceB b i k)
  match f 0 1 with
  | 1 => helloIn p lane b s
  | 2 =>
    let m := timeOf b
    let src : TimeSource := .port ⟨n % 128, Nat.mod_lt _ (by decide)⟩
    if m.echo then echoIn p src m now s else tsyncIn p src m now now s
  | 3 => narrowIn p lane (f 1 1 % 16) (f 2 8) s
  | 5 => probeIn p lane (f 1 8) s
  | 6 => rttIn p lane (f 1 8) now s
  | _ => s

/-- The 12 CTL bytes of a unit join the message of the lane (R301). -/
def ctlIn (p : PlaneId) (n lane slot now : Nat) (b : List Byte) (s : State) : State :=
  let l := laneOf s p lane
  if slot % 4 = 0 then modLane p lane (fun l => { l with parts := b, nextPart := slot + 1, partAt := now }) s
  else if l.parts = [] ∨ l.nextPart ≠ slot then modLane p lane (fun l => { l with parts := [] }) s
  else
    let all := l.parts ++ b
    if slot % 4 = 3 then messageIn p n lane l.partAt all (modLane p lane (fun l => { l with parts := [] }) s)
    else modLane p lane (fun l => { l with parts := all, nextPart := slot + 1 }) s

/-- The FEC counts of a unit (R285): more than 16 uncorrectable codewords in 1,650,000 beats are a lane fault. -/
def fecIn (p : PlaneId) (lane ce ue : Nat) (s : State) : State :=
  let now := s.beats p
  let s := (s.incSat (uFPT p lane) Fld.FPT_FEC_CE_CNT ce).incSat (uFPT p lane) Fld.FPT_FEC_UE_CNT ue
  let l := (laneOf s p lane).ues.filter (fun t => decide (now < t + 1650000)) ++ List.replicate ue now
  if 16 < l.length then laneFault p lane (modLane p lane (fun x => { x with ues := [] }) s) else modLane p lane (fun x => { x with ues := l }) s

/-- A unit whose LCRC fails is discarded whole (R282): the next unit of the lane, and the cell it may have held, are lost. -/
def unitLost (p : PlaneId) (n lane : Nat) (s : State) : State :=
  match (laneOf s p lane).last with
  | none => modLane p lane (fun l => { l with parts := [] }) s
  | some k =>
    let s := modLane p lane (fun l => { l with parts := [], last := some (k + 1) }) s
    if portUp s p n then presentNone p lane (k + 1 + slatOf s p n) (modLink p n (fun l => { l with lost := l.lost ++ [(lane, k + 1)] }) s) else s

/-- A unit with a good LCRC. -/
def unitIn (p : PlaneId) (n lane now : Nat) (w : Lcw) (b : BitVec 2176) (s : State) : State :=
  let k := fullSlot s p n w.slot
  let s := ctlIn p n lane k now w.ctl (modLane p lane (fun l => { l with last := some k }) s)
  if portUp s p n then
    let s := match w.ack with
      | some a => modLink p n (ackIn a) s
      | none => s
    let s := match w.nak with
      | some q => modLink p n (nakIn (s.ft p / 20) q) s
      | none => s
    let s := match w.ccum with
      | some c => if w.cvc < portVcs s p n then setAvail p n w.cvc (modLink p n (fun l => { l with ccum := mput l.ccum w.cvc c }) s) else s
      | none => s
    if w.cvalid then cellIn p n lane k w b s else s
  else if w.cvalid then (if w.sched then sdrop p lane s else hdrDrop p lane s)
  else s

/-- LINK_UNIT_RECEIVE: a 300-byte unit arrives on a lane, `sub` 64ths into the beat, with the FEC codewords that overlap it,
corrected and uncorrectable, each told of once. Units of one slot arrive in lane order (assumption log 42). -/
def execLinkUnitReceive (p : PlaneId) (lane : PortId) (u : BitVec 2400) (ce ue : Fin 256) (sub : Fin 64) (s : State) : Out :=
  if ¬ s.powered (uFPT p lane.val) then .next s
  else
    let b := u.extractLsb' 0 2176
    let v := (u.extractLsb' 2176 208).toNat
    let good := decide ((u.extractLsb' 2384 16).toNat = crc16 (bytesOf 26 v))
    let w := lcwOf v
    let drop (s : State) : State := if good ∧ w.cvalid then (if w.sched then sdrop p lane.val s else hdrDrop p lane.val s) else s
    match portOf s p lane.val with
    | none => .next (drop s)
    | some n =>
      let st := portState s p n
      if st = 0 ∨ st = 5 ∨ st = 6 then .next (drop s)
      else
        let s := fecIn p lane.val ce.val ue.val s
        let bad := (linkOf s p n).bad.contains (lane.val - n)
        if bad ∨ (st ≠ 1 ∧ ¬ (actLanes s p n).contains lane.val) then .next (drop s)
        -- A unit that an uncorrectable codeword overlaps fails its CRC (R279).
        else if good ∧ ue.val = 0 then .next (unitIn p n lane.val (64 * s.ft p + sub.val) w b s)
        else .next (unitLost p n lane.val s)

/-! ### Units sent (R280, R292 to R295) -/

/-- What a lane sends in its cell position. -/
structure TxCell where
  seq : Nat
  cell : Cell
  replay : Bool := false
  pend : Bool := false
  deriving DecidableEq, Repr

/-- Cells of a port's retry buffer (R292). -/
def retryRoom (s : State) (p : PlaneId) (n : Nat) : Bool := decide ((linkOf s p n).retry.length < 64 * (activeOffs s p n).length)

/-- A cell takes the next SEQ; it is kept while the retry buffer has room. -/
def sendNew (p : PlaneId) (n lane : Nat) (c : Cell) (pend : Bool) (fwd : Nat) (s : State) : Option TxCell × State :=
  let slot := s.ft p / 20
  let q := (linkOf s p n).txSeq
  let keep := retryRoom s p n
  let e : Sent := { seq := q, lane := lane, slot := slot, cell := c, pend := pend, fwdLane := fwd, fwdSlot := slot }
  (some { seq := q, cell := c, pend := pend },
    (modLink p n (fun l => { l with txSeq := (q + 1) % 4096, retry := if keep then l.retry ++ [e] else l.retry
                                    pends := l.pends.filter (fun x => decide (seqDist x.seq q < 2048)) }) s).event p (if c.sched then 0x05 else 0x07) lane 1)

/-- The next replay of a port that may leave on a lane, in order (R294): the replay of a placeholder leaves on its own lane (R295). -/
def nextReplay (p : PlaneId) (n lane : Nat) : List Nat → State → Option TxCell × State
  | [], s => (none, s)
  | q :: rest, s =>
    let l := linkOf s p n
    match (l.retry ++ l.pends).find? (fun e => e.seq = q && !e.pend) with
    | none => nextReplay p n lane rest (modLink p n (fun l => { l with replays := l.replays.erase q }) s)
    | some e =>
      if e.bound.any (· ≠ lane) then nextReplay p n lane rest s
      else
        let s := modLink p n (fun l => { l with
          replays := l.replays.erase q, pends := l.pends.filter (·.seq ≠ q)
          retry := l.retry.map (fun x => if x.seq = q then { x with lane := lane, slot := s.ft p / 20, bound := none } else x) }) s
        (some { seq := q, cell := e.cell, replay := true }, (s.incSat (uFPT p lane) Fld.FPT_REPLAY_CNT).event p 0x09 lane 1)

/-- Take an entry off a port's repair queue. -/
def popRepair (p : PlaneId) (n : Nat) (r : RepairRef) (s : State) : State :=
  let l := (mgetD (s.pl p).repairs n []).erase r
  s.modPl p (fun x => { x with repairs := if l = [] then mdel x.repairs n else mput x.repairs n l })

/-- The next cell of a port's repair queue (R179, R184): result cells in cell order, then the seal. A delivery that has sent no cell waits
while its chunk is recomputed, and the next one goes before it. -/
def nextRepair (p : PlaneId) (n lane : Nat) : List RepairRef → State → Option TxCell × State
  | [], s => (none, s)
  | r :: rest, s =>
    match (getCtx s p r.pos r.ctx).bind (fun x => (x.chunk r.chunk).map (fun k => (x, k))) with
    | none => nextRepair p n lane rest (popRepair p n r s)
    | some (x, k) => match k.copies.find? (·.dst = r.dst) with
      | none => nextRepair p n lane rest (popRepair p n r s)
      | some cp =>
        if !r.sealOnly ∧ cp.sent < k.result.length then
          let y := if cp.sent = 0 ∧ !k.recomputing then readResult p r.pos r.ctx r.chunk s else (!k.recomputing || decide (0 < cp.sent), s)
          if !y.1 then nextRepair p n lane rest y.2
          else if s.beats p < k.resultAt + 20 then (none, y.2)
          else
            let hit := if cp.sent = 0 then strike (pu p .XPT) 1 y.2 else (false, y.2)
            let s := modChunk p r.pos r.ctx r.chunk (·.modCopy r.dst (fun y =>
              { y with sent := y.sent + 1, crcBad := y.crcBad || hit.1 })) hit.2
            sendNew p n lane { sched := true, cls := 2, tag := resTag x k.num cp.sent cp.attempt, data := k.result.getD cp.sent 0 } false 0 s
        else
          let t := sealCopy p r.pos r.ctx r.chunk r.dst (popRepair p n r s)
          match t.1 with
          | some c => sendNew p n lane c false 0 t.2
          | none => nextRepair p n lane rest t.2

/-- Whether a queue of a port holds a written cell without a credit (Table 16.1 CREDIT_STALL). -/
def stalled (s : State) (p : PlaneId) (n : Nat) : Bool :=
  (List.range 8).any (fun q => availOf s p n q = 0 && (queueOf s p (8 * n + q)).any (fun c => decide (c.sent < writtenOf s p c.frame)))

/-- An adaptive cell for an open lane, while the retry buffer has room (R292). -/
def nextAdaptive (p : PlaneId) (n lane : Nat) (s : State) : Option TxCell × State :=
  let r := if retryRoom s p n then pickCell p n s else (none, s)
  match r.1 with
  | some c => sendNew p n lane c false 0 r.2
  | none => (none, if stalled s p n then r.2.event p 0x08 lane 1 else r.2)

/-- A lane's egress is open in this slot: no key runs, or its pattern's code says so. -/
def laneOpen (s : State) (p : PlaneId) (lane : Nat) : Bool :=
  match (s.fab p).pat with
  | some (k, d) => k ≠ s.ft p / 20 || outCode d lane = 0
  | none => true

/-- The cell that a lane of a port that carries traffic sends in this slot (R288, R294). -/
def laneCellOut (p : PlaneId) (n lane : Nat) (s : State) : Option TxCell × State :=
  let slot := s.ft p / 20
  match (s.pl p).schedOut.find? (fun e => e.lane = lane && e.slot = slot) with
  | some e => sendNew p n lane e.cell e.pend e.fwd (s.modPl p (fun x => { x with schedOut := x.schedOut.erase e }))
  | none =>
    if !laneOpen s p lane then (none, s)
    else
      let r := nextReplay p n lane (linkOf s p n).replays s
      if r.1.isSome then r
      else
        let t := nextRepair p n lane (mgetD (r.2.pl p).repairs n []) r.2
        if t.1.isSome then t else nextAdaptive p n lane t.2

/-! ### Messages sent (R301) -/

/-- The order of messages that are due together. -/
def ctlRank (k : Nat) : Nat :=
  match k with
  | 2 => 0 | 3 => 1 | 4 => 1 | 5 => 2 | 6 => 2 | _ => 3

/-- The message that takes a lane's next message position. -/
def pickCtl (now : Nat) (l : List CtlMsg) : Option CtlMsg :=
  let due := l.filter (fun m => decide (m.due ≤ now))
  due.find? (fun m => due.all (fun x => decide (ctlRank m.kind ≤ ctlRank x.kind)))

/-- A message position begins on a lane: its message leaves, with its departure written into a TIME message or a probe. -/
def startCtl (p : PlaneId) (n lane t : Nat) (s : State) : State :=
  match pickCtl (s.ft p / 20 * 20) (laneOf s p lane).tx with
  | none => modLane p lane (fun l => { l with cur := [] }) s
  | some m =>
    let time := timeOf m.body
    let body := if m.kind = 2 then timeBody { time with tTx := t } else if m.kind = 5 then ctlBytes 5 (bytesOf 8 (t / 64)) else m.body
    let s := modLane p lane (fun l => { l with tx := l.tx.erase m, cur := body }) s
    if m.kind = 2 ∧ time.echo then echoLeft p ⟨n % 128, Nat.mod_lt _ (by decide)⟩ t s else s

/-- ACKSEQ of a port's receive side (R293): below it every cell has come; it stays one below the oldest NAK. -/
def ackOf (l : PortLink) : Nat :=
  match firstSeq (((l.naks.filter (!·.pend)).map (·.seq)) ++ l.skipped) with
  | none => l.rxSeq
  | some q => if l.skipped.contains q then q else (q + 4095) % 4096

/-- The NAK of a slot: the outstanding ones in turn (R293). -/
def nakOf (slot : Nat) (l : PortLink) : Option Nat :=
  let q := (l.naks.filter (!·.pend)).map (·.seq)
  q[slot % max 1 q.length]?

/-- A lane's unit of this slot. -/
def sendUnit (p : PlaneId) (n : Nat) (lane t : Nat) (s : State) : State :=
  let slot := s.ft p / 20
  let up := portUp s p n
  let r := if up then laneCellOut p n lane s else (none, s)
  let s := if slot % 4 = 0 then startCtl p n lane t r.2 else r.2
  let l := linkOf s p n
  let vc := slot % portVcs s p n
  let w : Lcw := { slot := slot, ctl := sliceB (laneOf s p lane).cur (12 * (slot % 4)) 12, ack := if up then some (ackOf l) else none
                   nak := if up then nakOf slot l else none, cvc := if up then vc else 0, ccum := if up then some (mgetD l.given vc 0) else none }
  let out (cell : BitVec 2176) (w : Lcw) : State := s.emit (.linkUnit p ⟨lane % 128, Nat.mod_lt _ (by decide)⟩ (linkUnit cell w))
  match r.1 with
  | none => out 0 w
  | some c =>
    let b := c.cell.bits
    out b { w with ccrc := ccrcOf b, seq := c.seq, cvalid := true, sched := c.cell.sched, replay := c.replay, pend := c.pend }

/-- LINK_SLOT_SEND: once per slot every lane of a port sends its unit, `sub` 64ths into the beat. The port sends in lane order, and after
the slot of a running key has chosen its scheduled cells. (DESIGN CHOICE, log 42) (DESIGN CHOICE, log 98) -/
def execLinkSlotSend (p : PlaneId) (n : PortId) (sub : Fin 64) (s : State) : Out :=
  let slot := s.ft p / 20
  let st := portState s p n.val
  let early : Bool := match slotBank s p with
    | some b => (dueEnd s p b).isNone
    | none => false
  let at' := 64 * (s.ft p % 20) + sub.val
  -- From the end of training on, units leave at one offset from the slot boundary (R280).
  let away : Bool := st ≠ 1 && (linkOf s p n.val).offset.any (· ≠ at')
  if !portPen s p n.val || [0, 5, 6].contains st || (linkOf s p n.val).sentSlot = some slot || early || away || !s.powered (uFPT p n.val) then .next s
  else
    let s := modLink p n.val (fun l => { l with sentSlot := some slot, offset := if st = 1 then none else some at' }) s
    let lanes := if st = 1 then (portLanes s p n.val).filter (fun i => !(linkOf s p n.val).bad.contains (i - n.val)) else actLanes s p n.val
    let s := if st = 1 ∧ ¬ (linkOf s p n.val).probed then
        modLink p n.val (fun l => { l with probed := true }) (queueCtl p (lanes.headD n.val) { kind := 5, body := [], due := s.ft p } s)
      else s
    let s := lanes.foldl (fun t i => sendUnit p n.val i (64 * t.ft p + sub.val) t) s
    .next (s.modPl p (fun x => { x with schedOut := x.schedOut.filter (fun e => !((portLanes s p n.val).contains e.lane && decide (e.slot ≤ slot))) }))

end Sys2Proof.Machine
end

