-- ==== Sys2Proof/Machine/PowerCore.lean ====
section
/-! DEFINITION. Sys2Proof/Machine/PowerCore.lean: what a loss of power and a reset do to a unit, a domain, a plane and a hub
(R404, R409, R425 to R428), shared by the power controller, the fences' lifts and the resets. -/

namespace Sys2Proof.Machine

/-- Set or clear a domain's bit in a register of the power controller. -/
def setDom (f : RField) (d : Nat) (on : Bool) (s : State) : State :=
  let v := s.get (hu .a .PWR) f
  s.put (hu .a .PWR) f (if on then v ||| 2 ^ d else v &&& (2 ^ 32 - 1 - 2 ^ d))

/-- The registers of the one power controller, which stand in STBY (R443). (DESIGN CHOICE, log 99) -/
def pwrKeep : List Nat := [0x040, 0x044, 0x048, 0x04C, 0x050, 0x054, 0x058, 0x05C, 0x060, 0x064, 0x068]

/-- A unit returns to its reset values; with `fence` it keeps its BLK_FENCE. -/
def resetUnit (fence : Bool) (s : State) (u : Nat) : State :=
  let keep := (if u = 0x404 then pwrKeep else []) ++ (if fence && s.fenced u then [0x034] else [])
  { (s.eraseRegs u keep) with rep := mdel s.rep u, pulse := mdel s.pulse u }

/-- A domain loses its power, its request and its wake-up (R425). -/
def dropDomain (d : Nat) (s : State) : State :=
  (setDom Fld.PWR_DOM_PEND d false (setDom Fld.PWR_DOM_STAT_ON d false s)).modPwr (fun x => { x with waking := mdel x.waking d })

/-- The hub links to a plane go down with its CORE domain (R33). -/
def linksDown (p : PlaneId) (s : State) : State :=
  (s.put (hu .a .HUB) (Fld.HUB_LINK_STAT_UP.at p.val) 0).put (hu .b .HUB) (Fld.HUB_LINK_STAT_UP.at p.val) 0

/-- F-tier channels that are fenced in operation, for a cause of their own: the next interleave is formed without them (R254). A channel that
failed its start-up checks is tested again. -/
def fencedChans (s : State) (p : PlaneId) : List Nat :=
  (List.range 6).filter (fun c => s.fenced (uFMC p c) && ([1, 2, 3, 5] : List Nat).contains (s.get (uFMC p c) Fld.BLK_FENCE_CAUSE))

/-- The seven domains of a plane go off and everything in them returns to its reset state; with `fence` the units keep the
record of a closed hasp. Without it this is a plane reset, which forms the interleave anew (R254). (DEDUCED, log 86) (DEDUCED, log 89) -/
def resetPlane (fence : Bool) (p : PlaneId) (s : State) : State :=
  let lost := if fence then (s.pl p).lostChans else fencedChans s p
  let s := (planeUnits p).foldl (resetUnit fence) s
  let s := (List.range 7).foldl (fun s k => dropDomain (4 + 7 * p.val + k) s) s
  linksDown p (s.modPl p (fun _ => { lostChans := lost }))

/-- A CORE power-off (R426): PLN_STATE reads OFF, or stays FENCED. -/
def powerOffPlane (p : PlaneId) (s : State) : State := resetPlane true p s

/-- A change of the unit map (R30): UNIT_SEQ advances and UNIT_CHG is raised. -/
def mapChanged (p : PlaneId) (s : State) : State := unitChange p s

/-- Memory of a range is lost. -/
def dropMem (p : PlaneId) (b n : Nat) (s : State) : State :=
  s.modPl p (fun x => { x with
    mem := x.mem.filter (fun e => !(b ≤ e.1 && e.1 < b + n)), poison := x.poison.filter (fun g => !(b ≤ g && g < b + n))
    written := x.written.filter (fun e => !(b ≤ e.1 && e.1 < b + n)), latent := x.latent.filter (fun g => !(b ≤ g && g < b + n)) })

/-- One of the domains 1 to 6 of a plane goes off (R426): its units reset, the unit map reports them inactive, and a memory
domain loses its contents. -/
def powerOffPart (p : PlaneId) (k : Nat) (s : State) : State :=
  let d := 4 + 7 * p.val + k
  let was := s.domOn d
  let s := ((planeUnits p).filter (fun u => unitDomain u = d)).foldl (resetUnit true) (dropDomain d s)
  let P := pu p .PLN
  let s := match k with
    | 1 => (dropMem p 0 popN (s.put P Fld.PLN_UNIT_MEM_NMC_ACT 0)).modPl p (fun x => { x with tgts := mdel x.tgts 6 })
    | 2 => (dropMem p baseF (popF s p) (s.put P Fld.PLN_UNIT_MEM_FMC_ACT 0)).modPl p (fun x => { x with tgts := x.tgts.filter (·.1 = 6) })
    | 5 => (s.put P Fld.PLN_UNIT_SLICE_SLICE_ACT 0).put P Fld.PLN_UNIT_SLICE_SPARE_IDX 0x1F
    | 6 => (s.put P Fld.PLN_UNIT_MEM_CC_ACT 0).modPl p (fun x => { x with cores := [], syncs := [], syncLog := [] })
    | _ => s
  if was ∧ k ∉ [3, 4] then mapChanged p s else s

/-- A hub's domain goes off and its blocks and mailboxes return to their reset state; its Keyplate keeps its flash, and
the chain of measurement 8, which only a module reset begins anew (Table 15.9). -/
def resetHubState (fence : Bool) (h : HubId) (s : State) : State :=
  let s := endLease h s
  let s := dropDomain (2 + h.num) ((hubUnits h).foldl (resetUnit fence) s)
  let s := { s with mbx := s.mbx.filter (fun e => ¬ (e.1 / 128 = h.num)) }
  let s := s.put (hu h .PCI) Fld.PCI_LEASE_HOLDER (s.get (hu h.other .PCI) Fld.PCI_LEASE_HOLDER)
  s.modHub h (fun x => { ({} : Hub) with
    kpl := { flash := x.kpl.flash, slots := x.kpl.slots, mCc := x.kpl.mCc }, pci := { perst := x.pci.perst }, alive := x.alive
    aliveLevel := x.aliveLevel, aliveNext := x.aliveNext })

/-- The starting form takes an ALIVE output over (R412). -/
def aliveStart (h : HubId) (s : State) : State :=
  if s.dead.isSome then s
  else s.modHub h (fun x => { x with alive := .starting, aliveNext := s.pwr.beat + 412500 })

/-- A hub reset (R427): the hub's domain is cycled through admission, and its Keyplate boots it again. -/
def resetHub (h : HubId) (s : State) : State := aliveStart h (setDom Fld.PWR_DOM_PEND (2 + h.num) true (resetHubState false h s))

/-- FCL_LIFT of a hub powers the hub and boots it (Table 14.6), but in the deadbolt state, which admits no domain (R408, R425). -/
def liftHub (h : HubId) (s : State) : State := if s.dead.isSome then s else resetHub h s

/-- The legal values of a partition (Table 9.4): every field within its range. -/
def partRangeOk (w : Nat) : Bool :=
  decide (1 ≤ partKeyb w ∧ partKeyb w ≤ 4 ∧ 1 ≤ partGq w ∧ partGq w ≤ 8 ∧ 2 ≤ partReord w ∧ partReord w ≤ 16 ∧ 8 ≤ partAdapt w ∧
    partAdapt w ≤ 32 ∧ 1 ≤ partRet w)

/-- The partition fits the active banks (R269): STAGE is at least 8 and RET lies within it. -/
def partFits (w act : Nat) : Bool :=
  decide (partGq w + 2 * partKeyb w + partReord w + partAdapt w + 8 ≤ act ∧ partRet w ≤ partStage w act)

end Sys2Proof.Machine
end

