-- ==== Sys2Proof/Machine/Spm.lean ====
section
/-! DEFINITION. Sys2Proof/Machine/Spm.lean: the partition of the scratchpad (R268 to R272) and the relock of a plane's ACLK (R31, R32). -/

namespace Sys2Proof.Machine

/-! ### The partition -/

/-- The physical banks that the next apply maps in. -/
def banksNext (s : State) (p : PlaneId) : List Nat := (List.range 64).filter (bankActive s p)

/-- What blocks an APPLY (R272). -/
def applyBlocked (s : State) (p : PlaneId) (w : Nat) : Bool :=
  [3, 4, 5].contains (s.plnState p) || [0, 1].any (fun b => [1, 3, 4, 5].contains (bankSt s p b)) || (s.fab p).bufs ≠ [] ||
    (s.fab p).robs.any (fun e => e.2.any (fun r => r.frames ≠ [])) || (s.pl p).ctxs ≠ [] || !ringsFit s p (partGq w)

/-- The checks of SPM writes (R272). -/
def spmVerdict (s : State) (p : PlaneId) (off : Nat) (v : Word) : Verdict :=
  if off = 0x044 ∧ v.getLsbD 0 then
    let w := (s.reg (pu p .SPM) 0x040).toNat
    { state := applyBlocked s p w, range := !partRangeOk w, bounds := !partFits w (banksNext s p).length }
  else {}

/-- SPM_PART_CFG is busy while an apply runs. -/
def spmBusy (s : State) (p : PlaneId) (off : Nat) : Bool := off = 0x040 && s.on (pu p .SPM) Fld.SPM_STAT_APPLY_BUSY

/-- APPLY starts an apply. -/
def spmEffect (p : PlaneId) (off : Nat) (v : Word) (s : State) : State :=
  if off = 0x044 ∧ v.getLsbD 0 then
    (s.put (pu p .SPM) Fld.SPM_STAT_APPLY_BUSY 1).modPl p (fun x => { x with applyAt := some x.ftm.beats })
  else s

/-- Zero the bytes of logical banks. -/
def zeroBanks (p : PlaneId) (l : List Nat) (s : State) : State :=
  let hit (a : Nat) : Bool := decide (baseS ≤ a) && l.contains ((a - baseS) / bankBytes)
  s.modPl p (fun x => { x with mem := x.mem.filter (fun e => !hit e.1), poison := x.poison.filter (fun g => !hit g)
                               written := x.written.filter (fun e => !hit e.1) })

/-- Logical banks of REORD and ADAPT under the partition in force. -/
def cellBanks (s : State) (p : PlaneId) : List Nat :=
  let f (q : Part) : List Nat := (List.range ((partRange s p q).2 / bankBytes)).map ((partRange s p q).1 / bankBytes + ·)
  f .reord ++ f .adapt

/-- PARTITION_APPLY_DONE: the apply completes: the map is formed with the banks now active, banks placed anew and banks that enter
ADAPT or REORD are zero, a bank beyond the populated range is dropped, and a change of GQ or KEYB empties both key banks (R268, R272). -/
def execPartitionApplyDone (p : PlaneId) (s : State) : Out :=
  if (s.pl p).applyAt.isNone then .next s
  else
    let old := bankMapNow s p
    let new := formBankMap (banksNext s p)
    let was := partNow s p
    let w := s.reg (pu p .SPM) 0x040
    let had := cellBanks s p
    let s := (s.put (pu p .SPM) Fld.SPM_STAT_APPLY_BUSY 0).modPl p (fun x => { x with
      applyAt := none, part := some w, bankMap := some new, fencedBanks := [] })
    let moved := (List.range 64).filter (fun i => old[i]? ≠ new[i]?)
    let s := zeroBanks p (moved ++ (cellBanks s p).filter (fun b => !had.contains b)) s
    let s := if partGq was = partGq w.toNat ∧ partKeyb was = partKeyb w.toNat then s
      else [0, 1].foldl (fun t b => freePatterns p b (modBank p b (fun _ => {}) (setBankSt p b 0 t))) s
    .next (checkCommit p s)

/-- The SPM registers that show other state. -/
def spmRead (s : State) (p : PlaneId) (off : Nat) : Option Word :=
  let w := partNow s p
  let act := spmActive s p
  match off with
  | 0x048 => some (BitVec.ofNat 32 (partSig s p))
  | 0x04C => some (BitVec.ofNat 32 (act + 128 * s.get (pu p .SPM) Fld.SPM_STAT_APPLY_BUSY + 256 * partStage w act))
  | 0x050 => some (BitVec.ofNat 32 (partRet w * 4096 - (retUsed s p + 1023) / 1024))
  | _ => none

/-! ### ACLK (R31, R32) -/

/-- The checks of PLN writes: ACLK_SET is accepted only in ADAPTIVE. -/
def plnVerdict (s : State) (p : PlaneId) (off : Nat) (_v : Word) : Verdict := { state := off = 0x040 && s.plnState p ≠ 2 }

/-- An accepted write of ACLK_SET starts a relock to its value; a write of the value in ACLK_NOW causes none and ends none (R31).
(DEDUCED, log 105) -/
def plnEffect (p : PlaneId) (off : Nat) (v : Word) (s : State) : State :=
  if off = 0x040 ∧ fieldGet v Fld.PLN_CFG_ACLK_SET ≠ s.get (pu p .PLN) Fld.PLN_STATE_ACLK_NOW then
    s.modPl p (fun x => { x with relock := some (fieldGet v Fld.PLN_CFG_ACLK_SET) })
  else s

/-- Every adaptive cell that has left its sender under a credit is in the scratchpad, as far as the plane can see: none waits to be written,
is held aside behind a missing cell, or awaits its replay (R32). (DEDUCED, log 105) -/
def cellsWritten (s : State) (p : PlaneId) : Bool :=
  (s.fab p).arrived.isEmpty && (s.fab p).links.all (fun e => e.2.aside.isEmpty && e.2.naks.all (fun n => n.sched = some true))

/-- CLKCHG_ENTER: the relock begins once every cell of the credits granted is in the scratchpad: STATE is CLKCHG and ACLK changes. -/
def execClkchgEnter (p : PlaneId) (s : State) : Out :=
  match (s.pl p).relock with
  | some set =>
    if s.plnState p = 2 ∧ cellsWritten s p then
      let was := cycleFrom (cyclesPerSlot s p) (s.ft p)
      .next (rebaseCores p (s.ft p) was ((setPlnState p 5 (s.modPl p (fun x => { x with relock := none }))).put (pu p .PLN) Fld.PLN_STATE_ACLK_NOW set))
    else .next s
  | none => .next s

/-- Credits that a relock held back return, but to accelerator ports while injection is held. -/
def returnWithheld (p : PlaneId) (s : State) : State :=
  let keep := held s p
  let roles := (List.range 128).map (portRole s p)
  modFab p (fun f => { f with links := f.links.map (fun e =>
    if keep ∧ roles.getD e.1 0 = 1 then e
    else (e.1, { e.2 with given := e.2.owed.foldl (fun g o => mput g o.1 ((mgetD g o.1 0 + o.2) % 4096)) e.2.given, owed := [] })) }) s

/-- RELOCK_DONE: the plane returns to ADAPTIVE and grants credits again. -/
def execRelockDone (p : PlaneId) (s : State) : Out :=
  if s.plnState p = 5 then .next (returnWithheld p (setPlnState p 2 s)) else .next s

end Sys2Proof.Machine
end

