-- ==== Sys2Proof/Machine/FptRegs.lean ====
section
/-! DEFINITION. Sys2Proof/Machine/FptRegs.lean: the registers of ports and of SerDes chiplets (R309, R310, R331). -/

namespace Sys2Proof.Machine

/-- Registers that act for a port, in the page of its lowest lane only. -/
def portReg (off : Nat) : Bool := (0x040 ≤ off && off ≤ 0x050) || (0x100 ≤ off && off < 0x120)

/-- A lane that is not the lowest of its port. -/
def upperLane (s : State) (p : PlaneId) (n : Nat) : Bool := (portOf s p n).any (· ≠ n)

/-- The lanes that a value of FPT_CFG takes in. -/
def cfgLanes (n w : Nat) : List Nat := (List.range (2 ^ bits w 2 1)).map (n + ·)

/-- The checks of FPT writes (R309, R331). (DEDUCED, log 80) -/
def fptVerdict (s : State) (p : PlaneId) (n off : Nat) (v : Word) : Verdict :=
  if !portReg off then {}
  else if upperLane s p n then { state := v ≠ 0 }
  else
    let st := rteState s p
    let idle : Bool := st = 0 || st = 4
    let on := portPen s p n
    let old := s.reg (uFPT p n) off
    if off = 0x040 then
      let w := v.toNat
      let width := 2 ^ bits w 2 1
      let role := bits w 5 3
      let up := bit w 0 && !on
      let change := old >>> 1 ≠ v >>> 1
      let clash := up && (cfgLanes n w).any (fun i => (portOf s p i).any (· ≠ n) || s.fenced (uFPT p i))
      { state := [1, 2, 3].contains st || (change && (on || !idle)) || clash
        range := bit w 0 && (n % width ≠ 0 || role = 0 || (role = 1 && bit w 6) || (decide (2 ≤ role) && !bit w 6))
        -- GRANT of each of the port's channels is a count that the write of PEN = 1 completes (R58).
        zero := up && (List.range (if bit w 6 then 8 else 4)).any (fun i => s.get (uFPT p n) (Fld.FPT_VC_GRANT.at i) = 0) }
    else if 0x100 ≤ off then { state := !idle || (on && old.setWidth 12 ≠ v.setWidth 12) }
    else { state := !idle || (on && old ≠ v) }

/-- A port is enabled and starts training, or is disabled (Table 10.6). (DEDUCED, log 80) -/
def penEffect (p : PlaneId) (n : Nat) (was : Bool) (s : State) : State :=
  let on := portPen s p n
  if on = was then s
  else if on then
    let s := (portLanes s p n).foldl (fun t i => t.put (uFPT p i) Fld.FPT_LANE_REMOVED 0) (s.put (uFPT p n) Fld.FPT_STAT_QCAUSE 0)
    checkCommit p (startTraining p n (modLink p n (fun _ => {}) s))
  else
    let lanes := (List.range (portWidth s p n)).map (n + ·)
    let s := lanes.foldl (fun t i => dropLane p i ((t.put (uFPT p i) Fld.FPT_LANE_REMOVED 0).put (uFPT p i) Fld.FPT_LANE_LOCK 0)) s
    let s := ((setActive p n [] s).put (uFPT p n) Fld.FPT_STAT_STATE 0).put (uFPT p n) Fld.FPT_STAT_QCAUSE 0
    checkCommit p (followUpstream p (dropCredits p n (modFab p (fun f => { f with links := mdel f.links n }) s)))

/-- The FPT registers that show other state: the port's fields read 0 in the pages of its upper lanes. -/
def fptRead (s : State) (p : PlaneId) (n off : Nat) : Option Word := if portReg off && upperLane s p n then some 0 else none

/-- The checks of SDS writes (R310). -/
def sdsVerdict (s : State) (p : PlaneId) (n off : Nat) (_v : Word) : Verdict :=
  { state := off = 0x040 && (List.range 64).any (fun i => (portOf s p (64 * n + i)).any (fun q => portState s p q = 1)) }

/-- SDS_LOCK shows FPT_LANE.LOCK of its lanes. -/
def sdsRead (s : State) (p : PlaneId) (n off : Nat) : Option Word :=
  let lo (b : Nat) : Option Word := some (BitVec.ofNat 32 (((List.range 32).map (fun i =>
    if s.on (uFPT p (64 * n + b + i)) Fld.FPT_LANE_LOCK then 2 ^ i else 0)).sum))
  match off with
  | 0x054 => lo 0
  | 0x058 => lo 32
  | _ => none

end Sys2Proof.Machine
end

