-- ==== Sys2Proof/Machine/Groups.lean ====
section
/-! DEFINITION. Sys2Proof/Machine/Groups.lean: groups, descriptor and completion rings, group control frames and the GRQ registers
(R161, R227 to R236, R238, R246, R249 to R251). -/

namespace Sys2Proof.Machine

/-! ### Records and rings -/

/-- A group's record. -/
def grp (s : State) (p : PlaneId) (g : Nat) : Group := mgetD (s.pl p).groups g {}

/-- Change a group's record. -/
def modGrp (p : PlaneId) (g : Nat) (f : Group → Group) (s : State) : State :=
  s.modPl p (fun x => { x with groups := mput x.groups g (f (mgetD x.groups g {})) })

/-- The distance from `a` up to `b` of two 16-bit indices. -/
def idxDist (a b : Nat) : Nat := (b + 65536 - a % 65536) % 65536

/-- Address of a ring entry (R230). -/
def ringAddr (base ents i : Nat) : Nat := baseS + base + i % ents * 128

/-- The completion ring has no free entry (R234). -/
def compFull (g : Group) : Bool := g.cent ≤ idxDist g.ccons g.cprod

/-- Member table entry `i`, where the group has one (R228). -/
def member (s : State) (p : PlaneId) (g i : Nat) : Option Nat := if i < (grp s p g).mcount then some (memberEntry s p g i) else none

/-- ADDR and KIND of an entry. -/
def entAddr (e : Nat) : Nat := e % 65536
def entKind (e : Nat) : Nat := e / 65536 % 4

/-- Whether an endpoint is an ENDPOINT entry of a group. -/
def isMember (s : State) (p : PlaneId) (g ep : Nat) : Bool :=
  (List.range (grp s p g).mcount).any (fun i => entKind (memberEntry s p g i) = 0 && entAddr (memberEntry s p g i) = ep)

/-- The digest of a descriptor (R217, R236). -/
def descDigest (d : List Byte) : Nat := ofBytes ((sha512 (sliceB d 0 96)).take 8)

/-! ### Group control frames (Table 8.1) -/

/-- A group control frame's payload. -/
def ctlPayload (body : List Byte) (ty res g cseq midx digest : Nat) : Payload :=
  payloadOf (sliceB body 0 128 ++ bytesOf 1 ty ++ bytesOf 1 res ++ bytesOf 2 g ++ bytesOf 2 cseq ++ bytesOf 2 midx ++ bytesOf 8 digest)

/-- Its fields. -/
def ctlBody (d : Payload) : List Byte := (payloadBytes d).take 128
def ctlType (d : Payload) : Nat := bits d.toNat 1031 1024
def ctlGroup (d : Payload) : Nat := bits d.toNat 1055 1040
def ctlCseq (d : Payload) : Nat := bits d.toNat 1071 1056
def ctlMidx (d : Payload) : Nat := bits d.toNat 1087 1072
def ctlDigest (d : Payload) : Nat := bits d.toNat 1151 1088

/-- A listed TYPE and zero reserved bytes (R232). -/
def ctlOk (d : Payload) : Bool := decide (0x10 ≤ ctlType d ∧ ctlType d ≤ 0x16) && bits d.toNat 2047 1152 = 0

/-- GRQ sends a group control frame to endpoints: one frame, stored once (R348). -/
def sendGroups (p : PlaneId) (eps : List Nat) (d : Payload) (s : State) : State :=
  if eps = [] then s else issueFrame p { unit := pu p .GRQ, cls := 0, dests := eps, cells := [d] } s

/-- GRQ sends a group control frame to an endpoint. -/
def sendGroup (p : PlaneId) (ep : Nat) (d : Payload) (s : State) : State := sendGroups p [ep] d s

/-- A group frame is discarded (R161, R232). -/
def discardGroup (p : PlaneId) (s : State) : State := s.incSat (pu p .GRQ) Fld.GRQ_DISCARD_FRAME_DISC

/-! ### Descriptors -/

/-- A descriptor enters the ring at PROD. -/
def pushDesc (p : PlaneId) (g : Nat) (d : List Byte) (s : State) : State :=
  let x := grp s p g
  modGrp p g (fun x => { x with prod := (x.prod + 1) % 65536 }) (memWrite p (ringAddr x.qbase x.qent x.prod) d s)

/-- LAUNCH: a LAUNCH frame from an endpoint is queued as a descriptor, or refused; either way it is answered (R232). -/
def execLaunch (p : PlaneId) (ep : Fin 65536) (d : Payload) (s : State) : Out :=
  if !ctlOk d then .next (discardGroup p s)
  else if ctlType d ≠ 0x10 then .next s
  else
    let g := ctlGroup d
    let x := grp s p g
    let ack (res cseq : Nat) (s : State) : State := sendGroup p ep.val (ctlPayload [] 0x11 res (g % 1024) cseq 0 0) s
    let refuse (res : Nat) : State := ack res 0 (s.incSat (pu p .GRQ) Fld.GRQ_DISCARD_LAUNCH_REF)
    if 1024 ≤ g ∨ ¬ x.en then .next (refuse 2)
    else if ¬ x.launch then .next (refuse 3)
    else if ¬ isMember s p g ep.val then .next (refuse 4)
    else if x.qent ≤ idxDist x.cons x.prod then .next (refuse 1)
    else
      let b := (ctlBody d).take 0x70 ++ bytesOf 2 ep.val ++ (ctlBody d).drop 0x72
      .next (ack 0 x.prod (pushDesc p g b s))

/-- QPOP takes the next descriptor of a group and stamps it with CSEQ and POP_FT (R233). -/
def popDesc (p : PlaneId) (g : Nat) (s : State) : List Byte × State :=
  let x := grp s p g
  let s := memTouchAll p (ringAddr x.qbase x.qent x.cons) 128 s
  let d := memRead s p (ringAddr x.qbase x.qent x.cons) 128
  let d := d.take 0x72 ++ bytesOf 2 x.cons ++ (d.drop 0x74).take 4 ++ bytesOf 8 (s.ft p)
  let d := if x.launch then d else d.take 0x70 ++ [0, 0] ++ d.drop 0x72
  (d, (modGrp p g (fun x => { x with cons := (x.cons + 1) % 65536, popped := x.popped ++ [(x.cons, d)] }) s).event p 0x15 0xFF 1)

/-- Post a completion record (R234): into the ring, GRQ_CPEND with CIRQ, and a COMPLETE frame to the launcher of a FRAME group. -/
def postRecord (p : PlaneId) (g : Nat) (desc rec' : List Byte) (s : State) : State :=
  let x := grp s p g
  let s := (memWrite p (ringAddr x.cbase x.cent x.cprod) rec' s).event p 0x16 0xFF 1
  let s := s.sample p 3 g (s.ft p - ofBytes (sliceB desc 0x78 8))
  let s := modGrp p g (fun x => { x with
    cprod := (x.cprod + 1) % 65536, dseq := (x.dseq + 1) % 65536, arrivals := x.arrivals.filter (fun a => a.1 ≠ x.dseq) }) s
  let f := Fld.GRQ_CPEND.at (g / 32)
  let s := if x.cirq then s.put (pu p .GRQ) f (s.get (pu p .GRQ) f ||| 2 ^ (g % 32)) else s
  if x.launch then sendGroup p (ofBytes (sliceB desc 0x70 2)) (ctlPayload rec' 0x12 0 g (ofBytes (sliceB rec' 6 2)) 0 0) s else s

/-- The indices of a group's ENDPOINT members. -/
def endpointIdx (s : State) (p : PlaneId) (g : Nat) : List Nat :=
  (List.range (grp s p g).mcount).filter (fun i => entKind (memberEntry s p g i) = 0)

/-- OPEN, with the digest expected, to every ENDPOINT member of a collective to which endpoints contribute nothing, BCAST_FROM_MEM (0x05) or
UPDATE (0x09), as its descriptor is popped and so before its data (R238, Table 8.6). (DESIGN CHOICE, log 129) -/
def sendOpen (p : PlaneId) (g cseq : Nat) (desc : List Byte) (s : State) : State :=
  if [0x05, 0x09].contains (ofBytes (sliceB desc 0 1)) then
    sendGroups p ((endpointIdx s p g).map (fun i => entAddr (memberEntry s p g i))) (ctlPayload [] 0x13 0 g cseq 0 (descDigest desc)) s
  else s

/-- An unkeyed BARRIER (opcode 8 without the KEYED flag). -/
def unkeyedBarrier (d : List Byte) : Bool := ofBytes (sliceB d 0 1) = 8 && !bit (ofBytes (sliceB d 1 1)) 0

/-- BARRIER_RELEASE to every ENDPOINT member of a barrier that completes with OK once all of them have arrived (R246). (DEDUCED, log 117) -/
def releaseBarrier (p : PlaneId) (g cseq : Nat) (desc rec' : List Byte) (s : State) : State :=
  let l := endpointIdx s p g
  if unkeyedBarrier desc ∧ ofBytes (sliceB rec' 0 1) = 0 ∧ l.all (fun i => (grp s p g).arrivals.contains (cseq, i)) then
    sendGroups p (l.map (fun i => entAddr (memberEntry s p g i))) (ctlPayload [] 0x16 0 g cseq 0 0) s
  else s

/-- The group that GRQ_SEL selects. -/
def selGroup (s : State) (p : PlaneId) : Nat := s.get (pu p .GRQ) Fld.GRQ_SEL_GROUP

/-- The record that the staging copy gives a group. -/
def stagedGrp (s : State) (p : PlaneId) (x : Group) : Group :=
  let u := pu p .GRQ
  { x with core := s.get u Fld.GRQ_G_CFG_CORE, tclass := s.get u Fld.GRQ_G_CFG_TCLASS, launch := s.on u Fld.GRQ_G_CFG_LAUNCH
           cirq := s.on u Fld.GRQ_G_CFG_CIRQ, en := s.on u Fld.GRQ_G_CFG_EN, mcount := s.get u Fld.GRQ_G_CFG_MCOUNT
           qbase := s.get u Fld.GRQ_G_QBASE, qent := s.get u Fld.GRQ_G_SIZE_QENT, cent := s.get u Fld.GRQ_G_SIZE_CENT
           cbase := s.get u Fld.GRQ_G_CBASE, mbase := s.get u Fld.GRQ_G_MBASE }

/-- A power of two from 2 to 4,096. -/
def ringSize (n : Nat) : Bool := [2, 4, 8, 16, 32, 64, 128, 256, 512, 1024, 2048, 4096].contains n

/-- The checks of COMMIT (R251). A completion ring moves only while it is empty. -/
def grpVerdict (s : State) (p : PlaneId) : Verdict :=
  let x := grp s p (selGroup s p)
  let y := stagedGrp s p x
  let holds : Bool := x.prod ≠ x.cons || x.dseq ≠ x.cons
  let st := coreSt s p x.core
  let lim := (partRange s p .gq).2
  { state := (holds && (decide ({ x with core := y.core } ≠ y) || (decide (x.core ≠ y.core) && !(st = 0 || st = 4)))) ||
      decide (x.cbase ≠ y.cbase ∧ x.cprod ≠ x.ccons)
    range := !ringSize y.qent || !ringSize y.cent || decide (y.qbase % 128 ≠ 0 ∨ y.cbase % 128 ≠ 0 ∨ y.mbase % 4 ≠ 0 ∨ 4096 < y.mcount)
    zero := y.mcount = 0
    bounds := decide (lim < y.qbase + 128 * y.qent ∨ lim < y.cbase + 128 * y.cent ∨ lim < y.mbase + 4 * y.mcount) }

/-- A commit (R229, R250, R251). -/
def commitGrp (p : PlaneId) (keep : Bool) (s : State) : State :=
  let g := selGroup s p
  modGrp p g (fun x =>
    let y := stagedGrp s p x
    let moved : Bool := x.core ≠ y.core && !keep && x.dseq ≠ x.cons
    let y := if { x with core := y.core } = y ∧ x.core ≠ y.core then y else { y with gen := (y.gen + 1) % 65536 }
    if moved then { y with abandoned := y.abandoned ++ y.popped, popped := [] } else y) s

/-- A COMMIT that was rejected earlier in this beat is applied after the QDONE that it waited for (R250): its rejection is taken back. -/
def retryCommit (p : PlaneId) (g : Nat) (s : State) : State :=
  match (s.pl p).lateCommit with
  | none => s
  | some c =>
    let u := pu p .GRQ
    let v := grpVerdict s p
    if c.beat ≠ s.beats p ∨ selGroup s p ≠ g ∨ v.state ∨ v.range ∨ v.zero ∨ v.bounds then s
    else
      let back (k : Nat) (was now : Word) (s : State) : State := if s.reg u k = now then s.setReg u k was else s
      let s := back 0x018 c.irq.1 c.irq.2 (back 0x00C c.stat.1 c.stat.2 s)
      commitGrp p c.keep ((s.inc u Fld.BLK_SEQ).modPl p (fun x => { x with lateCommit := none }))

/-- QDONE posts the record of the oldest popped descriptor (R216, R233): answers the status code. -/
def doneDesc (p : PlaneId) (core g : Nat) (rec' : List Byte) (s : State) : Nat × State :=
  let x := grp s p g
  if ¬ x.en ∨ x.core ≠ core ∨ 1024 ≤ g then (0x12, s)
  else match x.popped with
    | [] => (0x13, s)
    | (q, d) :: r =>
      if x.abandoned ≠ [] ∨ q ≠ ofBytes (sliceB rec' 6 2) then (0x13, s)
      else if compFull x then (0x07, s)
      else (0, retryCommit p g (postRecord p g d rec' (modGrp p g (fun x => { x with popped := r }) (releaseBarrier p g q d rec' s))))

/-- The record that GRQ posts for an abandoned descriptor (R248, R250). (DEDUCED, log 83) -/
def abandonedRecord (s : State) (p : PlaneId) (g cseq : Nat) (d : List Byte) : List Byte :=
  let st := ((s.pl p).ctxs.filter (fun e => e.2.group = g && e.2.cseq = cseq)).foldl
    (fun a e => e.2.chunks.foldl (fun a k => a ||| k.status) a) 0
  bytesOf 1 0x1A ++ sliceB d 0 1 ++ bytesOf 1 st ++ [0] ++ bytesOf 2 g ++ bytesOf 2 cseq ++ bytesOf 8 (descDigest d) ++ sliceB d 0x60 8 ++
    sliceB d 0x78 8 ++ bytesOf 8 (s.ft p) ++ bytesOf 2 0xFFFF ++ List.replicate 86 0

/-- ABANDONED_POST: GRQ posts the next ABANDONED record as the completion ring has room (R250). -/
def execAbandonedPost (p : PlaneId) (g : Fin 1024) (s : State) : Out :=
  let x := grp s p g.val
  match x.abandoned with
  | [] => .next s
  | (q, d) :: r =>
    if compFull x then .next s
    else .next (postRecord p g.val d (abandonedRecord s p g.val q d) (modGrp p g.val (fun x => { x with abandoned := r }) s))

/-- The popped descriptor of a group with a CSEQ. -/
def poppedDesc (s : State) (p : PlaneId) (g cseq : Nat) : Option (List Byte) := ((grp s p g).popped.find? (·.1 = cseq)).map (·.2)

/-- MISMATCH_REPORT: a receiving member's report aborts a collective that has not completed (R175, R238). -/
def execMismatchReport (p : PlaneId) (d : Payload) (s : State) : Out :=
  if !ctlOk d then .next (discardGroup p s)
  else if ctlType d = 0x14 ∧ (poppedDesc s p (ctlGroup d) (ctlCseq d)).isSome then
    .next (abortColl p (ctlGroup d) (ctlCseq d) (ctlMidx d) (ctlDigest d) s)
  else .next s

/-- BARRIER_ARRIVE: an arrival is counted once for the popped barrier's CSEQ; a different digest aborts the barrier (R246). -/
def execBarrierArrive (p : PlaneId) (d : Payload) (s : State) : Out :=
  if !ctlOk d then .next (discardGroup p s)
  else if ctlType d ≠ 0x15 then .next s
  else
    let g := ctlGroup d
    let q := ctlCseq d
    match poppedDesc s p g q with
    | none => .next s
    | some b =>
      let endpoint : Bool := ((member s p g (ctlMidx d)).map entKind) = some 0
      if ¬ unkeyedBarrier b ∨ ¬ endpoint ∨ (grp s p g).arrivals.contains (q, ctlMidx d) then .next s
      else if ctlDigest d ≠ descDigest b then .next (abortColl p g q (ctlMidx d) (ctlDigest d) s)
      else .next (modGrp p g (fun x => { x with arrivals := x.arrivals ++ [(q, ctlMidx d)] }) s)

/-- COLLECTIVE_TMO: TMO beats have passed from POP_FT without completion (R249, R88): the key of a KEYED collective stops at its
next line boundary, or the FILLING chunks of the collective close. The core posts the record. (DEDUCED, log 83) -/
def execCollectiveTmo (p : PlaneId) (g : Fin 1024) (cseq : Fin 65536) (s : State) : Out :=
  match poppedDesc s p g.val cseq.val with
  | none => .next s
  | some d =>
    let tmo := ofBytes (sliceB d 0x68 8)
    let pop := ofBytes (sliceB d 0x78 8)
    if tmo = 2 ^ 64 - 1 ∨ s.ft p ≤ pop + tmo then .next s
    else if bit (ofBytes (sliceB d 1 1)) 0 then
      match bankIn s p 4 with
      | some b => .next (modBank p b (fun k => if k.keyId = ofBytes (sliceB d 0x48 8) then { k with stop := some (s.ft p) } else k) s)
      | none => .next s
    else .next (s.modPl p (fun x => { x with ctxs := x.ctxs.map (fun e =>
      if e.2.group = g.val ∧ e.2.cseq = cseq.val ∧ e.2.feed then
        (e.1, { e.2 with chunks := e.2.chunks.map (fun (k : Chunk) => if k.st = .filling then k.askClose (ctxFeeds s p (e.1 / 16) (e.1 % 16)) else k) })
      else e) }))

/-! ### Contribution frames (R161) -/

/-- Head cell fields (Table 6.1). -/
structure HeadCell where
  digest : Nat
  group : Nat
  cseq : Nat
  chunk : Nat
  midx : Nat
  cells : Nat
  reserved : Nat
  deriving DecidableEq, Repr

/-- The head cell in a payload. -/
def headCell (d : Payload) : HeadCell :=
  let v := d.toNat
  { digest := bits v 63 0, group := bits v 79 64, cseq := bits v 95 80, chunk := bits v 127 96, midx := bits v 143 128
    cells := bits v 159 144, reserved := bits v 2047 160 }

/-- A context of a collective, if one is bound. -/
def boundFor (s : State) (p : PlaneId) (g q : Nat) : Option Ctx :=
  ((s.pl p).ctxs.find? (fun e => e.2.group = g && e.2.cseq = q)).map (·.2)

/-- CONTRIB_FRAME: an adaptive contribution frame, each cell with its TAG, has arrived from an endpoint; its head cell is checked, and the switch core has
placed it at a multiple of 256 in open staging, each data cell with its TAG (R167), or it is discarded and counted. (DESIGN CHOICE, log 82) -/
def execContribFrame (p : PlaneId) (ep : Fin 65536) (addr : BitVec 48) (cells : List (BitVec 64 × Payload)) (s : State) : Out :=
  match cells with
  | [] => .next s
  | c :: data =>
    let h := headCell c.2
    if addr.toNat % 256 ≠ 0 ∨ ¬ inPart s p .open_ addr.toNat (256 * cells.length) then .next s
    else match boundFor s p h.group h.cseq with
      | none => .next (discardGroup p s)
      | some x =>
        let mine : Bool := match member s p h.group h.midx with
          | some e => entKind e = 0 && entAddr e = ep.val
          | none => false
        if h.reserved ≠ 0 ∨ ¬ mine ∨ h.cells ≠ x.chunkCells ∨ data.length ≠ h.cells then .next (discardGroup p s)
        else .next ((memWrite p addr.toNat (cells.flatMap (fun c => payloadBytes c.2)) s).modPl p (fun x => { x with
          stageTags := data.zipIdx.foldl (fun m e => mput m (addr.toNat + 256 * (e.2 + 1)) e.1.1.toNat) x.stageTags }))

/-! ### GRQ registers (R231, R234, R250, R251) -/

/-- Load the staging copy from a group's record. -/
def loadStaging (p : PlaneId) (g : Nat) (s : State) : State :=
  let u := pu p .GRQ
  let x := grp s p g
  let s := ((s.put u Fld.GRQ_G_CFG_CORE x.core).put u Fld.GRQ_G_CFG_TCLASS x.tclass).put u Fld.GRQ_G_CFG_LAUNCH (b2n x.launch)
  let s := ((s.put u Fld.GRQ_G_CFG_CIRQ (b2n x.cirq)).put u Fld.GRQ_G_CFG_EN (b2n x.en)).put u Fld.GRQ_G_CFG_MCOUNT x.mcount
  let s := ((s.put u Fld.GRQ_G_QBASE x.qbase).put u Fld.GRQ_G_SIZE_QENT x.qent).put u Fld.GRQ_G_SIZE_CENT x.cent
  (s.put u Fld.GRQ_G_CBASE x.cbase).put u Fld.GRQ_G_MBASE x.mbase

/-- The group of a doorbell register. -/
def dbGroup (off : Nat) : Nat := 256 * (off / 4096 - 1) + off % 1024 / 4

/-- The checks of GRQ writes. -/
def grqVerdict (s : State) (p : PlaneId) (off : Nat) (v : Word) : Verdict :=
  if 0x1000 ≤ off ∧ 0x400 ≤ off % 4096 then
    let x := grp s p (dbGroup off)
    let n := idxDist x.cons v.toNat
    { state := !x.en || x.launch, range := decide (x.qent < n ∨ n < idxDist x.cons x.prod) }
  else if off = 0x05C then
    let x := grp s p (selGroup s p)
    { range := decide (idxDist x.ccons x.cprod < idxDist x.ccons (v >>> 16).toNat) }
  else if off = 0x064 ∧ v.getLsbD 0 then
    grpVerdict s p
  else {}

/-- The effects of GRQ writes. -/
def grqEffect (p : PlaneId) (off : Nat) (v : Word) (s : State) : State :=
  if 0x1000 ≤ off ∧ 0x400 ≤ off % 4096 then modGrp p (dbGroup off) (fun x => { x with prod := v.toNat % 65536 }) s
  else if off = 0x040 then loadStaging p (selGroup s p) s
  else if off = 0x05C then modGrp p (selGroup s p) (fun x => { x with ccons := (v >>> 16).toNat }) s
  else if off = 0x064 ∧ v.getLsbD 0 then commitGrp p (v.getLsbD 1) s
  else s

/-- The GRQ registers that show a group's current values. -/
def grqRead (s : State) (p : PlaneId) (off : Nat) : Option Word :=
  let x := grp s p (selGroup s p)
  let w (v : Nat) : Option Word := some (BitVec.ofNat 32 v)
  if 0x1000 ≤ off ∧ 0x400 ≤ off % 4096 then w (grp s p (dbGroup off)).prod
  else if off = 0x058 then w (x.prod + 65536 * x.cons)
  else if off = 0x05C then w (x.cprod + 65536 * x.ccons)
  else if off = 0x060 then w (x.gen + 65536 * x.dseq)
  else none

end Sys2Proof.Machine
end

