-- ==== Sys2Proof/Machine/Mailbox.lean ====
section
/-! DEFINITION. Sys2Proof/Machine/Mailbox.lean: mailbox channels, doorbells and the ward table (R380 to R385). -/

namespace Sys2Proof.Machine

/-- The hub whose MBX block owns a channel (R380). -/
def chHub (c : Fin 256) : HubId := if c.val < 128 then .a else .b

/-- The channel's ward entry (R381). -/
def ward (s : State) (c : Fin 256) (f : RField) : Nat := s.get (hu (chHub c) .MBX) (f.at (c.val % 128))

/-- The agent code of an accessor (Table 13.5); collective cores are no agent. -/
def agentOf : Accessor → Nat
  | .host .a => 1 | .host .b => 2 | .hubCore .a => 3 | .hubCore .b => 4 | .planeCore p => 8 + p.val | .cc _ _ => 0

/-- A channel's own state. -/
def chan (s : State) (c : Fin 256) : Channel := mgetD s.mbx c.val {}

/-- Store a channel. -/
def setChan (s : State) (c : Fin 256) (x : Channel) : State := { s with mbx := mput s.mbx c.val x }

/-- Messages queued, seen by the receiver (CH_STAT.COUNT). (DESIGN CHOICE, log 33) -/
def chCount (s : State) (c : Fin 256) : Nat := (chan s c).queue.length

/-- The channel holds DEPTH messages, sent or visible (R382). (DESIGN CHOICE, log 33) -/
def chFull (s : State) (c : Fin 256) : Bool :=
  decide (ward s c Fld.MBX_WARD_DEPTH ≤ (chan s c).queue.length + (chan s c).sent.length)

/-- The request toward the sender, and toward the receiver: a latched bit whose enable is 1 (R383). -/
def chReqS (x : Channel) : Bool := x.irq.getLsbD 0 && x.irqEn.getLsbD 0
def chReqR (x : Channel) : Bool := (x.irq.getLsbD 1 && x.irqEn.getLsbD 1) || (x.irq.getLsbD 2 && x.irqEn.getLsbD 2)

/-- Deliver a rise of the channel's request toward an agent that is a port (R378, R380). -/
def chDeliver (agent : Nat) (c : Fin 256) (s : State) : State :=
  if agent = 1 then requestAt .a (0x600 + c.val) s else if agent = 2 then requestAt .b (0x600 + c.val) s else s

/-- Replace a channel, delivering the requests that rise with it. -/
def updChan (c : Fin 256) (x : Channel) (s : State) : State :=
  let o := chan s c
  let s := setChan s c x
  let s := if !chReqS o && chReqS x then chDeliver (ward s c Fld.MBX_WARD_SEND) c s else s
  if !chReqR o && chReqR x then chDeliver (ward s c Fld.MBX_WARD_RECV) c s else s

/-- The hardware sets latched bits and doorbell bits of a channel: they stay set against a clear of the same beat (R383, R384). -/
def chSet (c : Fin 256) (irq : BitVec 3) (db : Word) (x : Channel) (s : State) : State :=
  let t := (s.hub (chHub c)).beat
  let now := x.setAt = t
  updChan c { x with
    irq := x.irq ||| irq, dbPend := x.dbPend ||| db, setAt := t
    setIrq := if now then x.setIrq ||| irq else irq
    setDb := if now then x.setDb ||| db else db } s

/-- The registers of a channel page as fields (Table 13.6); no register elsewhere (R53). -/
def chFields (off : Nat) : List RField := Fld.tblCH.filter (·.covers off)

/-- The bytes of the transmit buffer. -/
def txBytes (x : Channel) (n : Nat) : List Byte := ((List.range 64).flatMap (fun k => bytesOf 4 (mgetD x.tx k 0).toNat)).take n

/-- The sending end sends its composed message (R382). -/
def chSend (c : Fin 256) (s : State) : State :=
  let x := chan s c
  updChan c { x with sent := x.sent ++ [⟨x.txSeq, txBytes x x.txLen⟩], txSeq := (x.txSeq + 1) % 65536 } s

/-- The receiving end removes the oldest message (R383): EMPTY is set when COUNT falls from 1 to 0. -/
def chPop (c : Fin 256) (s : State) : State :=
  let x := chan s c
  let q := x.queue.drop 1
  chSet c (if x.queue.length = 1 then 1#3 else 0) 0 { x with queue := q } s

/-- The checks of a channel write beyond its access types: the end that owns the register, and the channel's state (R381
to R384). -/
def chVerdict (s : State) (acc : Accessor) (c : Fin 256) (off : Nat) (v : Word) : Verdict :=
  let ag := agentOf acc
  let snd := ag = ward s c Fld.MBX_WARD_SEND
  let rcv := ag = ward s c Fld.MBX_WARD_RECV
  let x := chan s c
  if ag = 0 ∨ ¬ (snd ∨ rcv) then { state := true }
  else if off = 0x004 then
    let go := v.getLsbD 0
    let pop := v.getLsbD 1
    { state := (go && (!snd || ward s c Fld.MBX_WARD_EN = 0)) || (pop && (!rcv || x.queue = []))
      range := (go && pop) || (go && decide (256 < x.txLen))
      zero := go && x.txLen = 0
      bounds := go && !pop && chFull s c }
  else if off = 0x008 then { state := !snd }
  else if off = 0x010 then
    { state := (!snd && v.getLsbD 0 ≠ x.irqEn.getLsbD 0) ||
        (!rcv && (v.getLsbD 1 ≠ x.irqEn.getLsbD 1 || v.getLsbD 2 ≠ x.irqEn.getLsbD 2)) }
  else if off = 0x018 then { state := !snd }
  else if off = 0x01C then { state := !rcv }
  else if off = 0x020 ∨ (0x100 ≤ off ∧ off < 0x200) then { state := !snd }
  else if off = 0x00C ∨ (0x200 ≤ off ∧ off < 0x300) then { state := !rcv }
  else {}

/-- The effect of an accepted channel write. -/
def chEffect (acc : Accessor) (c : Fin 256) (off : Nat) (v : Word) (s : State) : State :=
  let ag := agentOf acc
  let snd := ag = ward s c Fld.MBX_WARD_SEND
  let rcv := ag = ward s c Fld.MBX_WARD_RECV
  let x := chan s c
  let now := x.setAt = (s.hub (chHub c)).beat
  if off = 0x004 then
    if v.getLsbD 0 then chSend c s else if v.getLsbD 1 then chPop c s else s
  else if off = 0x008 then setChan s c { x with txLen := v.toNat % 512 }
  else if off = 0x010 then updChan c { x with irqEn := v.setWidth 3 } s
  else if off = 0x014 then
    let clr : BitVec 3 := (if snd then v.setWidth 3 &&& 1#3 else 0) ||| (if rcv then v.setWidth 3 &&& 6#3 else 0)
    setChan s c { x with irq := x.irq &&& ~~~(clr &&& ~~~(if now then x.setIrq else 0)) }
  else if off = 0x018 then chSet c (if x.dbPend = 0 ∧ v ≠ 0 then 4#3 else 0) v x s
  else if off = 0x01C then setChan s c { x with dbPend := x.dbPend &&& ~~~(v &&& ~~~(if now then x.setDb else 0)) }
  else if 0x100 ≤ off ∧ off < 0x200 then setChan s c { x with tx := mput x.tx ((off - 0x100) / 4) v }
  else s

/-- A refused GO of a full channel (R382): counted in the channel and the block, and answered by the sender's path. -/
def chRefuseFull (acc : Accessor) (c : Fin 256) (s : State) : State :=
  let x := chan s c
  let s := setChan s c { x with rejCnt := min (x.rejCnt + 1) 0xFFFF }
  let s := s.incSat (hu (chHub c) .MBX) Fld.MBX_STAT_FULL_CNT
  match acc with
  | .host h => s.emit (.aer h (c.val * 0x800 + 4))
  | .hubCore h => s.emit (.slaveError (4 + h.num))
  | .planeCore p => s.emit (.slaveError p.val)
  | .cc _ _ => s

/-- Whether an accessor reaches the channels of a hub: the hub has power, its hasp leaves it readable, a host's port is up and not in D3hot
(R372), a host's writes are discarded in the deadbolt state, and management cores run (R56, R385, R409). (DESIGN CHOICE, log 95) -/
def chReach (s : State) (acc : Accessor) (h : HubId) : Bool :=
  s.powered (hu h .MBX) && (match acc with
    | .host x => s.dead.isNone && s.powered (hu x .PCI) && s.on (hu x .PCI) Fld.PCI_STAT_LINK_UP && !s.on (hu x .PCI) Fld.PCI_STAT_D3HOT
    | .cc _ _ => false
    | .planeCore p => s.powered (pu p .MGC) && !s.fenced (pu p .MGC) && !linkShut s h p
    | .hubCore x => s.powered (hu x .HUB) && !s.hubFenced x)

/-- A 32-bit write to a channel page (R43, R380 to R384). (DESIGN CHOICE, log 95) -/
def chWrite (acc : Accessor) (c : Fin 256) (off : Nat) (be : BitVec 4) (v : Word) (s : State) : State :=
  let h := chHub c
  let u := hu h .MBX
  if !chReach s acc h then (match acc with
    | .host p => if s.dead.isSome then s.emit (.aer p (c.val * 0x800 + off)) else s
    | _ => s)
  else
    let fs := chFields off
    match firstReject (be ≠ 15#4 || off % 4 ≠ 0) fs.isEmpty (s.on u Fld.BLK_STAT_RST_BUSY) (s.fenced u)
        (chVerdict s acc c off v) (v &&& reservedMask fs ≠ 0) with
    | some code =>
      let s := reject u off code s
      if code = .bounds then chRefuseFull acc c s else s
    | none => chEffect acc c off v (s.inc u Fld.BLK_SEQ)

/-- CH_GO: the sending end writes GO (R382). -/
def execChGo (acc : Accessor) (c : Fin 256) (s : State) : Out := .next (chWrite acc c 0x004 15 1 s)

/-- CH_POP: the receiving end writes POP (R383). -/
def execChPop (acc : Accessor) (c : Fin 256) (s : State) : Out := .next (chWrite acc c 0x004 15 2 s)

/-- CH_DB_SET: the sending end rings doorbell bits (R384). -/
def execChDbSet (acc : Accessor) (c : Fin 256) (v : Word) (s : State) : Out := .next (chWrite acc c 0x018 15 v s)

/-- CH_DB_PEND: the receiving end clears doorbell bits (R384). -/
def execChDbPend (acc : Accessor) (c : Fin 256) (v : Word) (s : State) : Out := .next (chWrite acc c 0x01C 15 v s)

/-- MBX_VISIBLE: the oldest message sent and not yet visible becomes visible to the receiver (R382, R383). -/
def execMbxVisible (c : Fin 256) (s : State) : Out :=
  let x := chan s c
  match x.sent with
  | [] => .next s
  | m :: r => .next (chSet c 2#3 0 { x with sent := r, queue := x.queue ++ [m] } s)

/-- A word of a channel page as an agent reads it (Table 13.6); an agent of neither end reads zero (R381). -/
def chRead (s : State) (acc : Accessor) (c : Fin 256) (off : Nat) : Word :=
  let ag := agentOf acc
  let snd := ag ≠ 0 ∧ ag = ward s c Fld.MBX_WARD_SEND
  let rcv := ag ≠ 0 ∧ ag = ward s c Fld.MBX_WARD_RECV
  let x := chan s c
  let shut : Bool := match acc with
    | .planeCore p => linkShut s (chHub c) p
    | _ => false
  if ¬ (snd ∨ rcv) ∨ !s.powered (hu (chHub c) .MBX) ∨ shut then 0
  else if off = 0x000 then
    BitVec.ofNat 32 (x.queue.length + 16 * ward s c Fld.MBX_WARD_DEPTH + 256 * ward s c Fld.MBX_WARD_EN +
      512 * b2n (x.queue.length = ward s c Fld.MBX_WARD_DEPTH) + 65536 * x.rejCnt)
  else if off = 0x008 then (if snd then BitVec.ofNat 32 x.txLen else 0)
  else if off = 0x00C then (if rcv then match x.queue with
    | m :: _ => BitVec.ofNat 32 (m.data.length + 65536 * m.seq)
    | [] => 0 else 0)
  else if off = 0x010 then x.irqEn.setWidth 32
  else if off = 0x014 then x.irq.setWidth 32
  else if off = 0x01C then (if rcv then x.dbPend else 0)
  else if off = 0x020 then (if snd then BitVec.ofNat 32 x.txSeq else 0)
  else if 0x100 ≤ off ∧ off < 0x200 then (if snd then mgetD x.tx ((off - 0x100) / 4) 0 else 0)
  else if 0x200 ≤ off ∧ off < 0x300 then (if rcv then match x.queue with
    | m :: _ => BitVec.ofNat 32 (ofBytes (sliceB m.data (off - 0x200) 4))
    | [] => 0 else 0)
  else 0

/-- The channels of a hub, and what is queued in them, are lost (R381, R385). -/
def loseChannels (h : HubId) (s : State) : State := { s with mbx := s.mbx.filter (fun e => ¬ (e.1 / 128 = h.num)) }

/-- The agents of a ward entry are agents of Table 13.5, and not the same (R381). -/
def wardAgentsOk (v : Nat) : Bool :=
  let known (x : Nat) : Bool := (1 ≤ x && x ≤ 4) || (8 ≤ x && x ≤ 11)
  known (v % 16) && known (v / 16 % 16) && v % 16 ≠ v / 16 % 16

/-- The checks of a ward write (R381): agents of Table 13.5, distinct; no change of DEPTH or an agent while messages are
queued. -/
def mbxVerdict (s : State) (h : HubId) (off : Nat) (v : Word) : Verdict :=
  if 0x400 ≤ off ∧ off < 0x600 then
    let k := (off - 0x400) / 4
    let c : Fin 256 := ⟨(128 * h.num + k) % 256, Nat.mod_lt _ (by decide)⟩
    let same := v.toNat % 16 = ward s c Fld.MBX_WARD_SEND ∧ v.toNat / 16 % 16 = ward s c Fld.MBX_WARD_RECV ∧
      v.toNat / 256 % 16 = ward s c Fld.MBX_WARD_DEPTH
    { state := chCount s c ≠ 0 && !decide same, range := !wardAgentsOk v.toNat }
  else {}

end Sys2Proof.Machine
end

