-- ==== Sys2Proof/Machine/Flags.lean ====
section
/-! DEFINITION. Sys2Proof/Machine/Flags.lean: the interrupt conditions of every block (R50), their latching in BLK_IRQ_STAT (R51), and
the requests that reach the ports and the management cores (R378, R379). -/

namespace Sys2Proof.Machine

/-- Conditions as a number: bit i is the i-th. -/
def bitsOf (l : List Bool) : Nat := l.foldr (fun b a => b2n b + 2 * a) 0

/-- The interrupt bits below 29 that a block defines. -/
def irqDefined : Blk → Nat
  | .PLN => 3 | .FTM => 7 | .TRF => 7 | .LAT => 1 | .KSQ => 31 | .TMB => 7 | .FMC => 1 | .CCX => 15 | .GRQ => 7 | .SYN => 15 | .FPT => 15
  | .SDS => 1 | .RTE => 15 | .SWC => 15 | .PMU => 7 | .HUB => 3 | .PCI => 7 | .SVC => 3 | .FCL => 7 | .PWR => 7 | .KPL => 7 | _ => 0

/-- The conditions of a plane block's own bits, but for those raised for one beat. -/
def planeIrq (s : State) (p : PlaneId) (b : Blk) (n : Nat) : List Bool :=
  let u := pu p b
  match b with
  | .FTM => let st := s.get u Fld.FTM_STAT_STATE
            [st = 3, st = 4, st ≠ 3 && st ≠ 4]
  | .LAT => [s.get64 u Fld.LAT_DONE_LO Fld.LAT_DONE_HI ≠ 0]
  | .KSQ =>
    let a := bankSt s p (activeBank s p)
    [bankSt s p (standbyBank s p) = 2, [0, 1].any (fun i => s.get u (Fld.KSQ_B_STAT_RCODE.at i) ≠ 0), a = 4, a = 7 || a = 5,
      s.on u Fld.KSQ_STAT_GAP_HIT]
  | .TMB => let t := uTMB p n
            [sliceRole s p n = 3, sliceRole s p n = 2, s.get t Fld.TMB_OVR_OVR_CNT ≠ 0]
  | .FMC => [s.on (uFMC p n) Fld.FMC_STAT_HOT]
  | .CCX =>
    let t := uCCX p n
    let h := s.get t Fld.CCX_STAT_HCAUSE
    [coreSt s p n = 0 && (h = 2 || h = 3 || h = 5), coreSt s p n = 4, s.get t Fld.CCX_MSG_DROP ≠ 0, s.on t Fld.CCX_STAT_IMG_BAD]
  | .GRQ => [(List.range 32).any (fun k => s.get u (Fld.GRQ_CPEND.at k) ≠ 0), s.get u Fld.GRQ_DISCARD_FRAME_DISC ≠ 0,
      s.get u Fld.GRQ_DISCARD_LAUNCH_REF ≠ 0]
  | .SYN => (List.range 4).map (fun k => s.on u (Fld.SYN_WATCH_CFG_EN.at k) &&
      syncMet (syncVal s p (s.get u (Fld.SYN_WATCH_CFG_OBJ.at k))) (s.reg u (0x084 + 8 * k)))
  | .FPT =>
    let t := uFPT p n
    let st := if upperLane s p n then 0 else portState s p n
    [st = 3, st = 4, st = 5, !upperLane s p n && decide (s.get t Fld.FPT_STAT_WIDTH_NOW < s.get t Fld.FPT_CFG_WIDTH)]
  | .SDS => [(List.range 64).any (fun i => (match portOf s p (64 * n + i) with
      | some q => portState s p q = 3 && !s.on (uFPT p (64 * n + i)) Fld.FPT_LANE_LOCK
      | none => false))]
  | .RTE => [rteState s p = 4, s.on u Fld.RTE_STAT_DRAIN_FAIL, rteState s p = 0,
      s.get u Fld.RTE_ROB_CNT_LATE ≠ 0 || s.get u Fld.RTE_ROB_CNT_FORCE ≠ 0]
  | .SWC => [overcommit s p, s.get u Fld.SWC_AUDIT_LEAK_CNT ≠ 0, s.get u Fld.SWC_DISC_B_AGED ≠ 0,
      epochCount s p (1 - s.get u Fld.SWC_EPOCH_CUR) = 0]
  | .PMU =>
    let ovf (k : Nat) : Bool := s.on u (Fld.PMU_C_CFG_OVF.at k)
    let irq (k : Nat) : Bool := s.on u (Fld.PMU_C_CFG_IRQ.at k)
    [(List.range 16).any (fun k => ovf k && irq k), (List.range 32).any (fun k => ovf (16 + k) && !irq (16 + k)),
      (List.range 4).any (fun h => (List.range 64).any (fun i => s.get u (Fld.PMU_BIN_COUNT.atPage (1 + h) i) = 2 ^ 32 - 1))]
  | _ => []

/-- The conditions of a hub block's own bits, but for those raised for one beat. -/
def hubIrq (s : State) (h : HubId) (b : Blk) : List Bool :=
  let u := hu h b
  match b with
  | .HUB => [(List.range 4).any (fun p => s.domOn (4 + 7 * p) && !s.on u (Fld.HUB_LINK_STAT_UP.at p)), !s.on u Fld.HUB_PEER_PEER_OK]
  | .PCI => [(s.hub h).pci.holderChg, leaseBelow s || s.lease.low, !s.on u Fld.PCI_STAT_LINK_UP]
  | .FCL => [(List.range 64).any (fun k => s.get u (Fld.FCL_PEND.at k) ≠ 0), (s.hub h).views.any (fun e => !e.2.pairOk),
      !s.on u Fld.FCL_STAT_PEER_OK]
  | .PWR => [s.get u Fld.PWR_FEED_A_STATE ≠ 3 || s.get u Fld.PWR_FEED_B_STATE ≠ 3, s.get u Fld.PWR_DOM_PEND ≠ 0, !s.on u Fld.PWR_HOLD_HOLDUP_OK]
  | .KPL => [false, s.get u Fld.KPL_STAT_DBG_LEVEL ≠ 0, s.on u Fld.KPL_STAT_CFG_MISMATCH]
  | .SVC => [!s.on u Fld.SVC_STAT_LINK_UP, (List.range 64).any (fun i => s.on u (Fld.SVC_QP_ERR.at i))]
  | .TRF =>
    let src := s.get u Fld.TRF_CFG_REF_SRC
    [src = 1 && !s.on u Fld.TRF_STAT_REF_OK, src = 1 && !s.on u Fld.TRF_STAT_PPS_OK, src = 2 && !s.on u Fld.TRF_STAT_PTP_OK]
  | _ => []

/-- BLK_IRQ_RAW: the block's own conditions, those of the beat, and the three of every page (R50). -/
def rawIrq (s : State) (u : Nat) : Word :=
  match unitBlk u with
  | none => 0
  | some (b, n) =>
    let own := match unitPlane u with
      | some p => planeIrq s p b n
      | none => match unitHub u with
        | some h => hubIrq s h b
        | none => []
    let all := BitVec.ofNat 32 (bitsOf own % 2 ^ 29) ||| mgetD s.pulse u 0
    ((all ||| BitVec.ofNat 32 (b2n (s.fenced u) * 2 ^ 29)) ||| BitVec.ofNat 32 (b2n (s.get u Fld.BLK_ERR_CLASS ≠ 0) * 2 ^ 30)) |||
      BitVec.ofNat 32 (b2n (s.on u Fld.BLK_STAT_REJ) * 2 ^ 31)

/-- A block's interrupt request (R51). -/
def requestOf (s : State) (u : Nat) : Bool := s.powered u && s.get u Fld.BLK_IRQ_STAT ≠ 0

/-- Latch a block's interrupts (R51): every condition that is present and enabled sets its bit. A request that was not asserted
before and now is reaches the ports. -/
def latchWas (was : Bool) (u : Nat) (s : State) : State :=
  let old := s.reg u 0x018
  let now := old ||| (rawIrq s u &&& s.reg u 0x014)
  let s := if now = old then s else s.setReg u 0x018 now
  if !was && now ≠ 0 then requestRises u s else s

/-- Latch a block's interrupts, as they stand. (DEDUCED, log 9) -/
def latchIrq (u : Nat) (s : State) : State :=
  if s.reg u 0x014 = 0 ∨ ¬ s.powered u then s else latchWas (s.reg u 0x018 ≠ 0) u s

/-- Latch every block of a list and end its conditions of the beat. -/
def latchUnits (l : List Nat) (s : State) : State :=
  let t := l.foldl (fun t u => latchIrq u t) s
  { t with pulse := t.pulse.filter (fun e => !l.contains e.1) }

/-! ### Management cores (R379, R442) -/

/-- The agent code of a site's management cores (Table 13.5). -/
def siteAgent (u : Nat) : Nat :=
  match unitPlane u with
  | some p => 8 + p.val
  | none => match unitHub u with
    | some h => 3 + h.num
    | none => 0

/-- A mailbox channel's request toward an agent (R383). -/
def chRequest (s : State) (agent : Nat) (c : Fin 256) : Bool :=
  let x := chan s c
  (chReqS x && ward s c Fld.MBX_WARD_SEND = agent) || (chReqR x && ward s c Fld.MBX_WARD_RECV = agent)

/-- The asserted sources of a site, lowest first: its blocks, and the channels that its management cores own an end of. -/
def siteSources (s : State) (u : Nat) : List Nat :=
  let blocks := match unitPlane u with
    | some p => planeUnits p
    | none => match unitHub u with
      | some h => hubUnits h
      | none => []
  blocks.filter (requestOf s) ++ ((List.finRange 256).filter (chRequest s (siteAgent u))).map (fun c => 0x600 + c.val)

/-- MGC_NEXT of a core: the lowest asserted source that the core enables, 0xFFF when none. -/
def mgcNext (s : State) (u n : Nat) : Nat :=
  ((siteSources s u).find? (fun x => bit (s.get u (Fld.MGC_IE.at (64 * n + x / 32))) (x % 32))).getD 0xFFF

end Sys2Proof.Machine
end

