-- ==== Sys2Proof/Machine/Latch.lean ====
section
/-! DEFINITION. Sys2Proof/Machine/Latch.lean: the latch barrier (R89 to R95). -/

namespace Sys2Proof.Machine

/-- A latch message (Table 3.7). The reserved bytes are those of bytes 16 to 255 and bits [15:12] of bytes 6 and 7. -/
structure LatchMsg where
  type : Nat
  gen : Nat
  entry : Nat
  srcMod : Nat
  pidx : Nat
  ft : Nat
  reserved : Nat
  deriving DecidableEq, Repr

/-- The payload of a latch message, little-endian (Table 3.7). -/
def LatchMsg.encode (m : LatchMsg) : Payload :=
  payloadOf (bytesOf 1 m.type ++ bytesOf 1 m.gen ++ bytesOf 2 m.entry ++ bytesOf 2 m.srcMod ++ bytesOf 2 m.pidx ++
    bytesOf 8 m.ft)

/-- The latch message in a payload (Table 3.7). -/
def latchDecode (d : Payload) : LatchMsg :=
  let v := d.toNat
  { type := bits v 7 0, gen := bits v 15 8, entry := bits v 31 16, srcMod := bits v 47 32, pidx := bits v 59 48,
    ft := bits v 127 64, reserved := bits v 63 60 + bits v 2047 128 }

/-- ENT_STAT.STATE of an entry. -/
def entState (s : State) (p : PlaneId) (e : Nat) : Nat := s.get (pu p .LAT) (Fld.ENT_STAT_STATE.at e)

/-- An entry is IDLE or terminal (R95). -/
def entQuiet (s : State) (p : PlaneId) (e : Nat) : Bool := entState s p e = 0 || 4 ≤ entState s p e

/-- An entry's deadline (ENT_TMO). -/
def entDeadline (s : State) (p : PlaneId) (e : Nat) : Nat :=
  s.get64 (pu p .LAT) (Fld.ENT_TMO_LO.at e) (Fld.ENT_TMO_HI.at e)

/-- This module's address (RTE_ID.MOD_ADDR). -/
def modAddr (s : State) (p : PlaneId) : Nat := s.get (pu p .RTE) Fld.RTE_ID_MOD_ADDR

/-- The entry's bookkeeping. -/
def latchEnt (s : State) (p : PlaneId) (e : Nat) : LatchEntry := mgetD (s.pl p).latch e {}

/-- Change an entry's bookkeeping. -/
def modLatch (p : PlaneId) (e : Nat) (f : LatchEntry → LatchEntry) (s : State) : State :=
  s.modPl p (fun x => { x with latch := mput x.latch e (f (mgetD x.latch e {})) })

/-- Send a latch message of an entry to modules (R94): one frame, stored once (R348). -/
def sendLatches (p : PlaneId) (e type : Nat) (dsts : List Nat) (ft : Nat) (s : State) : State :=
  let u := pu p .LAT
  let m : LatchMsg := { type := type, gen := s.get u (Fld.ENT_CTRL_GEN.at e), entry := e, srcMod := modAddr s p,
                        pidx := s.get u (Fld.ENT_CFG_PIDX.at e), ft := ft, reserved := 0 }
  if dsts = [] then s
  else s.modPl p (fun x => { x with unitFrames := x.unitFrames ++ [{ unit := u, cls := 1, dests := dsts, cells := [m.encode] }] })

/-- Send a latch message to one module. -/
def sendLatch (p : PlaneId) (e type dst ft : Nat) (s : State) : State := sendLatches p e type [dst] ft s

/-- The modules of the participants that a root has counted, itself excepted. -/
def othersCounted (s : State) (p : PlaneId) (e : Nat) : List Nat :=
  ((latchEnt s p e).counted.filter (·.1 ≠ s.get (pu p .LAT) (Fld.ENT_CFG_PIDX.at e))).map (·.2)

/-- An entry enters a terminal state, and its LAT_DONE bit is set (R93); the beat is kept for later answers (R94). -/
def entEnd (p : PlaneId) (e st : Nat) (s : State) : State :=
  let s := modLatch p e (fun x => { x with abortAt := s.ft p }) (s.put (pu p .LAT) (Fld.ENT_STAT_STATE.at e) st)
  let f := if e < 32 then Fld.LAT_DONE_LO else Fld.LAT_DONE_HI
  drainOutcome p e st (keyLatchEnd p e st (s.put (pu p .LAT) f (s.get (pu p .LAT) f ||| 2 ^ (e % 32))))

/-- A root sends ABORT to every participant it has counted, itself excepted (R93). -/
def abortCounted (p : PlaneId) (e : Nat) (s : State) : State :=
  sendLatches p e 3 (othersCounted s p e) (s.ft p) s

/-- The deadline of a waiting entry has passed (R88, R93): the beat is after it, and after that of the ARM write. -/
def entLate (s : State) (p : PlaneId) (e : Nat) : Bool :=
  let d := entDeadline s p e
  (entState s p e = 1 || entState s p e = 2) && decide (d < s.ft p) && decide ((latchEnt s p e).armedAt < s.ft p) && d ≠ 2 ^ 64 - 1

/-- A waiting entry enters TIMEOUT; a root aborts the participants it has counted (R93). -/
def entTimeout (p : PlaneId) (e : Nat) (s : State) : State :=
  entEnd p e 5 (if s.on (pu p .LAT) (Fld.ENT_CTRL_ROOT.at e) then abortCounted p e s else s)

/-- The timeout takes effect at the start of the beat after the deadline, before anything else that reaches the entry (R88). -/
def entLapse (p : PlaneId) (e : Nat) (s : State) : State := if entLate s p e then entTimeout p e s else s

/-- An entry becomes STRUCK with strike time `t`; ACT_KEY supplies it to the keyway (R92, R93). -/
def entStruck (p : PlaneId) (e t : Nat) (s : State) : State :=
  let u := pu p .LAT
  let s := (s.put u (Fld.ENT_STAT_STATE.at e) 3).put64 u (Fld.ENT_STRIKE_LO.at e) (Fld.ENT_STRIKE_HI.at e) (t % 2 ^ 64)
  if s.on u (Fld.ENT_CTRL_ACT_KEY.at e) then keyLatchStrike p e t s else s

/-- The strike time of R91: the last arrival's beat plus MARGIN, rounded up to a slot boundary. -/
def strikeTime (a margin : Nat) : Nat := (a + margin + 19) / 20 * 20

/-- The root's count reaches N: it fixes the strike time and sends STRIKE to every other participant (R91). -/
def strikeFix (p : PlaneId) (e : Nat) (s : State) : State :=
  let u := pu p .LAT
  let t := strikeTime (s.ft p) (s.get u Fld.LAT_CFG_MARGIN)
  entStruck p e t (sendLatches p e 2 (othersCounted s p e) t s)

/-- The root counts a participant once (R91). -/
def countArrival (p : PlaneId) (e pidx mod : Nat) (s : State) : State :=
  if (latchEnt s p e).counted.any (·.1 = pidx) then s
  else
    let s := modLatch p e (fun x => { x with counted := x.counted ++ [(pidx, mod)] }) s
    let n := (latchEnt s p e).counted.length
    let s := s.put (pu p .LAT) (Fld.ENT_STAT_ARR_CNT.at e) n
    if s.get (pu p .LAT) (Fld.ENT_CFG_N.at e) ≤ n then strikeFix p e s else s

/-- One local arrival (R90): the one that completes LOCAL_N moves the entry to WAIT_STRIKE and sends or counts ARRIVE.
Arrivals beyond LOCAL_N are ignored. -/
def localArrive (p : PlaneId) (e : Nat) (s : State) : State :=
  let s := entLapse p e s
  let u := pu p .LAT
  if entState s p e = 1 then
    let n := s.get u (Fld.ENT_STAT_LOCAL_CNT.at e) + 1
    let s := s.put u (Fld.ENT_STAT_LOCAL_CNT.at e) n
    if n < s.get u (Fld.ENT_CTRL_LOCAL_N.at e) then s
    else
      let s := s.put u (Fld.ENT_STAT_STATE.at e) 2
      if s.on u (Fld.ENT_CTRL_ROOT.at e) then countArrival p e (s.get u (Fld.ENT_CFG_PIDX.at e)) (modAddr s p) s
      else sendLatch p e 1 (s.get u (Fld.ENT_ROOT_ROOT_MOD.at e)) (s.ft p) (modLatch p e (fun x => { x with sentAt := s.ft p, doneAt := s.ft p }) s)
  else s

/-- ARM of an entry (Table 3.8): the counts and MISS clear and the entry waits for its local arrivals. -/
def entArm (p : PlaneId) (e : Nat) (s : State) : State :=
  let u := pu p .LAT
  let s := ((s.put u (Fld.ENT_STAT_LOCAL_CNT.at e) 0).put u (Fld.ENT_STAT_ARR_CNT.at e) 0).put u (Fld.ENT_STAT_MISS.at e) 0
  modLatch p e (fun _ => { armedAt := s.ft p }) (s.put u (Fld.ENT_STAT_STATE.at e) 1)

/-- ABORT written at an entry (R93, R95): IDLE, terminal and STRUCK entries ignore it. -/
def abortEntry (p : PlaneId) (e : Nat) (s : State) : State :=
  let s := entLapse p e s
  if entState s p e = 1 ∨ entState s p e = 2 then
    let s := if s.on (pu p .LAT) (Fld.ENT_CTRL_ROOT.at e) then abortCounted p e s
      else sendLatch p e 3 (s.get (pu p .LAT) (Fld.ENT_ROOT_ROOT_MOD.at e)) (s.ft p) s
    entEnd p e 6 s
  else s

/-- A message is discarded and counted (R93). -/
def discardLatch (p : PlaneId) (s : State) : State := s.incSat (pu p .LAT) Fld.LAT_STAT_DISCARD_CNT

/-- The checks common to every latch message (R91, R93): known TYPE, reserved bytes 0, ENTRY below 64, the entry's GEN,
and an entry that is not IDLE. The spec says the last of ARRIVE alone. (DESIGN CHOICE, log 111) -/
def latchOk (s : State) (p : PlaneId) (m : LatchMsg) : Bool :=
  decide (1 ≤ m.type ∧ m.type ≤ 4 ∧ m.reserved = 0 ∧ m.entry < 64) &&
    m.gen = s.get (pu p .LAT) (Fld.ENT_CTRL_GEN.at m.entry) && entState s p m.entry ≠ 0

/-- ARRIVE reaches an entry (R91, R93). -/
def latchArrive (p : PlaneId) (m : LatchMsg) (s : State) : State :=
  let u := pu p .LAT
  if !latchOk s p m || !s.on u (Fld.ENT_CTRL_ROOT.at m.entry) || s.get u (Fld.ENT_CFG_N.at m.entry) ≤ m.pidx then discardLatch p s
  else match entState s p m.entry with
    | 5 => sendLatch p m.entry 3 m.srcMod (latchEnt s p m.entry).abortAt s
    | 6 => sendLatch p m.entry 3 m.srcMod (latchEnt s p m.entry).abortAt s
    | 3 => sendLatch p m.entry 2 m.srcMod (s.get64 u (Fld.ENT_STRIKE_LO.at m.entry) (Fld.ENT_STRIKE_HI.at m.entry)) s
    | 4 => sendLatch p m.entry 2 m.srcMod (s.get64 u (Fld.ENT_STRIKE_LO.at m.entry) (Fld.ENT_STRIKE_HI.at m.entry)) s
    | 7 => s
    | _ => countArrival p m.entry m.pidx m.srcMod s

/-- The last beat in which STRIKE for `t` is accepted (R92): S - 64, or S - 4,096 with ACT_KEY. -/
def strikeLimit (s : State) (p : PlaneId) (e t : Nat) : Int :=
  (t : Int) - (if s.on (pu p .LAT) (Fld.ENT_CTRL_ACT_KEY.at e) then 4096 else 64)

/-- STRIKE reaches an entry (R92, R93). -/
def latchStrike (p : PlaneId) (m : LatchMsg) (s : State) : State :=
  let u := pu p .LAT
  if !latchOk s p m || s.on u (Fld.ENT_CTRL_ROOT.at m.entry) then discardLatch p s
  else if entState s p m.entry = 1 ∨ entState s p m.entry = 2 then
    if (s.ft p : Int) ≤ strikeLimit s p m.entry m.ft then entStruck p m.entry m.ft s
    else entEnd p m.entry 7 (sendLatch p m.entry 4 (s.get u (Fld.ENT_ROOT_ROOT_MOD.at m.entry)) (s.ft p) s)
  else s

/-- ABORT reaches an entry (R93): a STRUCK or terminal entry ignores it, a root passes it on. -/
def latchAbort (p : PlaneId) (m : LatchMsg) (s : State) : State :=
  if !latchOk s p m then discardLatch p s
  else if entState s p m.entry = 1 ∨ entState s p m.entry = 2 then
    let s := if s.on (pu p .LAT) (Fld.ENT_CTRL_ROOT.at m.entry) then abortCounted p m.entry s else s
    entEnd p m.entry 6 s
  else s

/-- MISSED reaches the root (R93). -/
def latchMissed (p : PlaneId) (m : LatchMsg) (s : State) : State :=
  if !latchOk s p m || !s.on (pu p .LAT) (Fld.ENT_CTRL_ROOT.at m.entry) then discardLatch p s
  else (s.put (pu p .LAT) (Fld.ENT_STAT_MISS.at m.entry) 1).incSat (pu p .LAT) Fld.LAT_STAT_MISSED_CNT

/-- A latch message of any TYPE reaches the plane's LAT block. -/
def latchMessage (p : PlaneId) (m : LatchMsg) (s : State) : State :=
  let s := if latchOk s p m then entLapse p m.entry s else s
  match m.type with
  | 1 => latchArrive p m s
  | 2 => latchStrike p m s
  | 3 => latchAbort p m s
  | 4 => latchMissed p m s
  | _ => discardLatch p s

/-- A payload of one TYPE becomes visible: an unknown TYPE is discarded, and another known TYPE is not this message. -/
def latchTyped (p : PlaneId) (type : Nat) (f : LatchMsg → State → State) (d : Payload) (s : State) : State :=
  let m := latchDecode d
  if m.type = type then f m (if latchOk s p m then entLapse p m.entry s else s) else if 1 ≤ m.type ∧ m.type ≤ 4 then s else discardLatch p s

/-- LATCH_ARRIVE_MSG: an ARRIVE payload becomes visible at the plane (R91). -/
def execLatchArriveMsg (p : PlaneId) (d : Payload) (s : State) : Out := .next (latchTyped p 1 (latchArrive p) d s)

/-- LATCH_STRIKE_MSG: a STRIKE payload becomes visible (R92). -/
def execLatchStrikeMsg (p : PlaneId) (d : Payload) (s : State) : Out := .next (latchTyped p 2 (latchStrike p) d s)

/-- LATCH_ABORT_MSG: an ABORT payload becomes visible (R93). -/
def execLatchAbortMsg (p : PlaneId) (d : Payload) (s : State) : Out := .next (latchTyped p 3 (latchAbort p) d s)

/-- LATCH_MISSED_MSG: a MISSED payload becomes visible (R93). -/
def execLatchMissedMsg (p : PlaneId) (d : Payload) (s : State) : Out := .next (latchTyped p 4 (latchMissed p) d s)

/-- LATCH_ARRIVE_RESEND: a non-root entry in WAIT_STRIKE repeats ARRIVE every 65,536 beats (R90). -/
def execLatchArriveResend (p : PlaneId) (e : Fin 64) (s : State) : Out :=
  let x := latchEnt s p e.val
  if entState s p e.val = 2 ∧ ¬ s.on (pu p .LAT) (Fld.ENT_CTRL_ROOT.at e.val) ∧ x.sentAt + 65536 ≤ s.ft p then
    .next (sendLatch p e.val 1 (s.get (pu p .LAT) (Fld.ENT_ROOT_ROOT_MOD.at e.val)) x.doneAt
      (modLatch p e.val (fun x => { x with sentAt := s.ft p }) s))
  else .next s

/-- LATCH_RELEASE: at the start of beat S a STRUCK entry becomes RELEASED and performs its actions (R93). -/
def execLatchRelease (p : PlaneId) (e : Fin 64) (s : State) : Out :=
  let u := pu p .LAT
  if entState s p e.val = 3 ∧ s.ft p = s.get64 u (Fld.ENT_STRIKE_LO.at e.val) (Fld.ENT_STRIKE_HI.at e.val) then
    let s := if s.on u (Fld.ENT_CTRL_ACT_SYNC.at e.val) then syncUpdate p (1 + e.val) (s.get u (Fld.ENT_ROOT_SYNC_IDX.at e.val)) false 1 s else s
    .next (entEnd p e.val 4 s)
  else .next s

/-- LATCH_TIMEOUT: the deadline has passed before the entry is STRUCK; a deadline already past at the ARM write takes effect from
the next beat (R88, R93). -/
def execLatchTimeout (p : PlaneId) (e : Fin 64) (s : State) : Out :=
  .next (entLapse p e.val s)

/-- The number of ENT_CTRL command bits a write sets. -/
def entCmds (v : Word) : Nat := b2n (v.getLsbD 0) + b2n (v.getLsbD 1) + b2n (v.getLsbD 2)

/-- The checks of LAT writes (R95). (DEDUCED, log 75) -/
def latVerdict (s : State) (p : PlaneId) (off : Nat) (v : Word) : Verdict :=
  if off < 0x400 then {}
  else
    let e := (off - 0x400) / 0x20
    let r := (off - 0x400) % 0x20
    let u := pu p .LAT
    if r = 0 then
      let arm := v.getLsbD 0
      let cfgOnly := entCmds v = 0
      { state := (arm && (!s.on (pu p .PLN) Fld.PLN_STATE_FT_LOCKED || !entQuiet s p e)) || (cfgOnly && !entQuiet s p e)
        range := decide (1 < entCmds v) ||
          (arm && v.getLsbD 4 && (decide (s.get u (Fld.ENT_CFG_N.at e) ≤ s.get u (Fld.ENT_CFG_PIDX.at e)) ||
            (v.getLsbD 6 && decide (s.get u Fld.LAT_CFG_MARGIN < 4160))))
        -- LOCAL_N is a count where the write takes it: ARRIVE and ABORT carry no configuration (R95, R219).
        zero := (!v.getLsbD 1 && !v.getLsbD 2 && fieldGet v Fld.ENT_CTRL_LOCAL_N = 0) || (arm && s.get u (Fld.ENT_CFG_N.at e) = 0) }
    else if r ≤ 0x10 then { state := !entQuiet s p e }
    else {}

/-- The effects of LAT writes: an entry's command (R95). A write that sets ABORT or ARRIVE changes no configuration
field; the store of the register has already kept them (`latKeep`). -/
def latEffect (p : PlaneId) (off : Nat) (v : Word) (s : State) : State :=
  if 0x400 ≤ off ∧ (off - 0x400) % 0x20 = 0 then
    let e := (off - 0x400) / 0x20
    if v.getLsbD 0 then entArm p e s
    else if v.getLsbD 1 then abortEntry p e s
    else if v.getLsbD 2 then localArrive p e s
    else s
  else s

/-- A write that leaves the register's stored fields unchanged (R95). -/
def latKeep (off : Nat) (v : Word) : Bool :=
  0x400 ≤ off && (off - 0x400) % 0x20 = 0 && (v.getLsbD 1 || v.getLsbD 2)

end Sys2Proof.Machine
end

