-- ==== Sys2Proof/Machine/Pmu.lean ====
section
/-! DEFINITION. Sys2Proof/Machine/Pmu.lean: counters, snapshots, histograms and slot accounting (R445 to R457). -/

namespace Sys2Proof.Machine

/-! ### Registers -/

/-- The low and high count registers of a counter. -/
def cntOf (s : State) (p : PlaneId) (k : Nat) : Nat := s.get64 (pu p .PMU) (Fld.PMU_C_CNT_LO.at k) (Fld.PMU_C_CNT_HI.at k)
def setCnt (p : PlaneId) (k v : Nat) (s : State) : State := s.put64 (pu p .PMU) (Fld.PMU_C_CNT_LO.at k) (Fld.PMU_C_CNT_HI.at k) v

/-- A counter's CFG for the events of this beat (R448): as it was before a write of the beat. -/
def cfgOf (s : State) (p : PlaneId) (k : Nat) : Word := mgetD (s.pl p).pmuOld k (s.reg (pu p .PMU) (0x100 + 0x20 * k))

/-- Modes in which slot accounting counts (R453): BRINGUP, TEST and RECOVERY, and NORMAL while DBG_LEVEL bit 1 is set. -/
def tdAllowed (s : State) : Bool := s.bringup || s.cfg.opmode = 3

/-- The window of a counter whose WIN is 1 (R446). -/
def inWindow (s : State) (p : PlaneId) : Bool :=
  let u := pu p .PMU
  decide (s.get64 u Fld.PMU_WIN_START_LO_WS_LO Fld.PMU_WIN_START_HI_WS_HI ≤ s.ft p ∧ s.ft p ≤ s.get64 u Fld.PMU_WIN_END_LO_WE_LO Fld.PMU_WIN_END_HI_WE_HI)

/-! ### Counting (R446, R447, R450) -/

/-- The events of this beat for a plane counter (Table 16.1). -/
def planeCount (s : State) (p : PlaneId) (code inst : Nat) : Nat :=
  if code = 1 then 1
  else (((s.pl p).events.filter (fun e => e.1 = s.ft p && e.2.1 = code && (inst = 0xFF || e.2.2.1 = inst))).map (·.2.2.2)).sum

/-- The ACLK cycles that begin in this beat. -/
def beatCycles (s : State) (p : PlaneId) : List Nat :=
  let cps := cyclesPerSlot s p
  let a := cycleFrom cps (s.ft p)
  (List.range (cycleFrom cps (s.ft p + 1) - a)).map (a + ·)

/-- The events of a core in one ACLK cycle. (DEDUCED, log 79) -/
def coreCount (s : State) (p : PlaneId) (n code cyc : Nat) : Nat :=
  let st := coreSt s p n
  if code = 0x40 then b2n (st = 1 || st = 2)
  else
    let waits := if code = 0x43 ∧ st = 2 then (match (coreOf s p n).wait with
      | some w => b2n (decide (w.cyc ≤ cyc))
      | none => 0) else 0
    waits + (((s.pl p).coreEvents.filter (fun e => e.1 = n && e.2.1 = code && e.2.2.1 = cyc)).map (·.2.2.2)).sum

/-- Skid latency of a core event. -/
def skid (code : Nat) : Nat :=
  match code with
  | 0x40 => 3 | 0x43 => 3 | 0x44 => 4 | 0x46 => 4 | 0x47 => 4 | _ => 2

/-- A counter takes an increment: past 2^48 it reloads and sets OVF; whether it did. -/
def addCount (p : PlaneId) (k i : Nat) (s : State) : Bool × State :=
  let u := pu p .PMU
  let v := cntOf s p k + i
  if v < 2 ^ 48 then (false, if i = 0 then s else setCnt p k v s)
  else (true, setCnt p k ((s.get64 u (Fld.PMU_C_RLD_LO.at k) (Fld.PMU_C_RLD_HI.at k) + (v - 2 ^ 48)) % 2 ^ 48) (s.put u (Fld.PMU_C_CFG_OVF.at k) 1))

/-- mip of a core. -/
def csrMip : Nat := 0x344

/-- An overflow of a core counter with IRQ sets mip bit 13 of its core; instructions issue up to the skid latency after its cycle. -/
def raiseMip (p : PlaneId) (n last : Nat) (s : State) : State :=
  modCore p n (fun c =>
    let m := mgetD c.csr csrMip 0
    if m.getLsbD 13 then c else { c with csr := mput c.csr csrMip (m ||| (1#64 <<< 13)), irqAt := some last }) s

/-- A counter of this beat. -/
def tickCounter (p : PlaneId) (s : State) (k : Nat) : State :=
  let c := cfgOf s p k
  let code := fieldGet c (Fld.PMU_C_CFG_EVENT.at k)
  let inst := fieldGet c (Fld.PMU_C_CFG_INST.at k)
  if fieldGet c (Fld.PMU_C_CFG_EN.at k) = 0 ∨ (fieldGet c (Fld.PMU_C_CFG_WIN.at k) = 1 ∧ ¬ inWindow s p) then s
  else if k < 16 then (addCount p k (planeCount s p code inst) s).2
  else
    let n := (k - 16) / 2
    (beatCycles s p).foldl (fun t cyc =>
      let r := addCount p k (coreCount t p n code cyc) t
      if r.1 ∧ fieldGet c (Fld.PMU_C_CFG_IRQ.at k) = 1 then raiseMip p n (cyc + skid code) r.2 else r.2) s

/-- The bin of a sample (R452). -/
def binOf (v : Nat) : Nat := if v = 0 then 0 else min (Nat.log2 v + 1) 63

/-- A histogram takes the samples of its point. -/
def tickHist (p : PlaneId) (s : State) (h : Nat) : State :=
  let u := pu p .PMU
  let c := s.reg u (0x080 + 0x10 * h)
  if fieldGet c (Fld.PMU_HIST_CFG_EN.at h) = 0 then s
  else ((s.pl p).samples.reverse.filter (fun e => e.1 = fieldGet c (Fld.PMU_HIST_CFG_POINT.at h) && e.2.1 = fieldGet c (Fld.PMU_HIST_CFG_SEL.at h))).foldl
    (fun t e => (t.incSat u (Fld.PMU_BIN_COUNT.atPage (1 + h) (binOf e.2.2))).incSat u (Fld.PMU_HIST_N_SAMPLES.at h)) s

/-- Add to a slot-accounting count, which holds at 2^48 − 1. -/
def addTd (p : PlaneId) (lo hi : RField) (n : Nat) (s : State) : State :=
  let u := pu p .PMU
  if n = 0 then s else s.put64 u lo hi (min (s.get64 u lo hi + n) (2 ^ 48 - 1))

/-- Slot accounting of this beat (R453 to R455): codes 0x100 + j are the categories of the keyway and of a core. (DEDUCED, log 79) -/
def tickTd (p : PlaneId) (s : State) : State :=
  if ¬ s.on (pu p .PMU) Fld.PMU_TD_CTL_TD_EN ∨ ¬ tdAllowed s then s
  else
    let next := cycleFrom (cyclesPerSlot s p) (s.ft p + 1)
    let s := (List.range 5).foldl (fun t j => addTd p (Fld.PMU_TDK_LO_TD_LO.at j) (Fld.PMU_TDK_HI_TD_HI.at j) (planeCount t p (0x100 + j) 0xFF) t) s
    ((s.pl p).coreEvents.filter (fun e => decide (0x100 ≤ e.2.1 ∧ e.2.1 < 0x104 ∧ e.2.2.1 < next))).foldl (fun t e =>
      let j := 4 * e.1 + (e.2.1 - 0x100)
      addTd p (Fld.PMU_TDC_LO_TD_LO.at j) (Fld.PMU_TDC_HI_TD_HI.at j) e.2.2.2 t) s

/-- SNAP: every counter into its SNAP registers, after the increments of the beat (R449). -/
def takeSnap (p : PlaneId) (s : State) : State :=
  if (s.pl p).snapDue then
    (List.range 48).foldl (fun t k => t.put64 (pu p .PMU) (Fld.PMU_C_SNAP_LO.at k) (Fld.PMU_C_SNAP_HI.at k) (cntOf t p k)) s
  else s

/-- The end of a beat: counters, histograms and slot accounting take its events. -/
def pmuBeat (p : PlaneId) (s : State) : State :=
  let s := takeSnap p (tickTd p ((List.range 4).foldl (tickHist p) ((List.range 48).foldl (tickCounter p) s)))
  let now := s.ft p
  let next := cycleFrom (cyclesPerSlot s p) (now + 1)
  s.modPl p (fun x => { x with events := x.events.filter (fun e => decide (now < e.1)), coreEvents := x.coreEvents.filter (fun e => decide (next ≤ e.2.2.1)), samples := [], pmuOld := [], snapDue := false })

/-! ### Writes (R447 to R449, R452, R453, R457) -/

/-- Whether Table 16.1 gives an event to a counter's kind, and an INST to an event. -/
def eventOk (core : Bool) (code : Nat) : Bool := if core then decide (0x40 ≤ code ∧ code ≤ 0x47) else decide (1 ≤ code ∧ code ≤ 0x17)
def instOk (code inst : Nat) : Bool :=
  inst = 0xFF || (decide (0x04 ≤ code ∧ code ≤ 0x09) && decide (inst < 128)) || (decide (0x0A ≤ code ∧ code ≤ 0x0E) && decide (inst ≤ 16)) ||
    (decide (0x0F ≤ code ∧ code ≤ 0x11) && decide (inst ≤ 6))

/-- SEL values of a histogram point (Table 16.2). -/
def selOk (point sel : Nat) : Bool :=
  match point with
  | 2 => decide (sel ≤ 16)
  | 4 => decide (sel ≤ 6)
  | 5 => decide (sel < 128)
  | 6 => decide (sel < 16)
  | _ => true

/-- The checks of PMU writes. -/
def pmuVerdict (s : State) (p : PlaneId) (off : Nat) (v : Word) : Verdict :=
  let u := pu p .PMU
  let w := v.toNat
  if off = 0x040 then { range := bit w 0 && bit w 1 }
  else if off = 0x048 then { state := !tdAllowed s }
  else if 0x080 ≤ off ∧ off < 0x0C0 ∧ off % 16 = 0 then
    let old := s.reg u off
    let point := bits w 3 0
    { range := decide (6 < point) || !selOk point (bits w 13 4) || (point = 0 && bit w 16)
      state := old.getLsbD 16 && old.setWidth 14 ≠ v.setWidth 14 }
  else if 0x100 ≤ off ∧ off < 0x700 then
    let k := (off - 0x100) / 32
    let r := off % 32
    if r = 0 then
      let code := bits w 7 0
      let core := decide (16 ≤ k)
      let none' := !core && code = 0
      { range := (if none' then bit w 16 else !eventOk core code || !instOk code (bits w 15 8)) ||
          (bit w 19 && decide (s.get64 u Fld.PMU_WIN_END_LO_WE_LO Fld.PMU_WIN_END_HI_WE_HI < s.get64 u Fld.PMU_WIN_START_LO_WS_LO Fld.PMU_WIN_START_HI_WS_HI)) }
    else { state := decide (r ≤ 0x10) && s.on u (Fld.PMU_C_CFG_EN.at k) }
  else {}

/-- Clear the counts that a list of fields holds. -/
def clearFields (u : Nat) (l : List RField) (s : State) : State := l.foldl (fun t f => t.put u f 0) s

/-- The bins and the sample count of a histogram. -/
def histFields (h : Nat) : List RField := Fld.PMU_HIST_N_SAMPLES.at h :: (List.range 64).map (Fld.PMU_BIN_COUNT.atPage (1 + h))
/-- The slot-accounting counts. -/
def tdFields : List RField :=
  (List.range 5).flatMap (fun j => [Fld.PMU_TDK_LO_TD_LO.at j, Fld.PMU_TDK_HI_TD_HI.at j]) ++
    (List.range 64).flatMap (fun j => [Fld.PMU_TDC_LO_TD_LO.at j, Fld.PMU_TDC_HI_TD_HI.at j])
/-- The counts of the counters. -/
def cntFields : List RField := (List.range 48).flatMap (fun k => [Fld.PMU_C_CNT_LO.at k, Fld.PMU_C_CNT_HI.at k])

/-- The effects of PMU writes; `old` is the register before the write. -/
def pmuEffect (p : PlaneId) (off : Nat) (v old : Word) (s : State) : State :=
  let u := pu p .PMU
  if off = 0x040 then
    if v.getLsbD 0 then s.modPl p (fun x => { x with snapDue := true })
    else if v.getLsbD 1 then clearFields u (cntFields ++ (List.range 4).flatMap histFields ++ tdFields) s
    else s
  else if off = 0x048 ∧ v.getLsbD 1 then clearFields u tdFields s
  else if 0x080 ≤ off ∧ off < 0x0C0 ∧ off % 16 = 0 ∧ v.getLsbD 17 then clearFields u (histFields ((off - 0x080) / 16)) s
  else if 0x100 ≤ off ∧ off < 0x700 ∧ off % 32 = 0 then
    let k := (off - 0x100) / 32
    s.modPl p (fun x => { x with pmuOld := if (mget x.pmuOld k).isSome then x.pmuOld else mput x.pmuOld k old })
  else s

/-- Slot-accounting counts read 0 while they may not count (R453). -/
def pmuRead (s : State) (off : Nat) : Option Word :=
  if ((0x780 ≤ off ∧ off < 0x7A8) ∨ (0x800 ≤ off ∧ off < 0xA00)) ∧ ¬ tdAllowed s then some 0 else none

end Sys2Proof.Machine
end

