-- ==== Sys2Proof/Machine/Reports.lean ====
section
/-! DEFINITION. Sys2Proof/Machine/Reports.lean: report frames, collectors, acknowledgment, the peer connection, hasp lifts,
the deadbolt record and the ALIVE outputs (R395 to R400, R407 to R416). -/

namespace Sys2Proof.Machine

/-- The number of ones among the low `n` bits. -/
def ones : Nat → Nat → Nat
  | 0, _ => 0
  | n + 1, v => v % 2 + ones n (v / 2)

/-- The report frame of Table 14.3: START, SYNC, CLASS, RSEQ, UCHK, and PAR making the number of ones odd. -/
def reportFrame (cls rseq u : Nat) : Nat :=
  let v := 1 + 4 * (cls % 4) + 16 * (rseq % 16) + 256 * (u % 128)
  v + 2 ^ 15 * ((ones 15 v + 1) % 2)

/-- REPORT_FRAME_SEND: every 64 beats of its clock a unit sends one frame on each of its pairs (R395). -/
def execReportFrameSend (u : Nat) (s : State) : Out :=
  if (unitBlk u).isSome ∧ s.powered u ∧ (s.rp u).lastSent + 64 ≤ unitBeat s u then
    let f := BitVec.ofNat 16 (reportFrame (s.get u Fld.BLK_ERR_CLASS) (s.rp u).rseq u)
    .next (((s.emit (.report u .a f)).emit (.report u .b f)).modRp u (fun r => { r with lastSent := unitBeat s u }))
  else .next s

/-- Change a collector's view of a unit. -/
def modView (h : HubId) (u : Nat) (f : UnitView → UnitView) (s : State) : State :=
  s.modHub h (fun x => { x with views := mput x.views u (f (mgetD x.views u {})) })

/-- A unit's FCL_PEND bit at a collector (R397). -/
def setPend (h : HubId) (u : Nat) (on : Bool) (s : State) : State :=
  s.put (hu h .FCL) { (Fld.FCL_PEND.at (u / 32)) with hi := u % 32, lo := u % 32 } (b2n on)

/-- A collector marks a unit's pair broken (R396). When no pair of the unit is left at an unfenced hub, the unit's hasp
closes with CAUSE REPORT and REPORT_LOST is reported. (DEDUCED, log 94) -/
def markBroken (h : HubId) (u : Nat) (s : State) : State :=
  if (view s h u).pairOk then
    let s := modView h u (fun v => { v with pairOk := false }) s
    let s := detect (hu h .FCL) 1 .c u 0 (s.incSat (hu h .FCL) Fld.FCL_STAT_BROKEN)
    if s.hubFenced h.other ∨ !(view s h.other u).pairOk then detect (hu h .FCL) 2 .u u 0 s else s
  else s

/-- A frame is well formed for a unit: START 1, SYNC 0, UCHK and PAR right (Table 14.3, R396). -/
def frameOk (u : Nat) (f : BitVec 16) : Bool :=
  let v := f.toNat
  v % 4 = 1 && bits v 14 8 = u % 128 && ones 16 v % 2 = 1

/-- REPORT_FRAME_RECEIVE: a unit's frame reaches a collector; `wires` says that P was the complement of N in every beat
(R396, R397). A frame that comes later than 192 beats after the one before marks the pair broken, and a broken pair's frames count no more. A frame of class F puts the module in the deadbolt state. (DEDUCED, log 93) (DEDUCED, log 94) -/
def execReportFrameReceive (h : HubId) (u : Nat) (f : BitVec 16) (wires : Bool) (s : State) : Out :=
  if (unitBlk u).isNone ∨ ¬ s.powered (hu h .FCL) ∨ s.hubFenced h then .next s
  else if !(view s h u).pairOk then .next s
  else if !wires || !frameOk u f || decide ((view s h u).lastBeat + 192 < (s.hub h).beat) then .next (markBroken h u s)
  else
    let cls := bits f.toNat 3 2
    let s := modView h u (fun v => { v with cls := cls, rseq := bits f.toNat 7 4, lastBeat := (s.hub h).beat }) s
    let s := setPend h u (decide (2 ≤ cls)) s
    let s := if cls = 1 then s.incSat (hu h .FCL) Fld.FCL_CNT_C_TOTAL
      else if cls = 2 then s.incSat (hu h .FCL) Fld.FCL_CNT_U_TOTAL else s
    if cls = 3 then .next (enterDeadbolt u (s.rp u).fatalSrc (s.rp u).fatalPath s) else .next s

/-- REPORT_TIMEOUT: no frame of a powered unit within 192 beats of the one before (R396, R88). (DEDUCED, log 35) -/
def execReportTimeout (h : HubId) (u : Nat) (s : State) : Out :=
  if (unitBlk u).isSome ∧ s.powered u ∧ s.powered (hu h .FCL) ∧ ¬ s.hubFenced h ∧ (view s h u).lastBeat + 192 < (s.hub h).beat then
    .next (markBroken h u s)
  else .next s

/-- The peer connection carries messages now: both hubs have power and neither is fenced. -/
def peerOpen (s : State) : Bool :=
  s.powered (hu .a .HUB) && s.powered (hu .b .HUB) && !s.hubFenced .a && !s.hubFenced .b

/-- PEER_HEARTBEAT: a hub receives the other hub's message of lease, collector and heartbeat (R398). -/
def execPeerHeartbeat (h : HubId) (s : State) : Out :=
  if peerOpen s then
    let o := (s.hub h.other).views
    let s := (s.put (hu h .HUB) Fld.HUB_PEER_PEER_OK 1).put (hu h .FCL) Fld.FCL_STAT_PEER_OK 1
    let take (m : SMap UnitView) (e : Nat × UnitView) : SMap UnitView := mput m e.1 { mgetD m e.1 {} with peerPairOk := e.2.pairOk }
    let s := s.modHub h (fun x => { x with peerAt := x.beat, views := o.foldl take x.views })
    .next (s.emit (.peer h.other))
  else .next s

/-- PEER_TIMEOUT: a hub receives nothing over the peer connection for 192 beats (R398, R88). When both hubs would close
each other's hasps, only Hub B's closes. -/
def execPeerTimeout (h : HubId) (s : State) : Out :=
  if s.powered (hu h .HUB) ∧ ¬ s.hubFenced h ∧ peerSilent s h then
    .next (detect (hu h .HUB) 2 .u 0 0 s)
  else .next s

/-- C_SELF_ACK: a log has held a class C fault for its period without an acknowledgment (R400). -/
def execCSelfAck (u : Nat) (s : State) : Out :=
  if (logNow s u).due (unitBeat s u) then .next (ackFault u s) else .next s

/-- Whether FCL_LIFT can open this unit's hasp at all (Table 14.6): a port, a collective core, the management cores of a
plane, a chiplet or a hub. -/
def liftable (u : Nat) : Bool :=
  match unitBlk u with
  | some (.FPT, _) => true
  | some (.CCX, _) => true
  | some (.MGC, _) => true
  | some (.SDS, _) => true
  | some (.HUB, _) => true
  | _ => false

/-- The checks of FCL writes (R407). -/
def fclVerdict (s : State) (acc : Accessor) (h : HubId) (off : Nat) (v : Word) : Verdict :=
  if off = 0x054 then
    let u := v.toNat % 2048
    let cause := s.get u Fld.BLK_FENCE_CAUSE
    let parent := match unitPlane u with
      | some p => s.planeFenced p
      | none => match unitHub u with
        | some x => s.hubFenced x && u ≠ hu x .HUB
        | none => false
    let isHubCore := match acc with
      | .hubCore _ => true
      | _ => false
    { range := (unitBlk u).isNone
      state := (unitBlk u).isSome && (!s.fenced u || cause = 4 || cause = 6 || parent || !liftable u ||
        (match unitBlk u with
          | some (.MGC, _) => !isHubCore
          | _ => false) || u = hu h .HUB) }
  else {}

/-- FCL_LIFT opens the hasp of a unit with the result of Table 14.6 (R407). A fault of the unit in the same beat leaves it closed (R402). -/
def liftUnit (u : Nat) (s : State) : State :=
  if (s.rp u).hitAt = some (unitBeat s u) then s
  else match unitPlane u with
  | some p => match planeBlk (u % 256) with
    | some (.FPT, n) => liftPort p n s
    | some (.CCX, n) => liftCore p n s
    | some (.MGC, _) => liftMgc p s
    | some (.SDS, n) => liftChiplet p n s
    | _ => s
  | none => match unitHub u with
    | some h => liftHub h s
    | none => s

/-- The serving form takes an ALIVE output over in the beat in which ALIVE_EN is set, with its first edge 825,000 beats
later; without ALIVE_EN the output stops low (R412). -/
def aliveWrite (h : HubId) (on : Bool) (s : State) : State :=
  if on then
    if (s.hub h).alive = .serving ∨ s.dead.isSome ∨ s.hubFenced h then s
    else s.modHub h (fun x => { x with alive := .serving, aliveNext := x.beat + 825000 })
  else if (s.hub h).alive = .serving then
    (s.modHub h (fun x => { x with alive := .stopped, aliveLevel := false })).put (hu h .FCL) Fld.FCL_STAT_ALIVE 0
  else s

/-- The effects of FCL writes. -/
def fclEffect (h : HubId) (off : Nat) (v : Word) (s : State) : State :=
  if off = 0x054 then liftUnit (v.toNat % 2048) s
  else if off = 0x040 then aliveWrite h (v.getLsbD 16) s
  else s

/-- DEADBOLT_RECORD: a Keyplate of an unfenced hub writes the deadbolt record to its protected flash (R410). -/
def execDeadboltRecord (h : HubId) (s : State) : Out :=
  match s.dead with
  | some d =>
    if s.powered (hu h .KPL) ∧ ¬ s.hubFenced h then
      .next (s.modHub h (fun x => { x with kpl := { x.kpl with flash := { x.kpl.flash with dead := some d.record } } }))
    else .next s
  | none => .next s

/-- Whether the condition of a hub's ALIVE form holds (R412). -/
def aliveHolds (s : State) (h : HubId) : Bool :=
  s.dead.isNone && !s.hubFenced h && (match (s.hub h).alive with
    | .serving => s.powered (hu h .HUB) && s.on (hu h .FCL) Fld.FCL_CFG_ALIVE_EN
    | .starting => s.pwr.step1
    | .stopped => false)

/-- ALIVE_TOGGLE: an ALIVE output makes its next edge, or goes low when the condition of its form fails (R412). -/
def execAliveToggle (h : HubId) (s : State) : Out :=
  let x := s.hub h
  let set (f : Hub → Hub) (l : Bool) : State :=
    if s.powered (hu h .FCL) then (s.modHub h f).put (hu h .FCL) Fld.FCL_STAT_ALIVE (b2n l) else s.modHub h f
  if aliveHolds s h then
    let now := if x.alive = .serving then x.beat else s.pwr.beat
    if x.aliveNext ≤ now + 1 then
      .next (set (fun y => { y with aliveLevel := !y.aliveLevel, aliveNext := y.aliveNext + (if y.alive = .serving then 825000 else 412500) })
        (!x.aliveLevel))
    else .next s
  else .next (set (fun y => { y with alive := .stopped, aliveLevel := false }) false)

/-- HUB_LINK_TIMEOUT: a hub-link request to a plane is not answered within 16,500 beats (Table 14.11, R88). (DEDUCED, log 121) -/
def execHubLinkTimeout (h : HubId) (p : PlaneId) (s : State) : Out :=
  if s.powered (hu h .HUB) ∧ ¬ linkShut s h p ∧ s.domOn (4 + 7 * p.val) ∧
      (mget (s.hub h).reqAt p.val).any (fun t => t + 16500 < (s.hub h).beat) then
    let s := s.modHub h (fun x => { x with reqAt := mdel x.reqAt p.val })
    .next (detect (hu h .HUB) 1 .u p.val 0 (s.incSat (hu h .HUB) (Fld.HUB_LINK_STAT_TMO_CNT.at p.val)))
  else .next s

/-- FCL_U_STAT of the selected unit (Table 14.12). -/
def fclUStat (s : State) (h : HubId) : Word :=
  let u := s.get (hu h .FCL) Fld.FCL_U_SEL_UNIT
  let v := view s h u
  BitVec.ofNat 32 (v.cls + 4 * b2n v.pairOk + 8 * b2n v.peerPairOk + 16 * b2n (s.fenced u) + 256 * v.rseq +
    4096 * s.get u Fld.BLK_FENCE_CAUSE)

end Sys2Proof.Machine
end

