-- ==== Sys2Proof/Machine/Trust.lean ====
section
/-! DEFINITION. Sys2Proof/Machine/Trust.lean: images and their verification, the module configuration image, the Keyplate's
commands, and attestation (R432 to R441, R444). -/

namespace Sys2Proof.Machine

/-! ### Images -/

/-- An image's fields by Table 15.6. -/
def imgType (r : List Byte) : Nat := le r 8 1
def imgSigner (r : List Byte) : Nat := le r 9 1
def imgKeyIdx (r : List Byte) : Nat := le r 0xA 1
def imgRevoke (r : List Byte) : Nat := le r 0xB 1
def imgSvn (r : List Byte) : Nat := le r 0xC 4
def imgLoad (r : List Byte) : Nat := le r 0x18 8
def imgEntry (r : List Byte) : Nat := le r 0x24 4
def imgHash (r : List Byte) : List Byte := sliceB r 0x40 64
def imgBody (r : List Byte) : List Byte := r.drop 448

/-- The header's fixed fields, reserved bytes and length (FORMAT); BODY_LEN is a count, and zero is refused (R57). (DEDUCED, log 61) -/
def imgFormatOk (r : List Byte) : Bool :=
  448 ≤ r.length && le r 0 4 = 0x4D495A4B && le r 4 2 = 1 && le r 6 2 = 256 && zeros (sliceB r 0x2C 4) && zeros (sliceB r 0x38 8) &&
    zeros (sliceB r 0x80 128) && imgSvn r ≤ 255 && r.length = 448 + le r 0x20 4 && le r 0x20 4 ≠ 0

/-- Whether the signer is permitted for the image's TYPE (Table 15.7 KEY, R438, R441). -/
def imgKeyOk (fl : Flash) (r : List Byte) : Bool :=
  let owned := fl.owner.isSome
  let damcen : Bool := imgKeyIdx r < 4 && !bit fl.revoked (imgKeyIdx r)
  match imgType r, imgSigner r with
  | 5, 0 => !owned
  | 5, 1 => !owned && damcen
  | 4, 1 => !owned && damcen
  | 6, 1 => !owned && damcen
  | _, 1 => damcen
  | 1, _ => false
  | 2, _ => false
  | 7, _ => false
  | _, 2 => owned
  | _, _ => false

/-- Whether the signature verifies under the signer's key (R434); an image signed by NONE has none. -/
def imgSigOk (fl : Flash) (r : List Byte) : Bool :=
  match imgSigner r with
  | 0 => true
  | 1 => Config.ecdsaVerify (Config.damcenKey (imgKeyIdx r)) (r.take 256) (sliceB r 256 192)
  | _ => Config.ecdsaVerify (fl.owner.getD []) (r.take 256) (sliceB r 256 192)

/-- The anti-rollback counter of a TYPE. -/
def svnOf (fl : Flash) (ty : Nat) : Nat :=
  match ty with
  | 1 => fl.svnHub
  | 2 => fl.svnPlane
  | 3 => fl.svnCc
  | 4 => fl.svnCfg
  | _ => 0

/-- The TAG records of a CONFIG body (R438); `none` where the list is malformed. -/
def cfgRecords : Nat → List Byte → Option (List (Nat × List Byte))
  | 0, l => if l = [] then some [] else none
  | fuel + 1, l =>
    if l = [] then some []
    else
      let n := le l 2 2
      let whole := (4 + n + 7) / 8 * 8
      if l.length < 4 ∨ l.length < whole ∨ ¬ zeros ((l.take whole).drop (4 + n)) then none
      else (cfgRecords fuel (l.drop whole)).map ((le l 0 2, sliceB l 4 n) :: ·)

/-- A value that its register would accept under Table 2.3. -/
def valueOk (b : Blk) (off v : Nat) : Bool :=
  let fs := (blkTable b).filter (·.covers off)
  let x := legalVerdict fs (BitVec.ofNat 32 v)
  fs ≠ [] && BitVec.ofNat 32 v &&& reservedMask fs = 0 && !x.range && !x.zero

/-- The settings of one plane in a TAG 0x0002 record. -/
def cfgPlane (c : ModConfig) (r : List Byte) : Option ModConfig :=
  let p := le r 0 1
  if h : p < 4 then
    if le r 1 1 ≤ 2 ∧ le r 2 1 ≤ 2 ∧ le r 3 1 ≤ 1 ∧ partRangeOk (le r 4 4) ∧ le r 4 4 < 2 ^ 24 then
      some { c with planes := c.planes.set ⟨p, h⟩ { c.planes.get ⟨p, h⟩ with
        aclk := le r 1 1, role := le r 2 1, mirror := le r 3 1 = 1, part := BitVec.ofNat 32 (le r 4 4) } }
    else none
  else none

/-- One entry of a topology plan (TAG 0x0009): unit, offset, value. Only the registers that the record holds are taken: FTM_UPSTREAM,
FTM_ASYM, the FPT plan and credit registers, RTE_ID, RTE_EXT, RTE_BOX, RTE_PLAN and RTE_OWN. -/
def cfgPlan (c : ModConfig) (r : List Byte) : Option ModConfig :=
  let u := le r 0 4
  let off := le r 4 4
  match unitPlane u, planeBlk (u % 256) with
  | some p, some (b, n) =>
    let fpt := b = .FPT ∧ (0x040 ≤ off ∧ off ≤ 0x04C ∨ 0x100 ≤ off ∧ off ≤ 0x11C)
    let aligned := b ≠ .FPT ∨ off ≠ 0x040 ∨ le r 8 1 % 2 = 0 ∨ n % 2 ^ (bits (le r 8 4) (Fld.FPT_CFG_WIDTH.hi) (Fld.FPT_CFG_WIDTH.lo)) = 0
    let ftm := b = .FTM ∧ (off = 0x044 ∨ 0x100 ≤ off ∧ off < 0x300)
    let rte := b = .RTE ∧ (0x040 ≤ off ∧ off ≤ 0x050 ∨ 0x100 ≤ off ∧ off < 0x180)
    if (ftm ∨ fpt ∨ rte) ∧ off % 4 = 0 ∧ valueOk b off (le r 8 4) ∧ aligned then
      let x := c.planes.get p
      some { c with planes := c.planes.set p { x with plan := mput x.plan (u % 256) (mput (mgetD x.plan (u % 256) []) off (BitVec.ofNat 32 (le r 8 4))) } }
    else none
  | _, _ => none

/-- Apply records one by one. -/
def cfgEach (f : ModConfig → List Byte → Option ModConfig) (size : Nat) : Nat → List Byte → ModConfig → Option ModConfig
  | 0, _, c => some c
  | n + 1, l, c => (f c (l.take size)).bind (fun d => cfgEach f size n (l.drop size) d)

/-- One configuration record (Table 15.8). -/
def cfgRecord (c : ModConfig) (tag : Nat) (d : List Byte) : Option ModConfig :=
  match tag with
  | 1 => if d.length = 1 ∧ le d 0 1 ≤ 3 then some { c with opmode := le d 0 1 } else none
  | 2 => if d.length % 8 = 0 ∧ ((records 8 (d.length / 8) d).map (fun r => le r 0 1)).Nodup then cfgEach cfgPlane 8 (d.length / 8) d c else none
  | 3 =>
    if d.length = 16 ∧ valueOk .TRF 0x040 (le d 0 4) ∧ valueOk .TRF 0x040 (le d 8 4) ∧ le d 4 1 ≤ 1 ∧ le d 12 1 ≤ 1 ∧
        zeros (sliceB d 5 3) ∧ zeros (sliceB d 13 3) then
      some { c with trf := ⟨BitVec.ofNat 32 (le d 0 4), BitVec.ofNat 32 (le d 8 4)⟩, svcEn := ⟨le d 4 1 = 1, le d 12 1 = 1⟩ }
    else none
  | 4 =>
    if d.length = 1024 ∧ (records 4 256 d).all (fun r => valueOk .MBX 0x400 (ofBytes r) && wardAgentsOk (ofBytes r)) then
      some { c with wards := (records 4 256 d).zipIdx.map (fun e => (e.2, BitVec.ofNat 32 (ofBytes e.1))) }
    else none
  | 5 => if d.length = 2 ∧ le d 0 2 ≠ 0 then some { c with term := le d 0 2 } else none
  | 6 =>
    if d.length = 8 ∧ le d 0 1 ≤ 1 ∧ zeros (sliceB d 1 3) ∧ le d 4 4 % 16 = 0 then
      some { c with prefer := le d 0 1, domOff := BitVec.ofNat 32 (le d 4 4) } else none
  | 7 => if d.length = 134 ∧ le d 0 1 ≤ 1 then some { c with keySign := some (d.drop 1), keyMust := le d 0 1 = 1 } else none
  | 8 =>
    if d.length = 65 ∧ le d 0 1 ≤ 1 then
      let g (p : Nat) (x : PlaneCfg) : PlaneCfg := { x with guardBase := le d (1 + 16 * p) 8, guardLen := le d (9 + 16 * p) 8 }
      some { c with ccVerify := le d 0 1 = 1, planes := ⟨g 0 c.planes.p0, g 1 c.planes.p1, g 2 c.planes.p2, g 3 c.planes.p3⟩ }
    else none
  | 9 => if d.length % 12 = 0 then cfgEach cfgPlan 12 (d.length / 12) d c else none
  | _ => none

/-- The port allocation profiles of Table 1.8: runs of lanes, as first lane, end, lanes of a port and ROLE. -/
def profiles : List (List (Nat × Nat × Nat × Nat)) :=
  [[(0, 128, 1, 1)], [(0, 128, 2, 1)], [(0, 64, 2, 1), (112, 128, 2, 1), (64, 112, 4, 2)],
   [(0, 64, 2, 1), (64, 112, 4, 2), (112, 128, 4, 3)], [(0, 128, 4, 4)]]

/-- A port that a plan assigns, by its FPT_CFG value, is a port of a profile. -/
def portFits (prof : List (Nat × Nat × Nat × Nat)) (n cfg : Nat) : Bool :=
  let w := 2 ^ bits cfg 2 1
  prof.any (fun r => decide (r.1 ≤ n ∧ n + w ≤ r.2.1) && w = r.2.2.1 && bits cfg 5 3 = r.2.2.2 && n % w = 0)

/-- The ports that the topology plan of a plane assigns: lane and FPT_CFG value, where ROLE is not 0. -/
def planPorts (c : ModConfig) (p : PlaneId) : List (Nat × Nat) :=
  (c.planes.get p).plan.filterMap (fun e => if 0x80 ≤ e.1 then
    (mget e.2 0x040).bind (fun v => if bits v.toNat 5 3 = 0 then none else some (e.1 - 0x80, v.toNat)) else none)

/-- The lanes of every plane are assigned as one profile of Table 1.8 assigns them; a plan may leave ports of its profile out (R35).
(DEDUCED, log 103) -/
def planFits (c : ModConfig) : Bool :=
  profiles.any (fun prof => (List.finRange 4).all (fun p => (planPorts c p).all (fun e => portFits prof e.1 e.2)))

/-- The configuration a CONFIG body gives; `none` where it fails CONTENT. -/
def parseConfig (body : List Byte) : Option ModConfig :=
  match cfgRecords (body.length / 8 + 1) body with
  | none => none
  | some rs => if (rs.map (·.1)).Nodup then (rs.foldl (fun c r => c.bind (fun c => cfgRecord c r.1 r.2)) (some {})).filter planFits else none

/-- Bytes of a core's local store (Table 7.2). -/
def lsBytes : Nat := 0x40000

/-- The nonce a hub's KPL page presents. -/
def nonceBytes (s : State) (h : HubId) : List Byte := (List.range 8).flatMap (fun k => bytesOf 4 (s.get (hu h .KPL) (Fld.KPL_NONCE.at k)))

/-- The checks of a body (CONTENT). -/
def imgContentOk (s : State) (h : HubId) (r : List Byte) : Bool :=
  let b := imgBody r
  match imgType r with
  | 3 => decide (imgLoad r + b.length ≤ lsBytes ∧ imgEntry r % 4 = 0 ∧ imgEntry r < lsBytes)
  | 4 => (parseConfig b).isSome
  | 5 => b.length = 133
  | 6 => b.length = 48 && (s.hub h).kpl.nonceSet && b.take 32 = nonceBytes s h && le b 32 8 = s.ident.serial.toNat && zeros (sliceB b 44 4)
  | _ => true

/-- Verification of an image in the order of Table 15.7 (R435). `ok` says which TYPEs the step or command needs. (DEDUCED, log 61) -/
def verifyImage (s : State) (h : HubId) (ok : Nat → Bool) (r : List Byte) : Nat :=
  let fl := (s.hub h).kpl.flash
  let ty := imgType r
  if !imgFormatOk r then 1
  else if !ok ty then 2
  else if !bit (le r 0x28 4) (if s.ident.stepping = 0xA1 then 0 else 1) then 3
  else if le r 0x30 8 ≠ 0 ∧ le r 0x30 8 ≠ s.ident.serial.toNat then 4
  else if !imgKeyOk fl r then 5
  else if !imgSigOk fl r then 6
  else if sha512 (imgBody r) ≠ imgHash r then 7
  else if imgSvn r < svnOf fl ty then 8
  else if !imgContentOk s h r then 9
  else 0

/-- Record a verification's result (R435). -/
def setResult (h : HubId) (code ty : Nat) (s : State) : State :=
  (s.put (hu h .KPL) Fld.KPL_RESULT_CODE code).put (hu h .KPL) Fld.KPL_RESULT_TYPE ty

/-- Change a hub's Keyplate. -/
def modKpl (h : HubId) (f : Keyplate → Keyplate) (s : State) : State := s.modHub h (fun x => { x with kpl := f x.kpl })

/-- Change a Keyplate's protected flash. -/
def modFlash (h : HubId) (f : Flash → Flash) (s : State) : State := modKpl h (fun k => { k with flash := f k.flash }) s

/-- KPL_SVN shows the counters. -/
def showSvn (h : HubId) (s : State) : State :=
  let fl := (s.hub h).kpl.flash
  s.put (hu h .KPL) Fld.KPL_SVN (fl.svnHub + 2 ^ 8 * fl.svnPlane + 2 ^ 16 * fl.svnCc + 2 ^ 24 * fl.svnCfg)

/-! ### Commands (R444) -/

/-- The image that KPL_SRC names, once the plane's memory has delivered it; zeros where no hub link carries the read (Table 14.11). -/
def kplPlane (s : State) (h : HubId) : PlaneId := ⟨s.get (hu h .KPL) Fld.KPL_SRC_HI_PLANE % 4, Nat.mod_lt _ (by decide)⟩
def kplAddr (s : State) (h : HubId) : Nat := s.get64 (hu h .KPL) Fld.KPL_SRC_LO Fld.KPL_SRC_HI
def kplImage (s : State) (h : HubId) : List Byte := ((s.hub h).kpl.image).getD (List.replicate (s.get (hu h .KPL) Fld.KPL_SRC_LEN) 0)

/-- A Keyplate has no image, and none is on its way. -/
def dropImage (h : HubId) (s : State) : State :=
  ([0, 1, 2, 3] : List PlaneId).foldl (fun t p => t.modPl p (fun x => { x with hostQ := x.hostQ.filter (fun a => a.rdma || a.via ≠ .hubCore h) }))
    (s.modHub h (fun x => { x with kpl := { x.kpl with image := none } }))

/-- Whether a command reads an image. -/
def kplReads (c : Nat) : Bool := c = 1 || c = 2 || c = 3 || c = 4 || c = 6

/-- A KPL_CMD write is refused with BUSY while STATE is BUSY. -/
def kplBusy (s : State) (h : HubId) (off : Nat) : Bool := off = 0x044 && s.get (hu h .KPL) Fld.KPL_STAT_STATE = 2

/-- The checks of KPL writes (R441, R444). -/
def kplVerdict (s : State) (h : HubId) (off : Nat) (v : Word) : Verdict :=
  if off = 0x044 then
    let c := v.toNat % 16
    let len := s.get (hu h .KPL) Fld.KPL_SRC_LEN
    { state := c = 5 && decide (8 ≤ s.get (hu h .KPL) Fld.KPL_STAT_DBG_FAIL)
      zero := kplReads c && len = 0
      bounds := kplReads c && !hubReach s (kplPlane s h) false (kplAddr s h) len }
  else {}

/-- The Keyplate reads its image over the hub link, as a hub core does: in host windows where a key schedules the memory (R26, R261). -/
def fetchImage (h : HubId) (s : State) : State :=
  let p := kplPlane s h
  let n := s.get (hu h .KPL) Fld.KPL_SRC_LEN
  if hubCarries s h p then
    arriveAccess p { via := .hubCore h, rdma := false, tag := 0, write := false, at' := s.beats p
                     parts := splitParts (n / 256 + 2) (kplAddr s h) (List.replicate n 0) } (linkRequest h p s)
  else s

/-- A KPL_CMD write starts a command. -/
def kplEffect (h : HubId) (off : Nat) (v : Word) (s : State) : State :=
  if off = 0x044 then
    let s := modKpl h (fun k => { k with cmd := some (v.toNat % 16, (s.hub h).beat) }) (s.put (hu h .KPL) Fld.KPL_STAT_STATE 2)
    if kplReads (v.toNat % 16) then fetchImage h (dropImage h s) else s
  else s

/-- The nonce is consumed (R441). -/
def dropNonce (h : HubId) (s : State) : State :=
  (List.range 8).foldl (fun s k => s.put (hu h .KPL) (Fld.KPL_NONCE.at k) 0) (modKpl h (fun k => { k with nonceSet := false }) s)

/-- 32 fresh random bytes into KPL_NONCE (R441). -/
def newNonce (h : HubId) (s : State) : State :=
  let b := (List.range 32).map (fun i => Config.randomByte (s.fresh + i))
  let s := (List.range 8).foldl (fun s k => s.put (hu h .KPL) (Fld.KPL_NONCE.at k) (le b (4 * k) 4)) s
  { (modKpl h (fun k => { k with nonceSet := true }) s) with fresh := s.fresh + 32 }

/-- Store bytes in a core's local store. -/
def lsPuts (p : PlaneId) (n a : Nat) (d : List Byte) (s : State) : State := modCore p n (fun c => { c with ls := memPuts c.ls a d }) s

/-- A CC_PROG image fills a local store, sets CCX_PC, and enters measurement 8 (R439, Table 15.9). -/
def loadCc (h : HubId) (r : List Byte) (s : State) : State :=
  let p := kplPlane s h
  let n := s.get (hu h .KPL) Fld.KPL_SRC_HI_CORE
  let s := if ¬ s.powered (uCCX p n) then s
    else modCore p n (fun c => { c with pc := BitVec.ofNat 64 (imgEntry r) }) (lsPuts p n (imgLoad r) (imgBody r) s)
  modKpl h (fun k => { k with mCc := sha512 ((if k.mCc = [] then List.replicate 64 0 else k.mCc) ++ sha512 r) }) s

/-- COMMIT_SVN (R436). -/
def commitSvn (h : HubId) (r : List Byte) (s : State) : State :=
  let v := imgSvn r
  let s := modFlash h (fun f => match imgType r with
    | 1 => { f with svnHub := max f.svnHub v
                    revoked := f.revoked ||| (imgRevoke r % 16 &&& (0xF - if imgSigner r = 1 then 2 ^ imgKeyIdx r else 0)) }
    | 2 => { f with svnPlane := max f.svnPlane v }
    | 3 => { f with svnCc := max f.svnCc v }
    | 4 => { f with svnCfg := max f.svnCfg v }
    | _ => f) s
  (showSvn h s).put (hu h .KPL) Fld.KPL_STAT_REVOKED (s.hub h).kpl.flash.revoked

/-- CLAIM installs the owner's key (R438). -/
def claim (h : HubId) (r : List Byte) (s : State) : State :=
  (modFlash h (fun f => { f with owner := some (imgBody r) }) s).put (hu h .KPL) Fld.KPL_STAT_OWNED 1

/-- A command on an image: the check, its record, and the effect of a success. -/
def kplChecked (h : HubId) (ok : Nat → Bool) (f : List Byte → State → State) (s : State) : State :=
  let r := kplImage s h
  let c := verifyImage s h ok r
  let s := setResult h c (imgType r) s
  if c = 0 then f r s else s

/-- What a command does when it completes. -/
def kplRun (h : HubId) (c : Nat) (s : State) : State :=
  match c with
  | 1 => kplChecked h (fun t => 1 ≤ t && t ≤ 7) (fun _ s => s) s
  | 2 => kplChecked h (· = 3) (loadCc h) s
  | 3 => kplChecked h (fun t => 1 ≤ t && t ≤ 4) (commitSvn h) s
  | 4 => kplChecked h (· = 5) (claim h) s
  | 5 => newNonce h s
  | 6 =>
    let r := kplImage s h
    let c := verifyImage s h (· = 6) r
    let s := dropNonce h (setResult h c (imgType r) s)
    if c = 0 then s.put (hu h .KPL) Fld.KPL_STAT_DBG_LEVEL (le (imgBody r) 40 4 % 4)
    else s.incSat (hu h .KPL) Fld.KPL_STAT_DBG_FAIL
  | 7 => modFlash h (fun f => { f with pref := s.get (hu h .KPL) Fld.KPL_SRC_HI_PREF }) s
  | _ => s

/-- KPL_CMD_DONE: the command in progress, its image read, completes with its effect, and its interrupt is raised (R444). (DEDUCED, log 61) -/
def execKplCmdDone (h : HubId) (s : State) : Out :=
  match (s.hub h).kpl.cmd with
  | none => .next s
  | some (c, _) =>
    if ¬ s.powered (hu h .KPL) ∨ (kplReads c ∧ (s.hub h).kpl.image.isNone ∧ hubCarries s h (kplPlane s h)) then .next s
    else
      let s := dropImage h (modKpl h (fun k => { k with cmd := none }) (kplRun h c s))
      .next ((s.put (hu h .KPL) Fld.KPL_STAT_STATE (if (s.hub h).booted then 1 else 3)).pulseBit (hu h .KPL) 0)

/-! ### Attestation (R440) -/

/-- Send a DOE response. -/
def doe (h : HubId) (r : List Byte) (s : State) : State := s.emit (.doe h r)

/-- An ERROR response: its code and its data. -/
def spdmError (h : HubId) (code data : Nat) (s : State) : State := doe h (bytesOf 1 0x12 ++ bytesOf 1 0x7F ++ bytesOf 1 code ++ bytesOf 1 data) s

/-- The request code of an SPDM message. (PRESUMED, log 60) -/
def spdmCode (req : List Byte) : Nat := le req 1 1

/-- A Keyplate answers SPDM while its hub has power. -/
def spdmServes (s : State) (h : HubId) : Bool := s.powered (hu h .KPL)

/-- Change the negotiation. -/
def modSpdm (h : HubId) (f : Spdm → Spdm) (s : State) : State := modKpl h (fun k => { k with spdm := f k.spdm }) s

/-- A request and its response enter the transcript that signatures cover, and the response is sent. -/
def spdmAnswer (h : HubId) (req resp : List Byte) (s : State) : State :=
  doe h resp (modSpdm h (fun x => { x with transcript := x.transcript ++ req ++ resp }) s)

/-- GET_VERSION is answered with version 1.2, and starts a negotiation anew. -/
def execGetVersion (h : HubId) (req : List Byte) (s : State) : Out :=
  if ¬ spdmServes s h then .next s
  else
    let s := modSpdm h (fun _ => { version := true }) s
    .next (spdmAnswer h req (bytesOf 1 0x10 ++ bytesOf 1 0x04 ++ [0, 0, 0, 1] ++ bytesOf 2 0x1200) s)

/-- GET_CAPABILITIES reports CERT_CAP, CHAL_CAP and MEAS_CAP with signatures. The timing exponent and the buffer sizes are free
values. -/
def execGetCapabilities (h : HubId) (req : List Byte) (s : State) : Out :=
  if ¬ spdmServes s h then .next s
  else if ¬ (s.hub h).kpl.spdm.version then .next (spdmError h 4 0 s)
  else
    let a := s.takeFree
    let b := a.2.takeFree
    let resp := bytesOf 1 0x12 ++ bytesOf 1 0x61 ++ [0, 0, 0] ++ bytesOf 1 a.1.toNat ++ [0, 0] ++ bytesOf 4 0x16 ++ bytesOf 8 b.1.toNat
    .next (spdmAnswer h req resp (modSpdm h (fun x => { x with caps := true }) b.2))

/-- NEGOTIATE_ALGORITHMS selects P-521 ECDSA and SHA-512. -/
def execNegotiateAlgorithms (h : HubId) (req : List Byte) (s : State) : Out :=
  if ¬ spdmServes s h then .next s
  else if ¬ (s.hub h).kpl.spdm.caps then .next (spdmError h 4 0 s)
  else
    let resp := bytesOf 1 0x12 ++ bytesOf 1 0x63 ++ [0, 0] ++ bytesOf 2 36 ++ [1, 0] ++ bytesOf 4 0x8 ++ bytesOf 4 0x100 ++ bytesOf 4 0x4 ++
      List.replicate 16 0
    .next (spdmAnswer h req resp (modSpdm h (fun x => { x with algs := true }) s))

/-- The certificate chain of slot 0. -/
def chainOf (h : HubId) : List Byte := Config.certChain h.num

/-- Whether the negotiation is complete. -/
def spdmReady (s : State) (h : HubId) : Bool := (s.hub h).kpl.spdm.algs

/-- GET_DIGESTS returns the digest of the chain of slot 0. -/
def execGetDigests (h : HubId) (req : List Byte) (s : State) : Out :=
  if ¬ spdmServes s h then .next s
  else if ¬ spdmReady s h then .next (spdmError h 4 0 s)
  else .next (spdmAnswer h req (bytesOf 1 0x12 ++ [1, 0, 1] ++ sha512 (chainOf h)) s)

/-- GET_CERTIFICATE returns a part of the chain of slot 0; another slot is refused. -/
def execGetCertificate (h : HubId) (req : List Byte) (s : State) : Out :=
  if ¬ spdmServes s h then .next s
  else if ¬ spdmReady s h then .next (spdmError h 4 0 s)
  else if le req 2 1 % 16 ≠ 0 then .next (spdmError h 1 0 s)
  else
    let part := ((chainOf h).drop (le req 4 2)).take (le req 6 2)
    let rest := (chainOf h).length - le req 4 2 - part.length
    .next (spdmAnswer h req (bytesOf 1 0x12 ++ [2, 0, 0] ++ bytesOf 2 part.length ++ bytesOf 2 rest ++ part) s)

/-- One measurement of Table 15.9: index, form (raw or not) and value. -/
def measurement (s : State) (h : HubId) (i : Nat) : Bool × List Byte :=
  let k := (s.hub h).kpl
  let fl := k.flash
  match i with
  | 1 => (false, Config.romDigest)
  | 2 => (false, k.mHub)
  | 7 => (false, if s.pwr.cfgDigest = [] then List.replicate 64 0 else s.pwr.cfgDigest)
  | 8 => (false, if k.mCc = [] then List.replicate 64 0 else k.mCc)
  | 9 => (false, sha512 (identImage s h))
  | 10 => (true, bytesOf 1 fl.svnHub ++ bytesOf 1 fl.svnPlane ++ bytesOf 1 fl.svnCc ++ bytesOf 1 fl.svnCfg ++ bytesOf 1 fl.revoked ++
      bytesOf 1 k.slot ++ bytesOf 1 (b2n fl.owner.isSome) ++ List.replicate 9 0)
  | 11 => (true, bytesOf 1 s.cfg.opmode ++ bytesOf 1 (s.get (hu h .KPL) Fld.KPL_STAT_DBG_LEVEL) ++ bytesOf 1 (b2n s.dead.isSome) ++
      bytesOf 1 (b2n fl.dead.isSome))
  | _ =>
    let d := (s.pl (planeOf (i - 3))).fwDigest
    (false, if s.domOn (4 + 7 * (i - 3)) ∧ d ≠ [] then d else List.replicate 64 0)

/-- A measurement block in DMTF format. -/
def measBlock (s : State) (h : HubId) (i : Nat) : List Byte :=
  let m := measurement s h i
  let ty := (if m.1 then 0x83 else if i = 1 then 0 else if i = 7 then 3 else if i = 9 then 2 else 1)
  bytesOf 1 i ++ [1] ++ bytesOf 2 (m.2.length + 3) ++ bytesOf 1 ty ++ bytesOf 2 m.2.length ++ m.2

/-- 32 fresh random bytes of a response. -/
def respNonce (s : State) : List Byte × State := ((List.range 32).map (fun i => Config.randomByte (s.fresh + i)), { s with fresh := s.fresh + 32 })

/-- Append the signature of the hub's identity key over the transcript, the request and the response so far. -/
def withSig (s : State) (h : HubId) (req resp : List Byte) : List Byte :=
  resp ++ Config.ecdsaSign h.num (sha512 ((s.hub h).kpl.spdm.transcript ++ req ++ resp))

/-- CHALLENGE is answered with a response signed by the hub's identity key. -/
def execChallenge (h : HubId) (req : List Byte) (s : State) : Out :=
  if ¬ spdmServes s h then .next s
  else if ¬ spdmReady s h then .next (spdmError h 4 0 s)
  else if le req 2 1 ≠ 0 then .next (spdmError h 1 0 s)
  else
    let n := respNonce s
    let sum : List Byte := if le req 3 1 = 0 then [] else sha512 ((List.range 11).flatMap (fun i => measBlock s h (i + 1)))
    let resp := bytesOf 1 0x12 ++ [3, 0, 1] ++ sha512 (chainOf h) ++ n.1 ++ sum ++ [0, 0]
    .next (spdmAnswer h req (withSig s h req resp) n.2)

/-- GET_MEASUREMENTS returns the measurements of Table 15.9: their number (index 0), one, or all (index 0xFF), signed where the
request asks. -/
def execGetMeasurements (h : HubId) (req : List Byte) (s : State) : Out :=
  if ¬ spdmServes s h then .next s
  else if ¬ spdmReady s h then .next (spdmError h 4 0 s)
  else
    let i := le req 3 1
    if 11 < i ∧ i ≠ 0xFF then .next (spdmError h 1 0 s)
    else
      let idx : List Nat := if i = 0 then [] else if i = 0xFF then (List.range 11).map (· + 1) else [i]
      let rec' := idx.flatMap (measBlock s h)
      let n := respNonce s
      let resp := bytesOf 1 0x12 ++ bytesOf 1 0x60 ++ bytesOf 1 (if i = 0 then 11 else 0) ++ [0] ++ bytesOf 1 idx.length ++
        bytesOf 3 rec'.length ++ rec' ++ n.1 ++ [0, 0]
      .next (spdmAnswer h req (if le req 2 1 % 2 = 1 then withSig s h req resp else resp) n.2)

/-- The codes of the supported requests. (PRESUMED, log 60) -/
def spdmKnown (c : Nat) : Bool := c = 0x84 || c = 0xE1 || c = 0xE3 || c = 0x81 || c = 0x82 || c = 0x83 || c = 0xE0

/-- SPDM_UNSUPPORTED: any other request receives an ERROR response with UnsupportedRequest. -/
def execSpdmUnsupported (h : HubId) (req : List Byte) (s : State) : Out :=
  if ¬ spdmServes s h ∨ spdmKnown (spdmCode req) then .next s else .next (spdmError h 7 (spdmCode req) s)

end Sys2Proof.Machine
end

