-- ==== Sys2Proof/Machine/Power.lean ====
section
/-! DEFINITION. Sys2Proof/Machine/Power.lean: feeds, the hold-up store, admission of domains, the boot chain, power modes and
resets (R419 to R430, R433, R443, R465). -/

namespace Sys2Proof.Machine

/-! ### Feeds -/

/-- State, ACTIVE and voltage fields of a feed. -/
def feedState : FeedId → RField
  | .a => Fld.PWR_FEED_A_STATE
  | .b => Fld.PWR_FEED_B_STATE
def feedActive : FeedId → RField
  | .a => Fld.PWR_FEED_A_ACTIVE
  | .b => Fld.PWR_FEED_B_ACTIVE
def feedMv : FeedId → RField
  | .a => Fld.PWR_FEED_A_MV
  | .b => Fld.PWR_FEED_B_MV
def FeedId.other : FeedId → FeedId
  | .a => .b
  | .b => .a

/-- A feed's state: 0 ABSENT, 1 OUT, 2 QUAL, 3 OK. -/
def feedSt (s : State) (f : FeedId) : Nat := s.get (hu .a .PWR) (feedState f)

/-- The level of the sideband output FEED_OK_A or FEED_OK_B: high while the feed is OK (R422). -/
def feedOkPin (s : State) (f : FeedId) : Bool := feedSt s f = 3

/-- Whether any feed is OK. -/
def anyFeed (s : State) : Bool := feedSt s .a = 3 || feedSt s .b = 3

/-- The feed that PWR_CFG.PREFER names. -/
def preferred (s : State) : FeedId := if s.on (hu .a .PWR) Fld.PWR_CFG_PREFER then .b else .a

/-- The load is drawn from the preferred feed while it is OK, else from the other while that is OK (R420). -/
def pickFeed (s : State) : State :=
  let f := preferred s
  let act (x : FeedId) : Bool := feedSt s x = 3 && (x = f || feedSt s f ≠ 3)
  (s.put (hu .a .PWR) (feedActive .a) (b2n (act .a))).put (hu .a .PWR) (feedActive .b) (b2n (act .b))

/-- Set a feed's state and the beat at which it entered it. -/
def setFeed (f : FeedId) (st : Nat) (s : State) : State :=
  let s := s.put (hu .a .PWR) (feedState f) st
  pickFeed (s.modPwr (fun x => match f with
    | .a => { x with feedA := { x.feedA with since := x.beat } }
    | .b => { x with feedB := { x.feedB with since := x.beat } }))

/-- Measure a feed. -/
def measureFeed (f : FeedId) (mv : Nat) (s : State) : State :=
  s.put (hu .a .PWR) (feedMv f) (mv % 65536)

/-- The state that a voltage held for 165 beats gives a feed (Table 15.1), in units of 10 mV. -/
def feedNext (st mv : Nat) : Nat :=
  if mv < 4000 then 0
  else
    let inRange : Bool := 5400 ≤ mv && mv ≤ 7200
    match st with
    | 3 => if mv < 5200 ∨ 7400 < mv then 1 else 3
    | 2 => if inRange then 2 else 1
    | _ => if inRange then 2 else 1

/-- The unit that reports FEED_LOST: the PWR unit of Hub A, or of Hub B while Hub A has no power or is fenced. (DESIGN CHOICE, log 25) -/
def pwrUnit (s : State) : Nat := if s.powered (hu .a .HUB) ∧ ¬ s.hubFenced .a then hu .a .PWR else hu .b .PWR

/-- The deadbolt state ends with a power cycle (R411). -/
def leaveDeadbolt (s : State) : State := { s with dead := none }

/-- Every domain goes off but, with `stby`, STBY: the module's start-up is undone. Flash, boot flash and feed states stay; the I3C target's address
goes with STBY (R467). -/
def allOff (stby : Bool) (s : State) : State :=
  let s := (List.finRange 4).foldl (fun s p => resetPlane false p s) s
  let s := resetHubState false .b (resetHubState false .a s)
  let s := (s.put (hu .a .PWR) Fld.PWR_DOM_STAT_ON (if stby then 1 else 0)).put (hu .a .PWR) Fld.PWR_DOM_PEND 0
  let stop (x : Hub) : Hub := { x with alive := .stopped, aliveLevel := false, kpl := { x.kpl with mCc := [] } }
  let s := ((s.modHub .a stop).modHub .b stop).modPwr (fun x => { x with waking := [], running := false, configured := false, cfgDigest := [], step1 := false })
  let s := s.modPwr (fun x => { x with resetDue := false, planesDue := [], i3cAddr := if stby then x.i3cAddr else none })
  let s := if stby then s else (List.finRange 4).foldl (fun s p => s.modPl p (fun x => { x with lostChans := [] })) s
  leaveDeadbolt { s with cfg := {}, lease := {}, mbx := [], ppsOut := none }

/-- FEED_LOST of this beat is the report of Feed A: both feeds have tripped in it (R420). -/
def forFeedA (s : State) : State :=
  let u := pwrUnit s
  let ds := (detectedNow s u).map (fun d => if d.src = 1 then { d with loc := 0 } else d)
  if ds = [] then s else (setLog u (settleLog s u .PWR (s.rp u).base ds) s).modRp u (fun r => { r with seen := ds })

/-- A feed leaves OK (R420, R421): FEED_LOST is reported where it was the active feed or the other is not OK, once where both trip in one
beat; without any feed OK the module runs on its hold-up store, but in the deadbolt state powers down at once. (DESIGN CHOICE, log 25) -/
def feedLost (f : FeedId) (active : Bool) (s : State) : State :=
  let twice : Bool := s.pwr.lostAt = some s.pwr.beat
  let s :=
    if ¬ s.pwr.running ∨ (¬ active ∧ anyFeed s) then s
    else if twice then (if f = .a then forFeedA s else s)
    else
      let forA : Bool := f = .a || s.pwr.tripA = some s.pwr.beat
      detect (pwrUnit s) 1 .c (if forA then 0 else 1) 0 (s.modPwr (fun x => { x with lostAt := some x.beat }))
  if anyFeed s then s
  else if s.dead.isSome then allOff false (s.modPwr (fun x => { x with dryAt := none }))
  else s.modPwr (fun x => { x with dryAt := some x.beat })

/-- A feed becomes OK: the hold-up store is no longer drawn on. -/
def feedGood (f : FeedId) (s : State) : State := (setFeed f 3 s).modPwr (fun x => { x with dryAt := none })

/-- FEED_CHANGE: a feed's voltage, in units of 10 mV, has stood for `beats` beats (R419). A feed in QUAL that leaves the operating range for
less than 165 beats stays there, and its time in range starts again. -/
def execFeedChange (f : FeedId) (mv beats : Nat) (s : State) : Out :=
  let st := feedSt s f
  let active := s.on (hu .a .PWR) (feedActive f)
  let s := measureFeed f mv s
  let nx := feedNext st mv
  if nx = st then .next s
  else if beats < 165 then .next (if st = 2 then setFeed f 2 s else s)
  else
    let s := setFeed f nx s
    let s := if st = 3 ∧ f = .a then s.modPwr (fun x => { x with tripA := some x.beat }) else s
    if st = 3 ∧ s.pwr.offUntil.isNone then .next (feedLost f active s) else .next s

/-- No feed has been OK for 825,000 beats: the module powers down (R421, R88). -/
def rideOver (s : State) : State :=
  match s.pwr.dryAt with
  | some t => if t + 825000 < s.pwr.beat ∧ ¬ anyFeed s then allOff false (s.modPwr (fun x => { x with dryAt := none })) else s
  | none => s

/-- FEED_QUALIFY: a QUAL feed has been in range for 165,000,000 beats, or 16,500 while no feed is OK (R419). -/
def execFeedQualify (f : FeedId) (s : State) : Out :=
  let x := match f with
    | .a => s.pwr.feedA
    | .b => s.pwr.feedB
  let s := rideOver s
  if feedSt s f = 2 ∧ x.since + (if anyFeed s then 165000000 else 16500) ≤ s.pwr.beat then .next (feedGood f s) else .next s

/-- RIDE_THROUGH_EXPIRE: no feed has been OK for 825,000 beats; the module powers down (R421). -/
def execRideThroughExpire (s : State) : Out := .next (rideOver s)

/-- HOLDUP_CHARGE: the hold-up store is charged enough for R421, or is not (R443). -/
def execHoldupCharge (ok : Bool) (s : State) : Out := .next (s.put (hu .a .PWR) Fld.PWR_HOLD_HOLDUP_OK (b2n ok))

/-- PWRCYC_N: the pin has been low for `beats` beats, or is high (R415, R465). -/
def execPwrcycN (low : Bool) (beats : Nat) (s : State) : Out :=
  if ¬ low then .next (s.modPwr (fun x => { x with cycLow := false }))
  else if beats < 1650000 ∨ s.pwr.offUntil.isSome then .next s
  else
    let s := allOff true s
    .next (s.modPwr (fun x => { x with cycLow := true, dryAt := none, offUntil := some (x.beat + 165000000) }))

/-! ### Start-up -/

/-- Step 1 and 2 of start-up (Table 15.5): both ALIVE outputs take the starting form, and the hubs are requested. -/
def beginStart (s : State) : State :=
  let s := aliveStart .b (aliveStart .a s)
  let s := setDom Fld.PWR_DOM_PEND 3 true (setDom Fld.PWR_DOM_PEND 2 true s)
  s.modPwr (fun x => { x with running := true, configured := false, step1 := true })

/-- POWER_ON: a feed is OK while the module is off and no off period runs; start-up begins with an empty bucket (R424, R429). (DEDUCED, log 59) -/
def execPowerOn (s : State) : Out :=
  let held : Bool := match s.pwr.offUntil with
    | some t => decide (s.pwr.beat < t) || s.pwr.cycLow
    | none => false
  if anyFeed s ∧ ¬ s.pwr.running ∧ ¬ held then
    let s := (allOff true s).modPwr (fun x => { x with offUntil := none, dryAt := none })
    let s := (s.put (hu .a .PWR) Fld.PWR_DOM_STAT_ON 3).put (hu .a .PWR) Fld.PWR_CREDIT 0
    .next (beginStart s)
  else .next s

/-- Inrush charges in mA (Table 15.2). -/
def domCharge (d : Nat) : Nat := if d < 4 then 2000 else [6000, 2500, 3500, 3000, 3000, 4000, 1500].getD ((d - 4) % 7) 0

/-- The domains that wait for admission, lowest first. -/
def pendingDoms (s : State) : List Nat := (List.range 32).filter (fun d => bit (s.get (hu .a .PWR) Fld.PWR_DOM_PEND) d)

/-- The bucket gains 1 mA in a beat that is a multiple of 825, up to 20,000 mA (R424). -/
def refillCredit (s : State) : State :=
  if s.pwr.beat % 825 = 0 ∧ s.pwr.refillAt ≠ some s.pwr.beat then
    let c := s.get (hu .a .PWR) Fld.PWR_CREDIT
    (s.put (hu .a .PWR) Fld.PWR_CREDIT (min (c + 1) 20000)).modPwr (fun x => { x with refillAt := some x.beat })
  else s

/-- CREDIT_REFILL: the bucket gains its credit of the beat (R424). -/
def execCreditRefill (s : State) : Out := .next (refillCredit s)

/-- DOMAIN_ADMIT: the lowest-numbered pending domain is admitted when the bucket, refilled first in its beat, covers its charge (R424).
Nothing is admitted in the deadbolt state. -/
def execDomainAdmit (d : Fin 32) (s : State) : Out :=
  let t := refillCredit s
  let c := t.get (hu .a .PWR) Fld.PWR_CREDIT
  if (pendingDoms s).head? = some d.val ∧ domCharge d.val ≤ c ∧ s.dead.isNone then
    let s := setDom Fld.PWR_DOM_PEND d.val false (t.put (hu .a .PWR) Fld.PWR_CREDIT (c - domCharge d.val))
    .next (s.modPwr (fun x => { x with waking := mput x.waking d.val x.beat }))
  else .next s

/-- RAIL_TIMEOUT: an admitted domain's supply is not stable within 165,000 beats: PWR_RAIL, class U for a plane domain and F
otherwise (R424). -/
def execRailTimeout (d : Fin 32) (s : State) : Out :=
  match mget s.pwr.waking d.val with
  | some t =>
    if t + 165000 < s.pwr.beat then
      let s := s.modPwr (fun x => { x with waking := mdel x.waking d.val })
      .next (detect (pwrUnit s) 2 (if d.val < 4 then .f else .u) d.val 0 s)
    else .next s
  | none => .next s

/-! ### The boot chain -/

/-- The slots in the order the Keyplate tries them. -/
def slotOrder (k : Keyplate) : List Nat := if k.flash.pref = 0 then [0, 1] else [1, 0]

/-- The slot a hub boots, where one passes (R433). -/
def bootSlot (s : State) (h : HubId) : Option Nat :=
  let k := (s.hub h).kpl
  (slotOrder k).find? (fun i => let b := k.slots.getD i {}
    verifyImage s h (· = 1) b.hubFw = 0 && verifyImage s h (· = 4) b.config = 0)

/-- Each Keyplate sets every counter to the larger of its own and the peer's (R436). -/
def exchangeSvn (h : HubId) (s : State) : State :=
  let o := (s.hub h.other).kpl.flash
  if s.hubFenced h.other then s
  else modFlash h (fun f => { f with svnHub := max f.svnHub o.svnHub, svnPlane := max f.svnPlane o.svnPlane
                                     svnCc := max f.svnCc o.svnCc, svnCfg := max f.svnCfg o.svnCfg }) s

/-- The hub whose configuration image holds the module-wide settings (R433). -/
def cfgHub (s : State) : HubId := if s.hubFenced .a then .b else .a

/-- The images of the slot that a hub booted. -/
def bootedSlot (s : State) (h : HubId) : BootSlot := (s.hub h).kpl.slots.getD (s.hub h).kpl.slot {}

/-- Step 5 and 6 (Table 15.5): the configuration is loaded once, from the image that R433 names, and the plane domains that it
does not leave off are requested. (DESIGN CHOICE, log 32) (DEDUCED, log 62) -/
def configure (s : State) : State :=
  let h := cfgHub s
  if s.pwr.configured ∨ ¬ (s.hub h).booted then s
  else
    let c := (parseConfig (imgBody (bootedSlot s h).config)).getD {}
    let s := { s with cfg := c }
    let s := (s.put (hu .a .KPL) Fld.KPL_STAT_OPMODE c.opmode).put (hu .b .KPL) Fld.KPL_STAT_OPMODE c.opmode
    let s := s.put (hu .a .PWR) Fld.PWR_CFG_PREFER c.prefer
    let s := s.modPwr (fun x => { x with configured := true, cfgDigest := sha512 (bootedSlot s h).config })
    let s := pickFeed s
    let want := (List.range 32).filter (fun d => 4 ≤ d ∧ ¬ c.domOff.getLsbD d)
    want.foldl (fun s d => if s.domOn d then s else setDom Fld.PWR_DOM_PEND d true s) s

/-- CFG_MISMATCH (R433): both hubs booted with configuration images of different BODY_HASH. -/
def checkMismatch (s : State) : State :=
  if (s.hub .a).booted ∧ (s.hub .b).booted ∧ imgHash (bootedSlot s .a).config ≠ imgHash (bootedSlot s .b).config then
    (s.put (hu .a .KPL) Fld.KPL_STAT_CFG_MISMATCH 1).put (hu .b .KPL) Fld.KPL_STAT_CFG_MISMATCH 1
  else s

/-- A collector starts with every pair whole and judges lateness from now on. -/
def freshViews (h : HubId) (s : State) : State :=
  let us := hubUnits .a ++ hubUnits .b ++ (List.finRange 4).flatMap planeUnits
  s.modHub h (fun x => { x with views := us.foldl (fun m u => mput m u { lastBeat := x.beat }) x.views })

/-- A hub's collector and its peer connection start. -/
def freshHub (h : HubId) (s : State) : State := (freshViews h s).modHub h (fun x => { x with peerAt := x.beat })

/-- The units of a domain are expected to report from now on. (DEDUCED, log 35) -/
def expectReports (us : List Nat) (s : State) : State :=
  let upd (x : Hub) : Hub := { x with views := us.foldl (fun m u => mput m u { lastBeat := x.beat }) x.views }
  (s.modHub .a upd).modHub .b upd

/-- Verified firmware stands in the private memory of the management cores that run it, from its load address (R442, Table 15.6). (DESIGN
CHOICE, log 81) -/
def loadFirmware (size : Nat) (img : List Byte) (m : List Host.Cell) : List Host.Cell :=
  memPuts m (imgLoad img) ((imgBody img).take (size - imgLoad img))

/-- Steps 3 to 5 of a hub's boot: counters, slot, hub firmware, configuration. Without a slot that passes the hub runs the
recovery loader, which sets ALIVE_EN (R412, R433). -/
def bootHub (h : HubId) (s : State) : State :=
  let s := freshHub h (exchangeSvn h s)
  let s := (List.finRange 4).foldl (fun s p => showLink h p s) s
  let s := s.put (hu h .HUB) Fld.MGC_STAT_RUNNING 3
  let s := s.modHub h (fun x => { x with wdog := [(0, x.beat), (1, x.beat)] })
  match bootSlot s h with
  | some i =>
    let b := (s.hub h).kpl.slots.getD i {}
    let s := modKpl h (fun k => { k with slot := i, mHub := sha512 b.hubFw }) s
    let s := ((s.put (hu h .KPL) Fld.KPL_STAT_STATE 1).put (hu h .KPL) Fld.KPL_STAT_SLOT i).put (hu h .KPL) Fld.KPL_STAT_OPMODE s.cfg.opmode
    let s := setResult h 0 1 (showSvn h (s.modHub h (fun x => { x with booted := true, mgcMem := loadFirmware (8 * 2 ^ 20) b.hubFw x.mgcMem })))
    checkMismatch (configure s)
  | none =>
    let b := (s.hub h).kpl.slots.getD (s.hub h).kpl.flash.pref {}
    let c := verifyImage s h (· = 1) b.hubFw
    let s := setResult h (if c = 0 then verifyImage s h (· = 4) b.config else c) (if c = 0 then 4 else 1) s
    let s := ((s.put (hu h .KPL) Fld.KPL_STAT_STATE 3).put (hu h .FCL) Fld.FCL_CFG_ALIVE_EN 1)
    aliveWrite h true (showSvn h s)

/-- Step 7 (Table 15.5): plane firmware is verified and runs, and the ports of the plan train. A plane whose firmware fails goes
OFF again (R430). -/
def bootPlane (p : PlaneId) (s : State) : State :=
  let h := cfgHub s
  let img := (bootedSlot s h).planeFw
  let c := verifyImage s h (· = 2) img
  let s := setResult h c 2 s
  if c ≠ 0 then powerOffPlane p s
  else
    let s := s.modPl p (fun x => { x with
      fwDigest := sha512 img
      mgcDog := (List.range 4).map (fun n => (n, x.ftm.beats)), mgcMem := loadFirmware (32 * 2 ^ 20) img x.mgcMem })
    let s := showLink .b p (showLink .a p (s.put (pu p .MGC) Fld.MGC_STAT_RUNNING 0xF))
    let s := (List.range 64).foldl (fun s b =>
      if (64 * p.val + b) ∈ s.fitted.badBank then
        let f := if b < 32 then Fld.PLN_UNIT_SPM_LO_BANK_ACT_LO else Fld.PLN_UNIT_SPM_HI_BANK_ACT_HI
        s.put (pu p .PLN) f (s.get (pu p .PLN) f &&& (2 ^ 32 - 1 - 2 ^ (b % 32)))
      else s) s
    (List.range 128).foldl (fun s n => if portPen s p n then
      (s.put (uFPT p n) Fld.FPT_STAT_STATE 1).modPl p (fun x => { x with fab := { x.fab with links := mput x.fab.links n { since := x.ftm.beats } } })
      else s) s

/-- What a part of a plane does when its supply becomes stable: its units leave reset, the unit map names them again, and the
start-up checks of R430 run on them. (DEDUCED, log 63) -/
def partStable (p : PlaneId) (k : Nat) (s : State) : State :=
  let P := pu p .PLN
  let r := (resetVal s P 0x048).toNat
  let m := (resetVal s P 0x04C).toNat
  match k with
  | 1 =>
    if p.val ∈ s.fitted.badHbm then
      fencePlane p 7 (logFault (pu p .NMC) .NMC 5 .u 0 0 s)
    else mapChanged p (s.put P Fld.PLN_UNIT_MEM_NMC_ACT 1)
  | 2 =>
    let s := s.put P Fld.PLN_UNIT_MEM_FMC_ACT (m % 64)
    let s := (List.range 6).foldl (fun s c => if bit m c ∨ s.fenced (uFMC p c) then s
      else fenceChannel p c 7 (logFault (uFMC p c) .FMC 5 .u c 0 s)) s
    mapChanged p s
  | 5 =>
    let s := (s.put P Fld.PLN_UNIT_SLICE_SLICE_ACT (r % 2 ^ 17)).put P Fld.PLN_UNIT_SLICE_SPARE_IDX (r / 2 ^ 20 % 32)
    let s := (List.range 17).foldl (fun s n => if (17 * p.val + n) ∈ s.fitted.badSlice then detect (uTMB p n) 4 .u n 0 s else s) s
    mapChanged p s
  | 6 => mapChanged p (s.put P Fld.PLN_UNIT_MEM_CC_ACT 0xFFFF)
  | _ => s

/-- Whether a domain awaits admission or wakes up. -/
def domComing (s : State) (d : Nat) : Bool := bit (s.get (hu .a .PWR) Fld.PWR_DOM_PEND) d || (mget s.pwr.waking d).isSome

/-- Whether no domain of a plane is still to come, and every memory target that its power mode leaves on is READY or fenced. -/
def memoriesReady (s : State) (p : PlaneId) : Bool :=
  (List.range 7).all (fun t => !s.powered (tgtUnit p t) || s.fenced (tgtUnit p t) || s.on (tgtUnit p t) Fld.FMC_STAT_READY) &&
    (List.range 7).all (fun k => !domComing s (4 + 7 * p.val + k))

/-- A plane in BOOT with everything ready becomes ADAPTIVE (Table 15.5 steps 8 and 9). -/
def endBoot (p : PlaneId) (s : State) : State := if s.plnState p = 1 ∧ memoriesReady s p then setPlnState p 2 s else s

/-- DOMAIN_STABLE: an admitted domain's supply is stable within 165,000 beats, and its blocks leave reset (R424). A hub boots; a
CORE domain boots its plane; its other domains join the unit map. -/
def execDomainStable (d : Fin 32) (s : State) : Out :=
  match mget s.pwr.waking d.val with
  | none => .next s
  | some t =>
    if t + 165000 < s.pwr.beat then .next s
    else
      let s := setDom Fld.PWR_DOM_STAT_ON d.val true (s.modPwr (fun x => { x with waking := mdel x.waking d.val }))
      if d.val = 2 then .next (expectReports (hubUnits .a) (bootHub .a s))
      else if d.val = 3 then .next (expectReports (hubUnits .b) (bootHub .b s))
      else if 4 ≤ d.val then
        let p : PlaneId := ⟨(d.val - 4) / 7 % 4, Nat.mod_lt _ (by decide)⟩
        let k := (d.val - 4) % 7
        let s := expectReports ((planeUnits p).filter (fun u => unitDomain u = d.val)) s
        .next (endBoot p (if k = 0 then bootPlane p s else partStable p k s))
      else .next s

/-- MEMORY_READY: a memory target has trained and zeroed every granule (R426). A plane in BOOT whose memories are ready and whose
slices have power becomes ADAPTIVE (Table 15.5 steps 8 and 9). -/
def execMemoryReady (p : PlaneId) (t : Fin 7) (s : State) : Out :=
  let u := tgtUnit p t.val
  if s.powered u ∧ ¬ s.fenced u ∧ ¬ s.on u Fld.FMC_STAT_READY then
    let s := (s.put u Fld.FMC_STAT_READY 1).put64 u Fld.FMC_PATROL_LO_PTR_LO Fld.FMC_PATROL_HI_PTR_HI (if t.val = 6 then 0 else baseF)
    let s := modTgt p (targetKey s p t.val) (fun x => { x with lastRef := s.beats p, lastPatrol := s.beats p }) s
    .next (endBoot p s)
  else .next s

/-! ### Power modes and resets -/

/-- The domains a word names. -/
def domsOf (v : Word) : List Nat := (List.range 32).filter (fun d => v.getLsbD d)

/-- The domains of a plane that a word names, as indices 0 to 6. -/
def planeDoms (v : Word) (p : PlaneId) : List Nat := (List.range 7).filter (fun k => v.getLsbD (4 + 7 * p.val + k))

/-- A power mode may not change now (R426). -/
def powerHeld (s : State) (p : PlaneId) : Bool :=
  let st := s.plnState p
  st = 3 || st = 4 || st = 5 || [0, 1].any (fun b => let x := bankSt s p b
    x = 1 || x = 3 || x = 4 || x = 5)

/-- A range lies in a memory: the N-tier (1) or the F-tier (2). -/
def inTier (k a : Nat) : Bool := if k = 1 then decide (a < baseF) else decide (baseF ≤ a && a < baseS)

/-- A save area of a core lies in a memory. -/
def saveIn (s : State) (p : PlaneId) (k : Nat) : Bool :=
  (List.range 16).any (fun n => let st := coreSt s p n
    (st = 3 || st = 4 || st = 5) && inTier k (s.get64 (uCCX p n) Fld.CCX_SAVE_LO Fld.CCX_SAVE_HI))

/-- A power-off of a domain 1 to 6 is refused (R426). -/
def offRefused (s : State) (p : PlaneId) (k : Nat) : Bool :=
  match k with
  | 1 => !s.domOn (4 + 7 * p.val + 2) || saveIn s p 1
  | 2 => !s.domOn (4 + 7 * p.val + 1) || saveIn s p 2
  | 3 => (List.range 64).any (fun i => (portOf s p i).any (fun n => portState s p n ≠ 0))
  | 4 => (List.range 64).any (fun i => (portOf s p (64 + i)).any (fun n => portState s p n ≠ 0))
  | 5 => (s.pl p).ctxs ≠ []
  | 6 => (List.range 16).any (fun n => coreSt s p n ≠ 0 && coreSt s p n ≠ 4)
  | _ => false

/-- The checks of PWR writes (R426, R428, R443). `h` is the hub through which the write arrives. -/
def pwrVerdict (s : State) (h : HubId) (off : Nat) (v : Word) : Verdict :=
  if off = 0x058 then
    { range := decide (v.toNat % 16 ≠ 0)
      state := (List.finRange 4).any (fun p => planeDoms v p ≠ [] && powerHeld s p) }
  else if off = 0x05C then
    { range := decide (v.toNat % 16 ≠ 0)
      state := (List.finRange 4).any (fun p =>
        let l := planeDoms v p
        l ≠ [] && (powerHeld s p || l.any (fun k =>
          if k = 0 then s.plnState p ≠ 2 && s.plnState p ≠ 6 && !(!s.domOn (4 + 7 * p.val) && domComing s (4 + 7 * p.val))
          else s.domOn (4 + 7 * p.val + k) && offRefused s p k))) }
  else if off = 0x064 then
    let p : PlaneId := ⟨bits v.toNat 5 4 % 4, Nat.mod_lt _ (by decide)⟩
    { range := decide (1 < b2n (v.getLsbD 0) + b2n (v.getLsbD 1) + b2n (v.getLsbD 2))
      state := (v.getLsbD 0 && s.dead.isSome) ||
        (v.getLsbD 1 && (s.plnState p = 3 || s.plnState p = 4 || s.plnState p = 5)) ||
        (v.getLsbD 2 && decide (b2n (v.getLsbD 6) = h.num)) }
  else {}

/-- PWR_DOM_ON requests domains that are neither on nor pending (R425). A request of a plane's CORE domain boots the plane and
requests all seven (Table 15.4). Nothing is requested in the deadbolt state. -/
def domainsOn (v : Word) (s : State) : State :=
  if s.dead.isSome then s
  else (List.finRange 4).foldl (fun s p =>
    let l := planeDoms v p
    let on := s.domOn (4 + 7 * p.val)
    let pend := bit (s.get (hu .a .PWR) Fld.PWR_DOM_PEND) (4 + 7 * p.val)
    let l := if 0 ∈ l ∧ ¬ on ∧ ¬ pend then List.range 7 else l
    let s := if 0 ∈ l ∧ ¬ on ∧ ¬ pend ∧ (mget s.pwr.waking (4 + 7 * p.val)).isNone then resetPlane false p s else s
    l.foldl (fun s k =>
      let d := 4 + 7 * p.val + k
      if s.domOn d ∨ (mget s.pwr.waking d).isSome then s else setDom Fld.PWR_DOM_PEND d true s) s) s

/-- PWR_DOM_OFF powers domains off, or withdraws their requests (R425, R426). -/
def domainsOff (v : Word) (s : State) : State :=
  (List.finRange 4).foldl (fun s p =>
    let l := planeDoms v p
    if 0 ∈ l then powerOffPlane p s
    else l.foldl (fun s k => if s.domOn (4 + 7 * p.val + k) then powerOffPart p k s else dropDomain (4 + 7 * p.val + k) s) s) s

/-- A module reset (R427), in the beat after its write: every domain but STBY and MCLK is cycled through admission, and the boot chain runs again. (DEDUCED, log 59) -/
def moduleReset (s : State) : State :=
  if s.dead.isSome then s
  else
    let lv (h : HubId) : Bool := (s.hub h).aliveLevel
    let t := (allOff true s).put (hu .a .PWR) Fld.PWR_DOM_STAT_ON 3
    let t := (t.modHub .a (fun x => { x with aliveLevel := lv .a })).modHub .b (fun x => { x with aliveLevel := lv .b })
    beginStart t

/-- A plane reset (R427, R428): the plane's requests are withdrawn, and its seven domains are requested again in the next beat.
The planes of a module in the deadbolt state stay as it left them (R408). -/
def planeReset (p : PlaneId) (s : State) : State :=
  if s.dead.isSome then s else (resetPlane false p s).modPwr (fun x => { x with planesDue := insertNat p.val x.planesDue })

/-- The seven domains of a plane are requested (R428). -/
def requestPlane (s : State) (p : Nat) : State := (List.range 7).foldl (fun s k => setDom Fld.PWR_DOM_PEND (4 + 7 * p + k) true s) s

/-- A beat of the power controller's counter begins: a module reset of the beat before acts, where the deadbolt state has not been entered
with it, and the planes reset in it are requested (R428). -/
def powerBeat (s : State) : State :=
  let due := s.pwr.resetDue
  let l := s.pwr.planesDue
  let s := s.modPwr (fun x => { x with beat := x.beat + 1, resetDue := false, planesDue := [] })
  if s.dead.isSome then s else if due then moduleReset s else l.foldl requestPlane s

/-- The effects of PWR writes. -/
def pwrEffect (off : Nat) (v : Word) (s : State) : State :=
  if off = 0x040 then pickFeed s
  else if off = 0x058 then domainsOn v s
  else if off = 0x05C then domainsOff v s
  else if off = 0x064 then
    if v.getLsbD 0 then s.modPwr (fun x => { x with resetDue := true })
    else if v.getLsbD 1 then planeReset ⟨bits v.toNat 5 4 % 4, Nat.mod_lt _ (by decide)⟩ s
    else if v.getLsbD 2 ∧ s.dead.isNone then resetHub (if v.getLsbD 6 then .b else .a) s
    else s
  else s

/-- A domain admitted in the beat in which a hasp's reaction powers it off has spent no credit (R425). -/
def refund (s : State) (d : Nat) : State :=
  if mget s.pwr.waking d = some s.pwr.beat then
    s.put (hu .a .PWR) Fld.PWR_CREDIT (min (s.get (hu .a .PWR) Fld.PWR_CREDIT + domCharge d) 20000)
  else s

/-- FENCE_POWER_OFF: the domains of a fenced plane finish powering off, or those of a fenced hub (R404, R409, R425). -/
def execFencePowerOff (u : Nat) (s : State) : Out :=
  match unitPlane u, unitHub u with
  | some p, _ =>
    if s.planeFenced p then .next (powerOffPlane p ((List.range 7).foldl (fun t k => refund t (4 + 7 * p.val + k)) s)) else .next s
  | none, some h => if s.hubFenced h then .next (resetHubState true h (refund s (2 + h.num))) else .next s
  | none, none => .next s

/-! ### The I3C target (R467) -/

/-- A word of the I3C target map (Table 17.7). The input power and the die temperature are measurements: free values `m`. (DESIGN CHOICE, log 88) -/
def i3cWord (s : State) (m : Nat) (off : Nat) : Word :=
  let hubs : Bool := s.powered (hu .a .HUB) || s.powered (hu .b .HUB)
  match off with
  | 0x00 => s.ident.serial.setWidth 32
  | 0x04 => (s.ident.serial >>> 32).setWidth 32
  | 0x08 => s.reg (hu .a .PWR) 0x044
  | 0x0C => s.reg (hu .a .PWR) 0x048
  | 0x10 => BitVec.ofNat 32 (m % 65536)
  | 0x14 => s.reg (hu .a .PWR) 0x050
  | 0x18 => if s.powered (hu .a .FCL) then s.reg (hu .a .FCL) 0x044 else 0
  | 0x1C => if s.powered (hu .b .FCL) then s.reg (hu .b .FCL) 0x044 else 0
  | 0x20 => if hubs then BitVec.ofNat 32 (m / 65536 % 256) else 0
  | _ => 0

/-- I3C_READ: a private read at an offset returns words of the target map; the debug range is not in it. -/
def execI3cRead (addr : Nat) (off : Byte) (n : Nat) (s : State) : Out :=
  if s.domOn 0 ∧ s.pwr.i3cAddr = some addr then
    let m := s.takeFree
    .next (m.2.emit (.i3c ((List.range n).flatMap (fun i => bytesOf 4 (i3cWord s m.1.toNat (off.toNat + 4 * i)).toNat))))
  else .next s

/-- Whether DBG_LEVEL bit 0 is 1 in a Keyplate. -/
def debugOpen (s : State) : Bool := bit (s.get (hu .a .KPL) Fld.KPL_STAT_DBG_LEVEL) 0 || bit (s.get (hu .b .KPL) Fld.KPL_STAT_DBG_LEVEL) 0

/-- I3C_WRITE: a private write is ignored, or reaches the debug module interface at offsets 0x80 to 0xFF (R467). -/
def execI3cWrite (addr : Nat) (off : Byte) (d : List Byte) (s : State) : Out :=
  if s.domOn 0 ∧ s.pwr.i3cAddr = some addr ∧ debugOpen s ∧ 0x80 ≤ off.toNat then .next (s.emit (.debug off.toNat d)) else .next s

/-- I3C_TIMEOUT: a transaction as target exceeds 165,000 beats and is abandoned without a fault (Table 14.11). A transaction is one
command here, so none is left to abandon. -/
def execI3cTimeout (s : State) : Out := .next s

/-- ENTDAA: the target answers with its provisional ID and takes its dynamic address (R467). -/
def execEntdaa (addr : Nat) (s : State) : Out :=
  if s.domOn 0 ∧ s.pwr.i3cAddr.isNone then
    .next ((s.emit (.i3cId (s.ident.serial.toNat % 2 ^ 48))).modPwr (fun x => { x with i3cAddr := some addr }))
  else .next s

/-! ### Management cores (R442) -/

/-- The registers of a management-core block: a plane's MGC page, or the HUB page with cores 0 and 1. -/
def mgcCores (u : Nat) : Nat := if u < 0x400 then 4 else 2

/-- The checks of MGC writes: RUN is for hub firmware. -/
def mgcVerdict (acc : Accessor) (off : Nat) (v : Word) : Verdict :=
  let isHubCore := match acc with
    | .hubCore _ => true
    | _ => false
  if off = 0x040 then { state := decide (v.toNat % 16 ≠ 0) && !isHubCore } else {}

/-- The beats at which the watchdogs of a unit's running cores were restarted. -/
def mgcDogs (s : State) (u : Nat) : SMap Nat :=
  match unitPlane u, unitHub u with
  | some p, _ => (s.pl p).mgcDog
  | none, some h => (s.hub h).wdog
  | none, none => []

/-- Change them. -/
def setMgcDogs (u : Nat) (d : SMap Nat) (s : State) : State :=
  match unitPlane u, unitHub u with
  | some p, _ => s.modPl p (fun x => { x with mgcDog := d })
  | none, some h => s.modHub h (fun x => { x with wdog := d })
  | none, none => s

/-- RUN, HALT and KICK (R442). Writes of RUN start halted cores; HALT halts; KICK restarts the watchdogs named that have
not expired. -/
def mgcEffect (u off : Nat) (v : Word) (s : State) : State :=
  let m := 2 ^ mgcCores u - 1
  let now := unitBeat s u
  if off = 0x040 then
    let run := v.toNat % 16 &&& m
    let halt := v.toNat / 16 % 16 &&& m
    let old := s.get u Fld.MGC_STAT_RUNNING
    let new := (old ||| run) &&& (0xF - halt)
    let d := (List.range 4).foldl (fun d n => if bit new n ∧ ¬ bit old n then mput d n now else if bit new n then d else mdel d n) (mgcDogs s u)
    setMgcDogs u d (s.put u Fld.MGC_STAT_RUNNING new)
  else if off = 0x048 then
    setMgcDogs u ((List.range 4).foldl (fun d n =>
      if v.getLsbD n ∧ bit (s.get u Fld.MGC_STAT_RUNNING) n ∧ now ≤ mgetD d n 0 + 16500000 then mput d n now else d) (mgcDogs s u)) s
  else s

/-- MGC_WATCHDOG: a core has not been kicked for 16,500,000 beats: MGC_WDOG, or HUB_WDOG, which fences the hub (R442, R88). -/
def execMgcWatchdog (u : Nat) (n : Fin 4) (s : State) : Out :=
  let hub := u = hu .a .HUB ∨ u = hu .b .HUB
  if (hub ∨ (unitBlk u).map (·.1) = some .MGC) ∧ s.powered u ∧ ¬ s.fenced u ∧ bit (s.get u Fld.MGC_STAT_RUNNING) n.val ∧
      mgetD (mgcDogs s u) n.val 0 + 16500000 < unitBeat s u then
    let s := s.put u Fld.MGC_STAT_WDOG_HIT (s.get u Fld.MGC_STAT_WDOG_HIT ||| 2 ^ n.val)
    let s := setMgcDogs u (mdel (mgcDogs s u) n.val) (s.put u Fld.MGC_STAT_RUNNING (s.get u Fld.MGC_STAT_RUNNING &&& (0xF - 2 ^ n.val)))
    .next (detect u (if hub then 3 else 2) .u n.val 0 s)
  else .next s

end Sys2Proof.Machine
end

