-- ==== Sys2Proof/Machine/SoftReset.lean ====
section
/-! DEFINITION. Sys2Proof/Machine/SoftReset.lean: a block's soft reset (R55): when it is refused, what it clears beyond the block's
registers, and its end. -/

namespace Sys2Proof.Machine

/-- The cases in which an SRST write is rejected with STATE (R55). -/
def srstState (s : State) (u : Nat) (b : Blk) : Bool :=
  let armed : Bool := match unitPlane u with
    | some p => (s.plnState p = 3 || s.plnState p = 4) && b ≠ .PMU
    | none => false
  let banks : Bool := match unitPlane u with
    | some p => (b = .KSQ || b = .XPT || b = .TMB) && [0, 1].any (fun i => bankSt s p i = 1 || bankSt s p i = 5)
    | none => false
  armed || banks || (s.on u Fld.BLK_CTRL_LOCK && !s.testMode)

/-- Registers a soft reset keeps: the unit map (R30), ROLE and FOR_POS of a slice (R157), and the power
controller, which stands in STBY apart from the page. (DESIGN CHOICE, log 37) -/
def srstKeep (b : Blk) : List Nat :=
  match b with
  | .PLN => [0x048, 0x04C, 0x050, 0x054, 0x058]
  | .TMB => [0x040]
  | .PWR => pwrKeep.filter (· ≠ 0x040)
  | _ => []

/-- The adaptive switch core's buffer empties; each held cell's credit goes back. -/
def emptySwitch (p : PlaneId) (s : State) : State :=
  let s := (s.fab p).bufs.foldl (fun t e => returnOpt p e.2.credit t) s
  modFab p (fun f => { f with arrived := [], frames := [], cands := [], queues := [], bufs := [], robs := [], tbl := [], flip := none
                              links := f.links.map (fun e => (e.1, { e.2 with asm := [] })) }) s

/-- What a soft reset of a plane block clears beyond its registers: the state its fields show. -/
def srstPlane (p : PlaneId) (b : Blk) (n : Nat) (s : State) : State :=
  match b with
  | .PLN => s.modPl p (fun x => { x with relock := none })
  | .FTM => (s.modPl p (fun x => { x with ftm := { ft := x.ftm.ft, beats := x.ftm.beats } })).put (pu p .PLN) Fld.PLN_STATE_FT_LOCKED 0
  | .LAT => s.modPl p (fun x => { x with latch := [] })
  | .KSQ => freePatterns p 1 (freePatterns p 0 (s.modPl p (fun x => { x with keys := [{}, {}], swapLow := none })))
  | .XPT => s.modPl p (fun x => { x with xpt := [] })
  | .TMB => match pagePos s p n with
    | some q => s.modPl p (fun x => { x with ctxs := x.ctxs.filter (fun e => e.1 / 16 ≠ q), captures := mdel x.captures n })
    | none => s
  | .SPM => s.modPl p (fun x => { x with applyAt := none })
  | .FPT =>
    let s := dropLane p n s
    if upperLane s p n then s
    else
      let s := checkCommit p (dropCredits p n (modFab p (fun f => { f with links := mdel f.links n }) s))
      followUpstream p (if portPen s p n then startTraining p n s else s)
  | .RTE => modFab p (fun f => { f with resume := false, resumeHit := false, sample := false, left := [] }) s
  | .SWC => emptySwitch p s
  | .QSH => modFab p (fun f => { f with qs := [], ps := [] }) s
  | .POL => modFab p (fun f => { f with pols := [] }) s
  | .CCX => s.modPl p (fun x => { x with cores := mdel x.cores n, feeds := x.feeds.filter (fun f => f.core ≠ n) })
  | .GRQ => s.modPl p (fun x => { x with groups := [], lateCommit := none })
  | .SYN => s.modPl p (fun x => { x with syncs := [], syncLog := [] })
  | .PMU => s.modPl p (fun x => { x with events := [], coreEvents := [], samples := [], pmuOld := [], snapDue := false })
  | .MGC => s.modPl p (fun x => { x with mgcDog := [] })
  | _ => s

/-- What a soft reset of a hub block clears beyond its registers; `was` is the state before it. -/
def srstHub (h : HubId) (b : Blk) (was s : State) : State :=
  match b with
  | .HUB => s.modHub h (fun x => { x with wdog := [] })
  | .PCI =>
    let s := s.put (hu h .PCI) Fld.PCI_LEASE_HOLDER (holder was)
    (endLease h s).modHub h (fun x => { x with pci := { x.pci with msix := [], pba := [], msixEn := false, cfg := [] } })
  | .MBX => loseChannels h s
  | .FCL => aliveWrite h false (freshViews h s)
  | .KPL => dropImage h (s.modHub h (fun x => { x with kpl := { x.kpl with cmd := none, nonceSet := false, spdm := {} } }))
  | .TRF => followReferences (s.modHub h (fun x => { x with ppsAt := none, ptp := {} }))
  | _ => s

/-- An accepted SRST write (R55): every field of the block returns to its reset value and RST_BUSY is 1. (DESIGN CHOICE, log 37) -/
def softReset (u : Nat) (b : Blk) (n : Nat) (was : State) : State :=
  let s := { (was.eraseRegs u (srstKeep b)) with rep := mdel was.rep u, pulse := mdel was.pulse u }
  let s := match unitPlane u with
    | some p => srstPlane p b n s
    | none => match unitHub u with
      | some h => srstHub h b was s
      | none => s
  s.put u Fld.BLK_STAT_RST_BUSY 1

/-- PLN_STATE shows the plane again: ADAPTIVE once its memories are ready, and whether fabric time is locked. (DESIGN CHOICE, log 37) -/
def showPlane (p : PlaneId) (s : State) : State :=
  let s := if memoriesReady s p ∧ s.powered (uTMB p 0) ∧ ¬ s.planeFenced p then setPlnState p 2 s else s
  s.put (pu p .PLN) Fld.PLN_STATE_FT_LOCKED (b2n (s.get (pu p .FTM) Fld.FTM_STAT_STATE = 3 || s.get (pu p .FTM) Fld.FTM_STAT_STATE = 4))

/-- SOFT_RESET_DONE: RST_BUSY clears; the plane, the hub links and the Keyplate show their state again. (DEDUCED, log 12) -/
def execSoftResetDone (u : Nat) (s : State) : Out :=
  if ¬ s.powered u ∨ ¬ s.on u Fld.BLK_STAT_RST_BUSY then .next s
  else
    let s := s.put u Fld.BLK_STAT_RST_BUSY 0
    match unitHub u, unitBlk u with
    | some h, some (.HUB, _) => .next ((List.finRange 4).foldl (fun t p => showLink h p t) s)
    | none, some (.PLN, _) => .next (showPlane (planeOf (u / 256)) s)
    | some h, some (.KPL, _) => .next (showSvn h (s.put u Fld.KPL_STAT_STATE (if (s.hub h).booted then 1 else 3)))
    | _, _ => .next s

end Sys2Proof.Machine
end

