-- ==== Sys2Proof/Machine/Regs.lean ====
section
/-! DEFINITION. Sys2Proof/Machine/Regs.lean: the BAR0 map (R61 to R64), what a register reads (R44, R53, R56), the checks of a write in
the order of Table 2.3, and a write's effect (R43 to R57). -/

namespace Sys2Proof.Machine

/-! ### The map -/

/-- Pages that a block implements. FPT has the second page that the example of R64 reads. (DEDUCED, log 36) -/
def pagesOf : Blk → Nat
  | .SYN => 16 | .GRQ => 5 | .PMU => 5 | .PCI => 5 | .SVC => 3 | .RTE => 193 | .FPT => 2 | _ => 1

/-- The single-instance plane blocks of Table 2.6 in order of their ranges. -/
def rangeCodes : List Nat := [0x01, 0x02, 0x03, 0x04, 0x07, 0x08, 0x0D, 0x0E, 0x0F, 0x11, 0x12, 0x13, 0x14]

/-- The unit and block offset at an offset from a plane's base (Table 2.6). -/
def planeAt (o : Nat) : Option (Nat × Nat) :=
  let inst (base n code stride : Nat) : Option (Nat × Nat) :=
    if base ≤ o ∧ o < base + n * stride then some (code + (o - base) / stride, (o - base) % stride) else none
  if o < 0xD0000 then (rangeCodes[o / 0x10000]?).map (fun c => (c, o % 0x10000))
  else if 0x100000 ≤ o ∧ o < 0x200000 then some (0x05, o - 0x100000)
  else if o < 0x300000 then inst 0x200000 6 0x38 0x10000
  else if o < 0x400000 then inst 0x300000 2 0x3E 0x10000
  else if o < 0x600000 then inst 0x400000 17 0x20 0x10000
  else if o < 0x800000 then inst 0x600000 16 0x40 0x10000
  else if o < 0x1000000 then inst 0x800000 128 0x80 0x4000
  else if o < 0x1800000 then some (0x0C, o - 0x1000000)
  else none

/-- The unit and block offset at a BAR0 offset, where a page holds it (R53, R62, R63). -/
def locate (a : Nat) : Option (Nat × Nat) :=
  let hit : Option (Nat × Nat) :=
    if a < 0x1000000 then
      let o := a % 0x800000
      if o < 0x80000 then some (0x400 + 16 * (a / 0x800000) + o / 0x10000, o % 0x10000) else none
    else if a < 0x9000000 then
      let p := (a - 0x1000000) / 0x2000000
      (planeAt ((a - 0x1000000) % 0x2000000)).map (fun e => (256 * p + e.1, e.2))
    else none
  hit.bind (fun e => match unitBlk e.1 with
    | some (b, _) => if e.2 / 4096 < pagesOf b then some e else none
    | none => none)

/-- The fields of the register at an offset of a block. In the HUB page the registers of cores 2 and 3 are not there (R33, R442). -/
def regFields (b : Blk) (off : Nat) : List RField :=
  let l := fieldsAt b off
  if b = .HUB ∧ 0x300 ≤ off then l.filter (fun f => f.off ≠ 0x100) else l

/-! ### Reads -/

/-- BLK_ID of a page (Table 2.2). -/
def blkId (u : Nat) (b : Blk) (n page : Nat) : Nat :=
  let site := match unitHub u with
    | some h => 4 + h.num
    | none => u / 256
  n + 256 * b.code + 2 ^ 16 * site + 2 ^ 20 * page

/-- The header registers that show other state. (DESIGN CHOICE, log 17) -/
def headerRead (s : State) (u : Nat) (b : Blk) (n off : Nat) : Option Word :=
  match off % 4096 with
  | 0x000 => some (BitVec.ofNat 32 (blkId u b n (off / 4096)))
  | 0x004 => some (BitVec.ofNat 32 (s.ident.stepping + 0x100))
  | 0x00C =>
    let w := s.reg u 0x00C
    let w := fieldSet w Fld.BLK_STAT_LOCKED (s.get u Fld.BLK_CTRL_LOCK)
    some (fieldSet (fieldSet w Fld.BLK_STAT_EN_NOW (s.get u Fld.BLK_CTRL_EN)) Fld.BLK_STAT_TEST (b2n s.testMode))
  | 0x010 => some (rawIrq s u)
  | _ => none

/-- A quantity that the module measures and no command brings in: a free value at each state. (DESIGN CHOICE, log 7) (DESIGN CHOICE, log 88) -/
def measured (s : State) : Nat := (Config.freeDword s.fresh).toNat

/-- The plane registers that show other state than the register store. -/
def planeView (s : State) (p : PlaneId) (b : Blk) (n off : Nat) : Option Word :=
  let w (v : Nat) : Option Word := some (BitVec.ofNat 32 v)
  let ref (t : Nat) : Option Word := w (min (sinceRef s p t) 0xFFFF)
  let stat (t : Nat) (v : Word) : Option Word :=
    let hot := v.getLsbD 4
    let seen := fieldGet v Fld.FMC_STAT_TEMP ≠ 0
    some (fieldSet (fmcStat s p t v) Fld.FMC_STAT_TEMP (if hot then 86 + measured s % 170 else if seen then measured s % 86 else 0))
  match b with
  | .TMB => tmbRead s p n off
  | .XPT => xptRead s p off
  | .NMC => if off = 0x044 then stat 6 (s.reg (pu p .NMC) off) else if off = 0x048 then ref 6 else none
  | .FMC => if off = 0x044 then stat n (s.reg (uFMC p n) off) else if off = 0x048 then ref n else none
  | .SPM => spmRead s p off
  | .CCX => ccxRead s p n off
  | .SYN => synRead s p off
  | .GRQ => grqRead s p off
  | .RTE => rteRead s p off
  | .SWC => swcRead s p off
  | .QSH => qshRead s p off
  | .POL => polRead s p off
  | .FPT => if off < 0x1000 then fptRead s p n off else none
  | .SDS => if off = 0x05C then w (if s.get (uSDS p n) Fld.SDS_TEMP = 0 then 0 else measured s % 256) else sdsRead s p n off
  | .PMU => pmuRead s off
  | .MGC => if 0x04C ≤ off ∧ off < 0x05C then w (mgcNext s (pu p .MGC) ((off - 0x04C) / 4)) else none
  | _ => none

/-- The hub registers that show other state than the register store. -/
def hubView (s : State) (h : HubId) (b : Blk) (off : Nat) : Option Word :=
  let w (v : Nat) : Option Word := some (BitVec.ofNat 32 v)
  match b with
  | .HUB => if off = 0x04C ∨ off = 0x050 then w (mgcNext s (hu h .HUB) ((off - 0x04C) / 4)) else if off = 0x054 ∨ off = 0x058 then w 0 else none
  | .PCI => if off = 0x04C then w (if holder s = 0 then 0 else leaseLeft s / 1650) else none
  | .FCL => if off = 0x050 then some (fclUStat s h) else none
  | .PWR => if off = 0x04C then w (if s.pwr.running then measured s % 65536 else 0) else none
  | _ => none

/-- The registers that a block shows from other state; they are not kept in the register store. -/
def viewReg (s : State) (u off : Nat) (b : Blk) (n : Nat) : Option Word :=
  if off % 4096 < 0x40 then headerRead s u b n off
  else match unitPlane u with
    | some p => planeView s p b n off
    | none => match unitHub u with
      | some h => hubView s h b off
      | none => none

/-- What the register at an offset of a unit reads (R44, R55, R56): 0 without power or where no register is, the reset value during a
soft reset. -/
def readUnit (s : State) (u off : Nat) : Word :=
  match unitBlk u with
  | none => 0
  | some (b, n) =>
    if ¬ s.powered u ∨ regFields b off = [] then 0
    else if s.on u Fld.BLK_STAT_RST_BUSY ∧ off % 4096 ≠ 0x000 ∧ off % 4096 ≠ 0x004 then
      if off % 4096 = 0x00C then fieldSet (fieldSet 0 Fld.BLK_STAT_RST_BUSY 1) Fld.BLK_STAT_TEST (b2n s.testMode) else resetVal s u off
    else (viewReg s u off b n).getD (s.reg u off)

/-- What a read of a BAR0 offset returns (R43, R53): the bytes from that offset to the end of its 32-bit register, the addressed one
lowest. (DESIGN CHOICE, log 74) -/
def readBar0 (s : State) (a : Nat) : Word :=
  match locate (a / 4 * 4) with
  | some (u, off) => readUnit s u off >>> (8 * (a % 4))
  | none => 0

/-! ### The checks of a write (Table 2.3) -/

/-- The checks of a plane block's own registers. -/
def planeVerdict (s : State) (p : PlaneId) (b : Blk) (n off : Nat) (v : Word) : Verdict :=
  match b with
  | .PLN => plnVerdict s p off v
  | .FTM => ftmVerdict s p off v
  | .LAT => latVerdict s p off v
  | .KSQ => ksqVerdict s p off v
  | .TMB => tmbVerdict s p n off v
  | .SPM => spmVerdict s p off v
  | .NMC => fmcVerdict s p 6 off v
  | .FMC => fmcVerdict s p n off v
  | .FPT => if off < 0x1000 then fptVerdict s p n off v else {}
  | .SDS => sdsVerdict s p n off v
  | .RTE => rteVerdict s p off v
  | .SWC => swcVerdict s p off v
  | .POL => polVerdict s p off v
  | .QSH => { range := off = 0x078 && decide (1 < b2n (v.getLsbD 0) + b2n (v.getLsbD 1)) }
  | .CCX => ccxVerdict s p n off v
  | .GRQ => grqVerdict s p off v
  | .PMU => pmuVerdict s p off v
  | _ => {}

/-- The checks of a hub block's own registers. A write of EN = 1 to a closed hub link is rejected (R33). -/
def hubVerdict (s : State) (acc : Accessor) (h : HubId) (b : Blk) (off : Nat) (v : Word) : Verdict :=
  match b with
  | .HUB =>
    if 0x400 ≤ off ∧ off < 0x440 ∧ off % 16 = 0 then { state := v.getLsbD 0 && linkShut s h (planeOf ((off - 0x400) / 16)) }
    else mgcVerdict acc off v
  | .PCI => pciVerdict s acc h off v
  | .MBX => mbxVerdict s h off v
  | .FCL => fclVerdict s acc h off v
  | .PWR => pwrVerdict s h off v
  | .KPL => kplVerdict s h off v
  | .SVC => svcVerdict s acc h off v
  | _ => {}

/-- The checks of the header registers (R48, R50, R55). -/
def headerVerdict (s : State) (u : Nat) (b : Blk) (off : Nat) (v : Word) : Verdict :=
  match off % 4096 with
  | 0x008 => { state := v.getLsbD 1 && srstState s u b }
  | 0x030 => injVerdict s b v
  | _ => {}

/-- A register whose checks wait for the write that completes its block's configuration (R58): ENT_CFG of a latch entry, KSQ_SRC_LEN, the
staging copies of GRQ and POL, RTE_EXT and KPL_SRC_LEN. -/
def staged (b : Blk) (off : Nat) : Bool :=
  match b with
  | .LAT => decide (0x400 ≤ off) && off % 0x20 = 4
  | .KSQ => off = 0x04C
  | .GRQ => off = 0x044 || off = 0x04C
  | .RTE => off = 0x044
  | .POL => decide (0x044 ≤ off ∧ off ≤ 0x050)
  | .KPL => off = 0x050
  | _ => false

/-- SPM_PART_CFG, whose fields APPLY checks against Table 9.4 (R272). -/
def stagedRange (b : Blk) (off : Nat) : Bool := b = .SPM && off = 0x040

/-- The checks that the Meaning cells state, at this write (R57, R58). -/
def fieldVerdict (b : Blk) (off : Nat) (fs : List RField) (v : Word) : Verdict :=
  let r := legalVerdict fs v
  { r with zero := r.zero && !staged b off && !stagedRange b off, range := r.range && !stagedRange b off }

/-- A port's field in the page of one of its upper lanes takes nothing but 0, and one that can only be read as well (R309). -/
def upperWrite (s : State) (u : Nat) (b : Blk) (n off : Nat) (v : Word) : Bool :=
  b = .FPT && portReg off && v ≠ 0 && (unitPlane u).any (fun p => upperLane s p n)

/-- The verdict of a block on a write. (DEDUCED, log 38) -/
def blockVerdict (s : State) (acc : Accessor) (u : Nat) (b : Blk) (n off : Nat) (v : Word) : Verdict :=
  if off % 4096 < 0x40 then headerVerdict s u b off v
  else
    -- A locked RWL field takes no value, and none is rejected for it (R54).
    let lock := s.on u Fld.BLK_CTRL_LOCK
    let open' := (regFields b off).filter (fun f => !(lock && f.acc = .rwl))
    let w := unlockedValue (regFields b off) lock (s.reg u off) v
    let own : Verdict := match unitPlane u with
      | some p => if b = Blk.MGC then mgcVerdict acc off w else planeVerdict s p b n off w
      | none => match unitHub u with
        | some h => hubVerdict s acc h b off w
        | none => {}
    -- Fields that only can be read take no value either, and none is rejected for them (R12).
    if (regFields b off).all (fun f => f.acc = .ro || f.acc = .res || (lock && f.acc = .rwl)) then { state := upperWrite s u b n off v }
    else own.or (fieldVerdict b off open' v)

/-- The reserved bits of a register, as a mask (Table 2.3 RESERVED): those no field covers, the interrupts that the block does not
define, the bits of management cores that a hub has not, the routing entries of numbers that Table 13.4 does not assign. -/
def reservedBits (b : Blk) (off : Nat) : Word :=
  if off % 4096 = 0x014 then ~~~ BitVec.ofNat 32 (irqDefined b + 0xE0000000)
  else
    let base := reservedMask (regFields b off)
    match b with
    | .HUB => if off = 0x040 then base ||| 0xCC#32 else if off = 0x044 then base ||| 0xC00#32 else if off = 0x048 then base ||| 0xC#32
              else if off = 0x054 ∨ off = 0x058 then BitVec.allOnes 32 else base
    | .PCI => if routeReserved off then BitVec.allOnes 32 else base
    | _ => base

/-- A write sets a reserved bit. -/
def writesReserved (s : State) (u : Nat) (b : Blk) (off : Nat) (v : Word) : Bool :=
  (v &&& reservedBits b off) ≠ 0 || (match b, unitPlane u with
    | .SWC, some p => swcReserved s p off v
    | _, _ => false)

/-- A command of the block is in progress. -/
def unitBusy (s : State) (u : Nat) (b : Blk) (off : Nat) : Bool :=
  s.on u Fld.BLK_STAT_RST_BUSY || (match b, unitPlane u, unitHub u with
    | .SPM, some p, _ => spmBusy s p off
    | .KPL, none, some h => kplBusy s h off
    | _, _, _ => false)

/-- The registers that a closed hasp leaves writable (Table 2.3). -/
def fenceOpen (off : Nat) : Bool := off % 4096 = 0x00C || off % 4096 = 0x018 || off % 4096 = 0x01C

/-- The first condition that rejects a write, `full` saying whether it enables four bytes. -/
def checkWrite (s : State) (acc : Accessor) (u : Nat) (b : Blk) (n off : Nat) (full : Bool) (v : Word) : Option RejCode :=
  firstReject (!full || off % 4 ≠ 0) (regFields b off).isEmpty (unitBusy s u b off) (s.fenced u && !fenceOpen off)
    (blockVerdict s acc u b n off v) (writesReserved s u b off v)

/-! ### The effect of a write -/

/-- The effects of a write of a plane block's own registers; `old` is the register before it. -/
def planeEffect (p : PlaneId) (b : Blk) (n off : Nat) (v old : Word) (s : State) : State :=
  match b with
  | .PLN => plnEffect p off v s
  | .FTM => ftmEffect p off v old s
  | .LAT => latEffect p off v s
  | .KSQ => ksqEffect p off v s
  | .TMB => tmbEffect p n off v s
  | .SPM => spmEffect p off v s
  | .NMC => fmcEffect p 6 off v s
  | .FMC => fmcEffect p n off v s
  | .FPT => if off = 0x040 ∧ ¬ upperLane s p n then penEffect p n (old.getLsbD 0) s else s
  | .RTE => rteEffect p off v s
  | .SWC => swcEffect p off v s
  | .QSH => qshEffect p off v s
  | .POL => polEffect p off v s
  | .CCX => ccxEffect p n off v s
  | .GRQ => grqEffect p off v s
  | .SYN => synEffect p off v s
  | .PMU => pmuEffect p off v old s
  | .MGC => mgcEffect (pu p .MGC) off v s
  | _ => s

/-- The effects of a write of a hub block's own registers. Writing EN = 0 closes a hub link (R33). -/
def hubEffect (acc : Accessor) (h : HubId) (b : Blk) (off : Nat) (v old : Word) (s : State) : State :=
  match b with
  | .HUB =>
    if 0x400 ≤ off ∧ off < 0x440 ∧ off % 16 = 0 then (if v.getLsbD 0 then s else closeHubLink h ((off - 0x400) / 16) s)
    else mgcEffect (hu h .HUB) off v s
  | .PCI => pciEffect acc off v s
  | .FCL => fclEffect h off v s
  | .PWR => pwrEffect off v s
  | .KPL => kplEffect h off v s
  | .SVC => svcEffect h off v s
  | .TRF => if off = 0x040 then trfEffect h v old s else s
  | _ => s

/-- The effects of a write of a header register (R46 to R51, R417): LOCK is only set; clearing REJ clears its record; clearing PCI
interrupt bit 0 ends the record of a change of HOLDER (R390). -/
def headerEffect (u : Nat) (b : Blk) (n off : Nat) (v old : Word) (s : State) : State :=
  match off % 4096 with
  | 0x008 => if old.getLsbD 2 then s.put u Fld.BLK_CTRL_LOCK 1 else s
  | 0x00C => if v.getLsbD 0 then s.setReg u 0x00C ((s.reg u 0x00C) &&& 0x000000FE#32) else s
  | 0x018 =>
    match b, unitHub u with
    | .PCI, some h => if v.getLsbD 0 then s.modHub h (fun x => { x with pci := { x.pci with holderChg := false } }) else s
    | _, _ => s
  | 0x01C => if v.getLsbD 3 then ackFault u s else s
  | 0x030 => if v.getLsbD 31 then inject u b v s else s
  | 0x034 => if v.getLsbD 8 then fenceUnit u 1 s else s
  | _ => s

/-- Whether a write leaves the stored value of its register alone: the register shows other state, or the write is a latch command
that carries configuration it does not apply (R95). -/
def storeSkips (s : State) (u : Nat) (b : Blk) (n off : Nat) (v : Word) : Bool :=
  (0x40 ≤ off % 4096 && (viewReg s u off b n).isSome) || (b = .LAT && latKeep off v)

/-- An accepted write: it is counted, stored by the access types of the register's fields, and has its effect. (DEDUCED, log 38) -/
def acceptWrite (acc : Accessor) (u : Nat) (b : Blk) (n off : Nat) (v : Word) (s : State) : State :=
  if off % 4096 = 0x008 ∧ v.getLsbD 1 then softReset u b n s
  else
    let fs := regFields b off
    let locked := s.on u Fld.BLK_CTRL_LOCK
    let old := s.reg u off
    let s := if lockHit fs locked old v then s.put u Fld.BLK_STAT_LOCK_HIT 1 else s
    let s := if storeSkips s u b n off v then s else s.setReg u off (mergeWrite fs locked old v)
    let s := s.inc u Fld.BLK_SEQ
    if off % 4096 < 0x40 then headerEffect u b n off v old s
    else match unitPlane u with
      | some p => planeEffect p b n off (mergeWrite fs locked old v ||| (v &&& accMask fs (fun a => a = .wo || a = .w1c))) old s
      | none => match unitHub u with
        | some h => hubEffect acc h b off (mergeWrite fs locked old v ||| (v &&& accMask fs (fun a => a = .wo || a = .w1c))) old s
        | none => s

/-- The interrupts of a unit latch at once after a write that reached it (R51); `was` says whether its request was asserted before.
(DEDUCED, log 9) -/
def latchAfter (was : Bool) (u : Nat) (s : State) : State :=
  if s.powered u ∧ s.reg u 0x014 ≠ 0 then latchWas was u s else s

/-- The rejection code that a write of a block with power meets, where it is rejected. -/
def writeCode (s : State) (acc : Accessor) (u off : Nat) (full : Bool) (v : Word) : Option RejCode :=
  match unitBlk u with
  | none => none
  | some (b, n) => if s.powered u then checkWrite s acc u b n off full v else none

/-- A COMMIT of GRQ that is rejected with STATE may follow a QDONE of its beat (R250): it is kept. -/
def noteLate (u off : Nat) (c : RejCode) (v : Word) (before after : State) : State :=
  match unitPlane u with
  | some p =>
    if u = pu p .GRQ ∧ off = 0x064 ∧ c = .state then
      after.modPl p (fun x => { x with lateCommit := some { beat := x.ftm.beats, keep := v.getLsbD 1
                                                            stat := (before.reg u 0x00C, after.reg u 0x00C)
                                                            irq := (before.reg u 0x018, after.reg u 0x018) } })
    else after
  | none => after

/-- A write that reaches a block: discarded without power (R56), rejected or accepted whole (R52); enabled interrupt conditions latch at
once (R51). -/
def writeUnit (acc : Accessor) (u off : Nat) (full : Bool) (v : Word) (s : State) : State :=
  match unitBlk u with
  | none => s
  | some (b, n) =>
    if ¬ s.powered u then s
    else
      let was : Bool := s.reg u 0x018 ≠ 0
      match checkWrite s acc u b n off full v with
      | some c => noteLate u off c v s (latchAfter was u (reject u off c s))
      | none => latchAfter was u (acceptWrite acc u b n off v s)

/-! ### Accesses (R53, R61, R64, R374) -/

/-- The hub that carries an access. An access of a plane's management cores is taken to go through Hub A. (DESIGN CHOICE, log 34) -/
def carrier : Accessor → HubId
  | .host h => h
  | .hubCore h => h
  | _ => .a

/-- A write that reaches no page (R53): REJ with UNMAPPED in the HUB block of the hub that carried it. (DESIGN CHOICE, log 34) -/
def noPage (acc : Accessor) (a : Nat) (s : State) : State :=
  let u := hu (carrier acc) .HUB
  if s.powered u then latchIrq u (reject u a .unmapped s) else s

/-- An accessor can issue a register access: a host through a link that is up and in D0, management cores with power behind an open
hasp. (DEDUCED, log 39) (DESIGN CHOICE, log 81) -/
def mayAccess (s : State) (acc : Accessor) : Bool :=
  match acc with
  | .host h => s.powered (hu h .PCI) && s.on (hu h .PCI) Fld.PCI_STAT_LINK_UP && !s.on (hu h .PCI) Fld.PCI_STAT_D3HOT
  | .hubCore h => s.powered (hu h .HUB) && !s.hubFenced h
  | .planeCore p => s.powered (pu p .MGC) && !s.fenced (pu p .MGC)
  | .cc _ _ => false

/-- Pages that a port writes without the lease (R374): its own PCI page and routing pages. -/
def leaseFree (h : HubId) (t : Option (Nat × Nat)) : Bool :=
  match t with
  | some (u, off) => u = hu h .PCI && decide (off / 4096 < 5)
  | none => false

/-- A hub that runs the recovery loader, also while its Keyplate works on a command (R433). -/
def recovering (s : State) (h : HubId) : Bool :=
  let st := s.get (hu h .KPL) Fld.KPL_STAT_STATE
  st = 3 || (st = 2 && !(s.hub h).booted)

/-- Whether an accessor's site reaches a unit (R64, Table 14.6): management cores of a plane reach no other plane; a closed hub link
carries nothing; a host reaches only the KPL page of a hub in RECOVERY, and its PCI page for the lease (R433). (DESIGN CHOICE, log 101) -/
def siteReaches (s : State) (acc : Accessor) (u : Nat) : Bool :=
  match acc, unitPlane u with
  | .planeCore q, some p => q = p
  | .planeCore q, none => (unitHub u).all (fun h => !linkShut s h q)
  | .host h, some p => !linkShut s h p && !recovering s h
  | .host h, none => !recovering s h || u = hu h .KPL || u = hu h .PCI
  | .hubCore h, some p => !linkShut s h p
  | _, _ => true

/-- A register access of a host or a hub's management cores to a plane counts on the hub link that carries it (R33). -/
def arrive (acc : Accessor) (u : Nat) (s : State) : State :=
  match acc, unitPlane u with
  | .host h, some p => linkRequest h p s
  | .hubCore h, some p => linkRequest h p s
  | _, _ => s

/-- A register write through BAR0 (R43, R52, R53, R56, R374, R409). (DEDUCED, log 39) -/
def writeBar0 (acc : Accessor) (a : Nat) (be : BitVec 4) (v : Word) (s : State) : State :=
  let t := locate a
  let isHost : Option HubId := match acc with
    | .host h => some h
    | _ => none
  if ¬ mayAccess s acc then s
  else if isHost.any (fun h => holder s ≠ portCode h && !leaseFree h t) then
    (s.emit (.aer (carrier acc) a)).incSat (hu (carrier acc) .PCI) Fld.PCI_CNT_A_DENY
  else if isHost.isSome ∧ s.dead.isSome then s.emit (.aer (carrier acc) a)
  else match t with
    | none => noPage acc a s
    | some (u, off) =>
      if ¬ siteReaches s acc u then noPage acc a s
      else writeUnit acc u off (be = 15#4) v (arrive acc u s)

/-- What a read through BAR0 returns to an accessor. (DESIGN CHOICE, log 74) -/
def readFor (s : State) (acc : Accessor) (a : Nat) : Word :=
  match locate (a / 4 * 4) with
  | some (u, _) => if siteReaches s acc u then readBar0 s a else 0
  | none => 0

/-- A read of `n` bytes: 1 to 4 within a register, or an aligned 64-bit read as two reads, the lower offset first (R43). -/
def readBytes (s : State) (acc : Accessor) (a n : Nat) : List Byte :=
  if n ≤ 4 then bytesOf n (readFor s acc a).toNat
  else bytesOf 4 (readFor s acc a).toNat ++ bytesOf 4 (readFor s acc (a + 4)).toNat

end Sys2Proof.Machine
end

