-- ==== Sys2Proof/Machine/CoreExec.lean ====
section
/-! DEFINITION. Sys2Proof/Machine/CoreExec.lean: how a collective core issues and retires one instruction, with its latencies, results,
exceptions and waits (R185 to R189, R196, R198, R221, R450); and the meanings of the scalar and CSR instructions. -/

namespace Sys2Proof.Machine

/-! ### Issue and retirement -/

/-- An instruction at its issue: its word and address, its ACLK cycle, and the values of rs1, rs2 and rs3. -/
structure Issue where
  w : Word
  pc : Dword
  cyc : Nat
  a : Dword
  b : Dword
  c : Dword
  deriving DecidableEq, Repr

/-- What an instruction does at its issue. -/
inductive Eff where
  /-- It returns a value to x rd after its latency; with x0 it holds issue for it (R186). -/
  | x (rd : Nat) (v : Dword) (lat : Nat) (s : State)
  /-- It returns a value and holds issue for its latency: the divisions, as the example of R451 shows. -/
  | xHold (rd : Nat) (v : Dword) (lat : Nat) (s : State)
  /-- It returns a vector. -/
  | w (rd : Nat) (v : Vec) (lat : Nat) (s : State)
  /-- It has no result and holds issue for its latency. -/
  | hold (lat : Nat) (s : State)
  /-- Its result comes from an operation that acts later: to an x register, or to a vector register (SPLD). -/
  | later (o : CoreOp) (lat : Nat) (s : State)
  /-- The next instruction is elsewhere; the address of the one after this goes to x rd. -/
  | jump (dst : Dword) (rd lat : Nat) (s : State)
  /-- MRET: a jump that is neither branch nor jump for the counters. -/
  | ret (dst : Dword) (lat : Nat) (s : State)
  /-- An exception: its cause and the information that mtval may hold. -/
  | trap (cause info : Nat) (s : State)
  /-- It waits. -/
  | wait (w : CoreWait) (s : State)

/-- Bits of mstatus: MIE, MPIE. -/
def mieBit : Nat := 3
def mpieBit : Nat := 7

/-- mip bit 13 with its enables: the counter-overflow interrupt is to be taken (R450, R451). -/
def irqReady (c : Core) : Bool :=
  (mgetD c.csr 0x344 0).getLsbD 13 && (mgetD c.csr 0x304 0).getLsbD 13 && (mgetD c.csr 0x300 0).getLsbD mieBit

/-- The interrupt comes before an instruction that would issue in a cycle: its skid is over. -/
def irqFirst (c : Core) (cyc : Nat) : Bool :=
  irqReady c && (match c.irqAt with
    | some last => decide (last < cyc)
    | none => true)

/-- The cycle in which an instruction issues: the first after the ones before it with its operands available (R185, R200). (DESIGN CHOICE,
log 14) (DESIGN CHOICE, log 65) -/
def issueAt (c : Core) (w : Word) : Nat :=
  let rx := (srcsX w).foldl (fun m r => max m (mgetD c.xr r 0)) 0
  let rw := (srcsW w).foldl (fun m r => max m (mgetD c.wr r 0)) 0
  max c.ready (max rx rw)

/-- Cycles before an issue in which the core issued nothing are BACK; the issue cycle is RETIRED or WASTED (R455). -/
def account (p : PlaneId) (n cyc cat : Nat) (s : State) : State :=
  let from' := (coreOf s p n).acct
  let s := (s.coreEvent p n 0x103 cyc (cyc - from')).coreEvent p n cat cyc 1
  modCore p n (fun c => { c with acct := cyc + 1 }) s

/-- An instruction retires: the next one is at `pc` and may issue from `ready` on. A CSR write of minstret takes the place of its
count, so that the register is set to one less before this. -/
def retire (p : PlaneId) (n cyc : Nat) (row : CoreRow) (pc : Dword) (ready : Nat) (s : State) : State :=
  let s := account p n cyc 0x100 (s.coreEvent p n 0x41 cyc 1)
  let s := if extRow row then s.coreEvent p n 0x42 cyc 1 else s
  modCore p n (fun c => { c with
    pc := pc, ready := ready, retired := s.ft p, csr := mput c.csr 0xB02 (mgetD c.csr 0xB02 0 + 1) }) s

/-- mtval of a trap: zero or the information that the RISC-V rules let it hold; which one is a free value. -/
def trapVal (info : Nat) (s : State) : Dword × State :=
  if info = 0 then (0, s) else (fun r => (if r.1.getLsbD 0 then BitVec.ofNat 64 info else 0, r.2)) s.takeFree

/-- A trap into the handler (R221): mepc, mcause, mtval, MPIE and MIE, and the handler's first instruction 4 cycles on (R186). -/
def enterTrap (p : PlaneId) (n cyc : Nat) (cause : Dword) (info : Nat) (s : State) : State :=
  let r := trapVal info s
  modCore p n (fun c =>
    let st := mgetD c.csr 0x300 0
    let mpie : Dword := if st.getLsbD mieBit then 1#64 <<< mpieBit else 0
    { c with
      csr := mput (mput (mput (mput c.csr 0x341 c.pc) 0x342 cause) 0x343 r.1) 0x300 mpie
      pc := mgetD c.csr 0x305 0, ready := cyc + 4 }) r.2

/-- An exception: with mtvec 0 the core halts with HCAUSE TRAP (R221). (DEDUCED, log 90) -/
def takeTrap (p : PlaneId) (n cyc cause info : Nat) (s : State) : State :=
  let s := account p n cyc 0x101 s
  if mgetD (coreOf s p n).csr 0x305 0 = 0 then haltCore p n .trap s else enterTrap p n cyc (BitVec.ofNat 64 cause) info s

/-- Apply what an instruction does. A core that its own instruction has put into soft reset keeps its reset state. -/
def applyEff (p : PlaneId) (n : Nat) (row : CoreRow) (i : Issue) (e : Eff) : State :=
  let next := i.pc + 4
  let fin (s : State) (pc : Dword) (ready : Nat) (f : Core → Core) : State :=
    if s.on (uCCX p n) Fld.BLK_STAT_RST_BUSY then s else retire p n i.cyc row pc ready (modCore p n f s)
  let setX (rd : Nat) (v : Dword) (at' : Nat) (c : Core) : Core :=
    if rd = 0 then c else { (dropLateX rd c).setX rd v with xr := mput c.xr rd at' }
  match e with
  | .x rd v lat s => fin s next (if rd = 0 then i.cyc + lat else i.cyc + 1) (setX rd v (i.cyc + lat))
  | .xHold rd v lat s => fin s next (i.cyc + lat) (setX rd v (i.cyc + lat))
  | .w rd v lat s => fin s next (i.cyc + 1) (fun c => { (dropLateW rd c).setW rd v with wr := mput c.wr rd (i.cyc + lat) })
  | .hold lat s => fin s next (i.cyc + lat) id
  | .later o lat s =>
    if o.kind = opSpld then
      fin s next (i.cyc + 1) (fun c => let c := dropLateW o.rd c; { c with ops := c.ops ++ [o], wr := mput c.wr o.rd (i.cyc + lat) })
    else
      fin s next (if o.rd = 0 then i.cyc + lat else i.cyc + 1) (fun c =>
        let c := if o.rd = 0 then c else dropLateX o.rd c
        { c with ops := c.ops ++ [o], xr := if o.rd = 0 then c.xr else mput c.xr o.rd (i.cyc + lat) })
  | .jump dst rd lat s => fin (s.coreEvent p n 0x45 i.cyc 1) dst (i.cyc + lat) (setX rd next (i.cyc + lat))
  | .ret dst lat s => fin s dst (i.cyc + lat) id
  | .trap cause info s => takeTrap p n i.cyc cause info s
  | .wait w s =>
    let s := s.coreEvent p n 0x103 i.cyc (i.cyc - (coreOf s p n).acct)
    let d : Option Nat := match (coreOf s p n).again with
      | some (k, left) => if k = w.kind then left.map (w.at' + ·) else w.deadline
      | none => w.deadline
    setCoreSt p n 2 (modCore p n (fun c => { c with wait := some { w with deadline := d }, again := none, acct := i.cyc }) s)

/-- Whether a core's fetch at an address can be made: in the local store (Table 7.2). -/
def fetchOk (pc : Nat) : Bool := pc % 4 = 0 && decide (pc + 4 ≤ 0x40000)

/-- One step of a core: the instruction at its pc issues in its cycle, where it belongs to a row and the cycle has come; the core's
turns before that cycle have been used. Else nothing happens (assumption log 14). -/
def issue (p : PlaneId) (n : Nat) (row : CoreRow) (f : Issue → State → Eff) (s : State) : State :=
  let c := coreOf s p n
  let pc := c.pc.toNat
  let w : Word := if fetchOk pc then BitVec.ofNat 32 (ofBytes (lsRead s p n pc 4)) else 0
  let cyc := issueAt c (if fetchOk pc then w else 0)
  if coreSt s p n ≠ 1 ∨ s.ft p < cycleBeat (cyclesPerSlot s p) cyc ∨ irqFirst c cyc = true then s
  else if ¬ fetchOk pc then
    if row = .scalar then takeTrap p n cyc (if pc % 4 = 0 then 1 else 0) pc s else s
  else if rowOf w ≠ row then s
  else
    let r := lsStrike p n pc 4 (runXfers p n (cyc - 1) s)
    if r.1 = 2 then takeTrap p n cyc 1 pc r.2
    else if coreSt r.2 p n ≠ 1 then r.2
    else
      let i : Issue := { w := w, pc := c.pc, cyc := cyc, a := c.reg (insRs1 w), b := c.reg (insRs2 w), c := c.reg (insRs3 w) }
      applyEff p n row i (f i r.2)

/-! ### Loads and stores (R187, R188) -/

/-- Base and end of the register window. -/
def winBase : Nat := 0x40000000
def winEnd : Nat := 0x42000000

/-- BAR0 offset of a window address of a plane. -/
def winBar0 (p : PlaneId) (a : Nat) : Nat := 0x1000000 + p.val * 0x2000000 + (a - winBase)

/-- Extend a loaded value as funct3 says. -/
def loadExt (f3 v : Nat) : Dword :=
  match f3 with
  | 0 => (BitVec.ofNat 8 v).signExtend 64
  | 1 => (BitVec.ofNat 16 v).signExtend 64
  | 2 => (BitVec.ofNat 32 v).signExtend 64
  | _ => BitVec.ofNat 64 v

/-- A read of the local store by a load: its bytes, or the exception of an uncorrectable error. -/
def lsLoad (p : PlaneId) (n a k : Nat) (s : State) (f : List Byte → State → Eff) : Eff :=
  let r := lsStrike p n a k s
  if r.1 = 2 then .trap 5 a r.2 else f (lsRead r.2 p n a k) r.2

/-- LB to LWU. -/
def loadEff (p : PlaneId) (n : Nat) (i : Issue) (s : State) : Eff :=
  let a := (i.a + immI i.w).toNat
  let f3 := insF3 i.w
  let k := 2 ^ (f3 % 4)
  if a % k ≠ 0 then .trap 4 a s
  else if a + k ≤ 0x40000 then lsLoad p n a k s (fun l s => .x (insRd i.w) (loadExt f3 (ofBytes l)) 2 s)
  else if winBase ≤ a ∧ a < winEnd ∧ k = 4 then
    .x (insRd i.w) (loadExt f3 (readBar0 s (winBar0 p a)).toNat) 64 s
  else .trap 5 a s

/-- Whether a core may store to a page (R188). -/
def winMay (s : State) (p : PlaneId) (n u : Nat) : Bool :=
  u = pu p .GRQ || u = pu p .SYN || u = pu p .LAT || u = uCCX p n || (u = pu p .KSQ && s.on (uCCX p n) Fld.CCX_CFG_KEY_EN)

/-- A window store: accepted or rejected by its block, or discarded and recorded in the core's own page. -/
def winStore (p : PlaneId) (n : CoreId) (a : Nat) (v : Word) (s : State) : State :=
  let own := uCCX p n.val
  match locate (winBar0 p a) with
  | some (u, off) =>
    if winMay s p n.val u then writeUnit (.cc p n) u off true v s else latchIrq own (reject own a .unmapped s)
  | none => latchIrq own (reject own a .unmapped s)

/-- SB to SD. -/
def storeEff (p : PlaneId) (n : CoreId) (i : Issue) (s : State) : Eff :=
  let a := (i.a + immS i.w).toNat
  let k := 2 ^ insF3 i.w
  if a % k ≠ 0 then .trap 6 a s
  else if a + k ≤ 0x40000 then .hold 1 (modCore p n.val (fun c => { c with ls := memPuts c.ls a (bytesOf k i.b.toNat) }) s)
  else if winBase ≤ a ∧ a < winEnd ∧ k = 4 then
    .hold 1 (winStore p n a (i.b.setWidth 32) (modCore p n.val (fun c => { c with winAt := i.cyc }) s))
  else .trap 7 a s

/-! ### Scalar instructions -/

/-- Illegal instruction. -/
def illegal (i : Issue) (s : State) : Eff := .trap 2 i.w.toNat s

/-- A jump or a taken branch: a target that is not a multiple of 4 raises the address-misaligned exception. -/
def jumpEff (dst : Dword) (rd lat : Nat) (s : State) : Eff := if dst.toNat % 4 ≠ 0 then .trap 0 dst.toNat s else .jump dst rd lat s

/-- OP-IMM and OP-IMM-32. -/
def opImmEff (w32 : Bool) (i : Issue) (s : State) : Eff :=
  let f3 := insF3 i.w
  let sh := if w32 then insF7 i.w else bits i.w.toNat 31 26
  let arith := if w32 then 0x20 else 0x10
  let op := if w32 then aluOpW else aluOp
  let rd := insRd i.w
  if f3 = 1 then (if sh = 0 then .x rd (op 1 false i.a (BitVec.ofNat 64 (bits i.w.toNat 25 20))) 1 s else illegal i s)
  else if f3 = 5 then
    if sh = 0 ∨ sh = arith then .x rd (op 5 (sh ≠ 0) i.a (BitVec.ofNat 64 (bits i.w.toNat 25 20))) 1 s else illegal i s
  else if w32 ∧ f3 ≠ 0 then illegal i s
  else .x rd (op f3 false i.a (immI i.w)) 1 s

/-- OP and OP-32. -/
def opEff (w32 : Bool) (i : Issue) (s : State) : Eff :=
  let f3 := insF3 i.w
  let rd := insRd i.w
  let op := if w32 then aluOpW else aluOp
  match insF7 i.w with
  | 0x00 => if w32 ∧ ¬ (f3 = 0 ∨ f3 = 1 ∨ f3 = 5) then illegal i s else .x rd (op f3 false i.a i.b) 1 s
  | 0x20 => if f3 = 0 ∨ f3 = 5 then .x rd (op f3 true i.a i.b) 1 s else illegal i s
  | 0x01 =>
    if w32 ∧ (f3 = 1 ∨ f3 = 2 ∨ f3 = 3) then illegal i s
    else
      let v := if w32 then mulOpW f3 i.a i.b else mulOp f3 i.a i.b
      if f3 < 4 then .x rd v 3 s else .xHold rd v 34 s
  | _ => illegal i s

/-- ECALL, EBREAK, MRET and WFI. WFI only advances. -/
def systemEff (p : PlaneId) (n : Nat) (i : Issue) (s : State) : Eff :=
  match i.w.toNat with
  | 0x00000073 => .trap 11 0 s
  | 0x00100073 => .trap 3 i.pc.toNat s
  | 0x30200073 =>
    let c := coreOf s p n
    let st := mgetD c.csr 0x300 0
    let v : Dword := (if st.getLsbD mpieBit then 1#64 <<< mieBit else 0) ||| (1#64 <<< mpieBit)
    .ret (mgetD c.csr 0x341 0) 3 (modCore p n (fun c => { c with csr := mput c.csr 0x300 v }) s)
  | 0x10500073 => .hold 1 s
  | _ => illegal i s

/-- A scalar instruction, or an encoding that no instruction has. -/
def scalarEff (p : PlaneId) (n : CoreId) (i : Issue) (s : State) : Eff :=
  let f3 := insF3 i.w
  let rd := insRd i.w
  match insOp i.w with
  | 0x37 => .x rd (immU i.w) 1 s
  | 0x17 => .x rd (i.pc + immU i.w) 1 s
  | 0x6F => jumpEff (i.pc + immJ i.w) rd 2 s
  | 0x67 => if f3 = 0 then jumpEff ((i.a + immI i.w) &&& ~~~1#64) rd 3 s else illegal i s
  | 0x63 =>
    if f3 = 2 ∨ f3 = 3 then illegal i s
    else if brTaken f3 i.a i.b then jumpEff (i.pc + immB i.w) 0 3 s else .hold 1 s
  | 0x03 => if f3 = 7 then illegal i s else loadEff p n.val i s
  | 0x23 => if 4 ≤ f3 then illegal i s else storeEff p n i s
  | 0x13 => opImmEff false i s
  | 0x1B => opImmEff true i s
  | 0x33 => opEff false i s
  | 0x3B => opEff true i s
  | 0x0F =>
    if f3 = 0 then
      let last := (coreOf s p n.val).winAt
      .hold (if last = 0 then 1 else max 1 (last + 64 - i.cyc)) s
    else illegal i s
  | 0x73 => if f3 = 0 then systemEff p n.val i s else illegal i s
  | _ => illegal i s

/-- SCALAR_INSTRUCTION. -/
def execScalarInstruction (p : PlaneId) (n : CoreId) (s : State) : Out := .next (issue p n.val .scalar (scalarEff p n) s)

/-! ### CSRs (R189, Table 7.3) -/

/-- What a CSR reads in a cycle; none where the core has no such CSR. -/
def csrRead (s : State) (p : PlaneId) (n k cyc : Nat) : Option Dword :=
  let c := coreOf s p n
  let cps := cyclesPerSlot s p
  match k with
  | 0x300 => some (mgetD c.csr 0x300 0 ||| 0x1800)
  | 0x301 => some 0x8000000000001100
  | 0xB00 => some (mcycleAt s p c cyc)
  | 0xF14 => some (BitVec.ofNat 64 (16 * p.val + n))
  | 0xFC0 => some (BitVec.ofNat 64 (cycleBeat cps cyc))
  | 0xFC1 => some (BitVec.ofNat 64 (n + 16 * p.val + 65536 * selfAddr s p))
  | 0xFC2 => some (BitVec.ofNat 64 (cyc % cps))
  | 0xFC3 => some (BitVec.ofNat 64 (c.xfers.length + 16 * feedsOf s p n))
  | _ => if (csrMask k).isSome then some (mgetD c.csr k 0) else none

/-- A CSR takes a value. minstret, written, does not count its own write; mcycle goes on from the value; a cleared mip bit 13 ends its
skid. -/
def csrWrite (p : PlaneId) (n k cyc : Nat) (v : Dword) (s : State) : State :=
  let m := (csrMask k).getD 0
  modCore p n (fun c =>
    if k = 0x301 then c
    else if k = 0xB00 then { c with cycOff := (v.toNat : Int) - cyc }
    else if k = 0xB02 then { c with csr := mput c.csr k (v - 1) }
    else
      let c := { c with csr := mput c.csr k ((mgetD c.csr k 0 &&& ~~~m) ||| (v &&& m)) }
      if k = 0x344 ∧ ¬ v.getLsbD 13 then { c with irqAt := none } else c) s

/-- CSRRW, CSRRS, CSRRC and their immediate forms. -/
def csrEff (p : PlaneId) (n : Nat) (i : Issue) (s : State) : Eff :=
  let k := insCsr i.w
  let f3 := insF3 i.w
  let v : Dword := if f3 < 4 then i.a else BitVec.ofNat 64 (insRs1 i.w)
  let writes : Bool := f3 % 4 = 1 || insRs1 i.w ≠ 0
  match csrRead s p n k i.cyc with
  | none => illegal i s
  | some old =>
    if writes ∧ (csrMask k).isNone then illegal i s
    else
      let new := match f3 % 4 with
        | 1 => v
        | 2 => old ||| v
        | _ => old &&& ~~~v
      .x (insRd i.w) old 2 (if writes then csrWrite p n k i.cyc new s else s)

/-- CSR_INSTRUCTION. -/
def execCsrInstruction (p : PlaneId) (n : CoreId) (s : State) : Out := .next (issue p n.val .csr (csrEff p n.val) s)

/-- PMU_INTERRUPT_TAKEN: a core takes the counter-overflow interrupt at an instruction boundary, before its next issue (R450, R451). The
entry takes as long as that of an exception. -/
def execPmuInterruptTaken (p : PlaneId) (n : CoreId) (s : State) : Out :=
  let c := coreOf s p n.val
  let cps := cyclesPerSlot s p
  let cyc := match c.irqAt with
    | some last => max c.ready (last + 1)
    | none => c.ready
  if coreSt s p n.val = 1 ∧ irqReady c = true ∧ cycleBeat cps cyc ≤ s.ft p then
    if mgetD c.csr 0x305 0 = 0 then .next (haltCore p n.val .trap s)
    else .next (enterTrap p n.val cyc 0x800000000000000D 0 s)
  else .next s

end Sys2Proof.Machine
end

