-- ==== Sys2Proof/Machine/CoreExt.lean ====
section
/-! DEFINITION. Sys2Proof/Machine/CoreExt.lean: the meanings of the transfer, context, chunk, sync-object, queue, message, key and wait
instructions (R196 to R220, custom-1 and custom-2 of Table 7.5). -/

namespace Sys2Proof.Machine

/-! ### Statuses (Table 7.4) -/

def sOk : Nat := 0x00
def sRange : Nat := 0x02
def sZero : Nat := 0x03
def sBounds : Nat := 0x04
def sState : Nat := 0x05
def sBusy : Nat := 0x07
def sEmpty : Nat := 0x11
def sNotMine : Nat := 0x12
def sOrder : Nat := 0x13
def sInvalid : Nat := 0x14
def sMismatch : Nat := 0x15
def sPoison : Nat := 0x16

/-- An instruction that returns a status and a value (R196). -/
def status (i : Issue) (code value lat : Nat) (s : State) : Eff := .x (insRd i.w) (statusVal code value) lat s

/-- A block of `k` bytes at a local-store address that is a multiple of `k`. (DEDUCED, log 66) -/
def lsArg (a k : Nat) : Bool := a % k = 0 && decide (a + k ≤ 0x40000)

/-- The first code of a list whose condition holds; OK where none does. -/
def firstCode : List (Bool × Nat) → Nat
  | [] => sOk
  | (b, c) :: r => if b then c else firstCode r

/-! ### Transfers (R205, R206) -/

/-- The transfer of a block. -/
def xferOf (l : List Byte) (cyc : Nat) : Xfer :=
  { kind := ofBytes (sliceB l 20 1), src := ofBytes (sliceB l 0 8), dst := ofBytes (sliceB l 8 8), len := ofBytes (sliceB l 16 4), last := cyc }

/-- Whether a side of a transfer has an extent: 0 the local store, 1 the scratchpad, 2 the N-tier or F-tier. -/
def sideOk (s : State) (p : PlaneId) (side a len : Nat) : Bool :=
  match side with
  | 0 => decide (a + len ≤ 0x40000)
  | 1 => decide (baseS ≤ a) && coreReach s p a len
  | _ => decide (a < baseS) && extentOk s p a len

/-- Source and destination side of a KIND (Table 7.7). -/
def xferSides (kind : Nat) : Nat × Nat :=
  match kind with
  | 0 => (0, 1)
  | 1 => (1, 0)
  | 2 => (2, 1)
  | 3 => (1, 2)
  | _ => (1, 1)

/-- The checks of XFER, in the order of Table 2.3. (DEDUCED, log 67) -/
def xferCode (s : State) (p : PlaneId) (n : Nat) (l : List Byte) (x : Xfer) : Nat :=
  let sd := xferSides x.kind
  firstCode [(decide (8 ≤ (coreOf s p n).xfers.length), sBusy),
    ((x.kind = 2 && keyHoldsRegion s p x.src) || (x.kind = 3 && keyHoldsRegion s p x.dst), sState),
    (decide (4 < x.kind) || x.src % 128 ≠ 0 || x.dst % 128 ≠ 0 || x.len % 128 ≠ 0 || (l.drop 21).any (· ≠ 0), sRange),
    (x.len = 0, sZero),
    (!sideOk s p sd.1 x.src x.len || !sideOk s p sd.2 x.dst x.len, sBounds)]

/-- XFER. (DEDUCED, log 66) -/
def execXfer (p : PlaneId) (n : CoreId) (s : State) : Out :=
  .next (issue p n.val .xfer (fun i s =>
    let a := i.a.toNat
    if !lsArg a 32 then status i sRange 0 2 s
    else
      lsLoad p n.val a 32 s (fun l s =>
        let x := xferOf l i.cyc
        let code := xferCode s p n.val l x
        status i code 0 2 (if code = sOk then modCore p n.val (fun c => { c with xfers := c.xfers ++ [x] }) s else s))) s)

/-! ### Contexts (R207 to R211) -/

/-- A scale of a binding: finite and nonzero (R140). -/
def scaleOk (v : Nat) : Bool :=
  match f32 v with
  | .fin _ m _ => m ≠ 0
  | _ => false

/-- The context that a binding block describes, on a core, with its lane map. -/
def ctxOf (b : List Byte) (n : Nat) (lmap : List Nat) : Ctx :=
  let f (o k : Nat) : Nat := ofBytes (sliceB b o k)
  let m := f 1 1
  { core := n, inFmt := f 0 1 % 16, outFmt := f 0 1 / 16, op := m % 4, wide := bit m 2, stoch := bit m 3, ovfInf := bit m 4, feed := bit m 5
    accum := bit m 6, chunkCells := f 2 2, d := f 6 1, group := f 8 2, cseq := f 10 2, m := f 12 2, scaleIn := f 16 4, scaleOut := f 20 4
    seed := f 24 8, digest := f 32 8, lmap := lmap }

/-- The checks of CBIND (R140, R155, R165, R209). -/
def bindCode (s : State) (p : PlaneId) (b : List Byte) (x : Ctx) : Nat :=
  let f (o k : Nat) : Nat := ofBytes (sliceB b o k)
  let slice := f 4 1
  let ctx := f 5 1
  let lm := f 40 8
  let reserved := bit (f 1 1) 7 || f 7 1 ≠ 0 || f 14 2 ≠ 0 || (b.drop 48).any (· ≠ 0) || decide (1024 ≤ x.group)
  let formats := !fmtLegal x.inFmt || !fmtLegal x.outFmt || x.op = 3 || (x.wide && (fmtInt x.inFmt || x.feed)) ||
    !scaleOk x.scaleIn || !scaleOk x.scaleOut
  let sizes := (x.chunkCells ≠ 0 && !([16, 32, 64, 128, 256] : List Nat).contains x.chunkCells) || decide (16 < x.d) ||
    decide (4096 + b2n x.accum < x.m) || (x.accum && x.m = 1)
  let map := if x.feed then decide (lm ≠ 0) else !lsArg lm 256 || (x.m ≠ 0 && x.lmap.any (fun e => e ≠ 0xFFFF && decide (x.m ≤ e)))
  firstCode [(reserved || formats || sizes || map || decide (16 < slice ∨ 15 < ctx), sRange),
    (x.chunkCells = 0 || x.d = 0 || x.m = 0, sZero),
    (sliceRole s p slice ≠ 0 || !s.powered (uTMB p slice), sState),
    ((getCtx s p slice ctx).isSome, sBusy),
    (decide (2097152 < storeUsed s p slice + x.foot) || decide (partRet (partNow s p) * bankBytes < retUsed s p + x.retBytes), sBounds)]

/-- A collective begins anew when its first context is bound, unless its descriptor is popped, so that an abort of it counts. -/
def freshColl (p : PlaneId) (g q : Nat) (s : State) : State :=
  if (boundFor s p g q).isSome ∨ (poppedDesc s p g q).isSome then s
  else s.modPl p (fun x => { x with colls := x.colls.filter (fun c => !(c.group = g && c.cseq = q)) })

/-- The lane map of a binding block: 128 entries of 2 bytes. -/
def laneMap (l : List Byte) : List Nat := (List.range 128).map (fun k => ofBytes (sliceB l (2 * k) 2))

/-- A binding with its block and its lane map read (R209). -/
def bindEff (p : PlaneId) (n : Nat) (i : Issue) (b : List Byte) (x : Ctx) (s : State) : Eff :=
  let code := bindCode s p b x
  let slice := ofBytes (sliceB b 4 1)
  let ctx := ofBytes (sliceB b 5 1)
  if code = sOk then status i sOk (slice + 32 * ctx) 64 (setCtx p slice ctx { x with core := n } (freshColl p x.group x.cseq s))
  else status i code 0 64 s

/-- CBIND. (DEDUCED, log 72) -/
def execCbind (p : PlaneId) (n : CoreId) (s : State) : Out :=
  .next (issue p n.val .cbind (fun i s =>
    let a := i.a.toNat
    if !lsArg a 128 then status i sRange 0 64 s
    else
      lsLoad p n.val a 128 s (fun b s =>
        let lm := ofBytes (sliceB b 40 8)
        let x := ctxOf b n.val []
        if x.feed || !lsArg lm 256 then bindEff p n.val i b x s
        else lsLoad p n.val lm 256 s (fun l s => bindEff p n.val i b { x with lmap := laneMap l } s))) s)

/-- The context of a handle, where it is bound to this core. -/
def mineCtx (s : State) (p : PlaneId) (n : Nat) (h : Dword) : Option (Nat × Nat × Ctx) :=
  let pos := h.toNat % 32
  let c := h.toNat / 32 % 16
  match getCtx s p pos c with
  | some x => if x.core = n ∧ x.orphan = false then some (pos, c, x) else none
  | none => none

/-- CUNBIND. -/
def execCunbind (p : PlaneId) (n : CoreId) (s : State) : Out :=
  .next (issue p n.val .cunbind (fun i s =>
    match mineCtx s p n.val i.a with
    | none => status i sNotMine 0 16 s
    | some (pos, c, x) =>
      if x.chunks.any (fun k => k.st ≠ .released) then status i sBusy 0 16 s
      else status i sOk 0 16 (s.modPl p (fun y => { y with ctxs := mdel y.ctxs (ctxKey pos c) }))) s)

/-! ### Feeds (R212) -/

/-- The member of a frame has already delivered cells of its chunk to the context, or a feed of it is outstanding. -/
def fedBefore (s : State) (p : PlaneId) (pos c : Nat) (x : Ctx) (h : HeadCell) : Bool :=
  x.chunks.any (fun k => k.num = h.chunk && k.delivered.contains h.midx) ||
    (s.pl p).feeds.any (fun f => f.pos = pos && f.ctx = c && f.chunk = h.chunk && f.midx = h.midx)

/-- No chunk but that of the frame is FILLING. (DEDUCED, log 71) -/
def feedOrder (x : Ctx) (chunk : Nat) : Bool :=
  match x.filling with
  | some k => k.num = chunk
  | none => true

/-- The checks of CFEED on a head cell, in the order of R212; MISMATCH aborts the collective. (DEDUCED, log 71) -/
def feedCode (s : State) (p : PlaneId) (n pos c : Nat) (x : Ctx) (addr : Nat) (h : HeadCell) : Nat :=
  let mem := x.accum && h.midx + 1 = x.m
  let wrong := !mem && h.digest ≠ x.digest
  let matched := (getColl s p x.group x.cseq).matched.contains h.midx
  firstCode [(h.reserved ≠ 0 || h.cells ≠ x.chunkCells || h.group ≠ x.group || h.cseq ≠ x.cseq || decide (x.m ≤ h.midx), sInvalid),
    (wrong && !matched, sMismatch),
    (wrong, sInvalid),
    (fedBefore s p pos c x h, sInvalid),
    (!feedOrder x h.chunk, sOrder),
    (decide (4 ≤ feedsOf s p n), sBusy),
    (!coreReach s p addr (256 * (x.chunkCells + 1)), sBounds)]

/-- An accepted frame: its member has matched, its chunk is open, and the feed is outstanding. -/
def acceptFeed (p : PlaneId) (n pos c cyc : Nat) (x : Ctx) (addr : Nat) (h : HeadCell) (s : State) : State :=
  let mem := x.accum && h.midx + 1 = x.m
  let s := if mem then s else modColl p x.group x.cseq (fun y => { y with matched := insertNat h.midx y.matched }) s
  let s := if x.filling.isSome then s else openChunk p pos c h.chunk none (modCtx p pos c (fun x => { x with fault := false }) s)
  (s.modPl p (fun y => { y with feeds := y.feeds ++ [⟨n, pos, c, h.chunk, h.midx, addr⟩] })).coreEvent p n 0x47 cyc 1

/-- CFEED. -/
def execCfeed (p : PlaneId) (n : CoreId) (s : State) : Out :=
  .next (issue p n.val .cfeed (fun i s =>
    let addr := i.a.toNat
    if addr % 256 ≠ 0 then status i sRange 0 4 s
    else match mineCtx s p n.val i.b with
      | none => status i sNotMine 0 4 s
      | some (pos, c, x) =>
        if !x.feed then status i sState 0 4 s
        else if addr < baseS ∨ coreReach s p addr 256 = false then status i sBounds 0 4 s
        else
          let s := memTouchAll p addr 256 s
          if poisonedAt s p addr 256 then status i sPoison 0 4 s
          else
            let h := headCell (payloadOf (memRead s p addr 256))
            let code := feedCode s p n.val pos c x addr h
            status i code 0 4 (if code = sOk then acceptFeed p n.val pos c i.cyc x addr h s
              else if code = sMismatch then abortColl p x.group x.cseq h.midx h.digest s else s)) s)

/-- FEED_DONE: the oldest feed of a context finishes accumulating; a poisoned data cell leaves POISON in kzxerr (R212). -/
def execFeedDone (p : PlaneId) (pos : SliceId) (c : Fin 16) (s : State) : Out :=
  match (s.pl p).feeds.find? (fun f => f.pos = pos.val && f.ctx = c.val) with
  | none => .next s
  | some f =>
    let r := runFeed p f s
    let s := r.2.modPl p (fun x => { x with feeds := x.feeds.erase f })
    let s := modCtx p pos.val c.val (fun x => match x.filling with
      | some k => x.modChunk k.num (fun k => { k with closeFeeds := k.closeFeeds - 1 })
      | none => x) s
    .next (if r.1 then modCore p f.core (fun k => { k with csr := mput k.csr 0x7C0 (BitVec.ofNat 64 sPoison) }) s else s)

/-! ### Chunks (R213 to R215) -/

/-- CCLOSE. -/
def execCclose (p : PlaneId) (n : CoreId) (s : State) : Out :=
  .next (issue p n.val .cclose (fun i s =>
    match mineCtx s p n.val i.a with
    | none => status i sNotMine 0 4 s
    | some (pos, c, x) =>
      if !x.feed then status i sState 0 4 s
      else match x.filling with
        | some k => status i sOk 0 4 (modChunk p pos c k.num (·.askClose (ctxFeeds s p pos c)) s)
        | none => status i sOrder 0 4 s) s)

/-- The chunk that rs1 names, where it is known and not RELEASED. (DEDUCED, log 70) -/
def heldChunk (x : Ctx) (h : Dword) : Option Chunk :=
  match x.chunk (h.toNat / 2 ^ 32) with
  | some k => if k.st = .released then none else some k
  | none => none

/-- The reason of a FINAL seal of a chunk, or 0. (DEDUCED, log 52) -/
def finalReason (k : Chunk) : Nat := (k.copies.find? (fun y => y.kind = 3)).elim k.fail (·.reason)

/-- A copy is queued: one to an endpoint leaves now where the chunk is closed; a FAILED chunk's copy gets its FINAL seal only, with the
chunk's reason. A further copy to the same place is a copy of its own. (DEDUCED, log 70) -/
def queueCopy (p : PlaneId) (pos c n : Nat) (place : Nat → CopyDst) (s : State) : State :=
  match (getCtx s p pos c).bind (·.chunk n) with
  | none => s
  | some k =>
    let d := place (k.copies.filter (fun y => (List.range 64).any (fun j => y.dst = place j))).length
    let s := modChunk p pos c n (fun k => { k with copies := k.copies ++ [{ dst := d }] }) s
    if ¬ k.held then s
    else if k.fail ≠ 0 ∨ k.st = .failed then finalOnly p pos c n d (modChunk p pos c n (·.modCopy d (Copy.endWith · (finalReason k))) s)
    else match d with
      | .endpoint ep _ => sendEndpoint p pos c n d ep s
      | _ => s

/-- CSEND. -/
def execCsend (p : PlaneId) (n : CoreId) (s : State) : Out :=
  .next (issue p n.val .csend (fun i s =>
    match mineCtx s p n.val i.a with
    | none => status i sNotMine 0 4 s
    | some (pos, c, x) => match heldChunk x i.a with
      | none => status i sOrder 0 4 s
      | some k =>
        if 64 ≤ k.copies.length then status i sBounds 0 4 s
        else status i sOk 0 4 (queueCopy p pos c k.num (.endpoint (i.b.toNat % 65536) ·) s)) s)

/-- CSTORE. (DEDUCED, log 67) -/
def execCstore (p : PlaneId) (n : CoreId) (s : State) : Out :=
  .next (issue p n.val .cstore (fun i s =>
    match mineCtx s p n.val i.a with
    | none => status i sNotMine 0 4 s
    | some (pos, c, x) => match heldChunk x i.a with
      | none => status i sOrder 0 4 s
      | some k =>
        let a := i.b.toNat
        let code := firstCode [(decide (64 ≤ k.copies.length), sBounds), (keyHoldsRegion s p a, sState), (a % 256 ≠ 0, sRange),
          (!sideOk s p 2 a (256 * x.resCells), sBounds)]
        status i code 0 4 (if code = sOk then queueCopy p pos c k.num (.mem a ·) s else s)) s)

/-- CRELEASE. -/
def execCrelease (p : PlaneId) (n : CoreId) (s : State) : Out :=
  .next (issue p n.val .crelease (fun i s =>
    match mineCtx s p n.val i.a with
    | none => status i sNotMine 0 4 s
    | some (pos, c, x) => match heldChunk x i.a with
      | none => status i sOrder 0 4 s
      | some k => status i sOk 0 4 (releaseChunk p pos c k.num s)) s)

/-- CSTAT's value (R215). -/
def cstatVal (k : Chunk) : Nat :=
  k.st.code + 2 ^ 8 * k.status + 2 ^ 16 * finalReason k + 2 ^ 24 * min 255 (k.copies.filter (fun y => y.kind = 1)).length

/-- CSTAT. -/
def execCstat (p : PlaneId) (n : CoreId) (s : State) : Out :=
  .next (issue p n.val .cstat (fun i s =>
    match mineCtx s p n.val i.a with
    | none => status i sNotMine 0 8 s
    | some (_, _, x) => match x.chunk (i.a.toNat / 2 ^ 32) with
      | none => status i sOrder 0 8 s
      | some k => status i sOk (cstatVal k) 8 s) s)

/-! ### Sync objects (R201, R202) -/

/-- An operation on a sync object, applied in the beat of the fourth cycle after issue. -/
def syncEff (kind : Nat) (p : PlaneId) (i : Issue) (s : State) : Eff :=
  .later { kind := kind, at' := cycleBeat (cyclesPerSlot s p) (i.cyc + 4), rd := insRd i.w, a := i.a.toNat % 4096, b := i.b.toNat % 2 ^ 32 } 8 s

/-- SADD. -/
def execSadd (p : PlaneId) (n : CoreId) (s : State) : Out := .next (issue p n.val .sadd (syncEff opAdd p) s)
/-- SSET. -/
def execSset (p : PlaneId) (n : CoreId) (s : State) : Out := .next (issue p n.val .sset (syncEff opSet p) s)
/-- SRD. -/
def execSrd (p : PlaneId) (n : CoreId) (s : State) : Out := .next (issue p n.val .srd (syncEff opRd p) s)

/-! ### Waits (R198, R199) -/

/-- The beat of an issue. -/
def issueBeat (s : State) (p : PlaneId) (i : Issue) : Nat := cycleBeat (cyclesPerSlot s p) i.cyc

/-- The deadline of a timeout in beats from the issue; all ones never expires. -/
def deadlineOf (s : State) (p : PlaneId) (i : Issue) (t : Dword) : Option Nat :=
  if t = BitVec.allOnes 64 then none else some (issueBeat s p i + t.toNat)

/-- SWAIT. -/
def execSwait (p : PlaneId) (n : CoreId) (s : State) : Out :=
  .next (issue p n.val .swait (fun i s =>
    .wait { kind := 1, rd := insRd i.w, arg := i.a.toNat % 4096, target := i.b.toNat % 2 ^ 32, deadline := deadlineOf s p i i.c
            at' := issueBeat s p i, cyc := i.cyc } s) s)

/-- QWAIT. -/
def execQwait (p : PlaneId) (n : CoreId) (s : State) : Out :=
  .next (issue p n.val .qwait (fun i s =>
    .wait { kind := 2, rd := insRd i.w, deadline := deadlineOf s p i i.a, at' := issueBeat s p i, cyc := i.cyc } s) s)

/-- MRECV. -/
def execMrecv (p : PlaneId) (n : CoreId) (s : State) : Out :=
  .next (issue p n.val .mrecv (fun i s =>
    if !lsArg i.a.toNat 256 then status i sRange 0 16 s
    else .wait { kind := 3, rd := insRd i.w, arg := i.a.toNat, deadline := deadlineOf s p i i.b, at' := issueBeat s p i, cyc := i.cyc } s) s)

/-- FTWAIT. -/
def execFtwait (p : PlaneId) (n : CoreId) (s : State) : Out :=
  .next (issue p n.val .ftwait (fun i s =>
    .wait { kind := 4, rd := insRd i.w, target := i.a.toNat, at' := issueBeat s p i, cyc := i.cyc } s) s)

/-- XWAIT. -/
def execXwait (p : PlaneId) (n : CoreId) (s : State) : Out :=
  .next (issue p n.val .xwait (fun i s =>
    let now : Bool := (coreOf s p n.val).xfers.length ≤ i.a.toNat
    .wait { kind := 5, rd := insRd i.w, arg := i.a.toNat, at' := issueBeat s p i, cyc := i.cyc, met := if now then some (i.cyc, 0) else none } s) s)

/-! ### Queues (R216, R233) -/

/-- QPOP and QDONE take the core's turn, whatever they return. (DESIGN CHOICE, log 68) -/
def turnOp (p : PlaneId) (n : Nat) (cyc : Nat) (s : State) : Nat × State :=
  let turn := freeTurn n (coreOf s p n) cyc
  let o : CoreOp := { kind := opTurn, at' := cycleBeat (cyclesPerSlot s p) turn, rd := 0, b := turn }
  (turn - cyc + 12, modCore p n (fun c => { c with ops := c.ops ++ [o] }) (stealTurn p n turn s))

/-- A group is assigned to a core. -/
def servedBy (s : State) (p : PlaneId) (n g : Nat) : Bool := decide (g < 1024) && (grp s p g).en && (grp s p g).core = n

/-- QPOP. -/
def execQpop (p : PlaneId) (n : CoreId) (s : State) : Out :=
  .next (issue p n.val .qpop (fun i s =>
    let g := i.a.toNat
    let r := turnOp p n.val i.cyc s
    let code := firstCode [(!lsArg i.b.toNat 128, sRange), (!servedBy s p n.val g, sNotMine), (!grpWaiting (grp s p g), sEmpty)]
    if code = sOk then
      let q := (grp s p g).cons
      let d := popDesc p g r.2
      let s := if (boundFor s p g q).isSome then d.2
        else d.2.modPl p (fun x => { x with colls := x.colls.filter (fun c => !(c.group = g && c.cseq = q)) })
      status i sOk 0 r.1 (modCore p n.val (fun c => { c with ls := memPuts c.ls i.b.toNat d.1 }) (sendOpen p g q d.1 s))
    else status i code 0 r.1 r.2) s)

/-- QDONE. -/
def execQdone (p : PlaneId) (n : CoreId) (s : State) : Out :=
  .next (issue p n.val .qdone (fun i s =>
    if !lsArg i.b.toNat 128 then
      let r := turnOp p n.val i.cyc s
      status i sRange 0 r.1 r.2
    else
      lsLoad p n.val i.b.toNat 128 s (fun l s =>
        let r := turnOp p n.val i.cyc s
        let d := doneDesc p n.val i.a.toNat l r.2
        status i d.1 0 r.1 d.2)) s)

/-! ### Messages, digests, keys and latches (R217 to R220) -/

/-- MSEND: a single-cell control-class frame. The header has no place for the cores that the spec names, so that the model carries them in
TAG: the core sent to in bits [3:0], the sender in bits [7:4] (DESIGN CHOICE). (DESIGN CHOICE, log 69) -/
def execMsend (p : PlaneId) (n : CoreId) (s : State) : Out :=
  .next (issue p n.val .msend (fun i s =>
    let u := uCCX p n.val
    if !lsArg i.a.toNat 256 then status i sRange 0 16 s
    else if 4 ≤ ((s.pl p).unitFrames.filter (·.unit = u)).length then status i sBusy 0 16 s
    else
      lsLoad p n.val i.a.toNat 256 s (fun l s =>
        let d := i.b.toNat
        let f : UnitFrame := { unit := u, cls := 1, dests := [d % 65536], tag := d / 65536 % 16 + 16 * n.val, cells := [payloadOf l] }
        status i sOk 0 16 (issueFrame p f s))) s)

/-- KDIG: no status; an address that is not a multiple of 128, or outside the local store, raises the load's exception. -/
def execKdig (p : PlaneId) (n : CoreId) (s : State) : Out :=
  .next (issue p n.val .kdig (fun i s =>
    let a := i.a.toNat
    if a % 128 ≠ 0 then .trap 4 a s
    else if 0x40000 < a + 128 then .trap 5 a s
    else lsLoad p n.val a 128 s (fun l s => .x (insRd i.w) (BitVec.ofNat 64 (descDigest l)) 96 s)) s)

/-- KCMD: the writes are applied in the beat of the 32nd cycle after issue. (DEDUCED, log 91) -/
def execKcmd (p : PlaneId) (n : CoreId) (s : State) : Out :=
  .next (issue p n.val .kcmd (fun i s =>
    if !s.on (uCCX p n.val) Fld.CCX_CFG_KEY_EN then status i sState 0 64 s
    else if !lsArg i.b.toNat 64 then status i sRange 0 64 s
    else lsLoad p n.val i.b.toNat 64 s (fun l s =>
      .later { kind := opKey, at' := cycleBeat (cyclesPerSlot s p) (i.cyc + 32), rd := insRd i.w, a := i.a.toNat % 8, params := l } 64 s)) s)

/-- LARR: the write of ARRIVE is applied in the beat of the fourth cycle after issue. -/
def execLarr (p : PlaneId) (n : CoreId) (s : State) : Out :=
  .next (issue p n.val .larr (fun i s =>
    if 64 ≤ i.a.toNat then status i sRange 0 8 s
    else .later { kind := opArrive, at' := cycleBeat (cyclesPerSlot s p) (i.cyc + 4), rd := insRd i.w, a := i.a.toNat } 8 s) s)

/-- The writes of a key command (R218). (DEDUCED, log 91) -/
def kcmdWrites (cmd : Nat) (l : List Byte) : List (Nat × Nat) :=
  let f (o : Nat) : Nat := ofBytes (sliceB l o 4)
  (match cmd with
    | 1 => [(0x044, f 0), (0x048, f 4), (0x04C, f 8)]
    | 2 => [(0x050, f 16), (0x054, f 20), (0x058, f 12)]
    | 3 => [(0x050, f 16), (0x054, f 20), (0x058, f 12)]
    | 4 => [(0x05C, f 24), (0x060, f 28)]
    | _ => []) ++ [(0x040, cmd)]

/-- Apply writes of a core to a block until one is rejected: its code, 0 where none is. -/
def writeSeq (p : PlaneId) (n : CoreId) (u : Nat) : List (Nat × Nat) → State → Nat × State
  | [], s => (0, s)
  | (off, v) :: r, s =>
    let t := writeUnit (.cc p n) u off true (BitVec.ofNat 32 v) s
    match writeCode s (.cc p n) u off true (BitVec.ofNat 32 v) with
    | some c => (c.code, t)
    | none => writeSeq p n u r t

/-- An LARR or KCMD takes effect; its status goes to rd. -/
def runLateOp (p : PlaneId) (n : CoreId) (o : CoreOp) (s : State) : State :=
  let r := if o.kind = opArrive then writeSeq p n (pu p .LAT) [(0x400 + 0x20 * o.a, 4)] s else writeSeq p n (pu p .KSQ) (kcmdWrites o.a o.params) s
  modCore p n.val (fun c => c.setX o.rd (statusVal r.1 0)) r.2

/-- Apply the LARR and KCMD of this beat, in increasing core number. -/
def flushLate (p : PlaneId) (s : State) : State :=
  (dueOps s p (fun o => o.kind = opArrive || o.kind = opKey)).foldl (fun s e =>
    if h : e.1 < 16 then runLateOp p ⟨e.1, h⟩ e.2 (dropOp p e.1 e.2 s) else s) s

end Sys2Proof.Machine
end

