-- ==== Sys2Proof/Machine/Beat.lean ====
section
/-! DEFINITION. Sys2Proof/Machine/Beat.lean: what happens in every beat of a clock (BEAT, R51, R71, R198, R201, R446), the end of a key with
the saves that follow it (KEY_END, R122, R223), and a device that crosses 85 °C (DEVICE_HOT, R276). -/

namespace Sys2Proof.Machine

/-- KEY_END: the running key ends where an end is due; a key that becomes PAUSED starts the saves of the cores that follow it. -/
def execKeyEnd (p : PlaneId) (s : State) : Out :=
  let r := endRun p s
  .next (if r.1 = some .paused then (List.range 16).foldl (fun t n => followSave p n t) r.2 else r.2)

/-- DEVICE_HOT: a DRAM device of a target is above 85 °C, or no longer. -/
def execDeviceHot (p : PlaneId) (t : Fin 7) (hot : Bool) (s : State) : Out :=
  let u := tgtUnit p t.val
  if s.powered u then .next (s.put u Fld.FMC_STAT_HOT (b2n hot)) else .next s

/-! ### A plane's beat -/

/-- The cores' turns of the beat are used, and their waits meet their conditions. -/
def beatCores (p : PlaneId) (s : State) : State :=
  let last := cycleFrom (cyclesPerSlot s p) (s.ft p + 1) - 1
  markWaits p ((List.range 16).foldl (fun t n => runXfers p n last t) s)

/-- Cells presented in a slot that is over, and used by no key, are discarded (R124). (DEDUCED, log 77) -/
def dropStale (p : PlaneId) (slot : Nat) (s : State) : State :=
  let old := (s.pl p).schedIn.filter (fun e => decide (e.slot < slot))
  let s := old.foldl (fun t e => if e.cell.isSome then sdrop p e.lane t else t) s
  s.modPl p (fun x => { x with
    schedIn := x.schedIn.filter (fun e => decide (slot ≤ e.slot)), schedOut := x.schedOut.filter (fun e => decide (slot ≤ e.slot + 1)) })

/-- The switch core at the end of a beat: tidied ports, and a bank that becomes current (R362). -/
def beatSwitch (p : PlaneId) (s : State) : State :=
  let s := tidyPorts p s
  let s := match (s.fab p).flip with
    | some b => modFab p (fun f => { f with flip := none }) (s.put (pu p .SWC) Fld.SWC_EPOCH_CUR b)
    | none => s
  modFab p (fun f => { f with epochStart := (epochCount s p 0 ≠ 0, epochCount s p 1 ≠ 0) }) s

/-- The sensors of a plane's chiplets and memories show a measurement from the first beat after their reset (R13). (DESIGN CHOICE, log 88) -/
def noteTemps (p : PlaneId) (s : State) : State :=
  let s := ([0, 1] : List Nat).foldl (fun t n => if t.powered (uSDS p n) ∧ t.get (uSDS p n) Fld.SDS_TEMP = 0 then t.put (uSDS p n) Fld.SDS_TEMP 1 else t) s
  (List.range 7).foldl (fun t k =>
    if t.powered (tgtUnit p k) ∧ t.get (tgtUnit p k) Fld.FMC_STAT_TEMP = 0 then t.put (tgtUnit p k) Fld.FMC_STAT_TEMP 1 else t) s

/-- A change of the active lanes is a change of the unit map (R30, Table 0.2). (DEDUCED, log 106) -/
def noteLanes (p : PlaneId) (s : State) : State :=
  let now := (List.range 128).filter (laneActive s p)
  if now = (s.pl p).lanesNow then s else unitChange p (s.modPl p (fun x => { x with lanesNow := now }))

/-- The sync-object operations of a slot are applied in its last beat, before every other update of that beat (R103, R202). (DEDUCED, log 78) -/
def applySops (p : PlaneId) (s : State) : State :=
  match (s.pl p).sops with
  | some (t, l) => if t = s.ft p then (l.foldl (fun s o => syncSop p o.2.1 (o.1 = 2) (BitVec.ofNat 32 o.2.2) s) s).modPl p (fun x => { x with sops := none }) else s
  | none => s

/-- The end of a beat of a plane: the delayed operations of cores, their turns and waits, the sample of a drain, the switch core, the
interrupts and the counters; then FT advances by one. The model's FT does not wrap after
2^64 − 1. (DESIGN CHOICE, log 1) (DEDUCED, log 19) (DEDUCED, log 78) (DESIGN CHOICE, log 107) -/
def planeBeat (p : PlaneId) (s : State) : State :=
  let ft := s.ft p
  let beats := s.beats p
  let s := flushLate p (flushSync p s)
  let s := drainSample p (offerCands p (endResume p (beatCores p (serveOpen p (tryLates p s)))))
  let s := beatSwitch p s
  let s := pmuBeat p (latchUnits (planeUnits p) (noteLanes p (followLink p (noteTemps p s))))
  let s := dropStale p ((ft + 1) / 20) s
  readAhead p <| applySops p (s.modPl p (fun x => { x with ftm := { x.ftm with ft := ft + 1, beats := beats + 1 } }))

/-! ### The other clocks -/

/-- A beat of a hub: its count, the end of a lease whose deadline is over (R373), the peer's missed intervals (Table 1.4 HUB_PEER.MISS), and its blocks' interrupts. (DESIGN CHOICE, log 76) -/
def hubBeat (h : HubId) (s : State) : State :=
  let s := s.modHub h (fun x => { x with beat := x.beat + 1 })
  let s := if h = .b then { s with lease := { s.lease with newB := false } } else s
  let s := latchUnits (hubUnits h) (lapseLease s)
  let x := s.hub h
  let u := hu h .HUB
  if s.powered u ∧ ¬ s.hubFenced h ∧ x.peerAt + 64 < x.beat ∧ (x.beat - x.peerAt) % 64 = 1 then s.incSat u Fld.HUB_PEER_MISS else s

/-- BEAT: a beat of a clock begins. A plane or hub without power has none. (DESIGN CHOICE, log 1) (DEDUCED, log 89) -/
def execBeat (c : Clock) (s : State) : Out :=
  match c with
  | .plane p => .next (if s.powered (pu p .PLN) then planeBeat p s else s)
  | .hub h => .next (if s.powered (hu h .HUB) then hubBeat h s else s)
  | .power => .next (powerBeat s)

end Sys2Proof.Machine
end

