-- ==== Sys2Proof/Machine/CoreVec.lean ====
section
/-! DEFINITION. Sys2Proof/Machine/CoreVec.lean: the meanings of the vector instructions and of scratchpad loads and stores (R191 to R194,
R197, custom-0 of Table 7.5). -/

namespace Sys2Proof.Machine

/-- A vector operation on ws1 and ws2, with its latency. -/
def vec2 (p : PlaneId) (n : Nat) (lat : Nat) (f : Vec → Vec → Vec) (i : Issue) (s : State) : Eff :=
  let c := coreOf s p n
  .w (insRd i.w) (f (c.vreg (insRs1 i.w)) (c.vreg (insRs2 i.w))) lat s

/-- A vector row of a core. -/
def issueV (p : PlaneId) (n : CoreId) (row : CoreRow) (lat : Nat) (f : Vec → Vec → Vec) (s : State) : Out :=
  .next (issue p n.val row (vec2 p n.val lat f) s)

/-- VLD. -/
def execVld (p : PlaneId) (n : CoreId) (s : State) : Out :=
  .next (issue p n.val .vld (fun i s =>
    let a := (i.a + immI i.w).toNat
    if a % 128 ≠ 0 then .trap 4 a s
    else if 0x40000 < a + 128 then .trap 5 a s
    else lsLoad p n.val a 128 s (fun l s => .w (insRd i.w) (BitVec.ofNat 1024 (ofBytes l)) 2 s)) s)

/-- VST. -/
def execVst (p : PlaneId) (n : CoreId) (s : State) : Out :=
  .next (issue p n.val .vst (fun i s =>
    let a := (i.a + immS i.w).toNat
    if a % 128 ≠ 0 then .trap 6 a s
    else if 0x40000 < a + 128 then .trap 7 a s
    else
      let v := (coreOf s p n.val).vreg (insRs2 i.w)
      .hold 1 (modCore p n.val (fun c => { c with ls := memPuts c.ls a (bytesOf 128 v.toNat) }) s)) s)

/-- Whether SPLD and SPST reach an address (R192). -/
def spOk (s : State) (p : PlaneId) (a : Nat) : Bool := a % 128 = 0 && decide (baseS ≤ a) && coreReach s p a 128

/-- SPLD: the load takes the core's next turn; its result can be used 6 cycles after the turn. -/
def execSpld (p : PlaneId) (n : CoreId) (s : State) : Out :=
  .next (issue p n.val .spld (fun i s =>
    let a := i.a.toNat
    let s := if spOk s p a then memTouchAll p a 128 s else s
    if !spOk s p a || poisonedAt s p a 128 then .trap 5 a s
    else
      let r := spTurn p n.val i.cyc s
      let at' := cycleBeat (cyclesPerSlot s p) r.1
      .later { kind := opSpld, at' := at', rd := insRd i.w, a := a, b := r.1 } (r.1 - i.cyc + 6) r.2) s)

/-- SPST: the store takes the core's next turn. -/
def execSpst (p : PlaneId) (n : CoreId) (s : State) : Out :=
  .next (issue p n.val .spst (fun i s =>
    let a := i.a.toNat
    if !spOk s p a then .trap 7 a s
    else
      let r := spTurn p n.val i.cyc s
      let v := (coreOf s p n.val).vreg (insRs2 i.w)
      let o : CoreOp := { kind := opSpst, at' := cycleBeat (cyclesPerSlot s p) r.1, rd := 0, a := a, b := r.1, params := bytesOf 128 v.toNat }
      .later o (r.1 - i.cyc + 1) r.2) s)

/-- VADD.F32. -/
def execVaddF32 (p : PlaneId) (n : CoreId) (s : State) : Out := issueV p n .vaddF 4 (lanes2 32 f32Add) s
/-- VSUB.F32. -/
def execVsubF32 (p : PlaneId) (n : CoreId) (s : State) : Out := issueV p n .vsubF 4 (lanes2 32 f32Sub) s
/-- VMUL.F32. -/
def execVmulF32 (p : PlaneId) (n : CoreId) (s : State) : Out := issueV p n .vmulF 4 (lanes2 32 f32Mul) s
/-- VMAX.F32. -/
def execVmaxF32 (p : PlaneId) (n : CoreId) (s : State) : Out := issueV p n .vmaxF 4 (lanes2 32 f32Max) s
/-- VMIN.F32. -/
def execVminF32 (p : PlaneId) (n : CoreId) (s : State) : Out := issueV p n .vminF 4 (lanes2 32 f32Min) s
/-- VFMA.F32: wd + ws1 × ws2. -/
def execVfmaF32 (p : PlaneId) (n : CoreId) (s : State) : Out :=
  .next (issue p n.val .vfmaF (fun i s => vec2 p n.val 4 (fun a b => vfma a b ((coreOf s p n.val).vreg (insRd i.w))) i s) s)
/-- VADD.I32. -/
def execVaddI32 (p : PlaneId) (n : CoreId) (s : State) : Out := issueV p n .vaddI32 1 (vaddLanes 32) s
/-- VADD.I16. -/
def execVaddI16 (p : PlaneId) (n : CoreId) (s : State) : Out := issueV p n .vaddI16 1 (vaddLanes 16) s
/-- VADD.I8. -/
def execVaddI8 (p : PlaneId) (n : CoreId) (s : State) : Out := issueV p n .vaddI8 1 (vaddLanes 8) s
/-- VAND. -/
def execVand (p : PlaneId) (n : CoreId) (s : State) : Out := issueV p n .vand 1 (· &&& ·) s
/-- VOR. -/
def execVor (p : PlaneId) (n : CoreId) (s : State) : Out := issueV p n .vor 1 (· ||| ·) s
/-- VXOR. -/
def execVxor (p : PlaneId) (n : CoreId) (s : State) : Out := issueV p n .vxor 1 (· ^^^ ·) s

/-- VSPLAT. -/
def execVsplat (p : PlaneId) (n : CoreId) (s : State) : Out :=
  .next (issue p n.val .vsplat (fun i s => .w (insRd i.w) (ofLanes 32 (List.replicate 32 (i.a.toNat % 2 ^ 32))) 1 s) s)

/-- VEXT. -/
def execVext (p : PlaneId) (n : CoreId) (s : State) : Out :=
  .next (issue p n.val .vext (fun i s =>
    .x (insRd i.w) (BitVec.ofNat 64 (lane 64 ((coreOf s p n.val).vreg (insRs1 i.w)) (i.b.toNat % 16))) 2 s) s)

/-- VCVT.TO. -/
def execVcvtTo (p : PlaneId) (n : CoreId) (s : State) : Out :=
  .next (issue p n.val .vcvtTo (fun i s =>
    let c := coreOf s p n.val
    let r := vcvtTo (insF7 i.w) ((mgetD c.csr 0x7C1 0).getLsbD 0) (c.vreg (insRs1 i.w))
    .w (insRd i.w) r.1 4 (modCore p n.val (fun c => { c with csr := mput c.csr 0x7C2 (mgetD c.csr 0x7C2 0 ||| BitVec.ofNat 64 r.2) }) s)) s)

/-- VCVT.FROM. -/
def execVcvtFrom (p : PlaneId) (n : CoreId) (s : State) : Out :=
  .next (issue p n.val .vcvtFrom (fun i s =>
    .w (insRd i.w) (vcvtFrom (insF7 i.w - 0x40) ((coreOf s p n.val).vreg (insRs1 i.w))) 4 s) s)

end Sys2Proof.Machine
end

