-- ==== Sys2Proof/Machine/Writes.lean ====
section
/-! DEFINITION. Sys2Proof/Machine/Writes.lean: the commands that are register writes (R43, R52): where each register stands in BAR0, and one
meaning per row. A row that sets one command bit writes that bit whatever the rest of its value is; what the other bits do is what the
block's rules say of the whole write. -/

namespace Sys2Proof.Machine

/-! ### Addresses -/

/-- Offset of a plane block from its plane's base (Table 2.6). -/
def planeOff (c : Nat) : Option Nat :=
  match planeBlk c with
  | none => none
  | some (b, n) => match b with
    | .XPT => some 0x100000
    | .FMC => some (0x200000 + n * 0x10000)
    | .SDS => some (0x300000 + n * 0x10000)
    | .TMB => some (0x400000 + n * 0x10000)
    | .CCX => some (0x600000 + n * 0x10000)
    | .FPT => some (0x800000 + n * 0x4000)
    | .RTE => some 0x1000000
    | _ => some (rangeCodes.findIdx (· = c) * 0x10000)

/-- BAR0 offset of the register at an offset of a unit (Tables 2.5 and 2.6). -/
def bar0Of (u off : Nat) : Option Nat :=
  if u < 0x400 then (planeOff (u % 256)).map (fun o => 0x1000000 + u / 256 * 0x2000000 + o + off)
  else if u < 0x420 ∧ u % 16 < 8 then some ((u - 0x400) / 16 * 0x800000 + u % 16 * 0x10000 + off)
  else none

/-- A 32-bit write of a register of a unit. A number that Table 13.4 does not assign names no register. -/
def regWrite (acc : Accessor) (u off : Nat) (v : Word) (s : State) : State :=
  match bar0Of u off with
  | some a => writeBar0 acc a 15 v s
  | none => s

/-- A write of the register of a field. -/
def fldWrite (acc : Accessor) (u : Nat) (f : RField) (v : Word) (s : State) : Out := .next (regWrite acc u f.key v s)

/-- A write of the register of a command bit, with that bit set. (DESIGN CHOICE, log 73) -/
def cmdWrite (acc : Accessor) (u : Nat) (f : RField) (v : Word) (s : State) : Out := .next (regWrite acc u f.key (v ||| f.mask) s)

/-- A write of a header register, in a page of its block. (DESIGN CHOICE, log 73) -/
def hdrWrite (acc : Accessor) (u pg : Nat) (f : RField) (v : Word) (s : State) : Out := .next (regWrite acc u (4096 * pg + f.off) v s)

/-! ### Any register, and the common header (R46 to R55, R417) -/

/-- REG_WRITE: a write at a BAR0 offset, or of a register of a mailbox channel (R380). -/
def execRegWrite (acc : Accessor) (t : RegTarget) (be : BitVec 4) (v : Word) (s : State) : Out :=
  match t with
  | .bar0 a => .next (writeBar0 acc a.toNat be v s)
  | .chan c off => .next (chWrite acc c off.val be v s)

/-- BLK_ENABLE: EN takes a value. (DESIGN CHOICE, log 17) -/
def execBlkEnable (acc : Accessor) (u pg : Nat) (en : Bool) (s : State) : Out :=
  hdrWrite acc u pg Fld.BLK_CTRL_EN (BitVec.ofNat 32 (b2n en)) s
/-- LOCK: LOCK is set, and EN takes a value. -/
def execLock (acc : Accessor) (u pg : Nat) (en : Bool) (s : State) : Out :=
  hdrWrite acc u pg Fld.BLK_CTRL_LOCK (BitVec.ofNat 32 (b2n en) ||| Fld.BLK_CTRL_LOCK.mask) s
/-- SRST. -/
def execSrst (acc : Accessor) (u pg : Nat) (v : Word) (s : State) : Out := hdrWrite acc u pg Fld.BLK_CTRL_SRST (v ||| Fld.BLK_CTRL_SRST.mask) s
/-- REJ. -/
def execRej (acc : Accessor) (u pg : Nat) (v : Word) (s : State) : Out := hdrWrite acc u pg Fld.BLK_STAT_REJ (v ||| Fld.BLK_STAT_REJ.mask) s
/-- IRQ_STAT. -/
def execIrqStat (acc : Accessor) (u pg : Nat) (v : Word) (s : State) : Out := .next (regWrite acc u (4096 * pg + 0x018) v s)
/-- ACK. -/
def execAck (acc : Accessor) (u pg : Nat) (v : Word) (s : State) : Out := hdrWrite acc u pg Fld.BLK_ERR_CLASS_ACK (v ||| Fld.BLK_ERR_CLASS_ACK.mask) s
/-- GO. -/
def execGo (acc : Accessor) (u pg : Nat) (v : Word) (s : State) : Out := hdrWrite acc u pg Fld.BLK_ERR_INJ_GO (v ||| Fld.BLK_ERR_INJ_GO.mask) s
/-- FENCE_REQ. -/
def execFenceReq (acc : Accessor) (u pg : Nat) (v : Word) (s : State) : Out :=
  hdrWrite acc u pg Fld.BLK_FENCE_FENCE_REQ (v ||| Fld.BLK_FENCE_FENCE_REQ.mask) s

/-! ### Plane, hub links and fabric time (R31, R33, R72, R73, R86) -/

/-- ACLK_SET: a write of PLN_CFG. -/
def execAclkSet (acc : Accessor) (p : PlaneId) (v : Word) (s : State) : Out := .next (regWrite acc (pu p .PLN) 0x040 v s)
/-- EN: a write of HUB_LINKp_CTL. -/
def execLinkEn (acc : Accessor) (h : HubId) (p : PlaneId) (v : Word) (s : State) : Out := fldWrite acc (hu h .HUB) (Fld.HUB_LINK_CTL_EN.at p.val) v s
/-- CAP. -/
def execCap (acc : Accessor) (p : PlaneId) (v : Word) (s : State) : Out := cmdWrite acc (pu p .FTM) Fld.FTM_CAP v s
/-- FTM_SEED_HI. -/
def execFtmSeedHi (acc : Accessor) (p : PlaneId) (v : Word) (s : State) : Out := fldWrite acc (pu p .FTM) Fld.FTM_SEED_HI v s
/-- HOLD_LIMIT: a write of FTM_CFG. -/
def execHoldLimit (acc : Accessor) (p : PlaneId) (v : Word) (s : State) : Out := fldWrite acc (pu p .FTM) Fld.FTM_CFG_HOLD_LIMIT v s

/-! ### Latch entries (R90, R93, R95) -/

/-- ARM. -/
def execArm (acc : Accessor) (p : PlaneId) (e : Fin 64) (v : Word) (s : State) : Out := cmdWrite acc (pu p .LAT) (Fld.ENT_CTRL_ARM.at e.val) v s
/-- ARRIVE. -/
def execArrive (acc : Accessor) (p : PlaneId) (e : Fin 64) (v : Word) (s : State) : Out := cmdWrite acc (pu p .LAT) (Fld.ENT_CTRL_ARRIVE.at e.val) v s
/-- ABORT. -/
def execAbort (acc : Accessor) (p : PlaneId) (e : Fin 64) (v : Word) (s : State) : Out := cmdWrite acc (pu p .LAT) (Fld.ENT_CTRL_ABORT.at e.val) v s

/-! ### Keys (R114, R118, R127, R128) -/

/-- A write of KSQ_CMD with a command, and what bits stand above it. -/
def keyCmd (acc : Accessor) (p : PlaneId) (cmd : Nat) (v : Word) (s : State) : Out :=
  fldWrite acc (pu p .KSQ) Fld.KSQ_CMD ((v &&& ~~~Fld.KSQ_CMD.mask) ||| BitVec.ofNat 32 cmd) s
/-- LOAD. -/
def execLoad (acc : Accessor) (p : PlaneId) (v : Word) (s : State) : Out := keyCmd acc p 1 v s
/-- ARM of a key. -/
def execKeyArm (acc : Accessor) (p : PlaneId) (v : Word) (s : State) : Out := keyCmd acc p 2 v s
/-- RESUME. -/
def execResume (acc : Accessor) (p : PlaneId) (v : Word) (s : State) : Out := keyCmd acc p 3 v s
/-- PAUSE. -/
def execPause (acc : Accessor) (p : PlaneId) (v : Word) (s : State) : Out := keyCmd acc p 4 v s
/-- STOP. -/
def execStop (acc : Accessor) (p : PlaneId) (v : Word) (s : State) : Out := keyCmd acc p 5 v s
/-- DISCARD. -/
def execDiscard (acc : Accessor) (p : PlaneId) (v : Word) (s : State) : Out := keyCmd acc p 6 v s

/-! ### Slices, cores, sync objects and groups (R158, R204, R226, R231, R234, R251) -/

/-- TMB_ACC_SEL_GO. -/
def execTmbAccSelGo (acc : Accessor) (p : PlaneId) (n : SliceId) (v : Word) (s : State) : Out := cmdWrite acc (uTMB p n.val) Fld.TMB_ACC_SEL_GO v s
/-- RUN. (DEDUCED, log 64) -/
def execRun (acc : Accessor) (p : PlaneId) (n : CoreId) (v : Word) (s : State) : Out := cmdWrite acc (uCCX p n.val) Fld.CCX_CTRL_RUN v s
/-- HALT. (DEDUCED, log 64) -/
def execHalt (acc : Accessor) (p : PlaneId) (n : CoreId) (v : Word) (s : State) : Out := cmdWrite acc (uCCX p n.val) Fld.CCX_CTRL_HALT v s
/-- SAVE. -/
def execSave (acc : Accessor) (p : PlaneId) (n : CoreId) (v : Word) (s : State) : Out := cmdWrite acc (uCCX p n.val) Fld.CCX_CTRL_SAVE v s
/-- RESTORE. -/
def execRestore (acc : Accessor) (p : PlaneId) (n : CoreId) (v : Word) (s : State) : Out := cmdWrite acc (uCCX p n.val) Fld.CCX_CTRL_RESTORE v s
/-- CCX_LS_DATA. -/
def execCcxLsData (acc : Accessor) (p : PlaneId) (n : CoreId) (v : Word) (s : State) : Out := .next (regWrite acc (uCCX p n.val) 0x05C v s)
/-- SYN_OBJ. -/
def execSynObj (acc : Accessor) (p : PlaneId) (k : Fin 4096) (v : Word) (s : State) : Out :=
  .next (regWrite acc (pu p .SYN) (4096 * (k.val / 256) + 0x400 + 4 * (k.val % 256)) v s)
/-- SYN_ADD. -/
def execSynAdd (acc : Accessor) (p : PlaneId) (k : Fin 4096) (v : Word) (s : State) : Out :=
  .next (regWrite acc (pu p .SYN) (4096 * (k.val / 256) + 0x800 + 4 * (k.val % 256)) v s)
/-- GRQ_DB. -/
def execGrqDb (acc : Accessor) (p : PlaneId) (g : Fin 1024) (v : Word) (s : State) : Out :=
  .next (regWrite acc (pu p .GRQ) (4096 * (1 + g.val / 256) + 0x400 + 4 * (g.val % 256)) v s)
/-- GROUP. -/
def execGroup (acc : Accessor) (p : PlaneId) (v : Word) (s : State) : Out := fldWrite acc (pu p .GRQ) Fld.GRQ_SEL_GROUP v s
/-- COMMIT. -/
def execCommit (acc : Accessor) (p : PlaneId) (v : Word) (s : State) : Out := cmdWrite acc (pu p .GRQ) Fld.GRQ_G_CTL_COMMIT v s
/-- CCONS. -/
def execCcons (acc : Accessor) (p : PlaneId) (v : Word) (s : State) : Out := fldWrite acc (pu p .GRQ) Fld.GRQ_G_CPTR_CCONS v s

/-! ### Memory (R267, R272) -/

/-- POISON. -/
def execPoison (acc : Accessor) (p : PlaneId) (t : Fin 7) (v : Word) (s : State) : Out := cmdWrite acc (tgtUnit p t.val) Fld.FMC_CMD_POISON v s
/-- APPLY. -/
def execApply (acc : Accessor) (p : PlaneId) (v : Word) (s : State) : Out := cmdWrite acc (pu p .SPM) Fld.SPM_PART_CTL_APPLY v s

/-! ### Ports, routing and the switch (R309, R334, R353, R354, R358, R362, R365, R366) -/

/-- PEN: a write of FPT_CFG. -/
def execPen (acc : Accessor) (p : PlaneId) (n : PortId) (v : Word) (s : State) : Out := fldWrite acc (uFPT p n.val) Fld.FPT_CFG_PEN v s
/-- START. -/
def execStart (acc : Accessor) (p : PlaneId) (v : Word) (s : State) : Out := cmdWrite acc (pu p .RTE) Fld.RTE_CTL_START v s
/-- COMMIT of the routing state. -/
def execRouteCommit (acc : Accessor) (p : PlaneId) (v : Word) (s : State) : Out := cmdWrite acc (pu p .RTE) Fld.RTE_CTL_COMMIT v s
/-- RESUME of adaptive injection. -/
def execRouteResume (acc : Accessor) (p : PlaneId) (v : Word) (s : State) : Out := cmdWrite acc (pu p .RTE) Fld.RTE_CTL_RESUME v s
/-- POL_SEL. -/
def execPolSel (acc : Accessor) (p : PlaneId) (v : Word) (s : State) : Out := fldWrite acc (pu p .POL) Fld.POL_SEL_POLICER v s
/-- APPLY of a policer. -/
def execPolApply (acc : Accessor) (p : PlaneId) (v : Word) (s : State) : Out := cmdWrite acc (pu p .POL) Fld.POL_CTL_APPLY v s
/-- FLIP. -/
def execFlip (acc : Accessor) (p : PlaneId) (v : Word) (s : State) : Out := cmdWrite acc (pu p .SWC) Fld.SWC_EPOCH_FLIP v s
/-- SWC_TBL_DATA. -/
def execSwcTblData (acc : Accessor) (p : PlaneId) (v : Word) (s : State) : Out := fldWrite acc (pu p .SWC) Fld.SWC_TBL_DATA v s
/-- SWC_SEED_HI. -/
def execSwcSeedHi (acc : Accessor) (p : PlaneId) (v : Word) (s : State) : Out := fldWrite acc (pu p .SWC) Fld.SWC_SEED_HI v s
/-- SHAPER_WRITE: a write of the shaper registers of the selected queue or its port. -/
def execShaperWrite (acc : Accessor) (p : PlaneId) (r : ShaperReg) (v : Word) (s : State) : Out :=
  let f := match r with
    | .queueCfg => Fld.QSH_Q_CFG_SHAPE_EN
    | .queueRate => Fld.QSH_Q_RATE
    | .queueBurst => Fld.QSH_Q_BURST
    | .portCfg => Fld.QSH_P_CFG_SHAPE_EN
    | .portRate => Fld.QSH_P_RATE
    | .portBurst => Fld.QSH_P_BURST
  fldWrite acc (pu p .QSH) f v s
/-- CLRMAX. -/
def execClrmax (acc : Accessor) (p : PlaneId) (v : Word) (s : State) : Out := cmdWrite acc (pu p .QSH) Fld.QSH_CMD_CLRMAX v s

/-! ### Hubs (R373, R376, R388, R407, R412, R426, R428, R444) -/

/-- REQ. -/
def execReq (acc : Accessor) (h : HubId) (v : Word) (s : State) : Out := cmdWrite acc (hu h .PCI) Fld.PCI_LEASE_REQ v s
/-- RENEW. -/
def execRenew (acc : Accessor) (h : HubId) (v : Word) (s : State) : Out := cmdWrite acc (hu h .PCI) Fld.PCI_LEASE_RENEW v s
/-- RELEASE. -/
def execRelease (acc : Accessor) (h : HubId) (v : Word) (s : State) : Out := cmdWrite acc (hu h .PCI) Fld.PCI_LEASE_RELEASE v s
/-- READY: a write of PCI_CFG. -/
def execReady (acc : Accessor) (h : HubId) (v : Word) (s : State) : Out := fldWrite acc (hu h .PCI) Fld.PCI_CFG_READY v s
/-- RDMA_REGION_EN: a write of the last word of a region entry, with EN. -/
def execRdmaRegionEn (acc : Accessor) (h : HubId) (r : Fin 64) (v : Word) (s : State) : Out := cmdWrite acc (hu h .SVC) (Fld.SVC_RG_EN.at r.val) v s
/-- FCL_LIFT. -/
def execFclLift (acc : Accessor) (h : HubId) (v : Word) (s : State) : Out := fldWrite acc (hu h .FCL) Fld.FCL_LIFT_UNIT v s
/-- ALIVE_EN: a write of FCL_CFG. -/
def execAliveEn (acc : Accessor) (h : HubId) (v : Word) (s : State) : Out := fldWrite acc (hu h .FCL) Fld.FCL_CFG_ALIVE_EN v s
/-- PWR_DOM_ON. -/
def execPwrDomOn (acc : Accessor) (h : HubId) (v : Word) (s : State) : Out := fldWrite acc (hu h .PWR) Fld.PWR_DOM_ON_ON_REQ v s
/-- PWR_DOM_OFF. -/
def execPwrDomOff (acc : Accessor) (h : HubId) (v : Word) (s : State) : Out := fldWrite acc (hu h .PWR) Fld.PWR_DOM_OFF_OFF_REQ v s
/-- MODULE_RESET. -/
def execModuleReset (acc : Accessor) (h : HubId) (v : Word) (s : State) : Out := cmdWrite acc (hu h .PWR) Fld.PWR_CMD_MODULE_RESET v s
/-- PLANE_RESET. -/
def execPlaneReset (acc : Accessor) (h : HubId) (v : Word) (s : State) : Out := cmdWrite acc (hu h .PWR) Fld.PWR_CMD_PLANE_RESET v s
/-- HUB_RESET. -/
def execHubReset (acc : Accessor) (h : HubId) (v : Word) (s : State) : Out := cmdWrite acc (hu h .PWR) Fld.PWR_CMD_HUB_RESET v s
/-- A write of KPL_CMD with a command, and what bits stand above it. -/
def kplWrite (acc : Accessor) (h : HubId) (cmd : Nat) (v : Word) (s : State) : Out :=
  fldWrite acc (hu h .KPL) Fld.KPL_CMD ((v &&& ~~~Fld.KPL_CMD.mask) ||| BitVec.ofNat 32 cmd) s
/-- VERIFY. -/
def execVerify (acc : Accessor) (h : HubId) (v : Word) (s : State) : Out := kplWrite acc h 1 v s
/-- LOAD_CC. -/
def execLoadCc (acc : Accessor) (h : HubId) (v : Word) (s : State) : Out := kplWrite acc h 2 v s
/-- COMMIT_SVN. -/
def execCommitSvn (acc : Accessor) (h : HubId) (v : Word) (s : State) : Out := kplWrite acc h 3 v s
/-- CLAIM. -/
def execClaim (acc : Accessor) (h : HubId) (v : Word) (s : State) : Out := kplWrite acc h 4 v s
/-- DBG_NONCE. -/
def execDbgNonce (acc : Accessor) (h : HubId) (v : Word) (s : State) : Out := kplWrite acc h 5 v s
/-- DBG_UNLOCK. -/
def execDbgUnlock (acc : Accessor) (h : HubId) (v : Word) (s : State) : Out := kplWrite acc h 6 v s
/-- SET_PREF. -/
def execSetPref (acc : Accessor) (h : HubId) (v : Word) (s : State) : Out := kplWrite acc h 7 v s

/-! ### Management cores and counters (R442, R449, R453, R457) -/

/-- The unit with a site's management cores. -/
def siteUnit (t : MgcSite) : Nat :=
  match t with
  | .plane p => pu p .MGC
  | .hub h => hu h .HUB
/-- RUN of management cores. (DESIGN CHOICE, log 81) -/
def execMgcRun (acc : Accessor) (t : MgcSite) (v : Word) (s : State) : Out := fldWrite acc (siteUnit t) Fld.MGC_CTRL_RUN v s
/-- HALT of management cores. -/
def execMgcHalt (acc : Accessor) (t : MgcSite) (v : Word) (s : State) : Out := fldWrite acc (siteUnit t) Fld.MGC_CTRL_HALT v s
/-- KICK. -/
def execKick (acc : Accessor) (t : MgcSite) (v : Word) (s : State) : Out := fldWrite acc (siteUnit t) Fld.MGC_WDOG_KICK v s
/-- SNAP. -/
def execSnap (acc : Accessor) (p : PlaneId) (v : Word) (s : State) : Out := cmdWrite acc (pu p .PMU) Fld.PMU_CTL_SNAP v s
/-- CLR_ALL. -/
def execClrAll (acc : Accessor) (p : PlaneId) (v : Word) (s : State) : Out := cmdWrite acc (pu p .PMU) Fld.PMU_CTL_CLR_ALL v s
/-- TD_CLR. -/
def execTdClr (acc : Accessor) (p : PlaneId) (v : Word) (s : State) : Out := cmdWrite acc (pu p .PMU) Fld.PMU_TD_CTL_TD_CLR v s
/-- CLR of a histogram. -/
def execClr (acc : Accessor) (p : PlaneId) (h : Fin 4) (v : Word) (s : State) : Out := cmdWrite acc (pu p .PMU) (Fld.PMU_HIST_CFG_CLR.at h.val) v s

end Sys2Proof.Machine
end

