-- ==== Sys2Proof/Machine/Dispatch.lean ====
section
/-! DEFINITION. Sys2Proof/Machine/Dispatch.lean: one arm per command, each a direct call of its meaning. -/

namespace Sys2Proof.Machine

def exec (i : Instr) (s : State) : Host.Outcome State Fault Refusal :=
  match i with
  | .regWrite acc t be v => Sys2Proof.Machine.execRegWrite acc t be v s
  | .blkEnable acc u pg en => Sys2Proof.Machine.execBlkEnable acc u pg en s
  | .lock acc u pg en => Sys2Proof.Machine.execLock acc u pg en s
  | .srst acc u pg v => Sys2Proof.Machine.execSrst acc u pg v s
  | .softResetDone u => Sys2Proof.Machine.execSoftResetDone u s
  | .rej acc u pg v => Sys2Proof.Machine.execRej acc u pg v s
  | .irqStat acc u pg v => Sys2Proof.Machine.execIrqStat acc u pg v s
  | .ack acc u pg v => Sys2Proof.Machine.execAck acc u pg v s
  | .go acc u pg v => Sys2Proof.Machine.execGo acc u pg v s
  | .fenceReq acc u pg v => Sys2Proof.Machine.execFenceReq acc u pg v s
  | .beat c => Sys2Proof.Machine.execBeat c s
  | .aclkSet acc p v => Sys2Proof.Machine.execAclkSet acc p v s
  | .clkchgEnter p => Sys2Proof.Machine.execClkchgEnter p s
  | .relockDone p => Sys2Proof.Machine.execRelockDone p s
  | .linkEn acc h p v => Sys2Proof.Machine.execLinkEn acc h p v s
  | .timerefChange h present ppb beats => Sys2Proof.Machine.execTimerefChange h present ppb beats s
  | .ppsEdge h high sub => Sys2Proof.Machine.execPpsEdge h high sub s
  | .ptpMessage h domain eth msg => Sys2Proof.Machine.execPtpMessage h domain eth msg s
  | .cap acc p v => Sys2Proof.Machine.execCap acc p v s
  | .ftmSeedHi acc p v => Sys2Proof.Machine.execFtmSeedHi acc p v s
  | .holdLimit acc p v => Sys2Proof.Machine.execHoldLimit acc p v s
  | .tsyncSend p sub => Sys2Proof.Machine.execTsyncSend p sub s
  | .tsyncReceive p src msg sub echoSub => Sys2Proof.Machine.execTsyncReceive p src msg sub echoSub s
  | .tsyncEchoReceive p src msg sub => Sys2Proof.Machine.execTsyncEchoReceive p src msg sub s
  | .phaseStep p => Sys2Proof.Machine.execPhaseStep p s
  | .freqLock p => Sys2Proof.Machine.execFreqLock p s
  | .tsyncTimeout p => Sys2Proof.Machine.execTsyncTimeout p s
  | .holdoverExpire p => Sys2Proof.Machine.execHoldoverExpire p s
  | .ppsOutRise => Sys2Proof.Machine.execPpsOutRise s
  | .ppsOutFall => Sys2Proof.Machine.execPpsOutFall s
  | .arm acc p e v => Sys2Proof.Machine.execArm acc p e v s
  | .arrive acc p e v => Sys2Proof.Machine.execArrive acc p e v s
  | .abort acc p e v => Sys2Proof.Machine.execAbort acc p e v s
  | .latchArriveMsg p d => Sys2Proof.Machine.execLatchArriveMsg p d s
  | .latchStrikeMsg p d => Sys2Proof.Machine.execLatchStrikeMsg p d s
  | .latchAbortMsg p d => Sys2Proof.Machine.execLatchAbortMsg p d s
  | .latchMissedMsg p d => Sys2Proof.Machine.execLatchMissedMsg p d s
  | .latchArriveResend p e => Sys2Proof.Machine.execLatchArriveResend p e s
  | .latchRelease p e => Sys2Proof.Machine.execLatchRelease p e s
  | .latchTimeout p e => Sys2Proof.Machine.execLatchTimeout p e s
  | .load acc p v => Sys2Proof.Machine.execLoad acc p v s
  | .keyLoadDone p => Sys2Proof.Machine.execKeyLoadDone p s
  | .keyArm acc p v => Sys2Proof.Machine.execKeyArm acc p v s
  | .resume acc p v => Sys2Proof.Machine.execResume acc p v s
  | .pause acc p v => Sys2Proof.Machine.execPause acc p v s
  | .stop acc p v => Sys2Proof.Machine.execStop acc p v s
  | .discard acc p v => Sys2Proof.Machine.execDiscard acc p v s
  | .keyStart p => Sys2Proof.Machine.execKeyStart p s
  | .keySwapLate p => Sys2Proof.Machine.execKeySwapLate p s
  | .keySlot p => Sys2Proof.Machine.execKeySlot p s
  | .refreshDeadline p t => Sys2Proof.Machine.execRefreshDeadline p t s
  | .keyEnd p => Sys2Proof.Machine.execKeyEnd p s
  | .tmbFail p n => Sys2Proof.Machine.execTmbFail p n s
  | .spareActivate p n => Sys2Proof.Machine.execSpareActivate p n s
  | .tmbAccSelGo acc p n v => Sys2Proof.Machine.execTmbAccSelGo acc p n v s
  | .contribFrame p ep addr cells => Sys2Proof.Machine.execContribFrame p ep addr cells s
  | .chunkCloseBegin p pos c => Sys2Proof.Machine.execChunkCloseBegin p pos c s
  | .chunkCloseEnd p pos c => Sys2Proof.Machine.execChunkCloseEnd p pos c s
  | .recomputeStart p pos c n => Sys2Proof.Machine.execRecomputeStart p pos c n s
  | .recomputeDone p pos c n => Sys2Proof.Machine.execRecomputeDone p pos c n s
  | .repairDelivery p pos c n d => Sys2Proof.Machine.execRepairDelivery p pos c n d s
  | .repairLimit p pos c n d => Sys2Proof.Machine.execRepairLimit p pos c n d s
  | .repairRequest p g cseq n m => Sys2Proof.Machine.execRepairRequest p g cseq n m s
  | .scalarInstruction p n => Sys2Proof.Machine.execScalarInstruction p n s
  | .csrInstruction p n => Sys2Proof.Machine.execCsrInstruction p n s
  | .vld p n => Sys2Proof.Machine.execVld p n s
  | .vst p n => Sys2Proof.Machine.execVst p n s
  | .spld p n => Sys2Proof.Machine.execSpld p n s
  | .spst p n => Sys2Proof.Machine.execSpst p n s
  | .vaddF32 p n => Sys2Proof.Machine.execVaddF32 p n s
  | .vsubF32 p n => Sys2Proof.Machine.execVsubF32 p n s
  | .vmulF32 p n => Sys2Proof.Machine.execVmulF32 p n s
  | .vfmaF32 p n => Sys2Proof.Machine.execVfmaF32 p n s
  | .vmaxF32 p n => Sys2Proof.Machine.execVmaxF32 p n s
  | .vminF32 p n => Sys2Proof.Machine.execVminF32 p n s
  | .vaddI32 p n => Sys2Proof.Machine.execVaddI32 p n s
  | .vaddI16 p n => Sys2Proof.Machine.execVaddI16 p n s
  | .vaddI8 p n => Sys2Proof.Machine.execVaddI8 p n s
  | .vand p n => Sys2Proof.Machine.execVand p n s
  | .vor p n => Sys2Proof.Machine.execVor p n s
  | .vxor p n => Sys2Proof.Machine.execVxor p n s
  | .vsplat p n => Sys2Proof.Machine.execVsplat p n s
  | .vext p n => Sys2Proof.Machine.execVext p n s
  | .vcvtTo p n => Sys2Proof.Machine.execVcvtTo p n s
  | .vcvtFrom p n => Sys2Proof.Machine.execVcvtFrom p n s
  | .xfer p n => Sys2Proof.Machine.execXfer p n s
  | .xferComplete p n => Sys2Proof.Machine.execXferComplete p n s
  | .xwait p n => Sys2Proof.Machine.execXwait p n s
  | .cbind p n => Sys2Proof.Machine.execCbind p n s
  | .cunbind p n => Sys2Proof.Machine.execCunbind p n s
  | .cfeed p n => Sys2Proof.Machine.execCfeed p n s
  | .feedDone p pos c => Sys2Proof.Machine.execFeedDone p pos c s
  | .cclose p n => Sys2Proof.Machine.execCclose p n s
  | .csend p n => Sys2Proof.Machine.execCsend p n s
  | .cstore p n => Sys2Proof.Machine.execCstore p n s
  | .crelease p n => Sys2Proof.Machine.execCrelease p n s
  | .cstat p n => Sys2Proof.Machine.execCstat p n s
  | .sadd p n => Sys2Proof.Machine.execSadd p n s
  | .sset p n => Sys2Proof.Machine.execSset p n s
  | .srd p n => Sys2Proof.Machine.execSrd p n s
  | .swait p n => Sys2Proof.Machine.execSwait p n s
  | .qpop p n => Sys2Proof.Machine.execQpop p n s
  | .qdone p n => Sys2Proof.Machine.execQdone p n s
  | .qwait p n => Sys2Proof.Machine.execQwait p n s
  | .msend p n => Sys2Proof.Machine.execMsend p n s
  | .mrecv p n => Sys2Proof.Machine.execMrecv p n s
  | .kcmd p n => Sys2Proof.Machine.execKcmd p n s
  | .larr p n => Sys2Proof.Machine.execLarr p n s
  | .kdig p n => Sys2Proof.Machine.execKdig p n s
  | .ftwait p n => Sys2Proof.Machine.execFtwait p n s
  | .waitRetire p n => Sys2Proof.Machine.execWaitRetire p n s
  | .waitTimeout p n => Sys2Proof.Machine.execWaitTimeout p n s
  | .msgArrive p n srcMod srcCore d => Sys2Proof.Machine.execMsgArrive p n srcMod srcCore d s
  | .ccWatchdog p n => Sys2Proof.Machine.execCcWatchdog p n s
  | .run acc p n v => Sys2Proof.Machine.execRun acc p n v s
  | .halt acc p n v => Sys2Proof.Machine.execHalt acc p n v s
  | .save acc p n v => Sys2Proof.Machine.execSave acc p n v s
  | .ccSaveDone p n => Sys2Proof.Machine.execCcSaveDone p n s
  | .restore acc p n v => Sys2Proof.Machine.execRestore acc p n v s
  | .ccRestoreDone p n => Sys2Proof.Machine.execCcRestoreDone p n s
  | .ccxLsData acc p n v => Sys2Proof.Machine.execCcxLsData acc p n v s
  | .synObj acc p k v => Sys2Proof.Machine.execSynObj acc p k v s
  | .synAdd acc p k v => Sys2Proof.Machine.execSynAdd acc p k v s
  | .grqDb acc p g v => Sys2Proof.Machine.execGrqDb acc p g v s
  | .launch p ep d => Sys2Proof.Machine.execLaunch p ep d s
  | .group acc p v => Sys2Proof.Machine.execGroup acc p v s
  | .commit acc p v => Sys2Proof.Machine.execCommit acc p v s
  | .abandonedPost p g => Sys2Proof.Machine.execAbandonedPost p g s
  | .ccons acc p v => Sys2Proof.Machine.execCcons acc p v s
  | .mismatchReport p d => Sys2Proof.Machine.execMismatchReport p d s
  | .barrierArrive p d => Sys2Proof.Machine.execBarrierArrive p d s
  | .collectiveTmo p g cseq => Sys2Proof.Machine.execCollectiveTmo p g cseq s
  | .ctrlRefresh p t => Sys2Proof.Machine.execCtrlRefresh p t s
  | .patrolStep p t => Sys2Proof.Machine.execPatrolStep p t s
  | .poison acc p t v => Sys2Proof.Machine.execPoison acc p t v s
  | .apply acc p v => Sys2Proof.Machine.execApply acc p v s
  | .partitionApplyDone p => Sys2Proof.Machine.execPartitionApplyDone p s
  | .linkUnitReceive p lane u ce ue sub => Sys2Proof.Machine.execLinkUnitReceive p lane u ce ue sub s
  | .linkSlotSend p n sub => Sys2Proof.Machine.execLinkSlotSend p n sub s
  | .laneFault p lane locked => Sys2Proof.Machine.execLaneFault p lane locked s
  | .narrow p lane mask t => Sys2Proof.Machine.execNarrow p lane mask t s
  | .narrowAck p lane mask t => Sys2Proof.Machine.execNarrowAck p lane mask t s
  | .narrowSwitch p n => Sys2Proof.Machine.execNarrowSwitch p n s
  | .rttProbe p lane dep => Sys2Proof.Machine.execRttProbe p lane dep s
  | .rttEcho p lane dep sub => Sys2Proof.Machine.execRttEcho p lane dep sub s
  | .helloSend p lane => Sys2Proof.Machine.execHelloSend p lane s
  | .hello p lane msg => Sys2Proof.Machine.execHello p lane msg s
  | .pen acc p n v => Sys2Proof.Machine.execPen acc p n v s
  | .trainingDone p n trained => Sys2Proof.Machine.execTrainingDone p n trained s
  | .discoverTimeout p n => Sys2Proof.Machine.execDiscoverTimeout p n s
  | .absentRetry p n => Sys2Proof.Machine.execAbsentRetry p n s
  | .start acc p v => Sys2Proof.Machine.execStart acc p v s
  | .routeCommit acc p v => Sys2Proof.Machine.execRouteCommit acc p v s
  | .routeResume acc p v => Sys2Proof.Machine.execRouteResume acc p v s
  | .holdFt p => Sys2Proof.Machine.execHoldFt p s
  | .resumeTime p => Sys2Proof.Machine.execResumeTime p s
  | .robOpenExpire p n => Sys2Proof.Machine.execRobOpenExpire p n s
  | .robWaitExpire p n => Sys2Proof.Machine.execRobWaitExpire p n s
  | .robStreamClose p n => Sys2Proof.Machine.execRobStreamClose p n s
  | .frameAdmit p => Sys2Proof.Machine.execFrameAdmit p s
  | .unitFrameAdmit p u => Sys2Proof.Machine.execUnitFrameAdmit p u s
  | .copyAgeExpire p k => Sys2Proof.Machine.execCopyAgeExpire p k s
  | .auditVisit p => Sys2Proof.Machine.execAuditVisit p s
  | .polSel acc p v => Sys2Proof.Machine.execPolSel acc p v s
  | .polApply acc p v => Sys2Proof.Machine.execPolApply acc p v s
  | .flip acc p v => Sys2Proof.Machine.execFlip acc p v s
  | .swcTblData acc p v => Sys2Proof.Machine.execSwcTblData acc p v s
  | .swcSeedHi acc p v => Sys2Proof.Machine.execSwcSeedHi acc p v s
  | .shaperWrite acc p r v => Sys2Proof.Machine.execShaperWrite acc p r v s
  | .clrmax acc p v => Sys2Proof.Machine.execClrmax acc p v s
  | .perst h beats => Sys2Proof.Machine.execPerst h beats s
  | .flr h => Sys2Proof.Machine.execFlr h s
  | .pcieLinkDown h => Sys2Proof.Machine.execPcieLinkDown h s
  | .bar2Access h offset write data tag => Sys2Proof.Machine.execBar2Access h offset write data tag s
  | .req acc h v => Sys2Proof.Machine.execReq acc h v s
  | .renew acc h v => Sys2Proof.Machine.execRenew acc h v s
  | .release acc h v => Sys2Proof.Machine.execRelease acc h v s
  | .leaseExpire => Sys2Proof.Machine.execLeaseExpire s
  | .ready acc h v => Sys2Proof.Machine.execReady acc h v s
  | .chGo acc c => Sys2Proof.Machine.execChGo acc c s
  | .mbxVisible c => Sys2Proof.Machine.execMbxVisible c s
  | .chPop acc c => Sys2Proof.Machine.execChPop acc c s
  | .chDbSet acc c v => Sys2Proof.Machine.execChDbSet acc c v s
  | .chDbPend acc c v => Sys2Proof.Machine.execChDbPend acc c v s
  | .svcFrameReceive h f => Sys2Proof.Machine.execSvcFrameReceive h f s
  | .rdmaRequest h q rip psn rkey addr op => Sys2Proof.Machine.execRdmaRequest h q rip psn rkey addr op s
  | .rdmaRegionEn acc h r v => Sys2Proof.Machine.execRdmaRegionEn acc h r v s
  | .faultDetect u src cls wh detail item => Sys2Proof.Machine.execFaultDetect u src cls wh detail item s
  | .reportFrameSend u => Sys2Proof.Machine.execReportFrameSend u s
  | .reportFrameReceive h u f wires => Sys2Proof.Machine.execReportFrameReceive h u f wires s
  | .reportTimeout h u => Sys2Proof.Machine.execReportTimeout h u s
  | .peerHeartbeat h => Sys2Proof.Machine.execPeerHeartbeat h s
  | .peerTimeout h => Sys2Proof.Machine.execPeerTimeout h s
  | .cSelfAck u => Sys2Proof.Machine.execCSelfAck u s
  | .fclLift acc h v => Sys2Proof.Machine.execFclLift acc h v s
  | .deadboltRecord h => Sys2Proof.Machine.execDeadboltRecord h s
  | .aliveToggle h => Sys2Proof.Machine.execAliveToggle h s
  | .aliveEn acc h v => Sys2Proof.Machine.execAliveEn acc h v s
  | .hubLinkTimeout h p => Sys2Proof.Machine.execHubLinkTimeout h p s
  | .pwrcycN low beats => Sys2Proof.Machine.execPwrcycN low beats s
  | .i3cRead addr off n => Sys2Proof.Machine.execI3cRead addr off n s
  | .i3cWrite addr off d => Sys2Proof.Machine.execI3cWrite addr off d s
  | .i3cTimeout => Sys2Proof.Machine.execI3cTimeout s
  | .feedChange f mv beats => Sys2Proof.Machine.execFeedChange f mv beats s
  | .feedQualify f => Sys2Proof.Machine.execFeedQualify f s
  | .rideThroughExpire => Sys2Proof.Machine.execRideThroughExpire s
  | .domainAdmit d => Sys2Proof.Machine.execDomainAdmit d s
  | .domainStable d => Sys2Proof.Machine.execDomainStable d s
  | .railTimeout d => Sys2Proof.Machine.execRailTimeout d s
  | .pwrDomOn acc h v => Sys2Proof.Machine.execPwrDomOn acc h v s
  | .pwrDomOff acc h v => Sys2Proof.Machine.execPwrDomOff acc h v s
  | .memoryReady p t => Sys2Proof.Machine.execMemoryReady p t s
  | .moduleReset acc h v => Sys2Proof.Machine.execModuleReset acc h v s
  | .planeReset acc h v => Sys2Proof.Machine.execPlaneReset acc h v s
  | .hubReset acc h v => Sys2Proof.Machine.execHubReset acc h v s
  | .powerOn => Sys2Proof.Machine.execPowerOn s
  | .verify acc h v => Sys2Proof.Machine.execVerify acc h v s
  | .loadCc acc h v => Sys2Proof.Machine.execLoadCc acc h v s
  | .commitSvn acc h v => Sys2Proof.Machine.execCommitSvn acc h v s
  | .claim acc h v => Sys2Proof.Machine.execClaim acc h v s
  | .dbgNonce acc h v => Sys2Proof.Machine.execDbgNonce acc h v s
  | .dbgUnlock acc h v => Sys2Proof.Machine.execDbgUnlock acc h v s
  | .setPref acc h v => Sys2Proof.Machine.execSetPref acc h v s
  | .kplCmdDone h => Sys2Proof.Machine.execKplCmdDone h s
  | .getVersion h req => Sys2Proof.Machine.execGetVersion h req s
  | .getCapabilities h req => Sys2Proof.Machine.execGetCapabilities h req s
  | .negotiateAlgorithms h req => Sys2Proof.Machine.execNegotiateAlgorithms h req s
  | .getDigests h req => Sys2Proof.Machine.execGetDigests h req s
  | .getCertificate h req => Sys2Proof.Machine.execGetCertificate h req s
  | .challenge h req => Sys2Proof.Machine.execChallenge h req s
  | .getMeasurements h req => Sys2Proof.Machine.execGetMeasurements h req s
  | .spdmUnsupported h req => Sys2Proof.Machine.execSpdmUnsupported h req s
  | .mgcRun acc t v => Sys2Proof.Machine.execMgcRun acc t v s
  | .mgcHalt acc t v => Sys2Proof.Machine.execMgcHalt acc t v s
  | .kick acc t v => Sys2Proof.Machine.execKick acc t v s
  | .mgcWatchdog u n => Sys2Proof.Machine.execMgcWatchdog u n s
  | .snap acc p v => Sys2Proof.Machine.execSnap acc p v s
  | .clrAll acc p v => Sys2Proof.Machine.execClrAll acc p v s
  | .tdClr acc p v => Sys2Proof.Machine.execTdClr acc p v s
  | .clr acc p h v => Sys2Proof.Machine.execClr acc p h v s
  | .pmuInterruptTaken p n => Sys2Proof.Machine.execPmuInterruptTaken p n s
  | .creditRefill => Sys2Proof.Machine.execCreditRefill s
  | .holdupCharge ok => Sys2Proof.Machine.execHoldupCharge ok s
  | .ppsLoss h => Sys2Proof.Machine.execPpsLoss h s
  | .ptpMasterLost h => Sys2Proof.Machine.execPtpMasterLost h s
  | .perstRelease h beats => Sys2Proof.Machine.execPerstRelease h beats s
  | .pcieLinkUp h rate width => Sys2Proof.Machine.execPcieLinkUp h rate width s
  | .configurationRequest h w => Sys2Proof.Machine.execConfigurationRequest h w s
  | .serviceLinkChange h up => Sys2Proof.Machine.execServiceLinkChange h up s
  | .entdaa addr => Sys2Proof.Machine.execEntdaa addr s
  | .deviceHot p t hot => Sys2Proof.Machine.execDeviceHot p t hot s
  | .cstoreWriteDone p pos c n addr => Sys2Proof.Machine.execCstoreWriteDone p pos c n addr s
  | .fencePowerOff u => Sys2Proof.Machine.execFencePowerOff u s
  | .leaseLow => Sys2Proof.Machine.execLeaseLow s

end Sys2Proof.Machine
end

