-- ==== Sys2Proof/WellFormed.lean ====
section
/-! DEFINITION. Sys2Proof/WellFormed.lean: the checks of a command's operands that its types do not make: what an environment of the
module can present. No meaning depends on them: every command has an effect on every operand. -/

namespace Sys2Proof

open Machine

/-- Table 13.4 assigns the unit number. -/
def wfUnit (u : Nat) : Bool := (unitBlk u).isSome

/-- The block of a unit implements the page. -/
def wfPage (u pg : Nat) : Bool :=
  match unitBlk u with
  | some (b, _) => decide (pg < pagesOf b)
  | none => false

/-- The unit has the fault source (Table 14.2). -/
def wfSource (u src : Nat) : Bool :=
  match unitBlk u with
  | some (b, _) => assigned b src
  | none => false

/-- The unit has management cores with that number (R442). -/
def wfMgmtCore (u n : Nat) : Bool := (unitBlk u).any (fun e => e.1 = .MGC || e.1 = .HUB) && decide (n < mgcCores u)

/-- A fault has a class. -/
def wfClass (c : FaultClass) : Bool := c ≠ .none

/-- A PCI Express request carries 1 to 4,096 bytes. (DESIGN CHOICE, log 31) -/
def wfRequest (l : List Byte) : Bool := l ≠ [] && decide (l.length ≤ 4096)

/-- An Ethernet frame is at most 9,216 bytes long (R386). -/
def wfEthernet (l : List Byte) : Bool := decide (l.length ≤ 9216)

/-- A service frame fits the MAC (R386), and a pause time its field. -/
def wfFrame : SvcFrame → Bool
  | .ptp d => wfEthernet d
  | .roce _ d => wfEthernet d
  | .pfc q => decide (q < 65536)
  | .other _ d => wfEthernet d

/-- The data of an RDMA request fits a frame. -/
def wfRdma : RdmaOp → Bool
  | .write d => wfEthernet d
  | _ => true

/-- The fields of a time message fit their control cell (Table 3.1). -/
def wfTsync (m : TsyncMsg) : Bool := decide (m.seq < 65536 ∧ m.state < 8 ∧ m.depth < 16 ∧ m.tTx < 2 ^ 70 ∧ m.tRxPrev < 2 ^ 70)

/-- The nanoseconds of an IEEE 1588 time are below a second. -/
def wfPtp : PtpMsg → Bool
  | .announce _ _ => true
  | .sync _ _ o => o.all (fun t => decide (t.2 < 1000000000))
  | .followUp _ _ _ ns => decide (ns < 1000000000)
  | .delayResp _ _ _ ns => decide (ns < 1000000000)

/-- An I3C dynamic address has seven bits (R467). -/
def wfI3c (a : Nat) : Bool := decide (a < 128)

/-- A contribution frame has a head cell (R161), and its length fits FLEN (12 bits). -/
def wfCells (l : List (BitVec 64 × Payload)) : Bool := l ≠ [] && decide (l.length < 4096)

/-- Every operand check of a command. -/
def Instr.wf : Instr → Bool
  | .blkEnable _ u pg _ => wfPage u pg
  | .lock _ u pg _ => wfPage u pg
  | .srst _ u pg _ => wfPage u pg
  | .softResetDone u => wfUnit u
  | .rej _ u pg _ => wfPage u pg
  | .irqStat _ u pg _ => wfPage u pg
  | .ack _ u pg _ => wfPage u pg
  | .go _ u pg _ => wfPage u pg
  | .fenceReq _ u pg _ => wfPage u pg
  | .ptpMessage _ _ _ msg => wfPtp msg
  | .tsyncReceive _ _ msg _ _ => wfTsync msg
  | .tsyncEchoReceive _ _ msg _ => wfTsync msg
  | .contribFrame _ _ _ cells => wfCells cells
  | .unitFrameAdmit _ u => wfUnit u
  | .bar2Access _ _ _ data _ => wfRequest data
  | .svcFrameReceive _ f => wfFrame f
  | .rdmaRequest _ _ _ _ _ _ op => wfRdma op
  | .faultDetect u src cls _ _ _ => wfSource u src && wfClass cls
  | .reportFrameSend u => wfUnit u
  | .reportFrameReceive _ u _ _ => wfUnit u
  | .reportTimeout _ u => wfUnit u
  | .cSelfAck u => wfUnit u
  | .i3cRead addr _ _ => wfI3c addr
  | .i3cWrite addr _ _ => wfI3c addr
  | .mgcWatchdog u n => wfMgmtCore u n.val
  | .entdaa addr => wfI3c addr
  | .fencePowerOff u => wfUnit u
  | .regWrite .. | .beat .. | .aclkSet .. | .clkchgEnter .. | .relockDone .. | .linkEn .. | .timerefChange .. | .ppsEdge ..
    | .cap .. | .ftmSeedHi .. | .holdLimit .. | .tsyncSend .. | .phaseStep .. | .freqLock .. | .tsyncTimeout ..
    | .holdoverExpire .. | .ppsOutRise | .ppsOutFall | .arm .. | .arrive .. | .abort .. | .latchArriveMsg ..
    | .latchStrikeMsg .. | .latchAbortMsg .. | .latchMissedMsg .. | .latchArriveResend .. | .latchRelease .. | .latchTimeout ..
    | .load .. | .keyLoadDone .. | .keyArm .. | .resume .. | .pause .. | .stop .. | .discard .. | .keyStart .. | .keySwapLate ..
    | .keySlot .. | .refreshDeadline .. | .keyEnd .. | .tmbFail .. | .spareActivate .. | .tmbAccSelGo .. | .chunkCloseBegin ..
    | .chunkCloseEnd .. | .recomputeStart .. | .recomputeDone .. | .repairDelivery .. | .repairLimit .. | .repairRequest ..
    | .scalarInstruction .. | .csrInstruction .. | .vld .. | .vst .. | .spld .. | .spst .. | .vaddF32 .. | .vsubF32 ..
    | .vmulF32 .. | .vfmaF32 .. | .vmaxF32 .. | .vminF32 .. | .vaddI32 .. | .vaddI16 .. | .vaddI8 .. | .vand .. | .vor ..
    | .vxor .. | .vsplat .. | .vext .. | .vcvtTo .. | .vcvtFrom .. | .xfer .. | .xferComplete .. | .xwait .. | .cbind ..
    | .cunbind .. | .cfeed .. | .feedDone .. | .cclose .. | .csend .. | .cstore .. | .crelease .. | .cstat .. | .sadd ..
    | .sset .. | .srd .. | .swait .. | .qpop .. | .qdone .. | .qwait .. | .msend .. | .mrecv .. | .kcmd .. | .larr .. | .kdig ..
    | .ftwait .. | .waitRetire .. | .waitTimeout .. | .msgArrive .. | .ccWatchdog .. | .run .. | .halt .. | .save ..
    | .ccSaveDone .. | .restore .. | .ccRestoreDone .. | .ccxLsData .. | .synObj .. | .synAdd .. | .grqDb .. | .launch ..
    | .group .. | .commit .. | .abandonedPost .. | .ccons .. | .mismatchReport .. | .barrierArrive .. | .collectiveTmo ..
    | .ctrlRefresh .. | .patrolStep .. | .poison .. | .apply .. | .partitionApplyDone .. | .linkUnitReceive ..
    | .linkSlotSend .. | .laneFault .. | .narrow .. | .narrowAck .. | .narrowSwitch .. | .rttProbe .. | .rttEcho ..
    | .helloSend .. | .hello .. | .pen .. | .trainingDone .. | .discoverTimeout .. | .absentRetry .. | .start ..
    | .routeCommit .. | .routeResume .. | .holdFt .. | .resumeTime .. | .robOpenExpire .. | .robWaitExpire ..
    | .robStreamClose .. | .frameAdmit .. | .copyAgeExpire .. | .auditVisit .. | .polSel .. | .polApply .. | .flip ..
    | .swcTblData .. | .swcSeedHi .. | .shaperWrite .. | .clrmax .. | .perst .. | .flr .. | .pcieLinkDown .. | .req ..
    | .renew .. | .release .. | .leaseExpire | .ready .. | .chGo .. | .mbxVisible .. | .chPop .. | .chDbSet .. | .chDbPend ..
    | .rdmaRegionEn .. | .peerHeartbeat .. | .peerTimeout .. | .fclLift .. | .deadboltRecord .. | .aliveToggle .. | .aliveEn ..
    | .hubLinkTimeout .. | .pwrcycN .. | .i3cTimeout | .feedChange .. | .feedQualify .. | .rideThroughExpire | .domainAdmit ..
    | .domainStable .. | .railTimeout .. | .pwrDomOn .. | .pwrDomOff .. | .memoryReady .. | .moduleReset .. | .planeReset ..
    | .hubReset .. | .powerOn | .verify .. | .loadCc .. | .commitSvn .. | .claim .. | .dbgNonce .. | .dbgUnlock .. | .setPref ..
    | .kplCmdDone .. | .getVersion .. | .getCapabilities .. | .negotiateAlgorithms .. | .getDigests .. | .getCertificate ..
    | .challenge .. | .getMeasurements .. | .spdmUnsupported .. | .mgcRun .. | .mgcHalt .. | .kick .. | .snap .. | .clrAll ..
    | .tdClr .. | .clr .. | .pmuInterruptTaken .. | .creditRefill | .holdupCharge .. | .ppsLoss .. | .ptpMasterLost ..
    | .perstRelease .. | .pcieLinkUp .. | .configurationRequest .. | .serviceLinkChange .. | .deviceHot .. | .cstoreWriteDone ..
    | .leaseLow => true

end Sys2Proof
end

