-- ==== Sys2Proof/Safety.lean ====
section
/-! DEFINITION. Sys2Proof/Safety.lean: the terms claims are stated in: completing with an effect, a register write that reaches its block
and is accepted, and the invariant of every step. -/

namespace Sys2Proof.Machine

/-- A command answers a next state of which `P` holds. -/
def Completes (i : Instr) (s : State) (P : State → Prop) : Prop := ∃ t, exec i s = .next t ∧ P t

/-- A register access of an accessor reaches the block of a unit (R53, R56, R61, R64, R374, R409): the accessor can issue it, a host
holds the lease or needs none, the module is not in the deadbolt state for a host, the site reaches the unit, and the unit has power. -/
def reaches (s : State) (acc : Accessor) (u off : Nat) : Bool :=
  mayAccess s acc && siteReaches s acc u && s.powered u &&
    (match acc with
     | .host h => (holder s = portCode h || leaseFree h (some (u, off))) && s.dead.isNone
     | _ => true)

/-- What Table 2.3 answers to a 32-bit write of a register: the first condition that rejects it. -/
def verdictOf (s : State) (acc : Accessor) (u off : Nat) (v : Word) : Option RejCode :=
  match unitBlk u with
  | some (b, n) => checkWrite (arrive acc u s) acc u b n off true v
  | none => some .unmapped

/-- A 32-bit register write that reaches its block and that no condition of Table 2.3 rejects. -/
def accepted (s : State) (acc : Accessor) (u off : Nat) (v : Word) : Bool := reaches s acc u off && verdictOf s acc u off v = none

/-- A register is a counter of requests over a hub link (HUB_LINK_REQ, R33), which the hub that carries an access counts. -/
def countsLink (u off : Nat) : Prop := ∃ (h : HubId) (p : PlaneId), regKey u off = regKey (hu h .HUB) (Fld.HUB_LINK_REQ.at p.val).key

/-- The sources of Table 14.2 whose reaction touches nothing but the log. -/
def quietSources : List (Blk × Nat) :=
  [(.TMB, 3), (.XPT, 1), (.XPT, 2), (.KSQ, 3), (.SPM, 1), (.NMC, 1), (.NMC, 3), (.NMC, 4), (.FMC, 1), (.FMC, 3), (.FMC, 4), (.RTE, 1),
    (.RTE, 2), (.RTE, 3), (.RTE, 4), (.RTE, 5), (.RTE, 6), (.SWC, 1), (.SWC, 2), (.SWC, 3), (.CCX, 1), (.FCL, 1), (.PWR, 1)]

/-- The state after the read of a key image for the LOADING bank: its granules are read and checked, and its reads count (R263). -/
def imageRead (s : State) (p : PlaneId) (b : Nat) : State :=
  countReads p (bankOfKey s p b).srcAddr (bankOfKey s p b).srcLen (memTouchAll p (bankOfKey s p b).srcAddr (bankOfKey s p b).srcLen s)

/-- The memory of every plane is in its canonical form. -/
def memoriesWf (s : State) : Prop := ∀ p, memWf (s.pl p).mem = true

/-! ### Instructions of a collective core -/

/-- The instruction word at a core's pc. -/
def wordAt (s : State) (p : PlaneId) (n : CoreId) : Word := BitVec.ofNat 32 (ofBytes (lsRead s p n.val (coreOf s p n.val).pc.toNat 4))

/-- The ACLK cycle in which it issues. -/
def issueCyc (s : State) (p : PlaneId) (n : CoreId) : Nat := issueAt (coreOf s p n.val) (wordAt s p n)

/-- The state in which it issues: the core's turns of the scratchpad up to that cycle have been used (R191). -/
def atIssue (s : State) (p : PlaneId) (n : CoreId) : State := runXfers p n.val (issueCyc s p n - 1) s

/-- The operands of the instruction word: rs1 and rs2. -/
def rs1Of (s : State) (p : PlaneId) (n : CoreId) : Dword := (coreOf s p n.val).reg (insRs1 (wordAt s p n))
def rs2Of (s : State) (p : PlaneId) (n : CoreId) : Dword := (coreOf s p n.val).reg (insRs2 (wordAt s p n))

/-- A RUNNING core can issue the instruction at its pc, which belongs to a row: its cycle has come, no interrupt comes first, no error of
the local store waits, and the core is not in soft reset. -/
def canIssue (s : State) (p : PlaneId) (n : CoreId) (row : CoreRow) : Bool :=
  coreSt s p n.val = 1 && fetchOk (coreOf s p n.val).pc.toNat && rowOf (wordAt s p n) = row &&
    decide (cycleBeat (cyclesPerSlot s p) (issueCyc s p n) ≤ s.ft p) && !irqFirst (coreOf s p n.val) (issueCyc s p n) &&
    ((atIssue s p n).rp (uCCX p n.val)).corrupt = none && coreSt (atIssue s p n) p n.val = 1 &&
    !(atIssue s p n).on (uCCX p n.val) Fld.BLK_STAT_RST_BUSY

/-- The instruction retired with a value for x rd: the pc is at the next instruction, the core still runs, minstret counted it. -/
def gaveX (s t : State) (p : PlaneId) (n : CoreId) (v : Dword) : Prop :=
  (coreOf t p n.val).x = ((coreOf (atIssue s p n) p n.val).setX (insRd (wordAt s p n)) v).x ∧
    (coreOf t p n.val).pc = (coreOf s p n.val).pc + 4 ∧ coreSt t p n.val = 1

/-- Nothing but one core of a plane differs: registers, memory, sync objects, contexts, groups, keys and fabric time are as they were. -/
def onlyCore (s t : State) (p : PlaneId) (n : CoreId) : Prop :=
  t.regs = s.regs ∧ (t.pl p).mem = (s.pl p).mem ∧ (t.pl p).syncs = (s.pl p).syncs ∧ (t.pl p).ctxs = (s.pl p).ctxs ∧
    (t.pl p).groups = (s.pl p).groups ∧ (t.pl p).keys = (s.pl p).keys ∧ (t.pl p).unitFrames = (s.pl p).unitFrames ∧ t.ft p = s.ft p ∧
    (∀ m : CoreId, m ≠ n → coreOf t p m.val = coreOf s p m.val) ∧ (∀ q, q ≠ p → t.pl q = s.pl q) ∧ t.hubs = s.hubs ∧ t.mbx = s.mbx

end Sys2Proof.Machine
end

