-- ==== Sys2Proof/Certificates/Slice0/Obligations.lean ====
section
/-! DEFINITION. Sys2Proof/Certificates/Slice0/Obligations.lean: the statements about this machine. -/

open Sys2Proof Sys2Proof.Machine

/-! ### The machine as a whole -/

/-- A step takes the command at the front of the queue and is that command's effect on the state with the queue's rest; with no command
waiting, a step changes nothing. The spec has no queue and no idle step: both are the model's choice (assumption log 3). -/
def Obligations.StepRunsTheFrontCommand : Prop :=
  (∀ (c : Instr) (q : List Instr) (s : State), s.pending = c :: q → step s = exec c (s.withPending q)) ∧
  ∀ s : State, s.pending = [] → step s = .next s

/-- Every command answers a next state, on every operand and in every state: no command of the block faults or is refused. -/
def Obligations.EveryCommandAnswersNext : Prop := ∀ (i : Instr) (s : State), ∃ t, exec i s = .next t

/-- A step takes the front command off the queue and adds none, whatever the command; and no step changes the identity record or what is
fitted and fails its checks (R432, R437). -/
def Obligations.StepKeepsQueueAndIdentity : Prop :=
  ∀ s t : State, step s = .next t → t.pending = s.pending.tail ∧ t.ident = s.ident ∧ t.fitted = s.fitted

/-- Every step keeps the memory of every plane in its canonical form: addresses strictly rising, and no byte listed that an unlisted
address reads as. -/
def Obligations.StepKeepsMemoryCanonical : Prop := ∀ s t : State, memoriesWf s → step s = .next t → memoriesWf t

/-- After reset the memory of every plane is canonical and reads as zeros, no command waits, the module has sent nothing, and it is not in the
deadbolt state. That unwritten memory reads as zeros is the model's choice (assumption log 11). -/
def Obligations.ResetStateIsWellFormed : Prop :=
  memoriesWf State.reset ∧ State.reset.pending = [] ∧ State.reset.out = [] ∧ State.reset.dead = none ∧
    ∀ p a n, memRead State.reset p a n = List.replicate n 0

/-- Registers at reset hold the values of their Reset columns (R13): a plane is in BOOT with fabric time FREE and not locked, its keys EMPTY,
its cores HALTED, its ports DISABLED, its memory targets not ready, its sync objects 0; the power controller has no feed, no domain on and
none pending; no port holds the lease, no hub shows the deadbolt state; EN, LOCK, SEQ, CLASS, FENCED and REJ of every block are 0. -/
def Obligations.ResetColumnValues : Prop :=
  (∀ p : PlaneId, let s := State.reset
    s.get (pu p .PLN) Fld.PLN_STATE = 1 ∧ s.get (pu p .PLN) Fld.PLN_STATE_FT_LOCKED = 0 ∧ s.get (pu p .FTM) Fld.FTM_STAT_STATE = 0 ∧
    bankSt s p 0 = 0 ∧ bankSt s p 1 = 0 ∧ (∀ n : CoreId, coreSt s p n = 0) ∧ (∀ n : PortId, s.get (uFPT p n) Fld.FPT_STAT_STATE = 0) ∧
    (∀ n : Fin 7, s.get (tgtUnit p n.val) Fld.FMC_STAT_READY = 0) ∧ (∀ k : Fin 4096, syncVal s p k = 0)) ∧
  State.reset.get (hu .a .PWR) Fld.PWR_DOM_STAT_ON = 0 ∧ State.reset.get (hu .a .PWR) Fld.PWR_DOM_PEND = 0 ∧
  State.reset.get (hu .a .PWR) Fld.PWR_FEED_A_STATE = 0 ∧ State.reset.get (hu .a .PWR) Fld.PWR_FEED_B_STATE = 0 ∧
  (∀ h : HubId, State.reset.get (hu h .PCI) Fld.PCI_LEASE_HOLDER = 0 ∧ State.reset.get (hu h .FCL) Fld.FCL_STAT_DEADBOLT = 0) ∧
  (∀ u, wfUnit u = true → State.reset.get u Fld.BLK_CTRL_EN = 0 ∧ State.reset.get u Fld.BLK_CTRL_LOCK = 0 ∧ State.reset.get u Fld.BLK_SEQ = 0 ∧
    State.reset.get u Fld.BLK_ERR_CLASS = 0 ∧ State.reset.get u Fld.BLK_FENCE_FENCED = 0 ∧ State.reset.get u Fld.BLK_STAT_REJ = 0)

/-! ### Register writes (R42 to R57) -/

/-- A rejected write (R52, Table 2.3) leaves every register as it was, BLK_SEQ among them, but for the block's record of it in BLK_STAT and
what that latches in BLK_IRQ_STAT, and the count of the hub link that carried it: REJ is 1, REJ_CNT counts up to 0xFF, and the code and
offset are recorded when REJ was 0. The report logic, the mailboxes, the lease, the power controller, the configuration and the deadbolt
state stay, and so do the planes unless a COMMIT of GRQ was rejected with STATE (R250). A write that does not enable four bytes is rejected
with WIDTH (R43). -/
def Obligations.RejectedWriteLeavesOnlyItsRecord : Prop :=
  (∀ (acc : Accessor) (u off : Nat) (v : Word) (c : RejCode) (s : State) (a : Word),
    wfPage u (off / 4096) = true → reaches s acc u off = true → verdictOf s acc u off v = some c → bar0Of u off = some a.toNat →
    Completes (.regWrite acc (.bar0 a) 15 v) s (fun t =>
      t.get u Fld.BLK_STAT_REJ = 1 ∧ t.get u Fld.BLK_STAT_REJ_CNT = min (s.get u Fld.BLK_STAT_REJ_CNT + 1) 255 ∧
      (s.get u Fld.BLK_STAT_REJ = 0 → t.get u Fld.BLK_STAT_REJ_CODE = c.code ∧ t.get u Fld.BLK_STAT_REJ_OFF = off % 4096) ∧
      (s.get u Fld.BLK_STAT_REJ = 1 → t.get u Fld.BLK_STAT_REJ_CODE = s.get u Fld.BLK_STAT_REJ_CODE ∧
        t.get u Fld.BLK_STAT_REJ_OFF = s.get u Fld.BLK_STAT_REJ_OFF) ∧
      t.get u Fld.BLK_SEQ = s.get u Fld.BLK_SEQ ∧
      (∀ u' off', regKey u' off' ≠ regKey u 0x00C → regKey u' off' ≠ regKey u 0x018 → ¬ countsLink u' off' →
        t.reg u' off' = s.reg u' off') ∧
      (¬ (unitBlk u = some (Blk.GRQ, 0) ∧ off = 0x064 ∧ c = .state) → t.planes = s.planes) ∧ t.rep = s.rep ∧ t.mbx = s.mbx ∧ t.lease = s.lease ∧ t.pwr = s.pwr ∧ t.cfg = s.cfg ∧ t.dead = s.dead)) ∧
  (∀ (acc : Accessor) (u off : Nat) (be : BitVec 4) (v : Word) (s : State) (a : Word),
    wfPage u (off / 4096) = true → reaches s acc u off = true → be ≠ 15 → bar0Of u off = some a.toNat →
    Completes (.regWrite acc (.bar0 a) be v) s (fun t =>
      t.get u Fld.BLK_STAT_REJ = 1 ∧ (s.get u Fld.BLK_STAT_REJ = 0 → t.get u Fld.BLK_STAT_REJ_CODE = 8) ∧ t.planes = s.planes ∧
      ∀ u' off', regKey u' off' ≠ regKey u 0x00C → regKey u' off' ≠ regKey u 0x018 → ¬ countsLink u' off' → t.reg u' off' = s.reg u' off'))

/-- Writes that reach no register. While a block has no power a write to it is discarded without any record (R56): every register stays as it
is but for the count of the hub link that carried it, and the planes, the mailboxes and what the module has sent stay. A write that no page
holds is discarded (R53): REJ is 1 in the HUB block of the hub that carries it, with code UNMAPPED where it is the first, and no other
register changes but that block's interrupts. A host that does not hold the lease writes nothing but its own pages (R374): its write is
discarded, logged by AER and counted in DENY. -/
def Obligations.WritesThatReachNoRegister : Prop :=
  (∀ (acc : Accessor) (u off : Nat) (v : Word) (s : State) (a : Word),
    wfPage u (off / 4096) = true → mayAccess s acc = true → siteReaches s acc u = true → s.powered u = false →
    (∀ h, acc = .host h → holder s = portCode h ∧ s.dead = none) → bar0Of u off = some a.toNat →
    Completes (.regWrite acc (.bar0 a) 15 v) s (fun t =>
      t.planes = s.planes ∧ t.out = s.out ∧ t.mbx = s.mbx ∧ ∀ u' off', ¬ countsLink u' off' → t.reg u' off' = s.reg u' off')) ∧
  (∀ (acc : Accessor) (a v : Word) (be : BitVec 4) (s : State), mayAccess s acc = true → locate a.toNat = none →
    (∀ h, acc = .host h → holder s = portCode h ∧ s.dead = none) → s.powered (hu (carrier acc) .HUB) = true →
    Completes (.regWrite acc (.bar0 a) be v) s (fun t => let u := hu (carrier acc) .HUB
      t.get u Fld.BLK_STAT_REJ = 1 ∧ (s.get u Fld.BLK_STAT_REJ = 0 → t.get u Fld.BLK_STAT_REJ_CODE = 9) ∧ t.planes = s.planes ∧
      ∀ u' off', regKey u' off' ≠ regKey u 0x00C → regKey u' off' ≠ regKey u 0x018 → t.reg u' off' = s.reg u' off')) ∧
  (∀ (h : HubId) (a v : Word) (be : BitVec 4) (s : State), mayAccess s (.host h) = true → holder s ≠ portCode h →
    leaseFree h (locate a.toNat) = false →
    Completes (.regWrite (.host h) (.bar0 a) be v) s (fun t =>
      t.out = s.out ++ [.aer h a.toNat] ∧ t.get (hu h .PCI) Fld.PCI_CNT_A_DENY = min (s.get (hu h .PCI) Fld.PCI_CNT_A_DENY + 1) 0xFFFF ∧
      t.planes = s.planes ∧ ∀ u off, regKey u off ≠ regKey (hu h .PCI) Fld.PCI_CNT_A_DENY.key → t.reg u off = s.reg u off))

/-- The header commands BLK_ENABLE, LOCK, REJ and IRQ_STAT (R46, R51): EN takes its value, LOCK stays and the write counts in SEQ; LOCK is set
and EN takes its value; REJ, REJ_CODE, REJ_OFF and REJ_CNT clear; an interrupt written 1 that is not enabled clears, one written 0 that was
latched stays, and bit 31 is latched while REJ is 1 and it is enabled. -/
def Obligations.HeaderControlWrites : Prop :=
  (∀ (acc : Accessor) (u pg : Nat) (en : Bool) (s : State), wfPage u pg = true →
    accepted s acc u (4096 * pg + 0x008) (BitVec.ofNat 32 (b2n en)) = true →
    Completes (.blkEnable acc u pg en) s (fun t => t.get u Fld.BLK_CTRL_EN = b2n en ∧ t.get u Fld.BLK_CTRL_LOCK = s.get u Fld.BLK_CTRL_LOCK ∧
      t.get u Fld.BLK_SEQ = (s.get u Fld.BLK_SEQ + 1) % 2 ^ 32)) ∧
  (∀ (acc : Accessor) (u pg : Nat) (en : Bool) (s : State), wfPage u pg = true →
    accepted s acc u (4096 * pg + 0x008) (BitVec.ofNat 32 (b2n en) ||| Fld.BLK_CTRL_LOCK.mask) = true →
    Completes (.lock acc u pg en) s (fun t => t.get u Fld.BLK_CTRL_LOCK = 1 ∧ t.get u Fld.BLK_CTRL_EN = b2n en)) ∧
  (∀ (acc : Accessor) (u pg : Nat) (v : Word) (s : State), wfPage u pg = true →
    accepted s acc u (4096 * pg + 0x00C) (v ||| Fld.BLK_STAT_REJ.mask) = true →
    Completes (.rej acc u pg v) s (fun t => t.get u Fld.BLK_STAT_REJ = 0 ∧ t.get u Fld.BLK_STAT_REJ_CODE = 0 ∧ t.get u Fld.BLK_STAT_REJ_OFF = 0 ∧
      t.get u Fld.BLK_STAT_REJ_CNT = 0)) ∧
  (∀ (acc : Accessor) (u pg : Nat) (v : Word) (s : State), wfPage u pg = true → accepted s acc u (4096 * pg + 0x018) v = true →
    Completes (.irqStat acc u pg v) s (fun t =>
      (∀ n, v.getLsbD n = true → (s.reg u 0x014).getLsbD n = false → (t.reg u 0x018).getLsbD n = false) ∧
      (∀ n, v.getLsbD n = false → (s.reg u 0x018).getLsbD n = true → (t.reg u 0x018).getLsbD n = true) ∧
      (s.on u Fld.BLK_STAT_REJ = true → (s.reg u 0x014).getLsbD 31 = true → (t.reg u 0x018).getLsbD 31 = true)))

/-- ACK frees the log and applies the detections of its beat anew, so that in a beat without one CLASS, OVF and SOURCE clear (R47); SRST starts a soft reset: RST_BUSY is 1 and EN and LOCK read 0 (R55); SOFT_RESET_DONE ends it;
FENCE_REQ closes the hasp, of an F-tier channel with its FMC_ACT bit, of a plane's management cores with all of them halted (R49,
Table 14.6). -/
def Obligations.HeaderFaultWrites : Prop :=
  (∀ (acc : Accessor) (u pg : Nat) (v : Word) (s : State), wfPage u pg = true →
    accepted s acc u (4096 * pg + 0x01C) (v ||| Fld.BLK_ERR_CLASS_ACK.mask) = true →
    Completes (.ack acc u pg v) s (fun t =>
      (∀ b n, unitBlk u = some (b, n) → logNow t u = settleLog s u b (logBase s u).free (detectedNow s u)) ∧
      (detectedNow s u = [] → t.get u Fld.BLK_ERR_CLASS = 0 ∧ t.get u Fld.BLK_ERR_CLASS_OVF = 0 ∧
        t.get u Fld.BLK_ERR_CLASS_SOURCE = 0 ∧ t.get u Fld.BLK_ERR_CLASS_C_COUNT = s.get u Fld.BLK_ERR_CLASS_C_COUNT))) ∧
  (∀ (acc : Accessor) (u pg : Nat) (v : Word) (s : State), wfPage u pg = true →
    accepted s acc u (4096 * pg + 0x008) (v ||| Fld.BLK_CTRL_SRST.mask) = true →
    Completes (.srst acc u pg v) s (fun t => t.get u Fld.BLK_STAT_RST_BUSY = 1 ∧ t.get u Fld.BLK_CTRL_EN = 0 ∧ t.get u Fld.BLK_CTRL_LOCK = 0 ∧
      t.get u Fld.BLK_SEQ = 0)) ∧
  (∀ (u : Nat) (s : State), s.powered u = true → s.get u Fld.BLK_STAT_RST_BUSY = 1 →
    Completes (.softResetDone u) s (fun t => t.get u Fld.BLK_STAT_RST_BUSY = 0)) ∧
  (∀ (acc : Accessor) (p : PlaneId) (n : Fin 6) (v : Word) (s : State),
    accepted s acc (uFMC p n) 0x034 (v ||| Fld.BLK_FENCE_FENCE_REQ.mask) = true → s.fenced (uFMC p n) = false →
    Completes (.fenceReq acc (uFMC p n) 0 v) s (fun t => t.fenced (uFMC p n) = true ∧ t.get (uFMC p n) Fld.BLK_FENCE_CAUSE = 1 ∧
      bit (t.get (pu p .PLN) Fld.PLN_UNIT_MEM_FMC_ACT) n = false)) ∧
  (∀ (acc : Accessor) (p : PlaneId) (v : Word) (s : State),
    accepted s acc (pu p .MGC) 0x034 (v ||| Fld.BLK_FENCE_FENCE_REQ.mask) = true → s.fenced (pu p .MGC) = false →
    Completes (.fenceReq acc (pu p .MGC) 0 v) s (fun t => t.fenced (pu p .MGC) = true ∧ t.get (pu p .MGC) Fld.BLK_FENCE_CAUSE = 1 ∧
      t.get (pu p .MGC) Fld.MGC_STAT_RUNNING = 0))

/-! ### Fabric time (R67 to R87) -/

/-- Writes of the time and link registers: an unlocked ACLK_SET takes its value, which a value other than ACLK_NOW makes a relock to come, and
ACLK_NOW stays (R31); EN = 0 closes a hub link and EN = 1 changes nothing of its state (R33); CAP captures FT (R73); SEED_HI completes a
seed of both words (R72); HOLD_LIMIT takes its value (R86). -/
def Obligations.TimeRegisterWrites : Prop :=
  (∀ (acc : Accessor) (p : PlaneId) (v : Word) (s : State), accepted s acc (pu p .PLN) 0x040 v = true →
    s.on (pu p .PLN) Fld.BLK_CTRL_LOCK = false →
    Completes (.aclkSet acc p v) s (fun t => t.get (pu p .PLN) Fld.PLN_CFG_ACLK_SET = fieldGet v Fld.PLN_CFG_ACLK_SET ∧
      t.get (pu p .PLN) Fld.PLN_STATE_ACLK_NOW = s.get (pu p .PLN) Fld.PLN_STATE_ACLK_NOW ∧
      (fieldGet v Fld.PLN_CFG_ACLK_SET ≠ s.get (pu p .PLN) Fld.PLN_STATE_ACLK_NOW → (t.pl p).relock = some (fieldGet v Fld.PLN_CFG_ACLK_SET)))) ∧
  (∀ (acc : Accessor) (h : HubId) (p : PlaneId) (v : Word) (s : State),
    accepted s acc (hu h .HUB) (Fld.HUB_LINK_CTL_EN.at p.val).key v = true → s.on (hu h .HUB) Fld.BLK_CTRL_LOCK = false →
    Completes (.linkEn acc h p v) s (fun t =>
      t.get (hu h .HUB) (Fld.HUB_LINK_CTL_EN.at p.val) = b2n (v.getLsbD 0) ∧
      (v.getLsbD 0 = false → t.get (hu h .HUB) (Fld.HUB_LINK_STAT_CLOSED.at p.val) = 1 ∧ t.get (hu h .HUB) (Fld.HUB_LINK_STAT_UP.at p.val) = 0) ∧
      (v.getLsbD 0 = true → t.get (hu h .HUB) (Fld.HUB_LINK_STAT_CLOSED.at p.val) = s.get (hu h .HUB) (Fld.HUB_LINK_STAT_CLOSED.at p.val)))) ∧
  (∀ (acc : Accessor) (p : PlaneId) (v : Word) (s : State), accepted s acc (pu p .FTM) Fld.FTM_CAP.key (v ||| Fld.FTM_CAP.mask) = true →
    Completes (.cap acc p v) s (fun t => t.get64 (pu p .FTM) Fld.FTM_CAP_LO Fld.FTM_CAP_HI = s.ft p % 2 ^ 64 ∧ t.ft p = s.ft p)) ∧
  (∀ (acc : Accessor) (p : PlaneId) (v : Word) (s : State), accepted s acc (pu p .FTM) Fld.FTM_SEED_HI.key v = true →
    Completes (.ftmSeedHi acc p v) s (fun t => t.get (pu p .FTM) Fld.FTM_SEED_HI = v.toNat ∧
      (t.pl p).ftm.seed = some (s.get (pu p .FTM) Fld.FTM_SEED_LO + 2 ^ 32 * v.toNat) ∧ t.ft p = s.ft p)) ∧
  (∀ (acc : Accessor) (p : PlaneId) (v : Word) (s : State), accepted s acc (pu p .FTM) Fld.FTM_CFG_HOLD_LIMIT.key v = true →
    s.on (pu p .FTM) Fld.BLK_CTRL_LOCK = false →
    Completes (.holdLimit acc p v) s (fun t => t.get (pu p .FTM) Fld.FTM_CFG_HOLD_LIMIT = fieldGet v Fld.FTM_CFG_HOLD_LIMIT))

/-- The hubs' references (R68 to R70, R85, R87): TIMEREF_10M within 10 ppm sets REF_OK and shows its error, and 16,500 beats without it clear
REF_OK; a PPS edge that counts sets PPS_OK, is counted and shows its phase, and one that does not is only counted as rejected; PPS_OK clears
1.01 s after the last counted edge; an announce enters its sender among the known PTP masters, of which the best is selected, and the loss of
the selected one clears PTP_OK and selects the best of the others (which is the best is the model's choice, assumption log 20). PPS_OUT
rises at an FT that is a multiple of 1,650,000,000, timed by the plane that the driving hub names while that plane is FT_LOCKED, and falls
165,000 beats later, not before. -/
def Obligations.TimeReferenceEvents : Prop :=
  (∀ (h : HubId) (ppb : Int) (beats : Nat) (s : State), s.powered (hu h .TRF) = true → -10000 ≤ ppb → ppb ≤ 10000 →
    Completes (.timerefChange h true ppb beats) s (fun t => t.get (hu h .TRF) Fld.TRF_STAT_REF_OK = 1 ∧
      t.get (hu h .TRF) Fld.TRF_STAT_FREQ_ERR = ofSigned 16 ppb)) ∧
  (∀ (h : HubId) (ppb : Int) (beats : Nat) (s : State), s.powered (hu h .TRF) = true → 16500 ≤ beats →
    Completes (.timerefChange h false ppb beats) s (fun t => t.get (hu h .TRF) Fld.TRF_STAT_REF_OK = 0)) ∧
  (∀ (h : HubId) (high : Nat) (sub : Fin 64) (s : State), s.powered (hu h .TRF) = true → ppsCounts s h high sub.val = true →
    s.get (hu h .TRF) Fld.TRF_CFG_REF_SRC ≠ 1 →
    Completes (.ppsEdge h high sub) s (fun t => t.get (hu h .TRF) Fld.TRF_STAT_PPS_OK = 1 ∧
      t.get (hu h .TRF) Fld.TRF_PPS_CNT = (s.get (hu h .TRF) Fld.TRF_PPS_CNT + 1) % 2 ^ 32 ∧
      t.get (hu h .TRF) Fld.TRF_PPS_PHASE = ofSigned 32 (satSigned 32 (ppsPhase (s.ft (ppsPlane s h)) sub.val)) ∧
      (t.hub h).ppsAt = some (s.hub h).beat ∧ t.planes = s.planes)) ∧
  (∀ (h : HubId) (high : Nat) (sub : Fin 64) (s : State), s.powered (hu h .TRF) = true → ppsCounts s h high sub.val = false →
    Completes (.ppsEdge h high sub) s (fun t =>
      t.get (hu h .TRF) Fld.TRF_PPS_REJ = min (s.get (hu h .TRF) Fld.TRF_PPS_REJ + 1) 0xFFFF ∧ t.planes = s.planes ∧ t.hubs = s.hubs ∧
      ∀ u off, regKey u off ≠ regKey (hu h .TRF) Fld.TRF_PPS_REJ.key → t.reg u off = s.reg u off)) ∧
  (∀ (h : HubId) (high : Nat) (sub : Fin 64) (s : State), high < 1650 → ppsCounts s h high sub.val = false) ∧
  (∀ (h : HubId) (b : Nat) (s : State), (s.hub h).ppsAt = some b → b + 1666500000 < (s.hub h).beat →
    Completes (.ppsLoss h) s (fun t => t.get (hu h .TRF) Fld.TRF_STAT_PPS_OK = 0 ∧ (t.hub h).ppsAt = none)) ∧
  (∀ (h : HubId) (domain : Byte) (eth : Bool) (m rank : Nat) (s : State), s.powered (hu h .TRF) = true → s.get (hu h .TRF) Fld.TRF_CFG_REF_SRC = 2 →
    s.get (hu h .TRF) Fld.TRF_CFG_PTP_DOMAIN = domain.toNat → s.get (hu h .TRF) Fld.TRF_CFG_PTP_TRANSPORT = b2n eth →
    Completes (.ptpMessage h domain eth (.announce m rank)) s (fun t =>
      let l := (s.hub h).ptp.foreign.filter (·.1 ≠ m) ++ [(m, rank)]
      (t.hub h).ptp.foreign = l ∧ (t.hub h).ptp.master = bestMaster l)) ∧
  (∀ (h : HubId) (m : Nat) (s : State), (s.hub h).ptp.master = some m →
    Completes (.ptpMasterLost h) s (fun t => let l := (s.hub h).ptp.foreign.filter (·.1 ≠ m)
      (t.hub h).ptp.foreign = l ∧ (t.hub h).ptp.master = bestMaster l ∧ bestMaster l ≠ some m ∧
      t.get (hu h .TRF) Fld.TRF_STAT_PTP_OK = 0)) ∧
  (∀ (h : HubId) (s : State), ppsDriver s = some h → s.ft (ppsPlane s h) % 1650000000 = 0 →
    s.on (pu (ppsPlane s h) .PLN) Fld.PLN_STATE_FT_LOCKED = true →
    Completes .ppsOutRise s (fun t => t.ppsOut = some (s.ft (ppsPlane s h)) ∧ t.regs = s.regs ∧ t.planes = s.planes)) ∧
  (∀ (h : HubId) (r : Nat) (s : State), s.ppsOut = some r → ppsDriver s = some h → r + 165000 ≤ s.ft (ppsPlane s h) →
    Completes .ppsOutFall s (fun t => t.ppsOut = none ∧ t.regs = s.regs ∧ t.planes = s.planes)) ∧
  (∀ (h : HubId) (r : Nat) (s : State), s.ppsOut = some r → ppsDriver s = some h → s.ft (ppsPlane s h) < r + 165000 →
    s.on (pu (ppsPlane s h) .PLN) Fld.PLN_STATE_FT_LOCKED = true → Completes .ppsOutFall s (fun t => t = s))

/-- The lock states of Table 3.2 and the distribution of time (R74 to R76, R79, R82): clocks that frequency-lock take ACQUIRE to FREQ; a
slave's HOLDOVER ends after HOLD_LIMIT in FREE with FT_LOST; a LOCKED slave whose source has been silent beyond 196,608 beats is in HOLDOVER,
still FT_LOCKED; a LOCKED or HOLDOVER plane takes the next sequence number with each TSYNC it sends, and sends none within 65,536 beats of the
last; a master keeps the last TSYNC of a port that is up, and a plane the arrival of the echo of its last TSYNC; the phase of a LOCKED or
FREQ plane steps by 1/64 beat toward zero. -/
def Obligations.TimeDistribution : Prop :=
  (∀ (p : PlaneId) (s : State), ftmState s p = 1 →
    Completes (.freqLock p) s (fun t => ftmState t p = 2 ∧ t.get (pu p .PLN) Fld.PLN_STATE_FT_LOCKED = 0 ∧ t.ft p = s.ft p)) ∧
  (∀ (p : PlaneId) (s : State), ftmRole s p = 0 → ftmState s p = 4 → holdoverOver s p = true →
    Completes (.holdoverExpire p) s (fun t => ftmState t p = 0 ∧ t.get (pu p .PLN) Fld.PLN_STATE_FT_LOCKED = 0 ∧
      (s.get (pu p .FTM) Fld.BLK_ERR_CLASS = 0 → detectedNow s (pu p .FTM) = [] → t.get (pu p .FTM) Fld.BLK_ERR_CLASS = 2 ∧ t.get (pu p .FTM) Fld.BLK_ERR_CLASS_SOURCE = 3))) ∧
  (∀ (p : PlaneId) (src : TimeSource) (s : State), ftmRole s p = 0 → ftmState s p = 3 → (s.pl p).ftm.inUse = some src →
    ((s.pl p).ftm.ups.find? (fun u => u.src = src)).all (fun u => decide (u.lastAt + 196608 < s.beats p)) = true →
    Completes (.tsyncTimeout p) s (fun t => ftmState t p = 4 ∧ t.get (pu p .PLN) Fld.PLN_STATE_FT_LOCKED = 1 ∧
      (t.pl p).ftm.holdSince = s.beats p)) ∧
  (∀ (p : PlaneId) (sub : Fin 64) (s : State), (ftmState s p = 3 ∨ ftmState s p = 4) →
    (∀ b, (s.pl p).ftm.lastTx = some b → b + 65536 ≤ s.beats p) →
    Completes (.tsyncSend p sub) s (fun t => (t.pl p).ftm.lastTx = some (s.beats p) ∧
      (t.pl p).ftm.txSeq = ((s.pl p).ftm.txSeq + 1) % 65536 ∧ t.regs = s.regs ∧ t.ft p = s.ft p)) ∧
  (∀ (p : PlaneId) (sub : Fin 64) (b : Nat) (s : State), (s.pl p).ftm.lastTx = some b → s.beats p < b + 65536 →
    Completes (.tsyncSend p sub) s (fun t => t = s)) ∧
  (∀ (p : PlaneId) (n : PortId) (msg : TsyncMsg) (sub echoSub : Fin 64) (s : State), ftmRole s p ≠ 0 → portTalks s p n.val = true →
    msg.echo = false → s.powered (pu p .FTM) = true →
    Completes (.tsyncReceive p (.port n) msg sub echoSub) s (fun t => (t.pl p).ftm.ups.head? =
      some ⟨.port n, msg.seq, msg.state, msg.depth, msg.tTx, (64 * s.ft p + sub.val : Nat), (64 * s.ft p + echoSub.val : Nat), s.beats p⟩ ∧
      t.regs = s.regs ∧ t.ft p = s.ft p)) ∧
  (∀ (p : PlaneId) (n : PortId) (msg : TsyncMsg) (sub : Fin 64) (s : State), msg.echo = true →
    (msg.seq + 1) % 65536 = (s.pl p).ftm.txSeq →
    Completes (.tsyncEchoReceive p (.port n) msg sub) s (fun t =>
      mget (t.pl p).ftm.echoAt n.val = some (64 * s.ft p + sub.val) ∧ t.regs = s.regs)) ∧
  (∀ (p : PlaneId) (s : State), (s.pl p).ftm.slew ≠ 0 → (s.pl p).ftm.lastStep + 1024 ≤ s.beats p → (ftmState s p = 2 ∨ ftmState s p = 3) →
    Completes (.phaseStep p) s (fun t => (t.pl p).ftm.slew = (s.pl p).ftm.slew - Int.sign (s.pl p).ftm.slew ∧
      (t.pl p).ftm.lastStep = s.beats p ∧ t.regs = s.regs ∧ t.ft p = s.ft p))

/-! ### The latch barrier (R89 to R95) -/

/-- Commands written at a latch entry (R90, R93, R95): ARM clears the counts and MISS, stores GEN and waits for local arrivals; before the
deadline, ARRIVE short of LOCAL_N is counted and ABORT ends a waiting entry ABORTED; and a write of ABORT or ARRIVE changes no configuration
field. -/
def Obligations.LatchEntryWrites : Prop :=
  (∀ (acc : Accessor) (p : PlaneId) (e : Fin 64) (v : Word) (s : State),
    accepted s acc (pu p .LAT) (Fld.ENT_CTRL_ARM.at e.val).key (v ||| (Fld.ENT_CTRL_ARM.at e.val).mask) = true →
    Completes (.arm acc p e v) s (fun t => entState t p e = 1 ∧ t.get (pu p .LAT) (Fld.ENT_STAT_LOCAL_CNT.at e) = 0 ∧
      t.get (pu p .LAT) (Fld.ENT_STAT_ARR_CNT.at e) = 0 ∧ t.get (pu p .LAT) (Fld.ENT_STAT_MISS.at e) = 0 ∧
      t.get (pu p .LAT) (Fld.ENT_CTRL_GEN.at e) = fieldGet v Fld.ENT_CTRL_GEN ∧ (latchEnt t p e).counted = [])) ∧
  (∀ (acc : Accessor) (p : PlaneId) (e : Fin 64) (v : Word) (s : State),
    accepted s acc (pu p .LAT) (Fld.ENT_CTRL_ARRIVE.at e.val).key (v ||| (Fld.ENT_CTRL_ARRIVE.at e.val).mask) = true → entState s p e = 1 →
    entLate s p e = false →
    s.get (pu p .LAT) (Fld.ENT_STAT_LOCAL_CNT.at e) + 1 < s.get (pu p .LAT) (Fld.ENT_CTRL_LOCAL_N.at e) →
    Completes (.arrive acc p e v) s (fun t => entState t p e = 1 ∧
      t.get (pu p .LAT) (Fld.ENT_STAT_LOCAL_CNT.at e) = s.get (pu p .LAT) (Fld.ENT_STAT_LOCAL_CNT.at e) + 1 ∧
      t.reg (pu p .LAT) (0x400 + 0x20 * e) = s.reg (pu p .LAT) (0x400 + 0x20 * e) ∧ t.planes = s.planes)) ∧
  (∀ (acc : Accessor) (p : PlaneId) (e : Fin 64) (v : Word) (s : State),
    accepted s acc (pu p .LAT) (Fld.ENT_CTRL_ABORT.at e.val).key (v ||| (Fld.ENT_CTRL_ABORT.at e.val).mask) = true →
    (entState s p e = 1 ∨ entState s p e = 2) → entLate s p e = false →
    Completes (.abort acc p e v) s (fun t => entState t p e = 6 ∧
      t.reg (pu p .LAT) (0x400 + 0x20 * e) = s.reg (pu p .LAT) (0x400 + 0x20 * e)))

/-- Latch messages that their entry accepts before its deadline, and the entry's times (R88, R90 to R93): the root counts a participant that
it has not counted, short of N; STRIKE in time makes a waiting entry without ACT_KEY STRUCK at its time; ABORT ends a waiting one ABORTED;
MISSED is recorded at the root. A STRIKE that the common checks refuse only counts as discarded (for an IDLE entry that is the model's
choice, assumption log 111). ARRIVE goes to the root again after 65,536 beats; at its strike time a STRUCK entry is RELEASED and with
ACT_SYNC adds 1 to its sync object, which no other update of the beat concerns; beyond its deadline a waiting entry ends TIMEOUT, and one
before it stays. -/
def Obligations.LatchEvents : Prop :=
  (∀ (p : PlaneId) (d : Payload) (s : State), let m := latchDecode d
    m.type = 1 → latchOk s p m = true → s.on (pu p .LAT) (Fld.ENT_CTRL_ROOT.at m.entry) = true →
    m.pidx < s.get (pu p .LAT) (Fld.ENT_CFG_N.at m.entry) → (entState s p m.entry = 1 ∨ entState s p m.entry = 2) →
    entLate s p m.entry = false → (latchEnt s p m.entry).counted.any (fun c => c.1 = m.pidx) = false →
    (latchEnt s p m.entry).counted.length + 1 < s.get (pu p .LAT) (Fld.ENT_CFG_N.at m.entry) →
    Completes (.latchArriveMsg p d) s (fun t => (latchEnt t p m.entry).counted = (latchEnt s p m.entry).counted ++ [(m.pidx, m.srcMod)] ∧
      t.get (pu p .LAT) (Fld.ENT_STAT_ARR_CNT.at m.entry) = (latchEnt s p m.entry).counted.length + 1 ∧
      entState t p m.entry = entState s p m.entry)) ∧
  (∀ (p : PlaneId) (d : Payload) (s : State), let m := latchDecode d
    m.type = 2 → latchOk s p m = true → s.on (pu p .LAT) (Fld.ENT_CTRL_ROOT.at m.entry) = false →
    s.on (pu p .LAT) (Fld.ENT_CTRL_ACT_KEY.at m.entry) = false → (entState s p m.entry = 1 ∨ entState s p m.entry = 2) →
    entLate s p m.entry = false → s.ft p + 64 ≤ m.ft →
    Completes (.latchStrikeMsg p d) s (fun t => entState t p m.entry = 3 ∧
      t.get64 (pu p .LAT) (Fld.ENT_STRIKE_LO.at m.entry) (Fld.ENT_STRIKE_HI.at m.entry) = m.ft ∧ t.planes = s.planes)) ∧
  (∀ (p : PlaneId) (d : Payload) (s : State), let m := latchDecode d
    m.type = 3 → latchOk s p m = true → (entState s p m.entry = 1 ∨ entState s p m.entry = 2) → entLate s p m.entry = false →
    Completes (.latchAbortMsg p d) s (fun t => entState t p m.entry = 6)) ∧
  (∀ (p : PlaneId) (d : Payload) (s : State), let m := latchDecode d
    m.type = 4 → latchOk s p m = true → s.on (pu p .LAT) (Fld.ENT_CTRL_ROOT.at m.entry) = true → entLate s p m.entry = false →
    Completes (.latchMissedMsg p d) s (fun t => t.get (pu p .LAT) (Fld.ENT_STAT_MISS.at m.entry) = 1 ∧
      t.get (pu p .LAT) Fld.LAT_STAT_MISSED_CNT = min (s.get (pu p .LAT) Fld.LAT_STAT_MISSED_CNT + 1) 0xFFFF ∧ t.planes = s.planes)) ∧
  (∀ (p : PlaneId) (d : Payload) (s : State), (latchDecode d).type = 2 → latchOk s p (latchDecode d) = false →
    Completes (.latchStrikeMsg p d) s (fun t =>
      t.get (pu p .LAT) Fld.LAT_STAT_DISCARD_CNT = min (s.get (pu p .LAT) Fld.LAT_STAT_DISCARD_CNT + 1) 0xFFFF ∧ t.planes = s.planes ∧
      ∀ u off, regKey u off ≠ regKey (pu p .LAT) Fld.LAT_STAT_DISCARD_CNT.key → t.reg u off = s.reg u off)) ∧
  (∀ (p : PlaneId) (e : Fin 64) (s : State), entState s p e = 2 → s.on (pu p .LAT) (Fld.ENT_CTRL_ROOT.at e.val) = false →
    (latchEnt s p e).sentAt + 65536 ≤ s.ft p →
    Completes (.latchArriveResend p e) s (fun t => (latchEnt t p e).sentAt = s.ft p ∧ entState t p e = 2 ∧
      ∃ f, (t.pl p).unitFrames = (s.pl p).unitFrames ++ [f] ∧ f.dests = [s.get (pu p .LAT) (Fld.ENT_ROOT_ROOT_MOD.at e.val)])) ∧
  (∀ (p : PlaneId) (e : Fin 64) (s : State), entState s p e = 3 →
    s.ft p = s.get64 (pu p .LAT) (Fld.ENT_STRIKE_LO.at e.val) (Fld.ENT_STRIKE_HI.at e.val) → syncLog s p = [] →
    Completes (.latchRelease p e) s (fun t => entState t p e = 4 ∧
      (∀ k, k < 4096 → syncVal t p k = if s.on (pu p .LAT) (Fld.ENT_CTRL_ACT_SYNC.at e.val) = true ∧
        k = s.get (pu p .LAT) (Fld.ENT_ROOT_SYNC_IDX.at e.val) then syncVal s p k + 1 else syncVal s p k))) ∧
  (∀ (p : PlaneId) (e : Fin 64) (s : State), (entState s p e = 1 ∨ entState s p e = 2) → entDeadline s p e < s.ft p → (latchEnt s p e).armedAt < s.ft p →
    entDeadline s p e ≠ 2 ^ 64 - 1 → Completes (.latchTimeout p e) s (fun t => entState t p e = 5)) ∧
  (∀ (p : PlaneId) (e : Fin 64) (s : State), s.ft p ≤ entDeadline s p e → Completes (.latchTimeout p e) s (fun t => t = s))

/-! ### Any register, and faults (R47, R51, R52, R393, R399, R417) -/

/-- An accepted write of IRQ_EN of any block, or of a register of the mailbox wards, stores its fields by their access types and LOCK, counts
in BLK_SEQ, and changes no other register but the block's latched interrupts and LOCK_HIT and REQ of the hub link that carried it (R51, R52,
R54). A write of a transmit word of a mailbox channel by its sending end stands there (R382). -/
def Obligations.AcceptedWriteIsStored : Prop :=
  (∀ (acc : Accessor) (u pg : Nat) (v : Word) (s : State) (a : Word), wfPage u pg = true → accepted s acc u (4096 * pg + 0x014) v = true →
    bar0Of u (4096 * pg + 0x014) = some a.toNat →
    Completes (.regWrite acc (.bar0 a) 15 v) s (fun t =>
      t.reg u 0x014 = v ∧ t.get u Fld.BLK_SEQ = (s.get u Fld.BLK_SEQ + 1) % 2 ^ 32 ∧ t.planes = s.planes ∧ t.cfg = s.cfg ∧ t.dead = s.dead ∧
      ∀ u' off', regKey u' off' ≠ regKey u 0x014 → regKey u' off' ≠ regKey u 0x018 → regKey u' off' ≠ regKey u Fld.BLK_SEQ.key →
        ¬ countsLink u' off' → t.reg u' off' = s.reg u' off')) ∧
  (∀ (acc : Accessor) (h : HubId) (k : Fin 128) (v : Word) (s : State) (a : Word), let u := hu h .MBX
    let off := 0x400 + 4 * k.val
    accepted s acc u off v = true → bar0Of u off = some a.toNat →
    Completes (.regWrite acc (.bar0 a) 15 v) s (fun t =>
      t.reg u off = mergeWrite (regFields .MBX off) (s.on u Fld.BLK_CTRL_LOCK) (s.reg u off) v ∧
      t.get u Fld.BLK_SEQ = (s.get u Fld.BLK_SEQ + 1) % 2 ^ 32 ∧ t.planes = s.planes ∧ t.mbx = s.mbx ∧ t.cfg = s.cfg ∧ t.dead = s.dead ∧
      ∀ u' off', regKey u' off' ≠ regKey u off → regKey u' off' ≠ regKey u 0x00C → regKey u' off' ≠ regKey u 0x018 →
        regKey u' off' ≠ regKey u Fld.BLK_SEQ.key → t.reg u' off' = s.reg u' off')) ∧
  (∀ (acc : Accessor) (c : Fin 256) (k : Fin 64) (v : Word) (s : State), let u := hu (chHub c) .MBX
    chReach s acc (chHub c) = true → s.on u Fld.BLK_STAT_RST_BUSY = false → s.fenced u = false → agentOf acc ≠ 0 →
    ward s c Fld.MBX_WARD_SEND = agentOf acc →
    Completes (.regWrite acc (.chan c ⟨0x100 + 4 * k.val, by omega⟩) 15 v) s (fun t =>
      (chan t c).tx = mput (chan s c).tx k.val v ∧ (∀ d, d ≠ c → chan t d = chan s d) ∧ t.planes = s.planes))

/-- The log of a detected fault (R47, R399), for the sources of Table 14.2 whose reaction touches no other state, where it is the unit's first
of its beat (log 100 orders several): a unit whose CLASS is 0 captures CLASS, SOURCE, the fabric time, WHERE and DETAIL, and its frames take
the next RSEQ, and a class C fault counts; while a fault is held, a further one sets OVF and replaces nothing. A class that Table 14.2 does
not give the source is no fault of the block. -/
def Obligations.DetectedFaultIsLogged : Prop :=
  (∀ (u : Nat) (b : Blk) (n src : Nat) (cls : FaultClass) (wh detail : Nat) (item : Bool) (s : State), unitBlk u = some (b, n) →
    classAllowed b src cls wh = false → Completes (.faultDetect u src cls wh detail item) s (fun t => t = s)) ∧
  (∀ (u : Nat) (b : Blk) (n src : Nat) (cls : FaultClass) (wh detail : Word) (s : State), unitBlk u = some (b, n) →
    (b, src) ∈ quietSources → classAllowed b src cls wh.toNat = true → s.powered u = true → s.dead = none → detectedNow s u = [] →
    (s.get u Fld.BLK_ERR_CLASS = 0 → Completes (.faultDetect u src cls wh.toNat detail.toNat false) s (fun t =>
      t.get u Fld.BLK_ERR_CLASS = classCode cls ∧ t.get u Fld.BLK_ERR_CLASS_SOURCE = src ∧ t.get u Fld.BLK_ERR_CLASS_OVF = 0 ∧
      t.get64 u Fld.BLK_ERR_LOG0_FT_LO Fld.BLK_ERR_LOG1_FT_HI = unitFt s u % 2 ^ 64 ∧ t.reg u 0x028 = wh ∧ t.reg u 0x02C = detail ∧
      t.get u Fld.BLK_ERR_CLASS_C_COUNT = (if cls = .c then min (s.get u Fld.BLK_ERR_CLASS_C_COUNT + 1) 0xFFFF else s.get u Fld.BLK_ERR_CLASS_C_COUNT) ∧
      (t.rp u).rseq = ((s.rp u).rseq + 1) % 16 ∧ t.planes = s.planes ∧ t.dead = none)) ∧
    (s.get u Fld.BLK_ERR_CLASS ≠ 0 → escSource b src = false → (logNow s u).due (unitBeat s u) = false →
      Completes (.faultDetect u src cls wh.toNat detail.toNat false) s (fun t =>
      t.get u Fld.BLK_ERR_CLASS_OVF = 1 ∧ t.get u Fld.BLK_ERR_CLASS = s.get u Fld.BLK_ERR_CLASS ∧
      t.get u Fld.BLK_ERR_CLASS_SOURCE = s.get u Fld.BLK_ERR_CLASS_SOURCE ∧ t.reg u 0x020 = s.reg u 0x020 ∧ t.reg u 0x028 = s.reg u 0x028 ∧
      t.reg u 0x02C = s.reg u 0x02C ∧ (t.rp u).rseq = (s.rp u).rseq ∧ t.planes = s.planes)))

/-- GO (R417): in test mode a unit whose CLASS is 0, with no fault yet in the beat, logs the injected fault with INJ_CLASS and INJ_SRC, and a
source that corrupts an item leaves the next item that its check protects struck; for the sources whose reaction touches no other state.
Outside test mode the write is rejected with STATE, and nothing is logged. -/
def Obligations.InjectedFault : Prop :=
  (∀ (acc : Accessor) (u pg : Nat) (b : Blk) (n : Nat) (v : Word) (s : State), wfPage u pg = true → unitBlk u = some (b, n) →
    accepted s acc u (4096 * pg + 0x030) (v ||| Fld.BLK_ERR_INJ_GO.mask) = true → (b, fieldGet v Fld.BLK_ERR_INJ_INJ_SRC) ∈ quietSources →
    b ≠ .FCL → s.get u Fld.BLK_ERR_CLASS = 0 → detectedNow s u = [] →
    Completes (.go acc u pg v) s (fun t => t.get u Fld.BLK_ERR_CLASS = fieldGet v Fld.BLK_ERR_INJ_INJ_CLASS ∧
      t.get u Fld.BLK_ERR_CLASS_SOURCE = fieldGet v Fld.BLK_ERR_INJ_INJ_SRC ∧ (t.rp u).rseq = ((s.rp u).rseq + 1) % 16 ∧
      (injectsD b (fieldGet v Fld.BLK_ERR_INJ_INJ_SRC) = true → (t.rp u).corrupt.isSome = true) ∧
      (injectsD b (fieldGet v Fld.BLK_ERR_INJ_INJ_SRC) = false → (t.rp u).corrupt = (s.rp u).corrupt))) ∧
  (∀ (acc : Accessor) (u : Nat) (v : Word) (s : State), wfUnit u = true → reaches s acc u 0x030 = true → s.testMode = false →
    s.on u Fld.BLK_STAT_RST_BUSY = false → s.fenced u = false → unitBusy s u ((unitBlk u).elim .PLN (·.1)) 0x030 = false →
    Completes (.go acc u 0 v) s (fun t => t.get u Fld.BLK_STAT_REJ = 1 ∧ (s.get u Fld.BLK_STAT_REJ = 0 → t.get u Fld.BLK_STAT_REJ_CODE = 5) ∧
      t.get u Fld.BLK_ERR_CLASS = s.get u Fld.BLK_ERR_CLASS ∧ t.planes = s.planes))

/-! ### Keys (R96 to R128) -/

/-- Key commands (R114, R118, R127, R128): LOAD begins loading the image that KSQ_SRC names; ARM without a latch entry fixes the start FT,
which stands in KSQ_Bb_START, or returns the code of the check that fails; RESUME arms the paused bank again; PAUSE and STOP are kept for
the next line boundary; DISCARD empties the standby bank and frees its patterns. -/
def Obligations.KeyCommands : Prop :=
  (∀ (acc : Accessor) (p : PlaneId) (v : Word) (s : State),
    accepted s acc (pu p .KSQ) Fld.KSQ_CMD.key ((v &&& ~~~Fld.KSQ_CMD.mask) ||| 1) = true →
    Completes (.load acc p v) s (fun t => let b := standbyBank s p
      bankSt t p b = 1 ∧ t.get (pu p .KSQ) (Fld.KSQ_B_STAT_RCODE.at b) = 0 ∧
      (bankOfKey t p b).srcAddr = s.get64 (pu p .KSQ) Fld.KSQ_SRC_LO Fld.KSQ_SRC_HI ∧
      (bankOfKey t p b).srcLen = s.get (pu p .KSQ) Fld.KSQ_SRC_LEN ∧ bankSt t p (activeBank s p) = bankSt s p (activeBank s p))) ∧
  (∀ (acc : Accessor) (p : PlaneId) (v : Word) (s : State),
    accepted s acc (pu p .KSQ) Fld.KSQ_CMD.key ((v &&& ~~~Fld.KSQ_CMD.mask) ||| 2) = true → armVia s p = false →
    armFail s p (standbyBank s p) true = none → s.ft p + 4096 ≤ armStart s p →
    Completes (.keyArm acc p v) s (fun t => let b := standbyBank s p
      bankSt t p b = 3 ∧ (bankOfKey t p b).start = some (armStart s p) ∧
      t.get64 (pu p .KSQ) (Fld.KSQ_B_START_LO_S_LO.at b) (Fld.KSQ_B_START_HI_S_HI.at b) = armStart s p)) ∧
  (∀ (acc : Accessor) (p : PlaneId) (v : Word) (s : State) (code : Nat),
    accepted s acc (pu p .KSQ) Fld.KSQ_CMD.key ((v &&& ~~~Fld.KSQ_CMD.mask) ||| 2) = true → armFail s p (standbyBank s p) true = some code →
    Completes (.keyArm acc p v) s (fun t => bankSt t p (standbyBank s p) = 2 ∧
      t.get (pu p .KSQ) (Fld.KSQ_B_STAT_RCODE.at (standbyBank s p)) = code ∧ t.planes = s.planes)) ∧
  (∀ (acc : Accessor) (p : PlaneId) (v : Word) (s : State),
    accepted s acc (pu p .KSQ) Fld.KSQ_CMD.key ((v &&& ~~~Fld.KSQ_CMD.mask) ||| 3) = true → armVia s p = false →
    armFail s p (activeBank s p) false = none → s.ft p + 4096 ≤ armStart s p →
    Completes (.resume acc p v) s (fun t => let b := activeBank s p
      bankSt t p b = 3 ∧ (bankOfKey t p b).start = some (armStart s p) ∧ (bankOfKey t p b).resumed = true ∧
      (bankOfKey t p b).line = (bankOfKey s p b).line)) ∧
  (∀ (acc : Accessor) (p : PlaneId) (v : Word) (s : State) (b : Nat), bankIn s p 4 = some b →
    accepted s acc (pu p .KSQ) Fld.KSQ_CMD.key ((v &&& ~~~Fld.KSQ_CMD.mask) ||| 4) = true →
    Completes (.pause acc p v) s (fun t =>
      (bankOfKey t p b).pauseAt = some (s.get64 (pu p .KSQ) Fld.KSQ_PAUSE_LO Fld.KSQ_PAUSE_HI) ∧ bankSt t p b = 4)) ∧
  (∀ (acc : Accessor) (p : PlaneId) (v : Word) (s : State) (b : Nat), bankIn s p 4 = some b →
    accepted s acc (pu p .KSQ) Fld.KSQ_CMD.key ((v &&& ~~~Fld.KSQ_CMD.mask) ||| 5) = true →
    Completes (.stop acc p v) s (fun t => (bankOfKey t p b).stop = some (s.ft p) ∧ bankSt t p b = 4)) ∧
  (∀ (acc : Accessor) (p : PlaneId) (v : Word) (s : State),
    accepted s acc (pu p .KSQ) Fld.KSQ_CMD.key ((v &&& ~~~Fld.KSQ_CMD.mask) ||| 6) = true →
    Completes (.discard acc p v) s (fun t => let b := standbyBank s p
      bankSt t p b = 0 ∧ bankOfKey t p b = {} ∧ (t.pl p).xpt = (s.pl p).xpt.filter (fun e => e.2.owner ≠ b) ∧
      bankSt t p (activeBank s p) = bankSt s p (activeBank s p)))

/-- The events of a key's life (R112 to R126): a load that fails its checks leaves the bank REJECTED with the code and position of the first
that failed, one that passes leaves it LOADED with its lines and patterns; at its start FT an ARMED key runs and its bank is the active one;
where the active key has not ended at S2 the standby key returns to LOADED with LATE; a target that reaches its refresh deadline, where the
slot of the beat does not refresh it, is refreshed at once, KSQ reports REFRESH_MISS, and the key is to end with its code at the end of the
slot; at the boundary where DONE or PAUSED is due the key is that, with its end code and FT, and an armed next key has its swap window; no
key ends in a beat in which no slot begins. -/
def Obligations.KeyEvents : Prop :=
  (∀ (p : PlaneId) (b code pos : Nat) (s : State), bankIn s p 1 = some b → loadFail (imageRead s p b) p b (bankOfKey s p b).srcAddr
      (bankOfKey s p b).srcLen = some (code, pos) →
    Completes (.keyLoadDone p) s (fun t => bankSt t p b = 6 ∧ t.get (pu p .KSQ) (Fld.KSQ_B_STAT_RCODE.at b) = code ∧
      t.get (pu p .KSQ) (Fld.KSQ_B_POS_LINE.at b) = pos % 2 ^ 18)) ∧
  (∀ (p : PlaneId) (b : Nat) (s : State), bankIn s p 1 = some b → loadFail (imageRead s p b) p b (bankOfKey s p b).srcAddr
      (bankOfKey s p b).srcLen = none →
    Completes (.keyLoadDone p) s (fun t =>
      let k := parseKey (memRead (imageRead s p b) p (bankOfKey s p b).srcAddr (bankOfKey s p b).srcLen)
      bankSt t p b = 2 ∧ (bankOfKey t p b).lineCnt = k.lineCnt ∧ (bankOfKey t p b).pats = k.pats.map (·.1) ∧
      ∀ q, q ≠ p → t.pl q = (imageRead s p b).pl q)) ∧
  (∀ (p : PlaneId) (b : Nat) (s : State), bankIn s p 3 = some b → (bankOfKey s p b).start = some (s.ft p) → bankIn s p 4 = none →
    s.plnState p = 3 → (bankSt s p (1 - b) ≠ 5 ∨ (bankOfKey s p b).resumed = true) →
    Completes (.keyStart p) s (fun t => bankSt t p b = 4 ∧ activeBank t p = b ∧ t.get (pu p .KSQ) Fld.KSQ_STAT_SWAP_WIN = 0 ∧
      t.plnState p = 4 ∧ (bankOfKey t p b).nextSlot = s.ft p ∧ t.ft p = s.ft p ∧
      (bankOfKey t p b).line = (if (bankOfKey s p b).resumed then (bankOfKey s p b).line else 0))) ∧
  (∀ (p : PlaneId) (a b : Nat) (s : State), bankIn s p 3 = some b → bankIn s p 4 = some a → (bankOfKey s p b).start = some (s.ft p) →
    (slotBank s p ≠ some a ∨ dueEnd s p a = none) → (bankOfKey s p b).resumed = false →
    Completes (.keySwapLate p) s (fun t => bankSt t p b = 2 ∧ bankSt t p a = 4 ∧ t.get (pu p .KSQ) (Fld.KSQ_B_STAT_RCODE.at b) = 0x10 ∧
      t.get (pu p .KSQ) Fld.KSQ_STAT_LATE_CNT = min (s.get (pu p .KSQ) Fld.KSQ_STAT_LATE_CNT + 1) 0xFFFF ∧
      t.get (pu p .KSQ) Fld.KSQ_STAT_SWAP_WIN = 0)) ∧
  (∀ (p : PlaneId) (b : Nat) (t' : Fin 7) (s : State), bankIn s p 4 = some b → mapNames (bankOfKey s p b).memMap t'.val = true →
    refreshDue s p b t'.val ≤ s.ft p →
    ¬ (slotBank s p = some b ∧ dueEnd s p b = none ∧ refreshes s p (slotMops s p b) t'.val = true) →
    s.get (pu p .KSQ) Fld.BLK_ERR_CLASS = 0 → detectedNow s (pu p .KSQ) = [] →
    Completes (.refreshDeadline p t') s (fun t => (bankOfKey t p b).endSlot = (bankOfKey s p b).endSlot ++
        [(6, if (bankOfKey s p b).nextSlot ≤ s.ft p then (bankOfKey s p b).nextSlot + 20 else (bankOfKey s p b).nextSlot)] ∧
      (tgt t p (targetKey s p t'.val)).lastRef = s.beats p ∧
      t.get (pu p .KSQ) Fld.BLK_ERR_CLASS = 2 ∧ t.get (pu p .KSQ) Fld.BLK_ERR_CLASS_SOURCE = 2)) ∧
  (∀ (p : PlaneId) (b : Nat) (c : KeyEnd) (s : State), slotBank s p = some b → dueEnd s p b = some c → (c = .done ∨ c = .paused) →
    Completes (.keyEnd p) s (fun t => bankSt t p b = (if c = .paused then 5 else 7) ∧ t.get (pu p .KSQ) (Fld.KSQ_B_STAT_END.at b) = c.code ∧
      (bankSt s p (1 - b) = 3 → t.get (pu p .KSQ) Fld.KSQ_STAT_SWAP_WIN = 1) ∧
      t.get64 (pu p .KSQ) (Fld.KSQ_B_END_LO_E_LO.at b) (Fld.KSQ_B_END_HI_E_HI.at b) = s.ft p % 2 ^ 64 ∧ t.ft p = s.ft p)) ∧
  (∀ (p : PlaneId) (s : State), slotBank s p = none → Completes (.keyEnd p) s (fun t => t = s))

/-- A slot of a running key whose line routes no lane and carries no operation, and whose key schedules no memory target, with no context bound,
no scheduled cell presented and no injected fault waiting in what it reads (R97, R98, R101): the position, the loop counter and the next slot
advance, two slots are read ahead, and memory, contexts, sync objects and the lanes' output stay as they are. -/
def Obligations.KeySlotOfAnEmptyLine : Prop :=
  ∀ (p : PlaneId) (b : Nat) (s : State), slotBank s p = some b → dueEnd s p b = none → (s.pl p).ctxs = [] → (s.pl p).schedIn = [] →
    mapTargets s p (bankOfKey s p b).memMap = [] → memArmed s p = false → (s.rp (pu p .KSQ)).corrupt = none →
    (let l := parseLine (reached s p b).data
     l.pat = 0 ∧ l.tops = List.replicate 17 0 ∧ l.mops = [0, 0, 0, 0] ∧ l.sops = [0, 0, 0]) → mget (s.pl p).xpt 0 = none →
    Completes (.keySlot p) s (fun t => let r := reached s p b
      (bankOfKey t p b).nextSlot = s.ft p + 20 ∧ (bankOfKey t p b).repLeft = r.left - 1 ∧
      (bankOfKey t p b).line = (if r.left = 1 then r.line + 1 else r.line) ∧ (bankOfKey t p b).loopLeft = r.loopLeft ∧
      (bankOfKey t p b).ahead.length = 2 ∧
      t.get (pu p .KSQ) (Fld.KSQ_B_POS_LINE.at b) = r.line % 2 ^ 18 ∧ t.ft p = s.ft p ∧ (t.pl p).mem = (s.pl p).mem ∧
      (t.pl p).ctxs = [] ∧ (t.pl p).schedOut = (s.pl p).schedOut ∧ ∀ k, syncVal t p k = syncVal s p k)

/-! ### Clocks, slices and chunks (R32, R71, R123, R158 to R184) -/

/-- BEAT counts one beat of its clock (R71): a plane's FT and count of beats, and no other plane changes; a hub's beats, and no plane changes; the
power controller's, where no module reset acts in it, and no register changes where no plane waits to be requested; a plane without power has
no beat. A relock begins when every cell of the credits granted is written (STATE CLKCHG, ACLK_NOW as set) and ends in ADAPTIVE (R32);
DEVICE_HOT shows in the controller's status and changes no other register (R276). -/
def Obligations.ClockBeats : Prop :=
  (∀ (p : PlaneId) (s : State), s.powered (pu p .PLN) = true → Completes (.beat (.plane p)) s (fun t => t.ft p = s.ft p + 1 ∧
    t.beats p = s.beats p + 1 ∧ ∀ q, q ≠ p → t.pl q = s.pl q)) ∧
  (∀ (h : HubId) (s : State), s.powered (hu h .HUB) = true → Completes (.beat (.hub h)) s (fun t => (t.hub h).beat = (s.hub h).beat + 1 ∧
    t.planes = s.planes)) ∧
  (∀ s : State, s.pwr.resetDue = false → Completes (.beat .power) s (fun t => t.pwr.beat = s.pwr.beat + 1 ∧ t.planes = s.planes ∧
    (s.pwr.planesDue = [] → t.regs = s.regs))) ∧
  (∀ (p : PlaneId) (s : State), s.powered (pu p .PLN) = false → Completes (.beat (.plane p)) s (fun t => t = s)) ∧
  (∀ (p : PlaneId) (set : Nat) (s : State), s.plnState p = 2 → (s.pl p).relock = some set → cellsWritten s p = true →
    Completes (.clkchgEnter p) s (fun t => t.plnState p = 5 ∧ (t.pl p).relock = none ∧
      t.get (pu p .PLN) Fld.PLN_STATE_ACLK_NOW = set % 2 ^ Fld.PLN_STATE_ACLK_NOW.width ∧ t.ft p = s.ft p)) ∧
  (∀ (p : PlaneId) (s : State), s.plnState p = 5 → Completes (.relockDone p) s (fun t => t.plnState p = 2 ∧
    t.get (pu p .PLN) Fld.PLN_STATE_ACLK_NOW = s.get (pu p .PLN) Fld.PLN_STATE_ACLK_NOW)) ∧
  (∀ (p : PlaneId) (t' : Fin 7) (hot : Bool) (s : State), s.powered (tgtUnit p t'.val) = true →
    Completes (.deviceHot p t' hot) s (fun t => t.get (tgtUnit p t'.val) Fld.FMC_STAT_HOT = b2n hot ∧ t.planes = s.planes ∧
      ∀ u off, regKey u off ≠ regKey (tgtUnit p t'.val) Fld.FMC_STAT_HOT.key → t.reg u off = s.reg u off))

/-- Slices (R123, R158): a slice found failed is fenced, UNUSABLE, and reports TMB_FAIL, and where it was ACTIVE a spare stands in for its
position; a spare that stands in becomes ACTIVE in its own position, a change of the unit map, once no context is bound on the failed one and
no key names it; GO of TMB_ACC_SEL captures one accumulator of a context and changes no context. -/
def Obligations.SliceEvents : Prop :=
  (∀ (p : PlaneId) (n : SliceId) (s : State), s.powered (uTMB p n.val) = true → s.fenced (uTMB p n.val) = false →
    s.get (uTMB p n.val) Fld.BLK_ERR_CLASS = 0 → detectedNow s (uTMB p n.val) = [] →
    Completes (.tmbFail p n) s (fun t => t.fenced (uTMB p n.val) = true ∧ sliceRole t p n.val = 3 ∧
      t.get (uTMB p n.val) Fld.BLK_ERR_CLASS = 2 ∧ t.get (uTMB p n.val) Fld.BLK_ERR_CLASS_SOURCE = 7 ∧
      (∀ sp, sliceRole s p n.val = 0 → spareSlice s p = some sp → sliceRole t p sp = 2 ∧ t.get (uTMB p sp) Fld.TMB_STAT_FOR_POS = n.val))) ∧
  (∀ (p : PlaneId) (n : SliceId) (s : State), sliceRole s p n.val = 2 → ctxsOf s p (s.get (uTMB p n.val) Fld.TMB_STAT_FOR_POS) = [] →
    keyNamesSlice s p (s.get (uTMB p n.val) Fld.TMB_STAT_FOR_POS) = false →
    Completes (.spareActivate p n) s (fun t => sliceRole t p n.val = 0 ∧ t.get (uTMB p n.val) Fld.TMB_STAT_FOR_POS = n.val ∧
      bit (t.get (pu p .PLN) Fld.PLN_UNIT_SLICE_SLICE_ACT) n.val = true ∧
      t.get (pu p .PLN) Fld.PLN_UNIT_SEQ = (s.get (pu p .PLN) Fld.PLN_UNIT_SEQ + 1) % 2 ^ Fld.PLN_UNIT_SEQ.width)) ∧
  (∀ (acc : Accessor) (p : PlaneId) (n : SliceId) (v : Word) (s : State) (x : Ctx),
    accepted s acc (uTMB p n.val) Fld.TMB_ACC_SEL_GO.key (v ||| Fld.TMB_ACC_SEL_GO.mask) = true → pageCtx s p n.val (v.toNat % 16) = some x →
    Completes (.tmbAccSelGo acc p n v) s (fun t => let a := x.acc.getD (v.toNat / 16 % 2 ^ 17) {}
      mget (t.pl p).captures n.val = some (if x.wide then { a with a := a.w } else a) ∧ (t.pl p).ctxs = (s.pl p).ctxs))

/-- A chunk's closing (R162, R164, R176, R181): closing scales and rounds the accumulators into the retained result and its RCRC, and is no
event of a context with no chunk FILLING; when it ends, with no copy of the chunk asked for, the chunk is SENDING, FAILED with INCOMPLETE where
a member lacks a cell, or in REPAIR, with its recompute needed, where its comparison failed or a spare took its position over; a feed that ends
is outstanding no more. -/
def Obligations.ChunkCloses : Prop :=
  (∀ (p : PlaneId) (pos : SliceId) (c : Fin 16) (x : Ctx) (k : Chunk) (s : State), getCtx s p pos.val c.val = some x → x.filling = some k →
    closeDue s p pos.val c.val k = true → (s.rp (posUnit s p pos.val)).corrupt ≠ some 2 →
    Completes (.chunkCloseBegin p pos c) s (fun t => ∃ k', (getCtx t p pos.val c.val).bind (·.chunk k.num) = some k' ∧ k'.st = .closing ∧
      k'.result = (x.closeOut k.num x.acc).1 ∧ k'.status = (x.closeOut k.num x.acc).2 ∧ k'.rcrc = resultCrc (x.closeOut k.num x.acc).1 ∧
      t.regs = s.regs ∧ ∀ q, q ≠ p → t.pl q = s.pl q)) ∧
  (∀ (p : PlaneId) (pos : SliceId) (c : Fin 16) (x : Ctx) (n : Nat) (k : Chunk) (s : State), getCtx s p pos.val c.val = some x →
    closeOver s x p = some n → x.chunk n = some k → ctxAborted s p x = false → x.fault = false → k.overD = false → k.fail = 0 →
    k.copies = [] → k.marked = false → k.takeover = false → k.neg = 0 → k.recompOn = none →
    Completes (.chunkCloseEnd p pos c) s (fun t => ∃ k', (getCtx t p pos.val c.val).bind (·.chunk n) = some k' ∧
      k'.st = (if x.incomplete k then .failed else .sending) ∧ k'.fail = (if x.incomplete k then 5 else 0) ∧ k'.result = k.result ∧
      (x.incomplete k = false → t.regs = s.regs))) ∧
  (∀ (p : PlaneId) (pos : SliceId) (c : Fin 16) (x : Ctx) (n : Nat) (k : Chunk) (s : State), getCtx s p pos.val c.val = some x →
    closeOver s x p = some n → x.chunk n = some k → ctxAborted s p x = false → x.fault = false → k.overD = false → k.fail = 0 →
    k.copies = [] → k.marked = false → x.incomplete k = false → (k.takeover = true ∨ k.neg ≠ 0) →
    Completes (.chunkCloseEnd p pos c) s (fun t => ∃ k', (getCtx t p pos.val c.val).bind (·.chunk n) = some k' ∧ k'.st = .repair ∧
      k'.recompNeed = some (s.beats p))) ∧
  (∀ (p : PlaneId) (pos : SliceId) (c : Fin 16) (s : State), (getCtx s p pos.val c.val).bind (·.filling) = none →
    Completes (.chunkCloseBegin p pos c) s (fun t => t = s)) ∧
  (∀ (p : PlaneId) (pos : SliceId) (c : Fin 16) (f : Feed') (s : State),
    (s.pl p).feeds.find? (fun f => f.pos = pos.val && f.ctx = c.val) = some f →
    Completes (.feedDone p pos c) s (fun t => (t.pl p).feeds = (s.pl p).feeds.erase f ∧ t.ft p = s.ft p ∧ (t.pl p).mem = (s.pl p).mem))

/-- Contribution frames, recomputes and repairs (R161, R167, R177 to R180): a frame that its head cell vouches for stands in open staging, each
data cell with its TAG; one for a collective that is not bound changes only the discard count; the first waiting recompute of an idle engine
starts; one that ends, with no fault in what it reads, replaces the result and its RCRC; a repair delivery of a port's copy begins its next
attempt in the port's repair queue; a copy whose limit is over takes a seal alone in that queue; a request for a chunk no longer held is
answered with one seal frame to the member; a copy to memory that is written holds the result. -/
def Obligations.ChunkRepairs : Prop :=
  (∀ (p : PlaneId) (ep : Fin 65536) (a : BitVec 48) (c : BitVec 64 × Payload) (data : List (BitVec 64 × Payload)) (x : Ctx) (s : State),
    a.toNat % 256 = 0 → inPart s p .open_ a.toNat (256 * (data.length + 1)) = true → boundFor s p (headCell c.2).group (headCell c.2).cseq = some x →
    (∃ e, member s p (headCell c.2).group (headCell c.2).midx = some e ∧ entKind e = 0 ∧ entAddr e = ep.val) → (headCell c.2).reserved = 0 →
    (headCell c.2).cells = x.chunkCells → data.length = (headCell c.2).cells →
    Completes (.contribFrame p ep a (c :: data)) s (fun t => let w := memWrite p a.toNat ((c :: data).flatMap (fun e => payloadBytes e.2)) s
      (t.pl p).mem = (w.pl p).mem ∧ (t.pl p).poison = (w.pl p).poison ∧ t.regs = w.regs ∧ (∀ q, q ≠ p → t.pl q = s.pl q) ∧
      ∀ i d, data[i]? = some d → ∀ z, mgetD (t.pl p).stageTags (a.toNat + 256 * (i + 1)) z = d.1.toNat)) ∧
  (∀ (p : PlaneId) (ep : Fin 65536) (a : BitVec 48) (c : BitVec 64 × Payload) (data : List (BitVec 64 × Payload)) (s : State),
    a.toNat % 256 = 0 → inPart s p .open_ a.toNat (256 * (data.length + 1)) = true → boundFor s p (headCell c.2).group (headCell c.2).cseq = none →
    Completes (.contribFrame p ep a (c :: data)) s (fun t => t.planes = s.planes ∧
      t.get (pu p .GRQ) Fld.GRQ_DISCARD_FRAME_DISC = min (s.get (pu p .GRQ) Fld.GRQ_DISCARD_FRAME_DISC + 1) 0xFFFF)) ∧
  (∀ (p : PlaneId) (pos : SliceId) (c : Fin 16) (n : Nat) (w : Nat × Nat × Nat × Nat) (x : Ctx) (s : State),
    (let e := engineOf s p pos.val
     let mine := (waiting s p).filter (fun w => engineOf s p w.2.1 = e)
     mine.find? (fun w => w.2 = (pos.val, c.val, n)) = some w ∧ engineBusy s p e = false ∧ mine.any (fun v => before v w) = false) →
    getCtx s p pos.val c.val = some x → (x.chunk n).isSome = true →
    Completes (.recomputeStart p pos c n) s (fun t => ∃ k, (getCtx t p pos.val c.val).bind (·.chunk n) = some k ∧
      k.recompOn = some (s.beats p, engineOf s p pos.val) ∧ t.regs = s.regs)) ∧
  (∀ (p : PlaneId) (pos : SliceId) (c : Fin 16) (n e t0 : Nat) (x : Ctx) (k : Chunk) (s : State), getCtx s p pos.val c.val = some x →
    x.chunk n = some k → k.recompOn = some (t0, e) → t0 + recompBeats s p x k ≤ s.beats p → (s.rp (pu p .SPM)).corrupt ≠ some 2 →
    (s.rp (uTMB p e)).corrupt ≠ some 2 → poisonedAt s p (retInputs s p pos.val c.val x n) (256 * (x.m * x.chunkCells)) = false → k.marked = false →
    Completes (.recomputeDone p pos c n) s (fun t => ∃ k', (getCtx t p pos.val c.val).bind (·.chunk n) = some k' ∧
      k'.result = (x.closeOut n (x.rebuild k)).1 ∧ k'.rcrc = resultCrc (x.closeOut n (x.rebuild k)).1 ∧ k'.recompOn = none ∧
      k'.recompNeed = none ∧ t.regs = s.regs)) ∧
  (∀ (p : PlaneId) (pos : SliceId) (c : Fin 16) (n : Nat) (q : PortId) (w : Nat × Nat × Nat × Nat) (x : Ctx) (k : Chunk) (s : State),
    (repairList s p (.port q.val)).find? (fun e => e.2 = (n, pos.val, c.val)) = some w →
    (repairList s p (.port q.val)).any (fun v => v.1 < w.1 || (v.1 = w.1 && v.2.1 < w.2.1)) = false → getCtx s p pos.val c.val = some x →
    x.chunk n = some k →
    Completes (.repairDelivery p pos c n (.port q.val)) s (fun t => ∃ k', (getCtx t p pos.val c.val).bind (·.chunk n) = some k' ∧
      k'.copies = k.copies.map (fun y => if y.dst = .port q.val then y.again else y) ∧
      mgetD (t.pl p).repairs q.val [] = mgetD (s.pl p).repairs q.val [] ++ [{ pos := pos.val, ctx := c.val, chunk := n, dst := .port q.val }])) ∧
  (∀ (p : PlaneId) (pos : SliceId) (c : Fin 16) (n t0 : Nat) (q : PortId) (k : Chunk) (y : Copy) (s : State),
    (getCtx s p pos.val c.val).bind (·.chunk n) = some k → k.copies.find? (fun y => y.dst = .port q.val && y.kind = 2) = some y →
    y.negAt = some t0 → t0 + 1650000 < s.beats p → k.held = true →
    Completes (.repairLimit p pos c n (.port q.val)) s (fun t => (mgetD (t.pl p).repairs q.val []).getLast? =
      some { pos := pos.val, ctx := c.val, chunk := n, dst := .port q.val, sealOnly := true })) ∧
  (∀ (p : PlaneId) (g : Fin 1024) (cseq : Fin 65536) (n m : Nat) (s : State),
    (s.pl p).ctxs.find? (fun e => e.2.group = g.val && e.2.cseq = cseq.val && e.2.chunks.any (fun k => k.num = n && k.held)) = none →
    Completes (.repairRequest p g cseq n m) s (fun t => ∃ f, (t.pl p).unitFrames = (s.pl p).unitFrames ++ [f] ∧ f.cls = 3 ∧
      f.dests = [memberEntry s p g.val m % 65536] ∧ t.regs = s.regs)) ∧
  (∀ (p : PlaneId) (pos : SliceId) (c : Fin 16) (n : Nat) (a : BitVec 48) (x : Ctx) (k : Chunk) (y : Copy) (s : State),
    getCtx s p pos.val c.val = some x → x.chunk n = some k → k.copies.find? (fun y => (match y.dst with
      | .mem m _ => m = a.toNat
      | _ => false) && (y.kind = 0 || y.queued)) = some y →
    k.held = true → k.fail = 0 → ctxAborted s p x = false → k.recomputing = false →
    Completes (.cstoreWriteDone p pos c n a) s (fun t => (t.pl p).mem =
      ((memStore p a.toNat (k.result.flatMap payloadBytes) (readResult p pos.val c.val n s).2).2.pl p).mem ∧ t.ft p = s.ft p))

/-! ### Collective cores from outside (R198 to R206, R220 to R226) -/

/-- Commands written at a core (R187, R222 to R226): RUN starts it at its pc and clears RESTORED, its registers and local store as they were;
HALT stops it with HCAUSE 1 and abandons a wait; SAVE leaves it SAVING with its wait abandoned, and RESTORE leaves it RESTORING; CCX_LS_DATA
stores a word of the local store and counts ADDR. -/
def Obligations.CoreCommands : Prop :=
  (∀ (acc : Accessor) (p : PlaneId) (n : CoreId) (v : Word) (s : State),
    accepted s acc (uCCX p n.val) Fld.CCX_CTRL_RUN.key (v ||| Fld.CCX_CTRL_RUN.mask) = true →
    Completes (.run acc p n v) s (fun t => coreSt t p n.val = 1 ∧ t.get (uCCX p n.val) Fld.CCX_STAT_RESTORED = 0 ∧
      (coreOf t p n.val).pc = (coreOf s p n.val).pc ∧ (coreOf t p n.val).x = (coreOf s p n.val).x ∧ (coreOf t p n.val).ls = (coreOf s p n.val).ls ∧
      (coreOf t p n.val).retired = s.ft p)) ∧
  (∀ (acc : Accessor) (p : PlaneId) (n : CoreId) (v : Word) (s : State),
    accepted s acc (uCCX p n.val) Fld.CCX_CTRL_HALT.key (v ||| Fld.CCX_CTRL_HALT.mask) = true →
    Completes (.halt acc p n v) s (fun t => coreSt t p n.val = 0 ∧ t.get (uCCX p n.val) Fld.CCX_STAT_HCAUSE = 1 ∧
      (coreOf t p n.val).wait = none ∧ (coreOf t p n.val).pc = (coreOf s p n.val).pc ∧ (coreOf t p n.val).x = (coreOf s p n.val).x)) ∧
  (∀ (acc : Accessor) (p : PlaneId) (n : CoreId) (v : Word) (s : State),
    accepted s acc (uCCX p n.val) Fld.CCX_CTRL_SAVE.key (v ||| Fld.CCX_CTRL_SAVE.mask) = true →
    Completes (.save acc p n v) s (fun t => coreSt t p n.val = 3 ∧ (coreOf t p n.val).wait = none ∧ (coreOf t p n.val).since = s.ft p ∧
      (coreOf t p n.val).pc = (coreOf s p n.val).pc)) ∧
  (∀ (acc : Accessor) (p : PlaneId) (n : CoreId) (v : Word) (s : State),
    accepted s acc (uCCX p n.val) Fld.CCX_CTRL_RESTORE.key (v ||| Fld.CCX_CTRL_RESTORE.mask) = true →
    Completes (.restore acc p n v) s (fun t => coreSt t p n.val = 5 ∧ (coreOf t p n.val).x = (coreOf s p n.val).x)) ∧
  (∀ (acc : Accessor) (p : PlaneId) (n : CoreId) (v : Word) (s : State), accepted s acc (uCCX p n.val) 0x05C v = true →
    Completes (.ccxLsData acc p n v) s (fun t => let a := s.get (uCCX p n.val) Fld.CCX_LS_ADDR
      (coreOf t p n.val).ls = memPuts (coreOf s p n.val).ls (4 * a) (bytesOf 4 v.toNat) ∧
      t.get (uCCX p n.val) Fld.CCX_LS_ADDR = (a + 1) % 2 ^ Fld.CCX_LS_ADDR.width ∧ (coreOf t p n.val).pc = (coreOf s p n.val).pc))

/-- Events of a core apart from its instructions (R198, R199, R206, R220 to R224): an SWAIT whose condition has held retires with OK and the
value, and one past its deadline with TIMEOUT and the object of its last beat, counted, the core RUNNING again at the next instruction; a
message enters the inbox, or is dropped and counted where it holds 16; a core that has retired nothing for WDOG is halted with HCAUSE WDOG and
reported; a save whose transfers and feeds are over writes its image and leaves SAVED; a restore of a bad image sets IMG_BAD and leaves the
core as it was, and of a good one leaves it HALTED with RESTORED at the image's pc; the oldest transfer through the memory controllers moves
its data and completes. -/
def Obligations.CoreEvents : Prop :=
  (∀ (p : PlaneId) (n : CoreId) (w : CoreWait) (m v : Nat) (s : State), (coreOf s p n.val).wait = some w → w.kind = 1 → w.met = some (m, v) →
    coreSt s p n.val = 2 → cycleBeat (cyclesPerSlot s p) (retireCycle (cyclesPerSlot s p) w m) ≤ s.ft p →
    Completes (.waitRetire p n) s (fun t => (coreOf t p n.val).wait = none ∧ (coreOf t p n.val).pc = (coreOf s p n.val).pc + 4 ∧
      coreSt t p n.val = 1 ∧ (coreOf t p n.val).x = ((coreOf s p n.val).setX w.rd (statusVal 0 v)).x ∧
      (coreOf t p n.val).ready = retireCycle (cyclesPerSlot s p) w m ∧ (t.pl p).mem = (s.pl p).mem ∧ (t.pl p).syncs = (s.pl p).syncs)) ∧
  (∀ (p : PlaneId) (n : CoreId) (w : CoreWait) (d : Nat) (s : State), (coreOf s p n.val).wait = some w → w.kind = 1 → w.deadline = some d →
    w.met = none → coreSt s p n.val = 2 → d < s.ft p →
    Completes (.waitTimeout p n) s (fun t => (coreOf t p n.val).wait = none ∧ (coreOf t p n.val).pc = (coreOf s p n.val).pc + 4 ∧
      coreSt t p n.val = 1 ∧ (coreOf t p n.val).x = ((coreOf s p n.val).setX w.rd (statusVal 0x10 (w.lapse.getD (syncVal s p w.arg).toNat))).x ∧
      t.get (pu p .SYN) Fld.SYN_STAT_TMO_CNT = min (s.get (pu p .SYN) Fld.SYN_STAT_TMO_CNT + 1) 0xFFFF)) ∧
  (∀ (p : PlaneId) (n : CoreId) (sm : Fin 65536) (sc : CoreId) (d : Payload) (s : State), s.powered (uCCX p n.val) = true →
    coreSt s p n.val ≠ 3 → coreSt s p n.val ≠ 4 → (coreOf s p n.val).inbox.length < 16 →
    Completes (.msgArrive p n sm sc d) s (fun t => (coreOf t p n.val).inbox = (coreOf s p n.val).inbox ++ [⟨sm.val, sc.val, d⟩] ∧ t.regs = s.regs)) ∧
  (∀ (p : PlaneId) (n : CoreId) (sm : Fin 65536) (sc : CoreId) (d : Payload) (s : State), s.powered (uCCX p n.val) = true →
    16 ≤ (coreOf s p n.val).inbox.length →
    Completes (.msgArrive p n sm sc d) s (fun t => t.planes = s.planes ∧
      t.get (uCCX p n.val) Fld.CCX_MSG_DROP = min (s.get (uCCX p n.val) Fld.CCX_MSG_DROP + 1) 0xFFFF)) ∧
  (∀ (p : PlaneId) (n : CoreId) (s : State), (coreSt s p n.val = 1 ∨ coreSt s p n.val = 2) →
    (coreOf s p n.val).retired + 1650 * s.get (uCCX p n.val) Fld.CCX_CFG_WDOG ≤ s.ft p → s.get (uCCX p n.val) Fld.BLK_ERR_CLASS = 0 →
    detectedNow s (uCCX p n.val) = [] →
    Completes (.ccWatchdog p n) s (fun t => coreSt t p n.val = 0 ∧ t.get (uCCX p n.val) Fld.CCX_STAT_HCAUSE = 3 ∧
      t.get (uCCX p n.val) Fld.BLK_ERR_CLASS = 2 ∧ t.get (uCCX p n.val) Fld.BLK_ERR_CLASS_SOURCE = 2)) ∧
  (∀ (p : PlaneId) (n : CoreId) (s : State), coreSt s p n.val = 3 → (coreOf s p n.val).xfers = [] → (coreOf s p n.val).ops = [] →
    feedsOf s p n.val = 0 →
    Completes (.ccSaveDone p n) s (fun t => coreSt t p n.val = 4 ∧
      (t.pl p).mem = ((memWrite p (saveAddr s p n.val) (saveImage s p n.val) s).pl p).mem ∧ coreOf t p n.val = coreOf s p n.val)) ∧
  (∀ (p : PlaneId) (n : CoreId) (s : State), coreSt s p n.val = 5 → memArmed s p = false →
    imageOk p (memRead s p (saveAddr s p n.val) imageBytes) = false →
    Completes (.ccRestoreDone p n) s (fun t => coreSt t p n.val = (if (coreOf s p n.val).wasSaved then 4 else 0) ∧
      t.get (uCCX p n.val) Fld.CCX_STAT_IMG_BAD = 1 ∧ coreOf t p n.val = coreOf s p n.val)) ∧
  (∀ (p : PlaneId) (n : CoreId) (s : State), coreSt s p n.val = 5 → memArmed s p = false →
    imageOk p (memRead s p (saveAddr s p n.val) imageBytes) = true →
    poisonedAt s p (saveAddr s p n.val) imageBytes = false →
    Completes (.ccRestoreDone p n) s (fun t => coreSt t p n.val = 0 ∧ t.get (uCCX p n.val) Fld.CCX_STAT_RESTORED = 1 ∧
      (coreOf t p n.val).pc = BitVec.ofNat 64 (img (memRead s p (saveAddr s p n.val) imageBytes) 0x138 8))) ∧
  (∀ (p : PlaneId) (n : CoreId) (x : Xfer) (r : List Xfer) (s : State), (coreOf s p n.val).ops = [] → (coreOf s p n.val).xfers = x :: r →
    (x.kind = 2 ∨ x.kind = 3) → (∀ y ∈ r, y.kind = 2 ∨ y.kind = 3) → poisonedAt s p x.src x.len = false → memArmed s p = false →
    Completes (.xferComplete p n) s (fun t => (coreOf t p n.val).xfers.length = r.length ∧
      (t.pl p).mem = ((memWrite p x.dst (memRead s p x.src x.len) s).pl p).mem ∧
      (coreOf t p n.val).csr = (if (memStore p x.dst (memRead s p x.src x.len) s).1 then mput (coreOf s p n.val).csr 0x7C0 0x16
        else (coreOf s p n.val).csr)))

/-! ### Sync objects and groups (R201 to R204, R228 to R251) -/

/-- Sync objects, doorbells and the staging copy (R204, R231, R234, R251): SYN_OBJ sets an object and SYN_ADD adds to it modulo 2^32, as the
first update of its beat, and no other object changes; a doorbell moves PROD and nothing else of any group; GRQ_SEL loads the selected group's
record; a COMMIT that changes more than CORE, and abandons nothing, applies the staging copy and counts GEN; CCONS moves. -/
def Obligations.GroupWrites : Prop :=
  (∀ (acc : Accessor) (p : PlaneId) (k : Fin 4096) (v : Word) (s : State),
    accepted s acc (pu p .SYN) (4096 * (k.val / 256) + 0x400 + 4 * (k.val % 256)) v = true → syncLog s p = [] →
    Completes (.synObj acc p k v) s (fun t => syncVal t p k.val = v ∧ ∀ j, j < 4096 → j ≠ k.val → syncVal t p j = syncVal s p j)) ∧
  (∀ (acc : Accessor) (p : PlaneId) (k : Fin 4096) (v : Word) (s : State),
    accepted s acc (pu p .SYN) (4096 * (k.val / 256) + 0x800 + 4 * (k.val % 256)) v = true → syncLog s p = [] →
    Completes (.synAdd acc p k v) s (fun t => syncVal t p k.val = syncVal s p k.val + v ∧
      ∀ j, j < 4096 → j ≠ k.val → syncVal t p j = syncVal s p j)) ∧
  (∀ (acc : Accessor) (p : PlaneId) (g : Fin 1024) (v : Word) (s : State),
    accepted s acc (pu p .GRQ) (4096 * (1 + g.val / 256) + 0x400 + 4 * (g.val % 256)) v = true →
    Completes (.grqDb acc p g v) s (fun t => (grp t p g.val).prod = v.toNat % 65536 ∧ (grp t p g.val).cons = (grp s p g.val).cons ∧
      ∀ q, q ≠ g.val → grp t p q = grp s p q)) ∧
  (∀ (acc : Accessor) (p : PlaneId) (v : Word) (s : State), accepted s acc (pu p .GRQ) Fld.GRQ_SEL_GROUP.key v = true →
    Completes (.group acc p v) s (fun t => selGroup t p = fieldGet v Fld.GRQ_SEL_GROUP ∧ (t.pl p).groups = (s.pl p).groups ∧
      (let x := grp s p (fieldGet v Fld.GRQ_SEL_GROUP)
       t.get (pu p .GRQ) Fld.GRQ_G_QBASE = x.qbase % 2 ^ 28 ∧ t.get (pu p .GRQ) Fld.GRQ_G_CFG_EN = b2n x.en))) ∧
  (∀ (acc : Accessor) (p : PlaneId) (v : Word) (s : State),
    accepted s acc (pu p .GRQ) Fld.GRQ_G_CTL_COMMIT.key (v ||| Fld.GRQ_G_CTL_COMMIT.mask) = true →
    (let x := grp s p (selGroup s p)
     x.core = (stagedGrp s p x).core ∨ v.getLsbD 1 = true ∨ x.dseq = x.cons) →
    { grp s p (selGroup s p) with core := (stagedGrp s p (grp s p (selGroup s p))).core } ≠ stagedGrp s p (grp s p (selGroup s p)) →
    Completes (.commit acc p v) s (fun t => let x := grp s p (selGroup s p)
      grp t p (selGroup s p) = { stagedGrp s p x with gen := (x.gen + 1) % 65536 } ∧
      ∀ q, q ≠ selGroup s p → grp t p q = grp s p q)) ∧
  (∀ (acc : Accessor) (p : PlaneId) (v : Word) (s : State), accepted s acc (pu p .GRQ) Fld.GRQ_G_CPTR_CCONS.key v = true →
    Completes (.ccons acc p v) s (fun t => grp t p (selGroup s p) = { grp s p (selGroup s p) with ccons := (v >>> 16).toNat } ∧
      ∀ q, q ≠ selGroup s p → grp t p q = grp s p q))

/-- Group control frames and records (R232 to R250): a LAUNCH of a member of an enabled FRAME group enters the ring at PROD and is answered
with status 0, and one to a disabled group is counted and answered with 2; a frame of no listed TYPE or with reserved bytes only counts as
discarded; a BARRIER_ARRIVE of a member of an unkeyed barrier counts once; a MISMATCH_REPORT aborts its popped collective; an ABANDONED record
of a ring group is posted while the completion ring has room; TMO asks the chunks that the collective fills to close, and stops the key that a
keyed one runs. -/
def Obligations.GroupFrames : Prop :=
  (∀ (p : PlaneId) (ep : Fin 65536) (d : Payload) (s : State), ctlOk d = true → ctlType d = 0x10 → ctlGroup d < 1024 →
    (let x := grp s p (ctlGroup d)
     x.en = true ∧ x.launch = true ∧ isMember s p (ctlGroup d) ep.val = true ∧ idxDist x.cons x.prod < x.qent) →
    Completes (.launch p ep d) s (fun t => (grp t p (ctlGroup d)).prod = ((grp s p (ctlGroup d)).prod + 1) % 65536 ∧
      (∃ f, (t.pl p).unitFrames = (s.pl p).unitFrames ++ [f] ∧ f.dests = [ep.val] ∧
        f.cells = [ctlPayload [] 0x11 0 (ctlGroup d) (grp s p (ctlGroup d)).prod 0 0]))) ∧
  (∀ (p : PlaneId) (ep : Fin 65536) (d : Payload) (s : State), ctlOk d = true → ctlType d = 0x10 → ctlGroup d < 1024 →
    (grp s p (ctlGroup d)).en = false →
    Completes (.launch p ep d) s (fun t => (t.pl p).groups = (s.pl p).groups ∧
      t.get (pu p .GRQ) Fld.GRQ_DISCARD_LAUNCH_REF = min (s.get (pu p .GRQ) Fld.GRQ_DISCARD_LAUNCH_REF + 1) 0xFFFF ∧
      (∃ f, (t.pl p).unitFrames = (s.pl p).unitFrames ++ [f] ∧ f.dests = [ep.val] ∧ f.cells = [ctlPayload [] 0x11 2 (ctlGroup d) 0 0 0]))) ∧
  (∀ (p : PlaneId) (ep : Fin 65536) (d : Payload) (s : State), ctlOk d = false →
    Completes (.launch p ep d) s (fun t => t = discardGroup p s) ∧ Completes (.mismatchReport p d) s (fun t => t = discardGroup p s) ∧
    Completes (.barrierArrive p d) s (fun t => t = discardGroup p s)) ∧
  (∀ (p : PlaneId) (d : Payload) (b : List Byte) (s : State), ctlOk d = true → ctlType d = 0x15 →
    poppedDesc s p (ctlGroup d) (ctlCseq d) = some b → unkeyedBarrier b = true → (member s p (ctlGroup d) (ctlMidx d)).map entKind = some 0 →
    (grp s p (ctlGroup d)).arrivals.contains (ctlCseq d, ctlMidx d) = false → ctlDigest d = descDigest b →
    Completes (.barrierArrive p d) s (fun t =>
      (grp t p (ctlGroup d)).arrivals = (grp s p (ctlGroup d)).arrivals ++ [(ctlCseq d, ctlMidx d)] ∧ t.regs = s.regs)) ∧
  (∀ (p : PlaneId) (d : Payload) (s : State), ctlOk d = true → (grp s p (ctlGroup d)).arrivals.contains (ctlCseq d, ctlMidx d) = true →
    Completes (.barrierArrive p d) s (fun t => t = s)) ∧
  (∀ (p : PlaneId) (d : Payload) (s : State), ctlOk d = true → ctlType d = 0x14 → (poppedDesc s p (ctlGroup d) (ctlCseq d)).isSome = true →
    (getColl s p (ctlGroup d) (ctlCseq d)).aborted = none → (s.pl p).ctxs = [] →
    Completes (.mismatchReport p d) s (fun t => (getColl t p (ctlGroup d) (ctlCseq d)).aborted = some (ctlMidx d, ctlDigest d))) ∧
  (∀ (p : PlaneId) (g : Fin 1024) (q : Nat) (d : List Byte) (r : List (Nat × List Byte)) (s : State),
    (grp s p g.val).abandoned = (q, d) :: r → compFull (grp s p g.val) = false → (grp s p g.val).launch = false →
    Completes (.abandonedPost p g) s (fun t => (grp t p g.val).abandoned = r ∧ (grp t p g.val).cprod = ((grp s p g.val).cprod + 1) % 65536 ∧
      (grp t p g.val).dseq = ((grp s p g.val).dseq + 1) % 65536 ∧ (t.pl p).unitFrames = (s.pl p).unitFrames)) ∧
  (∀ (p : PlaneId) (g : Fin 1024) (cseq : Fin 65536) (d : List Byte) (s : State), poppedDesc s p g.val cseq.val = some d →
    ofBytes (sliceB d 0x68 8) ≠ 2 ^ 64 - 1 → ofBytes (sliceB d 0x78 8) + ofBytes (sliceB d 0x68 8) < s.ft p →
    bit (ofBytes (sliceB d 1 1)) 0 = false →
    Completes (.collectiveTmo p g cseq) s (fun t => ∀ pos c x k, getCtx s p pos c = some x → x.group = g.val → x.cseq = cseq.val → x.feed = true →
      x.filling = some k → ((getCtx t p pos c).bind (·.filling)).map (·.closeReq) = some true)) ∧
  (∀ (p : PlaneId) (g : Fin 1024) (cseq : Fin 65536) (d : List Byte) (b : Nat) (s : State), poppedDesc s p g.val cseq.val = some d →
    ofBytes (sliceB d 0x68 8) ≠ 2 ^ 64 - 1 → ofBytes (sliceB d 0x78 8) + ofBytes (sliceB d 0x68 8) < s.ft p →
    bit (ofBytes (sliceB d 1 1)) 0 = true → bankIn s p 4 = some b → (bankOfKey s p b).keyId = ofBytes (sliceB d 0x48 8) →
    Completes (.collectiveTmo p g cseq) s (fun t => (bankOfKey t p b).stop = some (s.ft p) ∧ bankSt t p b = 4))

/-! ### Instructions of a collective core (R185 to R220) -/

/-- RV64IM integer instructions (R185): LUI, AUIPC, the register and immediate arithmetic, 64-bit and 32-bit, the multiplications and the
divisions write rd and go on at pc + 4, and nothing but the core differs. SRAI is the signed shift, SUB the difference, MUL the low product,
ADDW the sign-extended 32-bit sum; a division by zero gives all ones, its remainder the dividend. -/
def Obligations.ScalarArithmetic : Prop :=
  (∀ (p : PlaneId) (n : CoreId) (s : State), canIssue s p n .scalar = true → insOp (wordAt s p n) = 0x37 →
    Completes (.scalarInstruction p n) s (fun t => gaveX s t p n (immU (wordAt s p n)) ∧ onlyCore (atIssue s p n) t p n)) ∧
  (∀ (p : PlaneId) (n : CoreId) (s : State), canIssue s p n .scalar = true → insOp (wordAt s p n) = 0x17 →
    Completes (.scalarInstruction p n) s (fun t => gaveX s t p n ((coreOf s p n.val).pc + immU (wordAt s p n)) ∧ onlyCore (atIssue s p n) t p n)) ∧
  (∀ (p : PlaneId) (n : CoreId) (s : State), canIssue s p n .scalar = true → insOp (wordAt s p n) = 0x13 →
    insF3 (wordAt s p n) ≠ 1 → insF3 (wordAt s p n) ≠ 5 →
    Completes (.scalarInstruction p n) s (fun t =>
      gaveX s t p n (aluOp (insF3 (wordAt s p n)) false (rs1Of s p n) (immI (wordAt s p n))) ∧ onlyCore (atIssue s p n) t p n)) ∧
  (∀ (p : PlaneId) (n : CoreId) (s : State), canIssue s p n .scalar = true → insOp (wordAt s p n) = 0x13 → insF3 (wordAt s p n) = 5 →
    bits (wordAt s p n).toNat 31 26 = 0x10 →
    Completes (.scalarInstruction p n) s (fun t =>
      gaveX s t p n ((rs1Of s p n).sshiftRight (bits (wordAt s p n).toNat 25 20)) ∧ onlyCore (atIssue s p n) t p n)) ∧
  (∀ (p : PlaneId) (n : CoreId) (s : State), canIssue s p n .scalar = true → insOp (wordAt s p n) = 0x13 →
    (insF3 (wordAt s p n) = 1 ∨ insF3 (wordAt s p n) = 5) → bits (wordAt s p n).toNat 31 26 = 0 →
    Completes (.scalarInstruction p n) s (fun t => gaveX s t p n (aluOp (insF3 (wordAt s p n)) false (rs1Of s p n)
      (BitVec.ofNat 64 (bits (wordAt s p n).toNat 25 20))) ∧ onlyCore (atIssue s p n) t p n)) ∧
  (∀ (p : PlaneId) (n : CoreId) (s : State), canIssue s p n .scalar = true → insOp (wordAt s p n) = 0x1B → insF3 (wordAt s p n) = 0 →
    Completes (.scalarInstruction p n) s (fun t =>
      gaveX s t p n (aluOpW 0 false (rs1Of s p n) (immI (wordAt s p n))) ∧ onlyCore (atIssue s p n) t p n)) ∧
  (∀ (p : PlaneId) (n : CoreId) (s : State), canIssue s p n .scalar = true → insOp (wordAt s p n) = 0x1B →
    (insF3 (wordAt s p n) = 1 ∨ insF3 (wordAt s p n) = 5) →
    (insF7 (wordAt s p n) = 0 ∨ (insF3 (wordAt s p n) = 5 ∧ insF7 (wordAt s p n) = 0x20)) →
    Completes (.scalarInstruction p n) s (fun t => gaveX s t p n (aluOpW (insF3 (wordAt s p n)) (insF7 (wordAt s p n) ≠ 0) (rs1Of s p n)
      (BitVec.ofNat 64 (bits (wordAt s p n).toNat 25 20))) ∧ onlyCore (atIssue s p n) t p n)) ∧
  (∀ (p : PlaneId) (n : CoreId) (s : State), canIssue s p n .scalar = true → insOp (wordAt s p n) = 0x3B →
    ((insF7 (wordAt s p n) = 0 ∧ (insF3 (wordAt s p n) = 0 ∨ insF3 (wordAt s p n) = 1 ∨ insF3 (wordAt s p n) = 5)) ∨
      (insF7 (wordAt s p n) = 0x20 ∧ (insF3 (wordAt s p n) = 0 ∨ insF3 (wordAt s p n) = 5))) →
    Completes (.scalarInstruction p n) s (fun t => gaveX s t p n (aluOpW (insF3 (wordAt s p n)) (insF7 (wordAt s p n) ≠ 0) (rs1Of s p n)
      (rs2Of s p n)) ∧ onlyCore (atIssue s p n) t p n)) ∧
  (∀ (p : PlaneId) (n : CoreId) (s : State), canIssue s p n .scalar = true → insOp (wordAt s p n) = 0x33 → insF7 (wordAt s p n) = 1 →
    Completes (.scalarInstruction p n) s (fun t =>
      gaveX s t p n (mulOp (insF3 (wordAt s p n)) (rs1Of s p n) (rs2Of s p n)) ∧ onlyCore (atIssue s p n) t p n)) ∧
  (∀ (p : PlaneId) (n : CoreId) (s : State), canIssue s p n .scalar = true → insOp (wordAt s p n) = 0x3B → insF7 (wordAt s p n) = 1 →
    (insF3 (wordAt s p n) = 0 ∨ 4 ≤ insF3 (wordAt s p n)) →
    Completes (.scalarInstruction p n) s (fun t =>
      gaveX s t p n (mulOpW (insF3 (wordAt s p n)) (rs1Of s p n) (rs2Of s p n)) ∧ onlyCore (atIssue s p n) t p n)) ∧
  (∀ (p : PlaneId) (n : CoreId) (s : State), canIssue s p n .scalar = true → insOp (wordAt s p n) = 0x33 → insF7 (wordAt s p n) = 0x20 →
    insF3 (wordAt s p n) = 5 →
    Completes (.scalarInstruction p n) s (fun t =>
      gaveX s t p n (aluOp 5 true (rs1Of s p n) (rs2Of s p n)) ∧ onlyCore (atIssue s p n) t p n)) ∧
  (∀ (p : PlaneId) (n : CoreId) (s : State), canIssue s p n .scalar = true → insOp (wordAt s p n) = 0x33 → insF7 (wordAt s p n) = 0 →
    Completes (.scalarInstruction p n) s (fun t =>
      gaveX s t p n (aluOp (insF3 (wordAt s p n)) false (rs1Of s p n) (rs2Of s p n)) ∧ onlyCore (atIssue s p n) t p n)) ∧
  (∀ (p : PlaneId) (n : CoreId) (s : State), canIssue s p n .scalar = true → insOp (wordAt s p n) = 0x33 → insF7 (wordAt s p n) = 0x20 →
    insF3 (wordAt s p n) = 0 →
    Completes (.scalarInstruction p n) s (fun t => gaveX s t p n (rs1Of s p n - rs2Of s p n) ∧ onlyCore (atIssue s p n) t p n)) ∧
  (∀ (p : PlaneId) (n : CoreId) (s : State), canIssue s p n .scalar = true → insOp (wordAt s p n) = 0x33 → insF7 (wordAt s p n) = 1 →
    insF3 (wordAt s p n) = 0 →
    Completes (.scalarInstruction p n) s (fun t => gaveX s t p n (rs1Of s p n * rs2Of s p n) ∧ onlyCore (atIssue s p n) t p n)) ∧
  (∀ (p : PlaneId) (n : CoreId) (s : State), canIssue s p n .scalar = true → insOp (wordAt s p n) = 0x33 → insF7 (wordAt s p n) = 1 →
    rs2Of s p n = 0 → 4 ≤ insF3 (wordAt s p n) →
    Completes (.scalarInstruction p n) s (fun t =>
      gaveX s t p n (if insF3 (wordAt s p n) < 6 then BitVec.allOnes 64 else rs1Of s p n) ∧ onlyCore (atIssue s p n) t p n)) ∧
  (∀ (p : PlaneId) (n : CoreId) (s : State), canIssue s p n .scalar = true → insOp (wordAt s p n) = 0x3B → insF7 (wordAt s p n) = 0 →
    insF3 (wordAt s p n) = 0 →
    Completes (.scalarInstruction p n) s (fun t =>
      gaveX s t p n (((rs1Of s p n).setWidth 32 + (rs2Of s p n).setWidth 32 : Word).signExtend 64) ∧ onlyCore (atIssue s p n) t p n))

/-- Control flow, local-store accesses and traps of a core (R186, R187, R221): a taken branch and the jumps go to their aligned targets, a
branch not taken goes on; an aligned load and store of the local store move the bytes; ECALL enters the handler with the pc, cause 11 and
MIE kept in MPIE, or halts the core with HCAUSE TRAP while mtvec is 0; MRET returns to mepc; WFI and FENCE advance; EBREAK, a misaligned jump and a
word of opcode 0 enter the handler with causes 3, 0 and 2. A 32-bit load of the register window gives what the register reads; a store to a
page that the core may not write is recorded as a rejection in the core's own page (R188). -/
def Obligations.ScalarControl : Prop :=
  (∀ (p : PlaneId) (n : CoreId) (s : State), canIssue s p n .scalar = true → insOp (wordAt s p n) = 0x63 → insF3 (wordAt s p n) ≠ 2 →
    insF3 (wordAt s p n) ≠ 3 → brTaken (insF3 (wordAt s p n)) (rs1Of s p n) (rs2Of s p n) = true →
    ((coreOf s p n.val).pc + immB (wordAt s p n)).toNat % 4 = 0 →
    Completes (.scalarInstruction p n) s (fun t => (coreOf t p n.val).pc = (coreOf s p n.val).pc + immB (wordAt s p n) ∧
      (coreOf t p n.val).x = (coreOf (atIssue s p n) p n.val).x ∧ onlyCore (atIssue s p n) t p n)) ∧
  (∀ (p : PlaneId) (n : CoreId) (s : State), canIssue s p n .scalar = true → insOp (wordAt s p n) = 0x63 → insF3 (wordAt s p n) ≠ 2 →
    insF3 (wordAt s p n) ≠ 3 → brTaken (insF3 (wordAt s p n)) (rs1Of s p n) (rs2Of s p n) = false →
    Completes (.scalarInstruction p n) s (fun t => (coreOf t p n.val).pc = (coreOf s p n.val).pc + 4 ∧
      (coreOf t p n.val).x = (coreOf (atIssue s p n) p n.val).x ∧ onlyCore (atIssue s p n) t p n)) ∧
  (∀ (p : PlaneId) (n : CoreId) (s : State), canIssue s p n .scalar = true → insOp (wordAt s p n) = 0x6F →
    ((coreOf s p n.val).pc + immJ (wordAt s p n)).toNat % 4 = 0 →
    Completes (.scalarInstruction p n) s (fun t => (coreOf t p n.val).pc = (coreOf s p n.val).pc + immJ (wordAt s p n) ∧
      (coreOf t p n.val).x = ((coreOf (atIssue s p n) p n.val).setX (insRd (wordAt s p n)) ((coreOf s p n.val).pc + 4)).x ∧
      onlyCore (atIssue s p n) t p n)) ∧
  (∀ (p : PlaneId) (n : CoreId) (s : State), canIssue s p n .scalar = true → insOp (wordAt s p n) = 0x67 → insF3 (wordAt s p n) = 0 →
    ((rs1Of s p n + immI (wordAt s p n)) &&& ~~~1#64).toNat % 4 = 0 →
    Completes (.scalarInstruction p n) s (fun t => (coreOf t p n.val).pc = (rs1Of s p n + immI (wordAt s p n)) &&& ~~~1#64 ∧
      (coreOf t p n.val).x = ((coreOf (atIssue s p n) p n.val).setX (insRd (wordAt s p n)) ((coreOf s p n.val).pc + 4)).x ∧
      onlyCore (atIssue s p n) t p n)) ∧
  (∀ (p : PlaneId) (n : CoreId) (s : State), canIssue s p n .scalar = true → insOp (wordAt s p n) = 0x23 → insF3 (wordAt s p n) < 4 →
    (let a := (rs1Of s p n + immS (wordAt s p n)).toNat
     a % 2 ^ insF3 (wordAt s p n) = 0 ∧ a + 2 ^ insF3 (wordAt s p n) ≤ 0x40000) →
    Completes (.scalarInstruction p n) s (fun t => (coreOf t p n.val).pc = (coreOf s p n.val).pc + 4 ∧
      (coreOf t p n.val).ls = memPuts (coreOf (atIssue s p n) p n.val).ls (rs1Of s p n + immS (wordAt s p n)).toNat
        (bytesOf (2 ^ insF3 (wordAt s p n)) (rs2Of s p n).toNat) ∧
      (coreOf t p n.val).x = (coreOf (atIssue s p n) p n.val).x ∧ onlyCore (atIssue s p n) t p n)) ∧
  (∀ (p : PlaneId) (n : CoreId) (s : State), canIssue s p n .scalar = true → insOp (wordAt s p n) = 0x03 → insF3 (wordAt s p n) ≠ 7 →
    (let a := (rs1Of s p n + immI (wordAt s p n)).toNat
     a % 2 ^ (insF3 (wordAt s p n) % 4) = 0 ∧ a + 2 ^ (insF3 (wordAt s p n) % 4) ≤ 0x40000) →
    Completes (.scalarInstruction p n) s (fun t => gaveX s t p n (loadExt (insF3 (wordAt s p n)) (ofBytes
      (lsRead (atIssue s p n) p n.val (rs1Of s p n + immI (wordAt s p n)).toNat (2 ^ (insF3 (wordAt s p n) % 4))))) ∧
      onlyCore (atIssue s p n) t p n)) ∧
  (∀ (p : PlaneId) (n : CoreId) (s : State), canIssue s p n .scalar = true → wordAt s p n = 0x00000073#32 →
    mgetD (coreOf (atIssue s p n) p n.val).csr 0x305 0 ≠ 0 →
    Completes (.scalarInstruction p n) s (fun t => let c := coreOf (atIssue s p n) p n.val
      let d := coreOf t p n.val
      d.pc = mgetD c.csr 0x305 0 ∧ mgetD d.csr 0x341 0 = c.pc ∧ mgetD d.csr 0x342 0 = 11 ∧ mgetD d.csr 0x343 0 = 0 ∧
      mgetD d.csr 0x300 0 = (if (mgetD c.csr 0x300 0).getLsbD 3 then 0x80 else 0) ∧ d.x = c.x ∧ onlyCore (atIssue s p n) t p n)) ∧
  (∀ (p : PlaneId) (n : CoreId) (s : State), canIssue s p n .scalar = true → wordAt s p n = 0x00000073#32 →
    mgetD (coreOf (atIssue s p n) p n.val).csr 0x305 0 = 0 →
    Completes (.scalarInstruction p n) s (fun t => coreSt t p n.val = 0 ∧ t.get (uCCX p n.val) Fld.CCX_STAT_HCAUSE = 2 ∧
      (coreOf t p n.val).pc = (coreOf (atIssue s p n) p n.val).pc)) ∧
  (∀ (p : PlaneId) (n : CoreId) (s : State), canIssue s p n .scalar = true → wordAt s p n = 0x30200073#32 →
    Completes (.scalarInstruction p n) s (fun t => let c := coreOf (atIssue s p n) p n.val
      (coreOf t p n.val).pc = mgetD c.csr 0x341 0 ∧
      mgetD (coreOf t p n.val).csr 0x300 0 = (if (mgetD c.csr 0x300 0).getLsbD 7 then 0x88 else 0x80) ∧ (coreOf t p n.val).x = c.x ∧
      onlyCore (atIssue s p n) t p n)) ∧
  (∀ (p : PlaneId) (n : CoreId) (s : State), canIssue s p n .scalar = true →
    (wordAt s p n = 0x10500073#32 ∨ (insOp (wordAt s p n) = 0x0F ∧ insF3 (wordAt s p n) = 0)) →
    Completes (.scalarInstruction p n) s (fun t => (coreOf t p n.val).pc = (coreOf s p n.val).pc + 4 ∧
      (coreOf t p n.val).x = (coreOf (atIssue s p n) p n.val).x ∧ onlyCore (atIssue s p n) t p n)) ∧
  (∀ (p : PlaneId) (n : CoreId) (s : State), canIssue s p n .scalar = true → wordAt s p n = 0x00100073#32 →
    mgetD (coreOf (atIssue s p n) p n.val).csr 0x305 0 ≠ 0 →
    Completes (.scalarInstruction p n) s (fun t => mgetD (coreOf t p n.val).csr 0x342 0 = 3 ∧
      (coreOf t p n.val).pc = mgetD (coreOf (atIssue s p n) p n.val).csr 0x305 0)) ∧
  (∀ (p : PlaneId) (n : CoreId) (s : State), canIssue s p n .scalar = true → insOp (wordAt s p n) = 0x6F →
    ((coreOf s p n.val).pc + immJ (wordAt s p n)).toNat % 4 ≠ 0 → mgetD (coreOf (atIssue s p n) p n.val).csr 0x305 0 ≠ 0 →
    Completes (.scalarInstruction p n) s (fun t => mgetD (coreOf t p n.val).csr 0x342 0 = 0 ∧
      (coreOf t p n.val).pc = mgetD (coreOf (atIssue s p n) p n.val).csr 0x305 0 ∧
      (coreOf t p n.val).x = (coreOf (atIssue s p n) p n.val).x)) ∧
  (∀ (p : PlaneId) (n : CoreId) (s : State), canIssue s p n .scalar = true → insOp (wordAt s p n) = 0x03 →
    (insF3 (wordAt s p n) = 2 ∨ insF3 (wordAt s p n) = 6) →
    (let a := (rs1Of s p n + immI (wordAt s p n)).toNat
     a % 4 = 0 ∧ winBase ≤ a ∧ a < winEnd) →
    Completes (.scalarInstruction p n) s (fun t => gaveX s t p n (loadExt (insF3 (wordAt s p n))
      (readBar0 (atIssue s p n) (winBar0 p (rs1Of s p n + immI (wordAt s p n)).toNat)).toNat) ∧ onlyCore (atIssue s p n) t p n)) ∧
  (∀ (p : PlaneId) (n : CoreId) (u off : Nat) (s : State), canIssue s p n .scalar = true → insOp (wordAt s p n) = 0x23 →
    insF3 (wordAt s p n) = 2 →
    (let a := (rs1Of s p n + immS (wordAt s p n)).toNat
     a % 4 = 0 ∧ winBase ≤ a ∧ a < winEnd ∧ locate (winBar0 p a) = some (u, off)) → winMay (atIssue s p n) p n.val u = false →
    Completes (.scalarInstruction p n) s (fun t => t.get (uCCX p n.val) Fld.BLK_STAT_REJ = 1 ∧
      ((atIssue s p n).get (uCCX p n.val) Fld.BLK_STAT_REJ = 0 → t.get (uCCX p n.val) Fld.BLK_STAT_REJ_CODE = 9) ∧
      (coreOf t p n.val).pc = (coreOf s p n.val).pc + 4)) ∧
  (∀ (p : PlaneId) (n : CoreId) (s : State), canIssue s p n .scalar = true → insOp (wordAt s p n) = 0 →
    mgetD (coreOf (atIssue s p n) p n.val).csr 0x305 0 ≠ 0 →
    Completes (.scalarInstruction p n) s (fun t => mgetD (coreOf t p n.val).csr 0x342 0 = 2 ∧
      (coreOf t p n.val).pc = mgetD (coreOf (atIssue s p n) p n.val).csr 0x305 0))

/-- CSR instructions and the counter-overflow interrupt (R189, R450): CSRRW of mscratch returns the old value and stores the new one, and of
0x7C1 stores bit 0 alone; CSRRS with x0 returns what the CSR reads and changes no CSR but minstret; the interrupt enters the handler with its
cause and the pc. -/
def Obligations.CoreCsrs : Prop :=
  (∀ (p : PlaneId) (n : CoreId) (s : State), canIssue s p n .csr = true → insF3 (wordAt s p n) = 1 → insCsr (wordAt s p n) = 0x340 →
    Completes (.csrInstruction p n) s (fun t => gaveX s t p n (mgetD (coreOf (atIssue s p n) p n.val).csr 0x340 0) ∧
      mgetD (coreOf t p n.val).csr 0x340 0 = rs1Of s p n ∧ onlyCore (atIssue s p n) t p n)) ∧
  (∀ (p : PlaneId) (n : CoreId) (s : State), canIssue s p n .csr = true → insF3 (wordAt s p n) = 1 → insCsr (wordAt s p n) = 0x7C1 →
    Completes (.csrInstruction p n) s (fun t =>
      mgetD (coreOf t p n.val).csr 0x7C1 0 = (mgetD (coreOf (atIssue s p n) p n.val).csr 0x7C1 0 &&& ~~~1#64) ||| (rs1Of s p n &&& 1#64))) ∧
  (∀ (p : PlaneId) (n : CoreId) (v : Dword) (s : State), canIssue s p n .csr = true → insF3 (wordAt s p n) = 2 → insRs1 (wordAt s p n) = 0 →
    csrRead (atIssue s p n) p n.val (insCsr (wordAt s p n)) (issueCyc s p n) = some v →
    Completes (.csrInstruction p n) s (fun t => gaveX s t p n v ∧ onlyCore (atIssue s p n) t p n ∧
      ∀ k, k ≠ 0xB02 → mgetD (coreOf t p n.val).csr k 0 = mgetD (coreOf (atIssue s p n) p n.val).csr k 0)) ∧
  (∀ (p : PlaneId) (n : CoreId) (s : State), coreSt s p n.val = 1 → irqReady (coreOf s p n.val) = true →
    cycleBeat (cyclesPerSlot s p) ((coreOf s p n.val).irqAt.elim (coreOf s p n.val).ready (fun l => max (coreOf s p n.val).ready (l + 1))) ≤ s.ft p →
    mgetD (coreOf s p n.val).csr 0x305 0 ≠ 0 →
    Completes (.pmuInterruptTaken p n) s (fun t => mgetD (coreOf t p n.val).csr 0x342 0 = 0x800000000000000D ∧
      mgetD (coreOf t p n.val).csr 0x341 0 = (coreOf s p n.val).pc ∧ (coreOf t p n.val).pc = mgetD (coreOf s p n.val).csr 0x305 0 ∧
      mgetD (coreOf t p n.val).csr 0x300 0 = 0x80 ∧ onlyCore s t p n))

/-- Vector instructions (R193, R194): wd takes the result of the operation on the vectors that the word names, VEXT writes rd, VCVT.TO also
gathers its status in 0x7C2, and nothing but the core differs; those on two vectors leave the integer registers and the local store as they
were. Each lane of an integer sum is the sum of the lanes modulo 2^k. -/
def Obligations.VectorResults : Prop :=
  (∀ (p : PlaneId) (n : CoreId) (s : State) (e : Instr × CoreRow × (Vec → Vec → Vec)),
    e ∈ ([(.vaddF32 p n, .vaddF, lanes2 32 f32Add), (.vsubF32 p n, .vsubF, lanes2 32 f32Sub), (.vmulF32 p n, .vmulF, lanes2 32 f32Mul),
      (.vmaxF32 p n, .vmaxF, lanes2 32 f32Max), (.vminF32 p n, .vminF, lanes2 32 f32Min), (.vaddI32 p n, .vaddI32, vaddLanes 32),
      (.vaddI16 p n, .vaddI16, vaddLanes 16), (.vaddI8 p n, .vaddI8, vaddLanes 8), (.vand p n, .vand, fun a b => a &&& b),
      (.vor p n, .vor, fun a b => a ||| b), (.vxor p n, .vxor, fun a b => a ^^^ b)] : List (Instr × CoreRow × (Vec → Vec → Vec))) →
    canIssue s p n e.2.1 = true →
    Completes e.1 s (fun t => let c := coreOf (atIssue s p n) p n.val
      let w := wordAt s p n
      (coreOf t p n.val).w = mput c.w (insRd w) (e.2.2 (c.vreg (insRs1 w)) (c.vreg (insRs2 w))) ∧ (coreOf t p n.val).x = c.x ∧
      (coreOf t p n.val).ls = c.ls ∧ (coreOf t p n.val).pc = (coreOf s p n.val).pc + 4 ∧ onlyCore (atIssue s p n) t p n)) ∧
  (∀ (p : PlaneId) (n : CoreId) (s : State), canIssue s p n .vfmaF = true →
    Completes (.vfmaF32 p n) s (fun t => let c := coreOf (atIssue s p n) p n.val
      let w := wordAt s p n
      (coreOf t p n.val).w = mput c.w (insRd w) (vfma (c.vreg (insRs1 w)) (c.vreg (insRs2 w)) (c.vreg (insRd w))) ∧
      onlyCore (atIssue s p n) t p n)) ∧
  (∀ (p : PlaneId) (n : CoreId) (s : State), canIssue s p n .vsplat = true →
    Completes (.vsplat p n) s (fun t => let c := coreOf (atIssue s p n) p n.val
      (coreOf t p n.val).w = mput c.w (insRd (wordAt s p n)) (ofLanes 32 (List.replicate 32 ((rs1Of s p n).toNat % 2 ^ 32))) ∧
      onlyCore (atIssue s p n) t p n)) ∧
  (∀ (p : PlaneId) (n : CoreId) (s : State), canIssue s p n .vext = true →
    Completes (.vext p n) s (fun t => gaveX s t p n (BitVec.ofNat 64 (lane 64 ((coreOf (atIssue s p n) p n.val).vreg (insRs1 (wordAt s p n)))
      ((rs2Of s p n).toNat % 16))) ∧ onlyCore (atIssue s p n) t p n)) ∧
  (∀ (p : PlaneId) (n : CoreId) (s : State), canIssue s p n .vcvtTo = true →
    Completes (.vcvtTo p n) s (fun t => let c := coreOf (atIssue s p n) p n.val
      let r := vcvtTo (insF7 (wordAt s p n)) ((mgetD c.csr 0x7C1 0).getLsbD 0) (c.vreg (insRs1 (wordAt s p n)))
      (coreOf t p n.val).w = mput c.w (insRd (wordAt s p n)) r.1 ∧
      mgetD (coreOf t p n.val).csr 0x7C2 0 = mgetD c.csr 0x7C2 0 ||| BitVec.ofNat 64 r.2 ∧ onlyCore (atIssue s p n) t p n)) ∧
  (∀ (p : PlaneId) (n : CoreId) (s : State), canIssue s p n .vcvtFrom = true →
    Completes (.vcvtFrom p n) s (fun t => let c := coreOf (atIssue s p n) p n.val
      (coreOf t p n.val).w = mput c.w (insRd (wordAt s p n)) (vcvtFrom (insF7 (wordAt s p n) - 0x40) (c.vreg (insRs1 (wordAt s p n)))) ∧
      onlyCore (atIssue s p n) t p n)) ∧
  (∀ (k : Nat) (a b : Vec) (i : Nat), (k = 8 ∨ k = 16 ∨ k = 32) → i < 1024 / k →
    lane k (vaddLanes k a b) i = (lane k a i + lane k b i) % 2 ^ k)

/-- Vector loads and stores (R187, R191, R192): VLD and VST move 128 aligned bytes of the local store; SPLD and SPST leave an operation on the
scratchpad, that of SPLD in the core's next turn; a VLD at an address that is not a multiple of 128 traps with cause 4. -/
def Obligations.VectorMemory : Prop :=
  (∀ (p : PlaneId) (n : CoreId) (s : State), canIssue s p n .vld = true →
    (rs1Of s p n + immI (wordAt s p n)).toNat % 128 = 0 → (rs1Of s p n + immI (wordAt s p n)).toNat + 128 ≤ 0x40000 →
    Completes (.vld p n) s (fun t => let c := coreOf (atIssue s p n) p n.val
      (coreOf t p n.val).w = mput c.w (insRd (wordAt s p n)) (BitVec.ofNat 1024 (ofBytes
        (lsRead (atIssue s p n) p n.val (rs1Of s p n + immI (wordAt s p n)).toNat 128))) ∧ (coreOf t p n.val).x = c.x ∧
      onlyCore (atIssue s p n) t p n)) ∧
  (∀ (p : PlaneId) (n : CoreId) (s : State), canIssue s p n .vst = true →
    (rs1Of s p n + immS (wordAt s p n)).toNat % 128 = 0 → (rs1Of s p n + immS (wordAt s p n)).toNat + 128 ≤ 0x40000 →
    Completes (.vst p n) s (fun t => let c := coreOf (atIssue s p n) p n.val
      (coreOf t p n.val).ls = memPuts c.ls (rs1Of s p n + immS (wordAt s p n)).toNat (bytesOf 128 (c.vreg (insRs2 (wordAt s p n))).toNat) ∧
      (coreOf t p n.val).x = c.x ∧ (coreOf t p n.val).w = c.w ∧ onlyCore (atIssue s p n) t p n)) ∧
  (∀ (p : PlaneId) (n : CoreId) (s : State), canIssue s p n .spld = true → spOk (atIssue s p n) p (rs1Of s p n).toNat = true →
    poisonedAt (atIssue s p n) p (rs1Of s p n).toNat 128 = false → memArmed (atIssue s p n) p = false →
    Completes (.spld p n) s (fun t => let c := coreOf (atIssue s p n) p n.val
      let turn := (spTurn p n.val (issueCyc s p n) (atIssue s p n)).1
      (∃ o, (coreOf t p n.val).ops.getLast? = some o ∧ o.kind = opSpld ∧ o.rd = insRd (wordAt s p n) ∧ o.a = (rs1Of s p n).toNat ∧ o.b = turn) ∧
      (coreOf t p n.val).pc = (coreOf s p n.val).pc + 4 ∧ (coreOf t p n.val).x = c.x ∧ onlyCore (atIssue s p n) t p n)) ∧
  (∀ (p : PlaneId) (n : CoreId) (s : State), canIssue s p n .spst = true → spOk (atIssue s p n) p (rs1Of s p n).toNat = true →
    Completes (.spst p n) s (fun t => let c := coreOf (atIssue s p n) p n.val
      (∃ o, (coreOf t p n.val).ops.getLast? = some o ∧ o.kind = opSpst ∧ o.a = (rs1Of s p n).toNat ∧
        o.params = bytesOf 128 (c.vreg (insRs2 (wordAt s p n))).toNat) ∧
      (coreOf t p n.val).pc = (coreOf s p n.val).pc + 4 ∧ (coreOf t p n.val).x = c.x ∧ onlyCore (atIssue s p n) t p n)) ∧
  (∀ (p : PlaneId) (n : CoreId) (s : State), canIssue s p n .vld = true → (rs1Of s p n + immI (wordAt s p n)).toNat % 128 ≠ 0 →
    mgetD (coreOf (atIssue s p n) p n.val).csr 0x305 0 ≠ 0 →
    Completes (.vld p n) s (fun t => mgetD (coreOf t p n.val).csr 0x342 0 = 4))

/-- Transfers, contexts and chunks from a core (R196, R205 to R215), where its checks pass: XFER adds a transfer, CBIND binds the context that
its block describes and returns its handle, CUNBIND frees a context whose chunks are RELEASED and no other, CFEED adds a feed, CCLOSE asks the
FILLING chunk to close, CSEND and CSTORE add a chunk's first copy, CRELEASE frees a SEALED chunk with nothing to send, CSTAT returns the
chunk's state. CSTAT of a context that is not the core's returns NOT_MINE. -/
def Obligations.ContextInstructions : Prop :=
  (∀ (p : PlaneId) (n : CoreId) (s : State), canIssue s p n .xfer = true → lsArg (rs1Of s p n).toNat 32 = true →
    (let l := lsRead (atIssue s p n) p n.val (rs1Of s p n).toNat 32
     xferCode (atIssue s p n) p n.val l (xferOf l (issueCyc s p n)) = sOk) →
    Completes (.xfer p n) s (fun t => gaveX s t p n (statusVal sOk 0) ∧ onlyCore (atIssue s p n) t p n ∧
      (coreOf t p n.val).xfers = (coreOf (atIssue s p n) p n.val).xfers ++
        [xferOf (lsRead (atIssue s p n) p n.val (rs1Of s p n).toNat 32) (issueCyc s p n)])) ∧
  (∀ (p : PlaneId) (n : CoreId) (b : List Byte) (x : Ctx) (s : State), canIssue s p n .cbind = true → lsArg (rs1Of s p n).toNat 128 = true →
    b = lsRead (atIssue s p n) p n.val (rs1Of s p n).toNat 128 →
    ((ctxOf b n.val []).feed = true ∨ lsArg (ofBytes (sliceB b 40 8)) 256 = true) →
    x = ctxOf b n.val (if (ctxOf b n.val []).feed then [] else laneMap (lsRead (atIssue s p n) p n.val (ofBytes (sliceB b 40 8)) 256)) →
    bindCode (atIssue s p n) p b x = sOk →
    Completes (.cbind p n) s (fun t => let slice := ofBytes (sliceB b 4 1)
      let ctx := ofBytes (sliceB b 5 1)
      gaveX s t p n (statusVal sOk (slice + 32 * ctx)) ∧ getCtx t p slice ctx = some x ∧ t.regs = (atIssue s p n).regs)) ∧
  (∀ (p : PlaneId) (n : CoreId) (pos c : Nat) (x : Ctx) (s : State), canIssue s p n .cunbind = true →
    mineCtx (atIssue s p n) p n.val (rs1Of s p n) = some (pos, c, x) → x.chunks.all (fun k => k.st = .released) = true →
    Completes (.cunbind p n) s (fun t => gaveX s t p n (statusVal sOk 0) ∧ getCtx t p pos c = none ∧ t.regs = (atIssue s p n).regs ∧
      (∀ pos' c', ctxKey pos' c' ≠ ctxKey pos c → getCtx t p pos' c' = getCtx (atIssue s p n) p pos' c'))) ∧
  (∀ (p : PlaneId) (n : CoreId) (pos c : Nat) (x : Ctx) (s : State), canIssue s p n .cfeed = true →
    (let u := atIssue s p n
     let a := (rs1Of s p n).toNat
     a % 256 = 0 ∧ memArmed u p = false ∧ mineCtx u p n.val (rs2Of s p n) = some (pos, c, x) ∧ x.feed = true ∧ baseS ≤ a ∧ coreReach u p a 256 = true ∧
       poisonedAt u p a 256 = false ∧ feedCode u p n.val pos c x a (headCell (payloadOf (memRead u p a 256))) = sOk) →
    Completes (.cfeed p n) s (fun t => gaveX s t p n (statusVal sOk 0) ∧ t.regs = (atIssue s p n).regs ∧
      (let h := headCell (payloadOf (memRead (atIssue s p n) p (rs1Of s p n).toNat 256))
       (t.pl p).feeds = ((atIssue s p n).pl p).feeds ++ [⟨n.val, pos, c, h.chunk, h.midx, (rs1Of s p n).toNat⟩]))) ∧
  (∀ (p : PlaneId) (n : CoreId) (pos c : Nat) (x : Ctx) (k : Chunk) (s : State), canIssue s p n .cclose = true →
    mineCtx (atIssue s p n) p n.val (rs1Of s p n) = some (pos, c, x) → x.feed = true → x.filling = some k →
    Completes (.cclose p n) s (fun t => gaveX s t p n (statusVal sOk 0) ∧ t.regs = (atIssue s p n).regs ∧
      (∃ k', (getCtx t p pos c).bind (·.chunk k.num) = some k' ∧ k'.closeReq = true))) ∧
  (∀ (p : PlaneId) (n : CoreId) (pos c : Nat) (x : Ctx) (k : Chunk) (s : State), canIssue s p n .csend = true →
    mineCtx (atIssue s p n) p n.val (rs1Of s p n) = some (pos, c, x) → heldChunk x (rs1Of s p n) = some k → k.copies = [] → k.held = false →
    Completes (.csend p n) s (fun t => gaveX s t p n (statusVal sOk 0) ∧ t.regs = (atIssue s p n).regs ∧
      (∃ k', (getCtx t p pos c).bind (·.chunk k.num) = some k' ∧ k'.copies = [{ dst := .endpoint ((rs2Of s p n).toNat % 65536) 0 }]))) ∧
  (∀ (p : PlaneId) (n : CoreId) (pos c : Nat) (x : Ctx) (k : Chunk) (s : State), canIssue s p n .cstore = true →
    mineCtx (atIssue s p n) p n.val (rs1Of s p n) = some (pos, c, x) → heldChunk x (rs1Of s p n) = some k → k.copies = [] →
    (k.held = false ∨ (k.fail = 0 ∧ k.st ≠ .failed)) →
    keyHoldsRegion (atIssue s p n) p (rs2Of s p n).toNat = false → (rs2Of s p n).toNat % 256 = 0 →
    sideOk (atIssue s p n) p 2 (rs2Of s p n).toNat (256 * x.resCells) = true →
    Completes (.cstore p n) s (fun t => gaveX s t p n (statusVal sOk 0) ∧ t.regs = (atIssue s p n).regs ∧
      (∃ k', (getCtx t p pos c).bind (·.chunk k.num) = some k' ∧ k'.copies = [{ dst := .mem (rs2Of s p n).toNat 0 }]))) ∧
  (∀ (p : PlaneId) (n : CoreId) (pos c : Nat) (x : Ctx) (k : Chunk) (s : State), canIssue s p n .crelease = true →
    mineCtx (atIssue s p n) p n.val (rs1Of s p n) = some (pos, c, x) → heldChunk x (rs1Of s p n) = some k → k.st = .sealed →
    k.copies ≠ [] → k.copies.all (fun y => y.kind = 1 && !y.queued) = true → k.fail = 0 → k.neg = 0 → k.recompNeed = none → k.recompOn = none →
    Completes (.crelease p n) s (fun t => gaveX s t p n (statusVal sOk 0) ∧ t.regs = (atIssue s p n).regs ∧
      (∃ k', (getCtx t p pos c).bind (·.chunk k.num) = some k' ∧ k'.st = .released ∧ k'.result = []))) ∧
  (∀ (p : PlaneId) (n : CoreId) (pos c : Nat) (x : Ctx) (k : Chunk) (s : State), canIssue s p n .cstat = true →
    mineCtx (atIssue s p n) p n.val (rs1Of s p n) = some (pos, c, x) → x.chunk ((rs1Of s p n).toNat / 2 ^ 32) = some k →
    Completes (.cstat p n) s (fun t => gaveX s t p n (statusVal sOk (cstatVal k)) ∧ onlyCore (atIssue s p n) t p n)) ∧
  (∀ (p : PlaneId) (n : CoreId) (s : State), canIssue s p n .cstat = true → mineCtx (atIssue s p n) p n.val (rs1Of s p n) = none →
    Completes (.cstat p n) s (fun t => gaveX s t p n (statusVal sNotMine 0) ∧ onlyCore (atIssue s p n) t p n))

/-- Sync objects, queues, messages, keys and digests from a core (R196, R201, R202, R216 to R220, R233): SADD, SSET, SRD, LARR and KCMD leave
an operation for a later beat, SADD, SSET and SRD for that of the fourth cycle after issue; KCMD of a core without KEY_EN returns STATE; QPOP
brings the next descriptor, stamped, to the local store, or returns EMPTY; QDONE posts the record of the oldest popped descriptor; MSEND issues
one frame to the module it names; KDIG returns the digest. -/
def Obligations.QueueInstructions : Prop :=
  (∀ (p : PlaneId) (n : CoreId) (s : State) (e : Instr × CoreRow × Nat),
    e ∈ ([(.sadd p n, .sadd, opAdd), (.sset p n, .sset, opSet), (.srd p n, .srd, opRd)] : List (Instr × CoreRow × Nat)) →
    canIssue s p n e.2.1 = true →
    Completes e.1 s (fun t => let w := wordAt s p n
      (coreOf t p n.val).ops.getLast? = some { kind := e.2.2, at' := cycleBeat (cyclesPerSlot (atIssue s p n) p) (issueCyc s p n + 4), rd := insRd w
                                               a := (rs1Of s p n).toNat % 4096, b := (rs2Of s p n).toNat % 2 ^ 32 } ∧
      (coreOf t p n.val).pc = (coreOf s p n.val).pc + 4 ∧ (coreOf t p n.val).x = (coreOf (atIssue s p n) p n.val).x ∧
      onlyCore (atIssue s p n) t p n)) ∧
  (∀ (p : PlaneId) (n : CoreId) (s : State), canIssue s p n .larr = true → (rs1Of s p n).toNat < 64 →
    Completes (.larr p n) s (fun t => (∃ o, (coreOf t p n.val).ops.getLast? = some o ∧ o.kind = opArrive ∧ o.a = (rs1Of s p n).toNat ∧
        o.rd = insRd (wordAt s p n)) ∧
      (coreOf t p n.val).pc = (coreOf s p n.val).pc + 4 ∧ onlyCore (atIssue s p n) t p n)) ∧
  (∀ (p : PlaneId) (n : CoreId) (s : State), canIssue s p n .kcmd = true → (atIssue s p n).on (uCCX p n.val) Fld.CCX_CFG_KEY_EN = true →
    lsArg (rs2Of s p n).toNat 64 = true →
    Completes (.kcmd p n) s (fun t => (∃ o, (coreOf t p n.val).ops.getLast? = some o ∧ o.kind = opKey ∧ o.a = (rs1Of s p n).toNat % 8 ∧
        o.params = lsRead (atIssue s p n) p n.val (rs2Of s p n).toNat 64) ∧
      (coreOf t p n.val).pc = (coreOf s p n.val).pc + 4 ∧ onlyCore (atIssue s p n) t p n)) ∧
  (∀ (p : PlaneId) (n : CoreId) (s : State), canIssue s p n .kcmd = true → (atIssue s p n).on (uCCX p n.val) Fld.CCX_CFG_KEY_EN = false →
    Completes (.kcmd p n) s (fun t => gaveX s t p n (statusVal sState 0) ∧ onlyCore (atIssue s p n) t p n)) ∧
  (∀ (p : PlaneId) (n : CoreId) (s : State), canIssue s p n .kdig = true → (rs1Of s p n).toNat % 128 = 0 → (rs1Of s p n).toNat + 128 ≤ 0x40000 →
    Completes (.kdig p n) s (fun t =>
      gaveX s t p n (BitVec.ofNat 64 (descDigest (lsRead (atIssue s p n) p n.val (rs1Of s p n).toNat 128))) ∧ onlyCore (atIssue s p n) t p n)) ∧
  (∀ (p : PlaneId) (n : CoreId) (s : State), canIssue s p n .msend = true → lsArg (rs1Of s p n).toNat 256 = true →
    (((atIssue s p n).pl p).unitFrames.filter (fun f => f.unit = uCCX p n.val)).length < 4 →
    Completes (.msend p n) s (fun t => gaveX s t p n (statusVal sOk 0) ∧ t.regs = (atIssue s p n).regs ∧
      (∃ f, (t.pl p).unitFrames = ((atIssue s p n).pl p).unitFrames ++ [f] ∧ f.dests = [(rs2Of s p n).toNat % 65536] ∧
        f.cells = [payloadOf (lsRead (atIssue s p n) p n.val (rs1Of s p n).toNat 256)]))) ∧
  (∀ (p : PlaneId) (n : CoreId) (g : Nat) (s : State), canIssue s p n .qpop = true → g = (rs1Of s p n).toNat →
    lsArg (rs2Of s p n).toNat 128 = true → servedBy (atIssue s p n) p n.val g = true → grpWaiting (grp (atIssue s p n) p g) = true →
    memArmed (atIssue s p n) p = false →
    Completes (.qpop p n) s (fun t => let x := grp (atIssue s p n) p g
      let d := (popDesc p g (atIssue s p n)).1
      gaveX s t p n (statusVal sOk 0) ∧ (grp t p g).cons = (x.cons + 1) % 65536 ∧ (grp t p g).popped = x.popped ++ [(x.cons, d)] ∧
      (coreOf t p n.val).ls = memPuts (coreOf (atIssue s p n) p n.val).ls (rs2Of s p n).toNat d)) ∧
  (∀ (p : PlaneId) (n : CoreId) (g : Nat) (s : State), canIssue s p n .qpop = true → g = (rs1Of s p n).toNat →
    lsArg (rs2Of s p n).toNat 128 = true → servedBy (atIssue s p n) p n.val g = true → grpWaiting (grp (atIssue s p n) p g) = false →
    Completes (.qpop p n) s (fun t => gaveX s t p n (statusVal sEmpty 0) ∧ onlyCore (atIssue s p n) t p n)) ∧
  (∀ (p : PlaneId) (n : CoreId) (g q : Nat) (d : List Byte) (r : List (Nat × List Byte)) (s : State), canIssue s p n .qdone = true →
    g = (rs1Of s p n).toNat → g < 1024 → lsArg (rs2Of s p n).toNat 128 = true → ((atIssue s p n).pl p).lateCommit = none →
    (let x := grp (atIssue s p n) p g
     x.en = true ∧ x.core = n.val ∧ x.launch = false ∧ x.abandoned = [] ∧ x.popped = (q, d) :: r ∧ compFull x = false ∧
       q = ofBytes (sliceB (lsRead (atIssue s p n) p n.val (rs2Of s p n).toNat 128) 6 2)) →
    Completes (.qdone p n) s (fun t => let x := grp (atIssue s p n) p g
      gaveX s t p n (statusVal sOk 0) ∧ (grp t p g).popped = r ∧ (grp t p g).cprod = (x.cprod + 1) % 65536 ∧
      (grp t p g).dseq = (x.dseq + 1) % 65536 ∧
      (t.pl p).mem = ((memWrite p (ringAddr x.cbase x.cent x.cprod) (lsRead (atIssue s p n) p n.val (rs2Of s p n).toNat 128)
        (atIssue s p n)).pl p).mem))

/-- Waiting instructions of a core (R198, R199), where no wait of an image waits to go on: the core is WAITING for what the operands name, until
the timeout of its operands after the beat of issue, none for all ones; its pc stays at the instruction, and sync objects, memory and groups
stay as they were. -/
def Obligations.WaitInstructions : Prop :=
  ∀ (p : PlaneId) (n : CoreId) (s : State), (coreOf (atIssue s p n) p n.val).again = none →
    (let u := atIssue s p n
     let w := wordAt s p n
     let cyc := issueCyc s p n
     let now := cycleBeat (cyclesPerSlot u p) cyc
     let limit (d : Dword) : Option Nat := if d = BitVec.allOnes 64 then none else some (now + d.toNat)
     let waits (i : Instr) (x : CoreWait) : Prop := Completes i s (fun t => coreSt t p n.val = 2 ∧ (coreOf t p n.val).wait = some x ∧
       (coreOf t p n.val).pc = (coreOf u p n.val).pc ∧ (coreOf t p n.val).x = (coreOf u p n.val).x ∧ (t.pl p).syncs = (u.pl p).syncs ∧
       (t.pl p).mem = (u.pl p).mem ∧ (t.pl p).groups = (u.pl p).groups)
     (canIssue s p n .swait = true → waits (.swait p n) { kind := 1, rd := insRd w, arg := (rs1Of s p n).toNat % 4096
                                                          target := (rs2Of s p n).toNat % 2 ^ 32, at' := now, cyc := cyc
                                                          deadline := limit ((coreOf s p n.val).reg (insRs3 w)) }) ∧
     (canIssue s p n .qwait = true → waits (.qwait p n) { kind := 2, rd := insRd w, deadline := limit (rs1Of s p n), at' := now, cyc := cyc }) ∧
     (canIssue s p n .mrecv = true → lsArg (rs1Of s p n).toNat 256 = true →
       waits (.mrecv p n) { kind := 3, rd := insRd w, arg := (rs1Of s p n).toNat, deadline := limit (rs2Of s p n), at' := now, cyc := cyc }) ∧
     (canIssue s p n .ftwait = true → waits (.ftwait p n) { kind := 4, rd := insRd w, target := (rs1Of s p n).toNat, at' := now, cyc := cyc }) ∧
     (canIssue s p n .xwait = true → waits (.xwait p n) { kind := 5, rd := insRd w, arg := (rs1Of s p n).toNat, at' := now, cyc := cyc
                                                          met := if (coreOf u p n.val).xfers.length ≤ (rs1Of s p n).toNat then some (cyc, 0) else none }))

/-! ### Memory and ports (R259, R260, R267, R268, R272, R284 to R289, R300 to R309) -/

/-- Memory (R259, R260, R267, R272): POISON poisons the granule at PADDR and changes no byte; APPLY sets APPLY_BUSY and changes
neither the partition in force nor memory; its end clears APPLY_BUSY and puts SPM_PART_CFG in force with the banks now active, changing no byte
below the S tier; on a ready target that no running key schedules, a round begins once 3,000 beats have passed since the round before it, and a
patrol step happens once 262,144 beats have passed since the step before it: it changes no byte and moves the pointer one step where no injected
fault waits. -/
def Obligations.MemoryCommands : Prop :=
  (∀ (acc : Accessor) (p : PlaneId) (n : Fin 7) (v : Word) (s : State),
    accepted s acc (tgtUnit p n.val) Fld.FMC_CMD_POISON.key (v ||| Fld.FMC_CMD_POISON.mask) = true →
    Completes (.poison acc p n v) s (fun t =>
      (t.pl p).poison.contains (granuleOf (s.get64 (tgtUnit p n.val) Fld.FMC_PADDR_LO Fld.FMC_PADDR_HI)) = true ∧
      (t.pl p).mem = (s.pl p).mem)) ∧
  (∀ (acc : Accessor) (p : PlaneId) (v : Word) (s : State),
    accepted s acc (pu p .SPM) Fld.SPM_PART_CTL_APPLY.key (v ||| Fld.SPM_PART_CTL_APPLY.mask) = true →
    Completes (.apply acc p v) s (fun t => t.get (pu p .SPM) Fld.SPM_STAT_APPLY_BUSY = 1 ∧ (t.pl p).applyAt = some (s.beats p) ∧
      (t.pl p).part = (s.pl p).part ∧ (t.pl p).mem = (s.pl p).mem)) ∧
  (∀ (p : PlaneId) (s : State), (s.pl p).applyAt ≠ none →
    Completes (.partitionApplyDone p) s (fun t => t.get (pu p .SPM) Fld.SPM_STAT_APPLY_BUSY = 0 ∧ (t.pl p).applyAt = none ∧
      (t.pl p).part = some (s.reg (pu p .SPM) 0x040) ∧ (t.pl p).bankMap = some (formBankMap (banksNext s p)) ∧
      ∀ a, a < baseS → memByte (t.pl p).mem a = memByte (s.pl p).mem a)) ∧
  (∀ (p : PlaneId) (s : State), (s.pl p).applyAt = none → Completes (.partitionApplyDone p) s (fun t => t = s)) ∧
  (∀ (p : PlaneId) (n : Fin 7) (s : State), tgtReady s p n.val = true → mapNames (runningMemMap s p) n.val = false →
    (tgt s p (targetKey s p n.val)).lastRef + 3000 ≤ s.beats p →
    Completes (.ctrlRefresh p n) s (fun t => (tgt t p (targetKey s p n.val)).lastRef = s.beats p ∧ t.regs = s.regs ∧
      (t.pl p).mem = (s.pl p).mem)) ∧
  (∀ (p : PlaneId) (n : Fin 7) (s : State), tgtReady s p n.val = true → s.on (tgtUnit p n.val) Fld.FMC_CFG_PATROL_EN = true →
    mapNames (runningMemMap s p) n.val = false → (tgt s p n.val).lastPatrol + 262144 ≤ s.beats p →
    Completes (.patrolStep p n) s (fun t => (tgt t p n.val).lastPatrol = s.beats p ∧ (memArmed s p = false →
      (t.pl p).mem = (s.pl p).mem ∧ patrolPtr t p n.val = patrolNext s p n.val (patrolPtr s p n.val) % 2 ^ 48)))

/-- The partition signature (R270): what SPM_PART_SIG reads, while the block has power and is not in soft reset, holds KEYB, GQ, REORD, ADAPT,
STAGE and ACTIVE in their places, and bit 31 is 0; a key image whose PART_SIG differs fails its load checks, and a key its arm checks; the
default partition with 64 active banks has 0x4071_0424. -/
def Obligations.PartitionSignature : Prop :=
  ∀ (p : PlaneId) (s : State), s.powered (pu p .SPM) = true → s.on (pu p .SPM) Fld.BLK_STAT_RST_BUSY = false →
    partStage (partNow s p) (spmActive s p) < 64 → spmActive s p ≤ 64 →
    let sig := (readUnit s (pu p .SPM) 0x048).toNat
    (bits sig 2 0 = partKeyb (partNow s p) ∧ bits sig 6 3 = partGq (partNow s p) ∧ bits sig 11 7 = partReord (partNow s p) ∧
      bits sig 17 12 = partAdapt (partNow s p) ∧ bits sig 23 18 = partStage (partNow s p) (spmActive s p) ∧
      bits sig 30 24 = spmActive s p ∧ bits sig 31 31 = 0) ∧
    (∀ b addr len : Nat, le (memRead s p addr len) 0x28 4 ≠ sig → loadFail s p b addr len ≠ none) ∧
    (∀ (b : Nat) (prev : Bool), (bankOfKey s p b).partSig ≠ sig → armFail s p b prev ≠ none) ∧
    (partNow s p = 0x00410424 → spmActive s p = 64 → sig = 0x40710424)

/-- A port's life (R284, R304, R306): PEN makes a disabled port train, and its absence makes it DISABLED without lanes; training that ends
on every lane, none of them bad before, is followed by DISCOVER on all of them; training without a lane ends ABSENT once 165,000,000 beats
have passed; a port in DISCOVER that has heard a HELLO on no lane for more than 262,144 beats is ABSENT; an ABSENT port trains again once
165,000,000 beats have passed. TRAINING_DONE outside TRAINING and ABSENT_RETRY outside ABSENT change nothing. -/
def Obligations.PortStates : Prop :=
  (∀ (acc : Accessor) (p : PlaneId) (n : PortId) (v : Word) (s : State), accepted s acc (uFPT p n.val) 0x040 v = true →
    upperLane s p n.val = false → portPen s p n.val = false → v.getLsbD 0 = true →
    Completes (.pen acc p n v) s (fun t => t.get (uFPT p n.val) Fld.FPT_CFG_PEN = 1 ∧ portState t p n.val = 1 ∧
      t.get (uFPT p n.val) Fld.FPT_STAT_LANE_ACT = 0)) ∧
  (∀ (acc : Accessor) (p : PlaneId) (n : PortId) (v : Word) (s : State), accepted s acc (uFPT p n.val) 0x040 v = true →
    upperLane s p n.val = false → portPen s p n.val = true → v.getLsbD 0 = false →
    upperLane (s.put (uFPT p n.val) Fld.FPT_CFG_PEN 0) p n.val = false →
    Completes (.pen acc p n v) s (fun t => t.get (uFPT p n.val) Fld.FPT_CFG_PEN = 0 ∧ portState t p n.val = 0 ∧
      t.get (uFPT p n.val) Fld.FPT_STAT_LANE_ACT = 0)) ∧
  (∀ (p : PlaneId) (n : PortId) (s : State), portPen s p n.val = true → portState s p n.val = 1 → (linkOf s p n.val).bad = [] →
    portWidth s p n.val ≤ 4 →
    Completes (.trainingDone p n 15) s (fun t => portState t p n.val = 2 ∧ activeOffs t p n.val = List.range (portWidth s p n.val) ∧
      t.get (uFPT p n.val) Fld.FPT_LANE_LOCK = 1 ∧ ∀ q, q ≠ p → t.pl q = s.pl q)) ∧
  (∀ (p : PlaneId) (n : PortId) (s : State), portPen s p n.val = true → portState s p n.val = 1 →
    (linkOf s p n.val).since + 165000000 ≤ s.beats p →
    Completes (.trainingDone p n 0) s (fun t => portState t p n.val = 5 ∧ (linkOf t p n.val).since = s.beats p)) ∧
  (∀ (p : PlaneId) (n : PortId) (m : Fin 16) (s : State), portState s p n.val ≠ 1 → Completes (.trainingDone p n m) s (fun t => t = s)) ∧
  (∀ (p : PlaneId) (n : PortId) (s : State), portPen s p n.val = true → portState s p n.val = 2 →
    (linkOf s p n.val).since + 262144 < s.beats p → activeOffs s p n.val ≠ [] →
    (activeOffs s p n.val).all (fun i => !(laneOf s p (n.val + i)).heard) = true →
    Completes (.discoverTimeout p n) s (fun t => portState t p n.val = 5 ∧ t.get (uFPT p n.val) Fld.FPT_STAT_LANE_ACT = 0)) ∧
  (∀ (p : PlaneId) (n : PortId) (s : State), portPen s p n.val = true → portState s p n.val = 5 →
    (linkOf s p n.val).since + 165000000 ≤ s.beats p →
    Completes (.absentRetry p n) s (fun t => portState t p n.val = 1 ∧ t.get (uFPT p n.val) Fld.FPT_STAT_LANE_ACT = 0)) ∧
  (∀ (p : PlaneId) (n : PortId) (s : State), portState s p n.val ≠ 5 → Completes (.absentRetry p n) s (fun t => t = s))

/-- Lanes that leave (R285 to R287): a fault on a lane of a port that is UP makes it NARROWING, marks the lane bad and sets a switch time of
this end at least 3,300 beats ahead; a switch time is the first multiple of 1,280 beats not less than 3,300 beats ahead; a NARROW from the far
end to a port that is UP is acknowledged on its lane and waits for its T, the lanes staying active; once FT has reached the T of the one
narrowing that waits, and lanes remain, the lanes of its mask stop and the port is UP; NARROW_SWITCH with every T ahead, and a NARROW_ACK,
change nothing. -/
def Obligations.PortNarrows : Prop :=
  (∀ (p : PlaneId) (lane n : PortId) (s : State), s.powered (uFPT p lane.val) = true → portOf s p lane.val = some n.val →
    portState s p n.val = 3 → (linkOf s p n.val).bad.contains (lane.val - n.val) = false →
    Completes (.laneFault p lane true) s (fun t => portState t p n.val = 7 ∧
      (linkOf t p n.val).bad = (linkOf s p n.val).bad ++ [lane.val - n.val] ∧
      ∃ x ∈ (linkOf t p n.val).narrow, x.own = true ∧ s.ft p + 3300 ≤ x.t)) ∧
  (∀ d : Nat, switchTime d % 1280 = 0 ∧ d + 3300 ≤ switchTime d ∧ switchTime d < d + 3300 + 1280) ∧
  (∀ (p : PlaneId) (lane n : PortId) (mask : Fin 16) (at' : Dword) (s : State), portOf s p lane.val = some n.val →
    portState s p n.val = 3 → (linkOf s p n.val).narrow = [] → (activeOffs s p n.val).filter (bit mask.val) ≠ [] → s.ft p < at'.toNat →
    Completes (.narrow p lane mask at') s (fun t => portState t p n.val = 7 ∧
      (linkOf t p n.val).narrow = [⟨mask.val, at'.toNat, false⟩] ∧
      (laneOf t p lane.val).tx = (laneOf s p lane.val).tx ++ [{ kind := 4, body := narrowBody 4 mask.val at'.toNat, due := s.ft p }] ∧
      activeOffs t p n.val = activeOffs s p n.val)) ∧
  (∀ (p : PlaneId) (lane : PortId) (mask : Fin 16) (at' : Dword) (s : State), Completes (.narrowAck p lane mask at') s (fun t => t = s)) ∧
  (∀ (p : PlaneId) (n : PortId) (x : Narrowing) (s : State), portPen s p n.val = true → portState s p n.val = 7 →
    (linkOf s p n.val).narrow = [x] → x.t ≤ s.ft p → (activeOffs s p n.val).filter (fun i => !(offsOf x.mask).contains i) ≠ [] →
    Completes (.narrowSwitch p n) s (fun t => portState t p n.val = 3 ∧ (linkOf t p n.val).narrow = [] ∧
      activeOffs t p n.val = (activeOffs s p n.val).filter (fun i => !(offsOf x.mask).contains i))) ∧
  (∀ (p : PlaneId) (n : PortId) (s : State), (linkOf s p n.val).narrow.all (fun x => decide (s.ft p < x.t)) = true →
    Completes (.narrowSwitch p n) s (fun t => t = s))

/-- Link control messages (R289, R300 to R306): on a port that talks or trains a probe is answered with its departure time, and an echo sets
RTT to the time since the probe's departure less the time that the echo was held (a free value, log 46), rounded up to whole beats and held at
0xFFFF; an active lane's HELLO of an interval of 65,536 beats is queued once and the lane's HELLO
number advances; a HELLO that arrives on an active lane is kept in FPT_HELLO of the lane's page; a matching one brings a port of one lane from
DISCOVER to UP where the round trip fits, and one that differs brings a port in DISCOVER to QUARANTINE with its cause. -/
def Obligations.LinkMessages : Prop :=
  (∀ (p : PlaneId) (lane n : PortId) (dep : Dword) (s : State), portOf s p lane.val = some n.val →
    (portTalks s p n.val = true ∨ portState s p n.val = 1) → Completes (.rttProbe p lane dep) s (fun t => (laneOf t p lane.val).tx =
      (laneOf s p lane.val).tx ++ [{ kind := 6, body := ctlBytes 6 (bytesOf 8 dep.toNat), due := s.ft p }] ∧ t.regs = s.regs)) ∧
  (∀ (p : PlaneId) (lane n : PortId) (dep : Dword) (sub : Fin 64) (s : State), portOf s p lane.val = some n.val →
    (portTalks s p n.val = true ∨ portState s p n.val = 1) → Completes (.rttEcho p lane dep sub) s (fun t =>
      t.get (uFPT p n.val) Fld.FPT_STAT_RTT = min (rttBeats p lane.val (64 * s.ft p + sub.val - 64 * dep.toNat)) 0xFFFF ∧ t.planes = s.planes)) ∧
  (∀ (p : PlaneId) (lane n : PortId) (s : State), portOf s p lane.val = some n.val → portTalks s p n.val = true →
    (actLanes s p n.val).contains lane.val = true → (laneOf s p lane.val).helloIn ≠ some (s.ft p / 65536) →
    Completes (.helloSend p lane) s (fun t => (laneOf t p lane.val).hseq = ((laneOf s p lane.val).hseq + 1) % 2 ^ 32 ∧
      (laneOf t p lane.val).helloIn = some (s.ft p / 65536) ∧ t.regs = s.regs ∧ (laneOf t p lane.val).tx =
        (laneOf s p lane.val).tx ++ [{ kind := 1, body := helloBody s p n.val lane.val, due := 65536 * (s.ft p / 65536) }])) ∧
  (∀ (p : PlaneId) (lane : PortId) (s : State), (laneOf s p lane.val).helloIn = some (s.ft p / 65536) →
    Completes (.helloSend p lane) s (fun t => t = s)) ∧
  (∀ (p : PlaneId) (lane n : PortId) (msg : BitVec 384) (s : State), portOf s p lane.val = some n.val → portTalks s p n.val = true →
    msg.toNat % 65536 = 0x0101 → (actLanes s p n.val).contains lane.val = true →
    Completes (.hello p lane msg) s (fun t => ∀ k : Fin 12,
      t.get (uFPT p lane.val) (Fld.FPT_HELLO_DATA.at k.val) = msg.toNat / 2 ^ (32 * k.val) % 2 ^ 32)) ∧
  (∀ (p : PlaneId) (n : PortId) (msg : BitVec 384) (s : State), portOf s p n.val = some n.val → portState s p n.val = 2 →
    msg.toNat % 65536 = 0x0101 → actLanes s p n.val = [n.val] → helloCause s p n.val n.val (bytesOf 48 msg.toNat) = 0 →
    latencyOk s p n.val = true → Completes (.hello p n msg) s (fun t => portState t p n.val = 3)) ∧
  (∀ (p : PlaneId) (n : PortId) (msg : BitVec 384) (s : State), portOf s p n.val = some n.val → portState s p n.val = 2 →
    msg.toNat % 65536 = 0x0101 → (actLanes s p n.val).contains n.val = true → helloCause s p n.val n.val (bytesOf 48 msg.toNat) ≠ 0 →
    Completes (.hello p n msg) s (fun t => portState t p n.val = 4 ∧
      t.get (uFPT p n.val) Fld.FPT_STAT_QCAUSE = helloCause s p n.val n.val (bytesOf 48 msg.toNat)))

/-- Link units (R280, R282, R283, R288, R290, R307): a unit on a lane of no port changes no plane and puts nothing out; a unit whose LCRC fails
on a lane of a port that is UP changes neither memory nor arrived cells nor frames; a good unit whose cell is new, scheduled, consistent and next
in sequence is placed SLAT slots after the slot it was sent in, where that slot is yet to begin and nothing stands in it; a port in DISCOVER
with one active lane sends one unit without a cell in a slot, at the offset of its earlier units, and no second one. -/
def Obligations.LinkUnits : Prop :=
  (∀ (p : PlaneId) (lane : PortId) (u : BitVec 2400) (ce ue : Fin 256) (sub : Fin 64) (s : State), portOf s p lane.val = none →
    Completes (.linkUnitReceive p lane u ce ue sub) s (fun t => t.planes = s.planes ∧ t.out = s.out)) ∧
  (∀ (p : PlaneId) (lane n : PortId) (u : BitVec 2400) (sub : Fin 64) (s : State), s.powered (uFPT p lane.val) = true →
    portOf s p lane.val = some n.val → portState s p n.val = 3 → (actLanes s p n.val).contains lane.val = true →
    (linkOf s p n.val).bad = [] → (laneOf s p lane.val).ues = [] →
    (u.extractLsb' 2384 16).toNat ≠ crc16 (bytesOf 26 (u.extractLsb' 2176 208).toNat) →
    Completes (.linkUnitReceive p lane u 0 0 sub) s (fun t => (t.pl p).mem = (s.pl p).mem ∧ (t.fab p).arrived = (s.fab p).arrived ∧
      (t.fab p).frames = (s.fab p).frames)) ∧
  (∀ (p : PlaneId) (n : PortId) (u : BitVec 2400) (sub : Fin 64) (w : Lcw) (s : State), s.powered (uFPT p n.val) = true →
    portOf s p n.val = some n.val → portState s p n.val = 3 → (actLanes s p n.val).contains n.val = true → (linkOf s p n.val).bad = [] →
    (laneOf s p n.val).ues = [] → (laneOf s p n.val).parts = [] →
    (u.extractLsb' 2384 16).toNat = crc16 (bytesOf 26 (u.extractLsb' 2176 208).toNat) → lcwOf (u.extractLsb' 2176 208).toNat = w →
    w.cvalid = true → w.ack = none → w.nak = none → w.ccum = none → (linkOf s p n.val).rxSeq = w.seq → w.pend = false → w.replay = false →
    w.sched = true → ccrcOf (u.extractLsb' 0 2176) = w.ccrc → (s.rp (uFPT p n.val)).corrupt = none →
    (readCell (u.extractLsb' 0 2176) true).consistent = true → fullSlot s p n.val w.slot % 4 ≠ 0 →
    s.ft p < (fullSlot s p n.val w.slot + slatOf s p n.val) * 20 →
    presented s p n.val (fullSlot s p n.val w.slot + slatOf s p n.val) = none →
    Completes (.linkUnitReceive p n u 0 0 sub) s (fun t => (t.pl p).schedIn = (s.pl p).schedIn ++
      [⟨n.val, fullSlot s p n.val w.slot + slatOf s p n.val, some (readCell (u.extractLsb' 0 2176) true)⟩])) ∧
  (∀ (p : PlaneId) (n : PortId) (sub : Fin 64) (s : State), portPen s p n.val = true → portState s p n.val = 2 →
    actLanes s p n.val = [n.val] → (linkOf s p n.val).sentSlot ≠ some (s.ft p / 20) →
    (linkOf s p n.val).offset.all (fun x => decide (x = 64 * (s.ft p % 20) + sub.val)) = true → slotBank s p = none → s.powered (uFPT p n.val) = true →
    Completes (.linkSlotSend p n sub) s (fun t => (∃ u, t.out = s.out ++ [.linkUnit p n u] ∧ u.extractLsb' 0 2176 = 0 ∧
        (lcwOf (u.extractLsb' 2176 208).toNat).cvalid = false) ∧
      (linkOf t p n.val).sentSlot = some (s.ft p / 20))) ∧
  (∀ (p : PlaneId) (n : PortId) (sub : Fin 64) (s : State), (linkOf s p n.val).sentSlot = some (s.ft p / 20) →
    Completes (.linkSlotSend p n sub) s (fun t => t = s))

/-! ### Routing and the switch (R320, R326 to R336, R340, R342, R353 to R366) -/

/-- The drain (R331 to R336): an accepted START makes the plane ARMED and arms its resume time; HOLD_FT brings ARMED to HOLDING from the beat
after the START on; an accepted COMMIT makes it COMMITTED, or RUN where the resume time was reached earlier in its beat, and keeps the frames
held; an accepted RESUME arms the resume time and leaves it COMMITTED; the armed resume time brings COMMITTED to RUN and keeps the frames held;
at or after it a HOLDING plane, and after it a DRAINED one, becomes ISOLATED with class U fault 7 in a free log and no frame held, and a DRAINED
plane at it is marked so that the end of the beat isolates it. Before these times HOLD_FT and RESUME_TIME change nothing. -/
def Obligations.RoutingDrain : Prop :=
  (∀ (acc : Accessor) (p : PlaneId) (v : Word) (s : State),
    accepted s acc (pu p .RTE) Fld.RTE_CTL_START.key (v ||| Fld.RTE_CTL_START.mask) = true →
    Completes (.start acc p v) s (fun t => rteState t p = 2 ∧ held t p = false ∧ (t.fab p).resume = true ∧ (t.fab p).startAt = s.ft p)) ∧
  (∀ (acc : Accessor) (p : PlaneId) (v : Word) (s : State),
    accepted s acc (pu p .RTE) Fld.RTE_CTL_COMMIT.key (v ||| Fld.RTE_CTL_COMMIT.mask) = true →
    Completes (.routeCommit acc p v) s (fun t => (t.fab p).frames = (s.fab p).frames ∧
      ((s.fab p).resumeHit = false → rteState t p = 5 ∧ held t p = true) ∧
      ((s.fab p).resumeHit = true → rteState t p = 1 ∧ held t p = false ∧ (t.fab p).resume = false))) ∧
  (∀ (acc : Accessor) (p : PlaneId) (v : Word) (s : State),
    accepted s acc (pu p .RTE) Fld.RTE_CTL_RESUME.key (v ||| Fld.RTE_CTL_RESUME.mask) = true →
    Completes (.routeResume acc p v) s (fun t => rteState t p = 5 ∧ (t.fab p).resume = true)) ∧
  (∀ (p : PlaneId) (s : State), rteState s p = 2 → holdFt s p ≤ s.ft p → (s.fab p).startAt < s.ft p →
    Completes (.holdFt p) s (fun t => rteState t p = 3 ∧ held t p = true ∧ t.planes = s.planes)) ∧
  (∀ (p : PlaneId) (s : State), (rteState s p ≠ 2 ∨ s.ft p < holdFt s p) → Completes (.holdFt p) s (fun t => t = s)) ∧
  (∀ (p : PlaneId) (s : State), (s.fab p).resume = true → resumeFt s p ≤ s.ft p → rteState s p = 5 →
    Completes (.resumeTime p) s (fun t => rteState t p = 1 ∧ (t.fab p).resume = false ∧ (t.fab p).frames = (s.fab p).frames)) ∧
  (∀ (p : PlaneId) (s : State), (s.fab p).resume = true → resumeFt s p ≤ s.ft p →
    (rteState s p = 3 ∨ (rteState s p = 4 ∧ resumeFt s p < s.ft p)) → s.get (pu p .RTE) Fld.BLK_ERR_CLASS = 0 →
    detectedNow s (pu p .RTE) = [] →
    Completes (.resumeTime p) s (fun t => rteState t p = 0 ∧ (t.fab p).frames = [] ∧ (t.fab p).bufs = [] ∧ (t.fab p).queues = [] ∧
      t.get (pu p .RTE) Fld.BLK_ERR_CLASS = 2 ∧ t.get (pu p .RTE) Fld.BLK_ERR_CLASS_SOURCE = 7)) ∧
  (∀ (p : PlaneId) (s : State), (s.fab p).resume = true → resumeFt s p = s.ft p → rteState s p = 4 →
    Completes (.resumeTime p) s (fun t => (t.fab p).resumeHit = true ∧ t.regs = s.regs)) ∧
  (∀ (p : PlaneId) (s : State), ((s.fab p).resume = false ∨ s.ft p < resumeFt s p) → Completes (.resumeTime p) s (fun t => t = s))

/-- Writes that set up the switch (R353, R354, R358, R362 to R366): POL_SEL loads the staging copy of a policer, APPLY makes the staged
parameters its next ones and touches no other policer; FLIP asks for the other epoch and leaves CUR and the tables; SWC_TBL_DATA writes the one
selected word; SWC_SEED_HI restarts the draw counter; a write of a port's burst keeps its rate and caps its count at the new burst; a write of a
used queue's QSH_Q_CFG sets QUANTUM, STRICT and the shaper's enable; CLRMAX restarts the maxima and keeps LASTDELAY. -/
def Obligations.SwitchWrites : Prop :=
  (∀ (acc : Accessor) (p : PlaneId) (v : Word) (s : State), accepted s acc (pu p .POL) 0x040 v = true →
    Completes (.polSel acc p v) s (fun t => let x := polSel t p
      let c := (x.next.map (·.1)).getD x.cur
      t.get (pu p .POL) Fld.POL_SEL_POLICER = fieldGet v Fld.POL_SEL_POLICER ∧ t.get (pu p .POL) Fld.POL_CIR = c.cir % 2 ^ Fld.POL_CIR.width ∧
      t.get (pu p .POL) Fld.POL_PIR = c.pir % 2 ^ Fld.POL_PIR.width ∧ t.get (pu p .POL) Fld.POL_CBS = c.cbs % 2 ^ Fld.POL_CBS.width ∧
      t.get (pu p .POL) Fld.POL_PBS = c.pbs % 2 ^ Fld.POL_PBS.width ∧ t.get (pu p .POL) Fld.POL_CFG_RED_DROP = b2n c.redDrop ∧
      t.planes = s.planes)) ∧
  (∀ (acc : Accessor) (p : PlaneId) (v : Word) (s : State),
    accepted s acc (pu p .POL) Fld.POL_CTL_APPLY.key (v ||| Fld.POL_CTL_APPLY.mask) = true →
    Completes (.polApply acc p v) s (fun t => (mgetD (t.fab p).pols (s.get (pu p .POL) Fld.POL_SEL_POLICER) {}).next =
        some ({ cir := s.get (pu p .POL) Fld.POL_CIR, pir := s.get (pu p .POL) Fld.POL_PIR, cbs := s.get (pu p .POL) Fld.POL_CBS
                pbs := s.get (pu p .POL) Fld.POL_PBS, redDrop := s.on (pu p .POL) Fld.POL_CFG_RED_DROP }, s.beats p) ∧
      ∀ k, k ≠ s.get (pu p .POL) Fld.POL_SEL_POLICER → mget (t.fab p).pols k = mget (s.fab p).pols k)) ∧
  (∀ (acc : Accessor) (p : PlaneId) (v : Word) (s : State),
    accepted s acc (pu p .SWC) Fld.SWC_EPOCH_FLIP.key (v ||| Fld.SWC_EPOCH_FLIP.mask) = true →
    Completes (.flip acc p v) s (fun t => (t.fab p).flip = some (1 - curBank s p) ∧ curBank t p = curBank s p ∧
      (t.fab p).tbl = (s.fab p).tbl)) ∧
  (∀ (acc : Accessor) (p : PlaneId) (v : Word) (s : State), accepted s acc (pu p .SWC) 0x084 v = true →
    Completes (.swcTblData acc p v) s (fun t => let (a, b, i, w) := tblSel s p
      tblWord t p b a i w = v.toNat ∧ ∀ k, k ≠ tblKey b a i w → mget (t.fab p).tbl k = mget (s.fab p).tbl k)) ∧
  (∀ (acc : Accessor) (p : PlaneId) (v : Word) (s : State), accepted s acc (pu p .SWC) 0x07C v = true →
    Completes (.swcSeedHi acc p v) s (fun t => t.reg (pu p .SWC) 0x07C = v ∧ drawCount t p = 0 ∧ t.planes = s.planes)) ∧
  (∀ (acc : Accessor) (p : PlaneId) (v : Word) (s : State), accepted s acc (pu p .QSH) 0x06C v = true →
    Completes (.shaperWrite acc p .portBurst v) s (fun t => let n := qshSel s p / 8
      (pState t p n).shaper.burst = v.toNat % 2 ^ 20 ∧ (pState t p n).shaper.rate = (pState s p n).shaper.rate ∧
      (pState t p n).shaper.tok ≤ ((v.toNat % 2 ^ 20 * 422400 : Nat) : Int) ∧ (t.fab p).qs = (s.fab p).qs)) ∧
  (∀ (acc : Accessor) (p : PlaneId) (v : Word) (s : State), accepted s acc (pu p .QSH) 0x044 v = true →
    queueUsed s p (qshSel s p / 8) (qshSel s p % 8) = true →
    Completes (.shaperWrite acc p .queueCfg v) s (fun t => let k := qshSel s p
      (qState t p k).quantum = v.toNat % 4096 ∧ qStrict t p k = v.getLsbD 12 ∧ (qState t p k).shaper.en = v.getLsbD 13 ∧
      (t.fab p).ps = (s.fab p).ps)) ∧
  (∀ (acc : Accessor) (p : PlaneId) (v : Word) (s : State),
    accepted s acc (pu p .QSH) Fld.QSH_CMD_CLRMAX.key (v ||| Fld.QSH_CMD_CLRMAX.mask) = true →
    Completes (.clrmax acc p v) s (fun t => let k := qshSel s p
      (qState t p k).maxDepth = depthOf s p k ∧ (qState t p k).maxDelay = 0 ∧ (qState t p k).lastDelay = (qState s p k).lastDelay))

/-- Frames of the switch (R327, R328, R340, R342, R343, R360, R361): a single-cell CONTROL frame for this module from a torus port, and a CONTROL frame
for it from a unit, is handed to its unit in an empty switch core and leaves no frame behind; the frame of a unit other than the latch unit waits
while injection is held; copies past their deadline leave their queue, the others and the other queues stay; the auditor visits one cell a beat,
frees a leaked one and counts it, and leaves the others; a port's one stream that has been open for ROB_OPEN beats and holds a frame has an EXP;
its one frame that has been held for ROB_WAIT beats goes to the queue of its TC and counts as forced; streams that have held no frame for
ROB_WAIT beats close and the others stay. -/
def Obligations.SwitchEvents : Prop :=
  (∀ (p : PlaneId) (s : State), (s.fab p).arrived = [] → Completes (.frameAdmit p) s (fun t => t = s)) ∧
  (∀ (p : PlaneId) (n : PortId) (c : Cell) (s : State), (s.fab p).arrived = [(n.val, c)] → c.pos = 3 → c.flen = 1 → c.cls = 1 →
    c.dest = selfAddr s p → portRole s p n.val = 2 → ownerOf s p n.val ≠ 0 → rteState s p = 1 → (s.fab p).bufs = [] → (s.fab p).frames = [] →
    (s.fab p).queues = [] → (s.fab p).robs = [] → (s.fab p).cands = [] → mget (linkOf s p n.val).asm c.vc = none → 1 ≤ maxFlen s p → 1 ≤ grantOf s p n.val c.vc →
    1 ≤ bufCells s p → bit (tblWord s p (curBank s p) 2 (4 * n.val + c.vc / 2 % 4) 0) 12 = false → (s.rp (pu p .SWC)).corrupt ≠ some 3 →
    Completes (.frameAdmit p) s (fun t => t.out = s.out ++ [.handOver p c.src c.tag [c.data]] ∧ (t.fab p).arrived = [] ∧ (t.fab p).bufs = [] ∧
      (t.fab p).frames = [] ∧ (t.fab p).queues = [])) ∧
  (∀ (p : PlaneId) (u : Nat) (f : UnitFrame) (s : State), (s.pl p).unitFrames.find? (·.unit = u) = some f → held s p = true → u ≠ pu p .LAT →
    Completes (.unitFrameAdmit p u) s (fun t => t = s)) ∧
  (∀ (p : PlaneId) (u : Nat) (f : UnitFrame) (s : State), (s.pl p).unitFrames.find? (·.unit = u) = some f → f.cls = 1 →
    f.dests = [selfAddr s p] → f.cells.length ≤ maxFlen s p → rteState s p = 1 → (s.fab p).bufs = [] → (s.fab p).frames = [] →
    (s.fab p).queues = [] → (s.fab p).robs = [] → (s.fab p).cands = [] → bufResv s p + f.cells.length ≤ bufCells s p →
    Completes (.unitFrameAdmit p u) s (fun t => t.out = s.out ++ [.handOver p (selfAddr s p) f.tag f.cells] ∧
      (t.pl p).unitFrames = (s.pl p).unitFrames.erase f ∧ (t.fab p).frames = [])) ∧
  (∀ (p : PlaneId) (k : Fin 1024) (s : State),
    Completes (.copyAgeExpire p k) s (fun t => queueOf t p k.val = (queueOf s p k.val).filter (fun c => decide (s.ft p ≤ c.deadline)) ∧
      ∀ j, j ≠ k.val → queueOf t p j = queueOf s p j)) ∧
  (∀ (p : PlaneId) (b : BufCell) (s : State), s.on (pu p .SWC) Fld.SWC_CFG_AUDIT_EN = true → (s.fab p).auditAt ≠ some (s.beats p) →
    bufCells s p ≠ 0 → mget (s.fab p).bufs ((s.fab p).audit % bufCells s p) = some b →
    Completes (.auditVisit p) s (fun t => (t.fab p).audit = ((s.fab p).audit % bufCells s p + 1) % bufCells s p ∧
      (t.fab p).auditAt = some (s.beats p) ∧
      (b.deadline + s.get (pu p .SWC) Fld.SWC_AUDIT_GRACE * 65536 < s.ft p →
        (t.fab p).bufs = mdel (s.fab p).bufs ((s.fab p).audit % bufCells s p) ∧
        t.get (pu p .SWC) Fld.SWC_AUDIT_LEAK_CNT = min (s.get (pu p .SWC) Fld.SWC_AUDIT_LEAK_CNT + 1) 0xFFFF) ∧
      (s.ft p ≤ b.deadline + s.get (pu p .SWC) Fld.SWC_AUDIT_GRACE * 65536 → (t.fab p).bufs = (s.fab p).bufs))) ∧
  (∀ (p : PlaneId) (n : PortId) (r : RobStream) (h : Held) (s : State), robOf s p n.val = [r] → r.exp = none →
    r.opened + robOpen s p ≤ s.beats p → robFirst s p r = some h → r.mine h = true →
    Completes (.robOpenExpire p n) s (fun t => ∀ r' ∈ robOf t p n.val, r'.exp ≠ none)) ∧
  (∀ (p : PlaneId) (n : PortId) (r : RobStream) (h : Held) (at' : Nat) (s : State), robOf s p n.val = [r] → r.frames = [(h.id, at')] →
    at' + robWait s p ≤ s.beats p → frameOf s p h.id = some h → r.mine h = true →
    Completes (.robWaitExpire p n) s (fun t => (∀ r' ∈ robOf t p n.val, r'.frames = []) ∧
      (∃ c ∈ queueOf t p (8 * n.val + h.tc), c.frame = h.id) ∧
      t.get (pu p .RTE) Fld.RTE_ROB_CNT_FORCE = min (s.get (pu p .RTE) Fld.RTE_ROB_CNT_FORCE + 1) 0xFFFF)) ∧
  (∀ (p : PlaneId) (n : PortId) (s : State), Completes (.robStreamClose p n) s (fun t => t.regs = s.regs ∧
    robOf t p n.val = (robOf s p n.val).filter (fun r => !(r.frames = [] && decide (r.idle + robWait s p ≤ s.beats p)))))

/-! ### Hosts, mailboxes and the service port (R367 to R391) -/

/-- A host port (R367, R371, R372, R374, R415): while the module has not been switched off, a filtered PERST or a Function Level Reset empties
the MSI-X table, clears LINK_UP and ends the port's lease, and leaves the mailboxes and the planes; a PERST shorter than 1,650 beats changes
nothing; its filtered release leaves the registers; a link that comes up at 64 GT/s with eight lanes shows its rate, width and FLIT mode, and one
that goes down ends the port's lease; with power and PERST released, configuration writes set BME, D3HOT, MSI-X enable, an MSI-X entry or a
dword. -/
def Obligations.HostPortEvents : Prop :=
  (∀ (h : HubId) (n : Nat) (s : State), 1650 ≤ n → s.pwr.offUntil = none →
    Completes (.perst h n) s (fun t => (t.hub h).pci.perst = true ∧ (t.hub h).pci.msix = [] ∧ (t.hub h).pci.msixEn = false ∧
      t.get (hu h .PCI) Fld.PCI_STAT_LINK_UP = 0 ∧ holder t ≠ portCode h ∧ (holder s ≠ portCode h → holder t = holder s) ∧ t.mbx = s.mbx ∧
      t.planes = s.planes)) ∧
  (∀ (h : HubId) (n : Nat) (s : State), n < 1650 → Completes (.perst h n) s (fun t => t = s)) ∧
  (∀ (h : HubId) (n : Nat) (s : State), 1650 ≤ n → s.pwr.offUntil = none →
    Completes (.perstRelease h n) s (fun t => (t.hub h).pci.perst = false ∧ t.regs = s.regs ∧ t.planes = s.planes)) ∧
  (∀ (h : HubId) (s : State), s.powered (hu h .PCI) = true →
    Completes (.flr h) s (fun t => (t.hub h).pci.msix = [] ∧ t.get (hu h .PCI) Fld.PCI_STAT_LINK_UP = 0 ∧ holder t ≠ portCode h ∧
      t.get (hu h .PCI) Fld.PCI_CFG_READY = 0 ∧ t.mbx = s.mbx ∧ t.planes = s.planes)) ∧
  (∀ (h : HubId) (s : State), Completes (.pcieLinkDown h) s (fun t => t.get (hu h .PCI) Fld.PCI_STAT_LINK_UP = 0 ∧ holder t ≠ portCode h ∧
      t.planes = s.planes ∧ t.mbx = s.mbx)) ∧
  (∀ (h : HubId) (s : State), s.powered (hu h .PCI) = true → (s.hub h).pci.perst = false →
    Completes (.pcieLinkUp h 6 8) s (fun t => t.get (hu h .PCI) Fld.PCI_STAT_LINK_UP = 1 ∧ t.get (hu h .PCI) Fld.PCI_STAT_RATE = 6 ∧
      t.get (hu h .PCI) Fld.PCI_STAT_WIDTH = 8 ∧ t.get (hu h .PCI) Fld.PCI_STAT_FLIT = 1 ∧ t.planes = s.planes)) ∧
  (∀ (h : HubId) (s : State), s.powered (hu h .PCI) = true → (s.hub h).pci.perst = false →
    Completes (.configurationRequest h (.busMaster false)) s (fun t => t.get (hu h .PCI) Fld.PCI_STAT_BME = 0 ∧ t.planes = s.planes) ∧
    (∀ d, Completes (.configurationRequest h (.powerState d)) s (fun t => t.get (hu h .PCI) Fld.PCI_STAT_D3HOT = b2n d ∧ t.planes = s.planes)) ∧
    (∀ on, Completes (.configurationRequest h (.msixEnable on)) s (fun t => (t.hub h).pci.msixEn = on ∧ t.regs = s.regs)) ∧
    (∀ i a d m, Completes (.configurationRequest h (.msixEntry i a d m)) s (fun t =>
      (t.hub h).pci.msix = mput (s.hub h).pci.msix i.val { addr := a, data := d, masked := m } ∧ t.regs = s.regs)) ∧
    (∀ r v, Completes (.configurationRequest h (.dword r v)) s (fun t => (t.hub h).pci.cfg = mput (s.hub h).pci.cfg r.val v ∧
      (r.val ≠ 1 → t.regs = s.regs) ∧ (r.val = 1 → t.get (hu h .PCI) Fld.PCI_STAT_BME = b2n (v.getLsbD 2)))))

/-- Host accesses to plane memory (R371, R374), over a link that is up outside D3hot: a write without the lease is logged and counted in DENY and
changes no plane; outside the deadbolt state a read over a hub link that carries nothing is logged and completes with an abort; a read
within one granule that the reach allows, that no key schedules, with nothing waiting and no fault armed, completes with what the plane's memory
holds; such a write by the holder stores its bytes and puts nothing out. -/
def Obligations.HostAccesses : Prop :=
  (∀ (h : HubId) (o : BitVec 36) (d : List Byte) (tag : Nat) (s : State), s.on (hu h .PCI) Fld.PCI_STAT_LINK_UP = true →
    s.on (hu h .PCI) Fld.PCI_STAT_D3HOT = false → holder s ≠ portCode h →
    Completes (.bar2Access h o true d tag) s (fun t => t.planes = s.planes ∧ t.out = s.out ++ [.aer h o.toNat] ∧
      t.get (hu h .PCI) Fld.PCI_CNT_A_DENY = min (s.get (hu h .PCI) Fld.PCI_CNT_A_DENY + 1) 0xFFFF)) ∧
  (∀ (h : HubId) (o : BitVec 36) (d : List Byte) (tag : Nat) (s : State), s.on (hu h .PCI) Fld.PCI_STAT_LINK_UP = true →
    s.on (hu h .PCI) Fld.PCI_STAT_D3HOT = false → s.dead = none →
    hubCarries s h ⟨s.get (hu h .PCI) Fld.PCI_WIN_WPLANE % 4, Nat.mod_lt _ (by decide)⟩ = false →
    Completes (.bar2Access h o false d tag) s (fun t => t.planes = s.planes ∧
      t.out = s.out ++ [.aer h o.toNat, .completion h tag false false []])) ∧
  (∀ (h : HubId) (p : PlaneId) (o : BitVec 36) (d : List Byte) (tag a : Nat) (s : State), s.on (hu h .PCI) Fld.PCI_STAT_LINK_UP = true →
    s.on (hu h .PCI) Fld.PCI_STAT_D3HOT = false → s.dead = none → s.get (hu h .PCI) Fld.PCI_WIN_WPLANE = p.val → hubCarries s h p = true →
    a = s.get (hu h .PCI) Fld.PCI_WIN_WBASE * 2 ^ 30 + o.toNat → a % 256 + d.length ≤ 256 → hubReach s p false a d.length = true →
    keyHolds s p a = false → memArmed s p = false → poisonedAt s p a d.length = false → (s.pl p).hostQ = [] →
    Completes (.bar2Access h o false d tag) s (fun t => (t.pl p).mem = (s.pl p).mem ∧
      t.out = s.out ++ [.completion h tag true false (memRead s p a d.length)])) ∧
  (∀ (h : HubId) (p : PlaneId) (o : BitVec 36) (d : List Byte) (tag a : Nat) (s : State), s.on (hu h .PCI) Fld.PCI_STAT_LINK_UP = true →
    s.on (hu h .PCI) Fld.PCI_STAT_D3HOT = false → s.dead = none → s.get (hu h .PCI) Fld.PCI_WIN_WPLANE = p.val → hubCarries s h p = true →
    holder s = portCode h → a = s.get (hu h .PCI) Fld.PCI_WIN_WBASE * 2 ^ 30 + o.toNat → a % 256 + d.length ≤ 256 →
    hubReach s p true a d.length = true → guarded s p a d.length = false → keyHolds s p a = false →
    (s.pl p).hostQ = [] →
    Completes (.bar2Access h o true d tag) s (fun t => (t.pl p).mem = ((memStore p a d s).2.pl p).mem ∧ t.out = s.out))

/-- The control lease (R373, R375, R376): an accepted REQ finds no holder, or port A finds port B a holder of the same beat, and makes its port the
holder for TERM milliseconds; an accepted RENEW comes from the holder and sets the deadline anew; an accepted RELEASE comes from the holder and
ends the lease; the beat after the deadline ends it in both hubs and marks the change; less than a quarter of TERM before it the warning is
given and nothing else changes; READY is what the hub's cores write. Without a holder, or before the deadline, the two events change nothing. -/
def Obligations.LeaseRules : Prop :=
  (∀ (h : HubId) (v : Word) (s : State),
    accepted s (.host h) (hu h .PCI) Fld.PCI_LEASE_REQ.key (v ||| Fld.PCI_LEASE_REQ.mask) = true →
    (holder s = 0 ∨ (h = .a ∧ holder s = 2 ∧ s.lease.newB = true)) ∧ Completes (.req (.host h) h v) s (fun t => holder t = portCode h ∧ t.planes = s.planes ∧
      t.lease.deadline = (s.hub h).beat + 1650000 * t.get (hu h .PCI) Fld.PCI_LEASE_TERM)) ∧
  (∀ (h : HubId) (v : Word) (s : State),
    accepted s (.host h) (hu h .PCI) Fld.PCI_LEASE_RENEW.key (v ||| Fld.PCI_LEASE_RENEW.mask) = true →
    holder s = portCode h ∧ Completes (.renew (.host h) h v) s (fun t => holder t = portCode h ∧
      t.lease.deadline = (s.hub h).beat + 1650000 * t.get (hu h .PCI) Fld.PCI_LEASE_TERM)) ∧
  (∀ (h : HubId) (v : Word) (s : State),
    accepted s (.host h) (hu h .PCI) Fld.PCI_LEASE_RELEASE.key (v ||| Fld.PCI_LEASE_RELEASE.mask) = true →
    holder s = portCode h ∧ Completes (.release (.host h) h v) s (fun t => holder t = 0 ∧ t.planes = s.planes)) ∧
  (∀ (h : HubId) (v : Word) (s : State), accepted s (.hubCore h) (hu h .PCI) 0x044 v = true →
    Completes (.ready (.hubCore h) h v) s (fun t => t.get (hu h .PCI) Fld.PCI_CFG_READY = b2n (v.getLsbD 0) ∧ holder t = holder s)) ∧
  (∀ s : State, holder s ≠ 0 → s.lease.deadline < (s.hub (if holder s = 2 then .b else .a)).beat →
    Completes .leaseExpire s (fun t => holder t = 0 ∧ t.get (hu .b .PCI) Fld.PCI_LEASE_HOLDER = 0 ∧
      (t.hub .a).pci.holderChg = true ∧ (t.hub .b).pci.holderChg = true ∧ t.planes = s.planes)) ∧
  (∀ s : State, (s.hub (if holder s = 2 then .b else .a)).beat ≤ s.lease.deadline → Completes .leaseExpire s (fun t => t = s)) ∧
  (∀ (h : HubId) (s : State), holder s = portCode h → 4 * leaseLeft s < 1650000 * s.get (hu h .PCI) Fld.PCI_LEASE_TERM →
    Completes .leaseLow s (fun t => t.lease.low = true ∧ t.lease.deadline = s.lease.deadline ∧ t.regs = s.regs ∧ t.planes = s.planes)) ∧
  (∀ s : State, holder s = 0 → Completes .leaseLow s (fun t => t = s))

/-- Mailbox channels (R381 to R384), reached by an agent that is its end of an enabled channel: GO of a channel with room sends the composed message
with the next number and leaves the other channels; into a full one it is rejected with BOUNDS and counted; a message that becomes visible is
queued at the receiver and latches its interrupt; POP removes the oldest and latches EMPTY with the last, and of an empty channel is rejected;
doorbell bits are ORed, and cleared unless they were set in the same beat; an agent of neither end changes no channel. -/
def Obligations.MailboxChannels : Prop :=
  (∀ (acc : Accessor) (c : Fin 256) (s : State), chReach s acc (chHub c) = true → s.on (hu (chHub c) .MBX) Fld.BLK_STAT_RST_BUSY = false →
    s.fenced (hu (chHub c) .MBX) = false → agentOf acc ≠ 0 → agentOf acc = ward s c Fld.MBX_WARD_SEND → ward s c Fld.MBX_WARD_EN ≠ 0 →
    1 ≤ (chan s c).txLen → (chan s c).txLen ≤ 256 →
    (chFull s c = false → Completes (.chGo acc c) s (fun t =>
      (chan t c).sent = (chan s c).sent ++ [⟨(chan s c).txSeq, txBytes (chan s c) (chan s c).txLen⟩] ∧
      (chan t c).txSeq = ((chan s c).txSeq + 1) % 65536 ∧ (chan t c).queue = (chan s c).queue ∧
      ∀ k, k ≠ c.val → mget t.mbx k = mget s.mbx k)) ∧
    (chFull s c = true → Completes (.chGo acc c) s (fun t => (chan t c).sent = (chan s c).sent ∧ (chan t c).queue = (chan s c).queue ∧
      (chan t c).rejCnt = min ((chan s c).rejCnt + 1) 0xFFFF ∧ t.get (hu (chHub c) .MBX) Fld.BLK_STAT_REJ = 1 ∧
      (s.get (hu (chHub c) .MBX) Fld.BLK_STAT_REJ = 0 → t.get (hu (chHub c) .MBX) Fld.BLK_STAT_REJ_CODE = 4)))) ∧
  (∀ (c : Fin 256) (m : MbxMsg) (r : List MbxMsg) (s : State), (chan s c).sent = m :: r →
    Completes (.mbxVisible c) s (fun t => (chan t c).sent = r ∧ (chan t c).queue = (chan s c).queue ++ [m] ∧
      (chan t c).irq = (chan s c).irq ||| 2#3 ∧ t.regs = s.regs ∧ t.planes = s.planes)) ∧
  (∀ (c : Fin 256) (s : State), (chan s c).sent = [] → Completes (.mbxVisible c) s (fun t => t = s)) ∧
  (∀ (acc : Accessor) (c : Fin 256) (s : State), chReach s acc (chHub c) = true → s.on (hu (chHub c) .MBX) Fld.BLK_STAT_RST_BUSY = false →
    s.fenced (hu (chHub c) .MBX) = false → agentOf acc ≠ 0 → agentOf acc = ward s c Fld.MBX_WARD_RECV →
    (∀ m r, (chan s c).queue = m :: r → Completes (.chPop acc c) s (fun t => (chan t c).queue = r ∧ (chan t c).sent = (chan s c).sent ∧
      (r = [] → (chan t c).irq = (chan s c).irq ||| 1#3) ∧ (r ≠ [] → (chan t c).irq = (chan s c).irq))) ∧
    ((chan s c).queue = [] → Completes (.chPop acc c) s (fun t => t.mbx = s.mbx ∧ t.get (hu (chHub c) .MBX) Fld.BLK_STAT_REJ = 1)) ∧
    (∀ v : Word, Completes (.chDbPend acc c v) s (fun t => (chan t c).dbPend = (chan s c).dbPend &&&
      ~~~(v &&& ~~~(if (chan s c).setAt = (s.hub (chHub c)).beat then (chan s c).setDb else 0)) ∧
      (chan t c).queue = (chan s c).queue))) ∧
  (∀ (acc : Accessor) (c : Fin 256) (v : Word) (s : State), chReach s acc (chHub c) = true →
    s.on (hu (chHub c) .MBX) Fld.BLK_STAT_RST_BUSY = false → s.fenced (hu (chHub c) .MBX) = false → agentOf acc ≠ 0 →
    agentOf acc = ward s c Fld.MBX_WARD_SEND →
    Completes (.chDbSet acc c v) s (fun t => (chan t c).dbPend = (chan s c).dbPend ||| v ∧ (chan t c).queue = (chan s c).queue)) ∧
  (∀ (acc : Accessor) (c : Fin 256) (v : Word) (s : State), agentOf acc ≠ ward s c Fld.MBX_WARD_SEND →
    agentOf acc ≠ ward s c Fld.MBX_WARD_RECV → Completes (.chDbSet acc c v) s (fun t => t.mbx = s.mbx))

/-- The service port (R387, R388, R391): while it is enabled with its link up, other frames for the hub's address reach its cores, longer ones are
counted as dropped, and a pause frame sets the pause; a disabled port takes no frame; its link goes down, and comes up while it is enabled
outside the deadbolt state; a region opens at EN and keeps its extent; on an enabled queue pair a request with a wrong PSN or operation is
refused with a NAK, one of a region that is not open also stops the queue pair, and a READ within one granule of an open region, with nothing
waiting and no fault armed, answers with what memory holds and advances EPSN. -/
def Obligations.ServicePort : Prop :=
  (∀ (h : HubId) (s : State), s.on (hu h .SVC) Fld.SVC_CFG_EN = true → s.on (hu h .SVC) Fld.SVC_STAT_LINK_UP = true →
    s.powered (hu h .SVC) = true →
    (∀ (dst : BitVec 48) (d : List Byte), d.length ≤ 9216 → dst.toNat = s.get64 (hu h .SVC) Fld.SVC_MAC_LO Fld.SVC_MAC_HI →
      Completes (.svcFrameReceive h (.other dst d)) s (fun t => (t.hub h).rxFrames = (s.hub h).rxFrames ++ [d] ∧ t.regs = s.regs)) ∧
    (∀ (dst : BitVec 48) (d : List Byte), 9216 < d.length →
      Completes (.svcFrameReceive h (.other dst d)) s (fun t => t.hubs = s.hubs ∧
        t.get (hu h .SVC) Fld.SVC_CNT_DROP = min (s.get (hu h .SVC) Fld.SVC_CNT_DROP + 1) 0xFFFF)) ∧
    (∀ q, Completes (.svcFrameReceive h (.pfc q)) s (fun t => (t.hub h).pause = q ∧ t.regs = s.regs))) ∧
  (∀ (h : HubId) (f : SvcFrame) (s : State), s.on (hu h .SVC) Fld.SVC_CFG_EN = false → Completes (.svcFrameReceive h f) s (fun t => t = s)) ∧
  (∀ (h : HubId) (s : State), Completes (.serviceLinkChange h false) s (fun t => t.get (hu h .SVC) Fld.SVC_STAT_LINK_UP = 0) ∧
    (s.powered (hu h .SVC) = true → s.on (hu h .SVC) Fld.SVC_CFG_EN = true → s.dead = none →
      Completes (.serviceLinkChange h true) s (fun t => t.get (hu h .SVC) Fld.SVC_STAT_LINK_UP = 1))) ∧
  (∀ (h : HubId) (r : Fin 64) (v : Word) (s : State),
    accepted s (.hubCore h) (hu h .SVC) (Fld.SVC_RG_EN.at r.val).key (v ||| (Fld.SVC_RG_EN.at r.val).mask) = true →
    Completes (.rdmaRegionEn (.hubCore h) h r v) s (fun t => (regionOf t h r.val).en = true ∧
      (regionOf t h r.val).base = (regionOf s h r.val).base ∧ (regionOf t h r.val).len = (regionOf s h r.val).len ∧ t.planes = s.planes)) ∧
  (∀ (h : HubId) (q : Fin 64) (rip : Word) (psn : BitVec 24) (rkey : Word) (addr : BitVec 48) (s : State),
    s.on (hu h .SVC) Fld.SVC_CFG_EN = true → s.on (hu h .SVC) Fld.SVC_CFG_RDMA_EN = true → s.on (hu h .SVC) Fld.SVC_STAT_LINK_UP = true →
    s.powered (hu h .SVC) = true → s.on (hu h .SVC) (Fld.SVC_QP_EN.at q.val) = true →
    s.get (hu h .SVC) (Fld.SVC_QP_RIP.at q.val) = rip.toNat → s.on (hu h .SVC) (Fld.SVC_QP_ERR.at q.val) = false →
    (∀ op, psn.toNat ≠ s.get (hu h .SVC) (Fld.SVC_QP_EPSN.at q.val) → Completes (.rdmaRequest h q rip psn rkey addr op) s (fun t =>
      t.out = s.out ++ [.roce h q.val 2 (s.get (hu h .SVC) (Fld.SVC_QP_EPSN.at q.val)) []] ∧ t.regs = s.regs ∧ t.planes = s.planes)) ∧
    (psn.toNat = s.get (hu h .SVC) (Fld.SVC_QP_EPSN.at q.val) → Completes (.rdmaRequest h q rip psn rkey addr .other) s (fun t =>
      t.out = s.out ++ [.roce h q.val 3 psn.toNat []] ∧ t.regs = s.regs)) ∧
    (∀ n, psn.toNat = s.get (hu h .SVC) (Fld.SVC_QP_EPSN.at q.val) → (regionOf s h (rkey.toNat % 64)).en = false →
      Completes (.rdmaRequest h q rip psn rkey addr (.read n)) s (fun t => t.out = s.out ++ [.roce h q.val 4 psn.toNat []] ∧
        t.on (hu h .SVC) (Fld.SVC_QP_ERR.at q.val) = true ∧ t.planes = s.planes)) ∧
    (∀ n r, psn.toNat = s.get (hu h .SVC) (Fld.SVC_QP_EPSN.at q.val) → regionOf s h (rkey.toNat % 64) = r → r.en = true →
      r.tag = rkey.toNat / 256 → r.rd = true → r.base ≤ addr.toNat → addr.toNat + n ≤ r.base + r.len → hubCarries s h r.plane = true →
      1 ≤ n → addr.toNat % 256 + n ≤ 256 → hubReach s r.plane false addr.toNat n = true → keyHolds s r.plane addr.toNat = false →
      poisonedAt s r.plane addr.toNat n = false → memArmed s r.plane = false → (s.pl r.plane).hostQ = [] →
      Completes (.rdmaRequest h q rip psn rkey addr (.read n)) s (fun t =>
        t.out = s.out ++ [.roce h q.val 1 psn.toNat (memRead s r.plane addr.toNat n)] ∧
        t.get (hu h .SVC) (Fld.SVC_QP_EPSN.at q.val) = (psn.toNat + 1) % 2 ^ 24 ∧ (t.pl r.plane).mem = (s.pl r.plane).mem)))

/-! ### Reports and the hubs (R395 to R400, R407 to R412) -/

/-- Reports (R395 to R400, R408, R410): a powered unit sends its CLASS and RSEQ on both pairs once 64 beats have passed since the last frame, in a
frame that a collector reads back; a good frame on time over a pair that is not broken becomes the collector's view of the unit, and one of
class F outside the deadbolt state enters it with the unit's record and no plane memory; a bad or a missing frame breaks the pair, which is
counted; a class C log without a detection of this beat clears by itself after its period and keeps C_COUNT; the deadbolt record reaches the
flash of a Keyplate with power in an unfenced hub. Without their conditions these events change nothing. -/
def Obligations.Reports : Prop :=
  (∀ (u : Nat) (s : State), (unitBlk u).isSome = true → s.powered u = true → (s.rp u).lastSent + 64 ≤ unitBeat s u →
    Completes (.reportFrameSend u) s (fun t => t.out = s.out ++
        [.report u .a (BitVec.ofNat 16 (reportFrame (s.get u Fld.BLK_ERR_CLASS) (s.rp u).rseq u)),
         .report u .b (BitVec.ofNat 16 (reportFrame (s.get u Fld.BLK_ERR_CLASS) (s.rp u).rseq u))] ∧
      (t.rp u).lastSent = unitBeat s u ∧ t.regs = s.regs)) ∧
  (∀ (u : Nat) (s : State), unitBeat s u < (s.rp u).lastSent + 64 → Completes (.reportFrameSend u) s (fun t => t = s)) ∧
  (∀ (cls rseq u : Nat), cls < 4 → rseq < 16 → let f := BitVec.ofNat 16 (reportFrame cls rseq u)
    frameOk u f = true ∧ bits f.toNat 3 2 = cls ∧ bits f.toNat 7 4 = rseq) ∧
  (∀ (h : HubId) (u : Nat) (f : BitVec 16) (s : State), (unitBlk u).isSome = true → s.powered (hu h .FCL) = true → s.hubFenced h = false →
    frameOk u f = true → (view s h u).pairOk = true → (s.hub h).beat ≤ (view s h u).lastBeat + 192 →
    (bits f.toNat 3 2 ≠ 3 → Completes (.reportFrameReceive h u f true) s (fun t => (view t h u).cls = bits f.toNat 3 2 ∧
      (view t h u).rseq = bits f.toNat 7 4 ∧ (view t h u).lastBeat = (s.hub h).beat ∧ t.dead = s.dead ∧ t.planes = s.planes)) ∧
    (bits f.toNat 3 2 = 3 → s.dead = none → Completes (.reportFrameReceive h u f true) s (fun t =>
      (∃ d, t.dead = some d ∧ d.record.unit = u ∧ d.record.source = (s.rp u).fatalSrc) ∧ ∀ p, (t.pl p).mem = []))) ∧
  (∀ (h : HubId) (u : Nat) (f : BitVec 16) (s : State), (unitBlk u).isSome = true → s.powered (hu h .FCL) = true → s.hubFenced h = false →
    s.hubFenced h.other = false → (view s h u).pairOk = true → (view s h.other u).pairOk = true →
    Completes (.reportFrameReceive h u f false) s (fun t => (view t h u).pairOk = false ∧ t.dead = s.dead ∧
      t.get (hu h .FCL) Fld.FCL_STAT_BROKEN = min (s.get (hu h .FCL) Fld.FCL_STAT_BROKEN + 1) 0x7FF) ∧
    (s.powered u = true → (view s h u).lastBeat + 192 < (s.hub h).beat →
      Completes (.reportTimeout h u) s (fun t => (view t h u).pairOk = false ∧ t.dead = s.dead))) ∧
  (∀ (h : HubId) (u : Nat) (s : State), (s.hub h).beat ≤ (view s h u).lastBeat + 192 → Completes (.reportTimeout h u) s (fun t => t = s)) ∧
  (∀ (u : Nat) (s : State), (unitBlk u).isSome = true → s.get u Fld.BLK_ERR_CLASS = 1 → detectedNow s u = [] → (s.rp u).capAt + (s.rp u).capFor ≤ unitBeat s u →
    Completes (.cSelfAck u) s (fun t => t.get u Fld.BLK_ERR_CLASS = 0 ∧ t.get u Fld.BLK_ERR_CLASS_OVF = 0 ∧
      t.get u Fld.BLK_ERR_CLASS_SOURCE = 0 ∧ t.get u Fld.BLK_ERR_CLASS_C_COUNT = s.get u Fld.BLK_ERR_CLASS_C_COUNT ∧ t.planes = s.planes)) ∧
  (∀ (u : Nat) (s : State), s.get u Fld.BLK_ERR_CLASS ≠ 1 → Completes (.cSelfAck u) s (fun t => t = s)) ∧
  (∀ (h : HubId) (d : Deadbolt) (s : State), s.dead = some d → s.powered (hu h .KPL) = true → s.hubFenced h = false →
    Completes (.deadboltRecord h) s (fun t => (t.hub h).kpl.flash.dead = some d.record ∧ t.regs = s.regs)) ∧
  (∀ (h : HubId) (s : State), s.dead = none → Completes (.deadboltRecord h) s (fun t => t = s))

/-- The hubs watch each other and the planes (R33, R398, R407, R412): a heartbeat over the open peer connection makes PEER_OK 1 in both blocks; its
absence for more than 192 beats makes it 0 in a hub that does not condemn the other, with class U fault 2 in a free log and the lease as before;
an open hub link that has not answered a request for more than 16,500 beats is closed and counted; an accepted FCL_LIFT opens the hasp of a
port, which is DISABLED, or of a core, which starts anew, unless a fault struck the unit in the same beat; ALIVE_EN starts the serving form
with its first edge 825,000 beats later; an edge that is due toggles the output and sets the next; an output whose condition fails goes low. -/
def Obligations.HubWatch : Prop :=
  (∀ (h : HubId) (s : State), peerOpen s = true → Completes (.peerHeartbeat h) s (fun t => t.get (hu h .HUB) Fld.HUB_PEER_PEER_OK = 1 ∧
    t.get (hu h .FCL) Fld.FCL_STAT_PEER_OK = 1 ∧ (t.hub h).peerAt = (s.hub h).beat ∧ t.out = s.out ++ [.peer h.other] ∧ t.planes = s.planes)) ∧
  (∀ (h : HubId) (s : State), peerOpen s = false → Completes (.peerHeartbeat h) s (fun t => t = s)) ∧
  (∀ (h : HubId) (s : State), s.powered (hu h .HUB) = true → s.hubFenced h = false → s.on (hu h .HUB) Fld.HUB_PEER_PEER_OK = true →
    (s.hub h).peerAt + 192 < (s.hub h).beat → peerCondemns s h = false → s.get (hu h .HUB) Fld.BLK_ERR_CLASS = 0 →
    detectedNow s (hu h .HUB) = [] →
    Completes (.peerTimeout h) s (fun t => t.get (hu h .HUB) Fld.HUB_PEER_PEER_OK = 0 ∧ t.get (hu h .FCL) Fld.FCL_STAT_PEER_OK = 0 ∧
      t.get (hu h .HUB) Fld.BLK_ERR_CLASS = 2 ∧ t.get (hu h .HUB) Fld.BLK_ERR_CLASS_SOURCE = 2 ∧ holder t = holder s ∧ t.planes = s.planes)) ∧
  (∀ (h : HubId) (p : PlaneId) (a : Nat) (s : State), s.powered (hu h .HUB) = true → s.domOn (4 + 7 * p.val) = true →
    linkShut s h p = false → mget (s.hub h).reqAt p.val = some a → a + 16500 < (s.hub h).beat →
    Completes (.hubLinkTimeout h p) s (fun t => t.get (hu h .HUB) (Fld.HUB_LINK_STAT_CLOSED.at p.val) = 1 ∧
      t.get (hu h .HUB) (Fld.HUB_LINK_STAT_UP.at p.val) = 0 ∧ t.planes = s.planes ∧
      t.get (hu h .HUB) (Fld.HUB_LINK_STAT_TMO_CNT.at p.val) = min (s.get (hu h .HUB) (Fld.HUB_LINK_STAT_TMO_CNT.at p.val) + 1) 0xFFFF)) ∧
  (∀ (h : HubId) (p : PlaneId) (n : PortId) (v : Word) (s : State), accepted s (.hubCore h) (hu h .FCL) 0x054 v = true →
    v.toNat % 2048 = uFPT p n.val → (s.rp (uFPT p n.val)).hitAt ≠ some (s.beats p) →
    Completes (.fclLift (.hubCore h) h v) s (fun t => t.fenced (uFPT p n.val) = false ∧ portState t p (portOr s p n.val) = 0)) ∧
  (∀ (h : HubId) (p : PlaneId) (n : CoreId) (v : Word) (s : State), accepted s (.hubCore h) (hu h .FCL) 0x054 v = true →
    v.toNat % 2048 = uCCX p n.val → (s.rp (uCCX p n.val)).hitAt ≠ some (s.beats p) →
    Completes (.fclLift (.hubCore h) h v) s (fun t => t.fenced (uCCX p n.val) = false ∧ coreOf t p n.val = {} ∧
      bit (t.get (pu p .PLN) Fld.PLN_UNIT_MEM_CC_ACT) n.val = true)) ∧
  (∀ (h : HubId) (v : Word) (s : State), accepted s (.hubCore h) (hu h .FCL) 0x040 v = true → v.getLsbD 16 = true →
    (s.hub h).alive ≠ .serving → s.dead = none → s.hubFenced h = false →
    Completes (.aliveEn (.hubCore h) h v) s (fun t => (t.hub h).alive = .serving ∧ (t.hub h).aliveNext = (s.hub h).beat + 825000)) ∧
  (∀ (h : HubId) (s : State), aliveHolds s h = true → (s.hub h).alive = .serving → (s.hub h).aliveNext ≤ (s.hub h).beat + 1 →
    Completes (.aliveToggle h) s (fun t => (t.hub h).aliveLevel = !(s.hub h).aliveLevel ∧ (t.hub h).aliveNext = (s.hub h).aliveNext + 825000 ∧
      t.planes = s.planes)) ∧
  (∀ (h : HubId) (s : State), aliveHolds s h = false →
    Completes (.aliveToggle h) s (fun t => (t.hub h).aliveLevel = false ∧ (t.hub h).alive = .stopped ∧ t.planes = s.planes))

/-! ### Power (R404, R419 to R428, R433, R443, R465, R467) -/

/-- Feeds and the hold-up store (R415, R419 to R422, R443): FEED_OK is low for a feed that has stood below 40 V for 165 beats; a voltage that has
stood for 165 beats gives the feed its next state and is measured; a shorter one changes no feed's state and no plane, and only a QUAL feed's
time in range starts again; the loss of the last OK feed of a running module starts the ride-through, whose end, more than 825,000 beats later,
powers everything down; a QUAL feed becomes OK after 165,000,000 beats, or after 16,500 while no feed is OK, where the ride-through has not ended;
HOLDUP_OK follows the store; PWRCYC_N held low for its filter powers all but STBY off for 165,000,000 beats, and its release changes no register
and no plane. FEED_QUALIFY of a feed not in QUAL and the end of a ride-through that has not begun change nothing. -/
def Obligations.PowerFeeds : Prop :=
  (∀ (f : FeedId) (mv n : Nat) (s : State), 165 ≤ n → mv < 4000 → Completes (.feedChange f mv n) s (fun t => feedOkPin t f = false)) ∧
  (∀ (f : FeedId) (mv n : Nat) (s : State), 165 ≤ n → Completes (.feedChange f mv n) s (fun t =>
    feedSt t f = feedNext (feedSt s f) mv ∧ t.get (hu .a .PWR) (feedMv f) = mv % 65536)) ∧
  (∀ (f : FeedId) (mv n : Nat) (s : State), n < 165 → Completes (.feedChange f mv n) s (fun t => feedSt t f = feedSt s f ∧ t.planes = s.planes ∧
    t.pwr.dryAt = s.pwr.dryAt ∧ (feedSt s f ≠ 2 → t.pwr = s.pwr) ∧ (feedSt s f = 2 → feedNext 2 mv ≠ 2 →
      (if f = .a then t.pwr.feedA.since else t.pwr.feedB.since) = s.pwr.beat))) ∧
  (∀ (f : FeedId) (mv n : Nat) (s : State), 165 ≤ n → mv < 4000 → feedSt s f = 3 → feedSt s (FeedId.other f) ≠ 3 → s.dead = none →
    s.pwr.offUntil = none → Completes (.feedChange f mv n) s (fun t => t.pwr.dryAt = some s.pwr.beat ∧ anyFeed t = false ∧ t.planes = s.planes)) ∧
  (∀ (f : FeedId) (s : State), feedSt s f = 2 → (if f = .a then s.pwr.feedA.since else s.pwr.feedB.since) + (if anyFeed s then 165000000 else 16500) ≤ s.pwr.beat →
    s.pwr.dryAt.all (fun t0 => decide (s.pwr.beat ≤ t0 + 825000)) = true → Completes (.feedQualify f) s (fun t => feedSt t f = 3 ∧ anyFeed t = true ∧ t.pwr.dryAt = none ∧ t.planes = s.planes)) ∧
  (∀ (f : FeedId) (s : State), feedSt s f ≠ 2 → s.pwr.dryAt.all (fun t0 => decide (s.pwr.beat ≤ t0 + 825000)) = true → Completes (.feedQualify f) s (fun t => t = s)) ∧
  (∀ (t0 : Nat) (s : State), s.pwr.dryAt = some t0 → t0 + 825000 < s.pwr.beat → anyFeed s = false →
    Completes .rideThroughExpire s (fun t => t.get (hu .a .PWR) Fld.PWR_DOM_STAT_ON = 0 ∧ t.pwr.running = false ∧ ∀ p, (t.pl p).mem = [])) ∧
  (∀ s : State, s.pwr.dryAt = none → Completes .rideThroughExpire s (fun t => t = s)) ∧
  (∀ (ok : Bool) (s : State), Completes (.holdupCharge ok) s (fun t => t.get (hu .a .PWR) Fld.PWR_HOLD_HOLDUP_OK = b2n ok ∧ t.planes = s.planes)) ∧
  (∀ (n : Nat) (s : State), 1650000 ≤ n → s.pwr.offUntil = none → Completes (.pwrcycN true n) s (fun t =>
    t.pwr.offUntil = some (s.pwr.beat + 165000000) ∧ t.get (hu .a .PWR) Fld.PWR_DOM_STAT_ON = 1 ∧ t.dead = none ∧ ∀ p, (t.pl p).mem = [])) ∧
  (∀ (n : Nat) (s : State), Completes (.pwrcycN false n) s (fun t => t.pwr.cycLow = false ∧ t.regs = s.regs ∧ t.planes = s.planes))

/-- The module leaves the deadbolt state only by a power cycle (R411): a command after which it is not in that state is the loss of the last OK
feed, the end of the hold-up store's ride-through (its own event, or found when a feed would qualify too late), PWRCYC_N low for its filter, or
the start-up of a module that was off. -/
def Obligations.OnlyAPowerCycleLeavesTheDeadbolt : Prop :=
  ∀ (i : Instr) (s t : State) (d : Deadbolt), s.dead = some d → exec i s = .next t →
    t.dead = some d ∨
    (∃ f mv n, i = .feedChange f mv n ∧ 165 ≤ n ∧ feedSt s f = 3 ∧ feedSt t .a ≠ 3 ∧ feedSt t .b ≠ 3) ∨
    ((i = .rideThroughExpire ∨ ∃ f, i = .feedQualify f) ∧ feedSt s .a ≠ 3 ∧ feedSt s .b ≠ 3) ∨
    (∃ n, i = .pwrcycN true n ∧ 1650000 ≤ n) ∨
    (i = .powerOn ∧ s.pwr.running = false)

/-- Domains (R424 to R426, R429, R430, R433): with a feed OK, start-up of a module that is off begins with an empty bucket and requests the hubs;
the bucket gains 1 mA each 825 beats, up to 20,000; outside the deadbolt state the lowest pending domain is admitted for its charge, which
the bucket covers after the beat's refill; a part of a plane that is stable within 165,000 beats is on, and a domain that is not is PWR_RAIL in a
free log, of class F for a hub's domain and U for a plane's; a hub whose boot slots are empty runs the recovery loader, and a plane without
firmware goes off again; a memory that is ready shows it, and the last one brings BOOT to ADAPTIVE. Without their conditions these events change
nothing. -/
def Obligations.PowerDomains : Prop :=
  (∀ s : State, anyFeed s = true → s.pwr.running = false → s.pwr.offUntil = none → Completes .powerOn s (fun t => t.pwr.running = true ∧
    t.get (hu .a .PWR) Fld.PWR_CREDIT = 0 ∧ t.get (hu .a .PWR) Fld.PWR_DOM_STAT_ON = 3 ∧ t.get (hu .a .PWR) Fld.PWR_DOM_PEND = 12 ∧
    (t.hub .a).alive = .starting ∧ (t.hub .b).alive = .starting)) ∧
  (∀ s : State, anyFeed s = false → Completes .powerOn s (fun t => t = s)) ∧
  (∀ s : State, s.pwr.beat % 825 = 0 → s.pwr.refillAt ≠ some s.pwr.beat → Completes .creditRefill s (fun t =>
    t.get (hu .a .PWR) Fld.PWR_CREDIT = min (s.get (hu .a .PWR) Fld.PWR_CREDIT + 1) 20000 ∧ t.planes = s.planes)) ∧
  (∀ s : State, s.pwr.beat % 825 ≠ 0 → Completes .creditRefill s (fun t => t = s)) ∧
  (∀ (d : Fin 32) (s : State), (pendingDoms s).head? = some d.val → domCharge d.val ≤ (refillCredit s).get (hu .a .PWR) Fld.PWR_CREDIT →
    s.dead = none → Completes (.domainAdmit d) s (fun t => mget t.pwr.waking d.val = some s.pwr.beat ∧
      t.get (hu .a .PWR) Fld.PWR_CREDIT = (refillCredit s).get (hu .a .PWR) Fld.PWR_CREDIT - domCharge d.val ∧
      bit (t.get (hu .a .PWR) Fld.PWR_DOM_PEND) d.val = false ∧ t.planes = s.planes)) ∧
  (∀ (d : Fin 32) (s : State), (refillCredit s).get (hu .a .PWR) Fld.PWR_CREDIT < domCharge d.val →
    Completes (.domainAdmit d) s (fun t => t = s)) ∧
  (∀ (d : Fin 32) (t0 : Nat) (s : State), mget s.pwr.waking d.val = some t0 → s.pwr.beat ≤ t0 + 165000 → 4 ≤ d.val → (d.val - 4) % 7 ≠ 0 →
    Completes (.domainStable d) s (fun t => t.domOn d.val = true ∧ mget t.pwr.waking d.val = none)) ∧
  (∀ (h : HubId) (d : Fin 32) (t0 : Nat) (s : State), d.val = 2 + h.num → mget s.pwr.waking d.val = some t0 → s.pwr.beat ≤ t0 + 165000 →
    (s.hub h).kpl.slots = [{}, {}] → Completes (.domainStable d) s (fun t => t.get (hu h .KPL) Fld.KPL_STAT_STATE = 3 ∧
      t.get (hu h .FCL) Fld.FCL_CFG_ALIVE_EN = 1)) ∧
  (∀ (p : PlaneId) (d : Fin 32) (t0 : Nat) (s : State), d.val = 4 + 7 * p.val → mget s.pwr.waking d.val = some t0 →
    s.pwr.beat ≤ t0 + 165000 → (s.hub (cfgHub s)).kpl.slots = [{}, {}] →
    Completes (.domainStable d) s (fun t => t.domOn d.val = false ∧ t.get (hu (cfgHub s) .KPL) Fld.KPL_RESULT_CODE = 1)) ∧
  (∀ (d : Fin 32) (t0 : Nat) (s : State), mget s.pwr.waking d.val = some t0 → t0 + 165000 < s.pwr.beat →
    s.get (pwrUnit s) Fld.BLK_ERR_CLASS = 0 → detectedNow s (pwrUnit s) = [] → Completes (.railTimeout d) s (fun t => mget t.pwr.waking d.val = none ∧
      t.get (pwrUnit s) Fld.BLK_ERR_CLASS = (if d.val < 4 then 3 else 2) ∧ t.get (pwrUnit s) Fld.BLK_ERR_CLASS_SOURCE = 2)) ∧
  (∀ (d : Fin 32) (s : State), mget s.pwr.waking d.val = none → Completes (.domainStable d) s (fun t => t = s) ∧
    Completes (.railTimeout d) s (fun t => t = s)) ∧
  (∀ (p : PlaneId) (m : Fin 7) (s : State), s.powered (tgtUnit p m.val) = true → s.fenced (tgtUnit p m.val) = false →
    s.on (tgtUnit p m.val) Fld.FMC_STAT_READY = false → Completes (.memoryReady p m) s (fun t => t.get (tgtUnit p m.val) Fld.FMC_STAT_READY = 1 ∧
      (s.plnState p = 1 → memoriesReady t p = true → t.plnState p = 2) ∧ (t.pl p).mem = (s.pl p).mem))

/-- Power commands and resets (R404, R425 to R428, R467), as accepted writes: outside the deadbolt state PWR_DOM_ON requests a domain that is off and
not waking; a CORE bit of PWR_DOM_OFF and, outside the deadbolt state, which keeps its planes, a plane reset take the plane's seven domains off with
their memory, and the beat after a plane reset requests them again; a hub reset takes the other hub's domain off with its mailboxes and requests it; a module reset changes no plane in its own
beat, and in the next takes all but STBY and MCLK off with all memory and mailboxes and requests the hubs; a fenced plane powers off and stays
fenced. On the I3C bus the target takes one address, answers a read at offset 0 with the serial number, ignores writes while debug is closed and
hands them to the debug module while it is open; no transaction is left to time out. -/
def Obligations.PowerCommands : Prop :=
  (∀ (acc : Accessor) (h : HubId) (v : Word) (p : PlaneId) (k : Fin 7) (s : State), accepted s acc (hu h .PWR) 0x058 v = true → s.dead = none →
    v.getLsbD (4 + 7 * p.val + k.val) = true → s.domOn (4 + 7 * p.val + k.val) = false → mget s.pwr.waking (4 + 7 * p.val + k.val) = none →
    Completes (.pwrDomOn acc h v) s (fun t => bit (t.get (hu .a .PWR) Fld.PWR_DOM_PEND) (4 + 7 * p.val + k.val) = true)) ∧
  (∀ (acc : Accessor) (h : HubId) (v : Word) (p : PlaneId) (s : State), accepted s acc (hu h .PWR) 0x05C v = true →
    v.getLsbD (4 + 7 * p.val) = true →
    Completes (.pwrDomOff acc h v) s (fun t => (∀ k : Fin 7, t.domOn (4 + 7 * p.val + k.val) = false) ∧ (t.pl p).mem = [])) ∧
  (∀ (acc : Accessor) (h : HubId) (v : Word) (s : State),
    accepted s acc (hu h .PWR) Fld.PWR_CMD_MODULE_RESET.key (v ||| Fld.PWR_CMD_MODULE_RESET.mask) = true →
    Completes (.moduleReset acc h v) s (fun t => t.pwr.resetDue = true ∧ t.planes = s.planes ∧ t.mbx = s.mbx)) ∧
  (∀ s : State, s.pwr.resetDue = true → s.dead = none → Completes (.beat .power) s (fun t => t.get (hu .a .PWR) Fld.PWR_DOM_STAT_ON = 3 ∧
    t.get (hu .a .PWR) Fld.PWR_DOM_PEND = 12 ∧ t.pwr.running = true ∧ t.pwr.resetDue = false ∧ t.mbx = [] ∧ ∀ p, (t.pl p).mem = [])) ∧
  (∀ (acc : Accessor) (h : HubId) (v : Word) (p : PlaneId) (s : State),
    accepted s acc (hu h .PWR) Fld.PWR_CMD_PLANE_RESET.key (v ||| Fld.PWR_CMD_PLANE_RESET.mask) = true →
    bits v.toNat 5 4 = p.val → Completes (.planeReset acc h v) s (fun t => (s.dead.isSome = true → t.planes = s.planes) ∧
      (s.dead = none → (t.pl p).mem = [] ∧ t.pwr.planesDue.contains p.val = true ∧
      (∀ k : Fin 7, t.domOn (4 + 7 * p.val + k.val) = false) ∧ ∀ q, q ≠ p → t.pl q = s.pl q))) ∧
  (∀ (p : PlaneId) (k : Fin 7) (s : State), s.pwr.resetDue = false → s.dead = none → s.pwr.planesDue = [p.val] →
    Completes (.beat .power) s (fun t => bit (t.get (hu .a .PWR) Fld.PWR_DOM_PEND) (4 + 7 * p.val + k.val) = true ∧ t.pwr.planesDue = [] ∧
      t.planes = s.planes)) ∧
  (∀ (acc : Accessor) (h : HubId) (v : Word) (s : State),
    accepted s acc (hu h .PWR) Fld.PWR_CMD_HUB_RESET.key (v ||| Fld.PWR_CMD_HUB_RESET.mask) = true → s.dead = none →
    Completes (.hubReset acc h v) s (fun t => let x := if v.getLsbD 6 then HubId.b else .a
      x ≠ h ∧ t.domOn (2 + x.num) = false ∧ bit (t.get (hu .a .PWR) Fld.PWR_DOM_PEND) (2 + x.num) = true ∧ (t.hub x).alive = .starting ∧
      t.mbx = s.mbx.filter (fun e => ¬ (e.1 / 128 = x.num)))) ∧
  (∀ (p : PlaneId) (s : State), s.planeFenced p = true → Completes (.fencePowerOff (pu p .PLN)) s (fun t =>
    (∀ k : Fin 7, t.domOn (4 + 7 * p.val + k.val) = false) ∧ t.planeFenced p = true ∧ (t.pl p).mem = [])) ∧
  (∀ (p : PlaneId) (s : State), s.planeFenced p = false → Completes (.fencePowerOff (pu p .PLN)) s (fun t => t = s)) ∧
  (∀ (n : Fin 128) (s : State), s.domOn 0 = true → (s.pwr.i3cAddr = none → Completes (.entdaa n.val) s (fun t => t.pwr.i3cAddr = some n.val ∧
    t.regs = s.regs)) ∧ (s.pwr.i3cAddr ≠ none → Completes (.entdaa n.val) s (fun t => t = s))) ∧
  (∀ (n : Fin 128) (s : State), s.domOn 0 = true → s.pwr.i3cAddr = some n.val → Completes (.i3cRead n.val 0 2) s (fun t =>
    t.out = s.out ++ [.i3c (bytesOf 4 (s.ident.serial.setWidth 32).toNat ++ bytesOf 4 ((s.ident.serial >>> 32).setWidth 32).toNat)] ∧
    t.regs = s.regs ∧ t.planes = s.planes)) ∧
  (∀ (n : Fin 128) (o : Byte) (d : List Byte) (s : State), debugOpen s = false → Completes (.i3cWrite n.val o d) s (fun t => t = s)) ∧
  (∀ (n : Fin 128) (o : Byte) (d : List Byte) (s : State), debugOpen s = true → s.domOn 0 = true → s.pwr.i3cAddr = some n.val → 0x80 ≤ o.toNat →
    Completes (.i3cWrite n.val o d) s (fun t => t.out = s.out ++ [.debug o.toNat d] ∧ t.regs = s.regs)) ∧
  (∀ s : State, Completes .i3cTimeout s (fun t => t = s))

/-! ### Trust (R434 to R441, R444) -/

/-- Keyplate commands (R435 to R441, R444): an accepted KPL_CMD write makes STATE BUSY and leaves the flash, and a command without an image leaves
the planes; an image within one granule that nothing holds back is what the plane's memory holds. The end of a command, its image read or out of
reach, ends BUSY: VERIFY records the code of the first check that the image fails, and for an image that passes LOAD_CC loads a core's program and
pc, COMMIT_SVN of a core program raises its counter, and CLAIM installs the owner's key; a nonce is drawn, and is consumed by an unlock, whose
failure is counted; SET_PREF sets the preferred slot. Verification refuses a malformed header with code 1, and passes only an image whose counter,
hash, signature and type are right. -/
def Obligations.KeyplateCommands : Prop :=
  (∀ (acc : Accessor) (h : HubId) (v : Word) (s : State) (c : Instr) (n : Nat),
    (c, n) ∈ [(Instr.verify acc h v, 1), (.loadCc acc h v, 2), (.commitSvn acc h v, 3), (.claim acc h v, 4), (.dbgNonce acc h v, 5),
      (.dbgUnlock acc h v, 6), (.setPref acc h v, 7)] →
    accepted s acc (hu h .KPL) 0x044 ((v &&& ~~~Fld.KPL_CMD.mask) ||| BitVec.ofNat 32 n) = true →
    Completes c s (fun t => t.get (hu h .KPL) Fld.KPL_STAT_STATE = 2 ∧ (t.hub h).kpl.cmd = some (n, (s.hub h).beat) ∧
      (t.hub h).kpl.flash = (s.hub h).kpl.flash ∧ (kplReads n = false → t.planes = s.planes) ∧
      (let p := kplPlane s h
       let a := kplAddr s h
       let len := s.get (hu h .KPL) Fld.KPL_SRC_LEN
       kplReads n = true → hubCarries s h p = true → a % 256 + len ≤ 256 → keyHolds s p a = false → memArmed s p = false →
         poisonedAt s p a len = false → (s.pl p).hostQ = [] → (t.hub h).kpl.image = some (memRead s p a len)))) ∧
  (∀ (h : HubId) (s : State), (s.hub h).kpl.cmd = none → Completes (.kplCmdDone h) s (fun t => t = s)) ∧
  (∀ (h : HubId) (n t0 : Nat) (s : State), s.powered (hu h .KPL) = true → (s.hub h).kpl.cmd = some (n, t0) →
    (kplReads n = true → (s.hub h).kpl.image.isSome = true ∨ hubCarries s h (kplPlane s h) = false) →
    Completes (.kplCmdDone h) s (fun t => (t.hub h).kpl.cmd = none ∧
      t.get (hu h .KPL) Fld.KPL_STAT_STATE = (if (s.hub h).booted then 1 else 3) ∧
      (n = 1 → t.get (hu h .KPL) Fld.KPL_RESULT_CODE = verifyImage s h (fun t => 1 ≤ t && t ≤ 7) (kplImage s h) ∧
        (t.hub h).kpl.flash = (s.hub h).kpl.flash ∧ ∀ p, (t.pl p).mem = (s.pl p).mem) ∧
      (n = 2 → verifyImage s h (· = 3) (kplImage s h) = 0 →
        (coreOf t (kplPlane s h) (s.get (hu h .KPL) Fld.KPL_SRC_HI_CORE)).pc = BitVec.ofNat 64 (imgEntry (kplImage s h)) ∧
        (coreOf t (kplPlane s h) (s.get (hu h .KPL) Fld.KPL_SRC_HI_CORE)).ls =
          memPuts (coreOf s (kplPlane s h) (s.get (hu h .KPL) Fld.KPL_SRC_HI_CORE)).ls (imgLoad (kplImage s h)) (imgBody (kplImage s h))) ∧
      (n = 3 → verifyImage s h (fun t => 1 ≤ t && t ≤ 4) (kplImage s h) = 0 → imgType (kplImage s h) = 3 →
        (t.hub h).kpl.flash.svnCc = max (s.hub h).kpl.flash.svnCc (imgSvn (kplImage s h)) ∧
        (t.hub h).kpl.flash.svnHub = (s.hub h).kpl.flash.svnHub) ∧
      (n = 4 → verifyImage s h (· = 5) (kplImage s h) = 0 → (t.hub h).kpl.flash.owner = some (imgBody (kplImage s h)) ∧
        t.get (hu h .KPL) Fld.KPL_STAT_OWNED = 1) ∧
      (n = 5 → (t.hub h).kpl.nonceSet = true ∧ (t.hub h).kpl.flash = (s.hub h).kpl.flash) ∧
      (n = 6 → (t.hub h).kpl.nonceSet = false ∧ (verifyImage s h (· = 6) (kplImage s h) ≠ 0 →
        t.get (hu h .KPL) Fld.KPL_STAT_DBG_LEVEL = s.get (hu h .KPL) Fld.KPL_STAT_DBG_LEVEL ∧ t.get (hu h .KPL) Fld.KPL_STAT_DBG_FAIL =
          min (s.get (hu h .KPL) Fld.KPL_STAT_DBG_FAIL + 1) (2 ^ Fld.KPL_STAT_DBG_FAIL.width - 1))) ∧
      (n = 7 → (t.hub h).kpl.flash.pref = s.get (hu h .KPL) Fld.KPL_SRC_HI_PREF))) ∧
  (∀ (h : HubId) (ok : Nat → Bool) (r : List Byte) (s : State), imgFormatOk r = false → verifyImage s h ok r = 1) ∧
  (∀ (h : HubId) (ok : Nat → Bool) (r : List Byte) (s : State), verifyImage s h ok r = 0 →
    imgSvn r ≥ svnOf (s.hub h).kpl.flash (imgType r) ∧ sha512 (imgBody r) = imgHash r ∧ imgSigOk (s.hub h).kpl.flash r = true ∧
    ok (imgType r) = true)

/-- The Keyplate of hub `h` sent `r` as its answer. -/
def answered (h : HubId) (r : List Byte) (s t : State) : Prop := t.out = s.out ++ [.doe h r]

/-- Attestation (R440): a Keyplate with power answers each request once, and changes nothing but its own negotiation; GET_VERSION names
version 1.2; a request out of order gets UnexpectedRequest, one for another slot or measurement InvalidRequest, an unknown one
UnsupportedRequest; digests and certificates are those of slot 0; a challenge response ends with the identity key's signature over the
transcript; without power nothing is answered. The SPDM layouts are the model's (log 60). -/
def Obligations.Attestation : Prop :=
  (∀ (h : HubId) (req : List Byte) (s : State), s.powered (hu h .KPL) = true →
    Completes (.getVersion h req) s (fun t => answered h [0x10, 0x04, 0, 0, 0, 1, 0, 0x12] s t ∧
      (t.hub h).kpl.spdm.version = true ∧ (t.hub h).kpl.spdm.algs = false ∧ t.regs = s.regs) ∧
    ((s.hub h).kpl.spdm.version = false → Completes (.getCapabilities h req) s (fun t => answered h [0x12, 0x7F, 4, 0] s t ∧ t.hubs = s.hubs)) ∧
    ((s.hub h).kpl.spdm.version = true → Completes (.getCapabilities h req) s (fun t => (t.hub h).kpl.spdm.caps = true ∧ t.regs = s.regs ∧
      ∃ r : List Byte, answered h r s t)) ∧
    ((s.hub h).kpl.spdm.caps = true → Completes (.negotiateAlgorithms h req) s (fun t => (t.hub h).kpl.spdm.algs = true ∧ t.regs = s.regs)) ∧
    ((s.hub h).kpl.spdm.caps = false → Completes (.negotiateAlgorithms h req) s (fun t => answered h [0x12, 0x7F, 4, 0] s t)) ∧
    ((s.hub h).kpl.spdm.algs = false → ∀ c ∈ [Instr.getDigests h req, .getCertificate h req, .challenge h req, .getMeasurements h req],
      Completes c s (fun t => answered h [0x12, 0x7F, 4, 0] s t ∧ t.hubs = s.hubs)) ∧
    ((s.hub h).kpl.spdm.algs = true →
      Completes (.getDigests h req) s (fun t => answered h (([0x12, 1, 0, 1] : List Byte) ++ sha512 (chainOf h)) s t ∧ t.regs = s.regs) ∧
      (le req 2 1 % 16 ≠ 0 → Completes (.getCertificate h req) s (fun t => answered h [0x12, 0x7F, 1, 0] s t ∧ t.hubs = s.hubs)) ∧
      (le req 2 1 % 16 = 0 → Completes (.getCertificate h req) s (fun t => ∃ pre : List Byte, pre.length = 8 ∧
        answered h (pre ++ ((chainOf h).drop (le req 4 2)).take (le req 6 2)) s t)) ∧
      (le req 2 1 ≠ 0 → Completes (.challenge h req) s (fun t => answered h [0x12, 0x7F, 1, 0] s t ∧ t.hubs = s.hubs)) ∧
      (le req 2 1 = 0 → Completes (.challenge h req) s (fun t => t.regs = s.regs ∧ ∃ r : List Byte, answered h (r ++ Config.ecdsaSign h.num (sha512 ((s.hub h).kpl.spdm.transcript ++ req ++ r))) s t)) ∧
      (11 < le req 3 1 → le req 3 1 ≠ 0xFF → Completes (.getMeasurements h req) s (fun t => answered h [0x12, 0x7F, 1, 0] s t ∧
        t.hubs = s.hubs)) ∧
      (1 ≤ le req 3 1 → le req 3 1 ≤ 11 → le req 2 1 % 2 = 0 → Completes (.getMeasurements h req) s (fun t => t.regs = s.regs ∧
        ∃ pre post : List Byte, pre.length = 8 ∧ post.length = 34 ∧ answered h (pre ++ measBlock s h (le req 3 1) ++ post) s t))) ∧
    (spdmKnown (spdmCode req) = false → Completes (.spdmUnsupported h req) s (fun t => t.hubs = s.hubs ∧
      answered h (([0x12, 0x7F, 7] : List Byte) ++ bytesOf 1 (spdmCode req)) s t)) ∧
    (spdmKnown (spdmCode req) = true → Completes (.spdmUnsupported h req) s (fun t => t = s))) ∧
  (∀ (h : HubId) (req : List Byte) (s : State), s.powered (hu h .KPL) = false →
    ∀ c ∈ [Instr.getVersion h req, .getCapabilities h req, .negotiateAlgorithms h req, .getDigests h req, .getCertificate h req,
      .challenge h req, .getMeasurements h req, .spdmUnsupported h req], Completes c s (fun t => t = s))

/-! ### Management cores and counters (R442, R447 to R457) -/

/-- Management cores and counters (R442, R449, R452, R453, R457) of a plane: an accepted write of RUN and HALT starts and halts the cores they name,
and RUN by any but a hub core is rejected; KICK restarts the watchdog of a running core that has not run out, and one that has not been kicked
for more than 16,500,000 beats halts the cores, shows in WDOG_HIT and closes their hasp; SNAP asks for the counts at the end of the beat and leaves
the counters; CLR_ALL zeroes counters, histograms and slot accounting; TD_CLR and CLR zero what they name and leave the counters. -/
def Obligations.ManagementAndCounters : Prop :=
  (∀ (acc : Accessor) (p : PlaneId) (v : Word) (s : State), accepted s acc (pu p .MGC) 0x040 v = true →
    ∀ c ∈ [Instr.mgcRun acc (.plane p) v, .mgcHalt acc (.plane p) v], Completes c s (fun t => t.get (pu p .MGC) Fld.MGC_STAT_RUNNING =
      ((s.get (pu p .MGC) Fld.MGC_STAT_RUNNING) ||| (v.toNat % 16)) &&& (15 - v.toNat / 16 % 16))) ∧
  (∀ (acc : Accessor) (p : PlaneId) (v : Word) (s : State), (match acc with
      | .hubCore _ => false
      | _ => true) = true → reaches s acc (pu p .MGC) 0x040 = true → v.toNat % 16 ≠ 0 →
    Completes (.mgcRun acc (.plane p) v) s (fun t => t.get (pu p .MGC) Fld.MGC_STAT_RUNNING = s.get (pu p .MGC) Fld.MGC_STAT_RUNNING ∧
      t.get (pu p .MGC) Fld.BLK_STAT_REJ = 1)) ∧
  (∀ (acc : Accessor) (p : PlaneId) (v : Word) (n : Fin 4) (s : State), accepted s acc (pu p .MGC) 0x048 v = true → v.getLsbD n.val = true →
    bit (s.get (pu p .MGC) Fld.MGC_STAT_RUNNING) n.val = true → s.beats p ≤ mgetD (s.pl p).mgcDog n.val 0 + 16500000 →
    Completes (.kick acc (.plane p) v) s (fun t => mget (t.pl p).mgcDog n.val = some (s.beats p))) ∧
  (∀ (p : PlaneId) (n : Fin 4) (s : State), s.powered (pu p .MGC) = true → s.fenced (pu p .MGC) = false →
    bit (s.get (pu p .MGC) Fld.MGC_STAT_RUNNING) n.val = true → mgetD (s.pl p).mgcDog n.val 0 + 16500000 < s.beats p →
    Completes (.mgcWatchdog (pu p .MGC) n) s (fun t => t.fenced (pu p .MGC) = true ∧ t.get (pu p .MGC) Fld.MGC_STAT_RUNNING = 0 ∧
      bit (t.get (pu p .MGC) Fld.MGC_STAT_WDOG_HIT) n.val = true ∧ s.planeFenced p = t.planeFenced p)) ∧
  (∀ (p : PlaneId) (n : Fin 4) (s : State), s.beats p ≤ mgetD (s.pl p).mgcDog n.val 0 + 16500000 →
    Completes (.mgcWatchdog (pu p .MGC) n) s (fun t => t = s)) ∧
  (∀ (acc : Accessor) (p : PlaneId) (v : Word) (s : State),
    accepted s acc (pu p .PMU) Fld.PMU_CTL_SNAP.key (v ||| Fld.PMU_CTL_SNAP.mask) = true →
    Completes (.snap acc p v) s (fun t => (t.pl p).snapDue = true ∧ ∀ k : Fin 48, cntOf t p k.val = cntOf s p k.val)) ∧
  (∀ (acc : Accessor) (p : PlaneId) (v : Word) (s : State),
    accepted s acc (pu p .PMU) Fld.PMU_CTL_CLR_ALL.key (v ||| Fld.PMU_CTL_CLR_ALL.mask) = true →
    Completes (.clrAll acc p v) s (fun t => (∀ k : Fin 48, cntOf t p k.val = 0) ∧ (∀ f ∈ tdFields, t.get (pu p .PMU) f = 0) ∧
      ∀ h : Fin 4, ∀ f ∈ histFields h.val, t.get (pu p .PMU) f = 0)) ∧
  (∀ (acc : Accessor) (p : PlaneId) (v : Word) (s : State),
    accepted s acc (pu p .PMU) Fld.PMU_TD_CTL_TD_CLR.key (v ||| Fld.PMU_TD_CTL_TD_CLR.mask) = true →
    Completes (.tdClr acc p v) s (fun t => (∀ f ∈ tdFields, t.get (pu p .PMU) f = 0) ∧ ∀ k : Fin 48, cntOf t p k.val = cntOf s p k.val)) ∧
  (∀ (acc : Accessor) (p : PlaneId) (h : Fin 4) (v : Word) (s : State),
    accepted s acc (pu p .PMU) (Fld.PMU_HIST_CFG_CLR.at h.val).key (v ||| (Fld.PMU_HIST_CFG_CLR.at h.val).mask) = true →
    Completes (.clr acc p h v) s (fun t => (∀ f ∈ histFields h.val, t.get (pu p .PMU) f = 0) ∧
      ∀ k : Fin 48, cntOf t p k.val = cntOf s p k.val))
end

