-- ==== Sys2Proof/Laws/Maps.lean ====
section
/-! SUPPORT. Sys2Proof/Laws/Maps.lean: the laws of the sorted maps, of field access within a word, and of the register store. -/

namespace Sys2Proof.Machine

/-! ### Sorted maps -/

@[simp] theorem mget_nil {α : Type} (k : Nat) : mget ([] : SMap α) k = none := rfl

theorem mget_mput_same {α : Type} (m : SMap α) (k : Nat) (v : α) : mget (mput m k v) k = some v := by
  induction m with
  | nil => simp [mput, mget]
  | cons e r ih =>
    obtain ⟨k', v'⟩ := e
    unfold mput
    split
    · simp [mget]
    · split
      · simp [mget]
      · rename_i h1 h2
        have hk : k' ≠ k := fun h => h2 h.symm
        simp [mget, hk, ih]

theorem mget_mput_ne {α : Type} (m : SMap α) {k j : Nat} (v : α) (h : k ≠ j) : mget (mput m k v) j = mget m j := by
  induction m with
  | nil => simp [mput, mget, h]
  | cons e r ih =>
    obtain ⟨k', v'⟩ := e
    unfold mput
    split
    · simp [mget, h]
    · split
      · rename_i h1 h2
        subst h2
        simp [mget, h]
      · simp only [mget, ih]

/-- What a map holds after a store: the value at its key, and every other key as before. -/
theorem mget_mput {α : Type} (m : SMap α) (k j : Nat) (v : α) : mget (mput m k v) j = if k = j then some v else mget m j := by
  split
  · rename_i h; subst h; exact mget_mput_same m k v
  · rename_i h; exact mget_mput_ne m v h

theorem mget_mdel {α : Type} (m : SMap α) (k j : Nat) : mget (mdel m k) j = if k = j then none else mget m j := by
  induction m with
  | nil => simp [mdel]
  | cons e r ih =>
    obtain ⟨k', v'⟩ := e
    unfold mdel at *
    by_cases hk : k' = k
    · subst hk
      simp only [List.filter, ne_eq, not_true_eq_false, decide_false, ih, mget]
      split <;> simp_all
    · simp only [List.filter, ne_eq, hk, not_false_eq_true, decide_true, mget, ih]
      split
      · rename_i h; subst h; simp [Ne.symm hk]
      · rfl

@[simp] theorem mgetD_mput_same {α : Type} (m : SMap α) (k : Nat) (v d : α) : mgetD (mput m k v) k d = v := by
  simp [mgetD, mget_mput_same]

theorem mgetD_mput_ne {α : Type} (m : SMap α) {k j : Nat} (v d : α) (h : k ≠ j) : mgetD (mput m k v) j d = mgetD m j d := by
  simp [mgetD, mget_mput_ne m v h]

/-- Every key of a map is above a bound. -/
def above {α : Type} (b : Nat) : SMap α → Bool
  | [] => true
  | (k, _) :: r => decide (b < k) && above k r

theorem keysRise_cons {α : Type} (e : Nat × α) (r : SMap α) : keysRise (e :: r) = above e.1 r := by
  induction r generalizing e with
  | nil => simp [keysRise, above]
  | cons f t ih => obtain ⟨k, v⟩ := f; simp [keysRise, above, ih]

theorem above_mono {α : Type} {a b : Nat} (h : a ≤ b) (m : SMap α) (hb : above b m = true) : above a m = true := by
  cases m with
  | nil => rfl
  | cons e r =>
    obtain ⟨k, v⟩ := e
    simp only [above, Bool.and_eq_true, decide_eq_true_eq] at *
    exact ⟨by omega, hb.2⟩

theorem above_mput {α : Type} {b k : Nat} (m : SMap α) (v : α) (hm : above b m = true) (hk : b < k) :
    above b (mput m k v) = true := by
  induction m generalizing b with
  | nil => simp [mput, above, hk]
  | cons e r ih =>
    obtain ⟨k', v'⟩ := e
    simp only [above, Bool.and_eq_true, decide_eq_true_eq] at hm
    unfold mput
    split
    · simp [above, hk, hm.2]; assumption
    · split
      · rename_i h1 h2; subst h2; simp [above, hk, hm.2]
      · rename_i h1 h2
        simp only [above, Bool.and_eq_true, decide_eq_true_eq]
        exact ⟨hm.1, ih hm.2 (by omega)⟩

/-- A store keeps the keys rising. -/
theorem keysRise_mput {α : Type} (m : SMap α) (k : Nat) (v : α) (h : keysRise m = true) : keysRise (mput m k v) = true := by
  cases m with
  | nil => rfl
  | cons e r =>
    obtain ⟨k', v'⟩ := e
    rw [keysRise_cons] at h
    unfold mput
    split
    · rw [keysRise_cons]; simp [above, h]; assumption
    · split
      · rename_i h1 h2; subst h2; rw [keysRise_cons]; exact h
      · rw [keysRise_cons]; exact above_mput r v h (by rename_i h1 h2; simp only; omega)

theorem above_filter {α : Type} {b : Nat} (m : SMap α) (f : Nat × α → Bool) (h : above b m = true) :
    above b (m.filter f) = true := by
  induction m generalizing b with
  | nil => rfl
  | cons e r ih =>
    obtain ⟨k, v⟩ := e
    simp only [above, Bool.and_eq_true, decide_eq_true_eq] at h
    simp only [List.filter]
    split
    · simp only [above, Bool.and_eq_true, decide_eq_true_eq]; exact ⟨h.1, ih h.2⟩
    · exact above_mono (by omega) _ (ih h.2)

/-- Leaving entries out keeps the keys rising. -/
theorem keysRise_filter {α : Type} (m : SMap α) (f : Nat × α → Bool) (h : keysRise m = true) : keysRise (m.filter f) = true := by
  cases m with
  | nil => rfl
  | cons e r =>
    rw [keysRise_cons] at h
    simp only [List.filter]
    split
    · rw [keysRise_cons]; exact above_filter r f h
    · have := above_filter r f h
      cases hr : r.filter f with
      | nil => rfl
      | cons g t =>
        obtain ⟨k, v⟩ := g
        rw [hr] at this
        rw [keysRise_cons]
        simp only [above, Bool.and_eq_true] at this
        exact this.2

/-! ### Fields of a word -/

/-- The bits of a field's mask. -/
theorem mask_getLsbD (f : RField) (i : Nat) : f.mask.getLsbD i = decide (i < 32 ∧ f.lo ≤ i ∧ i - f.lo < f.width) := by
  rw [Bool.eq_iff_iff]
  simp only [RField.mask, BitVec.getLsbD_shiftLeft, BitVec.getLsbD_setWidth, BitVec.getLsbD_allOnes, Bool.and_eq_true,
    Bool.not_eq_true', decide_eq_true_eq, decide_eq_false_iff_not]
  omega

theorem fieldSet_getLsbD (w : Word) (f : RField) (v i : Nat) (hi : i < 32) :
    (fieldSet w f v).getLsbD i = if f.lo ≤ i ∧ i - f.lo < f.width then v.testBit (i - f.lo) else w.getLsbD i := by
  simp only [fieldSet, BitVec.getLsbD_or, BitVec.getLsbD_and, BitVec.getLsbD_not, mask_getLsbD, BitVec.getLsbD_shiftLeft,
    BitVec.getLsbD_ofNat, hi, decide_true, Bool.true_and, true_and]
  by_cases h : f.lo ≤ i ∧ i - f.lo < f.width
  · have h2 : i - f.lo < 32 := by omega
    have h3 : ¬ i < f.lo := by omega
    simp [h, h2, h3]
  · simp [h]

theorem fieldGet_fieldSet_same (w : Word) (f : RField) (v : Nat) (h : f.lo ≤ f.hi ∧ f.hi < 32) :
    fieldGet (fieldSet w f v) f = v % 2 ^ f.width := by
  have key : (fieldSet w f v).extractLsb' f.lo f.width = BitVec.ofNat f.width v := by
    apply BitVec.eq_of_getLsbD_eq
    intro i hi
    have hw : f.lo + i < 32 := by unfold RField.width at hi; omega
    have h2 : f.lo + i - f.lo < f.width := by omega
    rw [BitVec.getLsbD_extractLsb', fieldSet_getLsbD _ _ _ _ hw, if_pos ⟨by omega, h2⟩, BitVec.getLsbD_ofNat]
    simp [hi]
  rw [fieldGet, key, BitVec.toNat_ofNat]

/-- Two fields of a register share no bit. -/
def apart (f g : RField) : Bool := decide (f.hi < g.lo) || decide (g.hi < f.lo)

theorem fieldGet_fieldSet_apart (w : Word) (f g : RField) (v : Nat) (hf : f.lo ≤ f.hi) (hg : g.lo ≤ g.hi)
    (h : apart f g = true) : fieldGet (fieldSet w f v) g = fieldGet w g := by
  have key : (fieldSet w f v).extractLsb' g.lo g.width = w.extractLsb' g.lo g.width := by
    apply BitVec.eq_of_getLsbD_eq
    intro i hi
    rw [BitVec.getLsbD_extractLsb', BitVec.getLsbD_extractLsb']
    by_cases h32 : g.lo + i < 32
    · have hn : ¬ (f.lo ≤ g.lo + i ∧ g.lo + i - f.lo < f.width) := by
        simp only [apart, Bool.or_eq_true, decide_eq_true_eq] at h
        unfold RField.width at *
        omega
      rw [fieldSet_getLsbD _ _ _ _ h32, if_neg hn]
    · rw [BitVec.getLsbD_of_ge _ _ (by omega), BitVec.getLsbD_of_ge _ _ (by omega)]
  rw [fieldGet, fieldGet, key]

end Sys2Proof.Machine
end

