-- ==== Sys2Proof/Laws/Memory.lean ====
section
/-! SUPPORT. Sys2Proof/Laws/Memory.lean: the laws of plane memory: what a byte reads as after a store, and that every memory operation keeps
the canonical form. -/

namespace Sys2Proof.Machine

/-! ### Bytes -/

/-- A byte after a store of one byte: the stored byte at its address, every other byte as before. -/
theorem memByte_memPut (m : List Host.Cell) (a j : Nat) (b : Byte) : memByte (memPut m a b) j = if a = j then b else memByte m j := by
  unfold memByte memPut
  by_cases hb : b = 0
  · simp only [hb, if_true, mgetD, mget_mdel]
    split <;> rfl
  · simp only [hb, if_false, mgetD, mget_mput]
    split <;> rfl

/-- A byte after a store of bytes: the stored byte within the range, every other byte as before. -/
theorem memByte_memPuts (d : List Byte) (m : List Host.Cell) (a j : Nat) :
    memByte (memPuts m a d) j = if a ≤ j ∧ j < a + d.length then d.getD (j - a) 0 else memByte m j := by
  induction d generalizing m a with
  | nil =>
    have h : ¬ (a ≤ j ∧ j < a + ([] : List Byte).length) := by simp
    rw [if_neg h]; rfl
  | cons b r ih =>
    simp only [memPuts, ih, memByte_memPut, List.length_cons]
    by_cases h1 : a = j
    · subst h1
      rw [if_neg (by omega), if_pos rfl, if_pos (by omega), Nat.sub_self]; rfl
    · rw [if_neg h1]
      by_cases h2 : a + 1 ≤ j ∧ j < a + 1 + r.length
      · rw [if_pos h2, if_pos (by omega)]
        have : j - a = (j - (a + 1)) + 1 := by omega
        rw [this]; rfl
      · rw [if_neg h2, if_neg (by omega)]

/-! ### The canonical form -/

theorem memWf_nil : memWf [] = true := rfl

/-- Leaving entries out keeps the form. -/
theorem memWf_filter (m : List Host.Cell) (f : Host.Cell → Bool) (h : memWf m = true) : memWf (m.filter f) = true := by
  simp only [memWf, Bool.and_eq_true, List.all_eq_true] at *
  exact ⟨keysRise_filter m f h.1, fun e he => h.2 e (List.mem_filter.mp he).1⟩

theorem all_mput (m : List Host.Cell) (k : Nat) (v : Byte) (hv : v ≠ 0) (h : ∀ e ∈ m, e.2 ≠ 0) : ∀ e ∈ mput m k v, e.2 ≠ 0 := by
  induction m with
  | nil => intro e he; simp only [mput, List.mem_singleton] at he; subst he; exact hv
  | cons g r ih =>
    obtain ⟨k', v'⟩ := g
    intro e he
    unfold mput at he
    split at he
    · rcases List.mem_cons.mp he with rfl | he
      · exact hv
      · exact h e he
    · split at he
      · rcases List.mem_cons.mp he with rfl | he
        · exact hv
        · exact h e (List.mem_cons_of_mem _ he)
      · rcases List.mem_cons.mp he with rfl | he
        · exact h _ (List.mem_cons_self ..)
        · exact ih (fun e he => h e (List.mem_cons_of_mem _ he)) e he

/-- A store of one byte keeps the form. -/
theorem memWf_memPut (m : List Host.Cell) (a : Nat) (b : Byte) (h : memWf m = true) : memWf (memPut m a b) = true := by
  unfold memPut
  split
  · exact memWf_filter m _ h
  · rename_i hb
    simp only [memWf, Bool.and_eq_true, List.all_eq_true, decide_eq_true_eq] at *
    exact ⟨keysRise_mput m a b h.1, all_mput m a b hb h.2⟩

/-- A store of bytes keeps the form. -/
theorem memWf_memPuts (d : List Byte) (m : List Host.Cell) (a : Nat) (h : memWf m = true) : memWf (memPuts m a d) = true := by
  induction d generalizing m a with
  | nil => exact h
  | cons b r ih => exact ih _ _ (memWf_memPut m a b h)

end Sys2Proof.Machine
end

