-- ==== Sys2Proof/Laws/State.lean ====
section
/-! SUPPORT. Sys2Proof/Laws/State.lean: what each named update of the state leaves alone, one lemma per update and field, and the laws of
a plane's and a hub's own state. -/

namespace Sys2Proof.Machine

/-! ### setReg -/

@[simp] theorem State.setReg_pulse (s : State) (u off : Nat) (w : Word) : (s.setReg u off w).pulse = s.pulse := rfl
@[simp] theorem State.setReg_rep (s : State) (u off : Nat) (w : Word) : (s.setReg u off w).rep = s.rep := rfl
@[simp] theorem State.setReg_planes (s : State) (u off : Nat) (w : Word) : (s.setReg u off w).planes = s.planes := rfl
@[simp] theorem State.setReg_hubs (s : State) (u off : Nat) (w : Word) : (s.setReg u off w).hubs = s.hubs := rfl
@[simp] theorem State.setReg_pwr (s : State) (u off : Nat) (w : Word) : (s.setReg u off w).pwr = s.pwr := rfl
@[simp] theorem State.setReg_lease (s : State) (u off : Nat) (w : Word) : (s.setReg u off w).lease = s.lease := rfl
@[simp] theorem State.setReg_mbx (s : State) (u off : Nat) (w : Word) : (s.setReg u off w).mbx = s.mbx := rfl
@[simp] theorem State.setReg_cfg (s : State) (u off : Nat) (w : Word) : (s.setReg u off w).cfg = s.cfg := rfl
@[simp] theorem State.setReg_ident (s : State) (u off : Nat) (w : Word) : (s.setReg u off w).ident = s.ident := rfl
@[simp] theorem State.setReg_fitted (s : State) (u off : Nat) (w : Word) : (s.setReg u off w).fitted = s.fitted := rfl
@[simp] theorem State.setReg_dead (s : State) (u off : Nat) (w : Word) : (s.setReg u off w).dead = s.dead := rfl
@[simp] theorem State.setReg_ppsOut (s : State) (u off : Nat) (w : Word) : (s.setReg u off w).ppsOut = s.ppsOut := rfl
@[simp] theorem State.setReg_out (s : State) (u off : Nat) (w : Word) : (s.setReg u off w).out = s.out := rfl
@[simp] theorem State.setReg_fresh (s : State) (u off : Nat) (w : Word) : (s.setReg u off w).fresh = s.fresh := rfl
@[simp] theorem State.setReg_pending (s : State) (u off : Nat) (w : Word) : (s.setReg u off w).pending = s.pending := rfl

/-! ### put -/

@[simp] theorem State.put_pulse (s : State) (u : Nat) (f : RField) (v : Nat) : (s.put u f v).pulse = s.pulse := rfl
@[simp] theorem State.put_rep (s : State) (u : Nat) (f : RField) (v : Nat) : (s.put u f v).rep = s.rep := rfl
@[simp] theorem State.put_planes (s : State) (u : Nat) (f : RField) (v : Nat) : (s.put u f v).planes = s.planes := rfl
@[simp] theorem State.put_hubs (s : State) (u : Nat) (f : RField) (v : Nat) : (s.put u f v).hubs = s.hubs := rfl
@[simp] theorem State.put_pwr (s : State) (u : Nat) (f : RField) (v : Nat) : (s.put u f v).pwr = s.pwr := rfl
@[simp] theorem State.put_lease (s : State) (u : Nat) (f : RField) (v : Nat) : (s.put u f v).lease = s.lease := rfl
@[simp] theorem State.put_mbx (s : State) (u : Nat) (f : RField) (v : Nat) : (s.put u f v).mbx = s.mbx := rfl
@[simp] theorem State.put_cfg (s : State) (u : Nat) (f : RField) (v : Nat) : (s.put u f v).cfg = s.cfg := rfl
@[simp] theorem State.put_ident (s : State) (u : Nat) (f : RField) (v : Nat) : (s.put u f v).ident = s.ident := rfl
@[simp] theorem State.put_fitted (s : State) (u : Nat) (f : RField) (v : Nat) : (s.put u f v).fitted = s.fitted := rfl
@[simp] theorem State.put_dead (s : State) (u : Nat) (f : RField) (v : Nat) : (s.put u f v).dead = s.dead := rfl
@[simp] theorem State.put_ppsOut (s : State) (u : Nat) (f : RField) (v : Nat) : (s.put u f v).ppsOut = s.ppsOut := rfl
@[simp] theorem State.put_out (s : State) (u : Nat) (f : RField) (v : Nat) : (s.put u f v).out = s.out := rfl
@[simp] theorem State.put_fresh (s : State) (u : Nat) (f : RField) (v : Nat) : (s.put u f v).fresh = s.fresh := rfl
@[simp] theorem State.put_pending (s : State) (u : Nat) (f : RField) (v : Nat) : (s.put u f v).pending = s.pending := rfl

/-! ### put64 -/

@[simp] theorem State.put64_pulse (s : State) (u : Nat) (lo hi : RField) (v : Nat) : (s.put64 u lo hi v).pulse = s.pulse := rfl
@[simp] theorem State.put64_rep (s : State) (u : Nat) (lo hi : RField) (v : Nat) : (s.put64 u lo hi v).rep = s.rep := rfl
@[simp] theorem State.put64_planes (s : State) (u : Nat) (lo hi : RField) (v : Nat) : (s.put64 u lo hi v).planes = s.planes := rfl
@[simp] theorem State.put64_hubs (s : State) (u : Nat) (lo hi : RField) (v : Nat) : (s.put64 u lo hi v).hubs = s.hubs := rfl
@[simp] theorem State.put64_pwr (s : State) (u : Nat) (lo hi : RField) (v : Nat) : (s.put64 u lo hi v).pwr = s.pwr := rfl
@[simp] theorem State.put64_lease (s : State) (u : Nat) (lo hi : RField) (v : Nat) : (s.put64 u lo hi v).lease = s.lease := rfl
@[simp] theorem State.put64_mbx (s : State) (u : Nat) (lo hi : RField) (v : Nat) : (s.put64 u lo hi v).mbx = s.mbx := rfl
@[simp] theorem State.put64_cfg (s : State) (u : Nat) (lo hi : RField) (v : Nat) : (s.put64 u lo hi v).cfg = s.cfg := rfl
@[simp] theorem State.put64_ident (s : State) (u : Nat) (lo hi : RField) (v : Nat) : (s.put64 u lo hi v).ident = s.ident := rfl
@[simp] theorem State.put64_fitted (s : State) (u : Nat) (lo hi : RField) (v : Nat) : (s.put64 u lo hi v).fitted = s.fitted := rfl
@[simp] theorem State.put64_dead (s : State) (u : Nat) (lo hi : RField) (v : Nat) : (s.put64 u lo hi v).dead = s.dead := rfl
@[simp] theorem State.put64_ppsOut (s : State) (u : Nat) (lo hi : RField) (v : Nat) : (s.put64 u lo hi v).ppsOut = s.ppsOut := rfl
@[simp] theorem State.put64_out (s : State) (u : Nat) (lo hi : RField) (v : Nat) : (s.put64 u lo hi v).out = s.out := rfl
@[simp] theorem State.put64_fresh (s : State) (u : Nat) (lo hi : RField) (v : Nat) : (s.put64 u lo hi v).fresh = s.fresh := rfl
@[simp] theorem State.put64_pending (s : State) (u : Nat) (lo hi : RField) (v : Nat) : (s.put64 u lo hi v).pending = s.pending := rfl

/-! ### inc -/

@[simp] theorem State.inc_pulse (s : State) (u : Nat) (f : RField) (n : Nat) : (s.inc u f n).pulse = s.pulse := rfl
@[simp] theorem State.inc_rep (s : State) (u : Nat) (f : RField) (n : Nat) : (s.inc u f n).rep = s.rep := rfl
@[simp] theorem State.inc_planes (s : State) (u : Nat) (f : RField) (n : Nat) : (s.inc u f n).planes = s.planes := rfl
@[simp] theorem State.inc_hubs (s : State) (u : Nat) (f : RField) (n : Nat) : (s.inc u f n).hubs = s.hubs := rfl
@[simp] theorem State.inc_pwr (s : State) (u : Nat) (f : RField) (n : Nat) : (s.inc u f n).pwr = s.pwr := rfl
@[simp] theorem State.inc_lease (s : State) (u : Nat) (f : RField) (n : Nat) : (s.inc u f n).lease = s.lease := rfl
@[simp] theorem State.inc_mbx (s : State) (u : Nat) (f : RField) (n : Nat) : (s.inc u f n).mbx = s.mbx := rfl
@[simp] theorem State.inc_cfg (s : State) (u : Nat) (f : RField) (n : Nat) : (s.inc u f n).cfg = s.cfg := rfl
@[simp] theorem State.inc_ident (s : State) (u : Nat) (f : RField) (n : Nat) : (s.inc u f n).ident = s.ident := rfl
@[simp] theorem State.inc_fitted (s : State) (u : Nat) (f : RField) (n : Nat) : (s.inc u f n).fitted = s.fitted := rfl
@[simp] theorem State.inc_dead (s : State) (u : Nat) (f : RField) (n : Nat) : (s.inc u f n).dead = s.dead := rfl
@[simp] theorem State.inc_ppsOut (s : State) (u : Nat) (f : RField) (n : Nat) : (s.inc u f n).ppsOut = s.ppsOut := rfl
@[simp] theorem State.inc_out (s : State) (u : Nat) (f : RField) (n : Nat) : (s.inc u f n).out = s.out := rfl
@[simp] theorem State.inc_fresh (s : State) (u : Nat) (f : RField) (n : Nat) : (s.inc u f n).fresh = s.fresh := rfl
@[simp] theorem State.inc_pending (s : State) (u : Nat) (f : RField) (n : Nat) : (s.inc u f n).pending = s.pending := rfl

/-! ### incSat -/

@[simp] theorem State.incSat_pulse (s : State) (u : Nat) (f : RField) (n : Nat) : (s.incSat u f n).pulse = s.pulse := rfl
@[simp] theorem State.incSat_rep (s : State) (u : Nat) (f : RField) (n : Nat) : (s.incSat u f n).rep = s.rep := rfl
@[simp] theorem State.incSat_planes (s : State) (u : Nat) (f : RField) (n : Nat) : (s.incSat u f n).planes = s.planes := rfl
@[simp] theorem State.incSat_hubs (s : State) (u : Nat) (f : RField) (n : Nat) : (s.incSat u f n).hubs = s.hubs := rfl
@[simp] theorem State.incSat_pwr (s : State) (u : Nat) (f : RField) (n : Nat) : (s.incSat u f n).pwr = s.pwr := rfl
@[simp] theorem State.incSat_lease (s : State) (u : Nat) (f : RField) (n : Nat) : (s.incSat u f n).lease = s.lease := rfl
@[simp] theorem State.incSat_mbx (s : State) (u : Nat) (f : RField) (n : Nat) : (s.incSat u f n).mbx = s.mbx := rfl
@[simp] theorem State.incSat_cfg (s : State) (u : Nat) (f : RField) (n : Nat) : (s.incSat u f n).cfg = s.cfg := rfl
@[simp] theorem State.incSat_ident (s : State) (u : Nat) (f : RField) (n : Nat) : (s.incSat u f n).ident = s.ident := rfl
@[simp] theorem State.incSat_fitted (s : State) (u : Nat) (f : RField) (n : Nat) : (s.incSat u f n).fitted = s.fitted := rfl
@[simp] theorem State.incSat_dead (s : State) (u : Nat) (f : RField) (n : Nat) : (s.incSat u f n).dead = s.dead := rfl
@[simp] theorem State.incSat_ppsOut (s : State) (u : Nat) (f : RField) (n : Nat) : (s.incSat u f n).ppsOut = s.ppsOut := rfl
@[simp] theorem State.incSat_out (s : State) (u : Nat) (f : RField) (n : Nat) : (s.incSat u f n).out = s.out := rfl
@[simp] theorem State.incSat_fresh (s : State) (u : Nat) (f : RField) (n : Nat) : (s.incSat u f n).fresh = s.fresh := rfl
@[simp] theorem State.incSat_pending (s : State) (u : Nat) (f : RField) (n : Nat) : (s.incSat u f n).pending = s.pending := rfl

/-! ### eraseRegs -/

@[simp] theorem State.eraseRegs_pulse (s : State) (u : Nat) (keep : List Nat) : (s.eraseRegs u keep).pulse = s.pulse := rfl
@[simp] theorem State.eraseRegs_rep (s : State) (u : Nat) (keep : List Nat) : (s.eraseRegs u keep).rep = s.rep := rfl
@[simp] theorem State.eraseRegs_planes (s : State) (u : Nat) (keep : List Nat) : (s.eraseRegs u keep).planes = s.planes := rfl
@[simp] theorem State.eraseRegs_hubs (s : State) (u : Nat) (keep : List Nat) : (s.eraseRegs u keep).hubs = s.hubs := rfl
@[simp] theorem State.eraseRegs_pwr (s : State) (u : Nat) (keep : List Nat) : (s.eraseRegs u keep).pwr = s.pwr := rfl
@[simp] theorem State.eraseRegs_lease (s : State) (u : Nat) (keep : List Nat) : (s.eraseRegs u keep).lease = s.lease := rfl
@[simp] theorem State.eraseRegs_mbx (s : State) (u : Nat) (keep : List Nat) : (s.eraseRegs u keep).mbx = s.mbx := rfl
@[simp] theorem State.eraseRegs_cfg (s : State) (u : Nat) (keep : List Nat) : (s.eraseRegs u keep).cfg = s.cfg := rfl
@[simp] theorem State.eraseRegs_ident (s : State) (u : Nat) (keep : List Nat) : (s.eraseRegs u keep).ident = s.ident := rfl
@[simp] theorem State.eraseRegs_fitted (s : State) (u : Nat) (keep : List Nat) : (s.eraseRegs u keep).fitted = s.fitted := rfl
@[simp] theorem State.eraseRegs_dead (s : State) (u : Nat) (keep : List Nat) : (s.eraseRegs u keep).dead = s.dead := rfl
@[simp] theorem State.eraseRegs_ppsOut (s : State) (u : Nat) (keep : List Nat) : (s.eraseRegs u keep).ppsOut = s.ppsOut := rfl
@[simp] theorem State.eraseRegs_out (s : State) (u : Nat) (keep : List Nat) : (s.eraseRegs u keep).out = s.out := rfl
@[simp] theorem State.eraseRegs_fresh (s : State) (u : Nat) (keep : List Nat) : (s.eraseRegs u keep).fresh = s.fresh := rfl
@[simp] theorem State.eraseRegs_pending (s : State) (u : Nat) (keep : List Nat) : (s.eraseRegs u keep).pending = s.pending := rfl

/-! ### modPl -/

@[simp] theorem State.modPl_regs (s : State) (p : PlaneId) (f : Plane → Plane) : (s.modPl p f).regs = s.regs := rfl
@[simp] theorem State.modPl_pulse (s : State) (p : PlaneId) (f : Plane → Plane) : (s.modPl p f).pulse = s.pulse := rfl
@[simp] theorem State.modPl_rep (s : State) (p : PlaneId) (f : Plane → Plane) : (s.modPl p f).rep = s.rep := rfl
@[simp] theorem State.modPl_hubs (s : State) (p : PlaneId) (f : Plane → Plane) : (s.modPl p f).hubs = s.hubs := rfl
@[simp] theorem State.modPl_pwr (s : State) (p : PlaneId) (f : Plane → Plane) : (s.modPl p f).pwr = s.pwr := rfl
@[simp] theorem State.modPl_lease (s : State) (p : PlaneId) (f : Plane → Plane) : (s.modPl p f).lease = s.lease := rfl
@[simp] theorem State.modPl_mbx (s : State) (p : PlaneId) (f : Plane → Plane) : (s.modPl p f).mbx = s.mbx := rfl
@[simp] theorem State.modPl_cfg (s : State) (p : PlaneId) (f : Plane → Plane) : (s.modPl p f).cfg = s.cfg := rfl
@[simp] theorem State.modPl_ident (s : State) (p : PlaneId) (f : Plane → Plane) : (s.modPl p f).ident = s.ident := rfl
@[simp] theorem State.modPl_fitted (s : State) (p : PlaneId) (f : Plane → Plane) : (s.modPl p f).fitted = s.fitted := rfl
@[simp] theorem State.modPl_dead (s : State) (p : PlaneId) (f : Plane → Plane) : (s.modPl p f).dead = s.dead := rfl
@[simp] theorem State.modPl_ppsOut (s : State) (p : PlaneId) (f : Plane → Plane) : (s.modPl p f).ppsOut = s.ppsOut := rfl
@[simp] theorem State.modPl_out (s : State) (p : PlaneId) (f : Plane → Plane) : (s.modPl p f).out = s.out := rfl
@[simp] theorem State.modPl_fresh (s : State) (p : PlaneId) (f : Plane → Plane) : (s.modPl p f).fresh = s.fresh := rfl
@[simp] theorem State.modPl_pending (s : State) (p : PlaneId) (f : Plane → Plane) : (s.modPl p f).pending = s.pending := rfl

/-! ### modHub -/

@[simp] theorem State.modHub_regs (s : State) (h : HubId) (f : Hub → Hub) : (s.modHub h f).regs = s.regs := rfl
@[simp] theorem State.modHub_pulse (s : State) (h : HubId) (f : Hub → Hub) : (s.modHub h f).pulse = s.pulse := rfl
@[simp] theorem State.modHub_rep (s : State) (h : HubId) (f : Hub → Hub) : (s.modHub h f).rep = s.rep := rfl
@[simp] theorem State.modHub_planes (s : State) (h : HubId) (f : Hub → Hub) : (s.modHub h f).planes = s.planes := rfl
@[simp] theorem State.modHub_pwr (s : State) (h : HubId) (f : Hub → Hub) : (s.modHub h f).pwr = s.pwr := rfl
@[simp] theorem State.modHub_lease (s : State) (h : HubId) (f : Hub → Hub) : (s.modHub h f).lease = s.lease := rfl
@[simp] theorem State.modHub_mbx (s : State) (h : HubId) (f : Hub → Hub) : (s.modHub h f).mbx = s.mbx := rfl
@[simp] theorem State.modHub_cfg (s : State) (h : HubId) (f : Hub → Hub) : (s.modHub h f).cfg = s.cfg := rfl
@[simp] theorem State.modHub_ident (s : State) (h : HubId) (f : Hub → Hub) : (s.modHub h f).ident = s.ident := rfl
@[simp] theorem State.modHub_fitted (s : State) (h : HubId) (f : Hub → Hub) : (s.modHub h f).fitted = s.fitted := rfl
@[simp] theorem State.modHub_dead (s : State) (h : HubId) (f : Hub → Hub) : (s.modHub h f).dead = s.dead := rfl
@[simp] theorem State.modHub_ppsOut (s : State) (h : HubId) (f : Hub → Hub) : (s.modHub h f).ppsOut = s.ppsOut := rfl
@[simp] theorem State.modHub_out (s : State) (h : HubId) (f : Hub → Hub) : (s.modHub h f).out = s.out := rfl
@[simp] theorem State.modHub_fresh (s : State) (h : HubId) (f : Hub → Hub) : (s.modHub h f).fresh = s.fresh := rfl
@[simp] theorem State.modHub_pending (s : State) (h : HubId) (f : Hub → Hub) : (s.modHub h f).pending = s.pending := rfl

/-! ### modPwr -/

@[simp] theorem State.modPwr_regs (s : State) (f : PowerCtl → PowerCtl) : (s.modPwr f).regs = s.regs := rfl
@[simp] theorem State.modPwr_pulse (s : State) (f : PowerCtl → PowerCtl) : (s.modPwr f).pulse = s.pulse := rfl
@[simp] theorem State.modPwr_rep (s : State) (f : PowerCtl → PowerCtl) : (s.modPwr f).rep = s.rep := rfl
@[simp] theorem State.modPwr_planes (s : State) (f : PowerCtl → PowerCtl) : (s.modPwr f).planes = s.planes := rfl
@[simp] theorem State.modPwr_hubs (s : State) (f : PowerCtl → PowerCtl) : (s.modPwr f).hubs = s.hubs := rfl
@[simp] theorem State.modPwr_lease (s : State) (f : PowerCtl → PowerCtl) : (s.modPwr f).lease = s.lease := rfl
@[simp] theorem State.modPwr_mbx (s : State) (f : PowerCtl → PowerCtl) : (s.modPwr f).mbx = s.mbx := rfl
@[simp] theorem State.modPwr_cfg (s : State) (f : PowerCtl → PowerCtl) : (s.modPwr f).cfg = s.cfg := rfl
@[simp] theorem State.modPwr_ident (s : State) (f : PowerCtl → PowerCtl) : (s.modPwr f).ident = s.ident := rfl
@[simp] theorem State.modPwr_fitted (s : State) (f : PowerCtl → PowerCtl) : (s.modPwr f).fitted = s.fitted := rfl
@[simp] theorem State.modPwr_dead (s : State) (f : PowerCtl → PowerCtl) : (s.modPwr f).dead = s.dead := rfl
@[simp] theorem State.modPwr_ppsOut (s : State) (f : PowerCtl → PowerCtl) : (s.modPwr f).ppsOut = s.ppsOut := rfl
@[simp] theorem State.modPwr_out (s : State) (f : PowerCtl → PowerCtl) : (s.modPwr f).out = s.out := rfl
@[simp] theorem State.modPwr_fresh (s : State) (f : PowerCtl → PowerCtl) : (s.modPwr f).fresh = s.fresh := rfl
@[simp] theorem State.modPwr_pending (s : State) (f : PowerCtl → PowerCtl) : (s.modPwr f).pending = s.pending := rfl

/-! ### emit -/

@[simp] theorem State.emit_regs (s : State) (o : Output) : (s.emit o).regs = s.regs := rfl
@[simp] theorem State.emit_pulse (s : State) (o : Output) : (s.emit o).pulse = s.pulse := rfl
@[simp] theorem State.emit_rep (s : State) (o : Output) : (s.emit o).rep = s.rep := rfl
@[simp] theorem State.emit_planes (s : State) (o : Output) : (s.emit o).planes = s.planes := rfl
@[simp] theorem State.emit_hubs (s : State) (o : Output) : (s.emit o).hubs = s.hubs := rfl
@[simp] theorem State.emit_pwr (s : State) (o : Output) : (s.emit o).pwr = s.pwr := rfl
@[simp] theorem State.emit_lease (s : State) (o : Output) : (s.emit o).lease = s.lease := rfl
@[simp] theorem State.emit_mbx (s : State) (o : Output) : (s.emit o).mbx = s.mbx := rfl
@[simp] theorem State.emit_cfg (s : State) (o : Output) : (s.emit o).cfg = s.cfg := rfl
@[simp] theorem State.emit_ident (s : State) (o : Output) : (s.emit o).ident = s.ident := rfl
@[simp] theorem State.emit_fitted (s : State) (o : Output) : (s.emit o).fitted = s.fitted := rfl
@[simp] theorem State.emit_dead (s : State) (o : Output) : (s.emit o).dead = s.dead := rfl
@[simp] theorem State.emit_ppsOut (s : State) (o : Output) : (s.emit o).ppsOut = s.ppsOut := rfl
@[simp] theorem State.emit_fresh (s : State) (o : Output) : (s.emit o).fresh = s.fresh := rfl
@[simp] theorem State.emit_pending (s : State) (o : Output) : (s.emit o).pending = s.pending := rfl

/-! ### pulseBit -/

@[simp] theorem State.pulseBit_regs (s : State) (u n : Nat) : (s.pulseBit u n).regs = s.regs := rfl
@[simp] theorem State.pulseBit_rep (s : State) (u n : Nat) : (s.pulseBit u n).rep = s.rep := rfl
@[simp] theorem State.pulseBit_planes (s : State) (u n : Nat) : (s.pulseBit u n).planes = s.planes := rfl
@[simp] theorem State.pulseBit_hubs (s : State) (u n : Nat) : (s.pulseBit u n).hubs = s.hubs := rfl
@[simp] theorem State.pulseBit_pwr (s : State) (u n : Nat) : (s.pulseBit u n).pwr = s.pwr := rfl
@[simp] theorem State.pulseBit_lease (s : State) (u n : Nat) : (s.pulseBit u n).lease = s.lease := rfl
@[simp] theorem State.pulseBit_mbx (s : State) (u n : Nat) : (s.pulseBit u n).mbx = s.mbx := rfl
@[simp] theorem State.pulseBit_cfg (s : State) (u n : Nat) : (s.pulseBit u n).cfg = s.cfg := rfl
@[simp] theorem State.pulseBit_ident (s : State) (u n : Nat) : (s.pulseBit u n).ident = s.ident := rfl
@[simp] theorem State.pulseBit_fitted (s : State) (u n : Nat) : (s.pulseBit u n).fitted = s.fitted := rfl
@[simp] theorem State.pulseBit_dead (s : State) (u n : Nat) : (s.pulseBit u n).dead = s.dead := rfl
@[simp] theorem State.pulseBit_ppsOut (s : State) (u n : Nat) : (s.pulseBit u n).ppsOut = s.ppsOut := rfl
@[simp] theorem State.pulseBit_out (s : State) (u n : Nat) : (s.pulseBit u n).out = s.out := rfl
@[simp] theorem State.pulseBit_fresh (s : State) (u n : Nat) : (s.pulseBit u n).fresh = s.fresh := rfl
@[simp] theorem State.pulseBit_pending (s : State) (u n : Nat) : (s.pulseBit u n).pending = s.pending := rfl

/-! ### modRp -/

@[simp] theorem State.modRp_regs (s : State) (u : Nat) (f : Reporter → Reporter) : (s.modRp u f).regs = s.regs := rfl
@[simp] theorem State.modRp_pulse (s : State) (u : Nat) (f : Reporter → Reporter) : (s.modRp u f).pulse = s.pulse := rfl
@[simp] theorem State.modRp_planes (s : State) (u : Nat) (f : Reporter → Reporter) : (s.modRp u f).planes = s.planes := rfl
@[simp] theorem State.modRp_hubs (s : State) (u : Nat) (f : Reporter → Reporter) : (s.modRp u f).hubs = s.hubs := rfl
@[simp] theorem State.modRp_pwr (s : State) (u : Nat) (f : Reporter → Reporter) : (s.modRp u f).pwr = s.pwr := rfl
@[simp] theorem State.modRp_lease (s : State) (u : Nat) (f : Reporter → Reporter) : (s.modRp u f).lease = s.lease := rfl
@[simp] theorem State.modRp_mbx (s : State) (u : Nat) (f : Reporter → Reporter) : (s.modRp u f).mbx = s.mbx := rfl
@[simp] theorem State.modRp_cfg (s : State) (u : Nat) (f : Reporter → Reporter) : (s.modRp u f).cfg = s.cfg := rfl
@[simp] theorem State.modRp_ident (s : State) (u : Nat) (f : Reporter → Reporter) : (s.modRp u f).ident = s.ident := rfl
@[simp] theorem State.modRp_fitted (s : State) (u : Nat) (f : Reporter → Reporter) : (s.modRp u f).fitted = s.fitted := rfl
@[simp] theorem State.modRp_dead (s : State) (u : Nat) (f : Reporter → Reporter) : (s.modRp u f).dead = s.dead := rfl
@[simp] theorem State.modRp_ppsOut (s : State) (u : Nat) (f : Reporter → Reporter) : (s.modRp u f).ppsOut = s.ppsOut := rfl
@[simp] theorem State.modRp_out (s : State) (u : Nat) (f : Reporter → Reporter) : (s.modRp u f).out = s.out := rfl
@[simp] theorem State.modRp_fresh (s : State) (u : Nat) (f : Reporter → Reporter) : (s.modRp u f).fresh = s.fresh := rfl
@[simp] theorem State.modRp_pending (s : State) (u : Nat) (f : Reporter → Reporter) : (s.modRp u f).pending = s.pending := rfl

/-! ### withPending -/

@[simp] theorem State.withPending_regs (s : State) (q : List Instr) : (s.withPending q).regs = s.regs := rfl
@[simp] theorem State.withPending_pulse (s : State) (q : List Instr) : (s.withPending q).pulse = s.pulse := rfl
@[simp] theorem State.withPending_rep (s : State) (q : List Instr) : (s.withPending q).rep = s.rep := rfl
@[simp] theorem State.withPending_planes (s : State) (q : List Instr) : (s.withPending q).planes = s.planes := rfl
@[simp] theorem State.withPending_hubs (s : State) (q : List Instr) : (s.withPending q).hubs = s.hubs := rfl
@[simp] theorem State.withPending_pwr (s : State) (q : List Instr) : (s.withPending q).pwr = s.pwr := rfl
@[simp] theorem State.withPending_lease (s : State) (q : List Instr) : (s.withPending q).lease = s.lease := rfl
@[simp] theorem State.withPending_mbx (s : State) (q : List Instr) : (s.withPending q).mbx = s.mbx := rfl
@[simp] theorem State.withPending_cfg (s : State) (q : List Instr) : (s.withPending q).cfg = s.cfg := rfl
@[simp] theorem State.withPending_ident (s : State) (q : List Instr) : (s.withPending q).ident = s.ident := rfl
@[simp] theorem State.withPending_fitted (s : State) (q : List Instr) : (s.withPending q).fitted = s.fitted := rfl
@[simp] theorem State.withPending_dead (s : State) (q : List Instr) : (s.withPending q).dead = s.dead := rfl
@[simp] theorem State.withPending_ppsOut (s : State) (q : List Instr) : (s.withPending q).ppsOut = s.ppsOut := rfl
@[simp] theorem State.withPending_out (s : State) (q : List Instr) : (s.withPending q).out = s.out := rfl
@[simp] theorem State.withPending_fresh (s : State) (q : List Instr) : (s.withPending q).fresh = s.fresh := rfl

/-! ### The values written -/

@[simp] theorem State.withPending_pending (s : State) (q : List Instr) : (s.withPending q).pending = q := rfl
@[simp] theorem State.emit_out (s : State) (o : Output) : (s.emit o).out = s.out ++ [o] := rfl
@[simp] theorem State.modPwr_pwr (s : State) (f : PowerCtl → PowerCtl) : (s.modPwr f).pwr = f s.pwr := rfl

@[simp] theorem Quad.get_set_same {α : Type} (q : Quad α) (p : PlaneId) (v : α) : (q.set p v).get p = v := by
  fin_cases p <;> rfl

theorem Quad.get_set_ne {α : Type} (q : Quad α) {p r : PlaneId} (v : α) (h : p ≠ r) : (q.set p v).get r = q.get r := by
  fin_cases p <;> fin_cases r <;> first | rfl | exact absurd rfl h

@[simp] theorem Quad.get_const {α : Type} (v : α) (p : PlaneId) : (Quad.const v).get p = v := by fin_cases p <;> rfl

@[simp] theorem Pair.get_set_same {α : Type} (q : Pair α) (h : HubId) (v : α) : (q.set h v).get h = v := by
  cases h <;> rfl

theorem Pair.get_set_ne {α : Type} (q : Pair α) {h k : HubId} (v : α) (hk : h ≠ k) : (q.set h v).get k = q.get k := by
  cases h <;> cases k <;> first | rfl | exact absurd rfl hk

@[simp] theorem State.modPl_pl_same (s : State) (p : PlaneId) (f : Plane → Plane) : (s.modPl p f).pl p = f (s.pl p) :=
  Quad.get_set_same _ _ _

theorem State.modPl_pl_ne (s : State) {p q : PlaneId} (f : Plane → Plane) (h : p ≠ q) : (s.modPl p f).pl q = s.pl q :=
  Quad.get_set_ne _ _ h

theorem State.modPl_pl (s : State) (p q : PlaneId) (f : Plane → Plane) :
    (s.modPl p f).pl q = if p = q then f (s.pl q) else s.pl q := by
  split
  · rename_i h; subst h; exact State.modPl_pl_same s p f
  · rename_i h; exact State.modPl_pl_ne s f h

@[simp] theorem State.modHub_hub_same (s : State) (h : HubId) (f : Hub → Hub) : (s.modHub h f).hub h = f (s.hub h) :=
  Pair.get_set_same _ _ _

theorem State.modHub_hub_ne (s : State) {h k : HubId} (f : Hub → Hub) (hk : h ≠ k) : (s.modHub h f).hub k = s.hub k :=
  Pair.get_set_ne _ _ hk

@[simp] theorem State.setReg_pl (s : State) (u off : Nat) (w : Word) (p : PlaneId) : (s.setReg u off w).pl p = s.pl p := rfl
@[simp] theorem State.setReg_hub (s : State) (u off : Nat) (w : Word) (k : HubId) : (s.setReg u off w).hub k = s.hub k := rfl
@[simp] theorem State.put_pl (s : State) (u : Nat) (f : RField) (v : Nat) (p : PlaneId) : (s.put u f v).pl p = s.pl p := rfl
@[simp] theorem State.put_hub (s : State) (u : Nat) (f : RField) (v : Nat) (k : HubId) : (s.put u f v).hub k = s.hub k := rfl
@[simp] theorem State.put64_pl (s : State) (u : Nat) (lo hi : RField) (v : Nat) (p : PlaneId) : (s.put64 u lo hi v).pl p = s.pl p := rfl
@[simp] theorem State.put64_hub (s : State) (u : Nat) (lo hi : RField) (v : Nat) (k : HubId) : (s.put64 u lo hi v).hub k = s.hub k := rfl
@[simp] theorem State.inc_pl (s : State) (u : Nat) (f : RField) (n : Nat) (p : PlaneId) : (s.inc u f n).pl p = s.pl p := rfl
@[simp] theorem State.inc_hub (s : State) (u : Nat) (f : RField) (n : Nat) (k : HubId) : (s.inc u f n).hub k = s.hub k := rfl
@[simp] theorem State.incSat_pl (s : State) (u : Nat) (f : RField) (n : Nat) (p : PlaneId) : (s.incSat u f n).pl p = s.pl p := rfl
@[simp] theorem State.incSat_hub (s : State) (u : Nat) (f : RField) (n : Nat) (k : HubId) : (s.incSat u f n).hub k = s.hub k := rfl
@[simp] theorem State.eraseRegs_pl (s : State) (u : Nat) (keep : List Nat) (p : PlaneId) : (s.eraseRegs u keep).pl p = s.pl p := rfl
@[simp] theorem State.eraseRegs_hub (s : State) (u : Nat) (keep : List Nat) (k : HubId) : (s.eraseRegs u keep).hub k = s.hub k := rfl
@[simp] theorem State.modPl_hub (s : State) (p : PlaneId) (f : Plane → Plane) (k : HubId) : (s.modPl p f).hub k = s.hub k := rfl
@[simp] theorem State.modHub_pl (s : State) (h : HubId) (f : Hub → Hub) (p : PlaneId) : (s.modHub h f).pl p = s.pl p := rfl
@[simp] theorem State.modPwr_pl (s : State) (f : PowerCtl → PowerCtl) (p : PlaneId) : (s.modPwr f).pl p = s.pl p := rfl
@[simp] theorem State.modPwr_hub (s : State) (f : PowerCtl → PowerCtl) (k : HubId) : (s.modPwr f).hub k = s.hub k := rfl
@[simp] theorem State.emit_pl (s : State) (o : Output) (p : PlaneId) : (s.emit o).pl p = s.pl p := rfl
@[simp] theorem State.emit_hub (s : State) (o : Output) (k : HubId) : (s.emit o).hub k = s.hub k := rfl
@[simp] theorem State.pulseBit_pl (s : State) (u n : Nat) (p : PlaneId) : (s.pulseBit u n).pl p = s.pl p := rfl
@[simp] theorem State.pulseBit_hub (s : State) (u n : Nat) (k : HubId) : (s.pulseBit u n).hub k = s.hub k := rfl
@[simp] theorem State.modRp_pl (s : State) (u : Nat) (f : Reporter → Reporter) (p : PlaneId) : (s.modRp u f).pl p = s.pl p := rfl
@[simp] theorem State.modRp_hub (s : State) (u : Nat) (f : Reporter → Reporter) (k : HubId) : (s.modRp u f).hub k = s.hub k := rfl
@[simp] theorem State.withPending_pl (s : State) (q : List Instr) (p : PlaneId) : (s.withPending q).pl p = s.pl p := rfl
@[simp] theorem State.withPending_hub (s : State) (q : List Instr) (k : HubId) : (s.withPending q).hub k = s.hub k := rfl

end Sys2Proof.Machine
end

