-- ==== Sys2Proof/Laws/Regs.lean ====
section
/-! SUPPORT. Sys2Proof/Laws/Regs.lean: the register store: what a store of a register or of a field leaves in every register and field. -/

namespace Sys2Proof.Machine

/-! ### Reset values do not depend on the registers -/

/-- What the reset values depend on. -/
structure SameSource (s t : State) : Prop where
  cfg : t.cfg = s.cfg
  ident : t.ident = s.ident
  fitted : t.fitted = s.fitted
  kpl : ∀ h, (t.hub h).kpl = (s.hub h).kpl

theorem planeSrcReset_congr {s t : State} (h : SameSource s t) (p : PlaneId) (u off : Nat) (b : Blk) (n : Nat) :
    planeSrcReset t p u off b n = planeSrcReset s p u off b n := by
  cases s; cases t
  obtain ⟨h1, h2, h3, -⟩ := h
  simp only at h1 h2 h3
  subst h1 h2 h3
  rfl

theorem hubSrcReset_congr {s t : State} (h : SameSource s t) (k : HubId) (off : Nat) (b : Blk) :
    hubSrcReset t k off b = hubSrcReset s k off b := by
  have hf : (t.hubs.get k).kpl = (s.hubs.get k).kpl := h.kpl k
  have hi : identImage t k = identImage s k := by unfold identImage; rw [hf, h.ident]
  unfold hubSrcReset
  rw [hf, hi, h.cfg, h.ident]

theorem resetVal_congr {s t : State} (h : SameSource s t) (u off : Nat) : resetVal t u off = resetVal s u off := by
  have hp : planeSrcReset t = planeSrcReset s := by funext p u off b n; exact planeSrcReset_congr h p u off b n
  have hh : hubSrcReset t = hubSrcReset s := by funext k off b; exact hubSrcReset_congr h k off b
  unfold resetVal
  rw [hp, hh]

@[simp] theorem resetVal_setReg (s : State) (u off : Nat) (w : Word) (u' off' : Nat) :
    resetVal (s.setReg u off w) u' off' = resetVal s u' off' := resetVal_congr ⟨rfl, rfl, rfl, fun _ => rfl⟩ u' off'

/-! ### Registers -/

theorem State.reg_setReg_same (s : State) (u off : Nat) (w : Word) : (s.setReg u off w).reg u off = w := by
  simp [State.reg, State.setReg, mget_mput_same]

theorem State.reg_setReg_ne (s : State) {u off u' off' : Nat} (w : Word) (h : regKey u off ≠ regKey u' off') :
    (s.setReg u off w).reg u' off' = s.reg u' off' := by
  have hr : resetVal (s.setReg u off w) (regKey u' off').1 (regKey u' off').2 = resetVal s (regKey u' off').1 (regKey u' off').2 :=
    resetVal_setReg s u off w _ _
  unfold State.reg
  simp only [hr]
  congr 1
  simp only [State.setReg, mget_mput, mgetD]
  by_cases hu : (regKey u off).1 = (regKey u' off').1
  · have ho : (regKey u off).2 ≠ (regKey u' off').2 := fun ho => h (Prod.ext hu ho)
    simp only [hu, if_true, Option.bind_some, mget_mput, ho, if_false]
    cases mget s.regs (regKey u' off').1 <;> simp
  · simp [hu]

/-- A register after a store. -/
theorem State.reg_setReg (s : State) (u off u' off' : Nat) (w : Word) :
    (s.setReg u off w).reg u' off' = if regKey u off = regKey u' off' then w else s.reg u' off' := by
  split
  · rename_i h
    have : (s.setReg u off w).reg u' off' = (s.setReg u off w).reg u off := by
      simp only [State.reg, h]
    rw [this, State.reg_setReg_same]
  · rename_i h; exact State.reg_setReg_ne s w h

/-! ### Fields -/

/-- A field lies within its 32-bit register. -/
def RField.ok (f : RField) : Bool := decide (f.lo ≤ f.hi ∧ f.hi < 32)

theorem State.get_put_same (s : State) (u : Nat) (f : RField) (v : Nat) (h : f.ok = true) :
    (s.put u f v).get u f = v % 2 ^ f.width := by
  simp only [RField.ok, decide_eq_true_eq] at h
  simp only [State.get, State.put, State.reg_setReg_same]
  exact fieldGet_fieldSet_same _ f v h

theorem State.get_put_ne (s : State) {u u' : Nat} {f g : RField} (v : Nat) (h : regKey u f.key ≠ regKey u' g.key) :
    (s.put u f v).get u' g = s.get u' g := by
  simp only [State.get, State.put, State.reg_setReg_ne s _ h]

theorem State.get_put_apart (s : State) {u : Nat} {f g : RField} (v : Nat) (hk : f.key = g.key) (hf : f.ok = true) (hg : g.ok = true)
    (h : apart f g = true) : (s.put u f v).get u g = s.get u g := by
  simp only [RField.ok, decide_eq_true_eq] at hf hg
  simp only [State.get, State.put, ← hk, State.reg_setReg_same]
  exact fieldGet_fieldSet_apart _ f g v hf.1 hg.1 h

theorem State.reg_put_ne (s : State) {u u' off : Nat} {f : RField} (v : Nat) (h : regKey u f.key ≠ regKey u' off) :
    (s.put u f v).reg u' off = s.reg u' off := by
  simp only [State.put, State.reg_setReg_ne s _ h]

/-! ### Updates that touch no register -/

theorem State.reg_congr {s t : State} (hr : t.regs = s.regs) (h : SameSource s t) (u off : Nat) : t.reg u off = s.reg u off := by
  simp only [State.reg, hr, resetVal_congr h]

@[simp] theorem State.modPl_reg (s : State) (p : PlaneId) (f : Plane → Plane) (u off : Nat) : (s.modPl p f).reg u off = s.reg u off :=
  State.reg_congr rfl ⟨rfl, rfl, rfl, fun _ => rfl⟩ u off
@[simp] theorem State.modPl_get (s : State) (p : PlaneId) (f : Plane → Plane) (u : Nat) (g : RField) : (s.modPl p f).get u g = s.get u g := by
  simp [State.get]
@[simp] theorem State.modPwr_reg (s : State) (f : PowerCtl → PowerCtl) (u off : Nat) : (s.modPwr f).reg u off = s.reg u off :=
  State.reg_congr rfl ⟨rfl, rfl, rfl, fun _ => rfl⟩ u off
@[simp] theorem State.modPwr_get (s : State) (f : PowerCtl → PowerCtl) (u : Nat) (g : RField) : (s.modPwr f).get u g = s.get u g := by
  simp [State.get]
@[simp] theorem State.emit_reg (s : State) (o : Output) (u off : Nat) : (s.emit o).reg u off = s.reg u off :=
  State.reg_congr rfl ⟨rfl, rfl, rfl, fun _ => rfl⟩ u off
@[simp] theorem State.emit_get (s : State) (o : Output) (u : Nat) (g : RField) : (s.emit o).get u g = s.get u g := by simp [State.get]
@[simp] theorem State.pulseBit_reg (s : State) (v n u off : Nat) : (s.pulseBit v n).reg u off = s.reg u off :=
  State.reg_congr rfl ⟨rfl, rfl, rfl, fun _ => rfl⟩ u off
@[simp] theorem State.pulseBit_get (s : State) (v n u : Nat) (g : RField) : (s.pulseBit v n).get u g = s.get u g := by simp [State.get]
@[simp] theorem State.modRp_reg (s : State) (v : Nat) (f : Reporter → Reporter) (u off : Nat) : (s.modRp v f).reg u off = s.reg u off :=
  State.reg_congr rfl ⟨rfl, rfl, rfl, fun _ => rfl⟩ u off
@[simp] theorem State.modRp_get (s : State) (v : Nat) (f : Reporter → Reporter) (u : Nat) (g : RField) : (s.modRp v f).get u g = s.get u g := by
  simp [State.get]
@[simp] theorem State.withPending_reg (s : State) (q : List Instr) (u off : Nat) : (s.withPending q).reg u off = s.reg u off :=
  State.reg_congr rfl ⟨rfl, rfl, rfl, fun _ => rfl⟩ u off
@[simp] theorem State.withPending_get (s : State) (q : List Instr) (u : Nat) (g : RField) : (s.withPending q).get u g = s.get u g := by
  simp [State.get]

end Sys2Proof.Machine
end

