-- ==== Sys2Proof/Laws/Writes.lean ====
section
/-! SUPPORT. Sys2Proof/Laws/Writes.lean: what a register write answers: where a register stands in BAR0, what an accepted and a rejected
write do, and what the latching of interrupts after a write leaves alone. -/

namespace Sys2Proof.Machine

/-! ### Addresses -/

theorem planeAt_low {o i off c : Nat} (ho : o = i * 65536 + off) (hoff : off < 65536) (hi : i < 13) (hc : rangeCodes[i]? = some c) :
    planeAt o = some (c, off) := by
  have h1 : o < 0xD0000 := by omega
  have h2 : o / 65536 = i := by omega
  have h3 : o % 65536 = off := by omega
  unfold planeAt
  simp [h1, h2, h3, hc]

/-- The register at an offset of a plane unit is found again at its offset in the plane's range (Table 2.6). -/
theorem planeAt_planeOff {c n : Nat} {b : Blk} (hc : c < 256) (hk : planeBlk c = some (b, n)) {o off : Nat} (ho : planeOff c = some o)
    (hp : off < 4096 * pagesOf b) : planeAt (o + off) = some (c, off) := by
  simp only [planeOff, hk] at ho
  unfold planeBlk at hk
  split_ifs at hk with h1 h2 h3 h4 h5
  · simp only [Option.some.injEq, Prod.mk.injEq] at hk ho
    obtain ⟨rfl, rfl⟩ := hk
    simp only [Option.some.injEq] at ho
    subst ho
    simp only [pagesOf] at hp
    have e1 : (0x800000 + (c - 128) * 16384 + off - 0x800000) / 16384 = c - 128 := by omega
    have e2 : (0x800000 + (c - 128) * 16384 + off - 0x800000) % 16384 = off := by omega
    unfold planeAt
    simp only [e1, e2]
    rw [if_neg (by omega), if_neg (by omega), if_neg (by omega), if_neg (by omega), if_neg (by omega), if_neg (by omega), if_pos (by omega), if_pos (by omega)]
    simp; omega
  · simp only [Option.some.injEq, Prod.mk.injEq] at hk ho
    obtain ⟨rfl, rfl⟩ := hk
    simp only [Option.some.injEq] at ho
    subst ho
    simp only [pagesOf] at hp
    have e1 : (0x600000 + (c - 64) * 65536 + off - 0x600000) / 65536 = c - 64 := by omega
    have e2 : (0x600000 + (c - 64) * 65536 + off - 0x600000) % 65536 = off := by omega
    unfold planeAt
    simp only [e1, e2]
    rw [if_neg (by omega), if_neg (by omega), if_neg (by omega), if_neg (by omega), if_neg (by omega), if_pos (by omega), if_pos (by omega)]
    simp; omega
  · simp only [Option.some.injEq, Prod.mk.injEq] at hk ho
    obtain ⟨rfl, rfl⟩ := hk
    simp only [Option.some.injEq] at ho
    subst ho
    simp only [pagesOf] at hp
    have e1 : (0x300000 + (c - 62) * 65536 + off - 0x300000) / 65536 = c - 62 := by omega
    have e2 : (0x300000 + (c - 62) * 65536 + off - 0x300000) % 65536 = off := by omega
    unfold planeAt
    simp only [e1, e2]
    rw [if_neg (by omega), if_neg (by omega), if_neg (by omega), if_pos (by omega), if_pos (by omega)]
    simp; omega
  · simp only [Option.some.injEq, Prod.mk.injEq] at hk ho
    obtain ⟨rfl, rfl⟩ := hk
    simp only [Option.some.injEq] at ho
    subst ho
    simp only [pagesOf] at hp
    have e1 : (0x200000 + (c - 56) * 65536 + off - 0x200000) / 65536 = c - 56 := by omega
    have e2 : (0x200000 + (c - 56) * 65536 + off - 0x200000) % 65536 = off := by omega
    unfold planeAt
    simp only [e1, e2]
    rw [if_neg (by omega), if_neg (by omega), if_pos (by omega), if_pos (by omega)]
    simp; omega
  · simp only [Option.some.injEq, Prod.mk.injEq] at hk ho
    obtain ⟨rfl, rfl⟩ := hk
    simp only [Option.some.injEq] at ho
    subst ho
    simp only [pagesOf] at hp
    have e1 : (0x400000 + (c - 32) * 65536 + off - 0x400000) / 65536 = c - 32 := by omega
    have e2 : (0x400000 + (c - 32) * 65536 + off - 0x400000) % 65536 = off := by omega
    unfold planeAt
    simp only [e1, e2]
    rw [if_neg (by omega), if_neg (by omega), if_neg (by omega), if_neg (by omega), if_pos (by omega), if_pos (by omega)]
    simp; omega
  · split at hk
    all_goals simp only [Option.some.injEq, Prod.mk.injEq, reduceCtorEq] at hk
    all_goals obtain ⟨rfl, rfl⟩ := hk
    all_goals simp only [Option.some.injEq, pagesOf] at ho hp
    all_goals first
      | exact planeAt_low (congrArg (· + off) ho.symm) (by omega) (by decide) (by decide)
      | (subst ho
         unfold planeAt
         rw [if_neg (by omega), if_pos (by omega)]
         simp)
      | (subst ho
         unfold planeAt
         rw [if_neg (by omega), if_neg (by omega), if_neg (by omega), if_neg (by omega), if_neg (by omega), if_neg (by omega),
           if_neg (by omega), if_pos (by omega)]
         simp)

theorem hub_div (k off : Nat) (h : off < 65536) : (k * 65536 + off) / 65536 = k := by omega
theorem hub_mod (k off : Nat) (h : off < 65536) : (k * 65536 + off) % 65536 = off := by omega
theorem hub_lt (k off : Nat) (h : off < 65536) (hk : k < 8) : k * 65536 + off < 0x80000 := by omega

theorem hub_a (g k off : Nat) (h : off < 65536) (hk : k < 8) (hg : g < 2) : g * 0x800000 + k * 65536 + off < 0x1000000 := by omega
theorem hub_b (g k off : Nat) (h : off < 65536) (hk : k < 8) : (g * 0x800000 + k * 65536 + off) % 0x800000 = k * 65536 + off := by omega
theorem hub_c (g k off : Nat) (h : off < 65536) (hk : k < 8) : (g * 0x800000 + k * 65536 + off) / 0x800000 = g := by omega

theorem planeAt_lt {o : Nat} {e : Nat × Nat} (h : planeAt o = some e) : o < 0x2000000 := by
  by_contra hn
  unfold planeAt at h
  rw [if_neg (by omega), if_neg (by omega), if_neg (by omega), if_neg (by omega), if_neg (by omega), if_neg (by omega), if_neg (by omega),
    if_neg (by omega)] at h
  exact absurd h (by simp)

/-- The register at an offset of a unit is found again at its BAR0 offset. -/
theorem locate_bar0Of {u n : Nat} {b : Blk} (hu : unitBlk u = some (b, n)) {a off : Nat} (ha : bar0Of u off = some a)
    (hp : off < 4096 * pagesOf b) : locate a = some (u, off) := by
  unfold bar0Of at ha
  unfold unitBlk at hu
  have hpage : off / 4096 < pagesOf b := by omega
  split_ifs at ha hu with h1 h2 h3
  · simp only [Option.map_eq_some_iff] at ha
    obtain ⟨o, ho, rfl⟩ := ha
    have hloc := planeAt_planeOff (Nat.mod_lt u (by decide)) hu ho hp
    have hlt : o + off < 0x2000000 := planeAt_lt hloc
    unfold locate
    have e1 : ¬ (0x1000000 + u / 256 * 0x2000000 + o + off < 0x1000000) := by omega
    have e2 : 0x1000000 + u / 256 * 0x2000000 + o + off < 0x9000000 := by omega
    have e3 : (0x1000000 + u / 256 * 0x2000000 + o + off - 0x1000000) / 0x2000000 = u / 256 := by omega
    have e4 : (0x1000000 + u / 256 * 0x2000000 + o + off - 0x1000000) % 0x2000000 = o + off := by omega
    have e5 : 256 * (u / 256) + u % 256 = u := by omega
    have hu' : unitBlk u = some (b, n) := by unfold unitBlk; rw [if_pos h1]; exact hu
    simp only [e1, if_false, e2, if_true, e3, e4, hloc, Option.map_some, Option.bind_some, e5, hu', hpage]
  · simp only [Option.map_eq_some_iff] at hu
    obtain ⟨k, hk, he⟩ := hu
    simp only [Prod.mk.injEq] at he
    obtain ⟨rfl, rfl⟩ := he
    have hoff : off < 65536 := by
      have : pagesOf k ≤ 5 := by unfold hubBlk at hk; split at hk <;> simp_all <;> subst hk <;> decide
      omega
    simp only [Option.some.injEq] at ha
    subst ha
    unfold locate
    have e4 : (u % 16 * 0x10000 + off) / 0x10000 = u % 16 := hub_div _ _ hoff
    have e5 : (u % 16 * 0x10000 + off) % 0x10000 = off := hub_mod _ _ hoff
    have e6 : u % 16 * 0x10000 + off < 0x80000 := hub_lt _ _ hoff h2.2
    have hg : (u - 0x400) / 16 < 2 := by clear hk; omega
    have e1 : (u - 0x400) / 16 * 0x800000 + u % 16 * 0x10000 + off < 0x1000000 := hub_a _ _ _ hoff h2.2 hg
    have e2 : ((u - 0x400) / 16 * 0x800000 + u % 16 * 0x10000 + off) % 0x800000 = u % 16 * 0x10000 + off := hub_b _ _ _ hoff h2.2
    have e3 : ((u - 0x400) / 16 * 0x800000 + u % 16 * 0x10000 + off) / 0x800000 = (u - 0x400) / 16 := hub_c _ _ _ hoff h2.2
    have e7 : 0x400 + 16 * ((u - 0x400) / 16) + u % 16 = u := by omega
    have hu' : unitBlk u = some (k, 0) := by
      unfold unitBlk
      rw [if_neg h1, if_pos h2.1, hk]; rfl
    simp only [e1, if_true, e2, e3, e4, e5, e6, e7, Option.bind_some, hu', hpage]

theorem bar0Of_isSome {u n off : Nat} {b : Blk} (hu : unitBlk u = some (b, n)) : ∃ a, bar0Of u off = some a := by
  unfold unitBlk at hu
  unfold bar0Of
  split_ifs at hu with h1 h2
  · rw [if_pos h1]
    have : ∃ o, planeOff (u % 256) = some o := by
      unfold planeOff
      rw [hu]
      cases b <;> exact ⟨_, rfl⟩
    obtain ⟨o, ho⟩ := this
    rw [ho]; exact ⟨_, rfl⟩
  · rw [if_neg h1]
    have h8 : u % 16 < 8 := by
      by_contra h8
      have hge : 8 ≤ u % 16 := by omega
      have : hubBlk (u % 16) = none := by
        unfold hubBlk
        split <;> first | rfl | omega
      rw [this] at hu
      exact absurd hu (by simp)
    rw [if_pos ⟨h2, h8⟩]; exact ⟨_, rfl⟩

/-! ### The access on its way -/

theorem regKey_fst (u off : Nat) : (regKey u off).1 = u ∨ (u = 0x414 ∧ (regKey u off).1 = 0x404) := by
  unfold regKey
  split_ifs with h1 h2
  · exact Or.inl rfl
  · exact Or.inr ⟨h2, rfl⟩
  · exact Or.inl rfl

/-- Only a hub's Keyplate is a source of reset values. -/
theorem modHub_source (s : State) (k : HubId) (f : Hub → Hub) (hf : ∀ x, (f x).kpl = x.kpl) : SameSource s (s.modHub k f) := by
  refine ⟨rfl, rfl, rfl, fun j => ?_⟩
  by_cases hj : k = j
  · subst hj; rw [State.modHub_hub_same]; exact hf _
  · rw [State.modHub_hub_ne _ _ hj]

theorem modHub_reg (s : State) (k : HubId) (f : Hub → Hub) (u off : Nat) (hf : ∀ x, (f x).kpl = x.kpl) :
    (s.modHub k f).reg u off = s.reg u off :=
  State.reg_congr (State.modHub_regs _ _ _) (modHub_source _ _ _ hf) u off

theorem linkRequest_get_ne (k : HubId) (p : PlaneId) (s : State) {u' : Nat} {f : RField} (h : u' ≠ 0x400 ∧ u' ≠ 0x410) :
    (linkRequest k p s).get u' f = s.get u' f := by
  have key : (s.inc (hu k .HUB) (Fld.HUB_LINK_REQ.at p.val)).get u' f = s.get u' f := by
    apply State.get_put_ne
    intro hk
    have h1 := congrArg Prod.fst hk
    have h2 := regKey_fst u' f.key
    have h3 : (regKey (hu k .HUB) (Fld.HUB_LINK_REQ.at p.val).key).1 = hu k .HUB := by cases k <;> fin_cases p <;> rfl
    rw [h3] at h1
    cases k <;> simp [hu, HubId.num, Blk.code] at h1 <;> omega
  rw [← key]
  simp only [State.get, linkRequest]
  rw [modHub_reg]
  exact fun _ => rfl

theorem arrive_get_ne (acc : Accessor) (u : Nat) (s : State) {u' : Nat} {f : RField} (h : u' ≠ 0x400 ∧ u' ≠ 0x410) :
    (arrive acc u s).get u' f = s.get u' f := by
  unfold arrive
  split
  · exact linkRequest_get_ne _ _ s h
  · exact linkRequest_get_ne _ _ s h
  · rfl

theorem arrive_powered (acc : Accessor) (u : Nat) (s : State) (u' : Nat) : (arrive acc u s).powered u' = s.powered u' := by
  have h : (arrive acc u s).get (hu .a .PWR) Fld.PWR_DOM_STAT_ON = s.get (hu .a .PWR) Fld.PWR_DOM_STAT_ON :=
    arrive_get_ne acc u s (by decide)
  simp only [State.powered, State.domOn, h]

/-! ### Accepted writes -/

/-- An accepted write of a register has its block's effect and latches the block's interrupts: everything a register row does. -/
theorem regWrite_accepted {acc : Accessor} {u off n : Nat} {b : Blk} {v : Word} {s : State} (hu : unitBlk u = some (b, n))
    (hp : off < 4096 * pagesOf b) (h : accepted s acc u off v = true) :
    regWrite acc u off v s = latchAfter ((arrive acc u s).reg u 0x018 ≠ 0) u (acceptWrite acc u b n off v (arrive acc u s)) := by
  obtain ⟨a, ha⟩ := bar0Of_isSome (off := off) hu
  have hl := locate_bar0Of hu ha hp
  simp only [accepted, reaches, verdictOf, hu, Bool.and_eq_true, decide_eq_true_eq] at h
  obtain ⟨⟨⟨⟨hm, hs⟩, hpw⟩, hh⟩, hv⟩ := h
  have hpw' : (arrive acc u s).powered u = true := by rw [arrive_powered]; exact hpw
  have hw : writeUnit acc u off true v (arrive acc u s) =
      latchAfter ((arrive acc u s).reg u 0x018 ≠ 0) u (acceptWrite acc u b n off v (arrive acc u s)) := by
    simp only [writeUnit, hu, hpw', hv, not_true_eq_false, if_false]
  unfold regWrite
  rw [ha]
  simp only [writeBar0, hl, hm, hs, not_true_eq_false, if_false]
  cases acc with
  | host k =>
    simp only [Bool.and_eq_true, Bool.or_eq_true, decide_eq_true_eq, Option.isNone_iff_eq_none] at hh
    obtain ⟨hle, hd⟩ := hh
    have : ¬ ((holder s ≠ portCode k) ∧ leaseFree k (some (u, off)) = false) := by
      rintro ⟨h1, h2⟩
      rcases hle with h3 | h3
      · exact h1 h3
      · rw [h2] at h3; exact absurd h3 (by simp)
    simpa [hd, this] using hw
  | _ => simpa using hw

/-! ### Latching after a write -/

@[simp] theorem requestRises_rep (u : Nat) (s : State) : (requestRises u s).rep = s.rep := by
  have h : ∀ k t, (requestAt k u t).rep = t.rep := by
    intro k t; simp only [requestAt, sendMsix]; repeat' split
    all_goals rfl
  simp [requestRises, h]
@[simp] theorem latchAfter_rep (was : Bool) (u : Nat) (s : State) : (latchAfter was u s).rep = s.rep := by
  simp only [latchAfter, latchWas]; repeat' split
  all_goals simp
@[simp] theorem requestRises_planes (u : Nat) (s : State) : (requestRises u s).planes = s.planes := by
  have h : ∀ k t, (requestAt k u t).planes = t.planes := by
    intro k t; simp only [requestAt, sendMsix]; repeat' split
    all_goals rfl
  simp [requestRises, h]
@[simp] theorem latchAfter_planes (was : Bool) (u : Nat) (s : State) : (latchAfter was u s).planes = s.planes := by
  simp only [latchAfter, latchWas]; repeat' split
  all_goals simp
@[simp] theorem requestRises_pwr (u : Nat) (s : State) : (requestRises u s).pwr = s.pwr := by
  have h : ∀ k t, (requestAt k u t).pwr = t.pwr := by
    intro k t; simp only [requestAt, sendMsix]; repeat' split
    all_goals rfl
  simp [requestRises, h]
@[simp] theorem latchAfter_pwr (was : Bool) (u : Nat) (s : State) : (latchAfter was u s).pwr = s.pwr := by
  simp only [latchAfter, latchWas]; repeat' split
  all_goals simp
@[simp] theorem requestRises_lease (u : Nat) (s : State) : (requestRises u s).lease = s.lease := by
  have h : ∀ k t, (requestAt k u t).lease = t.lease := by
    intro k t; simp only [requestAt, sendMsix]; repeat' split
    all_goals rfl
  simp [requestRises, h]
@[simp] theorem latchAfter_lease (was : Bool) (u : Nat) (s : State) : (latchAfter was u s).lease = s.lease := by
  simp only [latchAfter, latchWas]; repeat' split
  all_goals simp
@[simp] theorem requestRises_mbx (u : Nat) (s : State) : (requestRises u s).mbx = s.mbx := by
  have h : ∀ k t, (requestAt k u t).mbx = t.mbx := by
    intro k t; simp only [requestAt, sendMsix]; repeat' split
    all_goals rfl
  simp [requestRises, h]
@[simp] theorem latchAfter_mbx (was : Bool) (u : Nat) (s : State) : (latchAfter was u s).mbx = s.mbx := by
  simp only [latchAfter, latchWas]; repeat' split
  all_goals simp
@[simp] theorem requestRises_cfg (u : Nat) (s : State) : (requestRises u s).cfg = s.cfg := by
  have h : ∀ k t, (requestAt k u t).cfg = t.cfg := by
    intro k t; simp only [requestAt, sendMsix]; repeat' split
    all_goals rfl
  simp [requestRises, h]
@[simp] theorem latchAfter_cfg (was : Bool) (u : Nat) (s : State) : (latchAfter was u s).cfg = s.cfg := by
  simp only [latchAfter, latchWas]; repeat' split
  all_goals simp
@[simp] theorem requestRises_ident (u : Nat) (s : State) : (requestRises u s).ident = s.ident := by
  have h : ∀ k t, (requestAt k u t).ident = t.ident := by
    intro k t; simp only [requestAt, sendMsix]; repeat' split
    all_goals rfl
  simp [requestRises, h]
@[simp] theorem latchAfter_ident (was : Bool) (u : Nat) (s : State) : (latchAfter was u s).ident = s.ident := by
  simp only [latchAfter, latchWas]; repeat' split
  all_goals simp
@[simp] theorem requestRises_fitted (u : Nat) (s : State) : (requestRises u s).fitted = s.fitted := by
  have h : ∀ k t, (requestAt k u t).fitted = t.fitted := by
    intro k t; simp only [requestAt, sendMsix]; repeat' split
    all_goals rfl
  simp [requestRises, h]
@[simp] theorem latchAfter_fitted (was : Bool) (u : Nat) (s : State) : (latchAfter was u s).fitted = s.fitted := by
  simp only [latchAfter, latchWas]; repeat' split
  all_goals simp
@[simp] theorem requestRises_dead (u : Nat) (s : State) : (requestRises u s).dead = s.dead := by
  have h : ∀ k t, (requestAt k u t).dead = t.dead := by
    intro k t; simp only [requestAt, sendMsix]; repeat' split
    all_goals rfl
  simp [requestRises, h]
@[simp] theorem latchAfter_dead (was : Bool) (u : Nat) (s : State) : (latchAfter was u s).dead = s.dead := by
  simp only [latchAfter, latchWas]; repeat' split
  all_goals simp
@[simp] theorem requestRises_ppsOut (u : Nat) (s : State) : (requestRises u s).ppsOut = s.ppsOut := by
  have h : ∀ k t, (requestAt k u t).ppsOut = t.ppsOut := by
    intro k t; simp only [requestAt, sendMsix]; repeat' split
    all_goals rfl
  simp [requestRises, h]
@[simp] theorem latchAfter_ppsOut (was : Bool) (u : Nat) (s : State) : (latchAfter was u s).ppsOut = s.ppsOut := by
  simp only [latchAfter, latchWas]; repeat' split
  all_goals simp
@[simp] theorem requestRises_fresh (u : Nat) (s : State) : (requestRises u s).fresh = s.fresh := by
  have h : ∀ k t, (requestAt k u t).fresh = t.fresh := by
    intro k t; simp only [requestAt, sendMsix]; repeat' split
    all_goals rfl
  simp [requestRises, h]
@[simp] theorem latchAfter_fresh (was : Bool) (u : Nat) (s : State) : (latchAfter was u s).fresh = s.fresh := by
  simp only [latchAfter, latchWas]; repeat' split
  all_goals simp
@[simp] theorem requestRises_pending (u : Nat) (s : State) : (requestRises u s).pending = s.pending := by
  have h : ∀ k t, (requestAt k u t).pending = t.pending := by
    intro k t; simp only [requestAt, sendMsix]; repeat' split
    all_goals rfl
  simp [requestRises, h]
@[simp] theorem latchAfter_pending (was : Bool) (u : Nat) (s : State) : (latchAfter was u s).pending = s.pending := by
  simp only [latchAfter, latchWas]; repeat' split
  all_goals simp
@[simp] theorem requestRises_pulse (u : Nat) (s : State) : (requestRises u s).pulse = s.pulse := by
  have h : ∀ k t, (requestAt k u t).pulse = t.pulse := by
    intro k t; simp only [requestAt, sendMsix]; repeat' split
    all_goals rfl
  simp [requestRises, h]
@[simp] theorem latchAfter_pulse (was : Bool) (u : Nat) (s : State) : (latchAfter was u s).pulse = s.pulse := by
  simp only [latchAfter, latchWas]; repeat' split
  all_goals simp

theorem requestRises_source (u : Nat) (s : State) : SameSource s (requestRises u s) ∧ (requestRises u s).regs = s.regs := by
  have h : ∀ k t, SameSource t (requestAt k u t) ∧ (requestAt k u t).regs = t.regs := by
    intro k t
    simp only [requestAt, sendMsix]
    repeat' split
    all_goals refine ⟨⟨rfl, rfl, rfl, ?_⟩, rfl⟩
    all_goals intro j
    all_goals first
      | rfl
      | (by_cases hj : k = j
         · subst hj; simp [State.modHub_hub_same]
         · rw [State.modHub_hub_ne _ _ hj])
  unfold requestRises
  obtain ⟨h1, h2⟩ := h .a s
  obtain ⟨h3, h4⟩ := h .b (requestAt .a u s)
  exact ⟨⟨h3.cfg.trans h1.cfg, h3.ident.trans h1.ident, h3.fitted.trans h1.fitted, fun j => (h3.kpl j).trans (h1.kpl j)⟩, h4.trans h2⟩

@[simp] theorem requestRises_reg (u : Nat) (s : State) (u' off : Nat) : (requestRises u s).reg u' off = s.reg u' off :=
  State.reg_congr (requestRises_source u s).2 (requestRises_source u s).1 u' off

/-- Latching interrupts writes no register but the unit's BLK_IRQ_STAT. -/
theorem latchAfter_reg (was : Bool) {u u' off : Nat} (s : State) (h : regKey u 0x018 ≠ regKey u' off) :
    (latchAfter was u s).reg u' off = s.reg u' off := by
  simp only [latchAfter, latchWas]
  repeat' split
  all_goals simp only [requestRises_reg, State.reg_setReg_ne _ _ h]

theorem latchAfter_get (was : Bool) {u u' : Nat} {f : RField} (s : State) (h : regKey u 0x018 ≠ regKey u' f.key) :
    (latchAfter was u s).get u' f = s.get u' f := by
  simp only [State.get, latchAfter_reg was s h]

@[simp] theorem latchAfter_pl (was : Bool) (u : Nat) (s : State) (p : PlaneId) : (latchAfter was u s).pl p = s.pl p := by
  simp [State.pl]

end Sys2Proof.Machine
end

