-- ==== Sys2Proof/Tests/Slice0.lean ====
section
/-! SUPPORT. Sys2Proof/Tests/Slice0.lean: small states and one step on each: a witness for the hypotheses of every statement, with what the
rule says of it, and the ill-formed operands that each check of WellFormed refuses. -/

namespace Sys2Proof.Tests

open Sys2Proof Sys2Proof.Machine

set_option Elab.async false

/-- The next state a command answers. -/
def ran (i : Instr) (s : State) : State :=
  match exec i s with
  | .next t => t
  | _ => s

/-- Every domain of the module has power. -/
def onState : State := State.reset.put (hu .a .PWR) Fld.PWR_DOM_STAT_ON 0xFFFFFFFF

/-- A plane's fabric time and count of beats. -/
def withFt (p : PlaneId) (ft : Nat) (s : State) : State := s.modPl p (fun x => { x with ftm := { x.ftm with ft := ft, beats := ft } })

/-- A plane's PLN_STATE. -/
def withPln (p : PlaneId) (v : Nat) (s : State) : State := s.put (pu p .PLN) Fld.PLN_STATE v

/-- The management cores of Hub A. -/
abbrev hubA : Accessor := .hubCore .a

/-! ### WellFormed refuses -/

theorem test_wf_unit : Instr.wf (.reportFrameSend 0x015) = false ∧ Instr.wf (.reportFrameSend 0x014) = true := by decide
theorem test_wf_page : Instr.wf (.lock hubA (pu 0 .PLN) 1 true) = false ∧ Instr.wf (.lock hubA (pu 0 .GRQ) 4 true) = true := by decide
theorem test_wf_source : Instr.wf (.faultDetect (pu 0 .KSQ) 5 .u 0 0 false) = false ∧ Instr.wf (.faultDetect (pu 0 .KSQ) 4 .c 0 0 false) = true := by
  decide
theorem test_wf_class : Instr.wf (.faultDetect (pu 0 .KSQ) 4 .none 0 0 false) = false := by decide
theorem test_wf_mgmt_core : Instr.wf (.mgcWatchdog (hu .a .HUB) 2) = false ∧ Instr.wf (.mgcWatchdog (pu 1 .MGC) 3) = true := by decide
theorem test_wf_request : Instr.wf (.bar2Access .a 0 false [] 0) = false ∧ Instr.wf (.bar2Access .a 0 false [1] 0) = true := by decide
theorem test_wf_frame : Instr.wf (.svcFrameReceive .a (.pfc 65536)) = false ∧ Instr.wf (.svcFrameReceive .a (.pfc 65535)) = true := by decide
theorem test_wf_ethernet : wfEthernet (List.replicate 100 0) = true := by decide
theorem test_wf_tsync : Instr.wf (.tsyncReceive 0 (.port 0) ⟨false, 65536, 3, 0, 0, 0⟩ 0 0) = false := by decide
theorem test_wf_ptp : Instr.wf (.ptpMessage .a 0 false (.followUp 1 1 1 1000000000)) = false := by decide
theorem test_wf_i3c : Instr.wf (.entdaa 128) = false ∧ Instr.wf (.entdaa 127) = true := by decide
theorem test_wf_cells : Instr.wf (.contribFrame 0 0 0 []) = false := by decide

/-! ### The machine as a whole -/

theorem test_step_front : ({ onState with pending := [.leaseLow] } : State).pending = [Instr.leaseLow] ∧
    (match step ({ onState with pending := [.holdupCharge true] } : State) with
     | .next t => t.on (hu .a .PWR) Fld.PWR_HOLD_HOLDUP_OK && t.pending = []
     | _ => false) = true := by decide +kernel
theorem test_step_idle : State.reset.pending = [] := by decide
theorem test_step_next : ∃ t, step onState = .next t := ⟨onState, rfl⟩
theorem test_memories_wf : ∃ s : State, (∀ p, memWf (s.pl p).mem = true) ∧ memByte (s.pl 0).mem 5 = 7 ∧ ∃ t, step s = .next t :=
  ⟨onState.modPl 0 (fun x => { x with mem := [(5, 7)] }), by decide, by decide, _, rfl⟩

/-! ### Register writes -/

theorem test_rejected_write : let s := onState
    wfPage (pu 1 .SPM) 0 = true ∧ reaches s hubA (pu 1 .SPM) 0x048 = true ∧ verdictOf s hubA (pu 1 .GRQ) 0xFFC 0 = some .unmapped ∧
    verdictOf s hubA (pu 1 .LAT) 0x040 5 = some .range ∧ bar0Of (pu 1 .LAT) 0x040 = some (0x3020040#32).toNat ∧
    (ran (.regWrite hubA (.bar0 0x3020040) 15 5) s).get (pu 1 .LAT) Fld.BLK_STAT_REJ_CODE = 2 := by decide +kernel
theorem test_rejected_write_again : let s := onState.put (pu 1 .LAT) Fld.BLK_STAT_REJ 1
    verdictOf s hubA (pu 1 .LAT) 0x040 5 = some .range ∧ s.get (pu 1 .LAT) Fld.BLK_STAT_REJ = 1 ∧
    (ran (.regWrite hubA (.bar0 0x3020040) 15 5) s).get (pu 1 .LAT) Fld.BLK_STAT_REJ_CODE = 0 := by decide +kernel
theorem test_narrow_write : let s := onState
    wfPage (pu 1 .LAT) 0 = true ∧ reaches s hubA (pu 1 .LAT) 0x040 = true ∧ (7#4) ≠ 15 ∧ bar0Of (pu 1 .LAT) 0x040 = some (0x3020040#32).toNat ∧
    (ran (.regWrite hubA (.bar0 0x3020040) 7 1) s).get (pu 1 .LAT) Fld.BLK_STAT_REJ_CODE = 8 := by decide +kernel
theorem test_unpowered_write : let s := onState.put (hu .a .PWR) Fld.PWR_DOM_STAT_ON 7
    mayAccess s hubA = true ∧ siteReaches s hubA (pu 1 .LAT) = true ∧ s.powered (pu 1 .LAT) = false := by decide +kernel
theorem test_unpowered_host_write :
    let s := ((onState.put (hu .a .PWR) Fld.PWR_DOM_STAT_ON 7).put (hu .a .PCI) Fld.PCI_STAT_LINK_UP 1).put (hu .a .PCI) Fld.PCI_LEASE_HOLDER 1
    mayAccess s (.host .a) = true ∧ siteReaches s (.host .a) (pu 1 .LAT) = true ∧ s.powered (pu 1 .LAT) = false ∧ holder s = portCode .a ∧
      s.dead = none := by decide +kernel
theorem test_no_page : mayAccess onState hubA = true ∧ locate (0xFFFFFFFC#32).toNat = none ∧
    (ran (.regWrite hubA (.bar0 0xFFFFFFFC) 15 5) onState).get (hu .a .HUB) Fld.BLK_STAT_REJ_CODE = 9 := by decide +kernel
theorem test_leaseless : let s := onState.put (hu .b .PCI) Fld.PCI_STAT_LINK_UP 1
    mayAccess s (.host .b) = true ∧ holder s ≠ portCode .b ∧ leaseFree .b (locate (0x3020040#32).toNat) = false := by decide +kernel
theorem test_blk_enable : wfPage (pu 2 .GRQ) 4 = true ∧ accepted onState hubA (pu 2 .GRQ) (4096 * 4 + 8) (BitVec.ofNat 32 (b2n true)) = true ∧
    (ran (.blkEnable hubA (pu 2 .GRQ) 4 true) onState).get (pu 2 .GRQ) Fld.BLK_CTRL_EN = 1 := by decide +kernel
theorem test_lock : accepted onState hubA (hu .b .PWR) (4096 * 0 + 8) (BitVec.ofNat 32 (b2n false) ||| Fld.BLK_CTRL_LOCK.mask) = true ∧
    (ran (.lock hubA (hu .b .PWR) 0 false) onState).get (hu .b .PWR) Fld.BLK_CTRL_LOCK = 1 := by decide +kernel
theorem test_rej : let s := (onState.put (pu 0 .FTM) Fld.BLK_STAT_REJ 1).put (pu 0 .FTM) Fld.BLK_STAT_REJ_CNT 7
    accepted s hubA (pu 0 .FTM) (4096 * 0 + 0xC) (0 ||| Fld.BLK_STAT_REJ.mask) = true ∧
    (ran (.rej hubA (pu 0 .FTM) 0 0) s).get (pu 0 .FTM) Fld.BLK_STAT_REJ_CNT = 0 := by decide +kernel
theorem test_irq_stat : let s := ((onState.put (pu 0 .XPT) Fld.BLK_STAT_REJ 1).setReg (pu 0 .XPT) 0x014 0x80000000#32).setReg (pu 0 .XPT) 0x018 0x80000005#32
    accepted s hubA (pu 0 .XPT) (4096 * 0 + 0x18) 0x80000001 = true ∧ s.on (pu 0 .XPT) Fld.BLK_STAT_REJ = true ∧
    (ran (.irqStat hubA (pu 0 .XPT) 0 0x80000001) s).reg (pu 0 .XPT) 0x018 = 0x80000004#32 := by decide +kernel
theorem test_ack : let s := (onState.put (uTMB 3 16) Fld.BLK_ERR_CLASS 2).put (uTMB 3 16) Fld.BLK_ERR_CLASS_SOURCE 3
    accepted s hubA (uTMB 3 16) (4096 * 0 + 0x1C) (0 ||| Fld.BLK_ERR_CLASS_ACK.mask) = true ∧ detectedNow s (uTMB 3 16) = [] ∧
    (ran (.ack hubA (uTMB 3 16) 0 0) s).get (uTMB 3 16) Fld.BLK_ERR_CLASS_SOURCE = 0 := by decide +kernel
theorem test_srst : let s := withPln 0 2 (onState.put (pu 0 .GRQ) Fld.BLK_CTRL_EN 1)
    accepted s hubA (pu 0 .GRQ) (4096 * 0 + 8) (5 ||| Fld.BLK_CTRL_SRST.mask) = true ∧
    (ran (.srst hubA (pu 0 .GRQ) 0 5) s).get (pu 0 .GRQ) Fld.BLK_CTRL_EN = 0 := by decide +kernel
theorem test_soft_reset_done : let s := onState.put (hu .a .KPL) Fld.BLK_STAT_RST_BUSY 1
    s.powered (hu .a .KPL) = true ∧ s.get (hu .a .KPL) Fld.BLK_STAT_RST_BUSY = 1 ∧
    (ran (.softResetDone (hu .a .KPL)) s).get (hu .a .KPL) Fld.BLK_STAT_RST_BUSY = 0 := by decide +kernel
theorem test_fence_channel : accepted onState hubA (uFMC 2 5) 0x034 (0 ||| Fld.BLK_FENCE_FENCE_REQ.mask) = true ∧
    onState.fenced (uFMC 2 5) = false ∧ (ran (.fenceReq hubA (uFMC 2 5) 0 0) onState).fenced (uFMC 2 5) = true := by decide +kernel
theorem test_fence_mgc : accepted onState hubA (pu 2 .MGC) 0x034 (0 ||| Fld.BLK_FENCE_FENCE_REQ.mask) = true ∧
    onState.fenced (pu 2 .MGC) = false := by decide +kernel

/-! ### Fabric time -/

theorem test_aclk_set : let s := withPln 0 2 onState
    accepted s hubA (pu 0 .PLN) 0x040 1 = true ∧ s.on (pu 0 .PLN) Fld.BLK_CTRL_LOCK = false ∧
    fieldGet (1 : Word) Fld.PLN_CFG_ACLK_SET ≠ s.get (pu 0 .PLN) Fld.PLN_STATE_ACLK_NOW ∧
    (ran (.aclkSet hubA 0 1) s).get (pu 0 .PLN) Fld.PLN_CFG_ACLK_SET = 1 ∧ ((ran (.aclkSet hubA 0 1) s).pl 0).relock = some 1 := by decide +kernel
theorem test_link_en : accepted onState hubA (hu .b .HUB) (Fld.HUB_LINK_CTL_EN.at 3).key 0 = true ∧
    accepted onState hubA (hu .b .HUB) (Fld.HUB_LINK_CTL_EN.at 3).key 1 = true ∧ onState.on (hu .b .HUB) Fld.BLK_CTRL_LOCK = false ∧
    (ran (.linkEn hubA .b 3 0) onState).get (hu .b .HUB) (Fld.HUB_LINK_STAT_CLOSED.at 3) = 1 := by decide +kernel
theorem test_cap : let s := withFt 1 5000000000 onState
    accepted s hubA (pu 1 .FTM) Fld.FTM_CAP.key (0 ||| Fld.FTM_CAP.mask) = true ∧
    (ran (.cap hubA 1 0) s).get (pu 1 .FTM) Fld.FTM_CAP_HI = 1 := by decide +kernel
theorem test_seed_hi : let s := onState.put (pu 1 .FTM) Fld.FTM_CFG_ROLE 1
    accepted s hubA (pu 1 .FTM) Fld.FTM_SEED_HI.key 0 = true ∧ ((ran (.ftmSeedHi hubA 1 0) s).pl 1).ftm.seed = some 0 := by decide +kernel
theorem test_hold_limit : accepted onState hubA (pu 1 .FTM) Fld.FTM_CFG_HOLD_LIMIT.key 0xFF08 = true ∧
    onState.on (pu 1 .FTM) Fld.BLK_CTRL_LOCK = false ∧
    (ran (.holdLimit hubA 1 0xFF08) onState).get (pu 1 .FTM) Fld.FTM_CFG_HOLD_LIMIT = 0xFF := by decide +kernel
theorem test_timeref : onState.powered (hu .a .TRF) = true ∧
    (ran (.timerefChange .a true (-10000) 0) onState).get (hu .a .TRF) Fld.TRF_STAT_REF_OK = 1 ∧
    (ran (.timerefChange .a false 0 16500) (ran (.timerefChange .a true 10000 0) onState)).get (hu .a .TRF) Fld.TRF_STAT_REF_OK = 0 := by
  decide +kernel
theorem test_pps_edge : onState.powered (hu .b .TRF) = true ∧ ppsCounts onState .b 1650 0 = true ∧ onState.get (hu .b .TRF) Fld.TRF_CFG_REF_SRC ≠ 1 ∧
    (ran (.ppsEdge .b 1650 0) onState).get (hu .b .TRF) Fld.TRF_PPS_CNT = 1 ∧
    (ran (.ppsEdge .b 1649 0) onState).get (hu .b .TRF) Fld.TRF_PPS_REJ = 1 := by decide +kernel
theorem test_pps_loss : let s := onState.modHub .a (fun x => { x with ppsAt := some 0, beat := 1666500001 })
    (s.hub .a).ppsAt = some 0 ∧ 0 + 1666500000 < (s.hub .a).beat ∧ ((ran (.ppsLoss .a) s).hub .a).ppsAt = none := by decide +kernel
theorem test_ptp_announce : let s := onState.put (hu .a .TRF) Fld.TRF_CFG_REF_SRC 2
    s.powered (hu .a .TRF) = true ∧ s.get (hu .a .TRF) Fld.TRF_CFG_REF_SRC = 2 ∧ s.get (hu .a .TRF) Fld.TRF_CFG_PTP_DOMAIN = (0#8).toNat ∧
    s.get (hu .a .TRF) Fld.TRF_CFG_PTP_TRANSPORT = b2n false ∧
    ((ran (.ptpMessage .a 0 false (.announce 9 3)) s).hub .a).ptp.master = some 9 := by decide +kernel
theorem test_ptp_lost : let s := onState.modHub .b (fun x => { x with ptp := { master := some 4, foreign := [(4, 1), (6, 2)] } })
    (s.hub .b).ptp.master = some 4 ∧ ((ran (.ptpMasterLost .b) s).hub .b).ptp.master = some 6 := by decide +kernel
theorem test_freq_lock : let s := onState.put (pu 3 .FTM) Fld.FTM_STAT_STATE 1
    ftmState s 3 = 1 ∧ ftmState (ran (.freqLock 3) s) 3 = 2 := by decide +kernel
theorem test_holdover_expire : let s := withFt 2 1048576 (onState.put (pu 2 .FTM) Fld.FTM_STAT_STATE 4)
    ftmRole s 2 = 0 ∧ ftmState s 2 = 4 ∧ holdoverOver s 2 = true ∧ s.get (pu 2 .FTM) Fld.BLK_ERR_CLASS = 0 ∧ detectedNow s (pu 2 .FTM) = [] ∧
    ftmState (ran (.holdoverExpire 2) s) 2 = 0 ∧ (ran (.holdoverExpire 2) s).get (pu 2 .FTM) Fld.BLK_ERR_CLASS_SOURCE = 3 := by decide +kernel
theorem test_tsync_timeout : let s := ((onState.put (pu 2 .FTM) Fld.FTM_STAT_STATE 3).modPl 2 (fun x => { x with
      ftm := { ft := 1, beats := 196609, inUse := some (.port 7), ups := [⟨.port 7, 0, 3, 0, 0, 0, 0, 0⟩] } }))
    ftmRole s 2 = 0 ∧ ftmState s 2 = 3 ∧ (s.pl 2).ftm.inUse = some (.port 7) ∧
    ((s.pl 2).ftm.ups.find? (fun u => u.src = .port 7)).all (fun u => decide (u.lastAt + 196608 < s.beats 2)) = true ∧
    ftmState (ran (.tsyncTimeout 2) s) 2 = 4 ∧ ((ran (.tsyncTimeout 2) s).pl 2).ftm.holdSince = 196609 := by decide +kernel
theorem test_tsync_send : let s := (onState.put (pu 0 .FTM) Fld.FTM_STAT_STATE 3).modPl 0 (fun x => { x with ftm := { txSeq := 65535, ft := 9 } })
    ftmState s 0 = 3 ∧ (s.pl 0).ftm.lastTx = none ∧ ((ran (.tsyncSend 0 5) s).pl 0).ftm.txSeq = 0 := by decide +kernel
theorem test_tsync_too_soon : let s := onState.modPl 0 (fun x => { x with ftm := { lastTx := some 1, beats := 65536 } })
    (s.pl 0).ftm.lastTx = some 1 ∧ s.beats 0 < 1 + 65536 ∧ ((ran (.tsyncSend 0 5) s).pl 0).ftm.txSeq = 0 := by decide +kernel
theorem test_tsync_receive : let s := ((onState.put (pu 1 .FTM) Fld.FTM_CFG_ROLE 1).put (uFPT 1 3) Fld.FPT_CFG_PEN 1).put (uFPT 1 3) Fld.FPT_STAT_STATE 3
    ftmRole s 1 ≠ 0 ∧ portTalks s 1 3 = true ∧ s.powered (pu 1 .FTM) = true ∧
    ((ran (.tsyncReceive 1 (.port 3) ⟨false, 4, 3, 0, 100, 0⟩ 9 10) s).pl 1).ftm.ups.length = 1 := by decide +kernel
theorem test_tsync_echo : let s := onState.modPl 1 (fun x => { x with ftm := { txSeq := 0, ft := 2 } })
    (65535 + 1) % 65536 = (s.pl 1).ftm.txSeq ∧ mget ((ran (.tsyncEchoReceive 1 (.port 3) ⟨true, 65535, 3, 0, 0, 0⟩ 9) s).pl 1).ftm.echoAt 3 =
      some 137 := by decide +kernel
theorem test_phase_step : let s := (onState.put (pu 0 .FTM) Fld.FTM_STAT_STATE 3).modPl 0 (fun x => { x with ftm := { slew := -1, beats := 1024 } })
    (s.pl 0).ftm.slew ≠ 0 ∧ (s.pl 0).ftm.lastStep + 1024 ≤ s.beats 0 ∧ ftmState s 0 = 3 ∧ ((ran (.phaseStep 0) s).pl 0).ftm.slew = 0 := by
  decide +kernel

/-- Hub B drives PPS_OUT and plane 2 times it. -/
def ppsState : State :=
  withFt 2 3300000000 (((onState.put (hu .b .TRF) Fld.TRF_CFG_PPS_OUT_EN 1).put (hu .b .TRF) Fld.TRF_CFG_PPS_OUT_PLANE 2).put (pu 2 .PLN)
    Fld.PLN_STATE_FT_LOCKED 1)

theorem test_pps_out : ppsDriver ppsState = some .b ∧ ppsState.ft (ppsPlane ppsState .b) % 1650000000 = 0 ∧
    ppsState.on (pu (ppsPlane ppsState .b) .PLN) Fld.PLN_STATE_FT_LOCKED = true ∧ (ran .ppsOutRise ppsState).ppsOut = some 3300000000 := by
  decide +kernel
theorem test_pps_fall : let s := { ppsState with ppsOut := some 3299835000 }
    ppsDriver s = some .b ∧ 3299835000 + 165000 ≤ s.ft (ppsPlane s .b) ∧ (ran .ppsOutFall s).ppsOut = none := by decide +kernel
theorem test_pps_high : let s := { ppsState with ppsOut := some 3299835001 }
    ppsDriver s = some .b ∧ s.ft (ppsPlane s .b) < 3299835001 + 165000 ∧ s.on (pu (ppsPlane s .b) .PLN) Fld.PLN_STATE_FT_LOCKED = true ∧
    (ran .ppsOutFall s).ppsOut = some 3299835001 := by decide +kernel

/-! ### The latch barrier -/

/-- Plane 1 with its time locked, and entry 63 in a state: root or not, GEN 7, N 3, LOCAL_N 2. -/
def latState (st : Nat) (root : Bool) : State :=
  let u := pu 1 .LAT
  let s := (((onState.put (pu 1 .PLN) Fld.PLN_STATE_FT_LOCKED 1).put u (Fld.ENT_STAT_STATE.at 63) st).put u (Fld.ENT_CTRL_ROOT.at 63) (b2n root)).put u
    (Fld.ENT_CTRL_GEN.at 63) 7
  (s.put u (Fld.ENT_CFG_N.at 63) 3).put u (Fld.ENT_CTRL_LOCAL_N.at 63) 2

/-- The payload of a message of a TYPE to entry 63. -/
def latMsg (type ft : Nat) : Payload := LatchMsg.encode ⟨type, 7, 63, 0x22, 2, ft, 0⟩

theorem test_arm : accepted (latState 4 false) hubA (pu 1 .LAT) (Fld.ENT_CTRL_ARM.at 63).key (0x090100 ||| (Fld.ENT_CTRL_ARM.at 63).mask) = true ∧
    entState (ran (.arm hubA 1 63 0x090100) (latState 4 false)) 1 63 = 1 := by decide +kernel
theorem test_arrive : let s := latState 1 false
    accepted s hubA (pu 1 .LAT) (Fld.ENT_CTRL_ARRIVE.at 63).key (0 ||| (Fld.ENT_CTRL_ARRIVE.at 63).mask) = true ∧ entState s 1 63 = 1 ∧ entLate s 1 63 = false ∧
    s.get (pu 1 .LAT) (Fld.ENT_STAT_LOCAL_CNT.at 63) + 1 < s.get (pu 1 .LAT) (Fld.ENT_CTRL_LOCAL_N.at 63) ∧
    (ran (.arrive hubA 1 63 0) s).get (pu 1 .LAT) (Fld.ENT_STAT_LOCAL_CNT.at 63) = 1 := by decide +kernel
theorem test_abort : let s := latState 2 true
    accepted s hubA (pu 1 .LAT) (Fld.ENT_CTRL_ABORT.at 63).key (0 ||| (Fld.ENT_CTRL_ABORT.at 63).mask) = true ∧ entState s 1 63 = 2 ∧ entLate s 1 63 = false ∧
    entState (ran (.abort hubA 1 63 0) s) 1 63 = 6 := by decide +kernel
theorem test_arrive_msg : let s := latState 1 true
    let m := latchDecode (latMsg 1 5)
    m.type = 1 ∧ latchOk s 1 m = true ∧ s.on (pu 1 .LAT) (Fld.ENT_CTRL_ROOT.at m.entry) = true ∧ m.pidx < s.get (pu 1 .LAT) (Fld.ENT_CFG_N.at m.entry) ∧
    entState s 1 m.entry = 1 ∧ entLate s 1 m.entry = false ∧ (latchEnt s 1 m.entry).counted.any (fun c => c.1 = m.pidx) = false ∧
    (latchEnt s 1 m.entry).counted.length + 1 < s.get (pu 1 .LAT) (Fld.ENT_CFG_N.at m.entry) ∧
    (latchEnt (ran (.latchArriveMsg 1 (latMsg 1 5)) s) 1 63).counted = [(2, 0x22)] := by decide +kernel
theorem test_strike_msg : let s := withFt 1 936 (latState 2 false)
    let m := latchDecode (latMsg 2 1000)
    m.type = 2 ∧ latchOk s 1 m = true ∧ s.on (pu 1 .LAT) (Fld.ENT_CTRL_ROOT.at m.entry) = false ∧
    s.on (pu 1 .LAT) (Fld.ENT_CTRL_ACT_KEY.at m.entry) = false ∧ entState s 1 m.entry = 2 ∧ entLate s 1 m.entry = false ∧ s.ft 1 + 64 ≤ m.ft ∧
    entState (ran (.latchStrikeMsg 1 (latMsg 2 1000)) s) 1 63 = 3 := by decide +kernel
theorem test_abort_msg : let s := latState 1 true
    let m := latchDecode (latMsg 3 5)
    m.type = 3 ∧ latchOk s 1 m = true ∧ entState s 1 m.entry = 1 ∧ entLate s 1 m.entry = false ∧ entState (ran (.latchAbortMsg 1 (latMsg 3 5)) s) 1 63 = 6 := by decide +kernel
theorem test_missed_msg : let s := latState 4 true
    let m := latchDecode (latMsg 4 5)
    m.type = 4 ∧ latchOk s 1 m = true ∧ s.on (pu 1 .LAT) (Fld.ENT_CTRL_ROOT.at m.entry) = true ∧ entLate s 1 m.entry = false ∧
    (ran (.latchMissedMsg 1 (latMsg 4 5)) s).get (pu 1 .LAT) Fld.LAT_STAT_MISSED_CNT = 1 := by decide +kernel
theorem test_discarded_msg : (latchDecode (latMsg 2 5)).type = 2 ∧ latchOk (latState 0 false) 1 (latchDecode (latMsg 2 5)) = false ∧
    (ran (.latchStrikeMsg 1 (latMsg 2 5)) (latState 0 false)).get (pu 1 .LAT) Fld.LAT_STAT_DISCARD_CNT = 1 := by decide +kernel
theorem test_arrive_resend : let s := withFt 1 65536 (latState 2 false)
    entState s 1 63 = 2 ∧ s.on (pu 1 .LAT) (Fld.ENT_CTRL_ROOT.at 63) = false ∧ (latchEnt s 1 63).sentAt + 65536 ≤ s.ft 1 ∧
    ((ran (.latchArriveResend 1 63) s).pl 1).unitFrames.length = 1 := by decide +kernel
theorem test_release : let s := (latState 3 false).put (pu 1 .LAT) (Fld.ENT_CTRL_ACT_SYNC.at 63) 1
    entState s 1 63 = 3 ∧ syncLog s 1 = [] ∧ s.ft 1 = s.get64 (pu 1 .LAT) (Fld.ENT_STRIKE_LO.at 63) (Fld.ENT_STRIKE_HI.at 63) ∧
    entState (ran (.latchRelease 1 63) s) 1 63 = 4 ∧ syncVal (ran (.latchRelease 1 63) s) 1 0 = 1 := by decide +kernel
theorem test_timeout : let s := withFt 1 1 (((latState 1 false).put (pu 1 .LAT) (Fld.ENT_TMO_LO.at 63) 0).put (pu 1 .LAT) (Fld.ENT_TMO_HI.at 63) 0)
    entState s 1 63 = 1 ∧ entDeadline s 1 63 < s.ft 1 ∧ (latchEnt s 1 63).armedAt < s.ft 1 ∧ entDeadline s 1 63 ≠ 2 ^ 64 - 1 ∧ entState (ran (.latchTimeout 1 63) s) 1 63 = 5 := by
  decide +kernel

/-! ### Any register, and faults -/

theorem test_accepted_write : wfPage (pu 0 .FTM) 0 = true ∧ accepted onState hubA (pu 0 .FTM) (4096 * 0 + 0x14) 0x80000001 = true ∧
    bar0Of (pu 0 .FTM) (4096 * 0 + 0x14) = some (0x1010014#32).toNat ∧
    (ran (.regWrite hubA (.bar0 0x1010014) 15 0x80000001) onState).reg (pu 0 .FTM) 0x14 = 0x80000001#32 := by decide +kernel
theorem test_accepted_ward_write : let s := withPln 0 2 onState
    accepted s hubA (hu .a .MBX) (0x400 + 4 * 9) 0x0143 = true ∧ bar0Of (hu .a .MBX) (0x400 + 4 * 9) = some (0x20424#32).toNat ∧
    (ran (.regWrite hubA (.bar0 0x20424) 15 0x0143) s).reg (hu .a .MBX) 0x424 = 0x143#32 := by decide +kernel
theorem test_accepted_channel_write : let s := onState.put (hu .a .MBX) (Fld.MBX_WARD_SEND.at 5) 3
    chReach s hubA (chHub 5) = true ∧ s.on (hu .a .MBX) Fld.BLK_STAT_RST_BUSY = false ∧ s.fenced (hu .a .MBX) = false ∧ agentOf hubA = 3 ∧
    ward s 5 Fld.MBX_WARD_SEND = 3 ∧
    (chan (ran (.regWrite hubA (.chan 5 0x1FC) 15 0xABC) s) 5).tx = [(63, 0xABC)] := by decide +kernel
theorem test_fault_first : let s := withFt 0 77 onState
    let u := pu 0 .KSQ
    unitBlk u = some (.KSQ, 0) ∧ (Blk.KSQ, 3) ∈ quietSources ∧ classAllowed .KSQ 3 .c (5#32).toNat = true ∧ s.powered u = true ∧ s.dead = none ∧
    detectedNow s u = [] ∧ s.get u Fld.BLK_ERR_CLASS = 0 ∧ (ran (.faultDetect u 3 .c 5 6 false) s).reg u 0x020 = 77#32 ∧
    (ran (.faultDetect u 3 .c 5 6 false) s).get u Fld.BLK_ERR_CLASS_C_COUNT = 1 := by decide +kernel
theorem test_fault_held : let s := onState.put (uTMB 0 3) Fld.BLK_ERR_CLASS 2
    (Blk.TMB, 3) ∈ quietSources ∧ classAllowed .TMB 3 .u (5#32).toNat = true ∧ s.get (uTMB 0 3) Fld.BLK_ERR_CLASS ≠ 0 ∧
    escSource .TMB 3 = false ∧ detectedNow s (uTMB 0 3) = [] ∧ (logNow s (uTMB 0 3)).due (unitBeat s (uTMB 0 3)) = false ∧
    (ran (.faultDetect (uTMB 0 3) 3 .u 5 6 false) s).get (uTMB 0 3) Fld.BLK_ERR_CLASS_OVF = 1 := by decide +kernel
theorem test_fault_of_no_class : unitBlk (uTMB 0 3) = some (Blk.TMB, 3) ∧ classAllowed .TMB 99 .u 5 = false ∧
    ran (.faultDetect (uTMB 0 3) 99 .u 5 6 false) onState = onState := by decide +kernel
theorem test_go : let s := { onState with cfg := { onState.cfg with opmode := 2 } }
    accepted s hubA (pu 0 .XPT) 0x030 (0x101 ||| Fld.BLK_ERR_INJ_GO.mask) = true ∧ fieldGet 0x101 Fld.BLK_ERR_INJ_INJ_SRC = 1 ∧
    (Blk.XPT, 1) ∈ quietSources ∧ s.get (pu 0 .XPT) Fld.BLK_ERR_CLASS = 0 ∧ detectedNow s (pu 0 .XPT) = [] ∧ injectsD .XPT 1 = true ∧
    (ran (.go hubA (pu 0 .XPT) 0 0x101) s).get (pu 0 .XPT) Fld.BLK_ERR_CLASS_SOURCE = 1 ∧
    ((ran (.go hubA (pu 0 .XPT) 0 0x101) s).rp (pu 0 .XPT)).corrupt.isSome = true := by decide +kernel
theorem test_go_refused : wfUnit (pu 0 .XPT) = true ∧ reaches onState hubA (pu 0 .XPT) 0x030 = true ∧ onState.testMode = false ∧
    onState.on (pu 0 .XPT) Fld.BLK_STAT_RST_BUSY = false ∧ onState.fenced (pu 0 .XPT) = false ∧
    unitBusy onState (pu 0 .XPT) ((unitBlk (pu 0 .XPT)).elim .PLN (·.1)) 0x030 = false ∧
    (ran (.go hubA (pu 0 .XPT) 0 0x101) onState).get (pu 0 .XPT) Fld.BLK_STAT_REJ_CODE = 5 := by decide +kernel

/-! ### Keys -/

/-- A locked plane 0 whose banks are in two states, with bank 0 the active one, and the fabric time. -/
def keyState (st a b ft : Nat) : State :=
  let u := pu 0 .KSQ
  let s := withFt 0 ft ((withPln 0 st onState).put (pu 0 .PLN) Fld.PLN_STATE_FT_LOCKED 1)
  ((s.put u (Fld.KSQ_B_STAT_STATE.at 0) a).put u (Fld.KSQ_B_STAT_STATE.at 1) b).put u Fld.KSQ_SRC_LEN 0x480

theorem test_load : let s := keyState 2 0 7 0
    accepted s hubA (pu 0 .KSQ) Fld.KSQ_CMD.key ((0 &&& ~~~Fld.KSQ_CMD.mask) ||| 1) = true ∧
    bankSt (ran (.load hubA 0 0) s) 0 1 = 1 ∧ (bankOfKey (ran (.load hubA 0 0) s) 0 1).srcLen = 0x480 := by decide +kernel
theorem test_key_arm : let s := ((keyState 2 0 2 0).put (pu 0 .KSQ) Fld.KSQ_START_LO 4100).modPl 0 (fun x => { x with keys := [{}, { partSig := partSig (keyState 2 0 2 0) 0 }] })
    accepted s hubA (pu 0 .KSQ) Fld.KSQ_CMD.key ((0 &&& ~~~Fld.KSQ_CMD.mask) ||| 2) = true ∧ armVia s 0 = false ∧
    armFail s 0 (standbyBank s 0) true = none ∧ s.ft 0 + 4096 ≤ armStart s 0 ∧ bankSt (ran (.keyArm hubA 0 0) s) 0 1 = 3 ∧
    (ran (.keyArm hubA 0 0) s).plnState 0 = 3 := by decide +kernel
theorem test_key_arm_fails : let s := (keyState 2 0 2 0).modPl 0 (fun x => { x with keys := [{}, { flags := 4, partSig := 0 }] })
    accepted s hubA (pu 0 .KSQ) Fld.KSQ_CMD.key ((0 &&& ~~~Fld.KSQ_CMD.mask) ||| 2) = true ∧ armFail s 0 (standbyBank s 0) true = some 3 ∧
    (ran (.keyArm hubA 0 0) s).get (pu 0 .KSQ) (Fld.KSQ_B_STAT_RCODE.at 1) = 3 := by decide +kernel
theorem test_resume : let s := ((keyState 2 5 0 0).put (pu 0 .KSQ) Fld.KSQ_START_LO 4100).modPl 0 (fun x => { x with keys := [{ line := 7, partSig := partSig (keyState 2 5 0 0) 0 }, {}] })
    accepted s hubA (pu 0 .KSQ) Fld.KSQ_CMD.key ((0 &&& ~~~Fld.KSQ_CMD.mask) ||| 3) = true ∧ armVia s 0 = false ∧
    armFail s 0 (activeBank s 0) false = none ∧ s.ft 0 + 4096 ≤ armStart s 0 ∧ bankSt (ran (.resume hubA 0 0) s) 0 0 = 3 := by decide +kernel
theorem test_pause_stop : let s := (keyState 4 4 0 9).put (pu 0 .KSQ) Fld.KSQ_PAUSE_LO 9
    bankIn s 0 4 = some 0 ∧ accepted s hubA (pu 0 .KSQ) Fld.KSQ_CMD.key ((0 &&& ~~~Fld.KSQ_CMD.mask) ||| 4) = true ∧
    accepted s hubA (pu 0 .KSQ) Fld.KSQ_CMD.key ((0 &&& ~~~Fld.KSQ_CMD.mask) ||| 5) = true ∧
    (bankOfKey (ran (.pause hubA 0 0) s) 0 0).pauseAt = some 9 ∧ (bankOfKey (ran (.stop hubA 0 0) s) 0 0).stop = some 9 := by decide +kernel
theorem test_discard : let s := (keyState 2 0 2 0).modPl 0 (fun x => { x with xpt := [(1, { owner := 1, data := 5 }), (2, { owner := 0, data := 6 })] })
    accepted s hubA (pu 0 .KSQ) Fld.KSQ_CMD.key ((0 &&& ~~~Fld.KSQ_CMD.mask) ||| 6) = true ∧ bankSt (ran (.discard hubA 0 0) s) 0 1 = 0 ∧
    ((ran (.discard hubA 0 0) s).pl 0).xpt.map (·.1) = [2] := by decide +kernel
theorem test_key_load_fails : let s := (keyState 2 0 1 0).modPl 0 (fun x => { x with keys := [{}, { srcAddr := 0, srcLen := 0x440 }] })
    bankIn s 0 1 = some 1 ∧ loadFail (imageRead s 0 1) 0 1 (bankOfKey s 0 1).srcAddr (bankOfKey s 0 1).srcLen = some (1, 0) ∧
    bankSt (ran (.keyLoadDone 0) s) 0 1 = 6 := by decide +kernel
/-- An unsigned key image of plane 0 at 900 MHz with one pattern, all OPEN, and its END line; its DIGEST was computed outside the model. -/
def endKeyImage : List Byte :=
  bytesOf 96 0x40710424000000000000000100000001000000000000000000000000000000000000000101000001594b5a4b ++
  bytesOf 64 0x86FE69F7D96A4E9E898028EA4BAA9FBDC64F972A2B6535045A9F5D9159D158475AAFE864E5AFEACB733544BB18A1D8E1B61E4485EEF566836A1B1086D87928EE ++
  List.replicate 864 0 ++ (1 :: List.replicate 319 0) ++ (2 :: List.replicate 61 0) ++ [0x63, 0x3E]

theorem test_key_load : let s := (keyState 2 0 1 0).modPl 0 (fun x => { x with keys := [{}, { srcAddr := 0, srcLen := 0x580 }], mem := (endKeyImage.zipIdx.filter (·.1 ≠ 0)).map (fun e => (e.2, e.1)) })
    bankIn s 0 1 = some 1 ∧ loadFail (imageRead s 0 1) 0 1 (bankOfKey s 0 1).srcAddr (bankOfKey s 0 1).srcLen = none := by decide +kernel
theorem test_key_start : let s := (keyState 3 7 3 4100).modPl 0 (fun x => { x with keys := [{}, { start := some 4100 }] })
    bankIn s 0 3 = some 1 ∧ (bankOfKey s 0 1).start = some (s.ft 0) ∧ bankIn s 0 4 = none ∧ s.plnState 0 = 3 ∧ (bankSt s 0 (1 - 1) ≠ 5 ∨ (bankOfKey s 0 1).resumed = true) ∧
    (ran (.keyStart 0) s).plnState 0 = 4 ∧ activeBank (ran (.keyStart 0) s) 0 = 1 := by decide +kernel
theorem test_key_swap_late : let s := (keyState 4 4 3 4110).modPl 0 (fun x => { x with keys := [{ nextSlot := 4120 }, { start := some 4110 }] })
    bankIn s 0 3 = some 1 ∧ bankIn s 0 4 = some 0 ∧ (bankOfKey s 0 1).start = some (s.ft 0) ∧ (slotBank s 0 ≠ some 0 ∨ dueEnd s 0 0 = none) ∧
    (bankOfKey s 0 1).resumed = false ∧ bankSt (ran (.keySwapLate 0) s) 0 1 = 2 := by decide +kernel
theorem test_refresh_deadline : let s := (keyState 4 4 0 3005).modPl 0 (fun x => { x with keys := [{ memMap := 2, start := some 5, nextSlot := 3020 }, {}] })
    bankIn s 0 4 = some 0 ∧ mapNames (bankOfKey s 0 0).memMap 1 = true ∧ refreshDue s 0 0 1 ≤ s.ft 0 ∧
    ¬ (slotBank s 0 = some 0 ∧ dueEnd s 0 0 = none ∧ refreshes s 0 (slotMops s 0 0) 1 = true) ∧
    s.get (pu 0 .KSQ) Fld.BLK_ERR_CLASS = 0 ∧ detectedNow s (pu 0 .KSQ) = [] ∧
    (bankOfKey (ran (.refreshDeadline 0 1) s) 0 0).endSlot = [(6, 3020)] := by decide +kernel
theorem test_key_end : let s := (keyState 4 4 3 40).modPl 0 (fun x => { x with keys := [{ nextSlot := 40, pauseAt := some 40, line := 1 }, {}] })
    slotBank s 0 = some 0 ∧ dueEnd s 0 0 = some .paused ∧ bankSt s 0 (1 - 0) = 3 ∧
    (ran (.keyEnd 0) s).get (pu 0 .KSQ) (Fld.KSQ_B_STAT_END.at 0) = 2 := by decide +kernel
theorem test_key_end_done : let s := (keyState 4 4 0 40).modPl 0 (fun x => { x with keys := [{ nextSlot := 40, lineCnt := 1 }, {}], mem := [(lineAddr (keyState 4 4 0 40) 0 0 0, 2), (lineAddr (keyState 4 4 0 40) 0 0 0 + 62, 0x63), (lineAddr (keyState 4 4 0 40) 0 0 0 + 63, 0x3E)] })
    slotBank s 0 = some 0 ∧ dueEnd s 0 0 = some .done ∧ bankSt (ran (.keyEnd 0) s) 0 0 = 7 := by decide +kernel
theorem test_no_key_end : slotBank onState 0 = none := by decide +kernel
theorem test_key_slot : let s := (keyState 4 4 0 40).modPl 0 (fun x => { x with keys := [{ nextSlot := 40, repLeft := 2, line := 3 }, {}] })
    slotBank s 0 = some 0 ∧ dueEnd s 0 0 = none ∧ (s.pl 0).ctxs = [] ∧ (s.pl 0).schedIn = [] ∧
    mapTargets s 0 (bankOfKey s 0 0).memMap = [] ∧ memArmed s 0 = false ∧ (s.rp (pu 0 .KSQ)).corrupt = none ∧
    (let l := parseLine (reached s 0 0).data
     l.pat = 0 ∧ l.tops = List.replicate 17 0 ∧ l.mops = [0, 0, 0, 0] ∧ l.sops = [0, 0, 0]) ∧ mget (s.pl 0).xpt 0 = none ∧
    (bankOfKey (ran (.keySlot 0) s) 0 0).repLeft = 1 := by decide +kernel

/-! ### Clocks, slices and chunks -/

theorem test_beat_plane : onState.powered (pu 0 .PLN) = true := by decide +kernel
theorem test_beat_hub : onState.powered (hu .b .HUB) = true ∧ ((ran (.beat (.hub .b)) onState).hub .b).beat = 1 := by decide +kernel
theorem test_no_beat : State.reset.powered (pu 0 .PLN) = false ∧ State.reset.pwr.resetDue = false ∧ State.reset.pwr.planesDue = [] ∧
    (ran (.beat .power) State.reset).pwr.beat = 1 := by decide +kernel
theorem test_clkchg : let s := (withPln 0 2 onState).put (pu 0 .PLN) Fld.PLN_CFG_ACLK_SET 1
    let s := s.modPl 0 (fun x => { x with relock := some 1 })
    s.plnState 0 = 2 ∧ (s.pl 0).relock = some 1 ∧ cellsWritten s 0 = true ∧ (ran (.clkchgEnter 0) s).get (pu 0 .PLN) Fld.PLN_STATE_ACLK_NOW = 1 ∧
    (ran (.clkchgEnter 0) s).plnState 0 = 5 ∧ (ran (.relockDone 0) (ran (.clkchgEnter 0) s)).plnState 0 = 2 := by decide +kernel
theorem test_device_hot : onState.powered (tgtUnit 0 6) = true ∧ (ran (.deviceHot 0 6 true) onState).get (tgtUnit 0 6) Fld.FMC_STAT_HOT = 1 := by
  decide +kernel
theorem test_tmb_fail : let s := onState.put (uTMB 1 16) Fld.TMB_STAT_ROLE 1
    s.powered (uTMB 1 2) = true ∧ s.fenced (uTMB 1 2) = false ∧ s.get (uTMB 1 2) Fld.BLK_ERR_CLASS = 0 ∧ detectedNow s (uTMB 1 2) = [] ∧
    sliceRole s 1 2 = 0 ∧
    spareSlice s 1 = some 16 ∧ sliceRole (ran (.tmbFail 1 2) s) 1 16 = 2 ∧ sliceRole (ran (.tmbFail 1 2) s) 1 2 = 3 := by decide +kernel
theorem test_spare_activate : let s := (onState.put (uTMB 1 16) Fld.TMB_STAT_ROLE 2).put (uTMB 1 16) Fld.TMB_STAT_FOR_POS 2
    sliceRole s 1 16 = 2 ∧ ctxsOf s 1 (s.get (uTMB 1 16) Fld.TMB_STAT_FOR_POS) = [] ∧
    keyNamesSlice s 1 (s.get (uTMB 1 16) Fld.TMB_STAT_FOR_POS) = false ∧ sliceRole (ran (.spareActivate 1 16) s) 1 16 = 0 := by decide +kernel

/-- Plane 0 with one feed context of group 5 at position 3, context 2. -/
def ctxState (ft : Nat) (k : Chunk) : State :=
  (withFt 0 ft onState).modPl 0 (fun x => { x with
    ctxs := [(ctxKey 3 2, { core := 1, chunkCells := 1, group := 5, cseq := 9, feed := true, chunks := [k] })] })

theorem test_acc_sel : let s := { ctxState 0 { num := 0 } with cfg := { onState.cfg with opmode := 1 } }
    accepted s hubA (uTMB 0 3) Fld.TMB_ACC_SEL_GO.key (2 ||| Fld.TMB_ACC_SEL_GO.mask) = true ∧ (pageCtx s 0 3 2).isSome = true ∧
    (mget ((ran (.tmbAccSelGo hubA 0 3 2) s).pl 0).captures 3).isSome = true := by decide +kernel
theorem test_close_begin : let s := ctxState 40 { num := 7, closeReq := true }
    (getCtx s 0 3 2).isSome = true ∧ (((getCtx s 0 3 2).bind (·.filling)).map (·.num)) = some 7 ∧ closeDue s 0 3 2 { num := 7, closeReq := true } = true ∧
    (s.rp (posUnit s 0 3)).corrupt ≠ some 2 ∧
    (((getCtx (ran (.chunkCloseBegin 0 3 2) s) 0 3 2).bind (·.chunk 7)).map (·.st)) = some .closing := by decide +kernel
theorem test_close_end : let s := ctxState 60 { num := 7, st := .closing, closeAt := 40, ins := [⟨0, 0, 0⟩] }
    let x := (getCtx s 0 3 2).getD { core := 0 }
    closeOver s x 0 = some 7 ∧ ctxAborted s 0 x = false ∧ x.fault = false ∧ x.incomplete { num := 7, ins := [⟨0, 0, 0⟩] } = false ∧
    (((getCtx (ran (.chunkCloseEnd 0 3 2) s) 0 3 2).bind (·.chunk 7)).map (·.st)) = some .sending := by decide +kernel
theorem test_close_incomplete : let s := ctxState 60 { num := 7, st := .closing, closeAt := 40 }
    closeOver s ((getCtx s 0 3 2).getD { core := 0 }) 0 = some 7 ∧
    (((getCtx (ran (.chunkCloseEnd 0 3 2) s) 0 3 2).bind (·.chunk 7)).map (fun k => (k.st, k.fail))) = some (.failed, 5) := by decide +kernel
theorem test_close_repair : let s := ctxState 60 { num := 7, st := .closing, closeAt := 40, ins := [⟨0, 0, 0⟩], neg := 2 }
    closeOver s ((getCtx s 0 3 2).getD { core := 0 }) 0 = some 7 ∧
    (((getCtx (ran (.chunkCloseEnd 0 3 2) s) 0 3 2).bind (·.chunk 7)).map (·.st)) = some .repair := by decide +kernel
theorem test_close_none : (getCtx onState 0 3 2).bind (·.filling) = none := by decide +kernel
theorem test_feed_done : let s := (ctxState 60 { num := 7 }).modPl 0 (fun x => { x with feeds := [⟨1, 3, 2, 7, 0, baseS⟩] })
    (s.pl 0).feeds.find? (fun f => f.pos = 3 && f.ctx = 2) = some ⟨1, 3, 2, 7, 0, baseS⟩ ∧ ((ran (.feedDone 0 3 2) s).pl 0).feeds = [] := by
  decide +kernel

/-- The head cell of a contribution of member 0 to chunk 7 of that collective. -/
def headOf (cells : Nat) : Payload := BitVec.ofNat 2048 (2 ^ 64 * (5 + 2 ^ 16 * 9 + 2 ^ 32 * 7 + 2 ^ 80 * cells))

theorem test_contrib : let s := ctxState 60 { num := 7 }
    let a : BitVec 48 := BitVec.ofNat 48 (baseS + (partRange s 0 .open_).1)
    a.toNat % 256 = 0 ∧ inPart s 0 .open_ a.toNat (256 * 2) = true ∧ (boundFor s 0 (headCell (headOf 1)).group (headCell (headOf 1)).cseq).isSome = true ∧
    member s 0 (headCell (headOf 1)).group (headCell (headOf 1)).midx = some 0 ∧ entKind 0 = 0 ∧ entAddr 0 = 0 ∧ (headCell (headOf 1)).reserved = 0 ∧
    (headCell (headOf 1)).cells = 1 ∧ memByte ((ran (.contribFrame 0 0 a [(0, headOf 1), (6, 9)]) s).pl 0).mem (a.toNat + 256) = 9 ∧
    mgetD ((ran (.contribFrame 0 0 a [(0, headOf 1), (6, 9)]) s).pl 0).stageTags (a.toNat + 256) 0 = 6 := by decide +kernel
theorem test_contrib_discard : let s := onState
    let a : BitVec 48 := BitVec.ofNat 48 (baseS + (partRange s 0 .open_).1)
    a.toNat % 256 = 0 ∧ inPart s 0 .open_ a.toNat (256 * 2) = true ∧ boundFor s 0 (headCell (headOf 1)).group (headCell (headOf 1)).cseq = none ∧
    (ran (.contribFrame 0 0 a [(0, headOf 1), (6, 9)]) s).get (pu 0 .GRQ) Fld.GRQ_DISCARD_FRAME_DISC = 1 := by decide +kernel
theorem test_recompute_start : let s := ctxState 60 { num := 7, st := .repair, recompNeed := some 50 }
    let e := engineOf s 0 3
    let mine := (waiting s 0).filter (fun w => engineOf s 0 w.2.1 = e)
    mine.find? (fun w => w.2 = (3, 2, 7)) = some (50, 3, 2, 7) ∧ engineBusy s 0 e = false ∧ mine.any (fun v => before v (50, 3, 2, 7)) = false ∧
    (((getCtx (ran (.recomputeStart 0 3 2 7) s) 0 3 2).bind (·.chunk 7)).map (·.recompOn)) = some (some (60, e)) := by decide +kernel
theorem test_recompute_done : let s := ctxState 260 { num := 7, st := .repair, recompNeed := some 50, recompOn := some (60, 3) }
    60 + recompBeats s 0 ((getCtx s 0 3 2).getD { core := 0 }) { num := 7 } ≤ s.beats 0 ∧ (s.rp (pu 0 .SPM)).corrupt ≠ some 2 ∧
    (s.rp (uTMB 0 3)).corrupt ≠ some 2 ∧ poisonedAt s 0 (retInputs s 0 3 2 ((getCtx s 0 3 2).getD { core := 0 }) 7) 256 = false ∧
    (((getCtx (ran (.recomputeDone 0 3 2 7) s) 0 3 2).bind (·.chunk 7)).map (·.recompOn)) = some none := by decide +kernel
theorem test_repair_delivery : let s := (ctxState 260 { num := 7, st := .repair, copies := [{ dst := .port 4, kind := 2, reason := 1, negAt := some 100 }] })
    (repairList s 0 (.port 4)).find? (fun e => e.2 = (7, 3, 2)) = some (0, 7, 3, 2) ∧
    (repairList s 0 (.port 4)).any (fun v => v.1 < 0 || (v.1 = 0 && v.2.1 < 7)) = false ∧
    mgetD ((ran (.repairDelivery 0 3 2 7 (.port 4)) s).pl 0).repairs 4 [] ≠ [] := by decide +kernel
theorem test_repair_limit : let k : Chunk := { num := 7, st := .repair, copies := [{ dst := .port 4, kind := 2, reason := 1, negAt := some 100 }] }
    let s := ctxState 1650101 k
    (getCtx s 0 3 2).bind (·.chunk 7) = some k ∧ 100 + 1650000 < s.beats 0 ∧ k.held = true ∧
    mgetD ((ran (.repairLimit 0 3 2 7 (.port 4)) s).pl 0).repairs 4 [] ≠ [] := by decide +kernel
theorem test_repair_request : (onState.pl 0).ctxs.find? (fun e => e.2.group = 5 && e.2.cseq = 9 && e.2.chunks.any (fun k => k.num = 7 && k.held)) = none ∧
    ((ran (.repairRequest 0 5 9 7 0) onState).pl 0).unitFrames.length = 1 := by decide +kernel
theorem test_cstore_written : let k : Chunk := { num := 7, st := .sending, result := [5], copies := [{ dst := .mem 1024 }] }
    let s := ctxState 60 k
    (getCtx s 0 3 2).bind (·.chunk 7) = some k ∧ k.copies.find? (fun y => y.dst = .mem (1024#48).toNat && (y.kind = 0 || y.queued)) = some { dst := .mem 1024 } ∧
    k.held = true ∧ ctxAborted s 0 ((getCtx s 0 3 2).getD { core := 0 }) = false ∧
    memByte ((ran (.cstoreWriteDone 0 3 2 7 1024) s).pl 0).mem 1024 = 5 := by decide +kernel

/-! ### Collective cores from outside -/

/-- Plane 0 with core 5 in a state. -/
def coreState (st : Nat) (c : Core) : State := (setCore 0 5 c onState).put (uCCX 0 5) Fld.CCX_STAT_STATE st

theorem test_run : accepted (coreState 0 {}) hubA (uCCX 0 5) Fld.CCX_CTRL_RUN.key (0 ||| Fld.CCX_CTRL_RUN.mask) = true ∧
    coreSt (ran (.run hubA 0 5 0) (coreState 0 {})) 0 5 = 1 := by decide +kernel
theorem test_halt : accepted (coreState 1 {}) hubA (uCCX 0 5) Fld.CCX_CTRL_HALT.key (0 ||| Fld.CCX_CTRL_HALT.mask) = true ∧
    coreSt (ran (.halt hubA 0 5 0) (coreState 1 {})) 0 5 = 0 := by decide +kernel
theorem test_save : accepted (coreState 1 {}) hubA (uCCX 0 5) Fld.CCX_CTRL_SAVE.key (0 ||| Fld.CCX_CTRL_SAVE.mask) = true ∧
    coreSt (ran (.save hubA 0 5 0) (coreState 1 {})) 0 5 = 3 := by decide +kernel
theorem test_restore : let s := { coreState 4 {} with cfg := { onState.cfg with ccVerify := false } }
    accepted s hubA (uCCX 0 5) Fld.CCX_CTRL_RESTORE.key (0 ||| Fld.CCX_CTRL_RESTORE.mask) = true ∧
    coreSt (ran (.restore hubA 0 5 0) s) 0 5 = 5 := by decide +kernel
theorem test_ls_data : let s := { coreState 0 {} with cfg := { onState.cfg with ccVerify := false } }
    accepted s hubA (uCCX 0 5) 0x05C 0x01020304 = true ∧
    (coreOf (ran (.ccxLsData hubA 0 5 0x01020304) s) 0 5).ls = [(0, 4), (1, 3), (2, 2), (3, 1)] := by decide +kernel

/-- A wait for sync object 9. -/
def waitOf (met : Option (Nat × Nat)) : CoreWait := { kind := 1, rd := 7, arg := 9, target := 3, deadline := some 40, met := met, at' := 20, cyc := 40 }

theorem test_wait_retire : let s := withFt 0 31 (coreState 2 { wait := some (waitOf (some (30, 4))) })
    (coreOf s 0 5).wait = some (waitOf (some (30, 4))) ∧ coreSt s 0 5 = 2 ∧
    cycleBeat (cyclesPerSlot s 0) (retireCycle (cyclesPerSlot s 0) (waitOf (some (30, 4))) 30) ≤ s.ft 0 ∧
    (coreOf (ran (.waitRetire 0 5) s) 0 5).reg 7 = 0x400000000#64 := by decide +kernel
theorem test_wait_timeout : let s := withFt 0 41 (coreState 2 { wait := some (waitOf none) })
    (coreOf s 0 5).wait = some (waitOf none) ∧ coreSt s 0 5 = 2 ∧ (waitOf none).deadline = some 40 ∧ 40 < s.ft 0 ∧
    (coreOf (ran (.waitTimeout 0 5) s) 0 5).reg 7 = 0x10#64 := by decide +kernel
theorem test_msg_arrive : let s := coreState 1 {}
    s.powered (uCCX 0 5) = true ∧ coreSt s 0 5 ≠ 3 ∧ coreSt s 0 5 ≠ 4 ∧ (coreOf s 0 5).inbox.length < 16 ∧
    (coreOf (ran (.msgArrive 0 5 3 2 7) s) 0 5).inbox.length = 1 := by decide +kernel
theorem test_msg_drop : let s := coreState 1 { inbox := List.replicate 16 ⟨0, 0, 0⟩ }
    s.powered (uCCX 0 5) = true ∧ 16 ≤ (coreOf s 0 5).inbox.length ∧ (ran (.msgArrive 0 5 3 2 7) s).get (uCCX 0 5) Fld.CCX_MSG_DROP = 1 := by
  decide +kernel
theorem test_watchdog : let s := withFt 0 (1650 * 0xFFFF) (coreState 1 {})
    coreSt s 0 5 = 1 ∧ (coreOf s 0 5).retired + 1650 * s.get (uCCX 0 5) Fld.CCX_CFG_WDOG ≤ s.ft 0 ∧ s.get (uCCX 0 5) Fld.BLK_ERR_CLASS = 0 ∧
    detectedNow s (uCCX 0 5) = [] ∧
    (ran (.ccWatchdog 0 5) s).get (uCCX 0 5) Fld.CCX_STAT_HCAUSE = 3 := by decide +kernel
theorem test_save_done : let s := coreState 3 {}
    coreSt s 0 5 = 3 ∧ (coreOf s 0 5).xfers = [] ∧ (coreOf s 0 5).ops = [] ∧ feedsOf s 0 5 = 0 := by decide +kernel
theorem test_restore_bad : let s := coreState 5 { wasSaved := true }
    coreSt s 0 5 = 5 ∧ memArmed s 0 = false ∧ imageOk 0 (memRead s 0 (saveAddr s 0 5) imageBytes) = false ∧
    coreSt (ran (.ccRestoreDone 0 5) s) 0 5 = 4 := by decide +kernel
theorem test_xfer_complete : let x : Xfer := { kind := 2, src := 0, dst := baseS, len := 128 }
    let s := (coreState 1 { xfers := [x] }).modPl 0 (fun y => { y with mem := [(3, 9)] })
    (coreOf s 0 5).ops = [] ∧ (coreOf s 0 5).xfers = [x] ∧ poisonedAt s 0 x.src x.len = false ∧ memArmed s 0 = false ∧
    memByte ((ran (.xferComplete 0 5) s).pl 0).mem (baseS + 3) = 9 := by decide +kernel

/-! ### Sync objects and groups -/

theorem test_syn_obj : accepted onState hubA (pu 0 .SYN) (4096 * (4095 / 256) + 0x400 + 4 * (4095 % 256)) 7 = true ∧ syncLog onState 0 = [] ∧
    syncVal (ran (.synObj hubA 0 4095 7) onState) 0 4095 = 7 := by decide +kernel
theorem test_syn_add : let s := onState.modPl 0 (fun x => { x with syncs := [(300, 0xFFFFFFFF)] })
    accepted s hubA (pu 0 .SYN) (4096 * (300 / 256) + 0x800 + 4 * (300 % 256)) 3 = true ∧ syncLog s 0 = [] ∧ syncVal (ran (.synAdd hubA 0 300 3) s) 0 300 = 2 := by
  decide +kernel

/-- Plane 0 with a record of group 600, a power of two from it on the staging copy. -/
def grpState (x : Group) : State :=
  (onState.put (pu 0 .GRQ) Fld.GRQ_SEL_GROUP 600).modPl 0 (fun y => { y with groups := [(600, x)] })

theorem test_grq_db : let s := grpState { en := true }
    accepted s hubA (pu 0 .GRQ) (4096 * (1 + 600 / 256) + 0x400 + 4 * (600 % 256)) 5 = true ∧ (grp (ran (.grqDb hubA 0 600 5) s) 0 600).prod = 5 := by
  decide +kernel
theorem test_group : let s := grpState { en := true, qbase := 256 }
    accepted s hubA (pu 0 .GRQ) Fld.GRQ_SEL_GROUP.key 600 = true ∧ fieldGet 600 Fld.GRQ_SEL_GROUP = 600 ∧
    (ran (.group hubA 0 600) s).get (pu 0 .GRQ) Fld.GRQ_G_QBASE = 256 := by decide +kernel
theorem test_commit : let s := (grpState {}).put (pu 0 .GRQ) Fld.GRQ_G_CFG_EN 1
    accepted s hubA (pu 0 .GRQ) Fld.GRQ_G_CTL_COMMIT.key (0 ||| Fld.GRQ_G_CTL_COMMIT.mask) = true ∧
    (let x := grp s 0 (selGroup s 0)
     x.core = (stagedGrp s 0 x).core ∨ (0#32).getLsbD 1 = true ∨ x.dseq = x.cons) ∧
    { grp s 0 (selGroup s 0) with core := (stagedGrp s 0 (grp s 0 (selGroup s 0))).core } ≠ stagedGrp s 0 (grp s 0 (selGroup s 0)) ∧
    (grp (ran (.commit hubA 0 0) s) 0 600).gen = 1 := by decide +kernel
theorem test_ccons : let s := grpState { cprod := 4 }
    accepted s hubA (pu 0 .GRQ) Fld.GRQ_G_CPTR_CCONS.key 0x30000 = true ∧ (grp (ran (.ccons hubA 0 0x30000) s) 0 600).ccons = 3 := by decide +kernel

/-- A group control frame of group 600, CSEQ 0, member 0. -/
def ctlFrame (ty digest : Nat) : Payload := ctlPayload [] ty 0 600 0 0 digest

theorem test_launch : let s := grpState { en := true, launch := true, qent := 4 }
    ctlOk (ctlFrame 0x10 0) = true ∧ ctlType (ctlFrame 0x10 0) = 0x10 ∧ ctlGroup (ctlFrame 0x10 0) = 600 ∧ isMember s 0 600 0 = true ∧
    idxDist (grp s 0 600).cons (grp s 0 600).prod < (grp s 0 600).qent ∧
    (grp (ran (.launch 0 0 (ctlFrame 0x10 0)) s) 0 600).prod = 1 := by decide +kernel
theorem test_launch_refused : let s := grpState {}
    (grp s 0 (ctlGroup (ctlFrame 0x10 0))).en = false ∧
    (ran (.launch 0 0 (ctlFrame 0x10 0)) s).get (pu 0 .GRQ) Fld.GRQ_DISCARD_LAUNCH_REF = 1 := by decide +kernel
theorem test_group_discard : ctlOk 0 = false ∧ (ran (.barrierArrive 0 0) onState).get (pu 0 .GRQ) Fld.GRQ_DISCARD_FRAME_DISC = 1 := by decide +kernel

/-- A popped barrier descriptor. -/
def barrierDesc : List Byte := 8 :: List.replicate 127 0

theorem test_barrier : let s := grpState { en := true, popped := [(0, barrierDesc)] }
    let d := ctlFrame 0x15 (descDigest barrierDesc)
    ctlOk d = true ∧ ctlType d = 0x15 ∧ poppedDesc s 0 (ctlGroup d) (ctlCseq d) = some barrierDesc ∧ unkeyedBarrier barrierDesc = true ∧
    (member s 0 (ctlGroup d) (ctlMidx d)).map entKind = some 0 ∧ (grp s 0 (ctlGroup d)).arrivals.contains (ctlCseq d, ctlMidx d) = false ∧
    ctlDigest d = descDigest barrierDesc ∧ (grp (ran (.barrierArrive 0 d) s) 0 600).arrivals = [(0, 0)] := by decide +kernel
theorem test_barrier_again : let s := grpState { en := true, popped := [(0, barrierDesc)], arrivals := [(0, 0)] }
    let d := ctlFrame 0x15 (descDigest barrierDesc)
    ctlOk d = true ∧ (grp s 0 (ctlGroup d)).arrivals.contains (ctlCseq d, ctlMidx d) = true ∧
    (grp (ran (.barrierArrive 0 d) s) 0 600).arrivals = [(0, 0)] := by decide +kernel
theorem test_mismatch : let s := grpState { en := true, popped := [(0, barrierDesc)] }
    let d := ctlFrame 0x14 5
    ctlOk d = true ∧ ctlType d = 0x14 ∧ (poppedDesc s 0 (ctlGroup d) (ctlCseq d)).isSome = true ∧
    (getColl s 0 (ctlGroup d) (ctlCseq d)).aborted = none ∧ (s.pl 0).ctxs = [] ∧ (getColl (ran (.mismatchReport 0 d) s) 0 600 0).aborted = some (0, 5) := by decide +kernel
theorem test_abandoned : let s := grpState { abandoned := [(0, barrierDesc)] }
    compFull (grp s 0 600) = false ∧ (grp s 0 600).launch = false ∧ (grp (ran (.abandonedPost 0 600) s) 0 600).dseq = 1 := by decide +kernel
theorem test_collective_tmo : let s := (grpState { popped := [(9, barrierDesc)] }).modPl 0 (fun x => { x with
      ftm := { x.ftm with ft := 1 }, ctxs := [(ctxKey 3 2, { core := 1, group := 600, cseq := 9, feed := true, chunks := [{ num := 0 }] })] })
    poppedDesc s 0 600 9 = some barrierDesc ∧ ofBytes (sliceB barrierDesc 0x68 8) ≠ 2 ^ 64 - 1 ∧
    ofBytes (sliceB barrierDesc 0x78 8) + ofBytes (sliceB barrierDesc 0x68 8) < s.ft 0 ∧ bit (ofBytes (sliceB barrierDesc 1 1)) 0 = false ∧
    (((getCtx (ran (.collectiveTmo 0 600 9) s) 0 3 2).bind (·.filling)).map (·.closeReq)) = some true := by decide +kernel
theorem test_collective_tmo_key : let d : List Byte := 1 :: 1 :: List.replicate 126 0
    let s := (keyState 4 4 0 1).modPl 0 (fun x => { x with groups := [(600, { popped := [(9, d)] })] })
    poppedDesc s 0 600 9 = some d ∧ bit (ofBytes (sliceB d 1 1)) 0 = true ∧ bankIn s 0 4 = some 0 ∧
    (bankOfKey s 0 0).keyId = ofBytes (sliceB d 0x48 8) ∧ (bankOfKey (ran (.collectiveTmo 0 600 9) s) 0 0).stop = some 1 := by decide +kernel

/-- The listed bytes of a save image whose body is FF FF FF FF and then zeros: its CRC-32C is FFFFFFFF. -/
def imageMem : List Host.Cell :=
  [(0, 0x4B), (1, 0x5A), (2, 0x43), (3, 0x58), (4, 1), (6, 5), (0x1C, 0xFF), (0x1D, 0xFF), (0x1E, 0xFF), (0x1F, 0xFF), (0x40, 0xFF),
    (0x41, 0xFF), (0x42, 0xFF), (0x43, 0xFF)]

/-- Core 5 of plane 0 RESTORING from such an image. -/
def imageState : State := (coreState 5 {}).modPl 0 (fun y => { y with mem := imageMem })

theorem image_byte (i : Nat) : memByte imageMem (0x44 + i) = 0 := by
  simp only [memByte, mgetD, imageMem, mget]
  repeat rw [if_neg (by omega)]
  rfl
theorem image_split (k : Nat) : memBytes imageMem 0 (0x44 + k) = memBytes imageMem 0 0x44 ++ List.replicate k 0 := by
  simp only [memBytes, List.range_add, List.map_append, List.map_map]
  congr 1
  apply List.ext_getElem
  · simp
  · intro i h1 h2
    simpa using image_byte i
theorem sliceB_append (a b : List Byte) (o n : Nat) (h : o + n ≤ a.length) : sliceB (a ++ b) o n = sliceB a o n := by
  have : ((a ++ b).drop o).take n = (a.drop o).take n := by
    rw [List.drop_append_of_le_length (by omega), List.take_append_of_le_length (by simp; omega)]
  simp [sliceB, this]
theorem crc_zeros (k : Nat) : (List.replicate k (0 : Byte)).foldl (fun c b => crc32Bits 0x82F63B78 8 (c ^^^ b.toNat)) 0 = 0 := by
  induction k with
  | zero => rfl
  | succ k ih => rw [List.replicate_succ, List.foldl_cons]; exact ih
theorem test_restore_good : coreSt imageState 0 5 = 5 ∧ memArmed imageState 0 = false ∧ imageOk 0 (memRead imageState 0 (saveAddr imageState 0 5) imageBytes) = true ∧
    poisonedAt imageState 0 (saveAddr imageState 0 5) imageBytes = false := by
  refine ⟨by decide +kernel, by decide +kernel, ?_, by decide +kernel⟩
  have h : memRead imageState 0 (saveAddr imageState 0 5) imageBytes = memBytes imageMem 0 0x44 ++ List.replicate 274364 0 :=
    (congrArg (fun a => memBytes imageMem a imageBytes) (by decide +kernel : saveAddr imageState 0 5 = 0)).trans (image_split 274364)
  have c : crc32c ((memBytes imageMem 0 0x44 ++ List.replicate 274364 0).drop 0x40) = 0xFFFFFFFF := by
    rw [List.drop_append_of_le_length (by decide), crc32c, crcReflected, List.foldl_append]
    have : ((memBytes imageMem 0 0x44).drop 0x40).foldl (fun c b => crc32Bits 0x82F63B78 8 (c ^^^ b.toNat)) 0xFFFFFFFF = 0 := by decide +kernel
    rw [this, crc_zeros]; rfl
  have g (o n : Nat) (w : o + n ≤ 0x44) : img (memBytes imageMem 0 0x44 ++ List.replicate 274364 0) o n = img (memBytes imageMem 0 0x44) o n :=
    congrArg ofBytes (sliceB_append _ _ o n (by simpa [memBytes] using w))
  rw [h]
  simp only [imageOk, c, g 0 4 (by decide), g 4 2 (by decide), g 6 1 (by decide), g 0x1C 4 (by decide)]
  decide +kernel

/-! ### Instructions of a collective core -/

/-- Core 5 of plane 0 RUNNING at pc 0 on one instruction word, with x1 and x2, a word at 0x80 and mtvec. -/
def runState (w a b : Nat) (tvec : Dword) : State :=
  coreState 1 { ls := memPuts (memPuts [] 0x80 [0x11, 0x22, 0x33, 0xF4]) 0 (bytesOf 4 w), x := [(1, BitVec.ofNat 64 a), (2, BitVec.ofNat 64 b)]
                w := [(1, BitVec.ofNat 1024 0x3FFFF), (2, BitVec.ofNat 1024 0x10001)], csr := [(0x300, 8), (0x305, tvec)] }

/-- The core after its instruction. -/
def after (i : Instr) (s : State) : Core := coreOf (ran i s) 0 5

/-- An R-type word: rd 3, rs1 1, rs2 2. -/
def rWord (op f3 f7 : Nat) : Nat := op + 2 ^ 7 * 3 + 2 ^ 12 * f3 + 2 ^ 15 * 1 + 2 ^ 20 * 2 + 2 ^ 25 * f7
/-- An I-type word: rd 3, rs1 1. -/
def iWord (op f3 imm : Nat) : Nat := op + 2 ^ 7 * 3 + 2 ^ 12 * f3 + 2 ^ 15 * 1 + 2 ^ 20 * imm

theorem test_lui : canIssue (runState 0x800001B7 5 7 0) 0 5 .scalar = true ∧ insOp (wordAt (runState 0x800001B7 5 7 0) 0 5) = 0x37 ∧
    (after (.scalarInstruction 0 5) (runState 0x800001B7 5 7 0)).reg 3 = 0xFFFFFFFF80000000#64 := by decide +kernel
theorem test_auipc : canIssue (runState 0x00001197 5 7 0) 0 5 .scalar = true ∧ insOp (wordAt (runState 0x00001197 5 7 0) 0 5) = 0x17 ∧
    (after (.scalarInstruction 0 5) (runState 0x00001197 5 7 0)).reg 3 = 0x1000#64 := by decide +kernel
theorem test_addi : let s := runState (iWord 0x13 0 0xFFF) 5 7 0
    canIssue s 0 5 .scalar = true ∧ insOp (wordAt s 0 5) = 0x13 ∧ insF3 (wordAt s 0 5) ≠ 1 ∧ insF3 (wordAt s 0 5) ≠ 5 ∧
    (after (.scalarInstruction 0 5) s).reg 3 = 4#64 ∧ (after (.scalarInstruction 0 5) s).pc = 4#64 := by decide +kernel
theorem test_srai : let s := runState (iWord 0x13 5 0x404) 0xFFFFFFFFFFFFFF00 7 0
    canIssue s 0 5 .scalar = true ∧ insF3 (wordAt s 0 5) = 5 ∧ bits (wordAt s 0 5).toNat 31 26 = 0x10 ∧
    (after (.scalarInstruction 0 5) s).reg 3 = 0xFFFFFFFFFFFFFFF0#64 := by decide +kernel
theorem test_add : let s := runState (rWord 0x33 0 0) 5 7 0
    canIssue s 0 5 .scalar = true ∧ insOp (wordAt s 0 5) = 0x33 ∧ insF7 (wordAt s 0 5) = 0 ∧ (after (.scalarInstruction 0 5) s).reg 3 = 12#64 := by
  decide +kernel
theorem test_sub : let s := runState (rWord 0x33 0 0x20) 5 7 0
    canIssue s 0 5 .scalar = true ∧ insF7 (wordAt s 0 5) = 0x20 ∧ insF3 (wordAt s 0 5) = 0 ∧
    (after (.scalarInstruction 0 5) s).reg 3 = 0xFFFFFFFFFFFFFFFE#64 := by decide +kernel
theorem test_mul : let s := runState (rWord 0x33 0 1) 5 7 0
    canIssue s 0 5 .scalar = true ∧ insF7 (wordAt s 0 5) = 1 ∧ insF3 (wordAt s 0 5) = 0 ∧ (after (.scalarInstruction 0 5) s).reg 3 = 35#64 := by
  decide +kernel
theorem test_div_zero : let s := runState (rWord 0x33 4 1) 5 0 0
    canIssue s 0 5 .scalar = true ∧ rs2Of s 0 5 = 0 ∧ insF3 (wordAt s 0 5) = 4 ∧
    (after (.scalarInstruction 0 5) s).reg 3 = 0xFFFFFFFFFFFFFFFF#64 := by decide +kernel
theorem test_addw : let s := runState (rWord 0x3B 0 0) 0x7FFFFFFF 1 0
    canIssue s 0 5 .scalar = true ∧ insOp (wordAt s 0 5) = 0x3B ∧ (after (.scalarInstruction 0 5) s).reg 3 = 0xFFFFFFFF80000000#64 := by
  decide +kernel
theorem test_slli_srl : let s := runState (iWord 0x13 1 4) 5 7 0
    canIssue s 0 5 .scalar = true ∧ insOp (wordAt s 0 5) = 0x13 ∧ insF3 (wordAt s 0 5) = 1 ∧ bits (wordAt s 0 5).toNat 31 26 = 0 ∧
    (after (.scalarInstruction 0 5) s).reg 3 = 80#64 := by decide +kernel
theorem test_addiw : let s := runState (iWord 0x1B 0 1) 0x7FFFFFFF 7 0
    canIssue s 0 5 .scalar = true ∧ insOp (wordAt s 0 5) = 0x1B ∧ insF3 (wordAt s 0 5) = 0 ∧
    (after (.scalarInstruction 0 5) s).reg 3 = 0xFFFFFFFF80000000#64 := by decide +kernel
theorem test_sraiw : let s := runState (iWord 0x1B 5 0x404) 0x80000000 7 0
    canIssue s 0 5 .scalar = true ∧ insOp (wordAt s 0 5) = 0x1B ∧ insF3 (wordAt s 0 5) = 5 ∧ insF7 (wordAt s 0 5) = 0x20 ∧
    (after (.scalarInstruction 0 5) s).reg 3 = 0xFFFFFFFFF8000000#64 := by decide +kernel
theorem test_subw : let s := runState (rWord 0x3B 0 0x20) 5 7 0
    canIssue s 0 5 .scalar = true ∧ insOp (wordAt s 0 5) = 0x3B ∧ insF7 (wordAt s 0 5) = 0x20 ∧ insF3 (wordAt s 0 5) = 0 ∧
    (after (.scalarInstruction 0 5) s).reg 3 = 0xFFFFFFFFFFFFFFFE#64 := by decide +kernel
theorem test_mulw : let s := runState (rWord 0x3B 0 1) 0x10000 0x8000 0
    canIssue s 0 5 .scalar = true ∧ insOp (wordAt s 0 5) = 0x3B ∧ insF7 (wordAt s 0 5) = 1 ∧ insF3 (wordAt s 0 5) = 0 ∧
    (after (.scalarInstruction 0 5) s).reg 3 = 0xFFFFFFFF80000000#64 := by decide +kernel
theorem test_sra : let s := runState (rWord 0x33 5 0x20) 0xFFFFFFFFFFFFFF00 4 0
    canIssue s 0 5 .scalar = true ∧ insOp (wordAt s 0 5) = 0x33 ∧ insF7 (wordAt s 0 5) = 0x20 ∧ insF3 (wordAt s 0 5) = 5 ∧
    (after (.scalarInstruction 0 5) s).reg 3 = 0xFFFFFFFFFFFFFFF0#64 := by decide +kernel
theorem test_fence_wfi : let s := runState 0x0000000F 5 7 0
    canIssue s 0 5 .scalar = true ∧ insOp (wordAt s 0 5) = 0x0F ∧ insF3 (wordAt s 0 5) = 0 ∧ (after (.scalarInstruction 0 5) s).pc = 4#64 ∧
    canIssue (runState 0x10500073 5 7 0) 0 5 .scalar = true ∧ (after (.scalarInstruction 0 5) (runState 0x10500073 5 7 0)).pc = 4#64 := by
  decide +kernel
theorem test_ebreak : let s := runState 0x00100073 5 7 0x40
    canIssue s 0 5 .scalar = true ∧ wordAt s 0 5 = 0x00100073#32 ∧ mgetD (coreOf (atIssue s 0 5) 0 5).csr 0x305 0 ≠ 0 ∧
    mgetD (after (.scalarInstruction 0 5) s).csr 0x342 0 = 3#64 := by decide +kernel
theorem test_jal_misaligned : let s := runState (0x6F + 2 ^ 7 * 3 + 2 ^ 21) 5 7 0x40
    canIssue s 0 5 .scalar = true ∧ insOp (wordAt s 0 5) = 0x6F ∧ ((coreOf s 0 5).pc + immJ (wordAt s 0 5)).toNat % 4 ≠ 0 ∧
    mgetD (coreOf (atIssue s 0 5) 0 5).csr 0x305 0 ≠ 0 ∧ (after (.scalarInstruction 0 5) s).pc = 0x40#64 := by decide +kernel
theorem test_window_load : let s := runState (iWord 0x03 2 0) 0x40010000 7 0
    canIssue s 0 5 .scalar = true ∧ insOp (wordAt s 0 5) = 0x03 ∧ insF3 (wordAt s 0 5) = 2 ∧
    (rs1Of s 0 5 + immI (wordAt s 0 5)).toNat = 0x40010000 ∧ locate (winBar0 0 0x40010000) = some (pu 0 .FTM, 0) ∧
    (after (.scalarInstruction 0 5) s).reg 3 = (readBar0 s 0x1010000).setWidth 64 := by decide +kernel
theorem test_window_store_rejected : let s := runState (0x23 + 2 ^ 12 * 2 + 2 ^ 15 + 2 ^ 20 * 2) 0x40010000 7 0
    canIssue s 0 5 .scalar = true ∧ insOp (wordAt s 0 5) = 0x23 ∧ insF3 (wordAt s 0 5) = 2 ∧
    (rs1Of s 0 5 + immS (wordAt s 0 5)).toNat = 0x40010000 ∧ locate (winBar0 0 0x40010000) = some (pu 0 .FTM, 0) ∧
    winMay (atIssue s 0 5) 0 5 (pu 0 .FTM) = false ∧
    (ran (.scalarInstruction 0 5) s).get (uCCX 0 5) Fld.BLK_STAT_REJ_CODE = 9 := by decide +kernel
theorem test_branch : let s := runState (0x63 + 2 ^ 8 * 4 + 2 ^ 12 * 1 + 2 ^ 15 + 2 ^ 21) 5 7 0
    canIssue s 0 5 .scalar = true ∧ insOp (wordAt s 0 5) = 0x63 ∧ brTaken (insF3 (wordAt s 0 5)) (rs1Of s 0 5) (rs2Of s 0 5) = true ∧
    ((coreOf s 0 5).pc + immB (wordAt s 0 5)).toNat % 4 = 0 ∧ (after (.scalarInstruction 0 5) s).pc = 8#64 := by decide +kernel
theorem test_branch_not_taken : let s := runState (0x63 + 2 ^ 8 * 4 + 2 ^ 15 + 2 ^ 21) 5 7 0
    canIssue s 0 5 .scalar = true ∧ brTaken (insF3 (wordAt s 0 5)) (rs1Of s 0 5) (rs2Of s 0 5) = false ∧
    (after (.scalarInstruction 0 5) s).pc = 4#64 := by decide +kernel
theorem test_jal : let s := runState (0x6F + 2 ^ 7 * 3 + 2 ^ 23 * 4) 5 7 0
    canIssue s 0 5 .scalar = true ∧ ((coreOf s 0 5).pc + immJ (wordAt s 0 5)).toNat % 4 = 0 ∧
    (after (.scalarInstruction 0 5) s).pc = 32#64 ∧ (after (.scalarInstruction 0 5) s).reg 3 = 4#64 := by decide +kernel
theorem test_jalr : let s := runState (iWord 0x67 0 4) 5 7 0
    canIssue s 0 5 .scalar = true ∧ insF3 (wordAt s 0 5) = 0 ∧ ((rs1Of s 0 5 + immI (wordAt s 0 5)) &&& ~~~1#64).toNat % 4 = 0 ∧
    (after (.scalarInstruction 0 5) s).pc = 8#64 := by decide +kernel
theorem test_store : let s := runState (0x23 + 2 ^ 7 * 3 + 2 ^ 12 * 1 + 2 ^ 15 + 2 ^ 21) 0x101 0xABCD 0
    canIssue s 0 5 .scalar = true ∧ insF3 (wordAt s 0 5) < 4 ∧ (rs1Of s 0 5 + immS (wordAt s 0 5)).toNat = 0x104 ∧ 0x104 % 2 ^ insF3 (wordAt s 0 5) = 0 ∧
    memByte (after (.scalarInstruction 0 5) s).ls 0x104 = 0xCD := by decide +kernel
theorem test_ld : let s := runState (iWord 0x03 2 0) 0x80 7 0
    canIssue s 0 5 .scalar = true ∧ insF3 (wordAt s 0 5) ≠ 7 ∧ (rs1Of s 0 5 + immI (wordAt s 0 5)).toNat = 0x80 ∧
    (after (.scalarInstruction 0 5) s).reg 3 = 0xFFFFFFFFF4332211#64 := by decide +kernel
theorem test_ecall : let s := runState 0x73 5 7 0x40
    canIssue s 0 5 .scalar = true ∧ wordAt s 0 5 = 0x73#32 ∧ mgetD (coreOf (atIssue s 0 5) 0 5).csr 0x305 0 ≠ 0 ∧
    (after (.scalarInstruction 0 5) s).pc = 0x40#64 ∧ mgetD (after (.scalarInstruction 0 5) s).csr 0x342 0 = 11#64 ∧
    mgetD (after (.scalarInstruction 0 5) s).csr 0x300 0 = 0x80#64 := by decide +kernel
theorem test_ecall_halts : let s := runState 0x73 5 7 0
    canIssue s 0 5 .scalar = true ∧ mgetD (coreOf (atIssue s 0 5) 0 5).csr 0x305 0 = 0 ∧
    coreSt (ran (.scalarInstruction 0 5) s) 0 5 = 0 := by decide +kernel
theorem test_mret : let s := runState 0x30200073 5 7 0
    canIssue s 0 5 .scalar = true ∧ wordAt s 0 5 = 0x30200073#32 ∧ mgetD (after (.scalarInstruction 0 5) s).csr 0x300 0 = 0x80#64 := by
  decide +kernel
theorem test_illegal : let s := runState 0 5 7 0x40
    canIssue s 0 5 .scalar = true ∧ insOp (wordAt s 0 5) = 0 ∧ mgetD (after (.scalarInstruction 0 5) s).csr 0x342 0 = 2#64 := by decide +kernel
theorem test_csrrw : let s := runState (iWord 0x73 1 0x340) 5 7 0
    canIssue s 0 5 .csr = true ∧ insF3 (wordAt s 0 5) = 1 ∧ insCsr (wordAt s 0 5) = 0x340 ∧
    mgetD (after (.csrInstruction 0 5) s).csr 0x340 0 = 5#64 := by decide +kernel
theorem test_csr_mask : let s := runState (iWord 0x73 1 0x7C1) 7 7 0
    canIssue s 0 5 .csr = true ∧ insCsr (wordAt s 0 5) = 0x7C1 ∧ mgetD (after (.csrInstruction 0 5) s).csr 0x7C1 0 = 1#64 := by decide +kernel
theorem test_csr_read : let s := runState (0x73 + 2 ^ 7 * 3 + 2 ^ 12 * 2 + 2 ^ 20 * 0xF14) 5 7 0
    canIssue s 0 5 .csr = true ∧ insF3 (wordAt s 0 5) = 2 ∧ insRs1 (wordAt s 0 5) = 0 ∧
    csrRead (atIssue s 0 5) 0 5 (insCsr (wordAt s 0 5)) (issueCyc s 0 5) = some 5 ∧ (after (.csrInstruction 0 5) s).reg 3 = 5#64 := by decide +kernel
theorem test_pmu_irq : let s := coreState 1 { csr := [(0x300, 8), (0x304, 0x2000), (0x305, 0x40), (0x344, 0x2000)] }
    coreSt s 0 5 = 1 ∧ irqReady (coreOf s 0 5) = true ∧ mgetD (coreOf s 0 5).csr 0x305 0 ≠ 0 ∧
    cycleBeat (cyclesPerSlot s 0) ((coreOf s 0 5).irqAt.elim (coreOf s 0 5).ready (fun l => max (coreOf s 0 5).ready (l + 1))) ≤ s.ft 0 ∧
    (after (.pmuInterruptTaken 0 5) s).pc = 0x40#64 := by decide +kernel
/-- A vector word of custom-0 can issue. -/
def vecReady (f3 f7 : Nat) (row : CoreRow) : Bool := canIssue (runState (rWord 0x0B f3 f7) 5 7 0) 0 5 row
theorem test_vector_rows : vecReady 4 0 .vaddF && vecReady 4 1 .vsubF && vecReady 4 2 .vmulF && vecReady 4 4 .vmaxF && vecReady 4 5 .vminF &&
    vecReady 5 0 .vaddI32 && vecReady 5 1 .vaddI16 && vecReady 5 2 .vaddI8 && vecReady 5 8 .vand && vecReady 5 9 .vor && vecReady 5 10 .vxor &&
    vecReady 4 3 .vfmaF && vecReady 6 0 .vsplat && vecReady 6 1 .vext && vecReady 7 0 .vcvtTo && vecReady 7 0x40 .vcvtFrom = true := by decide +kernel
theorem test_vadd_i16 : (after (.vaddI16 0 5) (runState (rWord 0x0B 5 1) 5 7 0)).vreg 3 = 0x40000#1024 := by decide +kernel
theorem test_vadd_i32 : (after (.vaddI32 0 5) (runState (rWord 0x0B 5 0) 5 7 0)).vreg 3 = 0x50000#1024 := by decide +kernel
theorem test_vext : (after (.vext 0 5) (runState (rWord 0x0B 6 1) 5 16 0)).reg 3 = 0x3FFFF#64 := by decide +kernel
theorem test_vadd_lanes : lane 8 (vaddLanes 8 0x01FF 0x0101) 0 = 0 ∧ lane 8 (vaddLanes 8 0x01FF 0x0101) 1 = 2 := by decide +kernel
theorem test_vld : let s := runState (iWord 0x0B 0 0) 0x80 7 0
    canIssue s 0 5 .vld = true ∧ (rs1Of s 0 5 + immI (wordAt s 0 5)).toNat % 128 = 0 ∧ (rs1Of s 0 5 + immI (wordAt s 0 5)).toNat + 128 ≤ 0x40000 ∧
    (after (.vld 0 5) s).vreg 3 = 0xF4332211#1024 := by decide +kernel
theorem test_vst : let s := runState (rWord 0x0B 1 0) 0x7D 7 0
    canIssue s 0 5 .vst = true ∧ (rs1Of s 0 5 + immS (wordAt s 0 5)).toNat = 0x80 ∧ memByte (after (.vst 0 5) s).ls 0x82 = 1 := by decide +kernel
theorem test_vld_traps : let s := runState (iWord 0x0B 0 0) 0x81 7 0x40
    canIssue s 0 5 .vld = true ∧ (rs1Of s 0 5 + immI (wordAt s 0 5)).toNat % 128 ≠ 0 ∧ mgetD (after (.vld 0 5) s).csr 0x342 0 = 4#64 := by decide +kernel

/-- An address in open staging, which cores reach. -/
def stageAt : Nat := baseS + (partRange onState 0 .open_).1

theorem test_spld : let s := runState (rWord 0x0B 2 0) stageAt 7 0
    canIssue s 0 5 .spld = true ∧ spOk (atIssue s 0 5) 0 (rs1Of s 0 5).toNat = true ∧ poisonedAt (atIssue s 0 5) 0 (rs1Of s 0 5).toNat 128 = false ∧
    memArmed (atIssue s 0 5) 0 = false ∧ (after (.spld 0 5) s).ops.length = 1 := by decide +kernel
theorem test_spst : let s := runState (rWord 0x0B 3 0) stageAt 7 0
    canIssue s 0 5 .spst = true ∧ spOk (atIssue s 0 5) 0 (rs1Of s 0 5).toNat = true ∧ (after (.spst 0 5) s).ops.length = 1 := by decide +kernel

/-- That core with a block of bytes in its local store. -/
def blockState (w a b at' : Nat) (l : List Byte) : State :=
  modCore 0 5 (fun c => { c with ls := memPuts c.ls at' l }) (runState w a b 0)

theorem test_xfer : let s := blockState (rWord 0x2B 0 0) 0x100 7 0x100 (bytesOf 8 0 ++ bytesOf 8 stageAt ++ bytesOf 4 128)
    canIssue s 0 5 .xfer = true ∧ lsArg (rs1Of s 0 5).toNat 32 = true ∧
    xferCode (atIssue s 0 5) 0 5 (lsRead (atIssue s 0 5) 0 5 0x100 32) (xferOf (lsRead (atIssue s 0 5) 0 5 0x100 32) (issueCyc s 0 5)) = sOk ∧
    (after (.xfer 0 5) s).xfers.length = 1 ∧ (after (.xfer 0 5) s).reg 3 = 0 := by decide +kernel

/-- A binding block: FP32, feed, 16 cells, D 1, slice 3, context 2, M 1, both scales 1. -/
def bindBlock : List Byte :=
  [0, 0x20] ++ bytesOf 2 16 ++ [3, 2, 1, 0] ++ bytesOf 2 5 ++ bytesOf 2 9 ++ bytesOf 2 1 ++ [0, 0] ++ bytesOf 4 0x3F800000 ++ bytesOf 4 0x3F800000

theorem test_cbind : let s := blockState (rWord 0x2B 2 0) 0x100 7 0x100 bindBlock
    let b := lsRead (atIssue s 0 5) 0 5 0x100 128
    canIssue s 0 5 .cbind = true ∧ lsArg (rs1Of s 0 5).toNat 128 = true ∧ (ctxOf b 5 []).feed = true ∧ bindCode (atIssue s 0 5) 0 b (ctxOf b 5 []) = sOk ∧
    (after (.cbind 0 5) s).reg 3 = (3 + 32 * 2) * 2 ^ 32 ∧ (getCtx (ran (.cbind 0 5) s) 0 3 2).isSome = true := by decide +kernel

/-- That core with a context of its own at position 3, context 2, and a chunk 7 in it; x1 names the chunk. -/
def chunkState (w b : Nat) (k : Chunk) : State :=
  (runState w (3 + 32 * 2 + 2 ^ 32 * 7) b 0).modPl 0 (fun x => { x with
    ctxs := [(ctxKey 3 2, { core := 5, chunkCells := 1, group := 5, cseq := 9, feed := true, chunks := [k] })] })

/-- The context of that handle. -/
def mine (s : State) : Ctx := ((mineCtx (atIssue s 0 5) 0 5 (rs1Of s 0 5)).map (·.2.2)).getD { core := 0 }

theorem test_cbind_keyed : let s := blockState (rWord 0x2B 2 0) 0x100 7 0x100 ([0, 0] ++ bindBlock.drop 2 ++ List.replicate 16 0 ++ bytesOf 8 0x400)
    let b := lsRead (atIssue s 0 5) 0 5 0x100 128
    canIssue s 0 5 .cbind = true ∧ (ctxOf b 5 []).feed = false ∧ lsArg (ofBytes (sliceB b 40 8)) 256 = true ∧
    bindCode (atIssue s 0 5) 0 b (ctxOf b 5 (laneMap (lsRead (atIssue s 0 5) 0 5 (ofBytes (sliceB b 40 8)) 256))) = sOk := by decide +kernel
theorem test_cunbind : let s := chunkState (rWord 0x2B 2 1) 0 { num := 7, st := .released }
    canIssue s 0 5 .cunbind = true ∧ (mineCtx (atIssue s 0 5) 0 5 (rs1Of s 0 5)).isSome = true ∧
    (mine s).chunks.all (fun k => k.st = .released) = true ∧ getCtx (ran (.cunbind 0 5) s) 0 3 2 = none := by decide +kernel
theorem test_cclose : let s := chunkState (rWord 0x2B 4 0) 0 { num := 7 }
    canIssue s 0 5 .cclose = true ∧ (mine s).feed = true ∧ (mine s).filling = some { num := 7 } ∧
    (((getCtx (ran (.cclose 0 5) s) 0 3 2).bind (·.chunk 7)).map (·.closeReq)) = some true := by decide +kernel
theorem test_csend : let s := chunkState (rWord 0x2B 5 0) 77 { num := 7 }
    canIssue s 0 5 .csend = true ∧ heldChunk (mine s) (rs1Of s 0 5) = some { num := 7 } ∧ ({ num := 7 } : Chunk).held = false ∧
    (((getCtx (ran (.csend 0 5) s) 0 3 2).bind (·.chunk 7)).map (fun k => k.copies.map (·.dst))) = some [.endpoint 77] := by decide +kernel
theorem test_cstore : let s := chunkState (rWord 0x2B 5 1) 0x1000 { num := 7 }
    canIssue s 0 5 .cstore = true ∧ heldChunk (mine s) (rs1Of s 0 5) = some { num := 7 } ∧ keyHoldsRegion (atIssue s 0 5) 0 (rs2Of s 0 5).toNat = false ∧
    (rs2Of s 0 5).toNat % 256 = 0 ∧ sideOk (atIssue s 0 5) 0 2 (rs2Of s 0 5).toNat (256 * (mine s).resCells) = true ∧
    (((getCtx (ran (.cstore 0 5) s) 0 3 2).bind (·.chunk 7)).map (fun k => k.copies.length)) = some 1 := by decide +kernel
theorem test_crelease : let k : Chunk := { num := 7, st := .sealed, result := [1], copies := [{ dst := .port 4, kind := 1 }] }
    let s := chunkState (rWord 0x2B 6 0) 0 k
    canIssue s 0 5 .crelease = true ∧ heldChunk (mine s) (rs1Of s 0 5) = some k ∧ k.copies.all (fun y => y.kind = 1 && !y.queued) = true ∧
    (((getCtx (ran (.crelease 0 5) s) 0 3 2).bind (·.chunk 7)).map (fun k => (k.st, k.result))) = some (.released, []) := by decide +kernel
theorem test_cstat : let s := chunkState (rWord 0x2B 7 0) 0 { num := 7, st := .sealed, status := 2, copies := [{ dst := .port 4, kind := 1 }] }
    canIssue s 0 5 .cstat = true ∧ ((mine s).chunk ((rs1Of s 0 5).toNat / 2 ^ 32)).isSome = true ∧
    (after (.cstat 0 5) s).reg 3 = 0x0100020400000000#64 := by decide +kernel
theorem test_cstat_not_mine : let s := runState (rWord 0x2B 7 0) 5 7 0
    canIssue s 0 5 .cstat = true ∧ mineCtx (atIssue s 0 5) 0 5 (rs1Of s 0 5) = none ∧ (after (.cstat 0 5) s).reg 3 = 0x12#64 := by decide +kernel
theorem test_cfeed : let s := (runState (rWord 0x2B 3 0) stageAt (3 + 32 * 2) 0).modPl 0 (fun x => { x with
      ctxs := [(ctxKey 3 2, { core := 5, chunkCells := 1, group := 5, cseq := 9, feed := true })]
      mem := memPuts [] stageAt (payloadBytes (headOf 1)) })
    let u := atIssue s 0 5
    canIssue s 0 5 .cfeed = true ∧ (rs1Of s 0 5).toNat % 256 = 0 ∧ memArmed u 0 = false ∧ (mineCtx u 0 5 (rs2Of s 0 5)).isSome = true ∧ coreReach u 0 stageAt 256 = true ∧
    poisonedAt u 0 stageAt 256 = false ∧ baseS ≤ stageAt ∧
    feedCode u 0 5 3 2 ((getCtx u 0 3 2).getD { core := 0 }) stageAt (headCell (payloadOf (memRead u 0 stageAt 256))) = sOk ∧
    ((ran (.cfeed 0 5) s).pl 0).feeds.length = 1 := by decide +kernel
theorem test_sync_ops : let f (f7 : Nat) := runState (rWord 0x5B 0 f7) 9 7 0
    canIssue (f 0) 0 5 .sadd = true ∧ canIssue (f 1) 0 5 .sset = true ∧ canIssue (f 2) 0 5 .srd = true ∧
    ((after (.sadd 0 5) (f 0)).ops.map (fun o => (o.kind, o.at', o.a, o.b))) = [(opAdd, 2, 9, 7)] := by decide +kernel
theorem test_larr : let s := runState (rWord 0x5B 6 1) 63 7 0
    canIssue s 0 5 .larr = true ∧ (rs1Of s 0 5).toNat < 64 ∧ (after (.larr 0 5) s).ops.length = 1 := by decide +kernel
theorem test_kcmd : let s := (runState (rWord 0x5B 6 0) 1 0x100 0).put (uCCX 0 5) Fld.CCX_CFG_KEY_EN 1
    canIssue s 0 5 .kcmd = true ∧ (atIssue s 0 5).on (uCCX 0 5) Fld.CCX_CFG_KEY_EN = true ∧ lsArg (rs2Of s 0 5).toNat 64 = true ∧
    (after (.kcmd 0 5) s).ops.length = 1 := by decide +kernel
theorem test_kcmd_off : let s := runState (rWord 0x5B 6 0) 1 0x100 0
    canIssue s 0 5 .kcmd = true ∧ (atIssue s 0 5).on (uCCX 0 5) Fld.CCX_CFG_KEY_EN = false ∧ (after (.kcmd 0 5) s).reg 3 = 5#64 := by decide +kernel
theorem test_kdig : let s := runState (rWord 0x5B 6 2) 0x80 7 0
    canIssue s 0 5 .kdig = true ∧ (rs1Of s 0 5).toNat % 128 = 0 ∧ (rs1Of s 0 5).toNat + 128 ≤ 0x40000 := by decide +kernel
theorem test_msend : let s := runState (rWord 0x5B 4 0) 0x100 (0x22 + 65536 * 4) 0
    canIssue s 0 5 .msend = true ∧ lsArg (rs1Of s 0 5).toNat 256 = true ∧
    (((atIssue s 0 5).pl 0).unitFrames.filter (fun f => f.unit = uCCX 0 5)).length < 4 ∧
    ((ran (.msend 0 5) s).pl 0).unitFrames.map (·.dests) = [[0x22]] := by decide +kernel

/-- That core serving group 600. -/
def queueState (w : Nat) (x : Group) : State :=
  (runState w 600 0x100 0).modPl 0 (fun y => { y with groups := [(600, { x with core := 5, en := true })] })

theorem test_qpop : let s := queueState (rWord 0x5B 2 0) { prod := 1 }
    canIssue s 0 5 .qpop = true ∧ (rs1Of s 0 5).toNat = 600 ∧ lsArg (rs2Of s 0 5).toNat 128 = true ∧ servedBy (atIssue s 0 5) 0 5 600 = true ∧
    memArmed (atIssue s 0 5) 0 = false ∧ grpWaiting (grp (atIssue s 0 5) 0 600) = true ∧ (grp (ran (.qpop 0 5) s) 0 600).cons = 1 ∧ (after (.qpop 0 5) s).reg 3 = 0 := by decide +kernel
theorem test_qpop_empty : let s := queueState (rWord 0x5B 2 0) {}
    canIssue s 0 5 .qpop = true ∧ servedBy (atIssue s 0 5) 0 5 600 = true ∧ grpWaiting (grp (atIssue s 0 5) 0 600) = false ∧
    (after (.qpop 0 5) s).reg 3 = 0x11#64 := by decide +kernel
theorem test_qdone : let s := queueState (rWord 0x5B 2 1) { cons := 1, prod := 1, popped := [(0, barrierDesc)] }
    canIssue s 0 5 .qdone = true ∧ lsArg (rs2Of s 0 5).toNat 128 = true ∧ ((atIssue s 0 5).pl 0).lateCommit = none ∧ compFull (grp (atIssue s 0 5) 0 600) = false ∧ (grp (atIssue s 0 5) 0 600).popped = [(0, barrierDesc)] ∧
    ofBytes (sliceB (lsRead (atIssue s 0 5) 0 5 (rs2Of s 0 5).toNat 128) 6 2) = 0 ∧ (grp (ran (.qdone 0 5) s) 0 600).dseq = 1 := by decide +kernel
theorem test_waits : let f (f3 f7 : Nat) := runState (rWord 0x5B f3 f7) 0x100 7 0
    canIssue (f 1 0) 0 5 .swait = true ∧ canIssue (f 3 0) 0 5 .qwait = true ∧ canIssue (f 5 0) 0 5 .mrecv = true ∧ lsArg (rs1Of (f 5 0) 0 5).toNat 256 = true ∧
    canIssue (f 7 0) 0 5 .ftwait = true ∧ canIssue (runState (rWord 0x2B 1 0) 0 7 0) 0 5 .xwait = true ∧ (coreOf (atIssue (f 1 0) 0 5) 0 5).again = none ∧
    coreSt (ran (.swait 0 5) (f 1 0)) 0 5 = 2 ∧ ((after (.ftwait 0 5) (f 7 0)).wait.map (·.target)) = some 0x100 := by decide +kernel

/-! ### Memory and ports -/

theorem test_poison : let s := (onState.put (uFMC 0 2) Fld.FMC_PADDR_LO 0x200).put (uFMC 0 2) Fld.FMC_PADDR_HI (baseF / 2 ^ 32)
    accepted s hubA (tgtUnit 0 2) Fld.FMC_CMD_POISON.key (0 ||| Fld.FMC_CMD_POISON.mask) = true ∧
    ((ran (.poison hubA 0 2 0) s).pl 0).poison = [baseF + 512] := by decide +kernel
theorem test_apply : let s := (withPln 0 2 onState).put (pu 0 .SPM) Fld.SPM_STAT_APPLY_BUSY 0
    accepted s hubA (pu 0 .SPM) Fld.SPM_PART_CTL_APPLY.key (0 ||| Fld.SPM_PART_CTL_APPLY.mask) = true ∧
    ((ran (.apply hubA 0 0) s).pl 0).applyAt = some 0 ∧
    (((ran (.partitionApplyDone 0) (ran (.apply hubA 0 0) s)).pl 0).part).isSome = true := by decide +kernel
theorem test_ctrl_refresh : let s := withFt 0 3000 (onState.put (pu 0 .NMC) Fld.FMC_STAT_READY 1)
    tgtReady s 0 6 = true ∧ mapNames (runningMemMap s 0) 6 = false ∧ (tgt s 0 (targetKey s 0 6)).lastRef + 3000 ≤ s.beats 0 ∧
    (tgt (ran (.ctrlRefresh 0 6) s) 0 6).lastRef = 3000 := by decide +kernel
theorem test_patrol : let s := withFt 0 262144 ((onState.put (pu 0 .NMC) Fld.FMC_STAT_READY 1).put (pu 0 .NMC) Fld.FMC_CFG_PATROL_EN 1)
    tgtReady s 0 6 = true ∧ mapNames (runningMemMap s 0) 6 = false ∧ s.on (tgtUnit 0 6) Fld.FMC_CFG_PATROL_EN = true ∧ (tgt s 0 6).lastPatrol + 262144 ≤ s.beats 0 ∧
    memArmed s 0 = false ∧ patrolPtr (ran (.patrolStep 0 6) s) 0 6 = 256 := by decide +kernel

/-- Port 0 of plane 0: one lane, ROLE ACCEL, in a state, at fabric time `ft`. -/
def portAt (st ft : Nat) : State :=
  withFt 0 ft ((((((onState.put (uFPT 0 0) Fld.FPT_CFG_SLAT 4).put (uFPT 0 0) Fld.FPT_CFG_PEN 1).put (uFPT 0 0) Fld.FPT_CFG_WIDTH 0).put (uFPT 0 0) Fld.FPT_CFG_ROLE 1).put
    (uFPT 0 0) Fld.FPT_STAT_STATE st).put (uFPT 0 0) Fld.FPT_STAT_LANE_ACT 1)

/-- The same with four lanes. -/
def widePort (st ft : Nat) : State := ((portAt st ft).put (uFPT 0 0) Fld.FPT_CFG_WIDTH 2).put (uFPT 0 0) Fld.FPT_STAT_LANE_ACT 15

theorem test_pen : let s := (List.range 4).foldl (fun s i => s.put (uFPT 0 0) (Fld.FPT_VC_GRANT.at i) 8) onState
    let v : Word := 0x00000409
    upperLane s 0 0 = false ∧ portPen s 0 0 = false ∧ v.getLsbD 0 = true ∧
    accepted s hubA (uFPT 0 0) 0x040 v = true ∧ portState (ran (.pen hubA 0 0 v) s) 0 0 = 1 := by decide +kernel
theorem test_pen_off : let s := portAt 3 0
    let v : Word := (s.reg (uFPT 0 0) 0x040) &&& ~~~1
    upperLane s 0 0 = false ∧ upperLane (s.put (uFPT 0 0) Fld.FPT_CFG_PEN 0) 0 0 = false ∧ portPen s 0 0 = true ∧ v.getLsbD 0 = false ∧
    accepted s hubA (uFPT 0 0) 0x040 v = true ∧ portState (ran (.pen hubA 0 0 v) s) 0 0 = 0 := by decide +kernel
theorem test_trained : let s := widePort 1 0
    portPen s 0 0 = true ∧ portState s 0 0 = 1 ∧ (linkOf s 0 0).bad = [] ∧ portWidth s 0 0 ≤ 4 ∧
    portState (ran (.trainingDone 0 0 15) s) 0 0 = 2 ∧ activeOffs (ran (.trainingDone 0 0 15) s) 0 0 = [0, 1, 2, 3] := by decide +kernel
theorem test_untrained : let s := portAt 1 165000000
    portPen s 0 0 = true ∧ (linkOf s 0 0).since + 165000000 ≤ s.beats 0 ∧ portState (ran (.trainingDone 0 0 0) s) 0 0 = 5 ∧
    portState (ran (.trainingDone 0 0 15) (portAt 2 0)) 0 0 = 2 := by decide +kernel
theorem test_discover_timeout : let s := portAt 2 262145
    portPen s 0 0 = true ∧ portState s 0 0 = 2 ∧ (linkOf s 0 0).since + 262144 < s.beats 0 ∧ activeOffs s 0 0 = [0] ∧ (activeOffs s 0 0).all (fun i => !(laneOf s 0 (0 + i)).heard) = true ∧
    portState (ran (.discoverTimeout 0 0) s) 0 0 = 5 := by decide +kernel
theorem test_absent_retry : let s := portAt 5 165000000
    portPen s 0 0 = true ∧ portState s 0 0 = 5 ∧ (linkOf s 0 0).since + 165000000 ≤ s.beats 0 ∧ portState (ran (.absentRetry 0 0) s) 0 0 = 1 ∧ portState s 0 4 ≠ 5 := by decide +kernel
theorem test_lane_fault : let s := widePort 3 100
    s.powered (uFPT 0 1) = true ∧ portOf s 0 1 = some 0 ∧ portState s 0 0 = 3 ∧ (linkOf s 0 0).bad.contains (1 - 0) = false ∧
    portState (ran (.laneFault 0 1 true) s) 0 0 = 7 ∧ (linkOf (ran (.laneFault 0 1 true) s) 0 0).narrow = [⟨3, 3840, true⟩] := by decide +kernel
theorem test_narrow : let s := widePort 3 100
    portOf s 0 1 = some 0 ∧ (linkOf s 0 0).narrow = [] ∧ (activeOffs s 0 0).filter (bit 12) ≠ [] ∧ s.ft 0 < (3840#64).toNat ∧
    (linkOf (ran (.narrow 0 1 12 3840) s) 0 0).narrow = [⟨12, 3840, false⟩] ∧ ran (.narrowAck 0 1 12 3840) s = s := by decide +kernel
theorem test_narrow_switch : let s := (modLink 0 0 (fun l => { l with narrow := [⟨12, 3840, true⟩] }) (widePort 7 3840))
    portPen s 0 0 = true ∧ portState s 0 0 = 7 ∧ (linkOf s 0 0).narrow = [⟨12, 3840, true⟩] ∧ 3840 ≤ s.ft 0 ∧
    (activeOffs s 0 0).filter (fun i => !(offsOf 12).contains i) ≠ [] ∧ portState (ran (.narrowSwitch 0 0) s) 0 0 = 3 ∧
    activeOffs (ran (.narrowSwitch 0 0) s) 0 0 = [0, 1] := by decide +kernel
theorem test_narrow_ahead : let s := modLink 0 0 (fun l => { l with narrow := [⟨12, 3841, true⟩] }) (widePort 7 3840)
    (linkOf s 0 0).narrow.all (fun x => decide (s.ft 0 < x.t)) = true ∧ portState (ran (.narrowSwitch 0 0) s) 0 0 = 7 := by decide +kernel
theorem test_rtt : let s := portAt 2 1000
    portOf s 0 0 = some 0 ∧ portTalks s 0 0 = true ∧ (laneOf (ran (.rttProbe 0 0 5) s) 0 0).tx.length = 1 := by decide +kernel

theorem test_rtt_beats (h : Config.echoHeld 0 0 6401 = 0) : rttBeats 0 0 6401 = 101 := by simp [rttBeats, h]
theorem test_hello_send : let s := portAt 2 65536
    portOf s 0 0 = some 0 ∧ portTalks s 0 0 = true ∧ (actLanes s 0 0).contains 0 = true ∧ (laneOf s 0 0).helloIn ≠ some (s.ft 0 / 65536) ∧
    (laneOf (ran (.helloSend 0 0) s) 0 0).hseq = 1 ∧ (laneOf (ran (.helloSend 0 0) s) 0 0).helloIn = some (s.ft 0 / 65536) := by decide +kernel

/-- A HELLO of an accelerator whose port is of one lane: kind 0, and zeros but for its plane 1, the number of channels and SLAT. -/
def helloMsg (vcs slat : Nat) : BitVec 384 := BitVec.ofNat 384 (0x01000101 + 2 ^ 136 * vcs + 2 ^ 144 * slat)

theorem test_hello_up : let s := portAt 2 65536
    let m := helloMsg 4 (slatOf s 0 0)
    portOf s 0 0 = some 0 ∧ portTalks s 0 0 = true ∧ (actLanes s 0 0).contains 0 = true ∧
    (ran (.hello 0 0 m) s).get (uFPT 0 0) (Fld.FPT_HELLO_DATA.at 0) = 0x01000101 ∧
    m.toNat % 65536 = 0x0101 ∧ actLanes s 0 0 = [0] ∧ helloCause s 0 0 0 (bytesOf 48 m.toNat) = 0 ∧ latencyOk s 0 0 = true ∧
    portState (ran (.hello 0 0 m) s) 0 0 = 3 := by decide +kernel
theorem test_hello_quarantine : let s := portAt 2 65536
    let m := helloMsg 4 (slatOf s 0 0 + 1)
    helloCause s 0 0 0 (bytesOf 48 m.toNat) = 6 ∧ portState (ran (.hello 0 0 m) s) 0 0 = 4 := by decide +kernel
theorem test_unit_of_no_port : portOf onState 0 9 = none := by decide +kernel
theorem test_unit_bad_lcrc : let s := portAt 3 400
    let u : BitVec 2400 := 1#2400 <<< 2390
    s.powered (uFPT 0 0) = true ∧ portOf s 0 0 = some 0 ∧ (actLanes s 0 0).contains 0 = true ∧ (linkOf s 0 0).bad = [] ∧
    (laneOf s 0 0).ues = [] ∧ (u.extractLsb' 2384 16).toNat ≠ crc16 (bytesOf 26 (u.extractLsb' 2176 208).toNat) := by decide +kernel

/-- The cell position of a scheduled cell that holds 7, and its unit in slot 41. -/
def schedBits : BitVec 2176 := ({ sched := true, cls := 0, tag := 0, data := 7 } : Cell).bits
def schedWord : Lcw := { ccrc := 3049939668, seq := 0, cvalid := true, sched := true, slot := 41, ctl := List.replicate 12 0 }

theorem test_unit_lcrc : let u := linkUnit schedBits schedWord
    (u.extractLsb' 2384 16).toNat = crc16 (bytesOf 26 (u.extractLsb' 2176 208).toNat) := by decide +kernel
theorem test_unit_lcw : lcwOf ((linkUnit schedBits schedWord).extractLsb' 2176 208).toNat = schedWord := by decide +kernel
set_option maxRecDepth 200000 in
theorem test_unit_ccrc : ccrcOf ((linkUnit schedBits schedWord).extractLsb' 0 2176) = schedWord.ccrc := by decide +kernel
theorem test_unit_cell : (readCell ((linkUnit schedBits schedWord).extractLsb' 0 2176) true).consistent = true := by decide +kernel
theorem test_unit_slot : let s := portAt 3 822
    fullSlot s 0 0 41 % 4 ≠ 0 ∧ s.ft 0 < (fullSlot s 0 0 41 + slatOf s 0 0) * 20 ∧
    presented s 0 0 (fullSlot s 0 0 41 + slatOf s 0 0) = none ∧ (laneOf s 0 0).parts = [] ∧ (laneOf s 0 0).ues = [] := by decide +kernel
theorem test_unit_sent : let s := portAt 2 400
    portPen s 0 0 = true ∧ actLanes s 0 0 = [0] ∧ (linkOf s 0 0).offset.all (fun x => decide (x = 64 * (s.ft 0 % 20) + 0)) = true ∧
    (linkOf s 0 0).sentSlot ≠ some (s.ft 0 / 20) ∧ slotBank s 0 = none ∧ s.powered (uFPT 0 0) = true ∧
    (ran (.linkSlotSend 0 0 0) s).out.length = 1 ∧ (linkOf (ran (.linkSlotSend 0 0 0) s) 0 0).sentSlot = some 20 := by decide +kernel

theorem test_part_sig : onState.powered (pu 0 .SPM) = true ∧ onState.on (pu 0 .SPM) Fld.BLK_STAT_RST_BUSY = false ∧ partNow onState 0 = 0x00410424 ∧
    spmActive onState 0 = 64 ∧ partStage (partNow onState 0) 64 = 28 ∧ readUnit onState (pu 0 .SPM) 0x048 = 0x40710424 ∧
    le (memRead onState 0 0 64) 0x28 4 ≠ 0x40710424 ∧ (bankOfKey onState 0 0).partSig ≠ 0x40710424 := by decide +kernel

/-! ### Routing and the switch -/

/-- A plane's routing state, with a hold and a resume time. -/
def rteAt (st ft hold res : Nat) : State :=
  withFt 0 ft ((((onState.put (pu 0 .RTE) Fld.RTE_STAT_STATE st).put64 (pu 0 .RTE) Fld.RTE_HOLD_LO Fld.RTE_HOLD_HI hold).put64
    (pu 0 .RTE) Fld.RTE_RESUME_LO_RES_LO Fld.RTE_RESUME_HI_RES_HI res).put (pu 0 .PLN) Fld.PLN_STATE_FT_LOCKED 1)

/-- The same with the resume time armed. -/
def armedRte (st ft hold res : Nat) : State := modFab 0 (fun f => { f with resume := true }) (rteAt st ft hold res)

theorem test_start : let s := rteAt 1 50 100 200
    accepted s hubA (pu 0 .RTE) Fld.RTE_CTL_START.key (0 ||| Fld.RTE_CTL_START.mask) = true ∧ rteState (ran (.start hubA 0 0) s) 0 = 2 := by
  decide +kernel
theorem test_route_commit : let s := rteAt 4 50 100 200
    accepted s hubA (pu 0 .RTE) Fld.RTE_CTL_COMMIT.key (0 ||| Fld.RTE_CTL_COMMIT.mask) = true ∧
    (s.fab 0).resumeHit = false ∧ rteState (ran (.routeCommit hubA 0 0) s) 0 = 5 := by decide +kernel
theorem test_route_commit_hit : let s := modFab 0 (fun f => { f with resumeHit := true }) (armedRte 4 200 100 200)
    accepted s hubA (pu 0 .RTE) Fld.RTE_CTL_COMMIT.key (0 ||| Fld.RTE_CTL_COMMIT.mask) = true ∧
    (s.fab 0).resumeHit = true ∧ rteState (ran (.routeCommit hubA 0 0) s) 0 = 1 := by decide +kernel
theorem test_drained_at_resume : let s := armedRte 4 200 100 200
    (s.fab 0).resume = true ∧ resumeFt s 0 = s.ft 0 ∧ rteState s 0 = 4 ∧ ((ran (.resumeTime 0) s).fab 0).resumeHit = true ∧
    resumeFt (armedRte 4 201 100 200) 0 < (armedRte 4 201 100 200).ft 0 ∧ rteState (ran (.resumeTime 0) (armedRte 4 201 100 200)) 0 = 0 := by
  decide +kernel
theorem test_route_resume : let s := rteAt 5 50 100 200
    accepted s hubA (pu 0 .RTE) Fld.RTE_CTL_RESUME.key (0 ||| Fld.RTE_CTL_RESUME.mask) = true ∧
    ((ran (.routeResume hubA 0 0) s).fab 0).resume = true := by decide +kernel
theorem test_hold_ft : let s := armedRte 2 100 100 200
    rteState s 0 = 2 ∧ holdFt s 0 ≤ s.ft 0 ∧ (s.fab 0).startAt < s.ft 0 ∧ rteState (ran (.holdFt 0) s) 0 = 3 ∧
    s.ft 0 < holdFt (armedRte 2 99 101 200) 0 := by decide +kernel
theorem test_resume_time : let s := armedRte 5 200 100 200
    (s.fab 0).resume = true ∧ resumeFt s 0 ≤ s.ft 0 ∧ rteState (ran (.resumeTime 0) s) 0 = 1 := by decide +kernel
theorem test_isolated : let s := armedRte 3 200 100 200
    (s.fab 0).resume = true ∧ resumeFt s 0 ≤ s.ft 0 ∧ s.get (pu 0 .RTE) Fld.BLK_ERR_CLASS = 0 ∧
    detectedNow s (pu 0 .RTE) = [] ∧ rteState (ran (.resumeTime 0) s) 0 = 0 ∧
    (ran (.resumeTime 0) s).get (pu 0 .RTE) Fld.BLK_ERR_CLASS_SOURCE = 7 := by decide +kernel
theorem test_pol_sel : accepted onState hubA (pu 0 .POL) 0x040 5 = true ∧
    (ran (.polSel hubA 0 5) onState).get (pu 0 .POL) Fld.POL_CIR = (({} : PolParams)).cir := by decide +kernel
theorem test_pol_apply : let s := onState.put (pu 0 .POL) Fld.POL_SEL_POLICER 5
    accepted s hubA (pu 0 .POL) Fld.POL_CTL_APPLY.key (0 ||| Fld.POL_CTL_APPLY.mask) = true ∧
    (mgetD ((ran (.polApply hubA 0 0) s).fab 0).pols 5 {}).next.isSome = true := by decide +kernel
theorem test_flip : let s := modFab 0 (fun f => { f with tbl := mput [] (tblKey 1 0 3 0) 0x03E80003 }) onState
    accepted s hubA (pu 0 .SWC) Fld.SWC_EPOCH_FLIP.key (0 ||| Fld.SWC_EPOCH_FLIP.mask) = true ∧
    ((ran (.flip hubA 0 0) s).fab 0).flip = some 1 := by decide +kernel
theorem test_tbl_data : let s := (onState.put (pu 0 .SWC) Fld.SWC_TBL_SEL_BANK 1).put (pu 0 .SWC) Fld.SWC_TBL_SEL_INDEX 2
    accepted s hubA (pu 0 .SWC) 0x084 0x00050001 = true ∧ tblWord (ran (.swcTblData hubA 0 0x00050001) s) 0 1 0 2 0 = 0x00050001 := by decide +kernel
theorem test_seed : let s := onState.put (pu 0 .SWC) Fld.SWC_DRAW_LO 9
    accepted s hubA (pu 0 .SWC) 0x07C 4 = true ∧ drawCount s 0 = 9 ∧ drawCount (ran (.swcSeedHi hubA 0 4) s) 0 = 0 := by decide +kernel
theorem test_shaper : let s := portAt 3 0
    accepted s hubA (pu 0 .QSH) 0x06C 2 = true ∧ (pState (ran (.shaperWrite hubA 0 .portBurst 2) s) 0 0).shaper.burst = 2 ∧
    accepted s hubA (pu 0 .QSH) 0x044 0x3008 = true ∧ queueUsed s 0 (qshSel s 0 / 8) (qshSel s 0 % 8) = true ∧
    qStrict (ran (.shaperWrite hubA 0 .queueCfg 0x3008) s) 0 0 = true := by decide +kernel
theorem test_clrmax : let s := modQ 0 0 (fun q => { q with maxDelay := 4, maxDepth := 7 }) onState
    accepted s hubA (pu 0 .QSH) Fld.QSH_CMD_CLRMAX.key (0 ||| Fld.QSH_CMD_CLRMAX.mask) = true ∧
    (qState (ran (.clrmax hubA 0 0) s) 0 0).maxDelay = 0 := by decide +kernel

/-- Plane 0 in RUN with torus port 64, owned by job 1. -/
def torusState (ft : Nat) : State :=
  withFt 0 ft ((((((onState.put (pu 0 .RTE) Fld.RTE_STAT_STATE 1).put (uFPT 0 64) Fld.FPT_CFG_PEN 1).put (uFPT 0 64) Fld.FPT_CFG_ROLE 2).put
    (uFPT 0 64) Fld.FPT_STAT_STATE 3).put (uFPT 0 64) (Fld.FPT_VC_GRANT.at 0) 4).setReg (pu 0 .RTE) 0x140 1)

/-- A CONTROL frame of one cell for module 0. -/
def ctlCell : Cell := { pos := 3, cls := 1, flen := 1, src := 9, tag := 5, data := 6 }

theorem test_frame_admit : let s := modFab 0 (fun f => { f with arrived := [(64, ctlCell)] }) (torusState 40)
    ctlCell.dest = selfAddr s 0 ∧ portRole s 0 64 = 2 ∧ ownerOf s 0 64 ≠ 0 ∧ rteState s 0 = 1 ∧ (s.fab 0).cands = [] ∧
    mget (linkOf s 0 64).asm ctlCell.vc = none ∧ 1 ≤ maxFlen s 0 ∧ 1 ≤ grantOf s 0 64 0 ∧
    1 ≤ bufCells s 0 ∧ bit (tblWord s 0 (curBank s 0) 2 (4 * 64) 0) 12 = false ∧ (s.rp (pu 0 .SWC)).corrupt ≠ some 3 ∧
    (ran (.frameAdmit 0) s).out = [.handOver 0 9 5 [6]] := by decide +kernel
theorem test_unit_frame : let f : UnitFrame := { unit := pu 0 .GRQ, cls := 1, dests := [0], tag := 7, cells := [3] }
    let s := (torusState 40).modPl 0 (fun x => { x with unitFrames := [f] })
    (s.pl 0).unitFrames.find? (·.unit = pu 0 .GRQ) = some f ∧ f.dests = [selfAddr s 0] ∧ rteState s 0 = 1 ∧ (s.fab 0).cands = [] ∧ f.cells.length ≤ maxFlen s 0 ∧
    bufResv s 0 + f.cells.length ≤ bufCells s 0 ∧ (ran (.unitFrameAdmit 0 (pu 0 .GRQ)) s).out = [.handOver 0 0 7 [3]] := by decide +kernel
theorem test_unit_frame_held : let f : UnitFrame := { unit := pu 0 .GRQ, cls := 1, dests := [0], tag := 7, cells := [3] }
    let s := (rteAt 3 50 40 200).modPl 0 (fun x => { x with unitFrames := [f] })
    (s.pl 0).unitFrames.find? (·.unit = pu 0 .GRQ) = some f ∧ held s 0 = true ∧ pu 0 .GRQ ≠ pu 0 .LAT := by decide +kernel
theorem test_copy_age : let s := modFab 0 (fun f => { f with queues := [(8, [{ frame := 0, dest := 1, head := 0, admitFt := 0, deadline := 99 },
      { frame := 1, dest := 1, head := 0, admitFt := 0, deadline := 100 }])] }) (torusState 100)
    (queueOf (ran (.copyAgeExpire 0 8) s) 0 8).map (·.frame) = [1] := by decide +kernel
/-- The same with AUDIT_EN. -/
def auditState (ft : Nat) : State := (torusState ft).put (pu 0 .SWC) Fld.SWC_CFG_AUDIT_EN 1

theorem test_audit : let s := modFab 0 (fun f => { f with bufs := [(0, { frame := 9, no := 0, deadline := 3, credit := none })] }) (auditState 9000000)
    s.on (pu 0 .SWC) Fld.SWC_CFG_AUDIT_EN = true ∧ (s.fab 0).auditAt ≠ some (s.beats 0) ∧ bufCells s 0 ≠ 0 ∧
    (mget (s.fab 0).bufs ((s.fab 0).audit % bufCells s 0)).isSome = true ∧
    3 + s.get (pu 0 .SWC) Fld.SWC_AUDIT_GRACE * 65536 < s.ft 0 ∧ ((ran (.auditVisit 0) s).fab 0).bufs = [] := by decide +kernel

/-- Port 0 of plane 0 with one stream that holds frame 4, a seal of chunk 0. -/
def robState (ft : Nat) (r : RobStream) : State :=
  modFab 0 (fun f => { f with
    robs := [(0, [r])]
    frames := [{ id := 4, inPort := none, vc := 0, cls := 3, f2 := false, dest := 1, src := 9, flen := 1, tag := 0, tc := 0, job := 0, epoch := 0
                 color := 0, admitFt := 0, latch := false, complete := true, data := [(1, false)], rob := some 0 }] }) (portAt 3 ft)

theorem test_rob_open : let r : RobStream := { src := 9, group := 0, cseq := 0, opened := 0, frames := [(4, 10)] }
    let s := robState 1000000 r
    robOf s 0 0 = [r] ∧ r.exp = none ∧ r.opened + robOpen s 0 ≤ s.beats 0 ∧ (robFirst s 0 r).map (·.id) = some 4 ∧ ((robFirst s 0 r).map r.mine) = some true ∧
    (robOf (ran (.robOpenExpire 0 0) s) 0 0).all (fun r => r.exp.isSome) = true := by decide +kernel
theorem test_rob_wait : let r : RobStream := { src := 9, group := 0, cseq := 0, opened := 0, exp := some 0, frames := [(4, 10)] }
    let s := robState 1000000 r
    robOf s 0 0 = [r] ∧ 10 + robWait s 0 ≤ s.beats 0 ∧ ((frameOf s 0 4).map r.mine) = some true ∧
    (queueOf (ran (.robWaitExpire 0 0) s) 0 0).map (·.frame) = [4] := by decide +kernel
theorem test_rob_close : let r : RobStream := { src := 9, group := 0, cseq := 0, opened := 0 }
    robOf (ran (.robStreamClose 0 0) (robState 1000000 r)) 0 0 = [] := by decide +kernel

/-! ### Hosts, mailboxes and the service port -/

/-- Port A is up and holds the lease in `hold`, with a TERM of 8 ms, at a beat of the hub. -/
def hostState (hold beat : Nat) : State :=
  ((((((onState.put (hu .a .PCI) Fld.PCI_STAT_LINK_UP 1).put (hu .a .PCI) Fld.PCI_LEASE_HOLDER hold).put (hu .b .PCI)
    Fld.PCI_LEASE_HOLDER hold).put (hu .a .PCI) Fld.PCI_LEASE_TERM 8).put (hu .a .HUB) (Fld.HUB_LINK_CTL_EN.at 0) 1).put (hu .a .PCI)
    Fld.PCI_STAT_BME 1).modHub .a (fun x => { x with beat := beat })

theorem test_perst : let s := hostState 1 5
    s.pwr.offUntil = none ∧ holder (ran (.perst .a 1650) s) = 0 ∧ ((ran (.perst .a 1650) s).hub .a).pci.perst = true ∧
    (ran (.perst .a 1650) s).get (hu .a .PCI) Fld.PCI_STAT_LINK_UP = 0 ∧
    ((ran (.perstRelease .a 1650) (ran (.perst .a 1650) s)).hub .a).pci.perst = false := by decide +kernel
theorem test_flr : let s := hostState 1 5
    s.powered (hu .a .PCI) = true ∧ holder (ran (.flr .a) s) = 0 ∧ holder (ran (.pcieLinkDown .a) s) = 0 := by decide +kernel
theorem test_link_up : onState.powered (hu .b .PCI) = true ∧ (onState.hub .b).pci.perst = false ∧
    (ran (.pcieLinkUp .b 6 8) onState).get (hu .b .PCI) Fld.PCI_STAT_FLIT = 1 := by decide +kernel
theorem test_config : (ran (.configurationRequest .a (.busMaster false)) (hostState 1 5)).get (hu .a .PCI) Fld.PCI_STAT_BME = 0 ∧
    (ran (.configurationRequest .a (.powerState true)) (hostState 1 5)).get (hu .a .PCI) Fld.PCI_STAT_D3HOT = 1 ∧
    onState.powered (hu .a .PCI) = true ∧ (onState.hub .a).pci.perst = false ∧
    ((ran (.configurationRequest .a (.msixEnable true)) onState).hub .a).pci.msixEn = true ∧
    (ran (.configurationRequest .a (.dword 1 4)) onState).get (hu .a .PCI) Fld.PCI_STAT_BME = 1 ∧
    ((ran (.configurationRequest .a (.msixEntry 3 16 2 false)) onState).hub .a).pci.msix.length = 1 := by decide +kernel
theorem test_bar2_denied : let s := hostState 2 5
    s.on (hu .a .PCI) Fld.PCI_STAT_LINK_UP = true ∧ s.on (hu .a .PCI) Fld.PCI_STAT_D3HOT = false ∧ holder s ≠ portCode .a ∧
    (ran (.bar2Access .a 64 true [1] 0) s).out = [.aer .a 64] := by decide +kernel
theorem test_bar2_refused : let s := onState.put (hu .a .PCI) Fld.PCI_STAT_LINK_UP 1
    s.dead = none ∧ hubCarries s .a 0 = false ∧ (ran (.bar2Access .a 64 false [0] 7) s).out = [.aer .a 64, .completion .a 7 false false []] := by
  decide +kernel
theorem test_bar2_read : let s := (hostState 2 5).modPl 0 (fun x => { x with mem := [(64, 9)] })
    s.get (hu .a .PCI) Fld.PCI_WIN_WPLANE = 0 ∧ hubCarries s .a 0 = true ∧ hubReach s 0 false 64 2 = true ∧ keyHolds s 0 64 = false ∧
    memArmed s 0 = false ∧ poisonedAt s 0 64 2 = false ∧ (s.pl 0).hostQ = [] ∧
    (ran (.bar2Access .a 64 false [0, 0] 7) s).out = [.completion .a 7 true false [9, 0]] := by decide +kernel
theorem test_bar2_write : let s := hostState 1 5
    holder s = portCode .a ∧ hubReach s 0 true 64 2 = true ∧ guarded s 0 64 2 = false ∧ keyHolds s 0 64 = false ∧ (s.pl 0).hostQ = [] ∧ hubCarries s .a 0 = true ∧
    ((ran (.bar2Access .a 64 true [8, 9] 7) s).pl 0).mem = [(64, 8), (65, 9)] := by decide +kernel
theorem test_req : let s := hostState 0 5
    accepted s (.host .a) (hu .a .PCI) Fld.PCI_LEASE_REQ.key (0x80000 ||| Fld.PCI_LEASE_REQ.mask) = true ∧
    holder (ran (.req (.host .a) .a 0x80000) s) = 1 ∧ (ran (.req (.host .a) .a 0x80000) s).lease.deadline = 13200005 := by decide +kernel
theorem test_req_same_beat : let s := { (hostState 2 5).put (hu .b .PCI) Fld.PCI_STAT_LINK_UP 1 with lease := { newB := true } }
    accepted s (.host .a) (hu .a .PCI) Fld.PCI_LEASE_REQ.key (0x80000 ||| Fld.PCI_LEASE_REQ.mask) = true ∧ holder s = 2 ∧
    holder (ran (.req (.host .a) .a 0x80000) s) = 1 := by decide +kernel
theorem test_renew : let s := hostState 1 5
    accepted s (.host .a) (hu .a .PCI) Fld.PCI_LEASE_RENEW.key (0x80000 ||| Fld.PCI_LEASE_RENEW.mask) = true ∧
    accepted s (.host .a) (hu .a .PCI) Fld.PCI_LEASE_RELEASE.key (0x80000 ||| Fld.PCI_LEASE_RELEASE.mask) = true ∧
    holder (ran (.release (.host .a) .a 0x80000) s) = 0 ∧ (ran (.renew (.host .a) .a 0x80000) s).lease.deadline = 13200005 := by decide +kernel
theorem test_ready : accepted (hostState 1 5) (.hubCore .a) (hu .a .PCI) 0x044 1 = true ∧
    (ran (.ready (.hubCore .a) .a 1) (hostState 1 5)).get (hu .a .PCI) Fld.PCI_CFG_READY = 1 := by decide +kernel
theorem test_lease_expire : let s := { hostState 1 6 with lease := { deadline := 5 } }
    holder s ≠ 0 ∧ s.lease.deadline < (s.hub (if holder s = 2 then .b else .a)).beat ∧ holder (ran .leaseExpire s) = 0 ∧
    (({ hostState 1 5 with lease := { deadline := 5 } } : State).hub .a).beat ≤ 5 := by decide +kernel
theorem test_lease_low : let s := { hostState 1 5 with lease := { deadline := 10 } }
    holder s = portCode .a ∧ 4 * leaseLeft s < 1650000 * s.get (hu .a .PCI) Fld.PCI_LEASE_TERM ∧ (ran .leaseLow s).lease.low = true ∧ holder onState = 0 := by decide +kernel

/-- Channel 3 from Hub A's cores to port B, two messages deep. -/
def chState (x : Channel) : State :=
  setChan (((((onState.put (hu .a .MBX) (Fld.MBX_WARD_SEND.at 3) 3).put (hu .a .MBX) (Fld.MBX_WARD_RECV.at 3) 2).put (hu .a .MBX)
    (Fld.MBX_WARD_DEPTH.at 3) 2).put (hu .a .MBX) (Fld.MBX_WARD_EN.at 3) 1).put (hu .b .PCI) Fld.PCI_STAT_LINK_UP 1 |>.modHub .a (fun y => { y with beat := 5 })) 3 x

theorem test_ch_go : let s := chState { txLen := 2, tx := [(0, 0x0201)] }
    chReach s hubA (chHub 3) = true ∧ s.on (hu (chHub 3) .MBX) Fld.BLK_STAT_RST_BUSY = false ∧ s.fenced (hu (chHub 3) .MBX) = false ∧
    agentOf hubA = ward s 3 Fld.MBX_WARD_SEND ∧ ward s 3 Fld.MBX_WARD_EN ≠ 0 ∧ agentOf hubA ≠ 0 ∧ chFull s 3 = false ∧
    (chan (ran (.chGo hubA 3) s) 3).sent = [⟨0, [1, 2]⟩] ∧ (chan (ran (.chGo hubA 3) s) 3).txSeq = 1 := by decide +kernel
theorem test_ch_full : let s := chState { txLen := 2, queue := [⟨0, [1]⟩, ⟨1, [1]⟩] }
    chFull s 3 = true ∧ (chan (ran (.chGo hubA 3) s) 3).rejCnt = 1 ∧
    (ran (.chGo hubA 3) s).get (hu .a .MBX) Fld.BLK_STAT_REJ_CODE = 4 := by decide +kernel
theorem test_mbx_visible : let s := chState { sent := [⟨0, [1]⟩] }
    (chan (ran (.mbxVisible 3) s) 3).queue = [⟨0, [1]⟩] ∧ (chan (ran (.mbxVisible 3) s) 3).irq = 2 ∧ (chan onState 3).sent = [] := by decide +kernel
theorem test_ch_pop : let s := chState { queue := [⟨0, [1]⟩] }
    agentOf (.host .b) = ward s 3 Fld.MBX_WARD_RECV ∧ chReach s (.host .b) (chHub 3) = true ∧
    (chan (ran (.chPop (.host .b) 3) s) 3).queue = [] ∧ (chan (ran (.chPop (.host .b) 3) s) 3).irq = 1 ∧
    (ran (.chPop (.host .b) 3) (chState {})).get (hu .a .MBX) Fld.BLK_STAT_REJ_CODE = 5 := by decide +kernel
theorem test_doorbell : let s := chState { dbPend := 6 }
    (chan (ran (.chDbSet hubA 3 9) s) 3).dbPend = 15 ∧ (chan (ran (.chDbPend (.host .b) 3 2) s) 3).dbPend = 4 ∧
    agentOf (.planeCore 0) ≠ ward s 3 Fld.MBX_WARD_SEND ∧ agentOf (.planeCore 0) ≠ ward s 3 Fld.MBX_WARD_RECV := by decide +kernel

/-- The service port of Hub A is enabled and up, its queue pair 2 open to address 5, its region 1 open for reads of 8 KiB of plane 0. -/
def svcState : State :=
  let u := hu .a .SVC
  ((((((((((hostState 0 5).put u Fld.SVC_CFG_EN 1).put u Fld.SVC_CFG_RDMA_EN 1).put u Fld.SVC_STAT_LINK_UP 1).put u (Fld.SVC_QP_EN.at 2) 1).put u
    (Fld.SVC_QP_RIP.at 2) 5).put u (Fld.SVC_QP_EPSN.at 2) 70).put u (Fld.SVC_RG_LEN_LO.at 1) 8192).put u (Fld.SVC_RG_RD.at 1) 1).put u
    (Fld.SVC_RG_EN.at 1) 1)

theorem test_svc_frame : let s := svcState
    s.on (hu .a .SVC) Fld.SVC_CFG_EN = true ∧ s.on (hu .a .SVC) Fld.SVC_STAT_LINK_UP = true ∧ s.powered (hu .a .SVC) = true ∧
    (0#48).toNat = s.get64 (hu .a .SVC) Fld.SVC_MAC_LO Fld.SVC_MAC_HI ∧
    ((ran (.svcFrameReceive .a (.other 0 [1, 2])) s).hub .a).rxFrames = [[1, 2]] ∧ onState.on (hu .a .SVC) Fld.SVC_CFG_EN = false := by decide +kernel
theorem test_svc_link : (ran (.serviceLinkChange .a false) svcState).get (hu .a .SVC) Fld.SVC_STAT_LINK_UP = 0 ∧
    (ran (.serviceLinkChange .a true) (ran (.serviceLinkChange .a false) svcState)).get (hu .a .SVC) Fld.SVC_STAT_LINK_UP = 1 := by decide +kernel
theorem test_region_en : let s := svcState.put (hu .a .SVC) (Fld.SVC_RG_EN.at 1) 0
    accepted s (.hubCore .a) (hu .a .SVC) (Fld.SVC_RG_EN.at 1).key (1 ||| (Fld.SVC_RG_EN.at 1).mask) = true ∧
    (regionOf (ran (.rdmaRegionEn (.hubCore .a) .a 1 1) s) .a 1).en = true := by decide +kernel
theorem test_rdma_psn : let s := svcState
    s.on (hu .a .SVC) (Fld.SVC_QP_EN.at 2) = true ∧ s.get (hu .a .SVC) (Fld.SVC_QP_RIP.at 2) = (5#32).toNat ∧
    s.on (hu .a .SVC) (Fld.SVC_QP_ERR.at 2) = false ∧ (ran (.rdmaRequest .a 2 5 71 1 0 .other) s).out = [.roce .a 2 2 70 []] ∧
    (ran (.rdmaRequest .a 2 5 70 1 0 .other) s).out = [.roce .a 2 3 70 []] := by decide +kernel
theorem test_rdma_denied : (regionOf svcState .a (3 % 64)).en = false ∧
    (ran (.rdmaRequest .a 2 5 70 3 0 (.read 1)) svcState).out = [.roce .a 2 4 70 []] := by decide +kernel
theorem test_rdma_read : let s := svcState.modPl 0 (fun x => { x with mem := [(64, 9)] })
    let r := regionOf s .a (1 % 64)
    r.en = true ∧ r.tag = 0 ∧ r.rd = true ∧ r.base ≤ 64 ∧ 64 + 2 ≤ r.base + r.len ∧ r.plane = 0 ∧ hubCarries s .a r.plane = true ∧
    hubReach s 0 false 64 2 = true ∧ keyHolds s 0 64 = false ∧ memArmed s 0 = false ∧ (s.pl 0).hostQ = [] ∧ poisonedAt s 0 64 2 = false ∧ (ran (.rdmaRequest .a 2 5 70 1 64 (.read 2)) s).out = [.roce .a 2 1 70 [9, 0]] ∧
    (ran (.rdmaRequest .a 2 5 70 1 64 (.read 2)) s).get (hu .a .SVC) (Fld.SVC_QP_EPSN.at 2) = 71 := by decide +kernel

/-! ### Reports and the hubs -/

/-- The worked escalation's frame of TMB5 of Plane 1 at class U with RSEQ 2 is 0xA529. -/
theorem test_report_frame : reportFrame 2 2 0x125 = 0xA529 := by decide
theorem test_report_sent : let s := withFt 0 64 onState
    (s.rp (pu 0 .KSQ)).lastSent + 64 ≤ unitBeat s (pu 0 .KSQ) ∧ (ran (.reportFrameSend (pu 0 .KSQ)) s).out.length = 2 ∧
    unitBeat onState (pu 0 .KSQ) < (onState.rp (pu 0 .KSQ)).lastSent + 64 := by decide +kernel
theorem test_report_seen : frameOk 0x125 0xA529 = true ∧ onState.powered (hu .a .FCL) = true ∧ onState.hubFenced .a = false ∧
    (unitBlk 0x125).isSome = true ∧ (view onState .a 0x125).pairOk = true ∧
    (onState.hub .a).beat ≤ (view onState .a 0x125).lastBeat + 192 ∧ (view (ran (.reportFrameReceive .a 0x125 0xA529 true) onState) .a 0x125).cls = 2 := by decide +kernel
theorem test_report_fatal : let f := BitVec.ofNat 16 (reportFrame 3 1 0x125)
    frameOk 0x125 f = true ∧ bits f.toNat 3 2 = 3 ∧ onState.dead = none := by decide +kernel
theorem test_report_broken : (view onState .a 0x125).pairOk = true ∧ (view onState .b 0x125).pairOk = true ∧ onState.hubFenced .b = false ∧
    (view (ran (.reportFrameReceive .a 0x125 0 false) onState) .a 0x125).pairOk = false := by decide +kernel
theorem test_report_timeout : let s := onState.modHub .a (fun x => { x with beat := 193 })
    s.powered 0x125 = true ∧ (view s .a 0x125).lastBeat + 192 < (s.hub .a).beat ∧ (view (ran (.reportTimeout .a 0x125) s) .a 0x125).pairOk = false ∧
    (onState.hub .a).beat ≤ (view onState .a 0x125).lastBeat + 192 := by decide +kernel
theorem test_self_ack : let s := (withFt 0 2000000 onState).put (pu 0 .KSQ) Fld.BLK_ERR_CLASS 1
    detectedNow s (pu 0 .KSQ) = [] ∧ (s.rp (pu 0 .KSQ)).capAt + (s.rp (pu 0 .KSQ)).capFor ≤ unitBeat s (pu 0 .KSQ) ∧
    (ran (.cSelfAck (pu 0 .KSQ)) s).get (pu 0 .KSQ) Fld.BLK_ERR_CLASS = 0 ∧ onState.get (pu 0 .KSQ) Fld.BLK_ERR_CLASS ≠ 1 := by decide +kernel
theorem test_dead_record : let s := { onState with dead := some { record := ⟨5, 1, 0, 9⟩, at' := ⟨0, 0⟩ } }
    s.powered (hu .b .KPL) = true ∧ ((ran (.deadboltRecord .b) s).hub .b).kpl.flash.dead = some ⟨5, 1, 0, 9⟩ := by decide +kernel
theorem test_peer_heartbeat : peerOpen onState = true ∧ (ran (.peerHeartbeat .a) onState).out = [.peer .b] ∧ peerOpen State.reset = false := by
  decide +kernel
theorem test_peer_timeout : let s := (onState.put (hu .a .HUB) Fld.HUB_PEER_PEER_OK 1).modHub .a (fun x => { x with beat := 193 })
    s.on (hu .a .HUB) Fld.HUB_PEER_PEER_OK = true ∧ (s.hub .a).peerAt + 192 < (s.hub .a).beat ∧ peerCondemns s .a = false ∧
    s.get (hu .a .HUB) Fld.BLK_ERR_CLASS = 0 ∧ detectedNow s (hu .a .HUB) = [] ∧ (ran (.peerTimeout .a) s).get (hu .a .HUB) Fld.BLK_ERR_CLASS_SOURCE = 2 := by decide +kernel
theorem test_hub_link_timeout : let s := (onState.put (hu .a .HUB) (Fld.HUB_LINK_CTL_EN.at 2) 1).modHub .a (fun x => { x with beat := 16501, reqAt := [(2, 0)] })
    s.powered (hu .a .HUB) = true ∧ s.domOn (4 + 7 * 2) = true ∧ linkShut s .a 2 = false ∧ mget (s.hub .a).reqAt 2 = some 0 ∧
    (ran (.hubLinkTimeout .a 2) s).get (hu .a .HUB) (Fld.HUB_LINK_STAT_CLOSED.at 2) = 1 := by decide +kernel
theorem test_lift_port : let s := ((portAt 6 0).put (uFPT 0 0) Fld.BLK_FENCE_FENCED 1).put (uFPT 0 0) Fld.BLK_FENCE_CAUSE 2
    let v := BitVec.ofNat 32 (uFPT 0 0)
    accepted s hubA (hu .a .FCL) 0x054 v = true ∧ v.toNat % 2048 = uFPT 0 0 ∧ (s.rp (uFPT 0 0)).hitAt ≠ some (s.beats 0) ∧ (ran (.fclLift hubA .a v) s).fenced (uFPT 0 0) = false ∧
    portState (ran (.fclLift hubA .a v) s) 0 0 = 0 := by decide +kernel
theorem test_lift_core : let s := (onState.put (uCCX 0 5) Fld.BLK_FENCE_FENCED 1).put (uCCX 0 5) Fld.BLK_FENCE_CAUSE 2
    let v := BitVec.ofNat 32 (uCCX 0 5)
    accepted s hubA (hu .a .FCL) 0x054 v = true ∧ v.toNat % 2048 = uCCX 0 5 ∧ (s.rp (uCCX 0 5)).hitAt ≠ some (s.beats 0) ∧ (ran (.fclLift hubA .a v) s).fenced (uCCX 0 5) = false := by
  decide +kernel
theorem test_alive_en : let v := (onState.reg (hu .a .FCL) 0x040) ||| 0x10000
    accepted onState hubA (hu .a .FCL) 0x040 v = true ∧ v.getLsbD 16 = true ∧ (onState.hub .a).alive ≠ .serving ∧
    ((ran (.aliveEn hubA .a v) onState).hub .a).alive = .serving := by decide +kernel
theorem test_alive_toggle : let s := (onState.put (hu .a .FCL) Fld.FCL_CFG_ALIVE_EN 1).modHub .a (fun x => { x with alive := .serving, aliveNext := 1 })
    aliveHolds s .a = true ∧ (s.hub .a).aliveNext ≤ (s.hub .a).beat + 1 ∧ ((ran (.aliveToggle .a) s).hub .a).aliveLevel = true ∧
    aliveHolds (s.put (hu .a .FCL) Fld.FCL_CFG_ALIVE_EN 0) .a = false := by decide +kernel

/-! ### Power -/

/-- The power controller with feed A in a state and feed B absent, at a beat. -/
def feedState' (a beat : Nat) : State := (onState.put (hu .a .PWR) Fld.PWR_FEED_A_STATE a).modPwr (fun x => { x with beat := beat })

theorem test_feed_change : feedSt (ran (.feedChange .a 3000 165) (feedState' 3 7)) .a = 0 ∧ feedSt (ran (.feedChange .a 5400 165) (feedState' 0 7)) .a = 2 ∧
    feedSt (ran (.feedChange .a 5400 164) (feedState' 0 7)) .a = 0 ∧ feedNext 2 3000 ≠ 2 ∧
    (ran (.feedChange .a 3000 164) (feedState' 2 7)).pwr.feedA.since = 7 := by decide +kernel
theorem test_ride_through_begins : let s := feedState' 3 7
    feedSt s .a = 3 ∧ feedSt s (FeedId.other .a) ≠ 3 ∧ s.dead = none ∧ s.pwr.offUntil = none ∧
    (ran (.feedChange .a 3000 165) s).pwr.dryAt = some 7 := by decide +kernel
theorem test_feed_qualify : let s := feedState' 2 165000000
    feedSt s .a = 2 ∧ s.pwr.feedA.since + (if anyFeed s then 165000000 else 16500) ≤ s.pwr.beat ∧ s.pwr.dryAt.all (fun t0 => decide (s.pwr.beat ≤ t0 + 825000)) = true ∧
    feedSt (ran (.feedQualify .a) s) .a = 3 ∧ feedSt s .b ≠ 2 := by decide +kernel
theorem test_feed_qualify_fast : let s := (feedState' 2 16500).modPwr (fun x => { x with dryAt := some 5 })
    anyFeed s = false ∧ s.pwr.feedA.since + 16500 ≤ s.pwr.beat ∧ s.pwr.dryAt.all (fun t0 => decide (s.pwr.beat ≤ t0 + 825000)) = true ∧
    feedSt (ran (.feedQualify .a) s) .a = 3 ∧ (ran (.feedQualify .a) s).pwr.dryAt = none := by decide +kernel
theorem test_ride_through_ends : let s := (feedState' 0 825001).modPwr (fun x => { x with dryAt := some 0 })
    anyFeed s = false ∧ s.pwr.dryAt = some 0 ∧ 0 + 825000 < s.pwr.beat ∧ (ran .rideThroughExpire s).pwr.running = false := by decide +kernel
theorem test_holdup : (ran (.holdupCharge true) onState).get (hu .a .PWR) Fld.PWR_HOLD_HOLDUP_OK = 1 ∧ onState.pwr.dryAt = none := by decide +kernel
theorem test_pwrcyc : let s := feedState' 3 7
    s.pwr.offUntil = none ∧ (ran (.pwrcycN false 1650000) s).pwr.cycLow = false := by
  decide +kernel
theorem test_power_on : let s := State.reset.put (hu .a .PWR) Fld.PWR_FEED_A_STATE 3
    anyFeed s = true ∧ s.pwr.running = false ∧ s.pwr.offUntil = none ∧ anyFeed State.reset = false := by decide +kernel
theorem test_credit : let s := feedState' 3 825
    s.pwr.beat % 825 = 0 ∧ s.pwr.refillAt ≠ some s.pwr.beat ∧ (ran .creditRefill s).get (hu .a .PWR) Fld.PWR_CREDIT = 1 ∧ (feedState' 3 824).pwr.beat % 825 ≠ 0 := by
  decide +kernel

/-- A module with a feed, 20,000 mA of credit, no domain on, and domain `d` requested, or waking since beat 5 at beat `beat`. -/
def domState (pend : Nat) (waking : List Nat) (beat : Nat) : State :=
  ((((State.reset.put (hu .a .PWR) Fld.PWR_FEED_A_STATE 3).put (hu .a .PWR) Fld.PWR_CREDIT 20000).put (hu .a .PWR) Fld.PWR_DOM_PEND pend).modPwr
    (fun x => { x with beat := beat, waking := waking.map (fun d => (d, 5)) }))

theorem test_admit : let s := domState 12 [] 9
    (pendingDoms s).head? = some 2 ∧ domCharge 2 ≤ (refillCredit s).get (hu .a .PWR) Fld.PWR_CREDIT ∧ s.dead = none ∧ anyFeed s = true ∧
    mget (ran (.domainAdmit 2) s).pwr.waking 2 = some 9 ∧ (ran (.domainAdmit 2) s).get (hu .a .PWR) Fld.PWR_CREDIT = 18000 ∧
    (refillCredit State.reset).get (hu .a .PWR) Fld.PWR_CREDIT < domCharge 2 := by decide +kernel
theorem test_stable_part : let s := domState 0 [7] 9
    mget s.pwr.waking 7 = some 5 ∧ s.pwr.beat ≤ 5 + 165000 ∧ (ran (.domainStable 7) s).domOn 7 = true ∧ mget s.pwr.waking 8 = none := by decide +kernel
theorem test_stable_hub : let s := domState 0 [2] 9
    (s.hub .a).kpl.slots = [{}, {}] ∧ (2 : Fin 32).val = 2 + HubId.num .a := by decide +kernel
theorem test_recovery : let s := domState 0 [2] 9
    (ran (.domainStable 2) s).get (hu .a .KPL) Fld.KPL_STAT_STATE = 3 := by decide +kernel
theorem test_stable_plane : let s := domState 0 [4] 9
    (s.hub (cfgHub s)).kpl.slots = [{}, {}] ∧ (ran (.domainStable 4) s).domOn 4 = false ∧
    (ran (.domainStable 4) s).get (hu .a .KPL) Fld.KPL_RESULT_CODE = 1 := by decide +kernel
theorem test_rail : let s := domState 0 [7] 165006
    5 + 165000 < s.pwr.beat ∧ s.get (pwrUnit s) Fld.BLK_ERR_CLASS = 0 ∧ detectedNow s (pwrUnit s) = [] ∧ (ran (.railTimeout 7) s).get (pwrUnit s) Fld.BLK_ERR_CLASS_SOURCE = 2 := by
  decide +kernel
theorem test_memory_ready : let s := withPln 0 1 onState
    s.powered (tgtUnit 0 6) = true ∧ s.fenced (tgtUnit 0 6) = false ∧ s.on (tgtUnit 0 6) Fld.FMC_STAT_READY = false ∧
    (ran (.memoryReady 0 6) s).get (tgtUnit 0 6) Fld.FMC_STAT_READY = 1 := by decide +kernel
theorem test_dom_on : let s := onState.put (hu .a .PWR) Fld.PWR_DOM_STAT_ON 0xFFFFFF7F
    accepted s hubA (hu .a .PWR) 0x058 0x80 = true ∧ (0x80#32).getLsbD (4 + 7 * 0 + 3) = true ∧ s.domOn (4 + 7 * 0 + 3) = false ∧ s.dead = none ∧
    mget s.pwr.waking (4 + 7 * 0 + 3) = none ∧
    bit ((ran (.pwrDomOn hubA .a 0x80) s).get (hu .a .PWR) Fld.PWR_DOM_PEND) 7 = true := by decide +kernel
theorem test_dom_off : let s := withPln 0 2 onState
    accepted s hubA (hu .a .PWR) 0x05C 0x10 = true ∧ (0x10#32).getLsbD (4 + 7 * 0) = true ∧ (ran (.pwrDomOff hubA .a 0x10) s).domOn 4 = false := by
  decide +kernel
theorem test_module_reset : accepted onState hubA (hu .a .PWR) Fld.PWR_CMD_MODULE_RESET.key (0 ||| Fld.PWR_CMD_MODULE_RESET.mask) = true ∧
    (ran (.moduleReset hubA .a 0) onState).pwr.resetDue = true := by decide +kernel
theorem test_module_reset_acts : let s := onState.modPwr (fun x => { x with resetDue := true })
    s.pwr.resetDue = true ∧ s.dead = none := by decide +kernel
theorem test_plane_due : let s := domState 0 [] 9 |>.modPwr (fun x => { x with planesDue := [1] })
    s.pwr.resetDue = false ∧ s.dead = none ∧ s.pwr.planesDue = [(1 : PlaneId).val] ∧
    bit ((ran (.beat .power) s).get (hu .a .PWR) Fld.PWR_DOM_PEND) 11 = true := by decide +kernel
theorem test_plane_reset : let s := withPln 1 2 onState
    accepted s hubA (hu .a .PWR) Fld.PWR_CMD_PLANE_RESET.key (0x10 ||| Fld.PWR_CMD_PLANE_RESET.mask) = true ∧ bits (0x10#32).toNat 5 4 = 1 ∧
    (ran (.planeReset hubA .a 0x10) s).domOn 11 = false ∧ (ran (.planeReset hubA .a 0x10) s).domOn 4 = true := by decide +kernel
theorem test_hub_reset : accepted onState hubA (hu .a .PWR) Fld.PWR_CMD_HUB_RESET.key (0x40 ||| Fld.PWR_CMD_HUB_RESET.mask) = true ∧
    (ran (.hubReset hubA .a 0x40) onState).domOn 3 = false := by decide +kernel
theorem test_fence_off : let s := onState.put (pu 2 .PLN) Fld.BLK_FENCE_FENCED 1
    s.planeFenced 2 = true ∧ (ran (.fencePowerOff (pu 2 .PLN)) s).domOn 18 = false ∧ (ran (.fencePowerOff (pu 2 .PLN)) s).planeFenced 2 = true ∧
    onState.planeFenced 2 = false := by decide +kernel
theorem test_i3c : let s := ran (.entdaa 9) { onState with ident := { onState.ident with serial := 0x0000000200000001 } }
    onState.domOn 0 = true ∧ s.pwr.i3cAddr = some 9 ∧ (ran (.i3cRead 9 0 2) s).out = s.out ++ [.i3c [1, 0, 0, 0, 2, 0, 0, 0]] ∧ debugOpen s = false := by
  decide +kernel
theorem test_i3c_debug : let s := (ran (.entdaa 9) onState).put (hu .a .KPL) Fld.KPL_STAT_DBG_LEVEL 1
    debugOpen s = true ∧ s.domOn 0 = true ∧ s.pwr.i3cAddr = some 9 ∧ (ran (.i3cWrite 9 0x80 [7]) s).out = s.out ++ [.debug 0x80 [7]] := by decide +kernel

/-! ### Trust -/

/-- KPL_SRC of Hub A names `len` bytes of plane 0's memory at 0, and a command is in progress. -/
def kplState (len cmd : Nat) : State :=
  (onState.put (hu .a .KPL) Fld.KPL_SRC_LEN len).modHub .a (fun x => { x with kpl := { x.kpl with cmd := some (cmd, 0) } })

theorem test_kpl_cmd : let s := onState.put (hu .a .KPL) Fld.KPL_SRC_LEN 8
    accepted s hubA (hu .a .KPL) 0x044 1 = true ∧ accepted s hubA (hu .a .KPL) 0x044 6 = true ∧ accepted s hubA (hu .a .KPL) 0x044 7 = true ∧
    (ran (.verify hubA .a 0) s).get (hu .a .KPL) Fld.KPL_STAT_STATE = 2 ∧ ((ran (.claim hubA .a 0) s).hub .a).kpl.cmd = some (4, 0) ∧
    (onState.hub .a).kpl.cmd = none := by decide +kernel
theorem test_kpl_verify : let s := kplState 8 1
    hubCarries s .a (kplPlane s .a) = false ∧ imgFormatOk (kplImage s .a) = false ∧ (ran (.kplCmdDone .a) s).get (hu .a .KPL) Fld.KPL_RESULT_CODE = 1 ∧
    (ran (.kplCmdDone .a) s).get (hu .a .KPL) Fld.KPL_STAT_STATE = 3 := by decide +kernel
theorem test_kpl_image : let s := (((onState.put (hu .a .KPL) Fld.KPL_SRC_LEN 8).put (hu .a .HUB) (Fld.HUB_LINK_CTL_EN.at 0) 1).put (hu .a .HUB)
      (Fld.HUB_LINK_STAT_UP.at 0) 1).modPl 0 (fun x => { x with mem := [(3, 9)] })
    kplPlane s .a = 0 ∧ kplAddr s .a = 0 ∧ hubCarries s .a 0 = true ∧ keyHolds s 0 0 = false ∧ memArmed s 0 = false ∧
    poisonedAt s 0 0 8 = false ∧ (s.pl 0).hostQ = [] ∧
    ((ran (.verify hubA .a 0) s).hub .a).kpl.image = some [0, 0, 0, 9, 0, 0, 0, 0] := by decide +kernel
theorem test_kpl_unlock : let s := kplState 8 6
    verifyImage s .a (· = 6) (kplImage s .a) ≠ 0 ∧ (ran (.kplCmdDone .a) s).get (hu .a .KPL) Fld.KPL_STAT_DBG_FAIL = 1 := by decide +kernel
theorem test_kpl_pref : ((ran (.kplCmdDone .a) ((kplState 8 7).put (hu .a .KPL) Fld.KPL_SRC_HI_PREF 1)).hub .a).kpl.flash.pref = 1 := by decide +kernel

/-- Hub A's Keyplate after a negotiation. -/
def spdmState (s : Spdm) : State := onState.modHub .a (fun x => { x with kpl := { x.kpl with spdm := s } })

theorem test_get_version : (ran (.getVersion .a [0x10, 0x84, 0, 0]) onState).out = [.doe .a [0x10, 4, 0, 0, 0, 1, 0, 0x12]] := by decide +kernel
theorem test_spdm_order : (onState.hub .a).kpl.spdm.version = false ∧ (onState.hub .a).kpl.spdm.caps = false ∧
    (ran (.getCapabilities .a [0x12, 0xE1]) onState).out = [.doe .a [0x12, 0x7F, 4, 0]] ∧
    (ran (.getDigests .a [0x12, 0x81]) onState).out = [.doe .a [0x12, 0x7F, 4, 0]] := by decide +kernel
theorem test_spdm_ready : let s := spdmState { version := true, caps := true, algs := true }
    ((ran (.negotiateAlgorithms .a [0x12, 0xE3]) s).hub .a).kpl.spdm.algs = true ∧
    (ran (.getCertificate .a [0x12, 0x82, 1]) s).out = [.doe .a [0x12, 0x7F, 1, 0]] ∧
    (ran (.challenge .a [0x12, 0x83, 1]) s).out = [.doe .a [0x12, 0x7F, 1, 0]] ∧
    (ran (.getMeasurements .a [0x12, 0xE0, 0, 12]) s).out = [.doe .a [0x12, 0x7F, 1, 0]] := by decide +kernel
theorem test_spdm_forms : le ([0x12, 0x82, 0, 0] : List Byte) 2 1 % 16 = 0 ∧ le ([0x12, 0x83, 0, 0] : List Byte) 2 1 = 0 ∧
    le ([0x12, 0xE0, 0, 10] : List Byte) 3 1 = 10 := by decide +kernel
theorem test_spdm_unsupported : spdmKnown (spdmCode [0x12, 0xE4]) = false ∧ spdmKnown (spdmCode [0x12, 0x84]) = true ∧
    (ran (.spdmUnsupported .a [0x12, 0xE4]) onState).out = [.doe .a [0x12, 0x7F, 7, 0xE4]] ∧ State.reset.powered (hu .a .KPL) = false := by decide +kernel

/-! ### Management cores and counters -/

theorem test_mgc : accepted onState hubA (pu 1 .MGC) 0x040 0x03 = true ∧
    (ran (.mgcRun hubA (.plane 1) 0x03) onState).get (pu 1 .MGC) Fld.MGC_STAT_RUNNING = 3 ∧
    (ran (.mgcHalt hubA (.plane 1) 0x10) (ran (.mgcRun hubA (.plane 1) 0x03) onState)).get (pu 1 .MGC) Fld.MGC_STAT_RUNNING = 2 := by decide +kernel
theorem test_mgc_refused : reaches onState (.planeCore 1) (pu 1 .MGC) 0x040 = true ∧
    (1#32).toNat % 16 ≠ 0 ∧ (ran (.mgcRun (.planeCore 1) (.plane 1) 1) onState).get (pu 1 .MGC) Fld.BLK_STAT_REJ_CODE = 5 := by decide +kernel
theorem test_kick : let s := withFt 1 40 (onState.put (pu 1 .MGC) Fld.MGC_STAT_RUNNING 2)
    accepted s hubA (pu 1 .MGC) 0x048 2 = true ∧ (2#32).getLsbD 1 = true ∧ bit (s.get (pu 1 .MGC) Fld.MGC_STAT_RUNNING) 1 = true ∧
    s.beats 1 ≤ mgetD (s.pl 1).mgcDog 1 0 + 16500000 ∧ mget ((ran (.kick hubA (.plane 1) 2) s).pl 1).mgcDog 1 = some 40 := by decide +kernel
theorem test_mgc_watchdog : let s := withFt 1 16500001 (onState.put (pu 1 .MGC) Fld.MGC_STAT_RUNNING 2)
    s.powered (pu 1 .MGC) = true ∧ s.fenced (pu 1 .MGC) = false ∧ bit (s.get (pu 1 .MGC) Fld.MGC_STAT_RUNNING) 1 = true ∧
    mgetD (s.pl 1).mgcDog 1 0 + 16500000 < s.beats 1 ∧ (ran (.mgcWatchdog (pu 1 .MGC) 1) s).fenced (pu 1 .MGC) = true ∧
    (ran (.mgcWatchdog (pu 1 .MGC) 1) s).get (pu 1 .MGC) Fld.MGC_STAT_RUNNING = 0 ∧ onState.beats 1 ≤ mgetD (onState.pl 1).mgcDog 1 0 + 16500000 := by
  decide +kernel
theorem test_snap : accepted onState hubA (pu 0 .PMU) Fld.PMU_CTL_SNAP.key (0 ||| Fld.PMU_CTL_SNAP.mask) = true ∧
    ((ran (.snap hubA 0 0) onState).pl 0).snapDue = true := by decide +kernel
theorem test_clr_all : let s := onState.put (pu 0 .PMU) (Fld.PMU_C_CNT_LO.at 3) 9
    accepted s hubA (pu 0 .PMU) Fld.PMU_CTL_CLR_ALL.key (0 ||| Fld.PMU_CTL_CLR_ALL.mask) = true ∧ cntOf s 0 3 = 9 := by decide +kernel
theorem test_td_clr : let s := { onState with cfg := { onState.cfg with opmode := 2 } }
    let t := s.put (pu 0 .PMU) (Fld.PMU_TDK_LO_TD_LO.at 1) 9
    accepted t hubA (pu 0 .PMU) Fld.PMU_TD_CTL_TD_CLR.key (0 ||| Fld.PMU_TD_CTL_TD_CLR.mask) = true ∧
    (ran (.tdClr hubA 0 0) t).get (pu 0 .PMU) (Fld.PMU_TDK_LO_TD_LO.at 1) = 0 := by decide +kernel
theorem test_hist_clr : let s := onState.put (pu 0 .PMU) (Fld.PMU_HIST_N_SAMPLES.at 2) 9
    accepted s hubA (pu 0 .PMU) (Fld.PMU_HIST_CFG_CLR.at 2).key (0 ||| (Fld.PMU_HIST_CFG_CLR.at 2).mask) = true ∧
    (ran (.clr hubA 0 2 0) s).get (pu 0 .PMU) (Fld.PMU_HIST_N_SAMPLES.at 2) = 0 := by decide +kernel

/-- The module in the deadbolt state with feed A OK. -/
def deadState : State := { feedState' 3 7 with dead := some { record := ⟨0x125, 2, 1, 5⟩, at' := ⟨1, 1⟩ } }

theorem test_deadbolt_stays : deadState.dead.isSome = true ∧ (ran .creditRefill deadState).dead = deadState.dead ∧
    (ran (.planeReset hubA .a 0x10) deadState).dead = deadState.dead := by decide +kernel

end Sys2Proof.Tests
end

section
/-! SUPPORT. The registers of the state at reset, and the statement about their Reset columns (R13). -/

namespace Sys2Proof.Machine

/-- At reset nothing is stored, so every register reads as its reset value. -/
@[simp] theorem State.reset_reg (u off : Nat) : State.reset.reg u off = resetVal State.reset (regKey u off).1 (regKey u off).2 := rfl

/-- The Reset column of PWR_DOM_STAT in Table 15.11. -/
theorem constReset_domStat : constReset (fieldsAt .PWR Fld.PWR_DOM_STAT_ON.key) = 3 := by decide

/-- No source takes the place of the Reset column of PWR_DOM_STAT, whatever the state. -/
theorem resetVal_domStat (s : State) : resetVal s (hu .a .PWR) Fld.PWR_DOM_STAT_ON.key = 3 := by
  have hblk : unitBlk (hu .a .PWR) = some (.PWR, 0) := by decide
  have hhub : unitHub (hu .a .PWR) = some .a := by decide
  have hsrc : hubSrcReset s .a Fld.PWR_DOM_STAT_ON.key .PWR = none := by
    simp [hubSrcReset, RField.key, Fld.PWR_DOM_STAT_ON]
  simp only [resetVal, hblk, hhub, hsrc, ite_self, Option.getD_none, constReset_domStat]

/-- Domains STBY and MCLK (Table 15.2), bits 0 and 1, read as on at reset. -/
theorem State.reset_get_domStatOn : State.reset.get (hu .a .PWR) Fld.PWR_DOM_STAT_ON = 3 := by
  have hkey : regKey (hu .a .PWR) Fld.PWR_DOM_STAT_ON.key = (hu .a .PWR, Fld.PWR_DOM_STAT_ON.key) := by decide
  have hfield : fieldGet 3 Fld.PWR_DOM_STAT_ON = 3 := by decide
  rw [State.get, State.reset_reg, hkey, resetVal_domStat, hfield]

/-- Refutes O6: the Reset column of PWR_DOM_STAT (offset 0x050 of PWR) is 0x0000_0003, so the domains STBY and MCLK are on at
reset, where the statement says that no domain is on. -/
theorem not_resetColumnValues : ¬ Obligations.ResetColumnValues := by
  unfold Obligations.ResetColumnValues
  rintro ⟨-, hon, -⟩
  rw [State.reset_get_domStatOn] at hon
  exact absurd hon (by decide)

end Sys2Proof.Machine
end

section
/-! SUPPORT. Accepted writes of a block's own registers: what the register holds, what stays, and the effect that the block answers with
(R12, R46, R52, R54). -/

namespace Sys2Proof.Machine

/-! ### Keys and fields -/

/-- The key of a register keeps its place within the page. -/
theorem regKey_snd_mod (u off : Nat) : (regKey u off).2 % 4096 = off % 4096 := by
  unfold regKey
  split_ifs <;> simp

/-- Registers at different places within a page are different registers, whatever their units. -/
theorem regKey_ne_of_mod {u u' off off' : Nat} (h : off % 4096 ≠ off' % 4096) : regKey u off ≠ regKey u' off' := fun hk =>
  h (by rw [← regKey_snd_mod u off, hk, regKey_snd_mod])

/-- A field reads the bits under its mask alone. -/
theorem fieldGet_congr {w v : Word} {f : RField} (h : w &&& f.mask = v &&& f.mask) : fieldGet w f = fieldGet v f := by
  have hbits : w.extractLsb' f.lo f.width = v.extractLsb' f.lo f.width := by
    apply BitVec.eq_of_getLsbD_eq
    intro i hi
    rw [BitVec.getLsbD_extractLsb', BitVec.getLsbD_extractLsb']
    by_cases h32 : f.lo + i < 32
    · have hm : f.mask.getLsbD (f.lo + i) = true := by simp [mask_getLsbD, h32, hi]
      have hb := congrArg (·.getLsbD (f.lo + i)) h
      simp only [BitVec.getLsbD_and, hm, Bool.and_true] at hb
      rw [hb]
    · rw [BitVec.getLsbD_of_ge _ _ (by omega), BitVec.getLsbD_of_ge _ _ (by omega)]
  rw [fieldGet, fieldGet, hbits]

/-- A field that the write may change, and that no W1C field shares, takes the written value (R12, R54). -/
theorem fieldGet_mergeWrite {fs : List RField} {locked : Bool} {old v : Word} {f : RField}
    (hrw : accMask fs (fun a => a = .rw || (a = .rwl && !locked)) &&& f.mask = f.mask)
    (hw1c : accMask fs (fun a => a = .w1c) &&& f.mask = 0) : fieldGet (mergeWrite fs locked old v) f = fieldGet v f := by
  apply fieldGet_congr
  apply BitVec.eq_of_getLsbD_eq
  intro i hi
  have h1 := congrArg (·.getLsbD i) hrw
  have h2 := congrArg (·.getLsbD i) hw1c
  simp only [BitVec.getLsbD_and] at h1 h2
  simp only [mergeWrite, BitVec.getLsbD_and, BitVec.getLsbD_or, BitVec.getLsbD_not, hi, decide_true, Bool.true_and]
  grind

/-- A one-bit field is its bit of the word. -/
theorem fieldGet_bit {w : Word} {f : RField} (h : f.width = 1) : fieldGet w f = b2n (w.getLsbD f.lo) := by
  rw [fieldGet, BitVec.extractLsb'_toNat, h, ← BitVec.testBit_toNat, Nat.testBit_eq_decide_div_mod_eq, b2n, Nat.shiftRight_eq_div_pow]
  by_cases hb : w.toNat / 2 ^ f.lo % 2 = 1
  · simp [hb]
  · simp [hb]; omega

/-! ### The store and the effect -/

/-- The word that a register keeps after an accepted write. -/
def keptWord (s : State) (u : Nat) (b : Blk) (off : Nat) (v : Word) : Word :=
  mergeWrite (regFields b off) (s.on u Fld.BLK_CTRL_LOCK) (s.reg u off) v

/-- The word that a write shows its block: what the register keeps, with the commands written. -/
def shownWord (s : State) (u : Nat) (b : Blk) (off : Nat) (v : Word) : Word :=
  keptWord s u b off v ||| (v &&& accMask (regFields b off) (fun a => a = .wo || a = .w1c))

/-- The state after the store of an accepted write, before its effect: the register holds its word, and BLK_SEQ has counted it. -/
def afterStore (s : State) (u : Nat) (b : Blk) (off : Nat) (v : Word) : State :=
  (s.setReg u off (keptWord s u b off v)).inc u Fld.BLK_SEQ

/-- A write meets no locked field with another value, and its register is one that the block stores. -/
structure PlainWrite (s : State) (u : Nat) (b : Blk) (n off : Nat) (v : Word) : Prop where
  own : 0x40 ≤ off % 4096
  unlocked : lockHit (regFields b off) (s.on u Fld.BLK_CTRL_LOCK) (s.reg u off) v = false
  stored : storeSkips s u b n off v = false

/-- An accepted plain write of a plane block's register is stored and has the block's effect. -/
theorem acceptWrite_plane {acc : Accessor} {u n off : Nat} {b : Blk} {v : Word} {s : State} {p : PlaneId} (hu : unitPlane u = some p)
    (h : PlainWrite s u b n off v) :
    acceptWrite acc u b n off v s = planeEffect p b n off (shownWord s u b off v) (s.reg u off) (afterStore s u b off v) := by
  obtain ⟨hown, hlock, hst⟩ := h
  have h8 : off % 4096 ≠ 0x008 := by omega
  have h40 : ¬ off % 4096 < 0x40 := by omega
  simp [acceptWrite, h8, h40, hlock, hst, hu, shownWord, keptWord, afterStore]

/-- An accepted plain write of a hub block's register is stored and has the block's effect. -/
theorem acceptWrite_hub {acc : Accessor} {u n off : Nat} {b : Blk} {v : Word} {s : State} {k : HubId} (hp : unitPlane u = none)
    (hu : unitHub u = some k) (h : PlainWrite s u b n off v) :
    acceptWrite acc u b n off v s = hubEffect acc k b off (shownWord s u b off v) (s.reg u off) (afterStore s u b off v) := by
  obtain ⟨hown, hlock, hst⟩ := h
  have h8 : off % 4096 ≠ 0x008 := by omega
  have h40 : ¬ off % 4096 < 0x40 := by omega
  simp [acceptWrite, h8, h40, hlock, hst, hp, hu, shownWord, keptWord, afterStore]

/-- What an accepted plain write of a plane block's register answers, with the interrupts of the block latched after it. -/
theorem regWrite_plane {acc : Accessor} {u n off : Nat} {b : Blk} {v : Word} {s : State} {p : PlaneId} (hb : unitBlk u = some (b, n))
    (hu : unitPlane u = some p) (hpage : off < 4096 * pagesOf b) (hacc : accepted s acc u off v = true)
    (h : PlainWrite (arrive acc u s) u b n off v) :
    ∃ was, regWrite acc u off v s = latchAfter was u (planeEffect p b n off (shownWord (arrive acc u s) u b off v)
      ((arrive acc u s).reg u off) (afterStore (arrive acc u s) u b off v)) :=
  ⟨_, by rw [regWrite_accepted hb hpage hacc, acceptWrite_plane hu h]⟩

/-- What an accepted plain write of a hub block's register answers; it travels over no hub link. -/
theorem regWrite_hub {acc : Accessor} {u n off : Nat} {b : Blk} {v : Word} {s : State} {k : HubId} (hb : unitBlk u = some (b, n))
    (hp : unitPlane u = none) (hu : unitHub u = some k) (hpage : off < 4096 * pagesOf b) (hacc : accepted s acc u off v = true)
    (h : PlainWrite s u b n off v) :
    ∃ was, regWrite acc u off v s = latchAfter was u (hubEffect acc k b off (shownWord s u b off v) (s.reg u off) (afterStore s u b off v)) := by
  have harr : arrive acc u s = s := by cases acc <;> simp [arrive, hp]
  exact ⟨_, by rw [regWrite_accepted hb hpage hacc, harr, acceptWrite_hub hp hu h]⟩

@[simp] theorem arrive_pl (acc : Accessor) (u : Nat) (s : State) (p : PlaneId) : (arrive acc u s).pl p = s.pl p := by
  unfold arrive linkRequest
  split <;> simp

@[simp] theorem afterStore_pl (s : State) (u : Nat) (b : Blk) (off : Nat) (v : Word) (p : PlaneId) :
    (afterStore s u b off v).pl p = s.pl p := by simp [afterStore]

/-- The register written holds its word. -/
theorem afterStore_get_own {s : State} {u : Nat} {b : Blk} {off : Nat} {v : Word} {f : RField} (hf : f.key = off)
    (h : 0x40 ≤ off % 4096) : (afterStore s u b off v).get u f = fieldGet (keptWord s u b off v) f := by
  have hseq : regKey u Fld.BLK_SEQ.key ≠ regKey u f.key := regKey_ne_of_mod (by rw [hf]; simp [RField.key, Fld.BLK_SEQ]; omega)
  rw [afterStore, State.inc, State.get_put_ne _ _ hseq, State.get, hf, State.reg_setReg_same]

/-- Every register but the one written and BLK_SEQ stays. -/
theorem afterStore_get_ne {s : State} {u u' : Nat} {b : Blk} {off : Nat} {v : Word} {f : RField} (hf : off % 4096 ≠ f.key % 4096)
    (h : f.key % 4096 ≠ 0x038) : (afterStore s u b off v).get u' f = s.get u' f := by
  have hseq : regKey u Fld.BLK_SEQ.key ≠ regKey u' f.key := regKey_ne_of_mod (Ne.symm h)
  rw [afterStore, State.inc, State.get_put_ne _ _ hseq, State.get, State.reg_setReg_ne _ _ (regKey_ne_of_mod hf), State.get]

end Sys2Proof.Machine
end

section
/-! SUPPORT. A class C fault of a block whose sources take no part in escalation never raises the log to class U (R399, Table 14.4): what
the log holds after the detections of a beat depends on their classes alone. -/

namespace Sys2Proof.Machine

/-- The class that a log of a block without escalating sources holds after one more detection. -/
def heldAfter (held cls : Nat) : Nat := if held = 0 then cls else if cls = 3 then 3 else held

theorem LogSave.capture_held (ft beat cack : Nat) (x : LogSave) (d : Detection) : (x.capture ft beat cack d).held = classCode d.cls := by
  have hc : classCode d.cls % 2 ^ Fld.BLK_ERR_CLASS.width = classCode d.cls := by cases d.cls <;> decide
  simp only [LogSave.capture, LogSave.held]
  rw [fieldGet_fieldSet_apart _ _ _ _ (by decide) (by decide) (by decide), fieldGet_fieldSet_apart _ _ _ _ (by decide) (by decide) (by decide),
    fieldGet_fieldSet_same _ _ _ (by decide), hc]

/-- A field of BLK_ERR_CLASS beside CLASS leaves CLASS alone. -/
theorem fieldGet_class_beside (w : Word) (v : Nat) :
    fieldGet (fieldSet w Fld.BLK_ERR_CLASS_OVF v) Fld.BLK_ERR_CLASS = fieldGet w Fld.BLK_ERR_CLASS ∧
      fieldGet (fieldSet w Fld.BLK_ERR_CLASS_C_COUNT v) Fld.BLK_ERR_CLASS = fieldGet w Fld.BLK_ERR_CLASS :=
  ⟨fieldGet_fieldSet_apart _ _ _ _ (by decide) (by decide) (by decide), fieldGet_fieldSet_apart _ _ _ _ (by decide) (by decide) (by decide)⟩

theorem LogSave.add_held {b : Blk} (hesc : ∀ src, escSource b src = false) (ft beat cack : Nat) (x : LogSave) (d : Detection) :
    (x.add b ft beat cack d).held = heldAfter x.held (classCode d.cls) := by
  have hraise : fieldGet (fieldSet (fieldSet x.cls Fld.BLK_ERR_CLASS_OVF 1) Fld.BLK_ERR_CLASS 3) Fld.BLK_ERR_CLASS = 3 := by
    rw [fieldGet_fieldSet_same _ _ _ (by decide)]; decide
  by_cases h0 : x.held = 0
  · simp [LogSave.add, h0, LogSave.capture_held, heldAfter]
  · have h0' : fieldGet x.cls Fld.BLK_ERR_CLASS ≠ 0 := h0
    cases hc : d.cls with
    | none | u | c => simp [LogSave.add, LogSave.held, h0', hc, hesc, heldAfter, classCode, fieldGet_class_beside]
    | f =>
      by_cases h3 : fieldGet x.cls Fld.BLK_ERR_CLASS = 3
      · simp [LogSave.add, LogSave.held, h3, hc, hesc, heldAfter, classCode, fieldGet_class_beside]
      · simp [LogSave.add, LogSave.held, LogSave.raise, h0', h3, hc, heldAfter, classCode, hraise]

/-- The class that such a log holds after several detections. -/
def heldAfterAll (held : Nat) (ds : List Detection) : Nat := ds.foldl (fun h d => heldAfter h (classCode d.cls)) held

theorem foldl_add_held {b : Blk} (hesc : ∀ src, escSource b src = false) (ft beat cack : Nat) (x : LogSave) (ds : List Detection) :
    (ds.foldl (LogSave.add b ft beat cack) x).held = heldAfterAll x.held ds := by
  induction ds generalizing x with
  | nil => rfl
  | cons d ds ih => rw [List.foldl_cons, ih, LogSave.add_held hesc]; rfl

/-- A class that is held stays, or rises to F. -/
theorem heldAfterAll_of_held {h : Nat} (h0 : h ≠ 0) (ds : List Detection) : heldAfterAll h ds = h ∨ heldAfterAll h ds = 3 := by
  induction ds generalizing h with
  | nil => exact .inl rfl
  | cons d ds ih =>
    have hstep : heldAfter h (classCode d.cls) = h ∨ heldAfter h (classCode d.cls) = 3 := by
      simp only [heldAfter, h0, if_false]
      split <;> simp
    have hrest : heldAfterAll h (d :: ds) = heldAfterAll (heldAfter h (classCode d.cls)) ds := rfl
    rcases hstep with he | he
    · rw [hrest, he]; exact ih h0
    · rw [hrest, he]; exact .inr (by simpa using ih (h := 3) (by decide))

/-- A class C detection before others raises a free log to C, from where it does not become U, and adds nothing to a held one. -/
theorem heldAfterAll_first {h : Nat} {ds : List Detection} (hds : h = 0 ∨ heldAfterAll h ds ≠ 2) :
    heldAfterAll (heldAfter h 1) ds ≠ 2 := by
  by_cases h0 : h = 0
  · rcases heldAfterAll_of_held (h := 1) (by decide) ds with he | he <;> simp [heldAfter, h0, he]
  · simpa [heldAfter, h0] using hds

/-- Where the detections of a beat leave class C held, one more of class C among them does not leave class U. -/
theorem heldAfterAll_addDetection {h : Nat} {d : Detection} (hd : d.cls = .c) {ds : List Detection} (h1 : heldAfterAll h ds = 1) :
    heldAfterAll h (addDetection d ds) ≠ 2 := by
  induction ds generalizing h with
  | nil =>
    have hh : h = 1 := h1
    simp [addDetection, heldAfterAll, hd, hh, heldAfter, classCode]
  | cons e r ih =>
    have hcode : classCode d.cls = 1 := by rw [hd]; rfl
    have hcons : ∀ (f : Detection) (l : List Detection), heldAfterAll h (f :: l) = heldAfterAll (heldAfter h (classCode f.cls)) l :=
      fun _ _ => rfl
    unfold addDetection
    split_ifs with hlt hsrc hcls
    · rw [hcons, hcode]
      exact heldAfterAll_first (.inr (by omega))
    · have he : classCode e.cls = 0 := by omega
      rw [hcons, he] at h1
      rw [hcons, hcode]
      refine heldAfterAll_first ?_
      by_cases h0 : h = 0
      · exact .inl h0
      · have hkeep : heldAfter h 0 = h := by simp [heldAfter, h0]
        rw [hkeep] at h1
        exact .inr (by omega)
    · omega
    · exact ih h1

theorem escSource_FTM (src : Nat) : escSource .FTM src = false := by simp [escSource, sourcesOf]

end Sys2Proof.Machine
end

section
/-! SUPPORT. The lock states of fabric time (Table 3.2) leave FTM_CFG alone. -/

namespace Sys2Proof.Machine

/-! ### Where the registers stand -/

theorem unitBlk_PLN (p : PlaneId) : unitBlk (pu p .PLN) = some (.PLN, 0) := by revert p; decide
theorem unitBlk_FTM (p : PlaneId) : unitBlk (pu p .FTM) = some (.FTM, 0) := by revert p; decide
theorem unitBlk_HUB (h : HubId) : unitBlk (hu h .HUB) = some (.HUB, 0) := by cases h <;> decide
theorem unitPlane_PLN (p : PlaneId) : unitPlane (pu p .PLN) = some p := by revert p; decide
theorem unitPlane_FTM (p : PlaneId) : unitPlane (pu p .FTM) = some p := by revert p; decide
theorem unitPlane_hu (h : HubId) (b : Blk) : unitPlane (hu h b) = none := by cases h <;> cases b <;> decide
theorem unitHub_HUB (h : HubId) : unitHub (hu h .HUB) = some h := by cases h <;> decide

/-- No block of a plane is the HUB block that counts the requests of an access. -/
theorem pu_ne_hub (p : PlaneId) (b : Blk) : pu p b ≠ 0x400 ∧ pu p b ≠ 0x410 := by
  have hp := p.isLt
  cases b <;> simp only [pu, Blk.code] <;> omega

/-! ### The log -/

/-- A log lies in the page's header. -/
theorem setLog_reg (u : Nat) (x : LogSave) (s : State) {u' off : Nat} (h : 0x40 ≤ off % 4096) :
    (setLog u x s).reg u' off = s.reg u' off := by
  have hne : ∀ o < 0x40, regKey u o ≠ regKey u' off := fun o ho => regKey_ne_of_mod (by omega)
  simp only [setLog, State.modRp_reg]
  repeat rw [State.reg_setReg_ne _ _ (hne _ (by decide))]

theorem setLog_logNow_cls (u : Nat) (x : LogSave) (s : State) : (logNow (setLog u x s) u).cls = x.cls := by
  simp only [logNow, setLog, State.modRp_reg]
  repeat rw [State.reg_setReg_ne _ _ (regKey_ne_of_mod (by decide))]
  rw [State.reg_setReg_same]

theorem logDetection_reg (u : Nat) (b : Blk) (d : Detection) (s : State) {u' off : Nat} (h : 0x40 ≤ off % 4096) :
    (logDetection u b d s).reg u' off = s.reg u' off := by
  rw [logDetection, State.modRp_reg, setLog_reg _ _ _ h]

/-- What a log holds after a detection: the detections of the beat, applied to the log before them. -/
theorem logDetection_held (u : Nat) (b : Blk) (d : Detection) (s : State) :
    (logNow (logDetection u b d s) u).held = (settleLog s u b (logBase s u) (addDetection d (detectedNow s u))).held := by
  have hcls : (logNow (logDetection u b d s) u).cls = (settleLog s u b (logBase s u) (addDetection d (detectedNow s u))).cls :=
    (State.modRp_reg _ _ _ _ _).trans (setLog_logNow_cls u _ s)
  rw [LogSave.held, LogSave.held, hcls]

/-- A detection of a block that is no collector touches no register but the log (R393, R408). -/
theorem logOrDead_reg {u : Nat} {b : Blk} (hb : b ≠ .FCL) (d : Detection) (s : State) {u' off : Nat} (h : 0x40 ≤ off % 4096) :
    (logOrDead u b d s).reg u' off = s.reg u' off := by
  simp only [logOrDead, hb, if_false]
  split
  · rw [State.modRp_reg, logDetection_reg _ _ _ _ h]
  · exact logDetection_reg _ _ _ _ h

theorem logOrDead_held {u : Nat} {b : Blk} (hb : b ≠ .FCL) (d : Detection) (s : State) :
    (logNow (logOrDead u b d s) u).held = (logNow (logDetection u b d s) u).held := by
  simp only [logOrDead, hb, if_false]
  split
  · simp [LogSave.held, logNow]
  · rfl

/-- A class C fault of FTM does not escalate: its sources take no part in it (Table 14.2). -/
theorem detectFault_FTM (p : PlaneId) {d : Detection} (hd : d.cls = .c) (s : State) :
    detectFault (pu p .FTM) d s = react (pu p .FTM) .FTM d.src d.cls d.loc d.detail (logOrDead (pu p .FTM) .FTM d s) := by
  have hno : (settleLog s (pu p .FTM) .FTM (logBase s (pu p .FTM)) (detectedNow s (pu p .FTM))).held = 1 →
      (logNow (logOrDead (pu p .FTM) .FTM d s) (pu p .FTM)).held ≠ 2 := by
    rw [logOrDead_held (by decide), logDetection_held, settleLog, settleLog, foldl_add_held escSource_FTM, foldl_add_held escSource_FTM]
    exact heldAfterAll_addDetection hd
  have hstay : ¬ (d.cls = .c ∧ (settleLog s (pu p .FTM) .FTM (logBase s (pu p .FTM)) (detectedNow s (pu p .FTM))).held = 1 ∧
      (logNow (logOrDead (pu p .FTM) .FTM d s) (pu p .FTM)).held = 2) := fun ⟨_, h1, h2⟩ => hno h1 h2
  simp only [detectFault, unitBlk_FTM, hstay, if_false]

/-! ### FTM_CFG -/

/-- The register FTM_CFG of a plane. -/
def ftmCfg (s : State) (p : PlaneId) : Word := s.reg (pu p .FTM) 0x040

/-- A field of another register leaves FTM_CFG alone. -/
theorem ftmCfg_put (s : State) (u : Nat) {f : RField} (v : Nat) (p : PlaneId) (h : f.key % 4096 ≠ 0x040) :
    ftmCfg (s.put u f v) p = ftmCfg s p := State.reg_put_ne s v (regKey_ne_of_mod (by simpa using h))

@[simp] theorem ftmCfg_modPl (s : State) (q : PlaneId) (f : Plane → Plane) (p : PlaneId) : ftmCfg (s.modPl q f) p = ftmCfg s p :=
  State.modPl_reg _ _ _ _ _

@[simp] theorem ftmCfg_modFtm (s : State) (q : PlaneId) (f : Ftm → Ftm) (p : PlaneId) : ftmCfg (modFtm s q f) p = ftmCfg s p :=
  ftmCfg_modPl _ _ _ _

@[simp] theorem ftmCfg_setFtmState (q : PlaneId) (st : Nat) (s : State) (p : PlaneId) : ftmCfg (setFtmState q st s) p = ftmCfg s p := by
  simp only [setFtmState]
  split <;> simp only [ftmCfg_put _ _ _ _ (show Fld.FTM_STAT_SRC.key % 4096 ≠ 0x040 by decide),
    ftmCfg_put _ _ _ _ (show Fld.PLN_STATE_FT_LOCKED.key % 4096 ≠ 0x040 by decide),
    ftmCfg_put _ _ _ _ (show Fld.FTM_STAT_STATE.key % 4096 ≠ 0x040 by decide)]

@[simp] theorem ftmCfg_enterHoldover (q : PlaneId) (s : State) (p : PlaneId) : ftmCfg (enterHoldover q s) p = ftmCfg s p := by
  rw [enterHoldover, ftmCfg_modPl, ftmCfg_put _ _ _ _ (by decide), ftmCfg_put _ _ _ _ (by decide)]

@[simp] theorem ftmCfg_useSource (q : PlaneId) (src : Option TimeSource) (s : State) (p : PlaneId) :
    ftmCfg (useSource q src s) p = ftmCfg s p := by
  simp only [useSource]
  split
  · rw [ftmCfg_put _ _ _ _ (by decide), ftmCfg_put _ _ _ _ (by decide), ftmCfg_modFtm]
  · rw [ftmCfg_put _ _ _ _ (by decide), ftmCfg_modFtm]

/-- REF_LOST and UPSTREAM_LOST reach FTM_STAT and PLN_STATE only. -/
theorem ftmCfg_detect (q : PlaneId) {src : Nat} (hsrc : src = 1 ∨ src = 2) (s : State) (p : PlaneId) :
    ftmCfg (detect (pu q .FTM) src .c 0 0 s) p = ftmCfg s p := by
  have hlog : ftmCfg (logOrDead (pu q .FTM) .FTM { src := src, cls := .c, loc := 0, detail := 0 } s) p = ftmCfg s p :=
    logOrDead_reg (by decide) _ _ (by decide)
  rw [detect, detectFault_FTM q rfl]
  rcases hsrc with rfl | rfl <;>
  · simp only [react, unitPlane_FTM]
    split
    · rw [ftmCfg_enterHoldover, hlog]
    · exact hlog

@[simp] theorem ftmCfg_sourceLost (q : PlaneId) (s : State) (p : PlaneId) : ftmCfg (sourceLost q s) p = ftmCfg s p := by
  unfold sourceLost
  split
  · exact ftmCfg_detect q (by split <;> simp) s p
  · simp
  · simp
  · rfl

@[simp] theorem ftmCfg_sourceFound (q : PlaneId) (src : Option TimeSource) (s : State) (p : PlaneId) :
    ftmCfg (sourceFound q src s) p = ftmCfg s p := by
  unfold sourceFound
  split <;> simp

@[simp] theorem ftmCfg_followReference (q : PlaneId) (s : State) (p : PlaneId) : ftmCfg (followReference q s) p = ftmCfg s p := by
  unfold followReference
  split_ifs <;> simp

@[simp] theorem ftmCfg_followUpstream (q : PlaneId) (s : State) (p : PlaneId) : ftmCfg (followUpstream q s) p = ftmCfg s p := by
  simp only [followUpstream]
  repeat' split
  all_goals simp

end Sys2Proof.Machine
end

section
/-! SUPPORT. The writes of the time and link registers (R31, R33, R72, R73, R86), and the statement about them. -/

namespace Sys2Proof.Machine

theorem regFields_aclkSet : regFields .PLN 0x040 = [Fld.PLN_CFG_ACLK_SET] := by decide
theorem regFields_linkEn (p : PlaneId) : regFields .HUB (Fld.HUB_LINK_CTL_EN.at p.val).key = [Fld.HUB_LINK_CTL_EN] := by revert p; decide

/-! ### Plain writes -/

/-- Without LOCK no field is locked. -/
theorem lockHit_unlocked {s : State} {u : Nat} (h : s.on u Fld.BLK_CTRL_LOCK = false) (fs : List RField) (old v : Word) :
    lockHit fs (s.on u Fld.BLK_CTRL_LOCK) old v = false := by rw [h]; rfl

/-- An access on its way changes no field of a plane's block. -/
theorem arrive_get_pu (acc : Accessor) (u : Nat) (s : State) (p : PlaneId) (b : Blk) (f : RField) :
    (arrive acc u s).get (pu p b) f = s.get (pu p b) f := arrive_get_ne acc u s (pu_ne_hub p b)

theorem arrive_on_pu (acc : Accessor) (u : Nat) (s : State) (p : PlaneId) (b : Blk) (f : RField) :
    (arrive acc u s).on (pu p b) f = s.on (pu p b) f := by rw [State.on, arrive_get_pu, State.on]

/-- A register without command bits shows its block what it keeps. -/
theorem shownWord_of_no_command {s : State} {u off : Nat} {b : Blk} {v : Word}
    (h : accMask (regFields b off) (fun a => a = .wo || a = .w1c) = 0) : shownWord s u b off v = keptWord s u b off v := by
  simp [shownWord, h]

theorem storeSkips_PLN (s : State) (p : PlaneId) (n off : Nat) (v : Word) (h : 0x40 ≤ off % 4096) :
    storeSkips s (pu p .PLN) .PLN n off v = false := by
  simp [storeSkips, viewReg, unitPlane_PLN, planeView, Nat.not_lt.mpr h]

theorem storeSkips_FTM (s : State) (p : PlaneId) (n off : Nat) (v : Word) (h : 0x40 ≤ off % 4096) :
    storeSkips s (pu p .FTM) .FTM n off v = false := by
  simp [storeSkips, viewReg, unitPlane_FTM, planeView, Nat.not_lt.mpr h]

/-- What an accepted plain write of FTM answers. -/
theorem regWrite_FTM {acc : Accessor} {p : PlaneId} {off : Nat} {v : Word} {s : State} (hown : 0x40 ≤ off) (hpage : off < 4096)
    (hacc : accepted s acc (pu p .FTM) off v = true)
    (hlock : ∀ old, lockHit (regFields .FTM off) (s.on (pu p .FTM) Fld.BLK_CTRL_LOCK) old v = false) :
    ∃ was, regWrite acc (pu p .FTM) off v s = latchAfter was (pu p .FTM) (ftmEffect p off
      (shownWord (arrive acc (pu p .FTM) s) (pu p .FTM) .FTM off v) ((arrive acc (pu p .FTM) s).reg (pu p .FTM) off)
      (afterStore (arrive acc (pu p .FTM) s) (pu p .FTM) .FTM off v)) := by
  have hoff : 0x40 ≤ off % 4096 := by omega
  have hplain : PlainWrite (arrive acc (pu p .FTM) s) (pu p .FTM) .FTM 0 off v :=
    ⟨hoff, by rw [arrive_on_pu]; exact hlock _, storeSkips_FTM _ p 0 off v hoff⟩
  simpa only [planeEffect] using regWrite_plane (unitBlk_FTM p) (unitPlane_FTM p) hpage hacc hplain

/-! ### ACLK_SET -/

/-- ACLK_SET takes the value of an unlocked write (R31, R54). -/
theorem keptWord_aclkSet {s : State} {p : PlaneId} {v : Word} (hlock : s.on (pu p .PLN) Fld.BLK_CTRL_LOCK = false) :
    fieldGet (keptWord s (pu p .PLN) .PLN 0x040 v) Fld.PLN_CFG_ACLK_SET = fieldGet v Fld.PLN_CFG_ACLK_SET := by
  rw [keptWord, hlock, regFields_aclkSet]
  exact fieldGet_mergeWrite (by decide) (by decide)

theorem shownWord_aclkSet (s : State) (p : PlaneId) (v : Word) :
    shownWord s (pu p .PLN) .PLN 0x040 v = keptWord s (pu p .PLN) .PLN 0x040 v :=
  shownWord_of_no_command (by rw [regFields_aclkSet]; decide)

theorem plnEffect_get (p : PlaneId) (off : Nat) (v : Word) (s : State) (u : Nat) (f : RField) : (plnEffect p off v s).get u f = s.get u f := by
  unfold plnEffect
  split <;> simp

/-- An accepted write of ACLK_SET to an unlocked plane (R31). -/
theorem aclkSet_accepted {acc : Accessor} {p : PlaneId} {v : Word} {s : State} (hacc : accepted s acc (pu p .PLN) 0x040 v = true)
    (hlock : s.on (pu p .PLN) Fld.BLK_CTRL_LOCK = false) :
    Completes (.aclkSet acc p v) s (fun t => t.get (pu p .PLN) Fld.PLN_CFG_ACLK_SET = fieldGet v Fld.PLN_CFG_ACLK_SET ∧
      t.get (pu p .PLN) Fld.PLN_STATE_ACLK_NOW = s.get (pu p .PLN) Fld.PLN_STATE_ACLK_NOW ∧
      (fieldGet v Fld.PLN_CFG_ACLK_SET ≠ s.get (pu p .PLN) Fld.PLN_STATE_ACLK_NOW → (t.pl p).relock = some (fieldGet v Fld.PLN_CFG_ACLK_SET))) := by
  have hlock' : (arrive acc (pu p .PLN) s).on (pu p .PLN) Fld.BLK_CTRL_LOCK = false := by rw [arrive_on_pu, hlock]
  obtain ⟨was, hw⟩ := regWrite_plane (unitBlk_PLN p) (unitPlane_PLN p) (by decide) hacc
    ⟨by decide, lockHit_unlocked hlock' _ _ _, storeSkips_PLN _ p 0 0x040 v (by decide)⟩
  have hnow : (afterStore (arrive acc (pu p .PLN) s) (pu p .PLN) .PLN 0x040 v).get (pu p .PLN) Fld.PLN_STATE_ACLK_NOW =
      s.get (pu p .PLN) Fld.PLN_STATE_ACLK_NOW := by rw [afterStore_get_ne (by decide) (by decide), arrive_get_pu]
  refine ⟨_, rfl, ?_, ?_, fun hne => ?_⟩ <;> rw [hw]
  · rw [latchAfter_get _ _ (regKey_ne_of_mod (by decide)), planeEffect, plnEffect_get,
      afterStore_get_own (f := Fld.PLN_CFG_ACLK_SET) (off := 0x040) rfl (by decide), keptWord_aclkSet hlock']
  · rw [latchAfter_get _ _ (regKey_ne_of_mod (by decide)), planeEffect, plnEffect_get, hnow]
  · simp [planeEffect, plnEffect, shownWord_aclkSet, keptWord_aclkSet hlock', hnow, hne]

/-! ### Hub links -/

/-- Offset of HUB_LINKp_CTL (Table 1.12). -/
theorem key_linkEn (p : PlaneId) : (Fld.HUB_LINK_CTL_EN.at p.val).key = 0x400 + 16 * p.val := by
  simp [RField.key, RField.at, Fld.HUB_LINK_CTL_EN, Nat.mul_comm]

/-- Offset of HUB_LINKp_STAT (Table 1.12). -/
theorem key_linkClosed (p : PlaneId) : (Fld.HUB_LINK_STAT_CLOSED.at p.val).key = 0x404 + 16 * p.val := by
  simp [RField.key, RField.at, Fld.HUB_LINK_STAT_CLOSED, Nat.mul_comm]

theorem storeSkips_linkEn (s : State) (h : HubId) (p : PlaneId) (v : Word) :
    storeSkips s (hu h .HUB) .HUB 0 (Fld.HUB_LINK_CTL_EN.at p.val).key v = false := by
  have h40 : ¬ (0x400 + 16 * p.val) % 4096 < 0x40 := by omega
  have h4C : ¬ (0x400 + 16 * p.val = 0x04C ∨ 0x400 + 16 * p.val = 0x050) := by omega
  have h54 : ¬ (0x400 + 16 * p.val = 0x054 ∨ 0x400 + 16 * p.val = 0x058) := by omega
  simp only [storeSkips, viewReg, key_linkEn, unitPlane_hu, unitHub_HUB, hubView, h40, h4C, h54, if_false]
  simp

/-- HUB_LINKp_CTL.EN takes the value of an unlocked write (R33, R54). -/
theorem keptWord_linkEn {s : State} {h : HubId} (p : PlaneId) {v : Word} (hlock : s.on (hu h .HUB) Fld.BLK_CTRL_LOCK = false) :
    fieldGet (keptWord s (hu h .HUB) .HUB (Fld.HUB_LINK_CTL_EN.at p.val).key v) (Fld.HUB_LINK_CTL_EN.at p.val) = b2n (v.getLsbD 0) := by
  rw [keptWord, hlock, regFields_linkEn]
  exact (fieldGet_mergeWrite (by decide +revert) (by decide +revert)).trans (fieldGet_bit rfl)

/-- The block sees the written EN. -/
theorem shownWord_linkEn {s : State} {h : HubId} (p : PlaneId) {v : Word} (hlock : s.on (hu h .HUB) Fld.BLK_CTRL_LOCK = false) :
    (shownWord s (hu h .HUB) .HUB (Fld.HUB_LINK_CTL_EN.at p.val).key v).getLsbD 0 = v.getLsbD 0 := by
  have hmask : accMask (regFields .HUB (Fld.HUB_LINK_CTL_EN.at p.val).key) (fun a => a = .wo || a = .w1c) = 0 := by
    rw [regFields_linkEn]; decide
  have hbit := (fieldGet_bit (f := Fld.HUB_LINK_CTL_EN.at p.val) rfl).symm.trans (keptWord_linkEn p (v := v) hlock)
  have hinj : ∀ {a b : Bool}, b2n a = b2n b → a = b := by decide
  rw [shownWord_of_no_command hmask]
  exact hinj hbit

/-- A write of HUB_LINKp_CTL acts on the link of plane p: EN = 0 closes it (R33). -/
theorem hubEffect_linkEn (acc : Accessor) (h : HubId) (p : PlaneId) (v old : Word) (s : State) :
    hubEffect acc h .HUB (Fld.HUB_LINK_CTL_EN.at p.val).key v old s = if v.getLsbD 0 then s else closeHubLink h p.val s := by
  have hlink : 0x400 ≤ (0x400 + 16 * p.val) ∧ (0x400 + 16 * p.val) < 0x440 ∧ (0x400 + 16 * p.val) % 16 = 0 := by omega
  have hidx : (0x400 + 16 * p.val - 0x400) / 16 = p.val := by omega
  simp only [hubEffect, key_linkEn, hlink, hidx, and_self, if_true]

/-- Closing a hub link writes HUB_LINKp_STAT only: CLOSED is 1 and UP 0. -/
theorem closeHubLink_get (h : HubId) (p : PlaneId) (s : State) :
    (closeHubLink h p.val s).get (hu h .HUB) (Fld.HUB_LINK_STAT_CLOSED.at p.val) = 1 ∧
      (closeHubLink h p.val s).get (hu h .HUB) (Fld.HUB_LINK_STAT_UP.at p.val) = 0 ∧
      (closeHubLink h p.val s).get (hu h .HUB) (Fld.HUB_LINK_CTL_EN.at p.val) = s.get (hu h .HUB) (Fld.HUB_LINK_CTL_EN.at p.val) := by
  have hmod : ∀ f, (closeHubLink h p.val s).get (hu h .HUB) f =
      ((s.put (hu h .HUB) (Fld.HUB_LINK_STAT_CLOSED.at p.val) 1).put (hu h .HUB) (Fld.HUB_LINK_STAT_UP.at p.val) 0).get (hu h .HUB) f :=
    fun f => congrArg (fieldGet · f) (modHub_reg _ _ _ _ _ (fun _ => rfl))
  have hkey : (Fld.HUB_LINK_STAT_UP.at p.val).key = (Fld.HUB_LINK_STAT_CLOSED.at p.val).key := rfl
  have hokUp : (Fld.HUB_LINK_STAT_UP.at p.val).ok = true := rfl
  have hokClosed : (Fld.HUB_LINK_STAT_CLOSED.at p.val).ok = true := rfl
  have happart : apart (Fld.HUB_LINK_STAT_UP.at p.val) (Fld.HUB_LINK_STAT_CLOSED.at p.val) = true := rfl
  have hup : (Fld.HUB_LINK_STAT_UP.at p.val).key = 0x404 + 16 * p.val := key_linkClosed p
  refine ⟨?_, ?_, ?_⟩ <;> rw [hmod]
  · rw [State.get_put_apart _ _ hkey hokUp hokClosed happart, State.get_put_same _ _ _ _ hokClosed]
    rfl
  · rw [State.get_put_same _ _ _ _ hokUp]
    rfl
  · rw [State.get_put_ne _ _ (regKey_ne_of_mod (by rw [hup, key_linkEn]; omega)),
      State.get_put_ne _ _ (regKey_ne_of_mod (by rw [key_linkClosed, key_linkEn]; omega))]

/-- An accepted write of HUB_LINKp_CTL in an unlocked HUB block (R33). -/
theorem linkEn_accepted {acc : Accessor} {h : HubId} {p : PlaneId} {v : Word} {s : State}
    (hacc : accepted s acc (hu h .HUB) (Fld.HUB_LINK_CTL_EN.at p.val).key v = true) (hlock : s.on (hu h .HUB) Fld.BLK_CTRL_LOCK = false) :
    Completes (.linkEn acc h p v) s (fun t =>
      t.get (hu h .HUB) (Fld.HUB_LINK_CTL_EN.at p.val) = b2n (v.getLsbD 0) ∧
      (v.getLsbD 0 = false → t.get (hu h .HUB) (Fld.HUB_LINK_STAT_CLOSED.at p.val) = 1 ∧ t.get (hu h .HUB) (Fld.HUB_LINK_STAT_UP.at p.val) = 0) ∧
      (v.getLsbD 0 = true → t.get (hu h .HUB) (Fld.HUB_LINK_STAT_CLOSED.at p.val) = s.get (hu h .HUB) (Fld.HUB_LINK_STAT_CLOSED.at p.val))) := by
  have hen := key_linkEn p
  have hstat := key_linkClosed p
  have hup : (Fld.HUB_LINK_STAT_UP.at p.val).key = 0x404 + 16 * p.val := key_linkClosed p
  obtain ⟨was, hw⟩ := regWrite_hub (unitBlk_HUB h) (unitPlane_hu h _) (unitHub_HUB h) (by rw [hen]; simp only [pagesOf]; omega) hacc
    ⟨by rw [hen]; omega, lockHit_unlocked hlock _ _ _, storeSkips_linkEn s h p v⟩
  rw [hubEffect_linkEn, shownWord_linkEn p hlock] at hw
  have hkept : (afterStore s (hu h .HUB) .HUB (Fld.HUB_LINK_CTL_EN.at p.val).key v).get (hu h .HUB) (Fld.HUB_LINK_CTL_EN.at p.val) =
      b2n (v.getLsbD 0) := (afterStore_get_own rfl (by rw [hen]; omega)).trans (keptWord_linkEn p hlock)
  obtain ⟨hclosed, hdown, hkeepEn⟩ := closeHubLink_get h p (afterStore s (hu h .HUB) .HUB (Fld.HUB_LINK_CTL_EN.at p.val).key v)
  refine ⟨_, rfl, ?_, fun hv => ⟨?_, ?_⟩, fun hv => ?_⟩ <;> rw [hw]
  · rw [latchAfter_get _ _ (regKey_ne_of_mod (by rw [hen]; omega))]
    split
    · exact hkept
    · rw [hkeepEn, hkept]
  · rw [latchAfter_get _ _ (regKey_ne_of_mod (by rw [hstat]; omega)), hv]
    exact hclosed
  · rw [latchAfter_get _ _ (regKey_ne_of_mod (by rw [hup]; omega)), hv]
    exact hdown
  · rw [latchAfter_get _ _ (regKey_ne_of_mod (by rw [hstat]; omega)), hv]
    exact afterStore_get_ne (by rw [hen, hstat]; omega) (by rw [hstat]; omega)

/-! ### CAP, SEED_HI and HOLD_LIMIT -/

/-- A write of a register without RWL fields meets no lock (R54). -/
theorem lockHit_of_no_rwl {fs : List RField} (h : fs.any (fun f => f.acc = .rwl) = false) (locked : Bool) (old v : Word) :
    lockHit fs locked old v = false := by
  simp only [List.any_eq_false, decide_eq_true_eq] at h
  simp only [lockHit, Bool.and_eq_false_iff, List.any_eq_false]
  exact .inr fun f hf => by simp [h f hf]

/-- A 64-bit value stored in two 32-bit registers reads back, modulo 2^64. -/
theorem get64_put64_cap (s : State) (u v : Nat) :
    (s.put64 u Fld.FTM_CAP_LO Fld.FTM_CAP_HI v).get64 u Fld.FTM_CAP_LO Fld.FTM_CAP_HI = v % 2 ^ 64 := by
  have hlo : (s.put64 u Fld.FTM_CAP_LO Fld.FTM_CAP_HI v).get u Fld.FTM_CAP_LO = v % 2 ^ 32 % 2 ^ 32 :=
    (State.get_put_ne _ _ (regKey_ne_of_mod (by decide))).trans (State.get_put_same _ _ _ _ rfl)
  have hhi : (s.put64 u Fld.FTM_CAP_LO Fld.FTM_CAP_HI v).get u Fld.FTM_CAP_HI = v / 2 ^ 32 % 2 ^ 32 := State.get_put_same _ _ _ _ rfl
  rw [State.get64, hlo, hhi]
  omega

/-- A write of CAP shows its bit, whatever the register holds. -/
theorem shownWord_cap (s : State) (p : PlaneId) (v : Word) :
    (shownWord s (pu p .FTM) .FTM Fld.FTM_CAP.key (v ||| Fld.FTM_CAP.mask)).getLsbD 0 = true := by
  have hmask : (accMask (regFields .FTM Fld.FTM_CAP.key) (fun a => a = .wo || a = .w1c)).getLsbD 0 = true := by decide
  have hbit : Fld.FTM_CAP.mask.getLsbD 0 = true := by decide
  simp only [shownWord, BitVec.getLsbD_or, BitVec.getLsbD_and, hmask, hbit, Bool.or_true, Bool.and_true]

/-- An accepted CAP (R73). -/
theorem cap_accepted {acc : Accessor} {p : PlaneId} {v : Word} {s : State}
    (hacc : accepted s acc (pu p .FTM) Fld.FTM_CAP.key (v ||| Fld.FTM_CAP.mask) = true) :
    Completes (.cap acc p v) s (fun t => t.get64 (pu p .FTM) Fld.FTM_CAP_LO Fld.FTM_CAP_HI = s.ft p % 2 ^ 64 ∧ t.ft p = s.ft p) := by
  obtain ⟨was, hw⟩ := regWrite_FTM (by decide) (by decide) hacc (fun old => lockHit_of_no_rwl (by decide) _ old _)
  have heff : ∀ old t, ftmEffect p Fld.FTM_CAP.key (shownWord (arrive acc (pu p .FTM) s) (pu p .FTM) .FTM Fld.FTM_CAP.key
      (v ||| Fld.FTM_CAP.mask)) old t = t.put64 (pu p .FTM) Fld.FTM_CAP_LO Fld.FTM_CAP_HI (t.ft p) := by
    intro old t
    have hkey : Fld.FTM_CAP.key = 0x04C := rfl
    simp only [ftmEffect, shownWord_cap]
    simp [hkey]
  have hft : (afterStore (arrive acc (pu p .FTM) s) (pu p .FTM) .FTM Fld.FTM_CAP.key (v ||| Fld.FTM_CAP.mask)).ft p = s.ft p := by
    simp [State.ft]
  rw [heff, hft] at hw
  refine ⟨_, rfl, ?_, ?_⟩ <;> rw [hw]
  · rw [State.get64, latchAfter_get _ _ (regKey_ne_of_mod (by decide)), latchAfter_get _ _ (regKey_ne_of_mod (by decide)), ← State.get64,
      get64_put64_cap]
  · rw [State.ft, latchAfter_pl, State.put64_pl, ← State.ft, hft]

/-- A write of SEED_HI shows and keeps all its bits. -/
theorem keptWord_seedHi (s : State) (p : PlaneId) (v : Word) :
    fieldGet (keptWord s (pu p .FTM) .FTM Fld.FTM_SEED_HI.key v) Fld.FTM_SEED_HI = v.toNat := by
  have hrw : ∀ locked, accMask (regFields .FTM Fld.FTM_SEED_HI.key) (fun a => a = .rw || (a = .rwl && !locked)) &&& Fld.FTM_SEED_HI.mask =
      Fld.FTM_SEED_HI.mask := by decide
  calc fieldGet (keptWord s (pu p .FTM) .FTM Fld.FTM_SEED_HI.key v) Fld.FTM_SEED_HI
      = fieldGet v Fld.FTM_SEED_HI := fieldGet_mergeWrite (hrw _) (by decide)
    _ = v.toNat % 2 ^ 32 := by rw [fieldGet, BitVec.extractLsb'_toNat]; rfl
    _ = v.toNat := Nat.mod_eq_of_lt v.isLt

/-- An accepted write of FTM_SEED_HI (R72). -/
theorem seedHi_accepted {acc : Accessor} {p : PlaneId} {v : Word} {s : State} (hacc : accepted s acc (pu p .FTM) Fld.FTM_SEED_HI.key v = true) :
    Completes (.ftmSeedHi acc p v) s (fun t => t.get (pu p .FTM) Fld.FTM_SEED_HI = v.toNat ∧
      (t.pl p).ftm.seed = some (s.get (pu p .FTM) Fld.FTM_SEED_LO + 2 ^ 32 * v.toNat) ∧ t.ft p = s.ft p) := by
  obtain ⟨was, hw⟩ := regWrite_FTM (by decide) (by decide) hacc (fun old => lockHit_of_no_rwl (by decide) _ old _)
  have hhi : (afterStore (arrive acc (pu p .FTM) s) (pu p .FTM) .FTM Fld.FTM_SEED_HI.key v).get (pu p .FTM) Fld.FTM_SEED_HI = v.toNat :=
    (afterStore_get_own rfl (by decide)).trans (keptWord_seedHi _ p v)
  have hlo : (afterStore (arrive acc (pu p .FTM) s) (pu p .FTM) .FTM Fld.FTM_SEED_HI.key v).get (pu p .FTM) Fld.FTM_SEED_LO =
      s.get (pu p .FTM) Fld.FTM_SEED_LO := by rw [afterStore_get_ne (by decide) (by decide), arrive_get_pu]
  have heff : ∀ w old t, ftmEffect p Fld.FTM_SEED_HI.key w old t =
      modFtm t p (fun f => { f with seed := some (t.get64 (pu p .FTM) Fld.FTM_SEED_LO Fld.FTM_SEED_HI) }) := by
    intro w old t
    have hkey : Fld.FTM_SEED_HI.key = 0x05C := rfl
    simp [ftmEffect, hkey]
  rw [heff, State.get64, hlo, hhi] at hw
  refine ⟨_, rfl, ?_, ?_, ?_⟩ <;> rw [hw]
  · rw [latchAfter_get _ _ (regKey_ne_of_mod (by decide)), modFtm, State.modPl_get, hhi]
  · simp [modFtm]
  · simp [State.ft, modFtm]

/-- An accepted write of FTM_CFG in an unlocked block: the limit is stored, and following the references and the upstreams anew leaves it
alone (R86). -/
theorem holdLimit_accepted {acc : Accessor} {p : PlaneId} {v : Word} {s : State}
    (hacc : accepted s acc (pu p .FTM) Fld.FTM_CFG_HOLD_LIMIT.key v = true) (hlock : s.on (pu p .FTM) Fld.BLK_CTRL_LOCK = false) :
    Completes (.holdLimit acc p v) s (fun t => t.get (pu p .FTM) Fld.FTM_CFG_HOLD_LIMIT = fieldGet v Fld.FTM_CFG_HOLD_LIMIT) := by
  obtain ⟨was, hw⟩ := regWrite_FTM (by decide) (by decide) hacc (fun old => lockHit_unlocked hlock _ old v)
  have hkept : fieldGet (ftmCfg (afterStore (arrive acc (pu p .FTM) s) (pu p .FTM) .FTM Fld.FTM_CFG_HOLD_LIMIT.key v) p) Fld.FTM_CFG_HOLD_LIMIT =
      fieldGet v Fld.FTM_CFG_HOLD_LIMIT := by
    refine (afterStore_get_own (f := Fld.FTM_CFG_HOLD_LIMIT) rfl (by decide)).trans ?_
    rw [keptWord, arrive_on_pu, hlock]
    exact fieldGet_mergeWrite (by decide) (by decide)
  have heff : ∀ w old t, ftmCfg (ftmEffect p Fld.FTM_CFG_HOLD_LIMIT.key w old t) p = ftmCfg t p := by
    intro w old t
    have hkey : Fld.FTM_CFG_HOLD_LIMIT.key = 0x040 := rfl
    simp [ftmEffect, hkey]
  refine ⟨_, rfl, ?_⟩
  show State.get _ _ _ = _
  rw [hw, latchAfter_get _ _ (regKey_ne_of_mod (by decide))]
  exact (congrArg (fieldGet · Fld.FTM_CFG_HOLD_LIMIT) (heff _ _ _)).trans hkept

/-- Settles O11: each write is stored by its register's access types and has the effect of its block, and following the time sources anew
after a write of FTM_CFG never reaches that register. -/
theorem timeRegisterWrites : Obligations.TimeRegisterWrites :=
  ⟨fun _ _ _ _ => aclkSet_accepted, fun _ _ _ _ _ => linkEn_accepted, fun _ _ _ _ => cap_accepted, fun _ _ _ _ => seedHi_accepted,
    fun _ _ _ _ => holdLimit_accepted⟩

end Sys2Proof.Machine
end

section
/-! SUPPORT. The write of FCL_LIFT (R407), and the statement about the hubs' watch. -/

namespace Sys2Proof.Machine

theorem unitBlk_FCL (h : HubId) : unitBlk (hu h .FCL) = some (.FCL, 0) := by cases h <;> decide
theorem unitHub_FCL (h : HubId) : unitHub (hu h .FCL) = some h := by cases h <;> decide

theorem regFields_fclLift : regFields .FCL 0x054 = [Fld.FCL_LIFT_UNIT] := by decide

/-- FCL_LIFT is write-only: no write changes what stands stored at its offset (R12). -/
theorem keptWord_fclLift (s : State) (h : HubId) (v : Word) : keptWord s (hu h .FCL) .FCL 0x054 v = s.reg (hu h .FCL) 0x054 := by
  have hrw : accMask [Fld.FCL_LIFT_UNIT] (fun a => a = .rw || (a = .rwl && !s.on (hu h .FCL) Fld.BLK_CTRL_LOCK)) = 0 := by
    cases s.on (hu h .FCL) Fld.BLK_CTRL_LOCK <;> decide
  have hw1c : accMask [Fld.FCL_LIFT_UNIT] (fun a => a = .w1c) = 0 := by decide
  rw [keptWord, regFields_fclLift, mergeWrite, hrw, hw1c]
  simp only [BitVec.ofNat_eq_ofNat, BitVec.not_zero, BitVec.zero_and, BitVec.and_zero, BitVec.or_zero, BitVec.and_allOnes]

/-- The block takes the bits stored at FCL_LIFT and those of the written UNIT together. -/
theorem shownWord_fclLift (s : State) (h : HubId) (v : Word) :
    shownWord s (hu h .FCL) .FCL 0x054 v = s.reg (hu h .FCL) 0x054 ||| (v &&& Fld.FCL_LIFT_UNIT.mask) := by
  have hmask : accMask [Fld.FCL_LIFT_UNIT] (fun a => a = .wo || a = .w1c) = Fld.FCL_LIFT_UNIT.mask := by decide
  rw [shownWord, keptWord_fclLift, regFields_fclLift, hmask]

/-- An accepted write of FCL_LIFT lifts the unit whose number is the stored word of FCL_LIFT with the written UNIT set in it. -/
theorem regWrite_fclLift {acc : Accessor} {h : HubId} {v : Word} {s : State} (hacc : accepted s acc (hu h .FCL) 0x054 v = true) :
    ∃ was, regWrite acc (hu h .FCL) 0x054 v s = latchAfter was (hu h .FCL)
      (liftUnit ((s.reg (hu h .FCL) 0x054 ||| (v &&& Fld.FCL_LIFT_UNIT.mask)).toNat % 2048) (afterStore s (hu h .FCL) .FCL 0x054 v)) := by
  have hskip : storeSkips s (hu h .FCL) .FCL 0 0x054 v = false := by simp [storeSkips, viewReg, unitPlane_hu, unitHub_FCL, hubView]
  obtain ⟨was, hw⟩ := regWrite_hub (unitBlk_FCL h) (unitPlane_hu h _) (unitHub_FCL h) (by decide) hacc
    ⟨by decide, lockHit_of_no_rwl (by decide) _ _ _, hskip⟩
  refine ⟨was, ?_⟩
  rw [hw, shownWord_fclLift]
  simp only [hubEffect, fclEffect, if_true]

/-- A lift of a number that names neither a unit of a plane nor one of a hub changes nothing. -/
theorem liftUnit_of_no_unit {u : Nat} (hp : unitPlane u = none) (hh : unitHub u = none) (s : State) : liftUnit u s = s := by
  simp only [liftUnit, hp, hh, ite_self]

/-- Both hubs have power, port 0 of plane 0 is fenced with CAUSE FAULT, and Hub A's FCL_LIFT holds bit 10, which no write
can have stored there. -/
def staleLift : State :=
  ((State.reset.setReg (hu .a .PWR) Fld.PWR_DOM_STAT_ON.key 0xF).setReg (uFPT 0 0) Fld.BLK_FENCE_FENCED.key 0x23).setReg (hu .a .FCL)
    Fld.FCL_LIFT_UNIT.key 0x400

/-- Hub A's management cores may lift that port. -/
theorem staleLift_accepted : accepted staleLift (.hubCore .a) (hu .a .FCL) 0x054 0x080 = true := by decide +kernel

/-- The lift goes to unit 0x480, which does not exist: the port stays fenced. -/
theorem staleLift_stays_fenced : (regWrite (.hubCore .a) (hu .a .FCL) 0x054 0x080 staleLift).fenced (uFPT 0 0) = true := by
  have hunit : (staleLift.reg (hu .a .FCL) 0x054 ||| (0x080 &&& Fld.FCL_LIFT_UNIT.mask)).toNat % 2048 = 0x480 := by decide
  have hfenced : staleLift.get (uFPT 0 0) Fld.BLK_FENCE_FENCED = 1 := by decide
  obtain ⟨was, hw⟩ := regWrite_fclLift staleLift_accepted
  rw [hunit, liftUnit_of_no_unit (by decide) (by decide)] at hw
  rw [hw, State.fenced, State.on, latchAfter_get _ _ (regKey_ne_of_mod (by decide)), afterStore_get_ne (by decide) (by decide), hfenced]
  rfl

/-- Refutes O53: the statement speaks of every state, and in one whose write-only FCL_LIFT already holds bits, the unit that a write lifts
is the one those bits and the written UNIT name together. With 0x400 stored, an accepted write of port 0's number 0x080 lifts number 0x480
and leaves the port fenced. FCL_LIFT resets to 0 and no write stores into it (`keptWord_fclLift`): what the statement misses is the premise
that it holds 0. -/
theorem not_hubWatch : ¬ Obligations.HubWatch := by
  unfold Obligations.HubWatch
  rintro ⟨-, -, -, -, hlift, -⟩
  obtain ⟨t, ht, hopen, -⟩ := hlift .a 0 0 0x080 staleLift staleLift_accepted (by decide) (by decide)
  have hrun : exec (.fclLift (.hubCore .a) .a 0x080) staleLift = .next (regWrite (.hubCore .a) (hu .a .FCL) 0x054 0x080 staleLift) := rfl
  have hend : regWrite (.hubCore .a) (hu .a .FCL) 0x054 0x080 staleLift = t := Host.Outcome.next.inj (hrun.symm.trans ht)
  have hshut : t.fenced (uFPT 0 0) = true := hend ▸ staleLift_stays_fenced
  exact Bool.false_ne_true (hopen.symm.trans hshut)

end Sys2Proof.Machine
end

section
/-! SUPPORT. The outcomes of a command: the statement that every one answers a next state. -/

namespace Sys2Proof.Machine

/-! ### The meanings with the most cases -/

theorem execLinkSlotSend_next (p : PlaneId) (n : PortId) (sub : Fin 64) (s : State) :
    ∃ t, execLinkSlotSend p n sub s = .next t := by
  dsimp only [execLinkSlotSend]
  repeat' split
  all_goals exact ⟨_, rfl⟩

theorem execBar2Access_next (h : HubId) (offset : BitVec 36) (write : Bool) (data : List Byte) (tag : Nat) (s : State) :
    ∃ t, execBar2Access h offset write data tag s = .next t := by
  dsimp only [execBar2Access]
  repeat' split
  all_goals exact ⟨_, rfl⟩

theorem execRdmaRequest_next (h : HubId) (q : Fin 64) (rip : Word) (psn : BitVec 24) (rkey : Word) (addr : BitVec 48) (op : RdmaOp) (s : State) :
    ∃ t, execRdmaRequest h q rip psn rkey addr op s = .next t := by
  dsimp only [execRdmaRequest]
  repeat' split
  all_goals exact ⟨_, rfl⟩

/-! ### Every command -/

/-- Settles O2. A meaning is either one next state, whatever the state is, or it decides by cases of the state and the operands (an event that
is due or not, log 2; a message of one form or another), and then each of its cases is a next state. The second kind is named here. -/
theorem everyCommandAnswersNext : Obligations.EveryCommandAnswersNext := by
  intro i s
  cases i
  case linkSlotSend => exact execLinkSlotSend_next _ _ _ _
  case bar2Access => exact execBar2Access_next _ _ _ _ _ _
  case rdmaRequest => exact execRdmaRequest_next _ _ _ _ _ _ _ _
  case regWrite | softResetDone | beat | clkchgEnter | relockDone | timerefChange | ppsEdge | ptpMessage | tsyncSend | phaseStep |
    freqLock | tsyncTimeout | holdoverExpire | ppsOutRise | ppsOutFall | latchArriveResend | latchRelease | keyLoadDone | keyStart |
    keySwapLate | keySlot | refreshDeadline | tmbFail | spareActivate | contribFrame | chunkCloseBegin | chunkCloseEnd | recomputeStart
    | recomputeDone | repairDelivery | repairLimit | repairRequest | xferComplete | feedDone | waitRetire | waitTimeout | msgArrive |
    ccWatchdog | ccSaveDone | ccRestoreDone | launch | abandonedPost | mismatchReport | barrierArrive | collectiveTmo | ctrlRefresh |
    patrolStep | partitionApplyDone | linkUnitReceive | laneFault | narrowSwitch | helloSend | trainingDone | discoverTimeout |
    absentRetry | holdFt | resumeTime | unitFrameAdmit | copyAgeExpire | auditVisit | perst | flr | mbxVisible | svcFrameReceive |
    faultDetect | reportFrameSend | reportFrameReceive | reportTimeout | peerHeartbeat | peerTimeout | cSelfAck | deadboltRecord |
    aliveToggle | hubLinkTimeout | pwrcycN | i3cRead | i3cWrite | feedChange | feedQualify | domainAdmit | domainStable | railTimeout |
    memoryReady | powerOn | kplCmdDone | getVersion | getCapabilities | negotiateAlgorithms | getDigests | getCertificate | challenge |
    getMeasurements | spdmUnsupported | mgcWatchdog | pmuInterruptTaken | ppsLoss | ptpMasterLost | perstRelease | pcieLinkUp |
    configurationRequest | serviceLinkChange | entdaa | deviceHot | cstoreWriteDone | fencePowerOff =>
    dsimp only [exec, execRegWrite, execSoftResetDone, execBeat, execClkchgEnter, execRelockDone, execTimerefChange, execPpsEdge,
      execPtpMessage, execTsyncSend, execPhaseStep, execFreqLock, execTsyncTimeout, execHoldoverExpire, execPpsOutRise, execPpsOutFall,
      execLatchArriveResend, execLatchRelease, execKeyLoadDone, execKeyStart, execKeySwapLate, execKeySlot, execRefreshDeadline,
      execTmbFail, execSpareActivate, execContribFrame, execChunkCloseBegin, execChunkCloseEnd, execRecomputeStart, execRecomputeDone,
      execRepairDelivery, execRepairLimit, execRepairRequest, execXferComplete, execFeedDone, execWaitRetire, execWaitTimeout,
      execMsgArrive, execCcWatchdog, execCcSaveDone, execCcRestoreDone, execLaunch, execAbandonedPost, execMismatchReport,
      execBarrierArrive, execCollectiveTmo, execCtrlRefresh, execPatrolStep, execPartitionApplyDone, execLinkUnitReceive, execLaneFault,
      execNarrowSwitch, execHelloSend, execTrainingDone, execDiscoverTimeout, execAbsentRetry, execHoldFt, execResumeTime,
      execUnitFrameAdmit, execCopyAgeExpire, execAuditVisit, execPerst, execFlr, execMbxVisible, execSvcFrameReceive, execFaultDetect,
      execReportFrameSend, execReportFrameReceive, execReportTimeout, execPeerHeartbeat, execPeerTimeout, execCSelfAck,
      execDeadboltRecord, execAliveToggle, execHubLinkTimeout, execPwrcycN, execI3cRead, execI3cWrite, execFeedChange, execFeedQualify,
      execDomainAdmit, execDomainStable, execRailTimeout, execMemoryReady, execPowerOn, execKplCmdDone, execGetVersion,
      execGetCapabilities, execNegotiateAlgorithms, execGetDigests, execGetCertificate, execChallenge, execGetMeasurements,
      execSpdmUnsupported, execMgcWatchdog, execPmuInterruptTaken, execPpsLoss, execPtpMasterLost, execPerstRelease, execPcieLinkUp,
      execConfigurationRequest, execServiceLinkChange, execEntdaa, execDeviceHot, execCstoreWriteDone, execFencePowerOff]
    repeat' split
    all_goals exact ⟨_, rfl⟩
  all_goals exact ⟨_, rfl⟩

end Sys2Proof.Machine
end

section
/-! SUPPORT. Register accesses on their way to a block (R33, R42, R53, R64, R374): what the hub link's count of requests leaves alone, and
the write of a block that an access reaches. -/

namespace Sys2Proof.Machine

/-! ### Pages and header registers -/

/-- A page of a unit's block is a page that its block type implements. -/
theorem wfPage_iff {u pg : Nat} : wfPage u pg = true ↔ ∃ b n, unitBlk u = some (b, n) ∧ pg < pagesOf b := by
  unfold wfPage
  cases unitBlk u with
  | none => simp
  | some e => obtain ⟨b, n⟩ := e; simp

/-- An offset in a block's page lies below the end of its pages. -/
theorem offset_lt_of_page {off pages : Nat} (h : off / 4096 < pages) : off < 4096 * pages := by omega

/-- A header register is the same in every page of its block (R42). -/
theorem regKey_page (u pg : Nat) {o : Nat} (ho : o < 0x40) : regKey u (4096 * pg + o) = regKey u o := by
  have hmod : (4096 * pg + o) % 4096 = o := by omega
  have hself : o % 4096 = o := by omega
  simp only [regKey, hmod, hself, ho, if_true]

theorem State.reg_page (s : State) (u pg : Nat) {o : Nat} (ho : o < 0x40) : s.reg u (4096 * pg + o) = s.reg u o := by
  simp only [State.reg, regKey_page u pg ho]

theorem State.setReg_page (s : State) (u pg : Nat) {o : Nat} (w : Word) (ho : o < 0x40) :
    s.setReg u (4096 * pg + o) w = s.setReg u o w := by
  simp only [State.setReg, regKey_page u pg ho]

/-- The reset value of a header register names no source, so that the register follows from the register store alone (R13). -/
theorem State.reg_header_congr {s t : State} (hr : t.regs = s.regs) (u : Nat) {off : Nat} (ho : off % 4096 < 0x40) :
    t.reg u off = s.reg u off := by
  have hk : (regKey u off).2 % 4096 < 0x40 := by rw [regKey_snd_mod]; exact ho
  simp only [State.reg, hr, resetVal, hk, if_true]

/-! ### The count of a hub link -/

/-- HUB_LINKp_REQ stands at 0x40C and above in its page: a register below it is no such count. -/
theorem not_countsLink_of_low (u : Nat) {off : Nat} (h : off % 4096 < 0x400) : ¬ countsLink u off := by
  rintro ⟨k, p, hk⟩
  have hkey : (Fld.HUB_LINK_REQ.at p.val).key = 0x40C + 16 * p.val := by
    simp [RField.key, RField.at, Fld.HUB_LINK_REQ, Nat.mul_comm]
  exact regKey_ne_of_mod (by rw [hkey]; omega) hk

theorem linkRequest_reg (k : HubId) (p : PlaneId) (s : State) {u off : Nat} (h : ¬ countsLink u off) :
    (linkRequest k p s).reg u off = s.reg u off := by
  have hcount : (s.inc (hu k .HUB) (Fld.HUB_LINK_REQ.at p.val)).reg u off = s.reg u off :=
    State.reg_put_ne s _ fun hk => h ⟨k, p, hk.symm⟩
  rw [← hcount, linkRequest, modHub_reg]
  exact fun _ => rfl

/-- An access on its way changes no register but the count of the hub link that carries it (R33). -/
theorem arrive_reg (acc : Accessor) (u : Nat) (s : State) {u' off : Nat} (h : ¬ countsLink u' off) :
    (arrive acc u s).reg u' off = s.reg u' off := by
  unfold arrive
  split
  · exact linkRequest_reg _ _ s h
  · exact linkRequest_reg _ _ s h
  · rfl

theorem arrive_get (acc : Accessor) (u : Nat) (s : State) {u' : Nat} {f : RField} (h : f.key % 4096 < 0x400) :
    (arrive acc u s).get u' f = s.get u' f := by
  rw [State.get, arrive_reg acc u s (not_countsLink_of_low u' h), State.get]

/-- An access of a hub's block travels over no hub link. -/
theorem arrive_of_hub {u : Nat} (hp : unitPlane u = none) (acc : Accessor) (s : State) : arrive acc u s = s := by
  cases acc <;> simp [arrive, hp]

/-- An access on its way changes nothing but the hubs. -/
@[simp] theorem arrive_frame (acc : Accessor) (u : Nat) (s : State) :
    (arrive acc u s).planes = s.planes ∧ (arrive acc u s).rep = s.rep ∧ (arrive acc u s).mbx = s.mbx ∧ (arrive acc u s).lease = s.lease ∧
      (arrive acc u s).pwr = s.pwr ∧ (arrive acc u s).cfg = s.cfg ∧ (arrive acc u s).dead = s.dead ∧ (arrive acc u s).out = s.out := by
  unfold arrive linkRequest
  split <;> simp

/-! ### The write of a block -/

/-- A write whose access reaches the block is the block's to judge (R52). -/
theorem writeBar0_of_reaches {acc : Accessor} {u off n a : Nat} {b : Blk} {s : State} (hb : unitBlk u = some (b, n))
    (hpage : off < 4096 * pagesOf b) (hr : reaches s acc u off = true) (ha : bar0Of u off = some a) (be : BitVec 4) (v : Word) :
    writeBar0 acc a be v s = writeUnit acc u off (be = 15#4) v (arrive acc u s) := by
  have hl := locate_bar0Of hb ha hpage
  simp only [reaches, Bool.and_eq_true] at hr
  obtain ⟨⟨⟨hm, hs⟩, -⟩, hh⟩ := hr
  simp only [writeBar0, hl, hm, hs, not_true_eq_false, if_false]
  cases acc with
  | host k =>
    simp only [Bool.and_eq_true, Bool.or_eq_true, decide_eq_true_eq, Option.isNone_iff_eq_none] at hh
    obtain ⟨hle, hd⟩ := hh
    have hgrant : ¬ (holder s ≠ portCode k ∧ leaseFree k (some (u, off)) = false) := by
      rintro ⟨h1, h2⟩
      rcases hle with h3 | h3
      · exact h1 h3
      · exact Bool.false_ne_true (h2.symm.trans h3)
    simp [hd, hgrant]
  | _ => simp

/-- The 32-bit write of a register at its BAR0 offset. -/
theorem exec_regWrite_bar0 {u off : Nat} {a : Word} (ha : bar0Of u off = some a.toNat) (acc : Accessor) (v : Word) (s : State) :
    exec (.regWrite acc (.bar0 a) 15 v) s = .next (regWrite acc u off v s) := by
  rw [regWrite, ha]
  rfl

end Sys2Proof.Machine
end

section
/-! SUPPORT. Rejected and discarded writes (R43, R52, R53, R56, R374), and the statements about them. -/

namespace Sys2Proof.Machine

/-! ### The record of a rejected write -/

theorem reject_reg_ne {u off : Nat} {c : RejCode} {s : State} {u' off' : Nat} (h : regKey u' off' ≠ regKey u 0x00C) :
    (reject u off c s).reg u' off' = s.reg u' off' := by
  have hkey : ∀ f : RField, f.key = 0x00C → regKey u f.key ≠ regKey u' off' := fun f hf => by rw [hf]; exact h.symm
  simp only [reject, State.incSat]
  split <;> simp only [State.reg_put_ne _ _ (hkey Fld.BLK_STAT_REJ rfl), State.reg_put_ne _ _ (hkey Fld.BLK_STAT_REJ_CNT rfl),
    State.reg_put_ne _ _ (hkey Fld.BLK_STAT_REJ_CODE rfl), State.reg_put_ne _ _ (hkey Fld.BLK_STAT_REJ_OFF rfl)]

@[simp] theorem reject_frame (u off : Nat) (c : RejCode) (s : State) :
    (reject u off c s).planes = s.planes ∧ (reject u off c s).rep = s.rep ∧ (reject u off c s).mbx = s.mbx ∧
      (reject u off c s).lease = s.lease ∧ (reject u off c s).pwr = s.pwr ∧ (reject u off c s).cfg = s.cfg ∧
      (reject u off c s).dead = s.dead := by
  simp only [reject]
  split <;> simp

theorem RejCode.code_lt (c : RejCode) : c.code % 2 ^ Fld.BLK_STAT_REJ_CODE.width = c.code := by cases c <;> decide

/-- The block counts the rejection, and REJ is 1 (R52). -/
theorem reject_counted (u off : Nat) (c : RejCode) (s : State) :
    (reject u off c s).get u Fld.BLK_STAT_REJ = 1 ∧
      (reject u off c s).get u Fld.BLK_STAT_REJ_CNT = min (s.get u Fld.BLK_STAT_REJ_CNT + 1) 255 := by
  have hcnt : ∀ n, min n (2 ^ Fld.BLK_STAT_REJ_CNT.width - 1) % 2 ^ Fld.BLK_STAT_REJ_CNT.width = min n 255 := by
    intro n
    have hw : Fld.BLK_STAT_REJ_CNT.width = 8 := rfl
    rw [hw]
    omega
  have hone : 1 % 2 ^ Fld.BLK_STAT_REJ.width = 1 := rfl
  simp only [reject, State.incSat]
  split <;> simp (disch := decide) only [State.get_put_same, State.get_put_apart, hcnt, hone, and_self]

/-- The first rejection records its code and its offset (R52). -/
theorem reject_first {u : Nat} {s : State} (h : s.get u Fld.BLK_STAT_REJ = 0) (off : Nat) (c : RejCode) :
    (reject u off c s).get u Fld.BLK_STAT_REJ_CODE = c.code ∧ (reject u off c s).get u Fld.BLK_STAT_REJ_OFF = off % 4096 := by
  have hoff : off % 4096 % 2 ^ Fld.BLK_STAT_REJ_OFF.width = off % 4096 := Nat.mod_mod _ _
  have hnew : s.on u Fld.BLK_STAT_REJ = false := by simp [State.on, h]
  simp only [reject, State.incSat, hnew, Bool.not_false, if_true]
  simp (disch := decide) only [State.get_put_same, State.get_put_apart, RejCode.code_lt, hoff, and_self]

/-- A further one leaves them (R52). -/
theorem reject_later {u : Nat} {s : State} (h : s.get u Fld.BLK_STAT_REJ = 1) (off : Nat) (c : RejCode) :
    (reject u off c s).get u Fld.BLK_STAT_REJ_CODE = s.get u Fld.BLK_STAT_REJ_CODE ∧
      (reject u off c s).get u Fld.BLK_STAT_REJ_OFF = s.get u Fld.BLK_STAT_REJ_OFF := by
  have hheld : s.on u Fld.BLK_STAT_REJ = true := by simp [State.on, h]
  simp only [reject, State.incSat, hheld, Bool.not_true, Bool.false_eq_true, if_false]
  simp (disch := decide) only [State.get_put_apart, and_self]

/-! ### What a rejected write answers -/

theorem noteLate_reg (u off : Nat) (c : RejCode) (v : Word) (s t : State) (u' off' : Nat) :
    (noteLate u off c v s t).reg u' off' = t.reg u' off' := by
  unfold noteLate
  split
  · split <;> simp
  · rfl

@[simp] theorem noteLate_frame (u off : Nat) (c : RejCode) (v : Word) (s t : State) :
    (noteLate u off c v s t).rep = t.rep ∧ (noteLate u off c v s t).mbx = t.mbx ∧ (noteLate u off c v s t).lease = t.lease ∧
      (noteLate u off c v s t).pwr = t.pwr ∧ (noteLate u off c v s t).cfg = t.cfg ∧ (noteLate u off c v s t).dead = t.dead := by
  unfold noteLate
  split
  · split <;> simp
  · simp

/-- Only a COMMIT of GRQ rejected with STATE is kept by its plane (R250). -/
theorem noteLate_planes {u off : Nat} {c : RejCode} (h : ¬ (unitBlk u = some (.GRQ, 0) ∧ off = 0x064 ∧ c = .state)) (v : Word) (s t : State) :
    (noteLate u off c v s t).planes = t.planes := by
  have hgrq : ∀ p, unitBlk (pu p .GRQ) = some (.GRQ, 0) := by decide
  unfold noteLate
  split
  · rename_i p _
    rw [if_neg]
    rintro ⟨rfl, hoff, hc⟩
    exact h ⟨hgrq p, hoff, hc⟩
  · rfl

/-- A write that its block rejects leaves the block's record, what that latches, and a late COMMIT (R52, R250). -/
theorem writeBar0_rejected {acc : Accessor} {u off n a : Nat} {b : Blk} {be : BitVec 4} {v : Word} {s : State} {c : RejCode}
    (hb : unitBlk u = some (b, n)) (hpage : off < 4096 * pagesOf b) (hr : reaches s acc u off = true) (ha : bar0Of u off = some a)
    (hc : checkWrite (arrive acc u s) acc u b n off (be = 15#4) v = some c) :
    ∃ was, writeBar0 acc a be v s = noteLate u off c v (arrive acc u s) (latchAfter was u (reject u off c (arrive acc u s))) := by
  have hpow : s.powered u = true := by
    simp only [reaches, Bool.and_eq_true] at hr
    exact hr.1.2
  rw [writeBar0_of_reaches hb hpage hr ha, writeUnit]
  simp only [hb, arrive_powered, hpow, hc, not_true_eq_false, if_false]
  exact ⟨_, rfl⟩

/-- The registers that a rejected write leaves: all but BLK_STAT and BLK_IRQ_STAT of its block, and the count of its hub link. -/
theorem rejected_reg (acc : Accessor) (u off : Nat) (c : RejCode) (v : Word) (was : Bool) (s : State) {u' off' : Nat}
    (hstat : regKey u' off' ≠ regKey u 0x00C) (hirq : regKey u' off' ≠ regKey u 0x018) (hlink : ¬ countsLink u' off') :
    (noteLate u off c v (arrive acc u s) (latchAfter was u (reject u off c (arrive acc u s)))).reg u' off' = s.reg u' off' := by
  rw [noteLate_reg, latchAfter_reg _ _ hirq.symm, reject_reg_ne hstat, arrive_reg acc u s hlink]

/-- BLK_STAT after a rejected write is that of the record. -/
theorem rejected_get (acc : Accessor) (u off : Nat) (c : RejCode) (v : Word) (was : Bool) (s : State) {f : RField} (hf : f.key = 0x00C) :
    (noteLate u off c v (arrive acc u s) (latchAfter was u (reject u off c (arrive acc u s)))).get u f =
      (reject u off c (arrive acc u s)).get u f := by
  rw [State.get, noteLate_reg, latchAfter_reg _ _ (regKey_ne_of_mod (by rw [hf]; decide)), State.get]

/-! ### The statement about rejected writes -/

/-- A 32-bit write that the block rejects leaves only its record (R52, Table 2.3). -/
theorem regWrite_rejected {acc : Accessor} {u off : Nat} {v : Word} {c : RejCode} {s : State} {a : Word} (hwf : wfPage u (off / 4096) = true)
    (hr : reaches s acc u off = true) (hv : verdictOf s acc u off v = some c) (ha : bar0Of u off = some a.toNat) :
    Completes (.regWrite acc (.bar0 a) 15 v) s (fun t =>
      t.get u Fld.BLK_STAT_REJ = 1 ∧ t.get u Fld.BLK_STAT_REJ_CNT = min (s.get u Fld.BLK_STAT_REJ_CNT + 1) 255 ∧
      (s.get u Fld.BLK_STAT_REJ = 0 → t.get u Fld.BLK_STAT_REJ_CODE = c.code ∧ t.get u Fld.BLK_STAT_REJ_OFF = off % 4096) ∧
      (s.get u Fld.BLK_STAT_REJ = 1 → t.get u Fld.BLK_STAT_REJ_CODE = s.get u Fld.BLK_STAT_REJ_CODE ∧
        t.get u Fld.BLK_STAT_REJ_OFF = s.get u Fld.BLK_STAT_REJ_OFF) ∧
      t.get u Fld.BLK_SEQ = s.get u Fld.BLK_SEQ ∧
      (∀ u' off', regKey u' off' ≠ regKey u 0x00C → regKey u' off' ≠ regKey u 0x018 → ¬ countsLink u' off' →
        t.reg u' off' = s.reg u' off') ∧
      (¬ (unitBlk u = some (Blk.GRQ, 0) ∧ off = 0x064 ∧ c = .state) → t.planes = s.planes) ∧ t.rep = s.rep ∧ t.mbx = s.mbx ∧
      t.lease = s.lease ∧ t.pwr = s.pwr ∧ t.cfg = s.cfg ∧ t.dead = s.dead) := by
  obtain ⟨b, n, hb, hpg⟩ := wfPage_iff.mp hwf
  have hc : checkWrite (arrive acc u s) acc u b n off ((15 : BitVec 4) = 15#4) v = some c := by simpa [verdictOf, hb] using hv
  obtain ⟨was, hw⟩ := writeBar0_rejected hb (offset_lt_of_page hpg) hr ha hc
  have hreg := fun u' off' => rejected_reg acc u off c v was s (u' := u') (off' := off')
  have hget := fun {f} hf => rejected_get acc u off c v was s (f := f) hf
  have hkept : ∀ f : RField, f.key = 0x00C → (arrive acc u s).get u f = s.get u f := fun f hf => arrive_get acc u s (by rw [hf]; decide)
  refine ⟨_, congrArg Host.Outcome.next hw, ?_⟩
  refine ⟨?_, ?_, fun h0 => ?_, fun h1 => ?_, ?_, hreg, fun hlate => ?_, by simp, by simp, by simp, by simp, by simp, by simp⟩
  · rw [hget rfl, (reject_counted _ _ _ _).1]
  · rw [hget rfl, (reject_counted _ _ _ _).2, hkept _ rfl]
  · rw [hget rfl, hget rfl]
    exact reject_first ((hkept _ rfl).trans h0) off c
  · rw [hget rfl, hget rfl, ← hkept Fld.BLK_STAT_REJ_CODE rfl, ← hkept Fld.BLK_STAT_REJ_OFF rfl]
    exact reject_later ((hkept _ rfl).trans h1) off c
  · exact congrArg (fieldGet · Fld.BLK_SEQ)
      (hreg u _ (regKey_ne_of_mod (by decide)) (regKey_ne_of_mod (by decide)) (not_countsLink_of_low u (by decide)))
  · rw [noteLate_planes hlate]
    simp

/-- A write that does not enable four bytes is rejected with WIDTH (R43). -/
theorem regWrite_narrow {acc : Accessor} {u off : Nat} {be : BitVec 4} {v : Word} {s : State} {a : Word} (hwf : wfPage u (off / 4096) = true)
    (hr : reaches s acc u off = true) (hbe : be ≠ 15) (ha : bar0Of u off = some a.toNat) :
    Completes (.regWrite acc (.bar0 a) be v) s (fun t =>
      t.get u Fld.BLK_STAT_REJ = 1 ∧ (s.get u Fld.BLK_STAT_REJ = 0 → t.get u Fld.BLK_STAT_REJ_CODE = 8) ∧ t.planes = s.planes ∧
      ∀ u' off', regKey u' off' ≠ regKey u 0x00C → regKey u' off' ≠ regKey u 0x018 → ¬ countsLink u' off' →
        t.reg u' off' = s.reg u' off') := by
  obtain ⟨b, n, hb, hpg⟩ := wfPage_iff.mp hwf
  have hc : checkWrite (arrive acc u s) acc u b n off (be = 15#4) v = some .width := by
    have hnarrow : decide (be = 15#4) = false := decide_eq_false hbe
    simp [checkWrite, firstReject, hnarrow]
  obtain ⟨was, hw⟩ := writeBar0_rejected hb (offset_lt_of_page hpg) hr ha hc
  have hget := fun {f} hf => rejected_get acc u off .width v was s (f := f) hf
  refine ⟨_, congrArg Host.Outcome.next hw, ?_, fun h0 => ?_, ?_, fun u' off' => rejected_reg acc u off .width v was s⟩
  · rw [hget rfl, (reject_counted _ _ _ _).1]
  · rw [hget rfl]
    exact (reject_first ((arrive_get acc u s (by decide)).trans h0) off .width).1
  · rw [noteLate_planes (fun h => RejCode.noConfusion h.2.2)]
    simp

/-- Settles O7: a rejected write is its block's record of it, and no part of the record, of the latching after it or of the hub link's
count reaches anything else. -/
theorem rejectedWriteLeavesOnlyItsRecord : Obligations.RejectedWriteLeavesOnlyItsRecord :=
  ⟨fun _ _ _ _ _ _ _ => regWrite_rejected, fun _ _ _ _ _ _ _ => regWrite_narrow⟩

/-! ### Writes that reach no register -/

/-- Latching a block's interrupts as they stand is latching them after a write that changed none. -/
theorem latchIrq_eq (u : Nat) (s : State) : latchIrq u s = latchAfter (s.reg u 0x018 ≠ 0) u s := by
  simp only [latchIrq, latchAfter]
  by_cases hen : s.reg u 0x014 = 0 <;> by_cases hpow : s.powered u = true <;> simp [hen, hpow]

/-- The lease and the deadbolt state let an accessor's writes through (R374, R409). -/
def writesPass (s : State) (acc : Accessor) : Prop := ∀ h, acc = .host h → holder s = portCode h ∧ s.dead = none

theorem writeBar0_of_page {acc : Accessor} {s : State} {a u off : Nat} (hm : mayAccess s acc = true) (hhost : writesPass s acc)
    (hl : locate a = some (u, off)) (hs : siteReaches s acc u = true) (be : BitVec 4) (v : Word) :
    writeBar0 acc a be v s = writeUnit acc u off (be = 15#4) v (arrive acc u s) := by
  cases acc with
  | host k =>
    obtain ⟨hk, hd⟩ := hhost k rfl
    simp [writeBar0, hm, hk, hd, hl, hs]
  | _ => simp [writeBar0, hm, hl, hs]

theorem writeBar0_of_no_page {acc : Accessor} {s : State} {a : Nat} (hm : mayAccess s acc = true) (hhost : writesPass s acc)
    (hl : locate a = none) (be : BitVec 4) (v : Word) : writeBar0 acc a be v s = noPage acc a s := by
  cases acc with
  | host k =>
    obtain ⟨hk, hd⟩ := hhost k rfl
    simp [writeBar0, hm, hk, hd, hl]
  | _ => simp [writeBar0, hm, hl]

/-- A write to a block without power is discarded without a record (R56). -/
theorem regWrite_unpowered {acc : Accessor} {u off : Nat} {v : Word} {s : State} {a : Word} (hwf : wfPage u (off / 4096) = true)
    (hm : mayAccess s acc = true) (hs : siteReaches s acc u = true) (hpow : s.powered u = false)
    (hhost : writesPass s acc) (ha : bar0Of u off = some a.toNat) :
    Completes (.regWrite acc (.bar0 a) 15 v) s (fun t =>
      t.planes = s.planes ∧ t.out = s.out ∧ t.mbx = s.mbx ∧ ∀ u' off', ¬ countsLink u' off' → t.reg u' off' = s.reg u' off') := by
  obtain ⟨b, n, hb, hpg⟩ := wfPage_iff.mp hwf
  have hw : writeBar0 acc a.toNat 15 v s = arrive acc u s := by
    rw [writeBar0_of_page hm hhost (locate_bar0Of hb ha (offset_lt_of_page hpg)) hs]
    simp [writeUnit, hb, arrive_powered, hpow]
  exact ⟨_, congrArg Host.Outcome.next hw, by simp, by simp, by simp, fun u' off' => arrive_reg acc u s⟩

/-- A write that no page holds is recorded in the HUB block of the hub that carries it (R53). -/
theorem regWrite_no_page {acc : Accessor} {a v : Word} {be : BitVec 4} {s : State} (hm : mayAccess s acc = true)
    (hl : locate a.toNat = none) (hhost : writesPass s acc) (hpow : s.powered (hu (carrier acc) .HUB) = true) :
    Completes (.regWrite acc (.bar0 a) be v) s (fun t => let u := hu (carrier acc) .HUB
      t.get u Fld.BLK_STAT_REJ = 1 ∧ (s.get u Fld.BLK_STAT_REJ = 0 → t.get u Fld.BLK_STAT_REJ_CODE = 9) ∧ t.planes = s.planes ∧
      ∀ u' off', regKey u' off' ≠ regKey u 0x00C → regKey u' off' ≠ regKey u 0x018 → t.reg u' off' = s.reg u' off') := by
  have hw : ∃ was, writeBar0 acc a.toNat be v s =
      latchAfter was (hu (carrier acc) .HUB) (reject (hu (carrier acc) .HUB) a.toNat .unmapped s) := by
    rw [writeBar0_of_no_page hm hhost hl]
    simp only [noPage, hpow, if_true, latchIrq_eq]
    exact ⟨_, rfl⟩
  obtain ⟨was, hw⟩ := hw
  have hget : ∀ f : RField, f.key = 0x00C → (latchAfter was (hu (carrier acc) .HUB) (reject (hu (carrier acc) .HUB) a.toNat .unmapped s)).get
      (hu (carrier acc) .HUB) f = (reject (hu (carrier acc) .HUB) a.toNat .unmapped s).get (hu (carrier acc) .HUB) f :=
    fun f hf => latchAfter_get _ _ (regKey_ne_of_mod (by rw [hf]; decide))
  refine ⟨_, congrArg Host.Outcome.next hw, ?_, fun h0 => ?_, by simp, fun u' off' hstat hirq => ?_⟩
  · rw [hget _ rfl, (reject_counted _ _ _ _).1]
  · rw [hget _ rfl, (reject_first h0 _ _).1]
    rfl
  · rw [latchAfter_reg _ _ hirq.symm, reject_reg_ne hstat]

/-- A host without the lease writes nothing but its own pages: the write is answered by AER and counted in DENY (R374). -/
theorem regWrite_denied {h : HubId} {a v : Word} {be : BitVec 4} {s : State} (hm : mayAccess s (.host h) = true) (hlease : holder s ≠ portCode h)
    (hfree : leaseFree h (locate a.toNat) = false) :
    Completes (.regWrite (.host h) (.bar0 a) be v) s (fun t =>
      t.out = s.out ++ [.aer h a.toNat] ∧ t.get (hu h .PCI) Fld.PCI_CNT_A_DENY = min (s.get (hu h .PCI) Fld.PCI_CNT_A_DENY + 1) 0xFFFF ∧
      t.planes = s.planes ∧ ∀ u off, regKey u off ≠ regKey (hu h .PCI) Fld.PCI_CNT_A_DENY.key → t.reg u off = s.reg u off) := by
  have hw : writeBar0 (.host h) a.toNat be v s = (s.emit (.aer h a.toNat)).incSat (hu h .PCI) Fld.PCI_CNT_A_DENY := by
    simp [writeBar0, hm, hlease, hfree, carrier]
  refine ⟨_, congrArg Host.Outcome.next hw, by simp, ?_, by simp, fun u off hk => ?_⟩
  · have hwidth : Fld.PCI_CNT_A_DENY.width = 16 := rfl
    rw [State.incSat, State.get_put_same _ _ _ _ rfl, State.emit_get, hwidth]
    omega
  · rw [State.incSat, State.reg_put_ne _ _ hk.symm, State.emit_reg]

/-- Settles O8: without power the write ends at the block, without a page in the HUB block that carried it, and without the lease at the
port. -/
theorem writesThatReachNoRegister : Obligations.WritesThatReachNoRegister :=
  ⟨fun _ _ _ _ _ _ => regWrite_unpowered, fun _ _ _ _ _ => regWrite_no_page, fun _ _ _ _ _ => regWrite_denied⟩

end Sys2Proof.Machine
end

section
/-! SUPPORT. Accepted writes of the header registers (R46, R47, R51, R52): the word that the register keeps, the effect of the block, and
what latches after it. -/

namespace Sys2Proof.Machine

/-! ### The fields of a header register -/

/-- The header is the same for every block type (Table 2.2). -/
theorem regFields_header (b : Blk) {off : Nat} (ho : off % 4096 < 0x40) : regFields b off = Fld.tblHDR.filter (·.covers (off % 4096)) := by
  have hcore : ∀ f ∈ Fld.tblHDR, f.off ≠ 0x100 := by decide
  simp only [regFields, fieldsAt, ho, if_true]
  split
  · exact List.filter_eq_self.mpr fun f hf => by simpa using hcore f (List.mem_of_mem_filter hf)
  · rfl

/-- No header field is locked by LOCK (R54). -/
theorem lockHit_header (b : Blk) {off : Nat} (ho : off % 4096 < 0x40) (locked : Bool) (old v : Word) :
    lockHit (regFields b off) locked old v = false := by
  have hrwl : ∀ f ∈ Fld.tblHDR, ¬ f.acc = .rwl := by decide
  rw [regFields_header b ho]
  exact lockHit_of_no_rwl (List.any_eq_false.mpr fun f hf => by simpa using hrwl f (List.mem_of_mem_filter hf)) _ _ _

/-- BLK_CTRL takes EN and LOCK as written. -/
theorem keptWord_ctrl (s : State) (u : Nat) (b : Blk) (v : Word) :
    fieldGet (keptWord s u b 0x008 v) Fld.BLK_CTRL_EN = fieldGet v Fld.BLK_CTRL_EN ∧
      fieldGet (keptWord s u b 0x008 v) Fld.BLK_CTRL_LOCK = fieldGet v Fld.BLK_CTRL_LOCK := by
  have hrw : ∀ locked, ∀ f ∈ [Fld.BLK_CTRL_EN, Fld.BLK_CTRL_LOCK],
      accMask (Fld.tblHDR.filter (·.covers 0x008)) (fun a => a = .rw || (a = .rwl && !locked)) &&& f.mask = f.mask := by decide
  have hw1c : ∀ f : RField, accMask (Fld.tblHDR.filter (·.covers 0x008)) (fun a => a = .w1c) &&& f.mask = 0 := fun f => by
    have h0 : accMask (Fld.tblHDR.filter (·.covers 0x008)) (fun a => a = .w1c) = 0#32 := by decide
    rw [h0]
    exact BitVec.zero_and
  rw [keptWord, regFields_header b (by decide)]
  exact ⟨fieldGet_mergeWrite (hrw _ _ (by decide)) (hw1c _), fieldGet_mergeWrite (hrw _ _ (by decide)) (hw1c _)⟩

/-- BLK_IRQ_EN takes the whole word. -/
theorem keptWord_irqEn (s : State) (u : Nat) (b : Blk) (v : Word) : keptWord s u b 0x014 v = v := by
  have hrw : ∀ locked, accMask (Fld.tblHDR.filter (·.covers 0x014)) (fun a => a = .rw || (a = .rwl && !locked)) = BitVec.allOnes 32 := by decide
  have hw1c : accMask (Fld.tblHDR.filter (·.covers 0x014)) (fun a => a = .w1c) = 0#32 := by decide
  rw [keptWord, regFields_header b (by decide), mergeWrite]
  simp only [show 0x014 % 4096 = 0x014 from rfl, hrw, hw1c]
  exact BitVec.eq_of_getLsbD_eq fun i hi => by
    simp only [BitVec.getLsbD_and, BitVec.getLsbD_or, BitVec.getLsbD_not, BitVec.getLsbD_allOnes, BitVec.getLsbD_zero, hi]
    simp

/-- BLK_IRQ_STAT clears the bits written 1. -/
theorem keptWord_irqStat (s : State) (u : Nat) (b : Blk) (v : Word) : keptWord s u b 0x018 v = s.reg u 0x018 &&& ~~~v := by
  have hrw : ∀ locked, accMask (Fld.tblHDR.filter (·.covers 0x018)) (fun a => a = .rw || (a = .rwl && !locked)) = 0#32 := by decide
  have hw1c : accMask (Fld.tblHDR.filter (·.covers 0x018)) (fun a => a = .w1c) = BitVec.allOnes 32 := by decide
  rw [keptWord, regFields_header b (by decide), mergeWrite]
  simp only [show 0x018 % 4096 = 0x018 from rfl, hrw, hw1c]
  exact BitVec.eq_of_getLsbD_eq fun i hi => by
    simp only [BitVec.getLsbD_and, BitVec.getLsbD_or, BitVec.getLsbD_not, BitVec.getLsbD_allOnes, BitVec.getLsbD_zero, hi]
    simp

/-- A header register with neither RW nor W1C fields, BLK_ERR_CLASS or BLK_FENCE, keeps its word: its commands are not stored (R12). -/
theorem keptWord_readOnly {o : Nat} (ho : o = 0x01C ∨ o = 0x034) (s : State) (u : Nat) (b : Blk) (v : Word) :
    keptWord s u b o v = s.reg u o := by
  have hrw : ∀ locked, ∀ o ∈ [0x01C, 0x034], accMask (Fld.tblHDR.filter (·.covers o)) (fun a => a = .rw || (a = .rwl && !locked)) = 0#32 := by
    decide
  have hw1c : ∀ o ∈ [0x01C, 0x034], accMask (Fld.tblHDR.filter (·.covers o)) (fun a => a = .w1c) = 0#32 := by decide
  have hself : o % 4096 = o := by omega
  rw [keptWord, regFields_header b (by omega), mergeWrite, hself, hrw _ o (by simpa using ho), hw1c o (by simpa using ho)]
  exact BitVec.eq_of_getLsbD_eq fun i hi => by
    simp only [BitVec.getLsbD_and, BitVec.getLsbD_or, BitVec.getLsbD_not, BitVec.getLsbD_zero, hi]
    simp

/-! ### The store -/

theorem afterStore_reg_own (s : State) {u off : Nat} {b : Blk} {v : Word} (h : off % 4096 ≠ 0x038) :
    (afterStore s u b off v).reg u off = keptWord s u b off v := by
  rw [afterStore, State.inc, State.reg_put_ne _ _ (regKey_ne_of_mod (Ne.symm h)), State.reg_setReg_same]

theorem afterStore_reg_ne (s : State) {u off u' off' : Nat} (b : Blk) (v : Word) (h : regKey u' off' ≠ regKey u off)
    (hseq : regKey u' off' ≠ regKey u Fld.BLK_SEQ.key) : (afterStore s u b off v).reg u' off' = s.reg u' off' := by
  rw [afterStore, State.inc, State.reg_put_ne _ _ hseq.symm, State.reg_setReg_ne _ _ h.symm]

/-- BLK_SEQ counts the write (R52). -/
theorem afterStore_seq (s : State) {u off : Nat} (b : Blk) (v : Word) (h : off % 4096 ≠ 0x038) :
    (afterStore s u b off v).get u Fld.BLK_SEQ = (s.get u Fld.BLK_SEQ + 1) % 2 ^ 32 := by
  have hwidth : Fld.BLK_SEQ.width = 32 := rfl
  rw [afterStore, State.inc, State.get_put_same _ _ _ _ rfl, hwidth, Nat.mod_mod, State.get, State.reg_setReg_ne _ _ (regKey_ne_of_mod h),
    State.get]

@[simp] theorem afterStore_frame (s : State) (u : Nat) (b : Blk) (off : Nat) (v : Word) :
    (afterStore s u b off v).planes = s.planes ∧ (afterStore s u b off v).hubs = s.hubs ∧ (afterStore s u b off v).rep = s.rep ∧
      (afterStore s u b off v).mbx = s.mbx ∧ (afterStore s u b off v).cfg = s.cfg ∧ (afterStore s u b off v).dead = s.dead := by
  simp [afterStore]

theorem afterStore_page (s : State) (u : Nat) (b : Blk) (pg : Nat) {o : Nat} (v : Word) (ho : o < 0x40) :
    afterStore s u b (4096 * pg + o) v = afterStore s u b o v := by
  have hmod : (4096 * pg + o) % 4096 = o := by omega
  have hself : o % 4096 = o := by omega
  rw [afterStore, afterStore, keptWord, keptWord, regFields_header b (by omega), regFields_header b (by omega), hmod, hself,
    State.reg_page s u pg ho, State.setReg_page s u pg _ ho]

/-! ### The write -/

/-- The latch commands lie in LAT's entries, at offsets that are multiples of 0x20: every other header register is stored. -/
theorem acceptWrite_header {acc : Accessor} {u n off : Nat} {b : Blk} {v : Word} {s : State} (ho : off % 4096 < 0x40) (hlat : off % 32 ≠ 0)
    (hsrst : ¬ (off % 4096 = 0x008 ∧ v.getLsbD 1 = true)) :
    acceptWrite acc u b n off v s = headerEffect u b n off v (s.reg u off) (afterStore s u b off v) := by
  have hkeep : latKeep off v = false := by
    simp only [latKeep, Bool.and_eq_false_iff, decide_eq_false_iff_not]
    omega
  have hskip : storeSkips s u b n off v = false := by simp [storeSkips, hkeep, Nat.not_le.mpr ho]
  rw [acceptWrite, if_neg hsrst]
  simp [ho, lockHit_header, hskip, afterStore, keptWord]

theorem headerEffect_page (u : Nat) (b : Blk) (n pg : Nat) {o : Nat} (v old : Word) (s : State) (ho : o < 0x40) :
    headerEffect u b n (4096 * pg + o) v old s = headerEffect u b n o v old s := by
  have hmod : (4096 * pg + o) % 4096 = o := by omega
  have hself : o % 4096 = o := by omega
  unfold headerEffect
  rw [hmod, hself]

/-- An accepted write of a header register, in whichever page of its block, is stored, counted, and has the header's effect (R42, R52). -/
theorem regWrite_header {acc : Accessor} {u pg o : Nat} {v : Word} {s : State} (hwf : wfPage u pg = true) (ho : o < 0x40) (hlat : o % 32 ≠ 0)
    (hsrst : ¬ (o = 0x008 ∧ v.getLsbD 1 = true)) (hacc : accepted s acc u (4096 * pg + o) v = true) :
    ∃ b n was, unitBlk u = some (b, n) ∧ regWrite acc u (4096 * pg + o) v s =
      latchAfter was u (headerEffect u b n o v (s.reg u o) (afterStore (arrive acc u s) u b o v)) := by
  obtain ⟨b, n, hb, hpg⟩ := wfPage_iff.mp hwf
  have hold : (arrive acc u s).reg u (4096 * pg + o) = s.reg u o := by
    rw [State.reg_page _ u pg ho, arrive_reg acc u s (not_countsLink_of_low u (by omega))]
  have hoff : 4096 * pg + o < 4096 * pagesOf b := by omega
  have hw := regWrite_accepted hb hoff hacc
  rw [acceptWrite_header (by omega) (by omega) (fun h => hsrst ⟨by omega, h.2⟩), hold, afterStore_page _ u b pg v ho,
    headerEffect_page u b n pg v _ _ ho] at hw
  exact ⟨b, n, _, hb, hw⟩

/-! ### What latches after it -/

/-- BLK_IRQ_STAT after a write: what it held, and every condition that is present and enabled (R51). -/
theorem latchAfter_irqStat (was : Bool) (u : Nat) (s : State) (hpow : s.powered u = true) :
    (latchAfter was u s).reg u 0x018 = s.reg u 0x018 ||| (rawIrq s u &&& s.reg u 0x014) := by
  simp only [latchAfter, hpow, true_and]
  by_cases hen : s.reg u 0x014 = 0
  · simp [hen]
  · simp only [ne_eq, hen, not_false_eq_true, if_true, latchWas]
    have hreg : (if s.reg u 0x018 ||| (rawIrq s u &&& s.reg u 0x014) = s.reg u 0x018 then s
        else s.setReg u 0x018 (s.reg u 0x018 ||| (rawIrq s u &&& s.reg u 0x014))).reg u 0x018 =
        s.reg u 0x018 ||| (rawIrq s u &&& s.reg u 0x014) := by
      split
      · rename_i h; exact h.symm
      · exact State.reg_setReg_same _ _ _ _
    split
    · rw [requestRises_reg, hreg]
    · exact hreg

/-- Bit 31 of BLK_IRQ_RAW is REJ (R50). -/
theorem rawIrq_rej {s : State} {u : Nat} (hb : (unitBlk u).isSome = true) (hrej : s.on u Fld.BLK_STAT_REJ = true) :
    (rawIrq s u).getLsbD 31 = true := by
  obtain ⟨⟨b, n⟩, hb⟩ := Option.isSome_iff_exists.mp hb
  have h31 : (BitVec.ofNat 32 (b2n true * 2 ^ 31)).getLsbD 31 = true := by decide
  simp only [rawIrq, hb, hrej, BitVec.getLsbD_or, h31, Bool.or_true]

end Sys2Proof.Machine
end

section
/-! SUPPORT. The writes of BLK_CTRL, BLK_STAT, BLK_IRQ_STAT and BLK_IRQ_EN (R46, R51), of the mailbox wards and of a channel's transmit words
(R54, R382), and the statements about them. -/

namespace Sys2Proof.Machine

/-! ### BLK_CTRL -/

/-- A write of BLK_CTRL that carries no SRST: EN takes its value, and LOCK is only set (R46). -/
theorem headerEffect_ctrl (u : Nat) (b : Blk) (n : Nat) (v old : Word) (s : State) :
    (headerEffect u b n 0x008 v old s).get u Fld.BLK_CTRL_EN = s.get u Fld.BLK_CTRL_EN ∧
      (headerEffect u b n 0x008 v old s).get u Fld.BLK_CTRL_LOCK = (if old.getLsbD 2 then 1 else s.get u Fld.BLK_CTRL_LOCK) ∧
      (headerEffect u b n 0x008 v old s).get u Fld.BLK_SEQ = s.get u Fld.BLK_SEQ := by
  have hset : headerEffect u b n 0x008 v old s = if old.getLsbD 2 then s.put u Fld.BLK_CTRL_LOCK 1 else s := rfl
  rw [hset]
  split
  · exact ⟨State.get_put_apart _ _ rfl rfl rfl rfl, State.get_put_same _ _ _ _ rfl, State.get_put_ne _ _ (regKey_ne_of_mod (by decide))⟩
  · exact ⟨rfl, rfl, rfl⟩

theorem regWrite_ctrl {acc : Accessor} {u pg : Nat} {v : Word} {s : State} (hwf : wfPage u pg = true) (hsrst : v.getLsbD 1 = false)
    (hacc : accepted s acc u (4096 * pg + 0x008) v = true) :
    (regWrite acc u (4096 * pg + 0x008) v s).get u Fld.BLK_CTRL_EN = fieldGet v Fld.BLK_CTRL_EN ∧
      (regWrite acc u (4096 * pg + 0x008) v s).get u Fld.BLK_CTRL_LOCK =
        (if (s.reg u 0x008).getLsbD 2 then 1 else fieldGet v Fld.BLK_CTRL_LOCK) ∧
      (regWrite acc u (4096 * pg + 0x008) v s).get u Fld.BLK_SEQ = (s.get u Fld.BLK_SEQ + 1) % 2 ^ 32 := by
  obtain ⟨b, n, was, -, hw⟩ := regWrite_header hwf (by decide) (by decide) (fun h => Bool.false_ne_true (hsrst.symm.trans h.2)) hacc
  obtain ⟨hen, hlock, hseq⟩ := headerEffect_ctrl u b n v (s.reg u 0x008) (afterStore (arrive acc u s) u b 0x008 v)
  have hkept : ∀ f : RField, f.key = 0x008 → (afterStore (arrive acc u s) u b 0x008 v).get u f =
      fieldGet (keptWord (arrive acc u s) u b 0x008 v) f :=
    fun f hf => by rw [State.get, hf, afterStore_reg_own _ (by decide)]
  obtain ⟨hkeptEn, hkeptLock⟩ := keptWord_ctrl (arrive acc u s) u b v
  rw [hw]
  refine ⟨?_, ?_, ?_⟩ <;> rw [latchAfter_get _ _ (regKey_ne_of_mod (by decide))]
  · rw [hen, hkept _ rfl, hkeptEn]
  · rw [hlock, hkept _ rfl, hkeptLock]
  · rw [hseq, afterStore_seq _ _ _ (by decide), arrive_get acc u s (by decide)]

/-! ### BLK_STAT and BLK_IRQ_STAT -/

/-- REJ and its record (R52). -/
def rejRecord : List RField := [Fld.BLK_STAT_REJ, Fld.BLK_STAT_REJ_CODE, Fld.BLK_STAT_REJ_OFF, Fld.BLK_STAT_REJ_CNT]

theorem rejRecord_key : ∀ f ∈ rejRecord, f.key = 0x00C := by decide

/-- Clearing REJ clears its record (R52). -/
theorem headerEffect_rej {v : Word} (hv : v.getLsbD 0 = true) (u : Nat) (b : Blk) (n : Nat) (old : Word) (s : State) {f : RField}
    (hf : f ∈ rejRecord) :
    (headerEffect u b n 0x00C v old s).get u f = 0 := by
  have hset : headerEffect u b n 0x00C v old s =
      if v.getLsbD 0 then s.setReg u 0x00C ((s.reg u 0x00C) &&& 0x000000FE#32) else s := rfl
  have hclear : ∀ f ∈ rejRecord, 0x000000FE#32 &&& f.mask = 0#32 := by decide
  have hzero : fieldGet 0#32 f = 0 := by simp [fieldGet]
  rw [hset, if_pos hv, State.get, rejRecord_key f hf, State.reg_setReg_same, ← hzero]
  apply fieldGet_congr
  rw [BitVec.and_assoc, hclear f hf, BitVec.and_zero, BitVec.zero_and]

/-- Clearing an interrupt ends what the block keeps of it in no register (R390). -/
theorem headerEffect_irqStat_reg (u : Nat) (b : Blk) (n : Nat) (v old : Word) (s : State) (u' off' : Nat) :
    (headerEffect u b n 0x018 v old s).reg u' off' = s.reg u' off' := by
  simp only [headerEffect]
  split
  · split
    · exact modHub_reg _ _ _ _ _ fun _ => rfl
    · rfl
  · rfl

theorem powered_congr {s t : State} (h : t.reg (hu .a .PWR) Fld.PWR_DOM_STAT_ON.key = s.reg (hu .a .PWR) Fld.PWR_DOM_STAT_ON.key) (u : Nat) :
    t.powered u = s.powered u := by
  simp only [State.powered, State.domOn, State.get, h]

/-- An accepted write of BLK_IRQ_STAT clears the bits written 1 and leaves every other register but BLK_SEQ, before interrupts latch. -/
theorem regWrite_irqStat {acc : Accessor} {u pg : Nat} {v : Word} {s : State} (hwf : wfPage u pg = true)
    (hacc : accepted s acc u (4096 * pg + 0x018) v = true) :
    ∃ was t, regWrite acc u (4096 * pg + 0x018) v s = latchAfter was u t ∧ t.reg u 0x018 = s.reg u 0x018 &&& ~~~v ∧
      ∀ u', ∀ o < 0x400, o % 4096 ≠ 0x018 → o % 4096 ≠ 0x038 → t.reg u' o = s.reg u' o := by
  obtain ⟨b, n, was, -, hw⟩ := regWrite_header hwf (by decide) (by decide) (by simp) hacc
  refine ⟨was, _, hw, ?_, fun u' o ho hirq hseq => ?_⟩ <;> rw [headerEffect_irqStat_reg]
  · rw [afterStore_reg_own _ (by decide), keptWord_irqStat, arrive_reg acc u s (not_countsLink_of_low u (by decide))]
  · rw [afterStore_reg_ne _ _ _ (regKey_ne_of_mod hirq) (regKey_ne_of_mod hseq), arrive_reg acc u s (not_countsLink_of_low u' (by omega))]

/-- Then every condition that is present and enabled latches (R51). -/
theorem regWrite_irqStat_latched {acc : Accessor} {u pg : Nat} {v : Word} {s : State} (hwf : wfPage u pg = true)
    (hacc : accepted s acc u (4096 * pg + 0x018) v = true) :
    ∃ raw : Word, (regWrite acc u (4096 * pg + 0x018) v s).reg u 0x018 = (s.reg u 0x018 &&& ~~~v) ||| (raw &&& s.reg u 0x014) ∧
      (s.on u Fld.BLK_STAT_REJ = true → raw.getLsbD 31 = true) := by
  obtain ⟨was, t, hw, hirq, hsame⟩ := regWrite_irqStat hwf hacc
  obtain ⟨b, n, hb, -⟩ := wfPage_iff.mp hwf
  have hpow : t.powered u = true := by
    simp only [accepted, reaches, Bool.and_eq_true] at hacc
    rw [powered_congr (hsame _ _ (by decide) (by decide) (by decide))]
    exact hacc.1.1.2
  refine ⟨rawIrq t u, ?_, fun hrej => rawIrq_rej (by rw [hb]; rfl) ?_⟩
  · rw [hw, latchAfter_irqStat _ _ _ hpow, hirq, hsame _ _ (by decide) (by decide) (by decide)]
  · rw [State.on, State.get, hsame _ _ (by decide) (by decide) (by decide)]
    exact hrej

/-- Settles O9: the four registers take the written word by their access types, and LOCK, the record of rejections and the enabled conditions
have the effect that the header gives them. -/
theorem headerControlWrites : Obligations.HeaderControlWrites := by
  have hbits : ∀ en : Bool, (BitVec.ofNat 32 (b2n en)).getLsbD 1 = false ∧ fieldGet (BitVec.ofNat 32 (b2n en)) Fld.BLK_CTRL_EN = b2n en ∧
      fieldGet (BitVec.ofNat 32 (b2n en)) Fld.BLK_CTRL_LOCK = 0 := by decide
  have hbitsLock : ∀ en : Bool, (BitVec.ofNat 32 (b2n en) ||| Fld.BLK_CTRL_LOCK.mask).getLsbD 1 = false ∧
      fieldGet (BitVec.ofNat 32 (b2n en) ||| Fld.BLK_CTRL_LOCK.mask) Fld.BLK_CTRL_EN = b2n en ∧
      fieldGet (BitVec.ofNat 32 (b2n en) ||| Fld.BLK_CTRL_LOCK.mask) Fld.BLK_CTRL_LOCK = 1 := by decide
  refine ⟨fun acc u pg en s hwf hacc => ?_, fun acc u pg en s hwf hacc => ?_, fun acc u pg v s hwf hacc => ?_,
    fun acc u pg v s hwf hacc => ?_⟩
  · obtain ⟨hsrst, hen, hlock⟩ := hbits en
    obtain ⟨h1, h2, h3⟩ := regWrite_ctrl hwf hsrst hacc
    have hold : s.get u Fld.BLK_CTRL_LOCK = b2n ((s.reg u 0x008).getLsbD 2) := fieldGet_bit rfl
    refine ⟨_, rfl, h1.trans hen, h2.trans ?_, h3⟩
    rw [hlock, hold]
    rfl
  · obtain ⟨hsrst, hen, hlock⟩ := hbitsLock en
    obtain ⟨h1, h2, -⟩ := regWrite_ctrl hwf hsrst hacc
    refine ⟨_, rfl, h2.trans ?_, h1.trans hen⟩
    rw [hlock, ite_self]
  · obtain ⟨b, n, was, -, hw⟩ := regWrite_header hwf (by decide) (by decide) (by simp) hacc
    have hv : (v ||| Fld.BLK_STAT_REJ.mask).getLsbD 0 = true := by
      have hbit : Fld.BLK_STAT_REJ.mask.getLsbD 0 = true := by decide
      rw [BitVec.getLsbD_or, hbit, Bool.or_true]
    have hclear : ∀ f ∈ rejRecord, (regWrite acc u (4096 * pg + 0x00C) (v ||| Fld.BLK_STAT_REJ.mask) s).get u f = 0 := fun f hf => by
      rw [hw, latchAfter_get _ _ (regKey_ne_of_mod (by rw [rejRecord_key f hf]; decide)), headerEffect_rej hv _ _ _ _ _ hf]
    exact ⟨_, rfl, hclear _ (by decide), hclear _ (by decide), hclear _ (by decide), hclear _ (by decide)⟩
  · obtain ⟨raw, hirq, hrej⟩ := regWrite_irqStat_latched hwf hacc
    refine ⟨_, rfl, fun n hv hen => ?_, fun n hv hold => ?_, fun hon hen => ?_⟩ <;>
      rw [hirq, BitVec.getLsbD_or, BitVec.getLsbD_and, BitVec.getLsbD_and, BitVec.getLsbD_not]
    · simp [hv, hen]
    · simp only [hv, hold, BitVec.lt_of_getLsbD hold, decide_true, Bool.not_false, Bool.and_self, Bool.true_or]
    · simp [hrej hon, hen]

/-! ### Stored writes -/

/-- An accepted write of BLK_IRQ_EN, in whichever page, changes no other register but BLK_SEQ and what latches (R51, R52). -/
theorem regWrite_irqEn {acc : Accessor} {u pg : Nat} {v : Word} {s : State} {a : Word} (hwf : wfPage u pg = true)
    (hacc : accepted s acc u (4096 * pg + 0x014) v = true) (ha : bar0Of u (4096 * pg + 0x014) = some a.toNat) :
    Completes (.regWrite acc (.bar0 a) 15 v) s (fun t =>
      t.reg u 0x014 = v ∧ t.get u Fld.BLK_SEQ = (s.get u Fld.BLK_SEQ + 1) % 2 ^ 32 ∧ t.planes = s.planes ∧ t.cfg = s.cfg ∧ t.dead = s.dead ∧
      ∀ u' off', regKey u' off' ≠ regKey u 0x014 → regKey u' off' ≠ regKey u 0x018 → regKey u' off' ≠ regKey u Fld.BLK_SEQ.key →
        ¬ countsLink u' off' → t.reg u' off' = s.reg u' off') := by
  obtain ⟨b, n, was, -, hw⟩ := regWrite_header hwf (by decide) (by decide) (by simp) hacc
  have heff : ∀ x, headerEffect u b n 0x014 v (s.reg u 0x014) x = x := fun _ => rfl
  rw [heff] at hw
  refine ⟨_, exec_regWrite_bar0 ha acc v s, ?_⟩
  rw [hw]
  refine ⟨?_, ?_, by simp, by simp, by simp, fun u' off' hen hirq hseq hlink => ?_⟩
  · rw [latchAfter_reg _ _ (regKey_ne_of_mod (by decide)), afterStore_reg_own _ (by decide), keptWord_irqEn]
  · rw [latchAfter_get _ _ (regKey_ne_of_mod (by decide)), afterStore_seq _ _ _ (by decide), arrive_get acc u s (by decide)]
  · rw [latchAfter_reg _ _ hirq.symm, afterStore_reg_ne _ _ _ hen hseq, arrive_reg acc u s hlink]

theorem unitBlk_MBX (h : HubId) : unitBlk (hu h .MBX) = some (.MBX, 0) := by cases h <;> decide
theorem unitHub_MBX (h : HubId) : unitHub (hu h .MBX) = some h := by cases h <;> decide

/-- The state in which an accepted write is stored: LOCK_HIT is 1 where it met a locked field with another value (R54). -/
def lockNoted (s : State) (u : Nat) (b : Blk) (off : Nat) (v : Word) : State :=
  if lockHit (regFields b off) (s.on u Fld.BLK_CTRL_LOCK) (s.reg u off) v then s.put u Fld.BLK_STAT_LOCK_HIT 1 else s

theorem lockNoted_reg (s : State) {u u' off' : Nat} (b : Blk) (off : Nat) (v : Word) (h : regKey u' off' ≠ regKey u 0x00C) :
    (lockNoted s u b off v).reg u' off' = s.reg u' off' := by
  unfold lockNoted
  split
  · exact State.reg_put_ne _ _ h.symm
  · rfl

@[simp] theorem lockNoted_frame (s : State) (u : Nat) (b : Blk) (off : Nat) (v : Word) :
    (lockNoted s u b off v).planes = s.planes ∧ (lockNoted s u b off v).mbx = s.mbx ∧ (lockNoted s u b off v).cfg = s.cfg ∧
      (lockNoted s u b off v).dead = s.dead := by
  unfold lockNoted
  split <;> simp

/-- A ward's word depends on neither LOCK_HIT nor any other header register but BLK_CTRL. -/
theorem lockNoted_keptWord (s : State) (u : Nat) {b : Blk} {off : Nat} (v : Word) (ho : 0x40 ≤ off % 4096) :
    keptWord (lockNoted s u b off v) u b off v = keptWord s u b off v := by
  rw [keptWord, keptWord, State.on, State.get, lockNoted_reg s b off v (regKey_ne_of_mod (by decide)), ← State.get, ← State.on,
    lockNoted_reg s b off v (regKey_ne_of_mod (by omega))]

/-- An accepted write of a register of MBX is stored, and the block does nothing else. -/
theorem acceptWrite_MBX {acc : Accessor} {h : HubId} {off : Nat} {v : Word} {s : State} (ho : 0x40 ≤ off % 4096) :
    acceptWrite acc (hu h .MBX) .MBX 0 off v s = afterStore (lockNoted s (hu h .MBX) .MBX off v) (hu h .MBX) .MBX off v := by
  have h8 : off % 4096 ≠ 0x008 := by omega
  have hskip : ∀ t, storeSkips t (hu h .MBX) .MBX 0 off v = false := fun t => by
    simp [storeSkips, viewReg, Nat.not_lt.mpr ho, unitPlane_hu, unitHub_MBX, hubView]
  rw [afterStore, lockNoted_keptWord s _ v ho]
  simp [acceptWrite, h8, Nat.not_lt.mpr ho, hskip, unitPlane_hu, unitHub_MBX, hubEffect, lockNoted, keptWord]

/-- An accepted write of a ward stores the fields that LOCK leaves open (R52, R54). -/
theorem regWrite_ward {acc : Accessor} {h : HubId} {k : Fin 128} {v : Word} {s : State} {a : Word}
    (hacc : accepted s acc (hu h .MBX) (0x400 + 4 * k.val) v = true) (ha : bar0Of (hu h .MBX) (0x400 + 4 * k.val) = some a.toNat) :
    Completes (.regWrite acc (.bar0 a) 15 v) s (fun t =>
      t.reg (hu h .MBX) (0x400 + 4 * k.val) = mergeWrite (regFields .MBX (0x400 + 4 * k.val)) (s.on (hu h .MBX) Fld.BLK_CTRL_LOCK)
        (s.reg (hu h .MBX) (0x400 + 4 * k.val)) v ∧
      t.get (hu h .MBX) Fld.BLK_SEQ = (s.get (hu h .MBX) Fld.BLK_SEQ + 1) % 2 ^ 32 ∧ t.planes = s.planes ∧ t.mbx = s.mbx ∧ t.cfg = s.cfg ∧
      t.dead = s.dead ∧
      ∀ u' off', regKey u' off' ≠ regKey (hu h .MBX) (0x400 + 4 * k.val) → regKey u' off' ≠ regKey (hu h .MBX) 0x00C →
        regKey u' off' ≠ regKey (hu h .MBX) 0x018 → regKey u' off' ≠ regKey (hu h .MBX) Fld.BLK_SEQ.key → t.reg u' off' = s.reg u' off') := by
  have hoff : 0x40 ≤ (0x400 + 4 * k.val) % 4096 ∧ 0x400 + 4 * k.val < 4096 * pagesOf .MBX := by
    simp only [pagesOf]
    omega
  have hseqNe : (0x400 + 4 * k.val) % 4096 ≠ 0x038 := by omega
  have hw := regWrite_accepted (unitBlk_MBX h) hoff.2 hacc
  rw [arrive_of_hub (unitPlane_hu h .MBX), acceptWrite_MBX hoff.1] at hw
  refine ⟨_, exec_regWrite_bar0 ha acc v s, ?_⟩
  rw [hw]
  refine ⟨?_, ?_, by simp, by simp, by simp, by simp, fun u' off' hward hstat hirq hseq => ?_⟩
  · rw [latchAfter_reg _ _ (regKey_ne_of_mod (by omega)), afterStore_reg_own _ hseqNe, lockNoted_keptWord _ _ _ hoff.1, keptWord]
  · rw [latchAfter_get _ _ (regKey_ne_of_mod (by decide)), afterStore_seq _ _ _ hseqNe, State.get,
      lockNoted_reg _ _ _ _ (regKey_ne_of_mod (by decide)), ← State.get]
  · rw [latchAfter_reg _ _ hirq.symm, afterStore_reg_ne _ _ _ hward hseq, lockNoted_reg _ _ _ _ hstat]

/-- A transmit word is a register of one whole field (Table 13.6). -/
theorem chFields_tx (k : Fin 64) : (chFields (0x100 + 4 * k.val)).isEmpty = false ∧ reservedMask (chFields (0x100 + 4 * k.val)) = 0#32 := by
  revert k
  decide +kernel

/-- The sending end's write of a transmit word meets no condition of Table 2.3 (R381, R382). -/
theorem chWrite_tx {acc : Accessor} {c : Fin 256} (k : Fin 64) (v : Word) {s : State} (hreach : chReach s acc (chHub c) = true)
    (hrst : s.on (hu (chHub c) .MBX) Fld.BLK_STAT_RST_BUSY = false) (hfence : s.fenced (hu (chHub c) .MBX) = false) (hag : agentOf acc ≠ 0)
    (hsend : ward s c Fld.MBX_WARD_SEND = agentOf acc) :
    chWrite acc c (0x100 + 4 * k.val) 15 v s =
      setChan (s.inc (hu (chHub c) .MBX) Fld.BLK_SEQ) c { chan s c with tx := mput (chan s c).tx k.val v } := by
  obtain ⟨hfields, hmask⟩ := chFields_tx k
  have hk := k.isLt
  have h4 : (0x100 + 4 * k.val) % 4 = 0 := by omega
  have hidx : (0x100 + 4 * k.val - 0x100) / 4 = k.val := by omega
  have htx : 0x100 ≤ 0x100 + 4 * k.val ∧ 0x100 + 4 * k.val < 0x200 := by omega
  have hne : ∀ o < 0x100, (0x100 + 4 * k.val = o) = False := fun o ho => eq_false (by omega)
  have hverdict : chVerdict s acc c (0x100 + 4 * k.val) v = {} := by
    simp only [chVerdict, hsend, hag, true_or, not_true_eq_false, or_self, if_false, decide_true, Bool.not_true, htx, and_self, or_true,
      if_true, hne _ (show 0x004 < 0x100 by decide), hne _ (show 0x008 < 0x100 by decide), hne _ (show 0x010 < 0x100 by decide),
      hne _ (show 0x018 < 0x100 by decide), hne _ (show 0x01C < 0x100 by decide)]
  have heffect : ∀ t, chEffect acc c (0x100 + 4 * k.val) v t = setChan t c { chan t c with tx := mput (chan t c).tx k.val v } := by
    intro t
    simp only [chEffect, htx, and_self, if_true, hidx, hne _ (show 0x004 < 0x100 by decide), hne _ (show 0x008 < 0x100 by decide), hne _ (show 0x010 < 0x100 by decide),
      hne _ (show 0x014 < 0x100 by decide), hne _ (show 0x018 < 0x100 by decide), hne _ (show 0x01C < 0x100 by decide), if_false]
  simp only [chWrite, hreach, hrst, hfence, hfields, hmask, hverdict, h4]
  simp [firstReject, heffect, chan]

/-- Settles O16: an accepted write stores its register's word and counts, the blocks named here add no effect of their own, and a channel keeps
its sending end's transmit word. -/
theorem acceptedWriteIsStored : Obligations.AcceptedWriteIsStored := by
  refine ⟨fun _ _ _ _ _ _ => regWrite_irqEn, fun _ _ _ _ _ _ => regWrite_ward, fun acc c k v s hreach hrst hfence hag hsend => ?_⟩
  have hw := chWrite_tx k v hreach hrst hfence hag hsend
  refine ⟨_, congrArg Host.Outcome.next hw, ?_, fun d hd => ?_, by simp [setChan]⟩
  · simp [chan, setChan]
  · have hne : c.val ≠ d.val := fun h => hd (Fin.ext h.symm)
    simp [chan, setChan, mgetD_mput_ne _ _ _ hne]

end Sys2Proof.Machine
end

section
/-! SUPPORT. The acknowledgment of a log and the requests that close a hasp (R47, R49, Table 14.6). -/

namespace Sys2Proof.Machine

/-! ### The log -/

theorem State.reg_of_key_eq (s : State) {u off u' off' : Nat} (h : regKey u off = regKey u' off') : s.reg u off = s.reg u' off' := by
  simp only [State.reg, h]

@[simp] theorem State.modRp_rp (s : State) (u : Nat) (f : Reporter → Reporter) : (s.modRp u f).rp u = f (s.rp u) := mgetD_mput_same _ _ _ _

/-- The log reads nothing of the report logic but RSEQ and the time of its capture. -/
theorem logNow_modRp (s : State) (u : Nat) {f : Reporter → Reporter}
    (hf : ∀ r, (f r).rseq = r.rseq ∧ (f r).capAt = r.capAt ∧ (f r).capFor = r.capFor) : logNow (s.modRp u f) u = logNow s u := by
  simp only [logNow, State.modRp_reg, State.modRp_rp, hf]

/-- The log that is stored is the log that is read. -/
theorem logNow_setLog (u : Nat) (x : LogSave) (s : State) : logNow (setLog u x s) u = x := by
  simp only [logNow, setLog, State.modRp_reg, State.modRp_rp]
  simp (disch := (apply regKey_ne_of_mod; decide)) only [State.reg_setReg_same, State.reg_setReg_ne]

/-- A register beside the log, in whichever unit (R47). -/
theorem setLog_reg_beside (u : Nat) (x : LogSave) (s : State) {u' off : Nat} (h : off % 4096 < 0x01C ∨ 0x02C < off % 4096) :
    (setLog u x s).reg u' off = s.reg u' off := by
  have hne : ∀ o, 0x01C ≤ o → o ≤ 0x02C → regKey u o ≠ regKey u' off := fun o h1 h2 => regKey_ne_of_mod (by omega)
  simp only [setLog, State.modRp_reg]
  repeat rw [State.reg_setReg_ne _ _ (hne _ (by decide) (by decide))]

/-- The log reads the unit's log registers and what its report logic keeps of them. -/
theorem logNow_congr {s t : State} {u : Nat} (hreg : ∀ o, 0x01C ≤ o → o ≤ 0x02C → t.reg u o = s.reg u o) (hrep : t.rep = s.rep) :
    logNow t u = logNow s u := by
  simp only [logNow, State.rp, hrep, hreg Fld.BLK_ERR_CLASS.key (by decide) (by decide), hreg Fld.BLK_ERR_LOG0_FT_LO.key (by decide) (by decide),
    hreg Fld.BLK_ERR_LOG1_FT_HI.key (by decide) (by decide), hreg Fld.BLK_ERR_LOG2_WHERE.key (by decide) (by decide),
    hreg Fld.BLK_ERR_LOG3_DETAIL.key (by decide) (by decide)]

theorem logNow_latchAfter (was : Bool) (u : Nat) (s : State) : logNow (latchAfter was u s) u = logNow s u :=
  logNow_congr (fun _ _ _ => latchAfter_reg _ _ (regKey_ne_of_mod (by omega))) (by simp)

/-- A field of BLK_ERR_CLASS is a field of the log's first word. -/
theorem State.get_of_logNow (s : State) (u : Nat) {f : RField} (hf : f.key = Fld.BLK_ERR_CLASS.key) :
    s.get u f = fieldGet (logNow s u).cls f := by rw [State.get, hf]; rfl

/-- What the log of a unit follows from (R47): the registers below 0x400 of the units' pages but BLK_SEQ, the planes, the report logic and the
unit's own beat. -/
structure SameLogSource (s t : State) (u : Nat) : Prop where
  low : ∀ u', ∀ o < 0x400, o ≠ 0x038 → t.reg u' o = s.reg u' o
  planes : t.planes = s.planes
  rep : t.rep = s.rep
  beat : unitBeat t u = unitBeat s u

section
variable {s t : State} {u : Nat} (h : SameLogSource s t u)
include h

theorem SameLogSource.get (u' : Nat) {f : RField} (hf : f.key < 0x400 ∧ f.key ≠ 0x038) : t.get u' f = s.get u' f := by
  rw [State.get, h.low u' _ hf.1 hf.2, State.get]

theorem SameLogSource.fenced (u' : Nat) : t.fenced u' = s.fenced u' := by rw [State.fenced, State.on, h.get u' (by decide), State.fenced, State.on]

theorem SameLogSource.logNow : logNow t u = logNow s u := logNow_congr (fun o h1 h2 => h.low u o (by omega) (by omega)) h.rep

theorem SameLogSource.detectedNow : detectedNow t u = detectedNow s u := by
  rw [Machine.detectedNow, Machine.detectedNow, State.rp, State.rp, h.rep, h.beat]

theorem SameLogSource.logBase : logBase t u = logBase s u := by
  simp only [Machine.logBase, h.detectedNow, h.logNow, h.beat, State.rp, h.rep]

theorem SameLogSource.settleLog : settleLog t u = settleLog s u := by
  have hft : unitFt t u = unitFt s u := by
    simp only [unitFt, State.ft, State.pl, h.planes, h.get _ (show Fld.TRF_CFG_PPS_OUT_PLANE.key < 0x400 ∧ _ by decide)]
  have hcack : cackBeats t = cackBeats s := by
    rw [cackBeats, cackBeats, State.hubFenced, State.hubFenced, h.fenced, h.get _ (by decide)]
  funext b base ds
  simp only [Machine.settleLog, hft, hcack, h.beat]

end

/-- An access on its way, and the store of a register that keeps its word, leave what the log follows from. -/
theorem afterStore_sameLogSource (acc : Accessor) {u o : Nat} (ho : o = 0x01C ∨ o = 0x034) (b : Blk) (v : Word) (s : State) :
    SameLogSource s (afterStore (arrive acc u s) u b o v) u where
  low u' o' h1 h2 := by
    have harr : (arrive acc u s).reg u' o' = s.reg u' o' := arrive_reg acc u s (not_countsLink_of_low u' (by omega))
    by_cases hk : regKey u' o' = regKey u o
    · rw [State.reg_of_key_eq _ hk, afterStore_reg_own _ (by omega), keptWord_readOnly ho, ← State.reg_of_key_eq _ hk, harr]
    · rw [afterStore_reg_ne _ _ _ hk (regKey_ne_of_mod (by rw [show Fld.BLK_SEQ.key = 0x038 from rfl]; omega)), harr]
  planes := by simp
  rep := by simp
  beat := by
    cases hp : unitPlane u with
    | some p => simp [unitBeat, hp, State.beats, State.pl]
    | none => simp [unitBeat, hp, arrive_of_hub hp, State.hub]

/-! ### ACK -/

theorem ackFault_logNow {u n : Nat} {b : Blk} (hb : unitBlk u = some (b, n)) (s : State) :
    logNow (ackFault u s) u = settleLog s u b (logBase s u).free (detectedNow s u) := by
  simp only [ackFault, hb]
  rw [logNow_modRp, logNow_setLog]
  exact fun _ => ⟨rfl, rfl, rfl⟩

/-- A freed log keeps nothing but C_COUNT in its first word (Table 2.2). -/
theorem LogSave.free_fields (x : LogSave) :
    fieldGet x.free.cls Fld.BLK_ERR_CLASS = 0 ∧ fieldGet x.free.cls Fld.BLK_ERR_CLASS_OVF = 0 ∧
    fieldGet x.free.cls Fld.BLK_ERR_CLASS_SOURCE = 0 ∧
      fieldGet x.free.cls Fld.BLK_ERR_CLASS_C_COUNT = fieldGet x.cls Fld.BLK_ERR_CLASS_C_COUNT := by
  simp (disch := decide) only [LogSave.free, fieldGet_fieldSet_same, fieldGet_fieldSet_apart, Nat.zero_mod, and_self]

/-- The log before the detections of a beat counts what the log counts. -/
theorem logBase_count {s : State} {u : Nat} (h : detectedNow s u = []) :
    fieldGet (logBase s u).cls Fld.BLK_ERR_CLASS_C_COUNT = s.get u Fld.BLK_ERR_CLASS_C_COUNT := by
  rw [State.get_of_logNow s u (f := Fld.BLK_ERR_CLASS_C_COUNT) rfl]
  simp only [logBase, h, if_true]
  split
  · exact (LogSave.free_fields _).2.2.2
  · rfl

/-- An accepted ACK (R47): the log is that of the beat's detections applied to the freed one. -/
theorem ack_accepted {acc : Accessor} {u pg : Nat} {v : Word} {s : State} (hwf : wfPage u pg = true)
    (hacc : accepted s acc u (4096 * pg + 0x01C) (v ||| Fld.BLK_ERR_CLASS_ACK.mask) = true) :
    Completes (.ack acc u pg v) s (fun t =>
      (∀ b n, unitBlk u = some (b, n) → logNow t u = settleLog s u b (logBase s u).free (detectedNow s u)) ∧
      (detectedNow s u = [] → t.get u Fld.BLK_ERR_CLASS = 0 ∧ t.get u Fld.BLK_ERR_CLASS_OVF = 0 ∧
        t.get u Fld.BLK_ERR_CLASS_SOURCE = 0 ∧ t.get u Fld.BLK_ERR_CLASS_C_COUNT = s.get u Fld.BLK_ERR_CLASS_C_COUNT)) := by
  obtain ⟨b, n, was, hb, hw⟩ := regWrite_header hwf (by decide) (by decide) (by simp) hacc
  have hsame := afterStore_sameLogSource acc (u := u) (.inl rfl) b (v ||| Fld.BLK_ERR_CLASS_ACK.mask) s
  have hv : (v ||| Fld.BLK_ERR_CLASS_ACK.mask).getLsbD 3 = true := by
    have hbit : Fld.BLK_ERR_CLASS_ACK.mask.getLsbD 3 = true := by decide
    rw [BitVec.getLsbD_or, hbit, Bool.or_true]
  have heff : ∀ old t, headerEffect u b n 0x01C (v ||| Fld.BLK_ERR_CLASS_ACK.mask) old t = ackFault u t := fun _ _ => if_pos hv
  have hlog : logNow (regWrite acc u (4096 * pg + 0x01C) (v ||| Fld.BLK_ERR_CLASS_ACK.mask) s) u =
      settleLog s u b (logBase s u).free (detectedNow s u) := by
    rw [hw, logNow_latchAfter, heff, ackFault_logNow hb, hsame.settleLog, hsame.logBase, hsame.detectedNow]
  refine ⟨_, rfl, fun b' n' hb' => ?_, fun hnone => ?_⟩
  · obtain ⟨rfl, rfl⟩ := Prod.mk.inj (Option.some.inj (hb.symm.trans hb'))
    exact hlog
  · have hfree : (settleLog s u b (logBase s u).free (detectedNow s u)) = (logBase s u).free := by rw [hnone]; rfl
    obtain ⟨h1, h2, h3, h4⟩ := (logBase s u).free_fields
    have hget : ∀ f : RField, f.key = Fld.BLK_ERR_CLASS.key →
        (regWrite acc u (4096 * pg + 0x01C) (v ||| Fld.BLK_ERR_CLASS_ACK.mask) s).get u f = fieldGet (logBase s u).free.cls f :=
      fun f hf => by rw [State.get_of_logNow _ _ hf, hlog, hfree]
    exact ⟨(hget Fld.BLK_ERR_CLASS rfl).trans h1, (hget Fld.BLK_ERR_CLASS_OVF rfl).trans h2, (hget Fld.BLK_ERR_CLASS_SOURCE rfl).trans h3,
      (hget Fld.BLK_ERR_CLASS_C_COUNT rfl).trans (h4.trans (logBase_count hnone))⟩

/-! ### FENCE_REQ -/

/-- A hasp that was open closes with its cause (Table 14.5). -/
theorem closeHasp_open {u : Nat} {s : State} (h : s.fenced u = false) (cause : Nat) :
    (closeHasp u cause s).fenced u = true ∧ (closeHasp u cause s).get u Fld.BLK_FENCE_CAUSE = cause % 16 := by
  have hput : ∀ f : RField, (closeHasp u cause s).get u f = ((s.put u Fld.BLK_FENCE_FENCED 1).put u Fld.BLK_FENCE_CAUSE cause).get u f := by
    intro f
    simp only [closeHasp, h, Bool.false_eq_true, if_false]
    split <;> split <;> simp
  have hfenced : ((s.put u Fld.BLK_FENCE_FENCED 1).put u Fld.BLK_FENCE_CAUSE cause).get u Fld.BLK_FENCE_FENCED = 1 := by
    rw [State.get_put_apart _ _ (by decide) (by decide) (by decide) (by decide), State.get_put_same _ _ _ _ (by decide)]
    rfl
  refine ⟨?_, (hput _).trans (State.get_put_same _ _ _ _ rfl)⟩
  rw [State.fenced, State.on, hput, hfenced]
  rfl

theorem unitPlane_FMC : ∀ (p : PlaneId) (n : Fin 6), unitPlane (uFMC p n) = some p ∧ planeBlk (uFMC p n % 256) = some (.FMC, n.val) := by decide
theorem unitPlane_MGC : ∀ p : PlaneId, unitPlane (pu p .MGC) = some p ∧ planeBlk (pu p .MGC % 256) = some (.MGC, 0) := by decide
theorem wfPage_FMC : ∀ (p : PlaneId) (n : Fin 6), wfPage (uFMC p n) 0 = true := by decide
theorem wfPage_MGC : ∀ p : PlaneId, wfPage (pu p .MGC) 0 = true := by decide

theorem bit_eq_testBit (v i : Nat) : bit v i = v.testBit i := by
  rw [bit, Nat.testBit_eq_decide_div_mod_eq]

/-- FMC_ACT without a channel's bit. -/
theorem bit_cleared (act : Nat) (n : Fin 6) : bit ((act &&& (0x3F - 2 ^ n.val)) % 2 ^ Fld.PLN_UNIT_MEM_FMC_ACT.width) n.val = false := by
  have hmask : ∀ n : Fin 6, (0x3F - 2 ^ n.val).testBit n.val = false := by decide
  rw [bit_eq_testBit, Nat.testBit_mod_two_pow, Nat.testBit_and, hmask n, Bool.and_false, Bool.and_false]

theorem latchAfter_fenced (was : Bool) (u u' : Nat) (s : State) : (latchAfter was u s).fenced u' = s.fenced u' := by
  rw [State.fenced, State.on, latchAfter_get _ _ (regKey_ne_of_mod (by decide)), State.fenced, State.on]

/-- A channel whose hasp was open is fenced, and its FMC_ACT bit clears (R254, Table 14.6). -/
theorem fenceChannel_open {p : PlaneId} {n : Fin 6} {s : State} (h : s.fenced (uFMC p n) = false) :
    (fenceChannel p n 1 s).fenced (uFMC p n) = true ∧ (fenceChannel p n 1 s).get (uFMC p n) Fld.BLK_FENCE_CAUSE = 1 ∧
      bit ((fenceChannel p n 1 s).get (pu p .PLN) Fld.PLN_UNIT_MEM_FMC_ACT) n = false := by
  obtain ⟨logged, hlogged, hbody⟩ : ∃ t : State, t.fenced (uFMC p n) = false ∧ fenceChannel p n 1 s =
      unitChange p ((closeHasp (uFMC p n) 1 t).put (pu p .PLN) Fld.PLN_UNIT_MEM_FMC_ACT
        ((closeHasp (uFMC p n) 1 t).get (pu p .PLN) Fld.PLN_UNIT_MEM_FMC_ACT &&& (0x3F - 2 ^ n.val))) := by
    refine ⟨_, ?_, by simp only [fenceChannel, h, Bool.false_eq_true, if_false]; rfl⟩
    split
    · rw [State.fenced, State.on, State.get, logFault, logDetection, State.modRp_reg, setLog_reg_beside _ _ _ (by decide)]
      exact h
    · exact h
  obtain ⟨hfenced, hcause⟩ := closeHasp_open hlogged 1
  have hkeep : ∀ f : RField, f.key = 0x034 → (fenceChannel p n 1 s).get (uFMC p n) f = (closeHasp (uFMC p n) 1 logged).get (uFMC p n) f := by
    intro f hf
    rw [hbody, unitChange, State.pulseBit_get, State.inc, State.get_put_ne _ _ (regKey_ne_of_mod (by rw [hf]; decide)),
      State.get_put_ne _ _ (regKey_ne_of_mod (by rw [hf]; decide))]
  refine ⟨?_, (hkeep _ rfl).trans hcause, ?_⟩
  · rw [State.fenced, State.on, hkeep _ rfl]
    exact hfenced
  · rw [hbody, unitChange, State.pulseBit_get, State.inc, State.get_put_ne _ _ (regKey_ne_of_mod (by decide)), State.get_put_same _ _ _ _ rfl]
    exact bit_cleared _ n

/-- Management cores whose hasp was open are fenced and halt (Table 14.6). -/
theorem fenceMgc_open {p : PlaneId} {s : State} (h : s.fenced (pu p .MGC) = false) :
    (fenceMgc p 1 s).fenced (pu p .MGC) = true ∧ (fenceMgc p 1 s).get (pu p .MGC) Fld.BLK_FENCE_CAUSE = 1 ∧
      (fenceMgc p 1 s).get (pu p .MGC) Fld.MGC_STAT_RUNNING = 0 := by
  obtain ⟨hfenced, hcause⟩ := closeHasp_open h 1
  refine ⟨?_, (State.get_put_ne _ _ (regKey_ne_of_mod (by decide))).trans hcause, State.get_put_same _ _ _ _ rfl⟩
  rw [State.fenced, State.on, fenceMgc, State.get_put_ne _ _ (regKey_ne_of_mod (by decide))]
  exact hfenced

/-- An accepted FENCE_REQ fences its unit, from a state in which the unit's hasp is open as it was (R49). -/
theorem fenceReq_accepted {acc : Accessor} {u : Nat} {v : Word} {s : State} (hwf : wfPage u 0 = true)
    (hacc : accepted s acc u 0x034 (v ||| Fld.BLK_FENCE_FENCE_REQ.mask) = true) :
    ∃ was t, exec (.fenceReq acc u 0 v) s = .next (latchAfter was u (fenceUnit u 1 t)) ∧ t.fenced u = s.fenced u := by
  obtain ⟨b, n, was, -, hw⟩ := regWrite_header (pg := 0) (o := 0x034) hwf (by decide) (by decide) (by simp) hacc
  have hv : (v ||| Fld.BLK_FENCE_FENCE_REQ.mask).getLsbD 8 = true := by
    have hbit : Fld.BLK_FENCE_FENCE_REQ.mask.getLsbD 8 = true := by decide
    rw [BitVec.getLsbD_or, hbit, Bool.or_true]
  have heff : ∀ old t, headerEffect u b n 0x034 (v ||| Fld.BLK_FENCE_FENCE_REQ.mask) old t = fenceUnit u 1 t := fun _ _ => if_pos hv
  rw [heff] at hw
  exact ⟨was, _, congrArg Host.Outcome.next hw, (afterStore_sameLogSource acc (.inr rfl) b _ s).fenced u⟩

theorem fenceReq_channel {acc : Accessor} {p : PlaneId} {n : Fin 6} {v : Word} {s : State}
    (hacc : accepted s acc (uFMC p n) 0x034 (v ||| Fld.BLK_FENCE_FENCE_REQ.mask) = true) (hopen : s.fenced (uFMC p n) = false) :
    Completes (.fenceReq acc (uFMC p n) 0 v) s (fun t => t.fenced (uFMC p n) = true ∧ t.get (uFMC p n) Fld.BLK_FENCE_CAUSE = 1 ∧
      bit (t.get (pu p .PLN) Fld.PLN_UNIT_MEM_FMC_ACT) n = false) := by
  obtain ⟨was, t, hrun, ht⟩ := fenceReq_accepted (wfPage_FMC p n) hacc
  have heff : fenceUnit (uFMC p n) 1 t = fenceChannel p n 1 t := by
    obtain ⟨hp, hb⟩ := unitPlane_FMC p n
    simp only [fenceUnit, fencePlaneUnit, hp, hb]
  obtain ⟨h1, h2, h3⟩ := fenceChannel_open (ht.trans hopen)
  rw [heff] at hrun
  refine ⟨_, hrun, (latchAfter_fenced _ _ _ _).trans h1, (latchAfter_get _ _ (regKey_ne_of_mod (by decide))).trans h2, ?_⟩
  rw [latchAfter_get _ _ (regKey_ne_of_mod (by decide))]
  exact h3

theorem fenceReq_mgc {acc : Accessor} {p : PlaneId} {v : Word} {s : State}
    (hacc : accepted s acc (pu p .MGC) 0x034 (v ||| Fld.BLK_FENCE_FENCE_REQ.mask) = true) (hopen : s.fenced (pu p .MGC) = false) :
    Completes (.fenceReq acc (pu p .MGC) 0 v) s (fun t => t.fenced (pu p .MGC) = true ∧ t.get (pu p .MGC) Fld.BLK_FENCE_CAUSE = 1 ∧
      t.get (pu p .MGC) Fld.MGC_STAT_RUNNING = 0) := by
  obtain ⟨was, t, hrun, ht⟩ := fenceReq_accepted (wfPage_MGC p) hacc
  have heff : fenceUnit (pu p .MGC) 1 t = fenceMgc p 1 t := by
    obtain ⟨hp, hb⟩ := unitPlane_MGC p
    simp only [fenceUnit, fencePlaneUnit, hp, hb]
  obtain ⟨h1, h2, h3⟩ := fenceMgc_open (ht.trans hopen)
  rw [heff] at hrun
  refine ⟨_, hrun, (latchAfter_fenced _ _ _ _).trans h1, (latchAfter_get _ _ (regKey_ne_of_mod (by decide))).trans h2, ?_⟩
  rw [latchAfter_get _ _ (regKey_ne_of_mod (by decide))]
  exact h3

end Sys2Proof.Machine
end

section
/-! SUPPORT. A block's soft reset and its end (R55): what its effects beyond the block leave in the headers, and the statement about the
header's fault registers. -/

namespace Sys2Proof.Machine

/-! ### Headers beside the log -/

/-- An update leaves the header registers of every unit, but for the logs (R47). -/
def KeepsHeaders (s t : State) : Prop := ∀ u o, o < 0x40 → (o < 0x01C ∨ 0x02C < o) → t.reg u o = s.reg u o

theorem KeepsHeaders.refl (s : State) : KeepsHeaders s s := fun _ _ _ _ => rfl

theorem KeepsHeaders.trans {s t r : State} (h : KeepsHeaders s t) (h' : KeepsHeaders t r) : KeepsHeaders s r :=
  fun u o ho hl => (h' u o ho hl).trans (h u o ho hl)

/-- An update that touches no register. -/
theorem keepsHeaders_of_regs {s t : State} (h : t.regs = s.regs) : KeepsHeaders s t :=
  fun u _ ho _ => State.reg_header_congr h u (by omega)

theorem keepsHeaders_modPl (p : PlaneId) (f : Plane → Plane) (s : State) : KeepsHeaders s (s.modPl p f) := keepsHeaders_of_regs rfl
theorem keepsHeaders_modHub (h : HubId) (f : Hub → Hub) (s : State) : KeepsHeaders s (s.modHub h f) := keepsHeaders_of_regs rfl

/-- A field of a block's own registers. -/
theorem keepsHeaders_put (s : State) (u : Nat) {f : RField} (v : Nat) (h : 0x40 ≤ f.key % 4096) : KeepsHeaders s (s.put u f v) :=
  fun _ _ ho _ => State.reg_put_ne _ _ (regKey_ne_of_mod (by omega))

theorem keepsHeaders_foldl {α : Type} {f : State → α → State} (l : List α) (h : ∀ x ∈ l, ∀ t, KeepsHeaders t (f t x)) (s : State) :
    KeepsHeaders s (l.foldl f s) := by
  induction l generalizing s with
  | nil => exact .refl s
  | cons x r ih => exact (h x (by simp) s).trans (ih (fun y hy => h y (by simp [hy])) _)

/-- One of two updates. -/
theorem keepsHeaders_ite {c : Prop} [Decidable c] {s t r : State} (ht : KeepsHeaders s t) (hr : KeepsHeaders s r) :
    KeepsHeaders s (if c then t else r) := by
  split
  · exact ht
  · exact hr

/-! ### Detections -/

/-- A detection of a block that is no collector touches the log alone (R393, R408). -/
theorem keepsHeaders_logOrDead {u : Nat} {b : Blk} (hb : b ≠ .FCL) (d : Detection) (s : State) : KeepsHeaders s (logOrDead u b d s) := by
  have hlog : KeepsHeaders s (logDetection u b d s) := fun u' o ho hl => by
    rw [logDetection, State.modRp_reg, setLog_reg_beside _ _ _ (by omega)]
  simp only [logOrDead, hb, if_false]
  exact keepsHeaders_ite (hlog.trans (keepsHeaders_of_regs rfl)) hlog

theorem keepsHeaders_enterHoldover (p : PlaneId) (s : State) : KeepsHeaders s (enterHoldover p s) :=
  ((keepsHeaders_put s _ _ (by decide)).trans (keepsHeaders_put _ _ _ (by decide))).trans (keepsHeaders_of_regs rfl)

/-- REF_LOST and UPSTREAM_LOST. -/
theorem keepsHeaders_detect_FTM (p : PlaneId) {src : Nat} (hsrc : src = 1 ∨ src = 2) (s : State) :
    KeepsHeaders s (detect (pu p .FTM) src .c 0 0 s) := by
  have hlog := keepsHeaders_logOrDead (u := pu p .FTM) (b := .FTM) (by decide) { src := src, cls := .c, loc := 0, detail := 0 } s
  rw [detect, detectFault_FTM p rfl]
  refine hlog.trans ?_
  rcases hsrc with rfl | rfl <;>
  · simp only [react, unitPlane_FTM]
    exact keepsHeaders_ite (keepsHeaders_enterHoldover _ _) (.refl _)

theorem unitBlk_SWC (p : PlaneId) : unitBlk (pu p .SWC) = some (.SWC, 0) := by revert p; decide
theorem unitPlane_SWC (p : PlaneId) : unitPlane (pu p .SWC) = some p := by revert p; decide

/-- OVERCOMMIT is class U and has no reaction of its own. -/
theorem keepsHeaders_checkCommit (p : PlaneId) (s : State) : KeepsHeaders s (checkCommit p s) := by
  refine keepsHeaders_ite ?_ (.refl s)
  simp only [detect, detectFault, unitBlk_SWC, react, unitPlane_SWC, reduceCtorEq, false_and, if_false]
  exact keepsHeaders_logOrDead (by decide) _ _

/-! ### Fabric time -/

theorem keepsHeaders_setFtmState (p : PlaneId) (st : Nat) (s : State) : KeepsHeaders s (setFtmState p st s) := by
  have hstate := (keepsHeaders_put s (pu p .FTM) (f := Fld.FTM_STAT_STATE) st (by decide)).trans
    (keepsHeaders_put _ (pu p .PLN) (f := Fld.PLN_STATE_FT_LOCKED) (b2n (st = 3 || st = 4)) (by decide))
  exact keepsHeaders_ite (hstate.trans (keepsHeaders_put _ _ _ (by decide))) hstate

theorem keepsHeaders_useSource (p : PlaneId) (src : Option TimeSource) (s : State) : KeepsHeaders s (useSource p src s) := by
  have hsrc : KeepsHeaders s ((modFtm s p (fun f => { f with inUse := src, good := 0 })).put (pu p .FTM) Fld.FTM_STAT_SRC (srcCode s p src)) :=
    (keepsHeaders_of_regs (t := modFtm s p (fun f => { f with inUse := src, good := 0 })) rfl).trans (keepsHeaders_put _ _ _ (by decide))
  unfold useSource
  split
  · exact hsrc.trans (keepsHeaders_put _ _ _ (by decide))
  · exact hsrc

theorem keepsHeaders_sourceLost (p : PlaneId) (s : State) : KeepsHeaders s (sourceLost p s) := by
  unfold sourceLost
  split
  · exact keepsHeaders_detect_FTM p (by split <;> simp) s
  · exact (keepsHeaders_useSource _ _ _).trans (keepsHeaders_setFtmState _ _ _)
  · exact (keepsHeaders_useSource _ _ _).trans (keepsHeaders_setFtmState _ _ _)
  · exact .refl s

theorem keepsHeaders_sourceFound (p : PlaneId) (src : Option TimeSource) (s : State) : KeepsHeaders s (sourceFound p src s) := by
  unfold sourceFound
  split
  · exact (keepsHeaders_useSource _ _ _).trans (keepsHeaders_setFtmState _ _ _)
  · exact (keepsHeaders_useSource _ _ _).trans (keepsHeaders_setFtmState _ _ _)
  · exact .refl s

theorem keepsHeaders_followReference (p : PlaneId) (s : State) : KeepsHeaders s (followReference p s) :=
  keepsHeaders_ite (.refl s) (keepsHeaders_ite (keepsHeaders_sourceFound _ _ _) (keepsHeaders_sourceLost _ _))

theorem keepsHeaders_followUpstream (p : PlaneId) (s : State) : KeepsHeaders s (followUpstream p s) := by
  have hpick : ∀ t, KeepsHeaders t (match pickSource t p with
      | some x => sourceFound p (some x) t
      | none => t) := by
    intro t
    split
    · exact keepsHeaders_sourceFound _ _ _
    · exact .refl t
  refine keepsHeaders_ite (.refl s) ?_
  split
  · refine keepsHeaders_ite (keepsHeaders_ite (keepsHeaders_sourceFound _ _ _) (.refl s)) ?_
    split
    · exact keepsHeaders_sourceLost _ _
    · exact hpick s
    · exact (keepsHeaders_sourceLost _ _).trans (hpick _)
  · exact hpick s

/-! ### Ports -/

theorem keepsHeaders_dropCredits (p : PlaneId) (n : Nat) (s : State) : KeepsHeaders s (dropCredits p n s) :=
  keepsHeaders_foldl _ (fun v hv t => keepsHeaders_put t _ _ (by
    have hkey : (Fld.FPT_VC_AVAIL.at v).key = 0x100 + 4 * v := by simp [RField.key, RField.at, Fld.FPT_VC_AVAIL, Nat.mul_comm]
    have hlt := List.mem_range.mp hv
    omega)) s

theorem keepsHeaders_modFab (p : PlaneId) (f : Fabric → Fabric) (s : State) : KeepsHeaders s (modFab p f s) := keepsHeaders_modPl p _ s

theorem keepsHeaders_dropLink (p : PlaneId) (n : Nat) (s : State) : KeepsHeaders s (dropLink p n s) :=
  (keepsHeaders_modFab p _ s).trans (keepsHeaders_dropCredits p n _)

theorem keepsHeaders_startTraining (p : PlaneId) (n : Nat) (s : State) : KeepsHeaders s (startTraining p n s) := by
  have hport : KeepsHeaders s (setPort p n 1 s) := (keepsHeaders_put s _ _ (by decide)).trans (keepsHeaders_modFab p _ _)
  have hactive : ∀ t, KeepsHeaders t (setActive p n [] t) := fun t =>
    (keepsHeaders_put t _ _ (by decide)).trans (keepsHeaders_put _ _ _ (by decide))
  have hlink : ∀ t f, KeepsHeaders t (dropLink p n (modLink p n f t)) := fun t f =>
    (keepsHeaders_modFab p _ t).trans (keepsHeaders_dropLink p n _)
  have hlane : ∀ t i, KeepsHeaders t (trainLane p i (dropLane p i (t.put (uFPT p i) Fld.FPT_LANE_LOCK 0))) := fun t i =>
    ((keepsHeaders_put t _ _ (by decide)).trans (keepsHeaders_modFab p _ _)).trans (keepsHeaders_modFab p _ _)
  exact ((hport.trans (hactive _)).trans (hlink _ _)).trans (keepsHeaders_foldl _ (fun i _ t => hlane t i) _)

/-! ### The effects of a soft reset beyond its block -/

theorem keepsHeaders_srstPlane (p : PlaneId) (b : Blk) (n : Nat) (s : State) : KeepsHeaders s (srstPlane p b n s) := by
  cases b
  case FTM => exact (keepsHeaders_modPl p _ s).trans (keepsHeaders_put _ _ _ (by decide))
  case TMB =>
    simp only [srstPlane]
    split
    · exact keepsHeaders_of_regs rfl
    · exact .refl s
  case FPT =>
    have hdrop : ∀ t f, KeepsHeaders t (checkCommit p (dropCredits p n (modFab p f t))) := fun t f =>
      ((keepsHeaders_modFab p f t).trans (keepsHeaders_dropCredits p n _)).trans (keepsHeaders_checkCommit p _)
    have htrain : ∀ t, KeepsHeaders t (followUpstream p (if portPen t p n then startTraining p n t else t)) := fun t =>
      (keepsHeaders_ite (keepsHeaders_startTraining p n t) (.refl t)).trans (keepsHeaders_followUpstream p _)
    exact (keepsHeaders_modFab p _ s).trans (keepsHeaders_ite (.refl _) ((hdrop _ _).trans (htrain _)))
  case SWC =>
    have hcredit : ∀ c t, KeepsHeaders t (returnOpt p c t) := fun c t => by
      unfold returnOpt
      split
      · exact keepsHeaders_of_regs rfl
      · exact .refl t
    exact (keepsHeaders_foldl _ (fun e _ t => hcredit e.2.credit t) s).trans (keepsHeaders_of_regs rfl)
  all_goals exact keepsHeaders_of_regs rfl

theorem keepsHeaders_endLease (h : HubId) (s : State) : KeepsHeaders s (endLease h s) := by
  have hset : KeepsHeaders s (setHolder 0 s) := keepsHeaders_ite (.refl s)
    (((keepsHeaders_put s (hu .a .PCI) (f := Fld.PCI_LEASE_HOLDER) 0 (by decide)).trans
      (keepsHeaders_put _ (hu .b .PCI) (f := Fld.PCI_LEASE_HOLDER) 0 (by decide))).trans (keepsHeaders_of_regs rfl))
  exact keepsHeaders_ite hset (.refl s)

theorem keepsHeaders_aliveStop (h : HubId) (s : State) : KeepsHeaders s (aliveWrite h false s) := by
  simp only [aliveWrite, Bool.false_eq_true, if_false]
  exact keepsHeaders_ite ((keepsHeaders_modHub h _ s).trans (keepsHeaders_put _ _ _ (by decide))) (.refl s)

theorem keepsHeaders_followReferences (s : State) : KeepsHeaders s (followReferences s) :=
  (((keepsHeaders_followReference 0 s).trans (keepsHeaders_followReference 1 _)).trans (keepsHeaders_followReference 2 _)).trans
    (keepsHeaders_followReference 3 _)

theorem keepsHeaders_srstHub (h : HubId) (b : Blk) (was s : State) : KeepsHeaders s (srstHub h b was s) := by
  cases b
  case PCI => exact ((keepsHeaders_put s _ _ (by decide)).trans (keepsHeaders_endLease h _)).trans (keepsHeaders_of_regs rfl)
  case FCL => exact (keepsHeaders_modHub h _ s).trans (keepsHeaders_aliveStop h _)
  case TRF => exact (keepsHeaders_modHub h _ s).trans (keepsHeaders_followReferences _)
  all_goals exact keepsHeaders_of_regs rfl

/-! ### SRST -/

theorem mget_filter_none {α : Type} (m : SMap α) (k : Nat) (f : Nat × α → Bool) (h : ∀ v, f (k, v) = false) : mget (m.filter f) k = none := by
  induction m with
  | nil => rfl
  | cons e r ih =>
    obtain ⟨j, v⟩ := e
    by_cases hj : j = k
    · subst hj
      simp [List.filter, h, ih]
    · by_cases hf : f (j, v) = true <;> simp [List.filter, hf, mget, hj, ih]

/-- A soft reset keeps registers of the block alone, none of its header (R55). -/
theorem srstKeep_own (b : Blk) : ∀ o ∈ srstKeep b, 0x40 ≤ o := by cases b <;> decide

/-- An erased header register reads as its reset value. -/
theorem eraseRegs_header (s : State) (u : Nat) (b : Blk) {o : Nat} (ho : o < 0x40) :
    (s.eraseRegs u (srstKeep b)).reg u o = resetVal s u o := by
  have hkey : regKey u o = (u, o) := by
    have hself : o % 4096 = o := by omega
    simp [regKey, hself, ho]
  have hgone : mget ((mgetD s.regs u []).filter (fun e => e.1 ∈ srstKeep b)) o = none :=
    mget_filter_none _ _ _ fun v => decide_eq_false fun hm => absurd (srstKeep_own b o hm) (by omega)
  have hreset : resetVal (s.eraseRegs u (srstKeep b)) u o = resetVal s u o := resetVal_congr ⟨rfl, rfl, rfl, fun _ => rfl⟩ u o
  simp only [State.reg, hkey, hreset]
  simp [State.eraseRegs, mget_mput_same, hgone]

/-- BLK_CTRL and BLK_SEQ reset to 0 in every block (Table 2.2). -/
theorem resetVal_ctrl_seq (s : State) (u : Nat) {o : Nat} (ho : o = 0x008 ∨ o = 0x038) : resetVal s u o = 0 := by
  have hconst : ∀ b, ∀ o ∈ [0x008, 0x038], constReset (fieldsAt b o) = 0 := by
    intro b
    cases b <;> decide
  have hlow : o % 4096 < 0x40 := by omega
  unfold resetVal
  split
  · rfl
  · simp only [hlow, if_true, Option.getD_none]
    exact hconst _ o (by simpa using ho)

/-- After a soft reset begins, RST_BUSY is 1, and BLK_CTRL and BLK_SEQ read 0 (R55). -/
theorem softReset_header (u : Nat) (b : Blk) (n : Nat) (s : State) :
    (softReset u b n s).get u Fld.BLK_STAT_RST_BUSY = 1 ∧ ∀ o, o = 0x008 ∨ o = 0x038 → (softReset u b n s).reg u o = 0 := by
  have hbeyond : ∀ t : State, KeepsHeaders t (match unitPlane u with
      | some p => srstPlane p b n t
      | none => match unitHub u with
        | some h => srstHub h b s t
        | none => t) := by
    intro t
    split
    · exact keepsHeaders_srstPlane _ _ _ _
    · split
      · exact keepsHeaders_srstHub _ _ _ _
      · exact .refl t
  refine ⟨State.get_put_same _ _ _ _ rfl, fun o ho => ?_⟩
  have herased : ∀ t : State, t.regs = (s.eraseRegs u (srstKeep b)).regs → t.reg u o = 0 := fun t ht => by
    rw [State.reg_header_congr ht u (by omega), eraseRegs_header s u b (by omega), resetVal_ctrl_seq s u ho]
  rw [softReset, State.reg_put_ne _ _ (regKey_ne_of_mod (by rw [show Fld.BLK_STAT_RST_BUSY.key = 0x00C from rfl]; omega))]
  exact (hbeyond _ u o (by omega) (by omega)).trans (herased _ rfl)

theorem srst_accepted {acc : Accessor} {u pg : Nat} {v : Word} {s : State} (hwf : wfPage u pg = true)
    (hacc : accepted s acc u (4096 * pg + 0x008) (v ||| Fld.BLK_CTRL_SRST.mask) = true) :
    Completes (.srst acc u pg v) s (fun t => t.get u Fld.BLK_STAT_RST_BUSY = 1 ∧ t.get u Fld.BLK_CTRL_EN = 0 ∧ t.get u Fld.BLK_CTRL_LOCK = 0 ∧
      t.get u Fld.BLK_SEQ = 0) := by
  obtain ⟨b, n, hb, hpg⟩ := wfPage_iff.mp hwf
  have hoff : 4096 * pg + 0x008 < 4096 * pagesOf b := by omega
  have hmod : (4096 * pg + 0x008) % 4096 = 0x008 := by omega
  have hv : (v ||| Fld.BLK_CTRL_SRST.mask).getLsbD 1 = true := by
    have hbit : Fld.BLK_CTRL_SRST.mask.getLsbD 1 = true := by decide
    rw [BitVec.getLsbD_or, hbit, Bool.or_true]
  have hw := regWrite_accepted hb hoff hacc
  rw [acceptWrite, if_pos ⟨hmod, hv⟩] at hw
  obtain ⟨hbusy, hzero⟩ := softReset_header u b n (arrive acc u s)
  have hget : ∀ f : RField, f.key = 0x008 ∨ f.key = 0x038 →
      (regWrite acc u (4096 * pg + 0x008) (v ||| Fld.BLK_CTRL_SRST.mask) s).get u f = 0 := fun f hf => by
    rw [hw, latchAfter_get _ _ (regKey_ne_of_mod (by omega)), State.get, hzero _ hf]
    simp [fieldGet]
  refine ⟨_, rfl, ?_, hget _ (.inl rfl), hget _ (.inl rfl), hget _ (.inr rfl)⟩
  exact (congrArg (State.get · u Fld.BLK_STAT_RST_BUSY) hw).trans ((latchAfter_get _ _ (regKey_ne_of_mod (by decide))).trans hbusy)

/-! ### SOFT_RESET_DONE -/

theorem keepsHeaders_showLink (h : HubId) (p : PlaneId) (s : State) : KeepsHeaders s (showLink h p s) := by
  have hkey : (Fld.HUB_LINK_STAT_UP.at p.val).key = 0x404 + 16 * p.val := key_linkClosed p
  exact (keepsHeaders_put s _ _ (by rw [key_linkClosed]; omega)).trans (keepsHeaders_put _ _ _ (by rw [hkey]; omega))

theorem keepsHeaders_showPlane (p : PlaneId) (s : State) : KeepsHeaders s (showPlane p s) := by
  have hstate : ∀ v t, KeepsHeaders t (setPlnState p v t) := fun v t =>
    keepsHeaders_ite (.refl t) ((keepsHeaders_put t _ _ (by decide)).trans (keepsHeaders_of_regs rfl))
  exact (keepsHeaders_ite (hstate 2 s) (.refl s)).trans (keepsHeaders_put _ _ _ (by decide))

theorem softResetDone_clears {u : Nat} {s : State} (hpow : s.powered u = true) (hbusy : s.get u Fld.BLK_STAT_RST_BUSY = 1) :
    Completes (.softResetDone u) s (fun t => t.get u Fld.BLK_STAT_RST_BUSY = 0) := by
  have hgo : ¬ (¬ s.powered u = true ∨ ¬ s.on u Fld.BLK_STAT_RST_BUSY = true) := by simp [hpow, State.on, hbusy]
  obtain ⟨t, hrun, hkeep⟩ : ∃ t, execSoftResetDone u s = .next t ∧ KeepsHeaders (s.put u Fld.BLK_STAT_RST_BUSY 0) t := by
    simp only [execSoftResetDone, hgo, if_false]
    split
    · exact ⟨_, rfl, keepsHeaders_foldl _ (fun p _ t => keepsHeaders_showLink _ p t) _⟩
    · exact ⟨_, rfl, keepsHeaders_showPlane _ _⟩
    · exact ⟨_, rfl, (keepsHeaders_put _ _ _ (by decide)).trans (keepsHeaders_put _ _ _ (by decide))⟩
    · exact ⟨_, rfl, .refl _⟩
  refine ⟨t, hrun, ?_⟩
  exact (congrArg (fieldGet · Fld.BLK_STAT_RST_BUSY) (hkeep u 0x00C (by decide) (by decide))).trans
    (State.get_put_same s u Fld.BLK_STAT_RST_BUSY 0 rfl)

/-- Settles O10: an acknowledgment applies the beat's detections to the freed log, a soft reset's effects beyond its block keep the headers,
and a fence request closes the hasp that was open. -/
theorem headerFaultWrites : Obligations.HeaderFaultWrites :=
  ⟨fun _ _ _ _ _ => ack_accepted, fun _ _ _ _ _ => srst_accepted, fun _ _ => softResetDone_clears, fun _ _ _ _ _ => fenceReq_channel,
    fun _ _ _ _ => fenceReq_mgc⟩

end Sys2Proof.Machine
end

section
/-! SUPPORT. The log of a fault whose source has no reaction of its own (R47, R393, R399, Table 14.2), and the statement about it. -/

namespace Sys2Proof.Machine

/-! ### Sources without a reaction -/

/-- A quiet source has no reaction of Table 14.2. -/
theorem react_quiet {b : Blk} {src : Nat} (h : (b, src) ∈ quietSources) (u : Nat) (cls : FaultClass) (wh detail : Nat) (s : State) :
    react u b src cls wh detail s = s := by
  have hall : ∀ e ∈ quietSources, react u e.1 e.2 cls wh detail s = s := by
    simp only [quietSources, List.forall_mem_cons, List.not_mem_nil, false_implies, implies_true, and_true]
    and_intros
    all_goals
      unfold react
      split
      · rfl
      · split <;> rfl
  exact hall _ h

/-- Nor has it one on a port, a slice or a range that a SEALED chunk wrote: a fault of it is what its log makes of it. -/
theorem detectAll_quiet {u n src : Nat} {b : Blk} (hb : unitBlk u = some (b, n)) (h : (b, src) ∈ quietSources) (cls : FaultClass)
    (wh detail : Nat) (s : State) :
    detectAll false u src cls wh detail s = detectFault u { src := src, cls := cls, loc := wh, detail := detail } s := by
  have hquiet : b ≠ .FPT ∧ (b = .TMB → src = 3) ∧ (b = .NMC ∨ b = .FMC → src ≠ 2) := by
    have hall : ∀ e ∈ quietSources, e.1 ≠ .FPT ∧ (e.1 = .TMB → e.2 = 3) ∧ (e.1 = .NMC ∨ e.1 = .FMC → e.2 ≠ 2) := by decide
    exact hall _ h
  obtain ⟨hfpt, htmb, hmem⟩ := hquiet
  unfold detectAll
  cases hp : unitPlane u with
  | none => rfl
  | some p =>
    have hblk : planeBlk (u % 256) = some (b, n) := by
      have hu : u < 0x400 := by
        simp only [unitPlane] at hp
        split at hp
        · omega
        · exact absurd hp (by simp)
      rw [← hb, unitBlk, if_pos hu]
    simp only [hblk]
    split
    · rename_i heq
      exact absurd (congrArg Prod.fst (Option.some.inj heq)) hfpt
    · rename_i heq
      obtain rfl := htmb (congrArg Prod.fst (Option.some.inj heq))
      unfold tmbReact
      split <;> rfl
    · rename_i heq
      exact if_neg (hmem (.inl (congrArg Prod.fst (Option.some.inj heq))))
    · rename_i heq
      exact if_neg (hmem (.inr (congrArg Prod.fst (Option.some.inj heq))))
    · rfl

/-- A quiet source finds faults of class C and U alone, under a code of eight bits. -/
theorem quiet_class {b : Blk} {src wh : Nat} {cls : FaultClass} (h : (b, src) ∈ quietSources) (hcls : classAllowed b src cls wh = true) :
    (cls = .c ∨ cls = .u) ∧ src < 256 := by
  have hall : ∀ e ∈ quietSources, (firstClass e.1 e.2 = .c ∨ firstClass e.1 e.2 = .u) ∧ e.2 < 256 ∧ ¬ (e.1 = .PWR ∧ e.2 = 2) := by decide
  obtain ⟨hfirst, hsrc, hpwr⟩ := hall _ h
  simp only [classAllowed, Bool.and_eq_true, Bool.or_eq_true, decide_eq_true_eq] at hcls
  refine ⟨?_, hsrc⟩
  obtain ⟨⟨-, (rfl | ⟨hu, -⟩) | ⟨⟨⟨-, hb⟩, hs⟩, -⟩⟩, -⟩ := hcls
  · exact hfirst
  · exact .inr hu
  · exact absurd ⟨hb, hs⟩ hpwr

/-! ### One more detection -/

/-- A free log that captures a fault holds its class, source, time, WHERE and DETAIL under the next RSEQ, and counts it in class C (R47). -/
theorem LogSave.add_free {x : LogSave} (h0 : x.held = 0) (b : Blk) (ft beat cack : Nat) {d : Detection} (hsrc : d.src < 256) :
    fieldGet (x.add b ft beat cack d).cls Fld.BLK_ERR_CLASS = classCode d.cls ∧
      fieldGet (x.add b ft beat cack d).cls Fld.BLK_ERR_CLASS_SOURCE = d.src ∧
      fieldGet (x.add b ft beat cack d).cls Fld.BLK_ERR_CLASS_OVF = 0 ∧
      fieldGet (x.add b ft beat cack d).cls Fld.BLK_ERR_CLASS_C_COUNT =
        (if d.cls = .c then min (fieldGet x.cls Fld.BLK_ERR_CLASS_C_COUNT + 1) 0xFFFF else fieldGet x.cls Fld.BLK_ERR_CLASS_C_COUNT) ∧
      (x.add b ft beat cack d).log0 = BitVec.ofNat 32 ft ∧ (x.add b ft beat cack d).log1 = BitVec.ofNat 32 (ft / 2 ^ 32) ∧
      (x.add b ft beat cack d).log2 = BitVec.ofNat 32 d.loc ∧ (x.add b ft beat cack d).log3 = BitVec.ofNat 32 d.detail ∧
      (x.add b ft beat cack d).rseq = (x.rseq + 1) % 16 := by
  have hclass : classCode d.cls % 2 ^ Fld.BLK_ERR_CLASS.width = classCode d.cls := by cases d.cls <;> decide
  have hsource : d.src % 2 ^ Fld.BLK_ERR_CLASS_SOURCE.width = d.src := Nat.mod_eq_of_lt hsrc
  have hcount : ∀ n, min n 0xFFFF % 2 ^ Fld.BLK_ERR_CLASS_C_COUNT.width = min n 0xFFFF := fun n => Nat.mod_eq_of_lt (by
    have hw : Fld.BLK_ERR_CLASS_C_COUNT.width = 16 := rfl
    rw [hw]
    omega)
  simp only [LogSave.add, h0, if_true, LogSave.capture]
  split <;>
    simp (disch := decide) only [fieldGet_fieldSet_same, fieldGet_fieldSet_apart, hclass, hsource, hcount, Nat.zero_mod, and_self]

/-- A held log sets OVF for a fault that does not raise it, and counts it in class C (R47, R399). -/
theorem LogSave.add_held_kept {x : LogSave} (h0 : x.held ≠ 0) {b : Blk} {d : Detection} (hesc : escSource b d.src = false) (hf : d.cls ≠ .f)
    (ft beat cack : Nat) :
    fieldGet (x.add b ft beat cack d).cls Fld.BLK_ERR_CLASS_OVF = 1 ∧
      fieldGet (x.add b ft beat cack d).cls Fld.BLK_ERR_CLASS = fieldGet x.cls Fld.BLK_ERR_CLASS ∧
      fieldGet (x.add b ft beat cack d).cls Fld.BLK_ERR_CLASS_SOURCE = fieldGet x.cls Fld.BLK_ERR_CLASS_SOURCE ∧
      (x.add b ft beat cack d).log0 = x.log0 ∧ (x.add b ft beat cack d).log2 = x.log2 ∧ (x.add b ft beat cack d).log3 = x.log3 ∧
      (x.add b ft beat cack d).rseq = x.rseq := by
  have hone : 1 % 2 ^ Fld.BLK_ERR_CLASS_OVF.width = 1 := rfl
  simp only [LogSave.add, h0, hesc, hf, false_and, and_false, or_self, if_false, Bool.false_eq_true]
  split <;> simp (disch := decide) only [fieldGet_fieldSet_same, fieldGet_fieldSet_apart, hone, and_self]

/-! ### The detection -/

/-- The log after the first detection of a beat. -/
theorem logNow_logDetection {s : State} {u : Nat} (hseen : detectedNow s u = []) (b : Blk) (d : Detection) :
    logNow (logDetection u b d s) u = (logBase s u).add b (unitFt s u) (unitBeat s u) (cackBeats s) d := by
  simp only [logDetection, hseen]
  rw [logNow_modRp, logNow_setLog]
  · rfl
  · exact fun _ => ⟨rfl, rfl, rfl⟩

/-- A fault of a quiet source is logged and does no more, where it leaves CLASS below F and does not raise it to U (R393, R399). -/
theorem detectFault_quiet {s : State} {u n : Nat} {b : Blk} {d : Detection} (hb : unitBlk u = some (b, n)) (hq : (b, d.src) ∈ quietSources)
    (hseen : detectedNow s u = []) (hF : (logBase s u).held ≠ 3 → (logNow (logDetection u b d s) u).held ≠ 3)
    (hU : (logBase s u).held = 1 → (logNow (logDetection u b d s) u).held ≠ 2) : detectFault u d s = logDetection u b d s := by
  have hbefore : settleLog s u b (logBase s u) (detectedNow s u) = logBase s u := by rw [hseen]; rfl
  have hlog : logOrDead u b d s = logDetection u b d s := by
    have hno : ¬ ((logBase s u).held ≠ 3 ∧ (logNow (logDetection u b d s) u).held = 3) := fun h => hF h.1 h.2
    simp only [logOrDead, hbefore, hno, if_false]
  have hno : ¬ (d.cls = .c ∧ (logBase s u).held = 1 ∧ (logNow (logDetection u b d s) u).held = 2) := fun h => hU h.2.1 h.2.2
  simp only [detectFault, hb, hbefore, hlog, hno, if_false, react_quiet hq]

@[simp] theorem logDetection_frame (u : Nat) (b : Blk) (d : Detection) (s : State) :
    (logDetection u b d s).planes = s.planes ∧ (logDetection u b d s).dead = s.dead := by
  simp [logDetection, setLog]

/-- A unit's registers of the time of its fault are the log's (R47). -/
theorem State.get64_of_logNow (t : State) (u : Nat) :
    t.get64 u Fld.BLK_ERR_LOG0_FT_LO Fld.BLK_ERR_LOG1_FT_HI = (logNow t u).log0.toNat + 2 ^ 32 * (logNow t u).log1.toNat := by
  have hwhole : ∀ w : Word, fieldGet w Fld.BLK_ERR_LOG0_FT_LO = w.toNat ∧ fieldGet w Fld.BLK_ERR_LOG1_FT_HI = w.toNat := fun w => by
    have hlt := w.isLt
    simp only [fieldGet, BitVec.extractLsb'_toNat]
    exact ⟨Nat.mod_eq_of_lt hlt, Nat.mod_eq_of_lt hlt⟩
  rw [State.get64, State.get, State.get, (hwhole _).1, (hwhole _).2]
  rfl

section
variable {u n : Nat} {b : Blk} {d : Detection} {s : State} (hb : unitBlk u = some (b, n)) (hq : (b, d.src) ∈ quietSources)
  (hcls : classAllowed b d.src d.cls d.loc = true) (hseen : detectedNow s u = [])
include hb hq hcls hseen

/-- The first fault of a beat at a unit whose log is free (R47). -/
theorem detectFault_captured (h0 : s.get u Fld.BLK_ERR_CLASS = 0) :
    detectFault u d s = logDetection u b d s ∧
      logNow (logDetection u b d s) u = (logNow s u).add b (unitFt s u) (unitBeat s u) (cackBeats s) d := by
  obtain ⟨hclass, hsrc⟩ := quiet_class hq hcls
  have hheld : (logNow s u).held = 0 := h0
  have hbase : logBase s u = logNow s u := by simp [logBase, hseen, LogSave.due, hheld]
  have hlog := logNow_logDetection hseen b d
  rw [hbase] at hlog
  have hnotF : (logNow (logDetection u b d s) u).held ≠ 3 := by
    rw [hlog, LogSave.held, (LogSave.add_free hheld b _ _ _ hsrc).1]
    rcases hclass with h | h <;> simp [h, classCode]
  exact ⟨detectFault_quiet hb hq hseen (fun _ => hnotF) (fun h => by rw [hbase, hheld] at h; omega), hlog⟩

/-- A further fault at a unit whose log is held, by a source that takes no part in escalation (R47, R399). -/
theorem detectFault_overflow (h0 : s.get u Fld.BLK_ERR_CLASS ≠ 0) (hesc : escSource b d.src = false)
    (hdue : (logNow s u).due (unitBeat s u) = false) :
    d.cls ≠ .f ∧ detectFault u d s = logDetection u b d s ∧
      logNow (logDetection u b d s) u = (logNow s u).add b (unitFt s u) (unitBeat s u) (cackBeats s) d := by
  have hnotF : d.cls ≠ .f := by
    rcases (quiet_class hq hcls).1 with h | h <;> simp [h]
  have hbase : logBase s u = logNow s u := by simp [logBase, hseen, hdue]
  have hlog := logNow_logDetection hseen b d
  rw [hbase] at hlog
  have hsame : (logNow (logDetection u b d s) u).held = (logBase s u).held := by
    obtain ⟨-, hkept, -⟩ := LogSave.add_held_kept (x := logNow s u) h0 hesc hnotF (unitFt s u) (unitBeat s u) (cackBeats s)
    rw [hlog, hbase, LogSave.held, LogSave.held, hkept]
  exact ⟨hnotF, detectFault_quiet hb hq hseen (fun h => hsame ▸ h) (fun h => by rw [hsame, h]; decide), hlog⟩

end

/-! ### FAULT_DETECT -/

/-- FAULT_DETECT of a source and class that Table 14.2 gives the block, while the unit has power and the module is not in the deadbolt
state. -/
theorem exec_faultDetect_quiet {s : State} {u n : Nat} {b : Blk} {d : Detection} (hb : unitBlk u = some (b, n)) (hq : (b, d.src) ∈ quietSources)
    (hcls : classAllowed b d.src d.cls d.loc = true) (hpow : s.powered u = true) (hdead : s.dead = none) (hinj : d.injected = false) :
    exec (.faultDetect u d.src d.cls d.loc d.detail false) s = .next (detectFault u d s) := by
  have hd : ({ src := d.src, cls := d.cls, loc := d.loc, detail := d.detail } : Detection) = d := by cases d; cases hinj; rfl
  have hall := detectAll_quiet hb hq d.cls d.loc d.detail s
  rw [hd] at hall
  show execFaultDetect u d.src d.cls d.loc d.detail false s = _
  simp [execFaultDetect, hb, hpow, hcls, hdead, hall]

/-- Outside the sources and classes of Table 14.2 nothing is detected (log 2). -/
theorem faultDetect_unassigned {u n src wh : Nat} {b : Blk} {cls : FaultClass} {s : State} (hb : unitBlk u = some (b, n))
    (hcls : classAllowed b src cls wh = false) (detail : Nat) (item : Bool) :
    Completes (.faultDetect u src cls wh detail item) s (fun t => t = s) := by
  refine ⟨s, ?_, rfl⟩
  show execFaultDetect u src cls wh detail item s = _
  simp [execFaultDetect, hb, hcls]

/-- Settles O17: without a reaction, a detection is the log's own step, which a free log takes by a capture and a held one by OVF. -/
theorem detectedFaultIsLogged : Obligations.DetectedFaultIsLogged := by
  refine ⟨fun u b n src cls wh detail item s hb hcls => faultDetect_unassigned hb hcls detail item,
    fun u b n src cls wh detail s hb hq hcls hpow hdead hseen => ?_⟩
  have hrun := exec_faultDetect_quiet (d := { src := src, cls := cls, loc := wh.toNat, detail := detail.toNat }) hb hq hcls hpow hdead rfl
  refine ⟨fun h0 => ?_, fun h0 hesc hdue => ?_⟩
  · obtain ⟨hfault, hlog⟩ := detectFault_captured (d := { src := src, cls := cls, loc := wh.toNat, detail := detail.toNat }) hb hq hcls hseen h0
    obtain ⟨h1, h2, h3, h4, h5, h6, h7, h8, h9⟩ := LogSave.add_free (x := logNow s u) h0 b (unitFt s u) (unitBeat s u) (cackBeats s)
      (d := { src := src, cls := cls, loc := wh.toNat, detail := detail.toNat }) (quiet_class hq hcls).2
    rw [← hlog] at h1 h2 h3 h4 h5 h6 h7 h8 h9
    rw [hfault] at hrun
    refine ⟨_, hrun, h1, h2, h3, ?_, h7.trans (by simp), h8.trans (by simp), h4, h9, by simp, by simp [hdead]⟩
    rw [State.get64_of_logNow, h5, h6, BitVec.toNat_ofNat, BitVec.toNat_ofNat]
    omega
  · obtain ⟨hnotF, hfault, hlog⟩ := detectFault_overflow (d := { src := src, cls := cls, loc := wh.toNat, detail := detail.toNat }) hb hq hcls
      hseen h0 hesc hdue
    obtain ⟨h1, h2, h3, h4, h5, h6, h7⟩ := LogSave.add_held_kept (x := logNow s u) h0 hesc hnotF (unitFt s u) (unitBeat s u) (cackBeats s)
    rw [← hlog] at h1 h2 h3 h4 h5 h6 h7
    rw [hfault] at hrun
    exact ⟨_, hrun, h1, h2, h3, h4, h5, h6, h7, by simp⟩

end Sys2Proof.Machine
end

section
/-! SUPPORT. The hubs' time references (R68 to R70, R85, R87): what the planes that follow them leave at the hubs, the selection of a PTP
master, and the statement about them. -/

namespace Sys2Proof.Machine

/-! ### What a plane that follows its reference leaves at the hubs -/

/-- A plane's registers are none of a hub's. -/
theorem regKey_pu_ne_hu (p : PlaneId) (b : Blk) (off : Nat) (h : HubId) (c : Blk) (off' : Nat) :
    regKey (pu p b) off ≠ regKey (hu h c) off' := by
  have hcode : b.code < 256 := by cases b <;> decide
  have hlow : pu p b < 0x400 := by unfold pu; omega
  have hhigh : 0x400 ≤ hu h c := by unfold hu; omega
  intro hk
  have h1 := congrArg Prod.fst hk
  rcases regKey_fst (pu p b) off with h2 | ⟨h2, -⟩ <;> rcases regKey_fst (hu h c) off' with h3 | ⟨-, h3⟩ <;> omega

/-- An update leaves the hubs and their registers. -/
def KeepsHubs (s t : State) : Prop := t.hubs = s.hubs ∧ ∀ h b off, t.reg (hu h b) off = s.reg (hu h b) off

theorem KeepsHubs.refl (s : State) : KeepsHubs s s := ⟨rfl, fun _ _ _ => rfl⟩

theorem KeepsHubs.trans {s t r : State} (h : KeepsHubs s t) (h' : KeepsHubs t r) : KeepsHubs s r :=
  ⟨h'.1.trans h.1, fun k b off => (h'.2 k b off).trans (h.2 k b off)⟩

theorem KeepsHubs.hub {s t : State} (hk : KeepsHubs s t) (h : HubId) : t.hub h = s.hub h := by rw [State.hub, hk.1, State.hub]

theorem KeepsHubs.get {s t : State} (hk : KeepsHubs s t) (h : HubId) (b : Blk) (f : RField) : t.get (hu h b) f = s.get (hu h b) f := by
  rw [State.get, hk.2, State.get]

theorem keepsHubs_modPl (p : PlaneId) (f : Plane → Plane) (s : State) : KeepsHubs s (s.modPl p f) := ⟨rfl, fun _ _ _ => State.modPl_reg _ _ _ _ _⟩

/-- A field of a plane's unit. -/
theorem keepsHubs_put (s : State) (p : PlaneId) (b : Blk) (f : RField) (v : Nat) : KeepsHubs s (s.put (pu p b) f v) :=
  ⟨State.put_hubs _ _ _ _, fun _ _ _ => State.reg_put_ne _ _ (regKey_pu_ne_hu _ _ _ _ _ _)⟩

theorem keepsHubs_ite {c : Prop} [Decidable c] {s t r : State} (ht : KeepsHubs s t) (hr : KeepsHubs s r) : KeepsHubs s (if c then t else r) := by
  split
  · exact ht
  · exact hr

theorem keepsHubs_setLog (p : PlaneId) (b : Blk) (x : LogSave) (s : State) : KeepsHubs s (setLog (pu p b) x s) := by
  refine ⟨rfl, fun h c off => ?_⟩
  simp only [setLog, State.modRp_reg]
  repeat rw [State.reg_setReg_ne _ _ (regKey_pu_ne_hu _ _ _ _ _ _)]

/-- A detection of a plane's block reaches the block's log and report alone (R393). -/
theorem keepsHubs_logOrDead {p : PlaneId} {b : Blk} (hb : b ≠ .FCL) (d : Detection) (s : State) : KeepsHubs s (logOrDead (pu p b) b d s) := by
  have hrep : ∀ t f, KeepsHubs t (t.modRp (pu p b) f) := fun t f => ⟨rfl, fun _ _ _ => State.modRp_reg _ _ _ _ _⟩
  have hlog : KeepsHubs s (logDetection (pu p b) b d s) := (keepsHubs_setLog p b _ s).trans (hrep _ _)
  simp only [logOrDead, hb, if_false]
  exact keepsHubs_ite (hlog.trans (hrep _ _)) hlog

/-- REF_LOST and UPSTREAM_LOST. -/
theorem keepsHubs_detect_FTM (p : PlaneId) {src : Nat} (hsrc : src = 1 ∨ src = 2) (s : State) :
    KeepsHubs s (detect (pu p .FTM) src .c 0 0 s) := by
  have hold : ∀ t, KeepsHubs t (enterHoldover p t) := fun t =>
    ((keepsHubs_put t p _ _ _).trans (keepsHubs_put _ p _ _ _)).trans (keepsHubs_modPl p _ _)
  have hlog := keepsHubs_logOrDead (p := p) (b := .FTM) (by decide) { src := src, cls := .c, loc := 0, detail := 0 } s
  rw [detect, detectFault_FTM p rfl]
  refine hlog.trans ?_
  rcases hsrc with rfl | rfl <;>
  · simp only [react, unitPlane_FTM]
    exact keepsHubs_ite (hold _) (.refl _)

theorem keepsHubs_setFtmState (p : PlaneId) (st : Nat) (s : State) : KeepsHubs s (setFtmState p st s) := by
  have hstate := (keepsHubs_put s p .FTM Fld.FTM_STAT_STATE st).trans
    (keepsHubs_put _ p .PLN Fld.PLN_STATE_FT_LOCKED (b2n (st = 3 || st = 4)))
  exact keepsHubs_ite (hstate.trans (keepsHubs_put _ p _ _ _)) hstate

theorem keepsHubs_useSource (p : PlaneId) (src : Option TimeSource) (s : State) : KeepsHubs s (useSource p src s) := by
  have hsrc : KeepsHubs s ((modFtm s p (fun f => { f with inUse := src, good := 0 })).put (pu p .FTM) Fld.FTM_STAT_SRC (srcCode s p src)) :=
    (keepsHubs_modPl p _ s).trans (keepsHubs_put _ p _ _ _)
  unfold useSource
  split
  · exact hsrc.trans (keepsHubs_put _ p _ _ _)
  · exact hsrc

theorem keepsHubs_followReference (p : PlaneId) (s : State) : KeepsHubs s (followReference p s) := by
  have huse : ∀ st src, KeepsHubs s (setFtmState p st (useSource p src s)) := fun st src =>
    (keepsHubs_useSource p src s).trans (keepsHubs_setFtmState p st _)
  have hfound : KeepsHubs s (sourceFound p none s) := by
    unfold sourceFound
    split
    · exact huse 1 none
    · exact huse 3 none
    · exact .refl s
  have hlost : KeepsHubs s (sourceLost p s) := by
    unfold sourceLost
    split
    · exact keepsHubs_detect_FTM p (by split <;> simp) s
    · exact huse 0 none
    · exact huse 0 none
    · exact .refl s
  exact keepsHubs_ite (.refl s) (keepsHubs_ite hfound hlost)

/-- Every master plane follows the references in its own registers. -/
theorem keepsHubs_followReferences (s : State) : KeepsHubs s (followReferences s) :=
  (((keepsHubs_followReference 0 s).trans (keepsHubs_followReference 1 _)).trans (keepsHubs_followReference 2 _)).trans
    (keepsHubs_followReference 3 _)

/-! ### TIMEREF_10M (R68) -/

/-- A frequency error within 10 ppm is shown as it is. -/
theorem satSigned_ppb {ppb : Int} (hlo : -10000 ≤ ppb) (hhi : ppb ≤ 10000) : satSigned 16 ppb = ppb := by
  unfold satSigned
  rw [if_neg (by norm_num; omega), if_neg (by norm_num; omega)]

theorem timerefChange_inRange {h : HubId} {ppb : Int} {beats : Nat} {s : State} (hpow : s.powered (hu h .TRF) = true) (hlo : -10000 ≤ ppb)
    (hhi : ppb ≤ 10000) : Completes (.timerefChange h true ppb beats) s (fun t => t.get (hu h .TRF) Fld.TRF_STAT_REF_OK = 1 ∧
      t.get (hu h .TRF) Fld.TRF_STAT_FREQ_ERR = ofSigned 16 ppb) := by
  have hrange : (true && decide (-10000 ≤ ppb ∧ ppb ≤ 10000)) = true := by simp [hlo, hhi]
  have hval : ofSigned 16 ppb < 2 ^ 16 := by unfold ofSigned; omega
  have hrun : execTimerefChange h true ppb beats s = .next (followReferences
      ((s.put (hu h .TRF) Fld.TRF_STAT_FREQ_ERR (ofSigned 16 ppb)).put (hu h .TRF) Fld.TRF_STAT_REF_OK 1)) := by
    simp only [execTimerefChange, hpow, hrange, if_true, satSigned_ppb hlo hhi]
  refine ⟨_, hrun, ?_, ?_⟩ <;> rw [(keepsHubs_followReferences _).get]
  · exact State.get_put_same _ _ _ _ rfl
  · rw [State.get_put_apart (f := Fld.TRF_STAT_REF_OK) (g := Fld.TRF_STAT_FREQ_ERR) _ _ rfl rfl rfl rfl, State.get_put_same _ _ _ _ rfl]
    exact Nat.mod_eq_of_lt hval

theorem timerefChange_absent {h : HubId} {ppb : Int} {beats : Nat} {s : State} (hpow : s.powered (hu h .TRF) = true) (hlong : 16500 ≤ beats) :
    Completes (.timerefChange h false ppb beats) s (fun t => t.get (hu h .TRF) Fld.TRF_STAT_REF_OK = 0) := by
  have hrun : execTimerefChange h false ppb beats s = .next (followReferences
      ((s.put (hu h .TRF) Fld.TRF_STAT_FREQ_ERR (ofSigned 16 (satSigned 16 ppb))).put (hu h .TRF) Fld.TRF_STAT_REF_OK 0)) := by
    simp [execTimerefChange, hpow, hlong]
  exact ⟨_, hrun, ((keepsHubs_followReferences _).get _ _ _).trans (State.get_put_same _ _ _ _ rfl)⟩

/-! ### PPS_IN (R69) -/

theorem ppsCounts_short {s : State} {h : HubId} {high : Nat} (sub : Nat) (hshort : high < 1650) : ppsCounts s h high sub = false := by
  simp [ppsCounts, Nat.not_le.mpr hshort]

/-- The beat of the last counted edge stands in no register. -/
theorem modHub_ppsAt_get (s : State) (h : HubId) (f : Hub → Option Nat) (u : Nat) (g : RField) :
    (s.modHub h (fun x => { x with ppsAt := f x })).get u g = s.get u g := by
  rw [State.get, modHub_reg s h (fun x => { x with ppsAt := f x }) u _ (fun _ => rfl), State.get]

/-- The registers of a hub's TRF after a counted edge, which show its phase. -/
def edgeShown (h : HubId) (phase : Nat) (s : State) : State :=
  ((s.inc (hu h .TRF) Fld.TRF_PPS_CNT).put (hu h .TRF) Fld.TRF_STAT_PPS_OK 1).put (hu h .TRF) Fld.TRF_PPS_PHASE phase

theorem edgeShown_get (h : HubId) {phase : Nat} (hval : phase < 2 ^ 32) (s : State) :
    (edgeShown h phase s).get (hu h .TRF) Fld.TRF_STAT_PPS_OK = 1 ∧
      (edgeShown h phase s).get (hu h .TRF) Fld.TRF_PPS_CNT = (s.get (hu h .TRF) Fld.TRF_PPS_CNT + 1) % 2 ^ 32 ∧
      (edgeShown h phase s).get (hu h .TRF) Fld.TRF_PPS_PHASE = phase ∧
      (edgeShown h phase s).get (hu h .TRF) Fld.TRF_CFG_REF_SRC = s.get (hu h .TRF) Fld.TRF_CFG_REF_SRC := by
  have hne : ∀ (t : State) (f g : RField) (v : Nat), f.key % 4096 ≠ g.key % 4096 → (t.put (hu h .TRF) f v).get (hu h .TRF) g = t.get (hu h .TRF) g :=
    fun t _ _ v hk => State.get_put_ne t v (regKey_ne_of_mod hk)
  refine ⟨?_, ?_, ?_, ?_⟩
  · exact (hne _ _ _ _ (by decide)).trans (State.get_put_same _ _ _ _ rfl)
  · exact ((hne _ _ _ _ (by decide)).trans (hne _ _ _ _ (by decide))).trans ((State.get_put_same _ _ _ _ rfl).trans (Nat.mod_mod _ _))
  · exact (State.get_put_same _ _ _ _ rfl).trans (Nat.mod_eq_of_lt hval)
  · exact ((hne _ _ _ _ (by decide)).trans (hne _ _ _ _ (by decide))).trans (hne _ _ _ _ (by decide))

theorem ppsEdge_counted {h : HubId} {high : Nat} {sub : Fin 64} {s : State} (hpow : s.powered (hu h .TRF) = true)
    (hcounts : ppsCounts s h high sub.val = true) (hsrc : s.get (hu h .TRF) Fld.TRF_CFG_REF_SRC ≠ 1) :
    Completes (.ppsEdge h high sub) s (fun t => t.get (hu h .TRF) Fld.TRF_STAT_PPS_OK = 1 ∧
      t.get (hu h .TRF) Fld.TRF_PPS_CNT = (s.get (hu h .TRF) Fld.TRF_PPS_CNT + 1) % 2 ^ 32 ∧
      t.get (hu h .TRF) Fld.TRF_PPS_PHASE = ofSigned 32 (satSigned 32 (ppsPhase (s.ft (ppsPlane s h)) sub.val)) ∧
      (t.hub h).ppsAt = some (s.hub h).beat ∧ t.planes = s.planes) := by
  generalize hph : ofSigned 32 (satSigned 32 (ppsPhase (s.ft (ppsPlane s h)) sub.val)) = ph
  have hval : ph < 2 ^ 32 := by rw [← hph]; unfold ofSigned; omega
  obtain ⟨hok, hcnt, hphase, hcfg⟩ := edgeShown_get h hval s
  have hrun : execPpsEdge h high sub s = .next ((edgeShown h ph s).modHub h (fun x => { x with ppsAt := some x.beat })) := by
    simp only [execPpsEdge, hpow, hcounts, if_true, modHub_ppsAt_get, hph]
    exact if_neg (by rwa [← hcfg] at hsrc)
  refine ⟨_, hrun, ?_, ?_, ?_, ?_, rfl⟩
  · exact (modHub_ppsAt_get _ _ _ _ _).trans hok
  · exact (modHub_ppsAt_get _ _ _ _ _).trans hcnt
  · exact (modHub_ppsAt_get _ _ _ _ _).trans hphase
  · rw [State.modHub_hub_same]
    rfl

theorem ppsEdge_rejected {h : HubId} {high : Nat} {sub : Fin 64} {s : State} (hpow : s.powered (hu h .TRF) = true)
    (hcounts : ppsCounts s h high sub.val = false) :
    Completes (.ppsEdge h high sub) s (fun t =>
      t.get (hu h .TRF) Fld.TRF_PPS_REJ = min (s.get (hu h .TRF) Fld.TRF_PPS_REJ + 1) 0xFFFF ∧ t.planes = s.planes ∧ t.hubs = s.hubs ∧
      ∀ u off, regKey u off ≠ regKey (hu h .TRF) Fld.TRF_PPS_REJ.key → t.reg u off = s.reg u off) := by
  refine ⟨s.incSat (hu h .TRF) Fld.TRF_PPS_REJ, by simp [exec, execPpsEdge, hpow, hcounts], ?_, rfl, rfl,
    fun u off hne => State.reg_put_ne _ _ hne.symm⟩
  rw [State.incSat, State.get_put_same _ _ _ _ rfl]
  exact Nat.mod_eq_of_lt (lt_of_le_of_lt (min_le_right _ _) (by decide))

theorem ppsLoss_late {h : HubId} {b : Nat} {s : State} (hat : (s.hub h).ppsAt = some b) (hlate : b + 1666500000 < (s.hub h).beat) :
    Completes (.ppsLoss h) s (fun t => t.get (hu h .TRF) Fld.TRF_STAT_PPS_OK = 0 ∧ (t.hub h).ppsAt = none) := by
  refine ⟨(s.put (hu h .TRF) Fld.TRF_STAT_PPS_OK 0).modHub h (fun x => { x with ppsAt := none }), by simp [exec, execPpsLoss, hat, hlate], ?_, ?_⟩
  · exact (modHub_ppsAt_get _ h (fun _ => none) _ _).trans (State.get_put_same _ _ _ _ rfl)
  · rw [State.modHub_hub_same]

/-! ### PTP masters (R70, R87) -/

/-- The best master, if any, is one of those known. -/
theorem bestMaster_mem {l : List (Nat × Nat)} {m : Nat} (h : bestMaster l = some m) : ∃ x ∈ l, x.1 = m := by
  have hbest : ∀ (l : List (Nat × Nat)) (a : Option (Nat × Nat)) (y : Nat × Nat), l.foldl (fun (a : Option (Nat × Nat)) x => match a with
      | none => some x
      | some y => if x.2 < y.2 ∨ (x.2 = y.2 ∧ x.1 < y.1) then some x else a) a = some y → a = some y ∨ y ∈ l := by
    intro l
    induction l with
    | nil => exact fun a y h => .inl h
    | cons x r ih =>
      intro a y h
      rcases ih _ y h with h | h
      · cases a with
        | none => exact .inr (by simp_all)
        | some z =>
          dsimp only at h
          split at h
          · exact .inr (by simp_all)
          · exact .inl h
      · exact .inr (List.mem_cons_of_mem _ h)
  obtain ⟨y, hy, rfl⟩ := Option.map_eq_some_iff.mp h
  exact ⟨y, (hbest l none y hy).resolve_left (by simp), rfl⟩

/-- A change of the known masters selects the best of them. -/
theorem chooseMaster_ptp (h : HubId) (l : List (Nat × Nat)) (s : State) :
    ((chooseMaster h l s).hub h).ptp.foreign = l ∧ ((chooseMaster h l s).hub h).ptp.master = bestMaster l := by
  unfold chooseMaster
  dsimp only
  split
  · next hm => simp [hm]
  · rw [(keepsHubs_followReferences _).hub]
    simp [State.hub, State.modHub]

/-- Where another master is selected, or none, its time is not in use yet. -/
theorem chooseMaster_ptpOk {h : HubId} {l : List (Nat × Nat)} {s : State} (hother : (s.hub h).ptp.master ≠ bestMaster l) :
    (chooseMaster h l s).get (hu h .TRF) Fld.TRF_STAT_PTP_OK = 0 := by
  simp only [chooseMaster, hother, if_false]
  rw [(keepsHubs_followReferences _).get]
  exact State.get_put_same _ _ _ _ rfl

theorem ptpMasterLost_selected {h : HubId} {m : Nat} {s : State} (hm : (s.hub h).ptp.master = some m) :
    Completes (.ptpMasterLost h) s (fun t => let l := (s.hub h).ptp.foreign.filter (·.1 ≠ m)
      (t.hub h).ptp.foreign = l ∧ (t.hub h).ptp.master = bestMaster l ∧ bestMaster l ≠ some m ∧
      t.get (hu h .TRF) Fld.TRF_STAT_PTP_OK = 0) := by
  have hgone : bestMaster ((s.hub h).ptp.foreign.filter (·.1 ≠ m)) ≠ some m := by
    intro hbest
    obtain ⟨x, hx, hxm⟩ := bestMaster_mem hbest
    simp [hxm] at hx
  obtain ⟨hf, hsel⟩ := chooseMaster_ptp h ((s.hub h).ptp.foreign.filter (·.1 ≠ m)) s
  exact ⟨chooseMaster h ((s.hub h).ptp.foreign.filter (·.1 ≠ m)) s, by simp only [exec, execPtpMasterLost, hm], hf, hsel, hgone,
    chooseMaster_ptpOk (by rw [hm]; exact hgone.symm)⟩

/-! ### PPS_OUT (R85) -/

theorem ppsOutRise_due {h : HubId} {s : State} (hdrv : ppsDriver s = some h) (hsec : s.ft (ppsPlane s h) % 1650000000 = 0)
    (hlock : s.on (pu (ppsPlane s h) .PLN) Fld.PLN_STATE_FT_LOCKED = true) :
    Completes .ppsOutRise s (fun t => t.ppsOut = some (s.ft (ppsPlane s h)) ∧ t.regs = s.regs ∧ t.planes = s.planes) :=
  ⟨{ s with ppsOut := some (s.ft (ppsPlane s h)) }, by simp [exec, execPpsOutRise, hdrv, secBeats, hsec, hlock], rfl, rfl, rfl⟩

theorem ppsOutFall_due {h : HubId} {r : Nat} {s : State} (hout : s.ppsOut = some r) (hdrv : ppsDriver s = some h)
    (hdue : r + 165000 ≤ s.ft (ppsPlane s h)) :
    Completes .ppsOutFall s (fun t => t.ppsOut = none ∧ t.regs = s.regs ∧ t.planes = s.planes) :=
  ⟨{ s with ppsOut := none }, by simp [exec, execPpsOutFall, hout, hdrv, hdue], rfl, rfl, rfl⟩

theorem ppsOutFall_early {h : HubId} {r : Nat} {s : State} (hout : s.ppsOut = some r) (hdrv : ppsDriver s = some h)
    (hearly : s.ft (ppsPlane s h) < r + 165000) (hlock : s.on (pu (ppsPlane s h) .PLN) Fld.PLN_STATE_FT_LOCKED = true) :
    Completes .ppsOutFall s (fun t => t = s) :=
  ⟨s, by simp [exec, execPpsOutFall, hout, hdrv, hlock, Nat.not_le.mpr hearly], rfl⟩

/-- Settles O12: each reference event stores what R68 to R70 say in the hub's TRF, and the planes that follow it change nothing there; the
masters left after a loss are those known but the lost one, so that the best of them is another. -/
theorem timeReferenceEvents : Obligations.TimeReferenceEvents :=
  ⟨fun _ _ _ _ => timerefChange_inRange, fun _ _ _ _ => timerefChange_absent, fun _ _ _ _ => ppsEdge_counted, fun _ _ _ _ => ppsEdge_rejected,
    fun _ _ sub _ => ppsCounts_short sub.val, fun _ _ _ => ppsLoss_late,
    fun h _ _ _ _ s hpow hsrc hdom heth => ⟨_, if_pos ⟨hpow, hsrc, hdom, heth⟩, chooseMaster_ptp h _ s⟩,
    fun _ _ _ => ptpMasterLost_selected, fun _ _ => ppsOutRise_due, fun _ _ _ => ppsOutFall_due, fun _ _ _ => ppsOutFall_early⟩

end Sys2Proof.Machine
end

section
/-! SUPPORT. Registers of different units, and what the key logic leaves alone when a latch entry or a loss of fabric time returns its key. -/

namespace Sys2Proof.Machine

/-! ### Units of a plane -/

/-- A register of a plane's unit is none of another unit's. -/
theorem regKey_ne_of_unit {u u' off off' : Nat} (hu : u < 0x400) (h : u ≠ u') : regKey u off ≠ regKey u' off' := by
  intro hk
  have h1 := congrArg Prod.fst hk
  rcases regKey_fst u off with h2 | ⟨h2, -⟩ <;> rcases regKey_fst u' off' with h3 | ⟨-, h3⟩ <;> omega

theorem pu_lt (p : PlaneId) (b : Blk) : pu p b < 0x400 := by
  have hcode : b.code < 256 := by cases b <;> decide
  unfold pu
  omega

/-- An update that a fold repeats keeps what each of its steps keeps. -/
theorem foldl_keeps {α β : Type} (g : State → β) {f : State → α → State} (h : ∀ t x, g (f t x) = g t) (l : List α) (s : State) :
    g (l.foldl f s) = g s := by
  induction l generalizing s with
  | nil => rfl
  | cons x r ih => exact (ih _).trans (h s x)

/-! ### The key logic -/

/-- An update of the key logic: the registers of other blocks than KSQ and PLN stay, and so does PLN_STATE.FT_LOCKED. -/
structure KeyUpdate (p : PlaneId) (s t : State) : Prop where
  reg : ∀ u off, u ≠ pu p .KSQ → u ≠ pu p .PLN → t.reg u off = s.reg u off
  locked : t.get (pu p .PLN) Fld.PLN_STATE_FT_LOCKED = s.get (pu p .PLN) Fld.PLN_STATE_FT_LOCKED

theorem KeyUpdate.refl (p : PlaneId) (s : State) : KeyUpdate p s s := ⟨fun _ _ _ _ => rfl, rfl⟩

theorem KeyUpdate.trans {p : PlaneId} {s t r : State} (h : KeyUpdate p s t) (h' : KeyUpdate p t r) : KeyUpdate p s r :=
  ⟨fun u off hk hp => (h'.reg u off hk hp).trans (h.reg u off hk hp), h'.locked.trans h.locked⟩

theorem keyUpdate_put_KSQ (p : PlaneId) (s : State) (f : RField) (v : Nat) : KeyUpdate p s (s.put (pu p .KSQ) f v) :=
  ⟨fun _ _ hk _ => State.reg_put_ne _ _ (regKey_ne_of_unit (pu_lt p _) hk.symm),
    State.get_put_ne _ _ (regKey_ne_of_unit (pu_lt p _) (by simp [pu, Blk.code]))⟩

theorem keyUpdate_modPl (p : PlaneId) (f : Plane → Plane) (s : State) : KeyUpdate p s (s.modPl p f) :=
  ⟨fun _ _ _ _ => State.modPl_reg _ _ _ _ _, State.modPl_get _ _ _ _ _⟩

theorem keyUpdate_setPlnState (p : PlaneId) (v : Nat) (s : State) : KeyUpdate p s (setPlnState p v s) := by
  unfold setPlnState
  split
  · exact .refl p s
  · refine ⟨fun u off _ hp => ?_, ?_⟩
    · rw [State.pulseBit_reg, State.reg_put_ne _ _ (regKey_ne_of_unit (pu_lt p _) hp.symm)]
    · rw [State.pulseBit_get, State.get_put_apart (f := Fld.PLN_STATE) (g := Fld.PLN_STATE_FT_LOCKED) _ _ rfl rfl rfl rfl]

theorem keyUpdate_syncPln (p : PlaneId) (s : State) : KeyUpdate p s (syncPln p s) := by
  simp only [syncPln]
  split
  · exact keyUpdate_setPlnState p _ s
  · exact .refl p s

/-- An ARMED bank that returns (R119, R120, R121). -/
theorem keyUpdate_disarm (p : PlaneId) (b rcode : Nat) (s : State) : KeyUpdate p s (disarm p b rcode s) := by
  have hbank : ∀ v, KeyUpdate p s (setRcode p b rcode (setBankSt p b v s)) := fun v =>
    (keyUpdate_put_KSQ p s _ _).trans (keyUpdate_put_KSQ p _ _ _)
  have hwin : ∀ t f g, KeyUpdate p t (((modBank p b f t).put (pu p .KSQ) Fld.KSQ_STAT_SWAP_WIN 0).modPl p g) := fun t f g =>
    ((keyUpdate_modPl p _ t).trans (keyUpdate_put_KSQ p _ _ _)).trans (keyUpdate_modPl p _ _)
  have hlate : ∀ t, KeyUpdate p t (if rcode = 0x10 then t.incSat (pu p .KSQ) Fld.KSQ_STAT_LATE_CNT else t) := fun t => by
    split
    · exact keyUpdate_put_KSQ p t _ _
    · exact .refl p t
  exact (((hbank _).trans (hwin _ _ _)).trans (hlate _)).trans (keyUpdate_syncPln p _)

/-- The reaction to a loss of fabric time (R121, Table 14.2). -/
theorem keyUpdate_ftLost (p : PlaneId) (s : State) : KeyUpdate p s (endRunningKey p .ftLost s) := by
  have harmed : KeyUpdate p s (match bankIn s p 3 with
      | some b => disarm p b 0x13 s
      | none => s) := by
    split
    · exact keyUpdate_disarm p _ _ s
    · exact .refl p s
  have hrunning : ∀ t, KeyUpdate p t (match bankIn t p 4 with
      | none => t
      | some b => modBank p b (fun k => { k with ftLost := some (t.ft p) }) t) := by
    intro t
    split
    · exact .refl p t
    · exact keyUpdate_modPl p _ t
  simp only [endRunningKey, if_true, reduceCtorEq, if_false]
  exact harmed.trans (hrunning _)

end Sys2Proof.Machine
end

section
/-! SUPPORT. The lock states of a plane's fabric time (Table 3.2), the TSYNC exchange (R74, R75, R82), and the statement about them. -/

namespace Sys2Proof.Machine

/-! ### Lock states -/

@[simp] theorem modFtm_pl (s : State) (p : PlaneId) (f : Ftm → Ftm) : (modFtm s p f).pl p = { s.pl p with ftm := f (s.pl p).ftm } :=
  State.modPl_pl_same _ _ _

@[simp] theorem setFtmState_planes (p : PlaneId) (st : Nat) (s : State) : (setFtmState p st s).planes = s.planes := by
  simp only [setFtmState]
  split <;> simp

@[simp] theorem setFtmState_rep (p : PlaneId) (st : Nat) (s : State) : (setFtmState p st s).rep = s.rep := by
  simp only [setFtmState]
  split <;> simp

/-- A plane enters a state of Table 3.2: FTM_STAT shows it, and FT_LOCKED is 1 in LOCKED and HOLDOVER (R79). -/
theorem setFtmState_shown (p : PlaneId) (st : Nat) (s : State) :
    ftmState (setFtmState p st s) p = st % 8 ∧
      (setFtmState p st s).get (pu p .PLN) Fld.PLN_STATE_FT_LOCKED = b2n (st = 3 || st = 4) := by
  have hlock : ∀ b, b2n b % 2 ^ Fld.PLN_STATE_FT_LOCKED.width = b2n b := by decide
  have hboth : ∀ t : State, t = (s.put (pu p .FTM) Fld.FTM_STAT_STATE st).put (pu p .PLN) Fld.PLN_STATE_FT_LOCKED (b2n (st = 3 || st = 4)) →
      ftmState t p = st % 8 ∧ t.get (pu p .PLN) Fld.PLN_STATE_FT_LOCKED = b2n (st = 3 || st = 4) := by
    rintro _ rfl
    refine ⟨?_, (State.get_put_same _ _ _ _ rfl).trans (hlock _)⟩
    rw [ftmState, State.get_put_ne _ _ (regKey_ne_of_mod (by decide)), State.get_put_same _ _ _ _ rfl]
    rfl
  simp only [setFtmState]
  split
  · rw [ftmState, State.get_put_apart (f := Fld.FTM_STAT_SRC) (g := Fld.FTM_STAT_STATE) _ _ rfl rfl rfl rfl, ← ftmState,
      State.get_put_ne _ _ (regKey_ne_of_mod (by decide))]
    exact hboth _ rfl
  · exact hboth _ rfl

theorem freqLock_acquired {p : PlaneId} {s : State} (hst : ftmState s p = 1) :
    Completes (.freqLock p) s (fun t => ftmState t p = 2 ∧ t.get (pu p .PLN) Fld.PLN_STATE_FT_LOCKED = 0 ∧ t.ft p = s.ft p) := by
  obtain ⟨h1, h2⟩ := setFtmState_shown p 2 (modFtm s p (fun f => { f with good := 0, slew := 0 }))
  refine ⟨_, if_pos hst, h1, h2, ?_⟩
  rw [State.ft, State.pl, setFtmState_planes, ← State.pl, modFtm_pl, State.ft]

/-! ### The end of HOLDOVER (R82) -/

/-- A loss of the lock leaves the log of FTM as it was. -/
theorem sameLog_release (p : PlaneId) (s : State) :
    logNow (setFtmState p 0 (useSource p none s)) (pu p .FTM) = logNow s (pu p .FTM) ∧
      detectedNow (setFtmState p 0 (useSource p none s)) (pu p .FTM) = detectedNow s (pu p .FTM) := by
  have hrep : (setFtmState p 0 (useSource p none s)).rep = s.rep := by
    rw [setFtmState_rep]
    simp only [useSource]
    split <;> rfl
  have hbeats : (setFtmState p 0 (useSource p none s)).beats p = s.beats p := by
    rw [State.beats, State.pl, setFtmState_planes]
    simp only [useSource]
    split <;> simp [modFtm, State.beats, State.pl, State.modPl]
  refine ⟨?_, by simp only [detectedNow, State.rp, hrep, unitBeat, unitPlane_FTM, hbeats]⟩
  have hreg : ∀ o, 0x01C ≤ o → o ≤ 0x02C → (setFtmState p 0 (useSource p none s)).reg (pu p .FTM) o = s.reg (pu p .FTM) o := by
    intro o h1 h2
    have hput : ∀ (t : State) (u : Nat) (f : RField) (v : Nat), 0x40 ≤ f.key % 4096 → (t.put u f v).reg (pu p .FTM) o = t.reg (pu p .FTM) o :=
      fun t _ _ v hf => State.reg_put_ne t v (regKey_ne_of_mod (by omega))
    simp only [setFtmState, true_or, if_true]
    rw [hput _ _ _ _ (by decide), hput _ _ _ _ (by decide), hput _ _ _ _ (by decide)]
    simp only [useSource]
    split
    · rw [hput _ _ _ _ (by decide), hput _ _ _ _ (by decide), modFtm, State.modPl_reg]
    · rw [hput _ _ _ _ (by decide), modFtm, State.modPl_reg]
  exact logNow_congr hreg hrep

/-- A class U fault of a free log of FTM is captured (R47). -/
theorem detect_FTM_captured {p : PlaneId} {src : Nat} {s : State} (hsrc : src < 256) (h0 : (logNow s (pu p .FTM)).held = 0)
    (hseen : detectedNow s (pu p .FTM) = []) (cls : FaultClass) :
    fieldGet (logNow (logDetection (pu p .FTM) .FTM { src := src, cls := cls, loc := 0, detail := 0 } s) (pu p .FTM)).cls Fld.BLK_ERR_CLASS =
        classCode cls ∧
      fieldGet (logNow (logDetection (pu p .FTM) .FTM { src := src, cls := cls, loc := 0, detail := 0 } s) (pu p .FTM)).cls
        Fld.BLK_ERR_CLASS_SOURCE = src := by
  have hbase : logBase s (pu p .FTM) = logNow s (pu p .FTM) := by simp [logBase, hseen, LogSave.due, h0]
  rw [logNow_logDetection hseen, hbase]
  obtain ⟨h1, h2, -⟩ := LogSave.add_free h0 .FTM (unitFt s (pu p .FTM)) (unitBeat s (pu p .FTM)) (cackBeats s)
    (d := { src := src, cls := cls, loc := 0, detail := 0 }) hsrc
  exact ⟨h1, h2⟩

/-- The report logic that a class F fault marks is no part of the log. -/
theorem logOrDead_log {u : Nat} {b : Blk} (hb : b ≠ .FCL) (d : Detection) (s : State) (o : Nat) :
    (logOrDead u b d s).reg u o = (logDetection u b d s).reg u o := by
  simp only [logOrDead, hb, if_false]
  split
  · rw [State.modRp_reg]
  · rfl

/-- FT_LOST as FTM finds it (R82, Table 14.2). -/
def ftLostFound : Detection := { src := 3, cls := .u, loc := 0, detail := 0 }

theorem holdoverExpire_over {p : PlaneId} {s : State} (hrole : ftmRole s p = 0) (hst : ftmState s p = 4) (hover : holdoverOver s p = true) :
    Completes (.holdoverExpire p) s (fun t => ftmState t p = 0 ∧ t.get (pu p .PLN) Fld.PLN_STATE_FT_LOCKED = 0 ∧
      (s.get (pu p .FTM) Fld.BLK_ERR_CLASS = 0 → detectedNow s (pu p .FTM) = [] →
        t.get (pu p .FTM) Fld.BLK_ERR_CLASS = 2 ∧ t.get (pu p .FTM) Fld.BLK_ERR_CLASS_SOURCE = 3)) := by
  have hdetect : ∀ t, detect (pu p .FTM) 3 .u 0 0 t = endRunningKey p .ftLost (logOrDead (pu p .FTM) .FTM ftLostFound t) := by
    intro t
    simp only [detect, detectFault, unitBlk_FTM, react, unitPlane_FTM, reduceCtorEq, false_and, if_false]
    rfl
  generalize hfree : setFtmState p 0 (useSource p none s) = free
  obtain ⟨hst0, hlock0⟩ := setFtmState_shown p 0 (useSource p none s)
  obtain ⟨hlog, hseen⟩ := sameLog_release p s
  rw [hfree] at hst0 hlock0 hlog hseen
  have hkey := keyUpdate_ftLost p (logOrDead (pu p .FTM) .FTM ftLostFound free)
  have hftm : ∀ f : RField, (endRunningKey p .ftLost (logOrDead (pu p .FTM) .FTM ftLostFound free)).get (pu p .FTM) f =
      (logOrDead (pu p .FTM) .FTM ftLostFound free).get (pu p .FTM) f := fun f => by
    rw [State.get, hkey.reg _ _ (by simp [pu, Blk.code]) (by simp [pu, Blk.code]), State.get]
  have hown : ∀ (u : Nat) (f : RField), 0x40 ≤ f.key % 4096 → (logOrDead (pu p .FTM) .FTM ftLostFound free).get u f = free.get u f := fun u f hf => by
    rw [State.get, logOrDead_reg (by decide) _ _ hf, State.get]
  refine ⟨detect (pu p .FTM) 3 .u 0 0 free, ?_, ?_, ?_, fun h0 hnone => ?_⟩
  · simp only [exec, execHoldoverExpire, hrole, hst, hover, and_self, if_true, hfree]
  · rw [hdetect, ftmState, hftm, hown _ _ (by decide)]
    exact hst0
  · rw [hdetect, hkey.locked, hown _ _ (by decide)]
    exact hlock0
  · have hheld : (logNow free (pu p .FTM)).held = 0 := by rw [hlog]; exact h0
    obtain ⟨h1, h2⟩ := detect_FTM_captured (src := 3) (by decide) hheld (hseen.trans hnone) .u
    rw [hdetect, hftm, hftm, State.get, State.get, logOrDead_log (by decide), logOrDead_log (by decide)]
    exact ⟨h1, h2⟩

/-! ### Silence of the source (R82, R88) -/

/-- UPSTREAM_LOST in LOCKED: the plane is in HOLDOVER from this beat on. -/
theorem detect_FTM_holdover {p : PlaneId} {src : Nat} (hsrc : src = 1 ∨ src = 2) {s : State} (hst : ftmState s p = 3) :
    ftmState (detect (pu p .FTM) src .c 0 0 s) p = 4 ∧ (detect (pu p .FTM) src .c 0 0 s).get (pu p .PLN) Fld.PLN_STATE_FT_LOCKED = 1 ∧
      ((detect (pu p .FTM) src .c 0 0 s).pl p).ftm.holdSince = s.beats p := by
  have hlogged : ftmState (logOrDead (pu p .FTM) .FTM { src := src, cls := .c, loc := 0, detail := 0 } s) p = 3 := by
    rw [ftmState, State.get, logOrDead_reg (by decide) _ _ (by decide)]
    exact hst
  have hpl : (logOrDead (pu p .FTM) .FTM { src := src, cls := .c, loc := 0, detail := 0 } s).planes = s.planes := by
    simp only [logOrDead, reduceCtorEq, if_false]
    split <;> simp
  have henter : detect (pu p .FTM) src .c 0 0 s =
      enterHoldover p (logOrDead (pu p .FTM) .FTM { src := src, cls := .c, loc := 0, detail := 0 } s) := by
    rw [detect, detectFault_FTM p rfl]
    rcases hsrc with rfl | rfl <;>
    · simp only [react, unitPlane_FTM]
      exact if_pos hlogged
  rw [henter]
  refine ⟨?_, ?_, ?_⟩
  · rw [ftmState, enterHoldover, State.modPl_get, State.get_put_ne _ _ (regKey_ne_of_mod (by decide)), State.get_put_same _ _ _ _ rfl]
    rfl
  · rw [enterHoldover, State.modPl_get, State.get_put_same _ _ _ _ rfl]
    rfl
  · rw [enterHoldover, State.modPl_pl_same]
    simp [State.beats, State.pl, hpl]

theorem tsyncTimeout_silent {p : PlaneId} {src : TimeSource} {s : State} (hrole : ftmRole s p = 0) (hst : ftmState s p = 3)
    (huse : (s.pl p).ftm.inUse = some src)
    (hsilent : ((s.pl p).ftm.ups.find? (fun u => u.src = src)).all (fun u => decide (u.lastAt + 196608 < s.beats p)) = true) :
    Completes (.tsyncTimeout p) s (fun t => ftmState t p = 4 ∧ t.get (pu p .PLN) Fld.PLN_STATE_FT_LOCKED = 1 ∧
      (t.pl p).ftm.holdSince = s.beats p) := by
  have hlost : sourceLost p s = detect (pu p .FTM) 2 .c 0 0 s := by simp only [sourceLost, hst, hrole, if_true]
  refine ⟨sourceLost p s, ?_, ?_⟩
  · simp [exec, execTsyncTimeout, huse, hrole, hst, hsilent]
  · rw [hlost]
    exact detect_FTM_holdover (.inr rfl) hst

/-! ### TSYNC and its echo (R74, R75) -/

/-- A TSYNC that waits for its message position is data of the lane alone. -/
@[simp] theorem sendTime_regs (p : PlaneId) (n : PortId) (m : TsyncMsg) (s : State) : (sendTime p n m s).regs = s.regs := rfl

@[simp] theorem sendTime_ftm (p : PlaneId) (n : PortId) (m : TsyncMsg) (s : State) : ((sendTime p n m s).pl p).ftm = (s.pl p).ftm := by
  simp [sendTime, queueCtl, modLane, modFab]

@[simp] theorem sendTime_get (p : PlaneId) (n : PortId) (m : TsyncMsg) (s : State) (u : Nat) (f : RField) :
    (sendTime p n m s).get u f = s.get u f := State.modPl_get _ _ _ _ _

theorem foldl_sendTime_regs (p : PlaneId) (m : PortId → TsyncMsg) (l : List PortId) (s : State) :
    (l.foldl (fun t n => sendTime p n (m n) t) s).regs = s.regs := foldl_keeps State.regs (fun t n => sendTime_regs p n _ t) l s

theorem foldl_sendTime_ftm (p : PlaneId) (m : PortId → TsyncMsg) (l : List PortId) (s : State) :
    ((l.foldl (fun t n => sendTime p n (m n) t) s).pl p).ftm = (s.pl p).ftm :=
  foldl_keeps (fun t => (t.pl p).ftm) (fun t n => sendTime_ftm p n _ t) l s

/-- What a hub relays leaves the module, and nothing in it changes (log 10). -/
theorem foldl_emit_regs (o : PlaneId → Output) (l : List PlaneId) (s : State) : (l.foldl (fun t q => t.emit (o q)) s).regs = s.regs :=
  foldl_keeps State.regs (f := fun t q => t.emit (o q)) (fun _ _ => rfl) l s

theorem foldl_emit_pl (o : PlaneId → Output) (l : List PlaneId) (s : State) (p : PlaneId) : (l.foldl (fun t q => t.emit (o q)) s).pl p = s.pl p :=
  foldl_keeps (fun t => t.pl p) (f := fun t q => t.emit (o q)) (fun _ _ => rfl) l s

theorem tsyncSend_due {p : PlaneId} {sub : Fin 64} {s : State} (hst : ftmState s p = 3 ∨ ftmState s p = 4)
    (hdue : ∀ b, (s.pl p).ftm.lastTx = some b → b + 65536 ≤ s.beats p) :
    Completes (.tsyncSend p sub) s (fun t => (t.pl p).ftm.lastTx = some (s.beats p) ∧
      (t.pl p).ftm.txSeq = ((s.pl p).ftm.txSeq + 1) % 65536 ∧ t.regs = s.regs ∧ t.ft p = s.ft p) := by
  have hnow : (match (s.pl p).ftm.lastTx with
      | none => true
      | some t => decide (t + 65536 ≤ (s.pl p).ftm.beats)) = true := by
    split
    · rfl
    · next b hb => exact decide_eq_true (hdue b hb)
  refine ⟨_, if_pos ⟨hst, hnow⟩, ?_⟩
  simp only [modFtm_pl, State.ft, State.beats]
  refine ⟨?_, ?_, (foldl_emit_regs _ _ _).trans (foldl_sendTime_regs p _ _ s), ?_⟩ <;>
    rw [foldl_emit_pl, foldl_sendTime_ftm]

theorem tsyncSend_early {p : PlaneId} {sub : Fin 64} {b : Nat} {s : State} (hlast : (s.pl p).ftm.lastTx = some b)
    (hearly : s.beats p < b + 65536) : Completes (.tsyncSend p sub) s (fun t => t = s) := by
  have hno : ¬ b + 65536 ≤ (s.pl p).ftm.beats := Nat.not_le.mpr hearly
  exact ⟨s, by simp [exec, execTsyncSend, hlast, hno], rfl⟩

theorem tsyncReceive_master {p : PlaneId} {n : PortId} {msg : TsyncMsg} {sub echoSub : Fin 64} {s : State} (hrole : ftmRole s p ≠ 0)
    (htalks : portTalks s p n.val = true) (hecho : msg.echo = false) (hpow : s.powered (pu p .FTM) = true) :
    Completes (.tsyncReceive p (.port n) msg sub echoSub) s (fun t => (t.pl p).ftm.ups.head? =
      some ⟨.port n, msg.seq, msg.state, msg.depth, msg.tTx, (64 * s.ft p + sub.val : Nat), (64 * s.ft p + echoSub.val : Nat), s.beats p⟩ ∧
      t.regs = s.regs ∧ t.ft p = s.ft p) := by
  have hmaster : ∀ m f, ftmRole (sendTime p n m (modFtm s p f)) p ≠ 0 := fun m f => by
    simpa only [ftmRole, sendTime_get, modFtm, State.modPl_get] using hrole
  refine ⟨_, rfl, ?_⟩
  simp only [tsyncIn, htalks, hecho, hpow, Bool.false_eq_true, not_false_eq_true, and_self, if_true, hmaster, if_false, false_and]
  split <;> simp [State.ft, modFtm]

theorem tsyncEcho_last {p : PlaneId} {n : PortId} {msg : TsyncMsg} {sub : Fin 64} {s : State} (hecho : msg.echo = true)
    (hseq : (msg.seq + 1) % 65536 = (s.pl p).ftm.txSeq) :
    Completes (.tsyncEchoReceive p (.port n) msg sub) s (fun t =>
      mget (t.pl p).ftm.echoAt n.val = some (64 * s.ft p + sub.val) ∧ t.regs = s.regs) := by
  refine ⟨modFtm s p (fun f => { f with echoAt := mput f.echoAt n.val (64 * s.ft p + sub.val) }), ?_, ?_, rfl⟩
  · simp only [exec, execTsyncEchoReceive, echoIn, hecho, hseq, and_self, if_true]
  · rw [modFtm_pl]
    exact mget_mput_same _ _ _

/-! ### PHASE_STEP (R76) -/

/-- A step toward zero takes the sign of what is left. -/
theorem slew_step {x : Int} (hx : x ≠ 0) : (if x > 0 then x - 1 else x + 1) = x - Int.sign x := by
  split
  · next h => rw [Int.sign_eq_one_of_pos h]
  · next h => rw [Int.sign_eq_neg_one_of_neg (by omega)]; rfl

theorem phaseStep_due {p : PlaneId} {s : State} (hslew : (s.pl p).ftm.slew ≠ 0) (hdue : (s.pl p).ftm.lastStep + 1024 ≤ s.beats p)
    (hst : ftmState s p = 2 ∨ ftmState s p = 3) :
    Completes (.phaseStep p) s (fun t => (t.pl p).ftm.slew = (s.pl p).ftm.slew - Int.sign (s.pl p).ftm.slew ∧
      (t.pl p).ftm.lastStep = s.beats p ∧ t.regs = s.regs ∧ t.ft p = s.ft p) := by
  refine ⟨_, if_pos ⟨hslew, hdue, hst⟩, ?_, ?_, rfl, ?_⟩
  · rw [modFtm_pl]
    exact slew_step hslew
  · rw [modFtm_pl, State.beats]
  · rw [State.ft, modFtm_pl, State.ft]

/-- Settles O13: a plane's lock state is what FTM_STAT and FT_LOCKED show of it, losses of the source are logged and go through HOLDOVER, and
the TSYNC exchange is bookkeeping of the plane's own time that no register and no FT enters. -/
theorem timeDistribution : Obligations.TimeDistribution :=
  ⟨fun _ _ => freqLock_acquired, fun _ _ => holdoverExpire_over, fun _ _ _ => tsyncTimeout_silent, fun _ _ _ => tsyncSend_due,
    fun _ _ _ _ => tsyncSend_early, fun _ _ _ _ _ _ => tsyncReceive_master, fun _ _ _ _ _ => tsyncEcho_last, fun _ _ => phaseStep_due⟩

end Sys2Proof.Machine
end

section
/-! SUPPORT. A write of a latch command (R95), and the statement about the commands written at an entry. -/

namespace Sys2Proof.Machine

theorem unitBlk_LAT (p : PlaneId) : unitBlk (pu p .LAT) = some (.LAT, 0) := by revert p; decide
theorem unitPlane_LAT (p : PlaneId) : unitPlane (pu p .LAT) = some p := by revert p; decide

theorem regFields_entCtrl : ∀ e : Fin 64, regFields .LAT (0x400 + 32 * e.val) =
    [Fld.ENT_CTRL_ARM, Fld.ENT_CTRL_ABORT, Fld.ENT_CTRL_ARRIVE, Fld.ENT_CTRL_ROOT, Fld.ENT_CTRL_ACT_SYNC, Fld.ENT_CTRL_ACT_KEY,
      Fld.ENT_CTRL_ACT_IRQ, Fld.ENT_CTRL_LOCAL_N, Fld.ENT_CTRL_GEN] := by decide

/-- A write of ABORT or ARRIVE stores nothing (R95): the block has its effect with the commands that the register shows. -/
theorem acceptWrite_latCommand {acc : Accessor} {p : PlaneId} {e : Fin 64} {v : Word} (hcmd : latKeep (0x400 + 32 * e.val) v = true) (s : State) :
    acceptWrite acc (pu p .LAT) .LAT 0 (0x400 + 32 * e.val) v s =
      latEffect p (0x400 + 32 * e.val) (shownWord s (pu p .LAT) .LAT (0x400 + 32 * e.val) v) (s.inc (pu p .LAT) Fld.BLK_SEQ) := by
  have h8 : (0x400 + 32 * e.val) % 4096 ≠ 0x008 := by omega
  have h40 : ¬ (0x400 + 32 * e.val) % 4096 < 0x40 := by omega
  have hlock : ∀ locked old, lockHit (regFields .LAT (0x400 + 32 * e.val)) locked old v = false := fun _ _ =>
    lockHit_of_no_rwl (by rw [regFields_entCtrl]; decide) _ _ _
  have hskip : storeSkips s (pu p .LAT) .LAT 0 (0x400 + 32 * e.val) v = true := by simp [storeSkips, hcmd]
  simp [acceptWrite, h8, h40, hlock, hskip, unitPlane_LAT, planeEffect, shownWord, keptWord]

/-- ARM is write-only: the word that a write shows the entry has the bit that stands stored at ARM, whatever was written. -/
theorem shownWord_stored_arm {s : State} {p : PlaneId} {e : Fin 64} (h : (s.reg (pu p .LAT) (0x400 + 32 * e.val)).getLsbD 0 = true) (v : Word) :
    (shownWord s (pu p .LAT) .LAT (0x400 + 32 * e.val) v).getLsbD 0 = true := by
  have hrw : ∀ locked, (accMask (regFields .LAT (0x400 + 32 * e.val)) (fun a => a = .rw || (a = .rwl && !locked))).getLsbD 0 = false := by
    rw [regFields_entCtrl]; decide
  have hw1c : (accMask (regFields .LAT (0x400 + 32 * e.val)) (fun a => a = .w1c)).getLsbD 0 = false := by rw [regFields_entCtrl]; decide
  simp only [shownWord, keptWord, mergeWrite, BitVec.getLsbD_or, BitVec.getLsbD_and, BitVec.getLsbD_not, hrw, hw1c, h]
  rfl

/-- An ARMED entry waits for its local arrivals. -/
theorem entArm_state (p : PlaneId) (e : Nat) (s : State) : entState (entArm p e s) p e = 1 := by
  rw [entState, entArm, modLatch, State.modPl_get, State.get_put_same _ _ _ _ rfl]
  rfl

/-- An accepted ABORT at an entry whose ENT_CTRL holds a stored ARM bit arms the entry. -/
theorem abort_with_stored_arm {acc : Accessor} {p : PlaneId} {e : Fin 64} {v : Word} {s : State}
    (hacc : accepted s acc (pu p .LAT) (0x400 + 32 * e.val) v = true) (hcmd : latKeep (0x400 + 32 * e.val) v = true)
    (harm : (s.reg (pu p .LAT) (0x400 + 32 * e.val)).getLsbD 0 = true) :
    entState (regWrite acc (pu p .LAT) (0x400 + 32 * e.val) v s) p e = 1 := by
  have hpage : 0x400 + 32 * e.val < 4096 * pagesOf .LAT := by simp only [pagesOf]; omega
  have harm' : ((arrive acc (pu p .LAT) s).reg (pu p .LAT) (0x400 + 32 * e.val)).getLsbD 0 = true := by
    rw [arrive_reg _ _ _ (fun ⟨h, q, hk⟩ => regKey_ne_of_unit (pu_lt p _) (by simp [pu, hu, Blk.code]; omega) hk)]
    exact harm
  have heff : ∀ w t, w.getLsbD 0 = true → latEffect p (0x400 + 32 * e.val) w t = entArm p e.val t := by
    intro w t hw
    have he : (0x400 + 32 * e.val - 0x400) / 0x20 = e.val := by omega
    have hr : 0x400 ≤ 0x400 + 32 * e.val ∧ (0x400 + 32 * e.val - 0x400) % 0x20 = 0 := by omega
    simp only [latEffect, hr, and_self, if_true, hw, he]
  rw [regWrite_accepted (unitBlk_LAT p) hpage hacc, acceptWrite_latCommand hcmd, heff _ _ (shownWord_stored_arm harm' v), entState,
    latchAfter_get _ _ (regKey_ne_of_mod (by simp [RField.key, RField.at, Fld.ENT_STAT_STATE]; omega)), ← entState, entArm_state]

/-- Every domain has power, entry 0 of plane 0 waits for a local arrival, and its ENT_CTRL holds the ARM bit, which no write can have stored
there. -/
def staleArm : State :=
  ((State.reset.setReg (hu .a .PWR) Fld.PWR_DOM_STAT_ON.key 0xFFFFFFFF).setReg (pu 0 .LAT) (Fld.ENT_STAT_STATE.at 0).key 0x1).setReg (pu 0 .LAT)
    (Fld.ENT_CTRL_ARM.at 0).key 0x101

/-- The entry waits, before its deadline, and takes a write of ABORT. -/
theorem staleArm_waits : accepted staleArm (.hubCore .a) (pu 0 .LAT) (Fld.ENT_CTRL_ABORT.at 0).key (0 ||| (Fld.ENT_CTRL_ABORT.at 0).mask) = true ∧
    entState staleArm 0 0 = 1 ∧ entLate staleArm 0 0 = false := by decide +kernel

/-- Refutes O14: the statement speaks of every state, and in one whose write-only ARM bit of ENT_CTRL already stands stored as 1, a write of
ABORT shows the entry ARM as well, which goes first: the entry waits for its local arrivals again (`abort_with_stored_arm`) and is not ABORTED.
ENT_CTRL resets with ARM 0 and no write stores into it: what the statement misses is the premise that it holds 0. -/
theorem not_latchEntryWrites : ¬ Obligations.LatchEntryWrites := by
  unfold Obligations.LatchEntryWrites
  rintro ⟨-, -, habort⟩
  obtain ⟨hacc, hwaits, hearly⟩ := staleArm_waits
  obtain ⟨t, ht, hended, -⟩ := habort (.hubCore .a) 0 0 0 staleArm hacc (.inl hwaits) hearly
  have hrun : exec (.abort (.hubCore .a) 0 0 0) staleArm =
      .next (regWrite (.hubCore .a) (pu 0 .LAT) (Fld.ENT_CTRL_ABORT.at 0).key (0 ||| (Fld.ENT_CTRL_ABORT.at 0).mask) staleArm) := rfl
  have hend := Host.Outcome.next.inj (hrun.symm.trans ht)
  have harmed : entState t 0 0 = 1 := hend ▸ abort_with_stored_arm (e := 0) hacc (by decide) (by decide +kernel)
  exact absurd (harmed.symm.trans hended) (by decide)

end Sys2Proof.Machine
end

section
/-! SUPPORT. The latch barrier (R88 to R93): what the steps of an entry leave alone, its end, the messages that it accepts before its deadline
and its own times, and the statement about them. -/

namespace Sys2Proof.Machine

/-! ### Registers of an entry -/

/-- A store in another register of the page leaves a field of an entry. -/
theorem entGet_put (p : PlaneId) (s : State) {f g : RField} (v : Nat) (h : f.key % 4096 ≠ g.key % 4096) :
    (s.put (pu p .LAT) f v).get (pu p .LAT) g = s.get (pu p .LAT) g := State.get_put_ne _ _ (regKey_ne_of_mod h)

/-- The state that an entry shows after a store of it. -/
theorem entState_put (p : PlaneId) (e st : Nat) (s : State) : entState (s.put (pu p .LAT) (Fld.ENT_STAT_STATE.at e) st) p e = st % 16 :=
  State.get_put_same _ _ _ _ rfl

/-! ### Before and after its deadline (R88) -/

theorem entLapse_inTime {p : PlaneId} {e : Nat} {s : State} (h : entLate s p e = false) : entLapse p e s = s := by
  simp only [entLapse, h, Bool.false_eq_true, if_false]

/-- The deadline of an entry that a beat has not passed. -/
theorem entLate_early {p : PlaneId} {e : Nat} {s : State} (h : s.ft p ≤ entDeadline s p e) : entLate s p e = false := by
  simp [entLate, Nat.not_lt.mpr h]

/-! ### The end of an entry (R93) -/

/-- Another block's registers stay when the end of an entry reaches the drain (R333). -/
theorem drainOutcome_reg (p : PlaneId) (e st : Nat) (s : State) {u off : Nat} (h : u ≠ pu p .RTE) :
    (drainOutcome p e st s).reg u off = s.reg u off := by
  have hput : ∀ (t : State) (f : RField) (v : Nat), (t.put (pu p .RTE) f v).reg u off = t.reg u off := fun t _ v =>
    State.reg_put_ne t v (regKey_ne_of_unit (pu_lt p _) h.symm)
  simp only [drainOutcome]
  repeat' split
  all_goals simp only [setRte, hput, modFab, State.modPl_reg]

/-- The end of an entry returns a key armed for it (R120), and nothing else of the key logic moves. -/
theorem keyUpdate_keyLatchEnd (p : PlaneId) (e st : Nat) (s : State) : KeyUpdate p s (keyLatchEnd p e st s) := by
  unfold keyLatchEnd
  split
  · split
    · exact keyUpdate_disarm p _ _ s
    · split
      · exact keyUpdate_disarm p _ _ s
      · exact .refl p s
  · exact .refl p s

/-- An entry that ends shows the state it ends in. -/
theorem entEnd_state (p : PlaneId) (e st : Nat) (s : State) : entState (entEnd p e st s) p e = st % 16 := by
  have hdone : ∀ t : State, ∀ f : RField, f = Fld.LAT_DONE_LO ∨ f = Fld.LAT_DONE_HI → ∀ v,
      (t.put (pu p .LAT) f v).get (pu p .LAT) (Fld.ENT_STAT_STATE.at e) = t.get (pu p .LAT) (Fld.ENT_STAT_STATE.at e) := by
    rintro t f (rfl | rfl) v <;>
    exact entGet_put p t v (by simp [RField.key, RField.at, Fld.ENT_STAT_STATE, Fld.LAT_DONE_LO, Fld.LAT_DONE_HI]; omega)
  rw [entState, entEnd, State.get, drainOutcome_reg _ _ _ _ (by simp [pu, Blk.code]),
    (keyUpdate_keyLatchEnd p e st _).reg _ _ (by simp [pu, Blk.code]) (by simp [pu, Blk.code]), ← State.get,
    hdone _ _ (by split <;> simp), modLatch, State.modPl_get]
  exact entState_put p e st s

/-- ABORT from a message or a register (R93): a root passes it on, and the entry is ABORTED. -/
theorem entTimeout_state (p : PlaneId) (e : Nat) (s : State) : entState (entTimeout p e s) p e = 5 := entEnd_state p e 5 _

/-! ### Messages (R91 to R93) -/

@[simp] theorem sendLatches_get (p : PlaneId) (e type : Nat) (dsts : List Nat) (ft : Nat) (s : State) (u : Nat) (f : RField) :
    (sendLatches p e type dsts ft s).get u f = s.get u f := by
  simp only [sendLatches]
  split
  · rfl
  · exact State.modPl_get _ _ _ _ _

theorem latchOk_entry {s : State} {p : PlaneId} {m : LatchMsg} (h : latchOk s p m = true) : m.entry < 64 := by
  simp only [latchOk, Bool.and_eq_true, decide_eq_true_eq] at h
  exact h.1.1.2.2.2

/-- A message that its entry accepts before the entry's deadline. -/
theorem latchTyped_accepted {p : PlaneId} {type : Nat} {f : LatchMsg → State → State} {d : Payload} {s : State} (ht : (latchDecode d).type = type)
    (hearly : entLate s p (latchDecode d).entry = false) : latchTyped p type f d s = f (latchDecode d) s := by
  simp only [latchTyped, ht, if_true, entLapse_inTime hearly, ite_self]

/-- A counter that holds at its largest value (R52). -/
theorem incSat_get (s : State) (u : Nat) (f : RField) (hok : f.ok = true) :
    (s.incSat u f).get u f = min (s.get u f + 1) (2 ^ f.width - 1) := by
  rw [State.incSat, State.get_put_same _ _ _ _ hok]
  exact Nat.mod_eq_of_lt (lt_of_le_of_lt (min_le_right _ _) (Nat.sub_lt (Nat.two_pow_pos _) one_pos))

/-- A participant that the root has not counted, short of N (R91). -/
theorem countArrival_short {p : PlaneId} {e pidx mod : Nat} {s : State}
    (hnew : (latchEnt s p e).counted.any (fun c => c.1 = pidx) = false)
    (hshort : (latchEnt s p e).counted.length + 1 < s.get (pu p .LAT) (Fld.ENT_CFG_N.at e)) :
    (latchEnt (countArrival p e pidx mod s) p e).counted = (latchEnt s p e).counted ++ [(pidx, mod)] ∧
      (countArrival p e pidx mod s).get (pu p .LAT) (Fld.ENT_STAT_ARR_CNT.at e) = (latchEnt s p e).counted.length + 1 ∧
      entState (countArrival p e pidx mod s) p e = entState s p e := by
  have hN : s.get (pu p .LAT) (Fld.ENT_CFG_N.at e) < 2 ^ 13 := (BitVec.isLt _ : _ < 2 ^ Fld.ENT_CFG_N.width)
  have hcfg : ∀ (t : State) (v : Nat), (t.put (pu p .LAT) (Fld.ENT_STAT_ARR_CNT.at e) v).get (pu p .LAT) (Fld.ENT_CFG_N.at e) =
      t.get (pu p .LAT) (Fld.ENT_CFG_N.at e) := fun t v =>
    entGet_put p t v (by simp [RField.key, RField.at, Fld.ENT_STAT_ARR_CNT, Fld.ENT_CFG_N]; omega)
  have hent : latchEnt (modLatch p e (fun x => { x with counted := x.counted ++ [(pidx, mod)] }) s) p e =
      { latchEnt s p e with counted := (latchEnt s p e).counted ++ [(pidx, mod)] } := by simp [latchEnt, modLatch]
  have hrun : countArrival p e pidx mod s = (modLatch p e (fun x => { x with counted := x.counted ++ [(pidx, mod)] }) s).put (pu p .LAT)
      (Fld.ENT_STAT_ARR_CNT.at e) ((latchEnt s p e).counted.length + 1) := by
    simp only [countArrival, hnew, Bool.false_eq_true, if_false, hent, List.length_append, List.length_singleton, hcfg]
    exact if_neg (by rw [modLatch, State.modPl_get]; omega)
  rw [hrun]
  refine ⟨?_, (State.get_put_same _ _ _ _ rfl).trans (Nat.mod_eq_of_lt (by show _ < 2 ^ 13; omega)), ?_⟩
  · rw [latchEnt, State.put_pl, ← latchEnt, hent]
  · rw [entState, State.get_put_apart (f := Fld.ENT_STAT_ARR_CNT.at e) (g := Fld.ENT_STAT_STATE.at e) _ _ rfl rfl rfl rfl, modLatch,
      State.modPl_get, entState]

section
variable {p : PlaneId} {m : LatchMsg} {s : State} (hok : latchOk s p m = true) (hst : entState s p m.entry = 1 ∨ entState s p m.entry = 2)
include hok hst

/-- ARRIVE at the root of a waiting entry (R91). -/
theorem latchArrive_waiting (hroot : s.on (pu p .LAT) (Fld.ENT_CTRL_ROOT.at m.entry) = true)
    (hpidx : m.pidx < s.get (pu p .LAT) (Fld.ENT_CFG_N.at m.entry)) : latchArrive p m s = countArrival p m.entry m.pidx m.srcMod s := by
  rcases hst with h | h <;> simp [latchArrive, hok, hroot, Nat.not_le.mpr hpidx, h]

/-- STRIKE in time at a waiting entry without ACT_KEY (R92). -/
theorem latchStrike_inTime (hroot : s.on (pu p .LAT) (Fld.ENT_CTRL_ROOT.at m.entry) = false)
    (hkey : s.on (pu p .LAT) (Fld.ENT_CTRL_ACT_KEY.at m.entry) = false) (htime : s.ft p + 64 ≤ m.ft) :
    latchStrike p m s = (s.put (pu p .LAT) (Fld.ENT_STAT_STATE.at m.entry) 3).put64 (pu p .LAT) (Fld.ENT_STRIKE_LO.at m.entry)
      (Fld.ENT_STRIKE_HI.at m.entry) (m.ft % 2 ^ 64) := by
  have hlimit : (s.ft p : Int) ≤ strikeLimit s p m.entry m.ft := by
    simp only [strikeLimit, hkey, Bool.false_eq_true, if_false]
    omega
  have hne : ∀ (t : State) (f : RField) (v : Nat), f.key = 0x414 + 32 * m.entry ∨ f.key = 0x418 + 32 * m.entry ∨ f.key = 0x41C + 32 * m.entry →
      (t.put (pu p .LAT) f v).get (pu p .LAT) (Fld.ENT_CTRL_ACT_KEY.at m.entry) = t.get (pu p .LAT) (Fld.ENT_CTRL_ACT_KEY.at m.entry) :=
    fun t f v hf => entGet_put p t v (by simp [RField.key, RField.at, Fld.ENT_CTRL_ACT_KEY] at hf ⊢; omega)
  have hkey' : ∀ v : Nat, ((s.put (pu p .LAT) (Fld.ENT_STAT_STATE.at m.entry) 3).put64 (pu p .LAT) (Fld.ENT_STRIKE_LO.at m.entry)
      (Fld.ENT_STRIKE_HI.at m.entry) v).on (pu p .LAT) (Fld.ENT_CTRL_ACT_KEY.at m.entry) = false := fun v => by
    rw [State.on, State.put64, hne _ _ _ (by simp [RField.key, RField.at, Fld.ENT_STRIKE_HI, Nat.mul_comm]),
      hne _ _ _ (by simp [RField.key, RField.at, Fld.ENT_STRIKE_LO, Nat.mul_comm]),
      hne _ _ _ (by simp [RField.key, RField.at, Fld.ENT_STAT_STATE, Nat.mul_comm])]
    exact hkey
  simp [latchStrike, hok, hroot, hst, hlimit, entStruck, hkey']

/-- ABORT at a waiting entry, which a root passes on first (R93). -/
theorem latchAbort_state : entState (latchAbort p m s) p m.entry = 6 := by
  simp only [latchAbort, hok, Bool.not_true, Bool.false_eq_true, if_false, hst, if_true]
  exact entEnd_state p m.entry 6 _

end

/-- What a STRUCK entry shows: its state and its strike time. -/
theorem struck_shown (p : PlaneId) (e t : Nat) (s : State) :
    entState ((s.put (pu p .LAT) (Fld.ENT_STAT_STATE.at e) 3).put64 (pu p .LAT) (Fld.ENT_STRIKE_LO.at e) (Fld.ENT_STRIKE_HI.at e) t) p e = 3 ∧
      ((s.put (pu p .LAT) (Fld.ENT_STAT_STATE.at e) 3).put64 (pu p .LAT) (Fld.ENT_STRIKE_LO.at e) (Fld.ENT_STRIKE_HI.at e) t).get64 (pu p .LAT)
        (Fld.ENT_STRIKE_LO.at e) (Fld.ENT_STRIKE_HI.at e) = t % 2 ^ 64 := by
  refine ⟨?_, ?_⟩
  · rw [entState, State.put64, entGet_put _ _ _ (by simp [RField.key, RField.at, Fld.ENT_STRIKE_HI, Fld.ENT_STAT_STATE]; omega),
      entGet_put _ _ _ (by simp [RField.key, RField.at, Fld.ENT_STRIKE_LO, Fld.ENT_STAT_STATE]; omega)]
    exact entState_put p e 3 s
  · rw [State.get64, State.put64, entGet_put _ _ _ (by simp [RField.key, RField.at, Fld.ENT_STRIKE_HI, Fld.ENT_STRIKE_LO]; omega),
      State.get_put_same _ _ _ _ rfl, State.get_put_same _ _ _ _ rfl]
    show t % 2 ^ 32 % 2 ^ 32 + 2 ^ 32 * (t / 2 ^ 32 % 2 ^ 32) = t % 2 ^ 64
    omega

/-- MISSED at the root (R93). -/
theorem latchMissed_root {p : PlaneId} {m : LatchMsg} {s : State} (hok : latchOk s p m = true)
    (hroot : s.on (pu p .LAT) (Fld.ENT_CTRL_ROOT.at m.entry) = true) :
    latchMissed p m s = (s.put (pu p .LAT) (Fld.ENT_STAT_MISS.at m.entry) 1).incSat (pu p .LAT) Fld.LAT_STAT_MISSED_CNT := by
  simp [latchMissed, hok, hroot]

theorem missed_shown (p : PlaneId) (e : Nat) (s : State) :
    ((s.put (pu p .LAT) (Fld.ENT_STAT_MISS.at e) 1).incSat (pu p .LAT) Fld.LAT_STAT_MISSED_CNT).get (pu p .LAT) (Fld.ENT_STAT_MISS.at e) = 1 ∧
      ((s.put (pu p .LAT) (Fld.ENT_STAT_MISS.at e) 1).incSat (pu p .LAT) Fld.LAT_STAT_MISSED_CNT).get (pu p .LAT) Fld.LAT_STAT_MISSED_CNT =
        min (s.get (pu p .LAT) Fld.LAT_STAT_MISSED_CNT + 1) 0xFFFF := by
  have hkey : Fld.LAT_STAT_MISSED_CNT.key % 4096 ≠ (Fld.ENT_STAT_MISS.at e).key % 4096 := by
    simp [RField.key, RField.at, Fld.LAT_STAT_MISSED_CNT, Fld.ENT_STAT_MISS]
    omega
  refine ⟨?_, ?_⟩
  · rw [State.incSat, entGet_put _ _ _ hkey, State.get_put_same _ _ _ _ rfl]
    rfl
  · rw [incSat_get _ _ _ rfl, entGet_put _ _ _ hkey.symm]
    rfl

/-- A STRIKE that the common checks refuse (R93). -/
theorem latchStrike_refused {p : PlaneId} {d : Payload} {s : State} (ht : (latchDecode d).type = 2) (hbad : latchOk s p (latchDecode d) = false) :
    latchTyped p 2 (latchStrike p) d s = s.incSat (pu p .LAT) Fld.LAT_STAT_DISCARD_CNT := by
  simp [latchTyped, ht, hbad, latchStrike, discardLatch]

/-! ### The entry's own times (R90, R93) -/

theorem arriveResend_due {p : PlaneId} {e : Fin 64} {s : State} (hst : entState s p e = 2)
    (hroot : s.on (pu p .LAT) (Fld.ENT_CTRL_ROOT.at e.val) = false) (hdue : (latchEnt s p e).sentAt + 65536 ≤ s.ft p) :
    Completes (.latchArriveResend p e) s (fun t => (latchEnt t p e).sentAt = s.ft p ∧ entState t p e = 2 ∧
      ∃ f, (t.pl p).unitFrames = (s.pl p).unitFrames ++ [f] ∧ f.dests = [s.get (pu p .LAT) (Fld.ENT_ROOT_ROOT_MOD.at e.val)]) := by
  refine ⟨_, if_pos ⟨hst, by simp [hroot], hdue⟩, ?_, ?_, ?_⟩
  · simp [sendLatch, sendLatches, latchEnt, modLatch]
  · rw [entState, sendLatch, sendLatches_get, modLatch, State.modPl_get]
    exact hst
  · simp [sendLatch, sendLatches, modLatch]

/-! ### Release (R93, R201, R202) -/

/-- What the values of a plane's sync objects follow from (R201, R202): its cores' operations, its time, the beat's updates and the objects. -/
def syncBasis (s : State) (p : PlaneId) : SMap Core × Ftm × List SyncUpd × SMap Word :=
  ((s.pl p).cores, (s.pl p).ftm, (s.pl p).syncLog, (s.pl p).syncs)

theorem syncVal_congr {s t : State} {p : PlaneId} (h : syncBasis t p = syncBasis s p) (k : Nat) : syncVal t p k = syncVal s p k := by
  obtain ⟨hcores, hftm, hlog, hobj⟩ : _ ∧ _ ∧ _ ∧ _ := by simpa only [syncBasis, Prod.mk.injEq] using h
  unfold syncVal syncLog dueOps syncBase State.ft
  rw [hcores, hftm, hlog, hobj]

/-- The drain samples, or fails, by RTE and the adaptive side alone (R333). -/
theorem syncBasis_drainOutcome (p : PlaneId) (e st : Nat) (s : State) : syncBasis (drainOutcome p e st s) p = syncBasis s p := by
  simp only [drainOutcome]
  repeat' split
  all_goals simp [syncBasis, setRte, modFab]

/-- A RELEASED entry leaves the sync objects to its action (R93). -/
theorem syncVal_entReleased (p : PlaneId) (e : Nat) (s : State) (k : Nat) : syncVal (entEnd p e 4 s) p k = syncVal s p k := by
  have hkey : ∀ t : State, keyLatchEnd p e 4 t = t := fun t => by
    simp only [keyLatchEnd]
    split <;> rfl
  refine syncVal_congr ?_ k
  rw [entEnd, hkey, syncBasis_drainOutcome]
  simp [syncBasis, modLatch]

theorem insertUpd_ne_nil (u : SyncUpd) (l : List SyncUpd) : insertUpd u l ≠ [] := by
  cases l with
  | nil => simp [insertUpd]
  | cons x r =>
    rw [insertUpd]
    split <;> simp

/-- A beat without an update of a sync object: no core's operation is due, and none was made. -/
theorem syncLog_nil {s : State} {p : PlaneId} (h : syncLog s p = []) :
    dueOps s p (fun o => o.kind = opAdd || o.kind = opSet) = [] ∧ (s.pl p).syncLog = [] := by
  have hstep : ∀ (l : List (Nat × CoreOp)) (acc : List SyncUpd), l.foldl (fun a e =>
      insertUpd { rank := 65 + e.1, obj := e.2.a % 4096, set := e.2.kind = opSet, val := BitVec.ofNat 32 e.2.b } a) acc = [] → l = [] ∧ acc = [] := by
    intro l
    induction l with
    | nil => exact fun acc h => ⟨rfl, h⟩
    | cons x r ih => exact fun acc h => absurd (ih _ h).2 (insertUpd_ne_nil _ _)
  exact hstep _ _ h

/-- An update alone in its beat (R201, R202). -/
theorem syncVal_syncUpdate {p : PlaneId} {s : State} (hnone : syncLog s p = []) (rank i : Nat) (v : Word) (k : Nat) :
    syncVal (syncUpdate p rank i false v s) p k = if i % 4096 = k % 4096 then syncVal s p k + v else syncVal s p k := by
  obtain ⟨hdue, hlog⟩ := syncLog_nil hnone
  have hdue' : dueOps (syncUpdate p rank i false v s) p (fun o => o.kind = opAdd || o.kind = opSet) = [] := by
    rw [← hdue]
    unfold dueOps State.ft
    simp only [syncUpdate, State.event, one_ne_zero, if_false, State.modPl_pl_same]
  have hone : syncLog (syncUpdate p rank i false v s) p = [{ rank := rank, obj := i % 4096, set := false, val := v }] := by
    rw [syncLog, hdue', List.foldl_nil]
    simp [syncUpdate, State.event, hlog, insertUpd]
  have hbase : syncBase (syncUpdate p rank i false v s) p k = syncBase s p k := by simp [syncBase, syncUpdate, State.event]
  rw [syncVal, syncVal, hone, hnone, hbase]
  by_cases h : i % 4096 = k % 4096 <;> simp [h, SyncUpd.applyTo]

theorem latchRelease_struck {p : PlaneId} {e : Fin 64} {s : State} (hst : entState s p e = 3)
    (hnow : s.ft p = s.get64 (pu p .LAT) (Fld.ENT_STRIKE_LO.at e.val) (Fld.ENT_STRIKE_HI.at e.val)) (hnone : syncLog s p = []) :
    Completes (.latchRelease p e) s (fun t => entState t p e = 4 ∧
      (∀ k, k < 4096 → syncVal t p k = if s.on (pu p .LAT) (Fld.ENT_CTRL_ACT_SYNC.at e.val) = true ∧
        k = s.get (pu p .LAT) (Fld.ENT_ROOT_SYNC_IDX.at e.val) then syncVal s p k + 1 else syncVal s p k)) := by
  refine ⟨_, if_pos ⟨hst, hnow⟩, entEnd_state p e 4 _, fun k hk => ?_⟩
  have hidx : s.get (pu p .LAT) (Fld.ENT_ROOT_SYNC_IDX.at e.val) < 4096 := (BitVec.isLt _ : _ < 2 ^ Fld.ENT_ROOT_SYNC_IDX.width)
  rw [syncVal_entReleased]
  by_cases hact : s.on (pu p .LAT) (Fld.ENT_CTRL_ACT_SYNC.at e.val) = true
  · simp only [hact, if_true, true_and, syncVal_syncUpdate hnone, Nat.mod_eq_of_lt hidx, Nat.mod_eq_of_lt hk, eq_comm]
  · simp only [if_neg hact, if_neg fun h => hact (And.left h)]

/-! ### The deadline (R88, R93) -/

theorem latchTimeout_late {p : PlaneId} {e : Fin 64} {s : State} (hst : entState s p e = 1 ∨ entState s p e = 2)
    (hdead : entDeadline s p e < s.ft p) (harm : (latchEnt s p e).armedAt < s.ft p) (hset : entDeadline s p e ≠ 2 ^ 64 - 1) :
    Completes (.latchTimeout p e) s (fun t => entState t p e = 5) := by
  have hlate : entLate s p e = true := by
    simp only [entLate, Bool.and_eq_true, Bool.or_eq_true, decide_eq_true_eq]
    exact ⟨⟨⟨hst, hdead⟩, harm⟩, hset⟩
  refine ⟨_, rfl, ?_⟩
  rw [entLapse, if_pos hlate]
  exact entTimeout_state p e s

theorem latchTimeout_early {p : PlaneId} {e : Fin 64} {s : State} (h : s.ft p ≤ entDeadline s p e) :
    Completes (.latchTimeout p e) s (fun t => t = s) := ⟨_, rfl, entLapse_inTime (entLate_early h)⟩

/-! ### The messages as commands -/

section
variable {p : PlaneId} {d : Payload} {s : State}

theorem arriveMsg_counted (ht : (latchDecode d).type = 1) (hok : latchOk s p (latchDecode d) = true)
    (hroot : s.on (pu p .LAT) (Fld.ENT_CTRL_ROOT.at (latchDecode d).entry) = true)
    (hpidx : (latchDecode d).pidx < s.get (pu p .LAT) (Fld.ENT_CFG_N.at (latchDecode d).entry))
    (hst : entState s p (latchDecode d).entry = 1 ∨ entState s p (latchDecode d).entry = 2)
    (hearly : entLate s p (latchDecode d).entry = false)
    (hnew : (latchEnt s p (latchDecode d).entry).counted.any (fun c => c.1 = (latchDecode d).pidx) = false)
    (hshort : (latchEnt s p (latchDecode d).entry).counted.length + 1 < s.get (pu p .LAT) (Fld.ENT_CFG_N.at (latchDecode d).entry)) :
    Completes (.latchArriveMsg p d) s (fun t => (latchEnt t p (latchDecode d).entry).counted =
        (latchEnt s p (latchDecode d).entry).counted ++ [((latchDecode d).pidx, (latchDecode d).srcMod)] ∧
      t.get (pu p .LAT) (Fld.ENT_STAT_ARR_CNT.at (latchDecode d).entry) = (latchEnt s p (latchDecode d).entry).counted.length + 1 ∧
      entState t p (latchDecode d).entry = entState s p (latchDecode d).entry) := by
  refine ⟨_, rfl, ?_⟩
  rw [latchTyped_accepted ht hearly, latchArrive_waiting hok hst hroot hpidx]
  exact countArrival_short hnew hshort

theorem strikeMsg_struck (ht : (latchDecode d).type = 2) (hok : latchOk s p (latchDecode d) = true)
    (hroot : s.on (pu p .LAT) (Fld.ENT_CTRL_ROOT.at (latchDecode d).entry) = false)
    (hkey : s.on (pu p .LAT) (Fld.ENT_CTRL_ACT_KEY.at (latchDecode d).entry) = false)
    (hst : entState s p (latchDecode d).entry = 1 ∨ entState s p (latchDecode d).entry = 2)
    (hearly : entLate s p (latchDecode d).entry = false) (htime : s.ft p + 64 ≤ (latchDecode d).ft) :
    Completes (.latchStrikeMsg p d) s (fun t => entState t p (latchDecode d).entry = 3 ∧
      t.get64 (pu p .LAT) (Fld.ENT_STRIKE_LO.at (latchDecode d).entry) (Fld.ENT_STRIKE_HI.at (latchDecode d).entry) = (latchDecode d).ft ∧
      t.planes = s.planes) := by
  have hft : (latchDecode d).ft < 2 ^ 64 := Nat.mod_lt _ (by norm_num)
  refine ⟨_, rfl, ?_⟩
  rw [latchTyped_accepted ht hearly, latchStrike_inTime hok hst hroot hkey htime, Nat.mod_eq_of_lt hft]
  obtain ⟨hstruck, hstrike⟩ := struck_shown p (latchDecode d).entry (latchDecode d).ft s
  exact ⟨hstruck, hstrike.trans (Nat.mod_eq_of_lt hft), rfl⟩

theorem abortMsg_aborted (ht : (latchDecode d).type = 3) (hok : latchOk s p (latchDecode d) = true)
    (hst : entState s p (latchDecode d).entry = 1 ∨ entState s p (latchDecode d).entry = 2)
    (hearly : entLate s p (latchDecode d).entry = false) :
    Completes (.latchAbortMsg p d) s (fun t => entState t p (latchDecode d).entry = 6) := by
  refine ⟨_, rfl, ?_⟩
  rw [latchTyped_accepted ht hearly]
  exact latchAbort_state hok hst

theorem missedMsg_recorded (ht : (latchDecode d).type = 4) (hok : latchOk s p (latchDecode d) = true)
    (hroot : s.on (pu p .LAT) (Fld.ENT_CTRL_ROOT.at (latchDecode d).entry) = true)
    (hearly : entLate s p (latchDecode d).entry = false) :
    Completes (.latchMissedMsg p d) s (fun t => t.get (pu p .LAT) (Fld.ENT_STAT_MISS.at (latchDecode d).entry) = 1 ∧
      t.get (pu p .LAT) Fld.LAT_STAT_MISSED_CNT = min (s.get (pu p .LAT) Fld.LAT_STAT_MISSED_CNT + 1) 0xFFFF ∧ t.planes = s.planes) := by
  refine ⟨_, rfl, ?_⟩
  rw [latchTyped_accepted ht hearly, latchMissed_root hok hroot]
  obtain ⟨hmiss, hcount⟩ := missed_shown p (latchDecode d).entry s
  exact ⟨hmiss, hcount, rfl⟩

theorem strikeMsg_refused (ht : (latchDecode d).type = 2) (hbad : latchOk s p (latchDecode d) = false) :
    Completes (.latchStrikeMsg p d) s (fun t =>
      t.get (pu p .LAT) Fld.LAT_STAT_DISCARD_CNT = min (s.get (pu p .LAT) Fld.LAT_STAT_DISCARD_CNT + 1) 0xFFFF ∧ t.planes = s.planes ∧
      ∀ u off, regKey u off ≠ regKey (pu p .LAT) Fld.LAT_STAT_DISCARD_CNT.key → t.reg u off = s.reg u off) := by
  refine ⟨_, rfl, ?_⟩
  rw [latchStrike_refused ht hbad]
  exact ⟨incSat_get _ _ _ rfl, rfl, fun _ _ h => State.reg_put_ne _ _ h.symm⟩

end

/-- Settles O15: each message by what its entry does with it before the deadline, and the entry's own times. -/
theorem latchEvents : Obligations.LatchEvents :=
  ⟨fun _ _ _ => arriveMsg_counted, fun _ _ _ => strikeMsg_struck, fun _ _ _ => abortMsg_aborted, fun _ _ _ => missedMsg_recorded,
    fun _ _ _ => strikeMsg_refused, fun _ _ _ => arriveResend_due, fun _ _ _ => latchRelease_struck, fun _ _ _ => latchTimeout_late,
    fun _ _ _ => latchTimeout_early⟩

end Sys2Proof.Machine
end

section
/-! SUPPORT. What a beat of a plane leaves to its end (R71): no step of it but the last touches another plane, or the plane's own FT and count of
beats. One lemma per operation, from the updates of a plane up to the units, the keys, the chunks, the fences and the memory. -/

namespace Sys2Proof.Machine

/-- What only the end of a beat of plane `p` changes: the plane's FT and count of beats; and what no step of it changes: every other plane. -/
def aside (p : PlaneId) (s : State) : (PlaneId → Option Plane) × Nat × Nat :=
  (fun q => if q = p then none else some (s.pl q), s.ft p, s.beats p)

/-- What stays, read off: the other planes, FT and the count of beats. -/
theorem aside_eq_iff {p : PlaneId} {s t : State} :
    aside p t = aside p s ↔ (∀ q, q ≠ p → t.pl q = s.pl q) ∧ t.ft p = s.ft p ∧ t.beats p = s.beats p := by
  simp only [aside, Prod.mk.injEq]
  refine and_congr_left fun _ => ⟨fun h q hq => ?_, fun h => funext fun q => ?_⟩
  · simpa [hq] using congrFun h q
  · by_cases hq : q = p
    · simp [hq]
    · simp [hq, h q hq]

theorem aside_of_planes {p : PlaneId} {s t : State} (h : t.planes = s.planes) : aside p t = aside p s := by
  simp only [aside, State.ft, State.beats, State.pl, h]

@[simp] theorem aside_ite (p : PlaneId) (c : Prop) [Decidable c] (s t : State) :
    aside p (if c then s else t) = if c then aside p s else aside p t := apply_ite _ _ _ _

@[simp] theorem aside_foldl {α : Type} (p : PlaneId) {f : State → α → State} (h : ∀ t x, aside p (f t x) = aside p t) (l : List α) (s : State) :
    aside p (l.foldl f s) = aside p s := foldl_keeps (aside p) h l s

/-! ### The state's own operations -/

section
variable (p : PlaneId) (s : State) (u : Nat) (f : RField)

@[simp] theorem aside_setReg (off : Nat) (w : Word) : aside p (s.setReg u off w) = aside p s := aside_of_planes rfl
@[simp] theorem aside_put (v : Nat) : aside p (s.put u f v) = aside p s := aside_of_planes rfl
@[simp] theorem aside_inc (n : Nat) : aside p (s.inc u f n) = aside p s := aside_of_planes rfl
@[simp] theorem aside_incSat (n : Nat) : aside p (s.incSat u f n) = aside p s := aside_of_planes rfl
@[simp] theorem aside_put64 (g : RField) (v : Nat) : aside p (s.put64 u f g v) = aside p s := aside_of_planes rfl
@[simp] theorem aside_modHub (h : HubId) (g : Hub → Hub) : aside p (s.modHub h g) = aside p s := aside_of_planes rfl
@[simp] theorem aside_emit (o : Output) : aside p (s.emit o) = aside p s := aside_of_planes rfl
@[simp] theorem aside_modRp (g : Reporter → Reporter) : aside p (s.modRp u g) = aside p s := aside_of_planes rfl
@[simp] theorem aside_pulseBit (n : Nat) : aside p (s.pulseBit u n) = aside p s := aside_of_planes rfl

/-- A change of the plane beyond its FT and its beats. -/
@[simp] theorem aside_modPl {g : Plane → Plane} (hft : ∀ x, (g x).ftm.ft = x.ftm.ft) (hbeats : ∀ x, (g x).ftm.beats = x.ftm.beats) :
    aside p (s.modPl p g) = aside p s :=
  aside_eq_iff.mpr ⟨fun _ hq => State.modPl_pl_ne _ _ (Ne.symm hq), by simp [State.ft, hft], by simp [State.beats, hbeats]⟩

@[simp] theorem aside_event (code inst n : Nat) : aside p (s.event p code inst n) = aside p s := by simp [State.event]
@[simp] theorem aside_coreEvent (core code cyc n : Nat) : aside p (s.coreEvent p core code cyc n) = aside p s := by simp [State.coreEvent]
@[simp] theorem aside_sample (point sel v : Nat) : aside p (s.sample p point sel v) = aside p s := by simp [State.sample]

end

/-! ### Logs (R393) and the plane's lists -/

section
variable (p : PlaneId) (s : State)

@[simp] theorem aside_setLog (u : Nat) (x : LogSave) : aside p (setLog u x s) = aside p s := by simp [setLog]
@[simp] theorem aside_logDetection (u : Nat) (b : Blk) (d : Detection) : aside p (logDetection u b d s) = aside p s := by simp [logDetection]
@[simp] theorem aside_report (u src : Nat) (cls : FaultClass) (wh detail : Nat) : aside p (report u src cls wh detail s) = aside p s := by
  unfold report
  split
  · exact aside_logDetection p s _ _ _
  · rfl

@[simp] theorem aside_setCtx (pos c : Nat) (x : Ctx) : aside p (setCtx p pos c x s) = aside p s := by simp [setCtx]
@[simp] theorem aside_modCtx (pos c : Nat) (f : Ctx → Ctx) : aside p (modCtx p pos c f s) = aside p s := by
  unfold modCtx
  split
  · exact aside_setCtx p s _ _ _
  · rfl
@[simp] theorem aside_modChunk (pos c n : Nat) (f : Chunk → Chunk) : aside p (modChunk p pos c n f s) = aside p s := aside_modCtx p s _ _ _
@[simp] theorem aside_modColl (g q : Nat) (f : Coll → Coll) : aside p (modColl p g q f s) = aside p s := by simp [modColl]
@[simp] theorem aside_modCore (n : Nat) (f : Core → Core) : aside p (modCore p n f s) = aside p s := by simp [modCore, setCore]
@[simp] theorem aside_modBank (b : Nat) (f : KeyBank → KeyBank) : aside p (modBank p b f s) = aside p s := by simp [modBank]
@[simp] theorem aside_modFab (f : Fabric → Fabric) : aside p (modFab p f s) = aside p s := by simp [modFab]
@[simp] theorem aside_modLink (n : Nat) (f : PortLink → PortLink) : aside p (modLink p n f s) = aside p s := aside_modFab p s _
@[simp] theorem aside_modLatch (e : Nat) (f : LatchEntry → LatchEntry) : aside p (modLatch p e f s) = aside p s := by simp [modLatch]

@[simp] theorem aside_setBankSt (b v : Nat) : aside p (setBankSt p b v s) = aside p s := aside_put p s _ _ _
@[simp] theorem aside_setRcode (b v : Nat) : aside p (setRcode p b v s) = aside p s := aside_put p s _ _ _
@[simp] theorem aside_setRte (v : Nat) : aside p (setRte p v s) = aside p s := aside_put p s _ _ _
@[simp] theorem aside_unitChange : aside p (unitChange p s) = aside p s := by simp [unitChange]
@[simp] theorem aside_haltCore (n : Nat) (c : HCause) : aside p (haltCore p n c s) = aside p s := by simp [haltCore, setCoreSt]
@[simp] theorem aside_setPlnState (v : Nat) : aside p (setPlnState p v s) = aside p s := by simp [setPlnState]
@[simp] theorem aside_syncPln : aside p (syncPln p s) = aside p s := by simp [syncPln]

/-! ### Chunks and copies (R162 to R181) -/

@[simp] theorem aside_sealSample (pos : Nat) (k : Chunk) (st : ChunkState) : aside p (sealSample p pos k st s) = aside p s := by simp [sealSample]

@[simp] theorem aside_endChunk (pos c n : Nat) (f : Chunk → Chunk) : aside p (endChunk p pos c n f s) = aside p s := by
  unfold endChunk
  split
  · simp
  · rfl

@[simp] theorem aside_sealOne (pos c n : Nat) (d : CopyDst) : aside p (sealOne p pos c n d s).2 = aside p s := by
  unfold sealOne
  split
  · rfl
  · split
    · rfl
    · split
      · rfl
      · cases d <;> simp

@[simp] theorem aside_issueSeal (pos c ep : Nat) (r : Option Cell × State) : aside p (issueSeal p pos c ep r) = aside p r.2 := by
  unfold issueSeal issueFrame
  split <;> simp

@[simp] theorem aside_finalOnly (pos c n : Nat) (d : CopyDst) : aside p (finalOnly p pos c n d s) = aside p s := by
  cases d <;> simp [finalOnly, queueRepair]

@[simp] theorem aside_failChunk (pos c n reason : Nat) (extra : List CopyDst) : aside p (failChunk p pos c n reason extra s) = aside p s := by
  simp [failChunk]

@[simp] theorem aside_abortKeyChunks (b : Nat) : aside p (abortKeyChunks p b s) = aside p s := by
  refine aside_foldl p (fun t w => ?_) _ s
  simp only
  split
  · rfl
  · simp

/-! ### Keys (R122 to R128) -/

@[simp] theorem aside_endKey (b : Nat) (c : KeyEnd) : aside p (endKey p b c s) = aside p s := by simp [endKey, dropOrphans]
@[simp] theorem aside_disarm (b rcode : Nat) : aside p (disarm p b rcode s) = aside p s := by simp [disarm]

@[simp] theorem aside_fenceKey : aside p (fenceKey p s) = aside p s := by
  unfold fenceKey
  split
  · simp
  · split <;> simp

@[simp] theorem aside_endRunningKey (c : KeyEnd) : aside p (endRunningKey p c s) = aside p s := by
  simp only [endRunningKey]
  repeat' split
  all_goals simp [endAtSlot]

@[simp] theorem aside_freePatterns (b : Nat) : aside p (freePatterns p b s) = aside p s := by simp [freePatterns]

@[simp] theorem aside_setKeyStart (b t : Nat) : aside p (setKeyStart p b t s) = aside p s := by simp [setKeyStart]

@[simp] theorem aside_keyLatchStrike (e t : Nat) : aside p (keyLatchStrike p e t s) = aside p s := by
  unfold keyLatchStrike
  split <;> simp

@[simp] theorem aside_keyLatchEnd (e st : Nat) : aside p (keyLatchEnd p e st s) = aside p s := by
  unfold keyLatchEnd
  split <;> simp

@[simp] theorem aside_openWindow (b : Nat) : aside p (openWindow p b s) = aside p s := by simp [openWindow]

@[simp] theorem aside_applyRedirects (b : Nat) : aside p (applyRedirects p b s) = aside p s :=
  aside_modPl p s (fun _ => rfl) fun _ => rfl

@[simp] theorem aside_armBank (b : Nat) (resume : Bool) : aside p (armBank p b resume s) = aside p s := by
  simp only [armBank]
  repeat' split
  all_goals simp

/-- The command of a KSQ_CMD write (R99 to R121). -/
@[simp] theorem aside_ksqEffect (off : Nat) (v : Word) : aside p (ksqEffect p off v s) = aside p s := by
  simp only [ksqEffect]
  split
  · rfl
  · split
    case h_4 => split <;> simp
    all_goals simp

/-! ### Fences (R404) -/

@[simp] theorem aside_closeHasp (u c : Nat) : aside p (closeHasp u c s) = aside p s := by simp [closeHasp]

@[simp] theorem aside_undoEvents (n : Nat) : aside p (undoEvents p n s) = aside p s := by
  unfold undoEvents
  split
  · split
    · refine aside_foldl p ?_ _ s
      exact fun _ _ => aside_of_planes rfl
    · rfl
  · rfl

@[simp] theorem aside_shutPort (n c : Nat) : aside p (shutPort p n c s) = aside p s := by
  unfold shutPort
  simp only
  split <;> simp

@[simp] theorem aside_fencePort (n c : Nat) : aside p (fencePort p n c s) = aside p s := by simp [fencePort]
@[simp] theorem aside_fenceChiplet (n c : Nat) : aside p (fenceChiplet p n c s) = aside p s := by simp [fenceChiplet]

@[simp] theorem aside_fenceSlice (n c : Nat) : aside p (fenceSlice p n c s) = aside p s := by
  simp only [fenceSlice]
  repeat' split
  all_goals simp

@[simp] theorem aside_fenceChannel (n c : Nat) : aside p (fenceChannel p n c s) = aside p s := by simp [fenceChannel, logFault]
@[simp] theorem aside_fenceBank (b : Nat) : aside p (fenceBank p b s) = aside p s := by simp [fenceBank]
@[simp] theorem aside_fenceCore (n c : Nat) : aside p (fenceCore p n c s) = aside p s := by simp [fenceCore, dropCoreCtxs]
@[simp] theorem aside_fenceMgc (c : Nat) : aside p (fenceMgc p c s) = aside p s := by simp [fenceMgc]
@[simp] theorem aside_fencePlane (c : Nat) : aside p (fencePlane p c s) = aside p s := by simp [fencePlane]

@[simp] theorem aside_fencePlaneUnit (u c : Nat) : aside p (fencePlaneUnit p u c s) = aside p s := by
  unfold fencePlaneUnit
  split <;> simp

/-! ### Detection in a unit of the plane (R393, R399) -/

@[simp] theorem aside_markPoison (addr : Nat) : aside p (markPoison p addr s) = aside p s := by simp [markPoison]
@[simp] theorem aside_enterHoldover : aside p (enterHoldover p s) = aside p s := by simp [enterHoldover]

end

/-- No unit of a plane is a hub's fault collector, whose fatal faults the whole module answers (R408). -/
theorem unitBlk_ne_fcl {u n : Nat} {b : Blk} {p : PlaneId} (hu : unitPlane u = some p) (hb : unitBlk u = some (b, n)) : b ≠ .FCL := by
  have hnone : planeBlk (u % 256) ≠ some (.FCL, n) := by
    unfold planeBlk
    repeat' split
    all_goals simp
  have hlow : u < 0x400 := by
    by_contra h
    rw [unitPlane, dif_neg (by omega)] at hu
    cases hu
  rw [unitBlk, if_pos hlow] at hb
  rintro rfl
  exact hnone hb

theorem aside_logOrDead (p : PlaneId) (u : Nat) {b : Blk} (hb : b ≠ .FCL) (d : Detection) (s : State) :
    aside p (logOrDead u b d s) = aside p s := by simp [logOrDead, hb]

section
variable {p : PlaneId} {u : Nat} (hu : unitPlane u = some p) (s : State)
include hu

theorem aside_react (b : Blk) (src : Nat) (cls : FaultClass) (wh detail : Nat) : aside p (react u b src cls wh detail s) = aside p s := by
  simp only [react, hu]
  split <;> simp [setGapHit, isolatePlane, poisonWhere]

theorem aside_fenceUnit (c : Nat) : aside p (fenceUnit u c s) = aside p s := by
  simp only [fenceUnit, hu]
  exact aside_fencePlaneUnit p s u c

theorem aside_detect (src : Nat) (cls : FaultClass) (wh detail : Nat) : aside p (detect u src cls wh detail s) = aside p s := by
  unfold detect detectFault
  split
  · rfl
  · next b n hb =>
    simp [aside_fenceUnit hu, aside_react hu, aside_logOrDead p u (unitBlk_ne_fcl hu hb)]

end

theorem unitPlane_pu (p : PlaneId) (b : Blk) : unitPlane (pu p b) = some p := by
  have hcode : b.code < 256 := by cases b <;> decide
  have hdiv : pu p b / 256 = p.val := by unfold pu; omega
  simp [unitPlane, hdiv]

theorem unitPlane_uCCX (p : PlaneId) {n : Nat} (hn : n < 16) : unitPlane (uCCX p n) = some p := by
  have hdiv : uCCX p n / 256 = p.val := by unfold uCCX; omega
  simp [unitPlane, hdiv]

/-! ### Memory (R180, R254, R264 to R267) -/

/-- The controller of a DRAM address, or the scratchpad's, is a unit of the plane. -/
theorem unitPlane_poisonUnit (s : State) (p : PlaneId) (addr : Nat) : unitPlane (poisonUnit s p addr) = some p := by
  have hunits : ∀ c ∈ formedUnits s p, c < 6 := by
    intro c hc
    simp only [formedUnits, formedChans] at hc
    split at hc
    · simp only [List.mem_filter, List.mem_cons, List.not_mem_nil, or_false] at hc
      omega
    · simp only [List.mem_filter, List.mem_range] at hc
      omega
  have htarget : ∀ c, targetOf s p addr = some c → c ≤ 6 := by
    intro c hc
    obtain ⟨x, hx, rfl⟩ := Option.map_eq_some_iff.mp hc
    simp only [placeOf] at hx
    repeat' split at hx
    all_goals cases hx
    · exact le_rfl
    · next hne =>
      have hlt := Nat.mod_lt ((addr - baseF) / 256) (List.length_pos_iff.mpr hne)
      rw [List.getD_eq_getElem _ _ hlt]
      exact (hunits _ (List.getElem_mem _)).le.trans (by decide)
  unfold poisonUnit
  split
  · exact unitPlane_pu p .NMC
  · next c _ hc =>
    have hdiv : uFMC p c / 256 = p.val := by have := htarget c hc; unfold uFMC; omega
    simp [unitPlane, hdiv]
  · exact unitPlane_pu p .SPM

section
variable (p : PlaneId) (s : State)

@[simp] theorem aside_afterUse (addr : Nat) : aside p (afterUse p addr s) = aside p s := by
  have hend : ∀ (t : State) (g chunk : Nat), aside p (endAfterUse p g chunk t) = aside p t := fun t g chunk => by
    unfold endAfterUse
    split <;> simp
  simp [afterUse, hend]

@[simp] theorem aside_poisonGranule (addr : Nat) : aside p (poisonGranule p addr s) = aside p s := by simp [poisonGranule]

@[simp] theorem aside_corrected (addr : Nat) : aside p (corrected p addr s) = aside p s := by
  simp [corrected, aside_detect (unitPlane_poisonUnit s p addr)]

@[simp] theorem aside_memTouch (addr : Nat) : aside p (memTouch p addr s) = aside p s := by
  cases hsrc : (s.rp (poisonUnit s p addr)).corrupt <;> simp [memTouch, hsrc, aside_detect (unitPlane_poisonUnit s p addr)]

@[simp] theorem aside_memTouchAll (addr n : Nat) : aside p (memTouchAll p addr n s) = aside p s := by simp [memTouchAll]

@[simp] theorem aside_countReads (addr n : Nat) : aside p (countReads p addr n s) = aside p s := by
  refine aside_foldl p (fun t i => ?_) _ s
  split <;> simp

@[simp] theorem aside_storeGranule (addr : Nat) (d : List Byte) : aside p (storeGranule p addr d s).2 = aside p s := by
  simp only [storeGranule]
  split
  · simp
  · cases memInst s p addr <;> simp

@[simp] theorem aside_storeParts (fuel addr : Nat) (d : List Byte) (r : Bool × State) : aside p (storeParts p fuel addr d r).2 = aside p r.2 := by
  induction fuel generalizing addr d r with
  | zero => rfl
  | succ fuel ih =>
    rw [storeParts]
    split
    · rfl
    · simp [ih]

@[simp] theorem aside_memStore (addr : Nat) (d : List Byte) : aside p (memStore p addr d s).2 = aside p s := aside_storeParts p _ _ _ _
@[simp] theorem aside_memWrite (addr : Nat) (d : List Byte) : aside p (memWrite p addr d s) = aside p s := aside_memStore p s _ _

end
end Sys2Proof.Machine
end

section
/-! SUPPORT. What a beat of a plane leaves to its end, continued: the cores, the accesses to plane memory, the switch core, fabric time and the
latch. -/

namespace Sys2Proof.Machine

section
variable (p : PlaneId) (s : State)

/-! ### Cores (R191, R198 to R206) -/

@[simp] theorem aside_syncUpdate (rank i : Nat) (set : Bool) (v : Word) : aside p (syncUpdate p rank i set v s) = aside p s := by
  simp [syncUpdate]

@[simp] theorem aside_runSyncOp (e : Nat × CoreOp) : aside p (runSyncOp p e s) = aside p s := by simp [runSyncOp]
@[simp] theorem aside_flushSync : aside p (flushSync p s) = aside p s := by simp [flushSync, syncCommit]

@[simp] theorem aside_markWait (n : Nat) : aside p (markWait p n s) = aside p s := by
  unfold markWait
  split
  · rfl
  · simp only
    split
    · rfl
    · split <;> simp

@[simp] theorem aside_runTurnOp (n : Nat) (o : CoreOp) : aside p (runTurnOp p n o s) = aside p s := by simp [runTurnOp]

section
variable {n : Nat} (hn : n < 16)
include hn

theorem aside_lsStrike (a k : Nat) : aside p (lsStrike p n a k s).2 = aside p s := by
  simp only [lsStrike]
  repeat' split
  all_goals simp [aside_detect (unitPlane_uCCX p hn)]

theorem aside_movePart (x : Xfer) (i : Nat) : aside p (movePart p n x i s).2 = aside p s := by
  simp only [movePart]
  repeat' split
  all_goals simp [aside_lsStrike p _ hn]

theorem aside_advanceXfers (upto fuel : Nat) : aside p (advanceXfers p n upto fuel s) = aside p s := by
  induction fuel generalizing s with
  | zero => rfl
  | succ fuel ih =>
    unfold advanceXfers
    split
    · rfl
    · simp [setXfer, ih, aside_movePart p s hn]

theorem aside_runXfers (c : Nat) : aside p (runXfers p n c s) = aside p s := by
  simp [runXfers, moveXfers, aside_advanceXfers p _ hn]

end

@[simp] theorem aside_beatCores : aside p (beatCores p s) = aside p s := by
  have hrun : ∀ (l : List Nat) (c : Nat) (t : State), (∀ n ∈ l, n < 16) → aside p (l.foldl (fun t n => runXfers p n c t) t) = aside p t := by
    intro l c
    induction l with
    | nil => exact fun t _ => rfl
    | cons n r ih =>
      intro t hl
      rw [List.foldl_cons, ih _ fun m hm => hl m (List.mem_cons_of_mem _ hm), aside_runXfers p t (hl n List.mem_cons_self)]
  simp [beatCores, markWaits, hrun _ _ _ fun n hn => List.mem_range.mp hn]

/-! ### Late cells of collectives (R163) -/

@[simp] theorem aside_acceptCell (pos c midx no : Nat) (d : Payload) : aside p (acceptCell p pos c midx no d s) = aside p s := by
  unfold acceptCell
  split
  · rfl
  · split
    · rfl
    · simp [spoil]

@[simp] theorem aside_tryLate (e : Nat × Nat × Nat × Nat × Nat × Payload) : aside p (tryLate p s e) = aside p s := by
  unfold tryLate
  simp only
  split
  · rfl
  · simp

@[simp] theorem aside_tryLates : aside p (tryLates p s) = aside p s := by simp [tryLates]

/-! ### Accesses to plane memory (R261) -/

@[simp] theorem aside_servePart (write : Bool) (x : AccessPart) : aside p (servePart p write x s).2 = aside p s := by
  cases write <;> simp [servePart]

@[simp] theorem aside_readPackets (h : HubId) (q fuel psn : Nat) (d : List Byte) : aside p (readPackets h q fuel psn d s) = aside p s := by
  induction fuel generalizing psn d s with
  | zero => rfl
  | succ fuel ih => simp [readPackets, ih]

@[simp] theorem aside_finishAccess (a : HostAccess) : aside p (finishAccess a s) = aside p s := by
  have hrdma : ∀ h, aside p (finishRdma h a s) = aside p s := fun h => by simp [finishRdma, qpError, roceNak]
  unfold finishAccess
  split <;> simp [hrdma]

@[simp] theorem aside_serveParts (a : HostAccess) (now : State → AccessPart → Bool) (l : List AccessPart) (r : Nat × State) :
    aside p (serveParts p a now l r).2.2 = aside p r.2 := by
  induction l generalizing r with
  | nil => rfl
  | cons x l ih =>
    rw [serveParts]
    split
    · exact ih r
    · simp only [ih, aside_servePart]
      cases targetOf r.2 p x.addr <;> simp

@[simp] theorem aside_serveAccess (now : State → AccessPart → Bool) (acc : List HostAccess × Nat × State) (a : HostAccess) :
    aside p (serveAccess p now acc a).2.2 = aside p acc.2.2 := by
  simp only [serveAccess]
  repeat' split
  all_goals simp

@[simp] theorem aside_serveOpen : aside p (serveOpen p s) = aside p s := by
  have hfold : ∀ (now : State → AccessPart → Bool) (l : List HostAccess) (acc : List HostAccess × Nat × State),
      aside p (l.foldl (serveAccess p now) acc).2.2 = aside p acc.2.2 := by
    intro now l
    induction l with
    | nil => exact fun _ => rfl
    | cons a r ih => exact fun acc => (ih _).trans (aside_serveAccess p now acc a)
  simp [serveOpen, serveQueue, hfold]

/-! ### The switch core and the drain (R331 to R366) -/

@[simp] theorem aside_drainSample : aside p (drainSample p s) = aside p s := by simp [drainSample]

@[simp] theorem aside_endResume : aside p (endResume p s) = aside p s := by
  simp [endResume, missResume, enterIsolated, aside_detect (unitPlane_pu p .RTE)]

@[simp] theorem aside_returnOpt (c : Option (Nat × Nat)) : aside p (returnOpt p c s) = aside p s := by
  cases c <;> simp [returnOpt, returnCredit]

@[simp] theorem aside_tidyFrame (id : Nat) : aside p (tidyFrame p id s) = aside p s := by
  have hfree : ∀ t e, aside p (freeBuf p t e) = aside p t := fun t e => by simp [freeBuf]
  unfold tidyFrame
  split
  · rfl
  · simp [hfree]

@[simp] theorem aside_setQueue (k : Nat) (l : List QCopy) : aside p (setQueue p k l s) = aside p s := by simp [setQueue]
@[simp] theorem aside_modQ (k : Nat) (f : QState → QState) : aside p (modQ p k f s) = aside p s := by simp [modQ]

@[simp] theorem aside_linkCopy (id dest k : Nat) : aside p (linkCopy p id dest k s) = aside p s := by
  unfold linkCopy
  split <;> simp

@[simp] theorem aside_profileDrop (h : Held) (k : Nat) : aside p (profileDrop p h k s).2 = aside p s := by
  simp only [profileDrop]
  repeat' split
  all_goals simp

@[simp] theorem aside_offerCopy (c : Cand) : aside p (offerCopy p s c) = aside p s := by
  unfold offerCopy
  split
  · rfl
  · simp only
    repeat' split
    all_goals simp

@[simp] theorem aside_offerCands : aside p (offerCands p s) = aside p s := by simp [offerCands]

@[simp] theorem aside_moveCopy (k : Nat) (acc : SMap (List QCopy) × State) (c : QCopy) : aside p (moveCopy p k acc c).2 = aside p acc.2 := by
  simp only [moveCopy]
  repeat' split
  all_goals simp

@[simp] theorem aside_leaveSet (n : Nat) : aside p (leaveSet p n s) = aside p s := by
  have hmove : ∀ (k : Nat) (l : List QCopy) (acc : SMap (List QCopy) × State), aside p (l.foldl (moveCopy p k) acc).2 = aside p acc.2 := by
    intro k l
    induction l with
    | nil => exact fun _ => rfl
    | cons c r ih => exact fun acc => (ih _).trans (aside_moveCopy p k acc c)
  simp [leaveSet, hmove]

@[simp] theorem aside_drainFenced (n : Nat) : aside p (drainFenced p n s) = aside p s := by
  unfold drainFenced
  split
  · rfl
  · refine aside_foldl p (fun t q => ?_) _ s
    split <;> simp

@[simp] theorem aside_truncateFrame (id : Nat) : aside p (truncateFrame p id s) = aside p s := by simp [truncateFrame]

@[simp] theorem aside_beatSwitch : aside p (beatSwitch p s) = aside p s := by
  have htidy : aside p (tidyPorts p s) = aside p s := by simp [tidyPorts, noteDepths, dropPartial, countTrunc]
  unfold beatSwitch
  simp only
  split <;> simp [htidy]

/-! ### Fabric time (R68 to R87) -/

@[simp] theorem aside_setFtmState (st : Nat) : aside p (setFtmState p st s) = aside p s := aside_of_planes (setFtmState_planes p st s)

@[simp] theorem aside_useSource (src : Option TimeSource) : aside p (useSource p src s) = aside p s := by
  unfold useSource modFtm
  simp only
  split <;> simp

@[simp] theorem aside_sourceFound (src : Option TimeSource) : aside p (sourceFound p src s) = aside p s := by
  unfold sourceFound
  split <;> simp

@[simp] theorem aside_sourceLost : aside p (sourceLost p s) = aside p s := by
  unfold sourceLost
  split <;> simp [aside_detect (unitPlane_pu p .FTM)]

@[simp] theorem aside_followReference : aside p (followReference p s) = aside p s := by simp [followReference]

@[simp] theorem aside_followUpstream : aside p (followUpstream p s) = aside p s := by
  unfold followUpstream
  simp only
  repeat' split
  all_goals simp

@[simp] theorem aside_followLink : aside p (followLink p s) = aside p s := by simp [followLink]

/-! ### The latch (R90 to R95) -/

@[simp] theorem aside_drainOutcome (e st : Nat) : aside p (drainOutcome p e st s) = aside p s := by simp [drainOutcome]
@[simp] theorem aside_sendLatches (e type : Nat) (dsts : List Nat) (ft : Nat) : aside p (sendLatches p e type dsts ft s) = aside p s := by
  simp [sendLatches]
@[simp] theorem aside_sendLatch (e type dst ft : Nat) : aside p (sendLatch p e type dst ft s) = aside p s := aside_sendLatches p s _ _ _ _
@[simp] theorem aside_abortCounted (e : Nat) : aside p (abortCounted p e s) = aside p s := aside_sendLatches p s _ _ _ _
@[simp] theorem aside_entEnd (e st : Nat) : aside p (entEnd p e st s) = aside p s := by simp [entEnd]
@[simp] theorem aside_entLapse (e : Nat) : aside p (entLapse p e s) = aside p s := by simp [entLapse, entTimeout]
@[simp] theorem aside_entStruck (e t : Nat) : aside p (entStruck p e t s) = aside p s := by simp [entStruck]
@[simp] theorem aside_countArrival (e pidx mod : Nat) : aside p (countArrival p e pidx mod s) = aside p s := by simp [countArrival, strikeFix]
@[simp] theorem aside_localArrive (e : Nat) : aside p (localArrive p e s) = aside p s := by simp [localArrive]
@[simp] theorem aside_entArm (e : Nat) : aside p (entArm p e s) = aside p s := by simp [entArm]
@[simp] theorem aside_abortEntry (e : Nat) : aside p (abortEntry p e s) = aside p s := by simp [abortEntry]
@[simp] theorem aside_latEffect (off : Nat) (v : Word) : aside p (latEffect p off v s) = aside p s := by simp [latEffect]

end
end Sys2Proof.Machine
end

section
/-! SUPPORT. The beats of the clocks (R71), a relock's two ends (R32), a hot device (R276), and the statement about them. -/

namespace Sys2Proof.Machine

section
variable (p : PlaneId) (s : State)

/-! ### Interrupts (R51) and counters (R450 to R457) -/

theorem latchIrq_planes (u : Nat) (t : State) : (latchIrq u t).planes = t.planes := by
  simp only [latchIrq, latchWas]
  repeat' split
  all_goals simp

theorem latchUnits_planes (l : List Nat) (t : State) : (latchUnits l t).planes = t.planes :=
  foldl_keeps State.planes (fun t u => latchIrq_planes u t) l t

@[simp] theorem aside_latchUnits (l : List Nat) : aside p (latchUnits l s) = aside p s := aside_of_planes (latchUnits_planes l s)

@[simp] theorem aside_addCount (k i : Nat) : aside p (addCount p k i s).2 = aside p s := by
  simp only [addCount, setCnt]
  split <;> simp

@[simp] theorem aside_tickCounter (k : Nat) : aside p (tickCounter p s k) = aside p s := by simp [tickCounter, raiseMip]
@[simp] theorem aside_tickHist (h : Nat) : aside p (tickHist p s h) = aside p s := by
  simp [tickHist, -List.foldl_reverse]
@[simp] theorem aside_addTd (lo hi : RField) (n : Nat) : aside p (addTd p lo hi n s) = aside p s := by simp [addTd]
@[simp] theorem aside_tickTd : aside p (tickTd p s) = aside p s := by simp [tickTd]
@[simp] theorem aside_takeSnap : aside p (takeSnap p s) = aside p s := by simp [takeSnap]
@[simp] theorem aside_pmuBeat : aside p (pmuBeat p s) = aside p s := by simp [pmuBeat]

/-! ### Writes of a core that fall due (R216 to R218) -/

theorem aside_noteLate {u : Nat} (hu : unitPlane u = some p) (off : Nat) (c : RejCode) (v : Word) (before : State) :
    aside p (noteLate u off c v before s) = aside p s := by
  simp [noteLate, hu]

/-- A write of the registers of LAT and KSQ beyond the header, or of a multiple of 0x20 in it, has the block's own effect alone. -/
theorem aside_acceptWrite {acc : Accessor} {b : Blk} {n off : Nat} (hb : b = .LAT ∨ b = .KSQ) (hoff : off % 32 = 0 ∨ 0x40 ≤ off % 4096) (v : Word) :
    aside p (acceptWrite acc (pu p b) b n off v s) = aside p s := by
  have hsoft : off % 4096 ≠ 0x008 := by omega
  have hheader : ∀ old t, headerEffect (pu p b) b n off v old t = t ∨ 0x40 ≤ off % 4096 := by
    intro old t
    by_cases h : 0x40 ≤ off % 4096
    · exact .inr h
    · refine .inl ?_
      unfold headerEffect
      split
      case h_7 => rfl
      all_goals omega
  have heffect : ∀ v old t, aside p (planeEffect p b n off v old t) = aside p t := by
    rcases hb with rfl | rfl <;> simp [planeEffect]
  simp only [acceptWrite, hsoft, false_and, if_false, unitPlane_pu, aside_ite, heffect]
  by_cases h : off % 4096 < 0x40
  · have hnone := fun old t => (hheader old t).resolve_right (by omega)
    simp [h, hnone]
  · simp [h]

theorem aside_writeUnit {acc : Accessor} {b : Blk} {off : Nat} (hb : b = .LAT ∨ b = .KSQ) (hoff : off % 32 = 0 ∨ 0x40 ≤ off % 4096) (full : Bool)
    (v : Word) : aside p (writeUnit acc (pu p b) off full v s) = aside p s := by
  have hblk : unitBlk (pu p b) = some (b, 0) := by rcases hb with rfl | rfl <;> (revert p; decide)
  have hlatch : ∀ was t, aside p (latchAfter was (pu p b) t) = aside p t := fun was t => aside_of_planes (latchAfter_planes was _ t)
  simp only [writeUnit, hblk]
  split
  · rfl
  · split
    · rw [aside_noteLate p _ (unitPlane_pu p b), hlatch]
      simp [reject]
    · rw [hlatch, aside_acceptWrite p s hb hoff]

theorem aside_writeSeq {b : Blk} (hb : b = .LAT ∨ b = .KSQ) (n : CoreId) {l : List (Nat × Nat)}
    (hl : ∀ e ∈ l, e.1 % 32 = 0 ∨ 0x40 ≤ e.1 % 4096) : aside p (writeSeq p n (pu p b) l s).2 = aside p s := by
  induction l generalizing s with
  | nil => rfl
  | cons e r ih =>
    obtain ⟨hhead, htail⟩ := List.forall_mem_cons.mp hl
    simp only [writeSeq]
    split
    · exact aside_writeUnit p s hb hhead true _
    · rw [ih _ htail, aside_writeUnit p s hb hhead]

/-- Every write of a key command is one of KSQ's own registers. -/
theorem kcmdWrites_own (cmd : Nat) (l : List Byte) : ∀ e ∈ kcmdWrites cmd l, 0x40 ≤ e.1 % 4096 := by
  unfold kcmdWrites
  intro e he
  simp only [List.mem_append, List.mem_singleton] at he
  rcases he with he | rfl
  · split at he <;> simp only [List.mem_cons, List.not_mem_nil, or_false] at he
    all_goals rcases he with rfl | rfl | rfl <;> simp
  · simp

@[simp] theorem aside_runLateOp (n : CoreId) (o : CoreOp) : aside p (runLateOp p n o s) = aside p s := by
  simp only [runLateOp, aside_modCore]
  split
  · exact aside_writeSeq p s (.inl rfl) n fun e he => .inl (by rw [List.mem_singleton.mp he]; show (0x400 + 0x20 * o.a) % 32 = 0; omega)
  · exact aside_writeSeq p s (.inr rfl) n fun e he => .inr (kcmdWrites_own _ _ e he)

@[simp] theorem aside_flushLate : aside p (flushLate p s) = aside p s := by
  refine aside_foldl p (fun t e => ?_) _ s
  split <;> simp [dropOp]

/-! ### The end of a beat -/

@[simp] theorem aside_noteTemps : aside p (noteTemps p s) = aside p s := by simp [noteTemps]
@[simp] theorem aside_noteLanes : aside p (noteLanes p s) = aside p s := by simp [noteLanes]
@[simp] theorem aside_dropStale (slot : Nat) : aside p (dropStale p slot s) = aside p s := by simp [dropStale, sdrop]

@[simp] theorem aside_applySops : aside p (applySops p s) = aside p s := by
  unfold applySops
  split <;> simp [syncSop]

@[simp] theorem aside_readAt (b : Nat) (read : State → LineAhead) (line : Nat) : aside p (readAt p b read line s).2 = aside p s := by
  have hstrike : ∀ u src t, aside p (strike u src t).2 = aside p t := fun u src t => by
    unfold strike
    split <;> simp
  simp [readAt, hstrike]

@[simp] theorem aside_readNext (b : Nat) (a : LineAhead) : aside p (readNext p b a s).2 = aside p s := by
  simp only [readNext]
  repeat' split
  all_goals simp

@[simp] theorem aside_readAhead : aside p (readAhead p s) = aside p s := by
  unfold readAhead
  split <;> simp

/-- A beat of a plane counts in its FT and in its beats, and no other plane changes (R71). -/
theorem planeBeat_counts : (planeBeat p s).ft p = s.ft p + 1 ∧ (planeBeat p s).beats p = s.beats p + 1 ∧
    ∀ q, q ≠ p → (planeBeat p s).pl q = s.pl q := by
  have hend : ∃ t, aside p t = aside p s ∧ aside p (planeBeat p s) = aside p (t.modPl p (fun x =>
      { x with ftm := { x.ftm with ft := s.ft p + 1, beats := s.beats p + 1 } })) := by
    refine ⟨_, ?_, (aside_readAhead p _).trans (aside_applySops p _)⟩
    simp
  obtain ⟨t, ht, hrun⟩ := hend
  obtain ⟨hpl, -, -⟩ := aside_eq_iff.mp ht
  obtain ⟨hrest, hft, hbeats⟩ := aside_eq_iff.mp hrun
  refine ⟨?_, ?_, fun q hq => ?_⟩
  · rw [hft]
    simp [State.ft]
  · rw [hbeats]
    simp [State.beats]
  · rw [hrest q hq, State.modPl_pl_ne _ _ (Ne.symm hq), hpl q hq]

end

/-! ### A hub's beat (R71, R373) -/

/-- The planes, and the beats that a hub has counted. -/
def hubClock (h : HubId) (s : State) : Quad Plane × Nat := (s.planes, (s.hub h).beat)

section
variable (h : HubId) (s : State)

@[simp] theorem hubClock_ite (c : Prop) [Decidable c] (t : State) :
    hubClock h (if c then s else t) = if c then hubClock h s else hubClock h t := apply_ite _ _ _ _

@[simp] theorem hubClock_modHub (k : HubId) {f : Hub → Hub} (hf : ∀ x, (f x).beat = x.beat) : hubClock h (s.modHub k f) = hubClock h s := by
  by_cases hk : k = h
  · subst hk
    simp [hubClock, hf]
  · simp [hubClock, State.modHub_hub_ne _ _ hk]

@[simp] theorem hubClock_setReg (u off : Nat) (w : Word) : hubClock h (s.setReg u off w) = hubClock h s := rfl
@[simp] theorem hubClock_put (u : Nat) (f : RField) (v : Nat) : hubClock h (s.put u f v) = hubClock h s := rfl
@[simp] theorem hubClock_incSat (u : Nat) (f : RField) (n : Nat) : hubClock h (s.incSat u f n) = hubClock h s := rfl
@[simp] theorem hubClock_emit (o : Output) : hubClock h (s.emit o) = hubClock h s := rfl
theorem hubClock_lease (l : Lease) : hubClock h { s with lease := l } = hubClock h s := rfl

@[simp] theorem hubClock_requestAt (k : HubId) (u : Nat) : hubClock h (requestAt k u s) = hubClock h s := by
  unfold requestAt
  split
  · split <;> simp [sendMsix]
  · rfl

theorem hubClock_latchIrq (u : Nat) : hubClock h (latchIrq u s) = hubClock h s := by simp [latchIrq, latchWas, requestRises]

theorem hubClock_latchUnits (l : List Nat) : hubClock h (latchUnits l s) = hubClock h s :=
  foldl_keeps (hubClock h) (fun t u => hubClock_latchIrq h t u) l s

theorem hubClock_lapseLease : hubClock h (lapseLease s) = hubClock h s := by
  unfold lapseLease setHolder
  split
  · split
    · rfl
    · refine (hubClock_lease h _ _).trans ?_
      simp
  · rfl

theorem hubBeat_counts : ((hubBeat h s).hub h).beat = (s.hub h).beat + 1 ∧ (hubBeat h s).planes = s.planes := by
  have hrun : hubClock h (hubBeat h s) = hubClock h (s.modHub h (fun x => { x with beat := x.beat + 1 })) := by
    simp only [hubBeat, hubClock_ite, hubClock_incSat, hubClock_latchUnits, hubClock_lapseLease, hubClock_lease, ite_self]
  obtain ⟨hplanes, hbeat⟩ := Prod.mk.inj hrun
  exact ⟨hbeat.trans (by simp), hplanes⟩

end

/-! ### The power controller's beat (R428) -/

theorem requestPlane_pwr (s : State) (n : Nat) : (requestPlane s n).pwr = s.pwr := foldl_keeps State.pwr (fun _ _ => rfl) (List.range 7) s
theorem requestPlane_planes (s : State) (n : Nat) : (requestPlane s n).planes = s.planes :=
  foldl_keeps State.planes (fun _ _ => rfl) (List.range 7) s

theorem powerBeat_counts {s : State} (h : s.pwr.resetDue = false) : (powerBeat s).pwr.beat = s.pwr.beat + 1 ∧ (powerBeat s).planes = s.planes ∧
    (s.pwr.planesDue = [] → (powerBeat s).regs = s.regs) := by
  simp only [powerBeat, h, Bool.false_eq_true, if_false]
  split
  · exact ⟨rfl, rfl, fun _ => rfl⟩
  · refine ⟨?_, ?_, fun hnone => by rw [hnone]; rfl⟩
    · rw [foldl_keeps State.pwr requestPlane_pwr]
      rfl
    · rw [foldl_keeps State.planes requestPlane_planes]
      rfl

/-! ### A relock (R32) -/

/-- No register of a plane is one of the power controller's, so a domain of the plane stays on. -/
theorem domOn_put_plane (p : PlaneId) (b : Blk) (f : RField) (v : Nat) (s : State) (d : Nat) : (s.put (pu p b) f v).domOn d = s.domOn d := by
  have hne : pu p b ≠ hu .a .PWR := by
    have hlt := pu_lt p b
    have hhub : hu .a .PWR = 0x404 := rfl
    omega
  rw [State.domOn, State.get_put_ne _ _ (regKey_ne_of_unit (pu_lt p b) hne), State.domOn]

/-- What PLN_STATE.STATE shows of a plane whose CORE domain is on. -/
theorem plnState_on {s : State} {p : PlaneId} (h : s.domOn (4 + 7 * p.val) = true) : s.plnState p = s.get (pu p .PLN) Fld.PLN_STATE := if_pos h

/-- A plane that is neither OFF nor FENCED has its CORE domain on. -/
theorem domOn_of_plnState {s : State} {p : PlaneId} (hoff : s.plnState p ≠ 0) (hfenced : s.plnState p ≠ 6) : s.domOn (4 + 7 * p.val) = true := by
  by_contra h
  rw [State.plnState, if_neg h] at hoff hfenced
  split at hoff <;> simp_all

theorem setPlnState_changed {p : PlaneId} {v : Nat} {s : State} (h : s.get (pu p .PLN) Fld.PLN_STATE ≠ v) :
    setPlnState p v s = (s.put (pu p .PLN) Fld.PLN_STATE v).pulseBit (pu p .PLN) 1 := if_neg h

theorem domOn_modPl (p : PlaneId) (f : Plane → Plane) (s : State) (d : Nat) : (s.modPl p f).domOn d = s.domOn d := by
  rw [State.domOn, State.modPl_get, State.domOn]

theorem domOn_setPlnState (p : PlaneId) (v : Nat) (s : State) (d : Nat) : (setPlnState p v s).domOn d = s.domOn d := by
  unfold setPlnState
  split
  · rfl
  · rw [State.domOn, State.pulseBit_get, ← State.domOn, domOn_put_plane]

@[simp] theorem setPlnState_pl (p q : PlaneId) (v : Nat) (s : State) : (setPlnState p v s).pl q = s.pl q := by
  unfold setPlnState
  split <;> rfl

theorem setPlnState_get (p : PlaneId) {v : Nat} (hv : v < 2 ^ Fld.PLN_STATE.width) (s : State) : (setPlnState p v s).get (pu p .PLN) Fld.PLN_STATE = v := by
  unfold setPlnState
  split
  · assumption
  · rw [State.pulseBit_get, State.get_put_same _ _ _ _ rfl]
    exact Nat.mod_eq_of_lt hv

theorem clkchgEnter_begins {p : PlaneId} {set : Nat} {s : State} (hst : s.plnState p = 2) (hset : (s.pl p).relock = some set)
    (hcells : cellsWritten s p = true) : Completes (.clkchgEnter p) s (fun t => t.plnState p = 5 ∧ (t.pl p).relock = none ∧
      t.get (pu p .PLN) Fld.PLN_STATE_ACLK_NOW = set % 2 ^ Fld.PLN_STATE_ACLK_NOW.width ∧ t.ft p = s.ft p) := by
  have hon := domOn_of_plnState (p := p) (s := s) (by omega) (by omega)
  refine ⟨rebaseCores p (s.ft p) (cycleFrom (cyclesPerSlot s p) (s.ft p)) ((setPlnState p 5 (s.modPl p (fun x => { x with relock := none }))).put
    (pu p .PLN) Fld.PLN_STATE_ACLK_NOW set), ?_, ?_, ?_, ?_, ?_⟩
  · simp [exec, execClkchgEnter, hset, hst, hcells]
  · rw [plnState_on (by rw [rebaseCores, domOn_modPl, domOn_put_plane, domOn_setPlnState, domOn_modPl, hon]), rebaseCores, State.modPl_get,
      State.get_put_apart (f := Fld.PLN_STATE_ACLK_NOW) (g := Fld.PLN_STATE) _ _ rfl rfl rfl rfl, setPlnState_get p (by decide)]
  · simp [rebaseCores]
  · rw [rebaseCores, State.modPl_get]
    exact State.get_put_same _ _ _ _ rfl
  · simp [rebaseCores, State.ft]

theorem relockDone_returns {p : PlaneId} {s : State} (hst : s.plnState p = 5) : Completes (.relockDone p) s (fun t => t.plnState p = 2 ∧
    t.get (pu p .PLN) Fld.PLN_STATE_ACLK_NOW = s.get (pu p .PLN) Fld.PLN_STATE_ACLK_NOW) := by
  have hon := domOn_of_plnState (p := p) (s := s) (by omega) (by omega)
  have hstate : s.get (pu p .PLN) Fld.PLN_STATE ≠ 2 := by
    rw [← plnState_on hon, hst]
    decide
  refine ⟨_, if_pos hst, ?_, ?_⟩
  · rw [plnState_on (by rw [returnWithheld, modFab, domOn_modPl, domOn_setPlnState, hon]), returnWithheld, modFab, State.modPl_get,
      setPlnState_get p (by decide)]
  · rw [returnWithheld, modFab, State.modPl_get, setPlnState_changed hstate, State.pulseBit_get,
      State.get_put_apart (f := Fld.PLN_STATE) (g := Fld.PLN_STATE_ACLK_NOW) _ _ rfl rfl rfl rfl]

/-! ### A hot device (R276) -/

theorem deviceHot_shown {p : PlaneId} {t' : Fin 7} {hot : Bool} {s : State} (h : s.powered (tgtUnit p t'.val) = true) :
    Completes (.deviceHot p t' hot) s (fun t => t.get (tgtUnit p t'.val) Fld.FMC_STAT_HOT = b2n hot ∧ t.planes = s.planes ∧
      ∀ u off, regKey u off ≠ regKey (tgtUnit p t'.val) Fld.FMC_STAT_HOT.key → t.reg u off = s.reg u off) := by
  refine ⟨_, if_pos h, (State.get_put_same _ _ _ _ rfl).trans ?_, rfl, fun _ _ hne => State.reg_put_ne _ _ hne.symm⟩
  cases hot <;> rfl

/-- Settles O22: a plane's beat by what its steps leave to its end, and the other clocks' beats, the relock and DEVICE_HOT step by step. -/
theorem clockBeats : Obligations.ClockBeats :=
  ⟨fun p s h => ⟨planeBeat p s, by simp [exec, execBeat, h], planeBeat_counts p s⟩,
    fun k s h => ⟨hubBeat k s, by simp [exec, execBeat, h], hubBeat_counts k s⟩,
    fun s h => ⟨powerBeat s, rfl, powerBeat_counts h⟩,
    fun p s h => ⟨s, by simp [exec, execBeat, h], rfl⟩,
    fun _ _ _ => clkchgEnter_begins, fun _ _ => relockDone_returns, fun _ _ _ _ => deviceHot_shown⟩

end Sys2Proof.Machine
end

section
/-! SUPPORT. The register of KSQ commands (R114), and the statement about them. -/

namespace Sys2Proof.Machine

theorem unitBlk_KSQ (p : PlaneId) : unitBlk (pu p .KSQ) = some (.KSQ, 0) := by revert p; decide

theorem regFields_ksqCmd : regFields .KSQ Fld.KSQ_CMD.key = [Fld.KSQ_CMD] := by decide

/-- A register of commands alone keeps its word whatever is written (R12). -/
theorem keptWord_of_commands {b : Blk} {off : Nat} (hrw : ∀ locked, accMask (regFields b off) (fun a => a = .rw || (a = .rwl && !locked)) = 0)
    (hw1c : accMask (regFields b off) (fun a => a = .w1c) = 0) (s : State) (u : Nat) (v : Word) : keptWord s u b off v = s.reg u off := by
  rw [keptWord, mergeWrite, hrw, hw1c]
  simp only [BitVec.ofNat_eq_ofNat, BitVec.not_zero, BitVec.zero_and, BitVec.and_zero, BitVec.or_zero, BitVec.and_allOnes]

/-- The command that a write shows the sequencer is the one written, together with the bits that stand stored at it. -/
theorem shownWord_ksqCmd (s : State) (p : PlaneId) (v : Word) :
    shownWord s (pu p .KSQ) .KSQ Fld.KSQ_CMD.key v = s.reg (pu p .KSQ) Fld.KSQ_CMD.key ||| (v &&& Fld.KSQ_CMD.mask) := by
  have hwo : accMask [Fld.KSQ_CMD] (fun a => a = .wo || a = .w1c) = Fld.KSQ_CMD.mask := by decide
  rw [shownWord, keptWord_of_commands (by rw [regFields_ksqCmd]; decide) (by rw [regFields_ksqCmd]; decide), regFields_ksqCmd, hwo]

/-- What an accepted write of KSQ_CMD answers, with the interrupts of KSQ latched after it. -/
theorem regWrite_ksqCmd {acc : Accessor} {p : PlaneId} {v : Word} {s : State} (hacc : accepted s acc (pu p .KSQ) Fld.KSQ_CMD.key v = true) :
    ∃ was, regWrite acc (pu p .KSQ) Fld.KSQ_CMD.key v s = latchAfter was (pu p .KSQ) (ksqEffect p Fld.KSQ_CMD.key
      (shownWord (arrive acc (pu p .KSQ) s) (pu p .KSQ) .KSQ Fld.KSQ_CMD.key v)
      (afterStore (arrive acc (pu p .KSQ) s) (pu p .KSQ) .KSQ Fld.KSQ_CMD.key v)) := by
  have hplain : PlainWrite (arrive acc (pu p .KSQ) s) (pu p .KSQ) .KSQ 0 Fld.KSQ_CMD.key v :=
    ⟨by decide, lockHit_of_no_rwl (by decide) _ _ _, by simp [storeSkips, viewReg, unitPlane_pu, planeView, RField.key, Fld.KSQ_CMD]⟩
  simpa only [planeEffect] using regWrite_plane (unitBlk_KSQ p) (unitPlane_pu p .KSQ) (by decide) hacc hplain

/-- Command 7 is none: a write that shows it to the sequencer changes nothing. -/
theorem ksqEffect_seven {v : Word} (h : v.toNat % 8 = 7) (p : PlaneId) (s : State) : ksqEffect p Fld.KSQ_CMD.key v s = s := by
  simp [ksqEffect, h, RField.key, Fld.KSQ_CMD]

/-- The hubs and plane 0 have power, bank 1 of plane 0 is LOADED, and its KSQ_CMD holds the bit of LOAD, which no write can have stored
there. -/
def staleCommand : State :=
  ((State.reset.setReg (hu .a .PWR) Fld.PWR_DOM_STAT_ON.key 0xFFFFFFFF).setReg (pu 0 .KSQ) (Fld.KSQ_B_STAT_STATE.at 1).key 2).setReg (pu 0 .KSQ)
    Fld.KSQ_CMD.key 1

/-- Hub A's management cores may discard the standby bank, which is bank 1. -/
theorem staleCommand_accepted : accepted staleCommand (.hubCore .a) (pu 0 .KSQ) Fld.KSQ_CMD.key 6 = true ∧ standbyBank staleCommand 0 = 1 ∧
    bankSt staleCommand 0 1 = 2 := by decide +kernel

/-- DISCARD reaches the sequencer as command 7: no bank changes its state. -/
theorem staleCommand_keeps (b : Fin 2) :
    bankSt (regWrite (.hubCore .a) (pu 0 .KSQ) Fld.KSQ_CMD.key 6 staleCommand) 0 b.val = bankSt staleCommand 0 b.val := by
  obtain ⟨was, hw⟩ := regWrite_ksqCmd staleCommand_accepted.1
  have hcmd : (shownWord (arrive (.hubCore .a) (pu 0 .KSQ) staleCommand) (pu 0 .KSQ) .KSQ Fld.KSQ_CMD.key 6).toNat % 8 = 7 := by
    rw [shownWord_ksqCmd]
    decide +kernel
  rw [hw, ksqEffect_seven hcmd, bankSt, latchAfter_get _ _ (regKey_ne_of_mod (by revert b; decide)),
    afterStore_get_ne (by revert b; decide) (by revert b; decide), arrive_get _ _ _ (by revert b; decide), ← bankSt]

/-- Refutes O19: the statement speaks of every state, and in one whose write-only KSQ_CMD already holds bits, the command that a write gives
is the one those bits and the written one name together (`shownWord_ksqCmd`). With LOAD's bit stored, an accepted DISCARD reaches the
sequencer as command 7, which is none, and the standby bank stays LOADED. KSQ_CMD resets to 0 and no write stores into it (`keptWord_of_commands`):
what the statement misses is the premise that it holds 0. -/
theorem not_keyCommands : ¬ Obligations.KeyCommands := by
  unfold Obligations.KeyCommands
  rintro ⟨-, -, -, -, -, -, hdiscard⟩
  obtain ⟨hacc, hstandby, hloaded⟩ := staleCommand_accepted
  obtain ⟨t, ht, hempty, -⟩ := hdiscard (.hubCore .a) 0 0 staleCommand hacc
  have hrun : exec (.discard (.hubCore .a) 0 0) staleCommand = .next (regWrite (.hubCore .a) (pu 0 .KSQ) Fld.KSQ_CMD.key 6 staleCommand) := rfl
  have hend : regWrite (.hubCore .a) (pu 0 .KSQ) Fld.KSQ_CMD.key 6 staleCommand = t := Host.Outcome.next.inj (hrun.symm.trans ht)
  have hstays : bankSt t 0 1 = 2 := hend ▸ (staleCommand_keeps 1).trans hloaded
  rw [hstandby, hstays] at hempty
  exact absurd hempty (by decide)

end Sys2Proof.Machine
end

section
/-! SUPPORT. The registers and the data of a key's banks (R96, R114): what each update of them leaves, and how a class U fault is logged at a
block whose log is free (R47). -/

namespace Sys2Proof.Machine

/-! ### Fields -/

/-- Two fields share no bit: they stand at different places of a page, or apart in one register. -/
def beside (f g : RField) : Bool := decide (f.key % 4096 ≠ g.key % 4096) || (decide (f.key = g.key) && f.ok && g.ok && apart f g)

/-- A store of a field leaves every field beside it, whatever their units. -/
theorem State.get_put_beside {f g : RField} (h : beside f g = true) (s : State) (u u' v : Nat) : (s.put u f v).get u' g = s.get u' g := by
  simp only [beside, Bool.or_eq_true, Bool.and_eq_true, decide_eq_true_eq] at h
  obtain hplace | ⟨⟨⟨hkey, hf⟩, hg⟩, hapart⟩ := h
  · exact State.get_put_ne _ _ (regKey_ne_of_mod hplace)
  · by_cases hreg : regKey u f.key = regKey u' g.key
    · have hsame : ∀ t : State, t.get u' g = t.get u g := fun t => by
        rw [State.get, State.get, State.reg_of_key_eq t (hreg.symm.trans (by rw [hkey]))]
      rw [hsame, hsame, State.get_put_apart s v hkey hf hg hapart]
    · exact State.get_put_ne _ _ hreg

/-! ### Banks -/

/-- A bank found in a state is one of the two, and in that state. -/
theorem bankIn_eq_some {s : State} {p : PlaneId} {v b : Nat} (h : bankIn s p v = some b) : (b = 0 ∨ b = 1) ∧ bankSt s p b = v := by
  unfold bankIn at h
  split_ifs at h with h0 h1
  · obtain rfl := Option.some.inj h
    exact ⟨.inl rfl, h0⟩
  · obtain rfl := Option.some.inj h
    exact ⟨.inr rfl, h1⟩

theorem bankIn_congr {s t : State} {p : PlaneId} (h : ∀ b < 2, bankSt t p b = bankSt s p b) (v : Nat) : bankIn t p v = bankIn s p v := by
  simp only [bankIn, h 0 (by decide), h 1 (by decide)]

theorem bankIn_isSome {s : State} {p : PlaneId} {v b : Nat} (hb : b = 0 ∨ b = 1) (h : bankSt s p b = v) : (bankIn s p v).isSome = true := by
  unfold bankIn
  obtain rfl | rfl := hb <;> simp only [h, if_true, Option.isSome_some]
  split <;> rfl

theorem bankOfKey_modBank {b : Nat} (hb : b = 0 ∨ b = 1) (p : PlaneId) (f : KeyBank → KeyBank) (s : State) :
    bankOfKey (modBank p b f s) p b = f (bankOfKey s p b) := by
  obtain rfl | rfl := hb <;> simp [bankOfKey, modBank]

theorem bankOfKey_congr {s t : State} {p : PlaneId} (h : (t.pl p).keys = (s.pl p).keys) (b : Nat) : bankOfKey t p b = bankOfKey s p b := by
  rw [bankOfKey, h, bankOfKey]

@[simp] theorem bankOfKey_put (s : State) (u : Nat) (f : RField) (v : Nat) (p : PlaneId) (b : Nat) :
    bankOfKey (s.put u f v) p b = bankOfKey s p b := rfl
@[simp] theorem bankOfKey_put64 (s : State) (u : Nat) (lo hi : RField) (v : Nat) (p : PlaneId) (b : Nat) :
    bankOfKey (s.put64 u lo hi v) p b = bankOfKey s p b := rfl
@[simp] theorem bankOfKey_setBankSt (q : PlaneId) (c v : Nat) (s : State) (p : PlaneId) (b : Nat) :
    bankOfKey (setBankSt q c v s) p b = bankOfKey s p b := rfl
@[simp] theorem bankOfKey_modPl (s : State) (p : PlaneId) {f : Plane → Plane} (hf : ∀ x, (f x).keys = x.keys) (b : Nat) :
    bankOfKey (s.modPl p f) p b = bankOfKey s p b := bankOfKey_congr (by rw [State.modPl_pl_same, hf]) b

/-! ### The plane state that the banks give (R121, R122) -/

@[simp] theorem syncPln_pl (p q : PlaneId) (s : State) : (syncPln p s).pl q = s.pl q := by
  simp only [syncPln]
  split <;> simp

theorem syncPln_get {f : RField} (h : beside Fld.PLN_STATE f = true) (p : PlaneId) (s : State) (u : Nat) : (syncPln p s).get u f = s.get u f := by
  simp only [syncPln, setPlnState]
  split_ifs <;> simp only [State.pulseBit_get, State.get_put_beside h]

/-- While a key runs, a plane that is ADAPTIVE, ARMED or SCHEDULED is SCHEDULED. -/
theorem syncPln_running {p : PlaneId} {s : State} (hon : s.domOn (4 + 7 * p.val) = true) (hrun : (bankIn s p 4).isSome = true)
    (hst : s.get (pu p .PLN) Fld.PLN_STATE = 2 ∨ s.get (pu p .PLN) Fld.PLN_STATE = 3 ∨ s.get (pu p .PLN) Fld.PLN_STATE = 4) :
    (syncPln p s).plnState p = 4 := by
  have hset : syncPln p s = setPlnState p 4 s := by simp only [syncPln, hst, hrun, if_true]
  rw [hset, plnState_on (by rw [domOn_setPlnState, hon]), setPlnState_get p (by decide)]

/-! ### A class U fault (R47, R393) -/

/-- A class U fault is logged and has its source's reaction; it escalates nothing. -/
theorem detectFault_of_u {u n : Nat} {b : Blk} {d : Detection} (hb : unitBlk u = some (b, n)) (hd : d.cls = .u) (s : State) :
    detectFault u d s = react u b d.src .u d.loc d.detail (logOrDead u b d s) := by
  simp only [detectFault, hb, hd, reduceCtorEq, false_and, if_false]

theorem logOrDead_planes {u : Nat} {b : Blk} (hb : b ≠ .FCL) (d : Detection) (s : State) : (logOrDead u b d s).planes = s.planes := by
  simp only [logOrDead, hb, if_false]
  split <;> simp

theorem logOrDead_get {u : Nat} {b : Blk} (hb : b ≠ .FCL) (d : Detection) (s : State) (u' : Nat) {f : RField} (hf : 0x40 ≤ f.key % 4096) :
    (logOrDead u b d s).get u' f = s.get u' f := by
  rw [State.get, logOrDead_reg hb _ _ hf, State.get]

/-- A logged fault changes no bank's state. -/
theorem logOrDead_bankIn {u : Nat} {b : Blk} (hb : b ≠ .FCL) (d : Detection) (s : State) (p : PlaneId) (v : Nat) :
    bankIn (logOrDead u b d s) p v = bankIn s p v := by
  refine bankIn_congr (fun c hc => logOrDead_get hb d s _ ?_) v
  simp only [RField.key, RField.at, Fld.KSQ_B_STAT_STATE]
  omega

/-- A free log holds the first fault that a beat brings it. -/
theorem logOrDead_captured {u : Nat} {b : Blk} (hb : b ≠ .FCL) {d : Detection} (hsrc : d.src < 256) {s : State}
    (h0 : s.get u Fld.BLK_ERR_CLASS = 0) (hseen : detectedNow s u = []) :
    (logOrDead u b d s).get u Fld.BLK_ERR_CLASS = classCode d.cls ∧ (logOrDead u b d s).get u Fld.BLK_ERR_CLASS_SOURCE = d.src := by
  have hheld : (logNow s u).held = 0 := h0
  have hbase : logBase s u = logNow s u := by simp [logBase, hseen, LogSave.due, hheld]
  have hlog : ∀ f : RField, f.key = Fld.BLK_ERR_CLASS.key →
      (logOrDead u b d s).get u f = fieldGet ((logNow s u).add b (unitFt s u) (unitBeat s u) (cackBeats s) d).cls f := fun f hf => by
    rw [State.get, logOrDead_log hb, ← State.get, State.get_of_logNow _ _ hf, logNow_logDetection hseen, hbase]
  obtain ⟨hclass, hsource, -⟩ := LogSave.add_free hheld b (unitFt s u) (unitBeat s u) (cackBeats s) hsrc
  exact ⟨(hlog _ rfl).trans hclass, (hlog Fld.BLK_ERR_CLASS_SOURCE rfl).trans hsource⟩

end Sys2Proof.Machine
end

section
/-! SUPPORT. The events of a key's life (R112 to R126), one lemma per event, and the statement about them. -/

namespace Sys2Proof.Machine

/-! ### KEY_LOAD_DONE (R114, R116) -/

/-- A failed check, if there is one, has a code that fits RCODE. -/
def CodeFits (r : Option (Nat × Nat)) : Prop := ∀ e ∈ r, e.1 < 32

theorem codeFits_none : CodeFits none := fun _ h => absurd h (Option.not_mem_none _)

theorem codeFits_some {code : Nat} (h : code < 32) (pos : Nat) : CodeFits (some (code, pos)) := fun _ he => by
  obtain rfl := Option.mem_some.mp he
  exact h

theorem codeFits_ite {c : Prop} [Decidable c] {code : Nat} (h : code < 32) (pos : Nat) {r : Option (Nat × Nat)} (hr : CodeFits r) :
    CodeFits (if c then some (code, pos) else r) := by
  split
  · exact codeFits_some h pos
  · exact hr

theorem codeFits_match {o : Option Nat} {code : Nat} (h : code < 32) {r : Option (Nat × Nat)} (hr : CodeFits r) :
    CodeFits (match o with
      | some i => some (code, i)
      | none => r) := by
  cases o with
  | some i => exact codeFits_some h i
  | none => exact hr

/-- The codes of Table 4.9 fit RCODE: each check that fails gives its own. -/
theorem codeFits_loadFail (s : State) (p : PlaneId) (b addr len : Nat) : CodeFits (loadFail s p b addr len) := by
  unfold loadFail
  iterate 11 refine codeFits_ite (by decide) _ ?_
  refine codeFits_match (by decide) (codeFits_ite (by decide) _ (codeFits_match (by decide) (codeFits_match (by decide) ?_)))
  split
  · exact codeFits_none
  · exact codeFits_some (by decide) _

theorem keyLoadDone_rejected {p : PlaneId} {b code pos : Nat} {s : State} (hb : bankIn s p 1 = some b)
    (hfail : loadFail (imageRead s p b) p b (bankOfKey s p b).srcAddr (bankOfKey s p b).srcLen = some (code, pos)) :
    Completes (.keyLoadDone p) s (fun t => bankSt t p b = 6 ∧ t.get (pu p .KSQ) (Fld.KSQ_B_STAT_RCODE.at b) = code ∧
      t.get (pu p .KSQ) (Fld.KSQ_B_POS_LINE.at b) = pos % 2 ^ 18) := by
  have hrun : exec (.keyLoadDone p) s = .next ((setRcode p b code (setBankSt p b 6 (freePatterns p b (imageRead s p b)))).put (pu p .KSQ)
      (Fld.KSQ_B_POS_LINE.at b) pos) := by
    rw [imageRead] at hfail
    simp only [exec, execKeyLoadDone, hb, hfail]
    rfl
  have hcode : code % 2 ^ 5 = code := Nat.mod_eq_of_lt (codeFits_loadFail _ _ _ _ _ _ hfail)
  refine ⟨_, hrun, ?_, ?_, State.get_put_same _ _ _ _ rfl⟩
  all_goals
    obtain rfl | rfl := (bankIn_eq_some hb).1 <;>
    simp (disch := decide) only [bankSt, setRcode, setBankSt, State.get_put_beside, State.get_put_same] <;>
    first | rfl | exact hcode

/-- What a load that passes leaves (R114): the bank LOADED, with the image's lines and patterns; no other plane is touched. -/
theorem fillBank_loads {b : Nat} (hb : b = 0 ∨ b = 1) (p : PlaneId) (k : KeyImage) (s : State) :
    bankSt (fillBank p b k s) p b = 2 ∧ (bankOfKey (fillBank p b k s) p b).lineCnt = k.lineCnt ∧
      (bankOfKey (fillBank p b k s) p b).pats = k.pats.map (·.1) ∧ ∀ q, q ≠ p → (fillBank p b k s).pl q = s.pl q := by
  refine ⟨?_, ?_, ?_, (aside_eq_iff.mp (by simp [fillBank, storeLines])).1⟩
  · rw [fillBank, bankSt, setBankSt, State.get_put_same _ _ _ _ rfl]
    rfl
  all_goals rw [fillBank, bankOfKey_setBankSt, bankOfKey_modBank hb]

theorem keyLoadDone_loaded {p : PlaneId} {b : Nat} {s : State} (hb : bankIn s p 1 = some b)
    (hpass : loadFail (imageRead s p b) p b (bankOfKey s p b).srcAddr (bankOfKey s p b).srcLen = none) :
    Completes (.keyLoadDone p) s (fun t =>
      let k := parseKey (memRead (imageRead s p b) p (bankOfKey s p b).srcAddr (bankOfKey s p b).srcLen)
      bankSt t p b = 2 ∧ (bankOfKey t p b).lineCnt = k.lineCnt ∧ (bankOfKey t p b).pats = k.pats.map (·.1) ∧
      ∀ q, q ≠ p → t.pl q = (imageRead s p b).pl q) := by
  refine ⟨_, ?_, fillBank_loads (bankIn_eq_some hb).1 p _ _⟩
  rw [imageRead] at hpass
  simp only [exec, execKeyLoadDone, hb, hpass]
  rfl

end Sys2Proof.Machine
end

section
/-! SUPPORT. KEY_START and KEY_SWAP_LATE (R121, R125 to R127, R206). -/

namespace Sys2Proof.Machine

/-! ### Transfers that stop at a key's start (R206) -/

/-- What a write to plane memory leaves of the keys: the banks, and every register but a controller's count of poisoned granules. -/
def keyState (p : PlaneId) (s : State) : List KeyBank × (Nat → Nat → Option Word) :=
  ((s.pl p).keys, fun u off => if off % 4096 = 0x054 then none else some (s.reg u off))

theorem keyState_get {p : PlaneId} {s t : State} (h : keyState p t = keyState p s) (u : Nat) {f : RField} (hf : f.key % 4096 ≠ 0x054) :
    t.get u f = s.get u f := by
  have hreg := congrFun (congrFun (congrArg Prod.snd h) u) f.key
  simp only [keyState, hf, if_false, Option.some.injEq] at hreg
  rw [State.get, hreg, State.get]

theorem keyState_bank {p : PlaneId} {s t : State} (h : keyState p t = keyState p s) (b : Nat) : bankOfKey t p b = bankOfKey s p b :=
  bankOfKey_congr (congrArg Prod.fst h) b

@[simp] theorem keyState_modPl (p : PlaneId) (s : State) {f : Plane → Plane} (hf : ∀ x, (f x).keys = x.keys) :
    keyState p (s.modPl p f) = keyState p s := by simp [keyState, hf]

@[simp] theorem keyState_event (p : PlaneId) (s : State) (code inst n : Nat) : keyState p (s.event p code inst n) = keyState p s := by
  unfold State.event
  split
  · rfl
  · simp

theorem keyState_poisonCount (p : PlaneId) (s : State) (u : Nat) : keyState p (s.incSat u Fld.FMC_POISON_CNT_PCNT) = keyState p s := by
  simp only [keyState, State.incSat_pl, Prod.mk.injEq, true_and]
  funext u' off
  split
  · rfl
  · rename_i hoff
    rw [State.incSat, State.reg_put_ne _ _ (regKey_ne_of_mod (Ne.symm hoff))]

theorem keyState_storeGranule (p : PlaneId) (addr : Nat) (d : List Byte) (s : State) : keyState p (storeGranule p addr d s).2 = keyState p s := by
  simp only [storeGranule]
  split
  · split
    · rfl
    · exact keyState_poisonCount p s _
  · cases memInst s p addr <;> simp

theorem keyState_storeParts (p : PlaneId) (fuel addr : Nat) (d : List Byte) (r : Bool × State) :
    keyState p (storeParts p fuel addr d r).2 = keyState p r.2 := by
  induction fuel generalizing addr d r with
  | zero => rfl
  | succ fuel ih =>
    simp only [storeParts]
    split
    · rfl
    · exact (ih _ _ _).trans (keyState_storeGranule _ _ _ _)

@[simp] theorem keyState_memWrite (p : PlaneId) (addr : Nat) (d : List Byte) (s : State) : keyState p (memWrite p addr d s) = keyState p s :=
  keyState_storeParts p _ _ _ _

@[simp] theorem keyState_modCore (p : PlaneId) (n : Nat) (f : Core → Core) (s : State) : keyState p (modCore p n f s) = keyState p s := by
  simp [modCore, setCore]

@[simp] theorem keyState_takeFree (p : PlaneId) (s : State) : keyState p s.takeFree.2 = keyState p s := by
  have hreg : ∀ u off, s.takeFree.2.reg u off = s.reg u off := State.reg_congr rfl ⟨rfl, rfl, rfl, fun _ => rfl⟩
  simp only [keyState, hreg]
  rfl

theorem keyState_stopXfers (p : PlaneId) (mm : Nat) (s : State) : keyState p (stopXfers p mm s) = keyState p s := by
  refine foldl_keeps (keyState p) (fun t e => foldl_keeps (keyState p) (fun t x => ?_) _ t) _ s
  split
  · simp
  · rfl

theorem stopXfers_ft (p : PlaneId) (mm : Nat) (s : State) : (stopXfers p mm s).ft p = s.ft p := by
  have haside : aside p (stopXfers p mm s) = aside p s := by
    refine aside_foldl p (fun t e => aside_foldl p (fun t x => ?_) _ t) _ s
    split
    · simp [aside_of_planes (s := t) (t := t.takeFree.2) rfl]
    · rfl
  exact (aside_eq_iff.mp haside).2.1

/-! ### KEY_START (R121, R125, R127) -/

/-- The data of a bank whose key starts: its first slot is now, no end is due, and a key that is not resumed is at its first line. -/
def KeyBank.started (k : KeyBank) (now : Nat) : KeyBank :=
  let k := { k with nextSlot := now, scrubs := [], windows := [], gapSeen := [], pauseAt := none, stop := none, ftLost := none
                    corrupt := false, endSlot := [], viaLatch := none }
  if k.resumed then { k with resumed := false }
  else { k with line := 0, repLeft := 0, loopAt := none, loopLeft := 0, ptrs := List.replicate 16 {} }

/-- The state of the keys at a start: the bank is the active one and RUNNING, and the swap window is shut. -/
def startKey (p : PlaneId) (b : Nat) (s : State) : State :=
  let t := modBank p b (fun k => k.started (s.ft p)) ((s.put (pu p .KSQ) Fld.KSQ_STAT_ACTIVE_BANK b).put (pu p .KSQ) Fld.KSQ_STAT_SWAP_WIN 0)
  setBankSt p b 4 (if (bankOfKey s p b).resumed then t else t.modPl p (fun x => { x with streams := [] }))

theorem KeyBank.started_line (k : KeyBank) (now : Nat) :
    (k.started now).nextSlot = now ∧ (k.started now).line = if k.resumed then k.line else 0 := by
  unfold KeyBank.started
  split <;> simp_all

theorem execKeyStart_due {p : PlaneId} {b : Nat} {s : State} (hb : bankIn s p 3 = some b) (hstart : (bankOfKey s p b).start = some (s.ft p))
    (hrun : bankIn s p 4 = none) (hst : s.plnState p = 3) (hother : bankSt s p (1 - b) ≠ 5 ∨ (bankOfKey s p b).resumed = true) :
    execKeyStart p s = .next (syncPln p (stopXfers p (bankOfKey s p b).memMap (startKey p b s))) := by
  have hdrop : (if (bankOfKey s p b).resumed then s else dropPaused p (1 - b) s) = s := by
    split
    · rfl
    · rename_i hfresh
      exact if_neg (hother.resolve_right hfresh)
  simp only [execKeyStart, hb, hstart, hrun, hst, hdrop, startKey, ne_eq, not_true_eq_false, Option.isSome_none, Bool.false_eq_true, or_self,
    if_false, reduceCtorEq, Nat.reduceEqDiff]
  rfl

theorem startKey_bank {b : Nat} (hb : b = 0 ∨ b = 1) (p : PlaneId) (s : State) : bankOfKey (startKey p b s) p b = (bankOfKey s p b).started (s.ft p) := by
  have hstarted := bankOfKey_modBank hb p (fun k => k.started (s.ft p))
    ((s.put (pu p .KSQ) Fld.KSQ_STAT_ACTIVE_BANK b).put (pu p .KSQ) Fld.KSQ_STAT_SWAP_WIN 0)
  rw [startKey, bankOfKey_setBankSt]
  split
  · exact hstarted
  · refine (bankOfKey_modPl _ p ?_ b).trans hstarted
    exact fun _ => rfl

theorem startKey_ft (p : PlaneId) (b : Nat) (s : State) : (startKey p b s).ft p = s.ft p := by
  have haside : aside p (startKey p b s) = aside p s := by
    rw [startKey]
    split <;> simp
  exact (aside_eq_iff.mp haside).2.1

/-- A register of the plane after a start, beneath the bank's state. -/
theorem startKey_get (p : PlaneId) (b : Nat) (s : State) (u : Nat) (f : RField) : (startKey p b s).get u f =
    (((s.put (pu p .KSQ) Fld.KSQ_STAT_ACTIVE_BANK b).put (pu p .KSQ) Fld.KSQ_STAT_SWAP_WIN 0).put (pu p .KSQ) (Fld.KSQ_B_STAT_STATE.at b) 4).get u f := by
  rw [startKey]
  split
  all_goals
    simp only [State.get, setBankSt, State.put, modBank, State.modPl_reg]
    rfl

theorem keyStart_runs {p : PlaneId} {b : Nat} {s : State} (hb : bankIn s p 3 = some b) (hstart : (bankOfKey s p b).start = some (s.ft p))
    (hrun : bankIn s p 4 = none) (hst : s.plnState p = 3) (hother : bankSt s p (1 - b) ≠ 5 ∨ (bankOfKey s p b).resumed = true) :
    Completes (.keyStart p) s (fun t => bankSt t p b = 4 ∧ activeBank t p = b ∧ t.get (pu p .KSQ) Fld.KSQ_STAT_SWAP_WIN = 0 ∧
      t.plnState p = 4 ∧ (bankOfKey t p b).nextSlot = s.ft p ∧ t.ft p = s.ft p ∧
      (bankOfKey t p b).line = (if (bankOfKey s p b).resumed then (bankOfKey s p b).line else 0)) := by
  have hbank := (bankIn_eq_some hb).1
  have hstop := keyState_stopXfers p (bankOfKey s p b).memMap (startKey p b s)
  have hft := (stopXfers_ft p (bankOfKey s p b).memMap (startKey p b s)).trans (startKey_ft p b s)
  refine ⟨_, execKeyStart_due hb hstart hrun hst hother, ?_⟩
  generalize stopXfers p (bankOfKey s p b).memMap (startKey p b s) = r at hstop hft
  have hget : ∀ u (f : RField), f.key % 4096 ≠ 0x054 → r.get u f = _ := fun u f hf => (keyState_get hstop u hf).trans (startKey_get p b s u f)
  have hksq : bankSt r p b = 4 ∧ activeBank r p = b ∧ r.get (pu p .KSQ) Fld.KSQ_STAT_SWAP_WIN = 0 := by
    rw [bankSt, activeBank]
    obtain rfl | rfl := hbank <;> simp (disch := decide) only [hget, State.get_put_beside, State.get_put_same] <;> decide
  have hon : r.domOn (4 + 7 * p.val) = true := by
    have hs := domOn_of_plnState (p := p) (s := s) (by omega) (by omega)
    rw [State.domOn] at hs ⊢
    obtain rfl | rfl := hbank <;> simpa (disch := decide) only [hget, State.get_put_beside] using hs
  have harmed : r.get (pu p .PLN) Fld.PLN_STATE = 3 := by
    rw [plnState_on (domOn_of_plnState (by omega) (by omega))] at hst
    obtain rfl | rfl := hbank <;> simpa (disch := decide) only [hget, State.get_put_beside] using hst
  have hkey : bankOfKey r p b = (bankOfKey s p b).started (s.ft p) := (keyState_bank hstop b).trans (startKey_bank hbank p s)
  obtain ⟨hslot, hline⟩ := (bankOfKey s p b).started_line (s.ft p)
  have hsync : bankOfKey (syncPln p r) p b = bankOfKey r p b := bankOfKey_congr (by rw [syncPln_pl]) b
  obtain ⟨hrunning, hactive, hshut⟩ := hksq
  refine ⟨?_, ?_, ?_, syncPln_running hon (bankIn_isSome hbank hrunning) (.inr (.inl harmed)), ?_, ?_, ?_⟩
  · rw [bankSt, syncPln_get (by obtain rfl | rfl := hbank <;> decide), ← bankSt, hrunning]
  · rw [activeBank, syncPln_get (by decide), ← activeBank, hactive]
  · rw [syncPln_get (by decide), hshut]
  · rw [hsync, hkey, hslot]
  · rw [State.ft, syncPln_pl, ← State.ft, hft]
  · rw [hsync, hkey, hline]

/-! ### KEY_SWAP_LATE (R126) -/

/-- A bank that returns for LATE, whose key was not being resumed (R119, R126). -/
theorem disarm_late {p : PlaneId} {b : Nat} (hb : b = 0 ∨ b = 1) {s : State} (hfresh : (bankOfKey s p b).resumed = false) :
    bankSt (disarm p b 0x10 s) p b = 2 ∧ bankSt (disarm p b 0x10 s) p (1 - b) = bankSt s p (1 - b) ∧
      (disarm p b 0x10 s).get (pu p .KSQ) (Fld.KSQ_B_STAT_RCODE.at b) = 0x10 ∧
      (disarm p b 0x10 s).get (pu p .KSQ) Fld.KSQ_STAT_LATE_CNT = min (s.get (pu p .KSQ) Fld.KSQ_STAT_LATE_CNT + 1) 0xFFFF ∧
      (disarm p b 0x10 s).get (pu p .KSQ) Fld.KSQ_STAT_SWAP_WIN = 0 := by
  have hcount : ∀ n, min n (2 ^ Fld.KSQ_STAT_LATE_CNT.width - 1) % 2 ^ Fld.KSQ_STAT_LATE_CNT.width = min n 0xFFFF := fun n => by
    have hw : Fld.KSQ_STAT_LATE_CNT.width = 16 := rfl
    rw [hw]
    omega
  simp only [disarm, hfresh, Bool.false_eq_true, if_false, if_true, bankSt, setBankSt, setRcode, modBank, State.incSat]
  obtain rfl | rfl := hb <;>
    simp (disch := decide) only [syncPln_get, State.get_put_beside, State.get_put_same, State.modPl_get, hcount] <;> decide

theorem keySwapLate_returns {p : PlaneId} {a b : Nat} {s : State} (hb : bankIn s p 3 = some b) (ha : bankIn s p 4 = some a)
    (hstart : (bankOfKey s p b).start = some (s.ft p)) (hgoes : slotBank s p ≠ some a ∨ dueEnd s p a = none)
    (hfresh : (bankOfKey s p b).resumed = false) :
    Completes (.keySwapLate p) s (fun t => bankSt t p b = 2 ∧ bankSt t p a = 4 ∧ t.get (pu p .KSQ) (Fld.KSQ_B_STAT_RCODE.at b) = 0x10 ∧
      t.get (pu p .KSQ) Fld.KSQ_STAT_LATE_CNT = min (s.get (pu p .KSQ) Fld.KSQ_STAT_LATE_CNT + 1) 0xFFFF ∧
      t.get (pu p .KSQ) Fld.KSQ_STAT_SWAP_WIN = 0) := by
  obtain ⟨hbank, harmed⟩ := bankIn_eq_some hb
  obtain ⟨hbank', hrunning⟩ := bankIn_eq_some ha
  have hother : a = 1 - b := by
    obtain rfl | rfl := hbank <;> obtain rfl | rfl := hbank' <;> first | rfl | omega
  have hrun : exec (.keySwapLate p) s = .next (disarm p b 0x10 s) := by
    have hdue : ¬ (slotBank s p = some a ∧ (dueEnd s p a).isSome = true) := by
      rintro ⟨hslot, hend⟩
      obtain h | h := hgoes
      · exact h hslot
      · simp [h] at hend
    simp only [exec, execKeySwapLate, hb, ha, hstart, hdue, not_false_eq_true, and_self, if_true]
  obtain ⟨h1, h2, h3, h4, h5⟩ := disarm_late hbank hfresh
  exact ⟨_, hrun, h1, by rw [hother, h2, ← hother, hrunning], h3, h4, h5⟩

end Sys2Proof.Machine
end

section
/-! SUPPORT. REFRESH_DEADLINE and KEY_END (R112, R122, R125, R223), and the statement about the events of a key's life. -/

namespace Sys2Proof.Machine

/-! ### REFRESH_DEADLINE (R112) -/

/-- REFRESH_MISS as KSQ finds it, at a target. -/
def refreshMissed (t : Nat) : Detection := { src := 2, cls := .u, loc := t, detail := 0 }

/-- A forced refresh begins a round on the target, and REFRESH_MISS is logged: the running key is to end with its code. -/
theorem forceRefresh_running {p : PlaneId} {b : Nat} {s : State} (hb : bankIn s p 4 = some b) (t : Nat) :
    forceRefresh p t s = endAtSlot p b 6 (logOrDead (pu p .KSQ) .KSQ (refreshMissed t) (refreshRound p t s)) := by
  have hstill : bankIn (logOrDead (pu p .KSQ) .KSQ (refreshMissed t) (refreshRound p t s)) p 4 = some b := by
    rw [logOrDead_bankIn (by decide), ← hb]
    exact bankIn_congr (fun c _ => State.modPl_get _ _ _ _ _) 4
  have hreact : ∀ r : State, react (pu p .KSQ) .KSQ 2 .u t 0 r = endRunningKey p .refreshMiss r := fun r => by
    simp only [react, unitPlane_pu]
  rw [forceRefresh, detect, detectFault_of_u (unitBlk_KSQ p) rfl]
  refine (hreact _).trans ?_
  rw [refreshMissed] at hstill
  simp only [endRunningKey, reduceCtorEq, if_false, hstill, refreshMissed]

theorem refreshDeadline_reached {p : PlaneId} {b : Nat} {t' : Fin 7} {s : State} (hb : bankIn s p 4 = some b)
    (hnames : mapNames (bankOfKey s p b).memMap t'.val = true) (hdue : refreshDue s p b t'.val ≤ s.ft p)
    (hmine : ¬ (slotBank s p = some b ∧ dueEnd s p b = none ∧ refreshes s p (slotMops s p b) t'.val = true))
    (h0 : s.get (pu p .KSQ) Fld.BLK_ERR_CLASS = 0) (hseen : detectedNow s (pu p .KSQ) = []) :
    Completes (.refreshDeadline p t') s (fun t => (bankOfKey t p b).endSlot = (bankOfKey s p b).endSlot ++
        [(6, if (bankOfKey s p b).nextSlot ≤ s.ft p then (bankOfKey s p b).nextSlot + 20 else (bankOfKey s p b).nextSlot)] ∧
      (tgt t p (targetKey s p t'.val)).lastRef = s.beats p ∧
      t.get (pu p .KSQ) Fld.BLK_ERR_CLASS = 2 ∧ t.get (pu p .KSQ) Fld.BLK_ERR_CLASS_SOURCE = 2) := by
  have hrun : exec (.refreshDeadline p t') s = .next (forceRefresh p t'.val s) := by
    have hforced : ¬ (slotBank s p = some b && (dueEnd s p b).isNone && refreshes s p (slotMops s p b) t'.val) = true := by
      simpa only [Bool.and_eq_true, decide_eq_true_eq, Option.isNone_iff_eq_none, and_assoc] using hmine
    simp only [exec, execRefreshDeadline, hb, hnames, hdue, hforced, Bool.false_eq_true, not_false_eq_true, and_self, if_true]
  have hround : (refreshRound p t'.val s).get (pu p .KSQ) Fld.BLK_ERR_CLASS = 0 := (State.modPl_get _ _ _ _ _).trans h0
  have hnone : detectedNow (refreshRound p t'.val s) (pu p .KSQ) = [] := by
    simpa [detectedNow, State.rp, unitBeat, unitPlane_pu, refreshRound, modTgt, State.beats] using hseen
  obtain ⟨hclass, hsource⟩ := logOrDead_captured (b := .KSQ) (d := refreshMissed t'.val) (by decide) (by decide : 2 < 256) hround hnone
  refine ⟨_, hrun, ?_⟩
  rw [forceRefresh_running hb]
  have hpl : ((logOrDead (pu p .KSQ) .KSQ (refreshMissed t'.val) (refreshRound p t'.val s)).pl p) = (refreshRound p t'.val s).pl p := by
    rw [State.pl, logOrDead_planes (by decide), State.pl]
  generalize logOrDead (pu p .KSQ) .KSQ (refreshMissed t'.val) (refreshRound p t'.val s) = r at hclass hsource hpl
  have hkey : bankOfKey r p b = bankOfKey s p b := bankOfKey_congr (by rw [hpl]; simp [refreshRound, modTgt]) b
  have hft : r.ft p = s.ft p := by rw [State.ft, hpl]; simp [refreshRound, modTgt, State.ft]
  refine ⟨?_, ?_, (State.modPl_get _ _ _ _ _).trans hclass, (State.modPl_get _ _ _ _ _).trans hsource⟩
  · rw [endAtSlot, bankOfKey_modBank (bankIn_eq_some hb).1, hkey, hft]
  · have hmod : (tgt (endAtSlot p b 6 r) p (targetKey s p t'.val)) = tgt r p (targetKey s p t'.val) := by
      simp only [tgt, endAtSlot, modBank, State.modPl_pl_same]
    rw [hmod, tgt, hpl, refreshRound, modTgt, State.modPl_pl_same, mgetD_mput_same]

/-! ### KEY_END (R122, R125, R223) -/

theorem State.get_ite (c : Prop) [Decidable c] (s t : State) (u : Nat) (f : RField) :
    (if c then s else t).get u f = if c then s.get u f else t.get u f := apply_ite (fun r : State => r.get u f) _ _ _

/-- A report writes the log of its block alone. -/
theorem report_get {f : RField} (hf : 0x40 ≤ f.key % 4096) (v src : Nat) (cls : FaultClass) (wh detail : Nat) (s : State) (u : Nat) :
    (report v src cls wh detail s).get u f = s.get u f := by
  unfold report
  split
  · rw [State.get, logFault, logDetection_reg _ _ _ _ hf, State.get]
  · rfl

/-- The state at a key's end, before the swap window of the next key (R122). -/
def endRecorded (p : PlaneId) (b : Nat) (c : KeyEnd) (s : State) : State :=
  let u := pu p .KSQ
  let s := s.put u (Fld.KSQ_B_STAT_END.at b) c.code
  let s := s.put64 u (Fld.KSQ_B_END_LO_E_LO.at b) (Fld.KSQ_B_END_HI_E_HI.at b) (s.ft p)
  let s := setBankSt p b (if c = .paused then 5 else 7) s
  let s := modBank p b (fun k => { k with pauseAt := none, stop := none, ftLost := none, corrupt := false, endSlot := [], ahead := [] }) s
  let s := if c = .done ∨ c = .paused then s else abortKeyChunks p b s
  let s := if c = .paused then s else s.modPl p (fun x => { x with streams := [] })
  let s := if c = .fenced then s.modPl p (fun x => { x with sops := none }) else s
  let s := dropOrphans p s
  let k := bankOfKey s p b
  let t := s.ft p - k.start.getD (s.ft p)
  let short (x : Nat) : Bool := mapNames k.memMap x && decide (mgetD k.scrubs (if x < 6 ∧ mirrored s p then x / 2 * 2 else x) 0 < t / 262144)
  if (List.range 7).any short then report u 3 .c 0 0 s else s

/-- The swap window of the next key, where it is armed and no fence ended the one before it (R125). -/
def openSwap (p : PlaneId) (b : Nat) (c : KeyEnd) (s : State) : State :=
  let arm := bankSt s p (1 - b) = 3
  let s := if arm ∧ c ≠ .fenced then s.put (pu p .KSQ) Fld.KSQ_STAT_SWAP_WIN 1 else s
  if arm ∧ c ≠ .fenced ∧ bit (bankOfKey s p (1 - b)).flags 1 then
    s.modPl p (fun x => { x with swapLow := some (s.ft p, (bankOfKey s p (1 - b)).start) }) else s

theorem endKey_eq (p : PlaneId) (b : Nat) (c : KeyEnd) (s : State) : endKey p b c s = syncPln p (openSwap p b c (endRecorded p b c s)) := rfl

/-- The registers that an end records, and the rest as they were. -/
theorem endRecorded_get {c : KeyEnd} (hc : c = .done ∨ c = .paused) {f : RField} (hown : 0x40 ≤ f.key % 4096) (p : PlaneId) (b : Nat) (s : State)
    (u : Nat) : (endRecorded p b c s).get u f = (setBankSt p b (if c = .paused then 5 else 7) ((s.put (pu p .KSQ) (Fld.KSQ_B_STAT_END.at b)
      c.code).put64 (pu p .KSQ) (Fld.KSQ_B_END_LO_E_LO.at b) (Fld.KSQ_B_END_HI_E_HI.at b) (s.ft p))).get u f := by
  have hfence : c ≠ .fenced := by obtain rfl | rfl := hc <;> decide
  simp only [endRecorded, dropOrphans, modBank, State.get_ite, State.modPl_get, report_get hown, hc, hfence, if_true, if_false, ite_self]
  rfl

/-- No register but the swap window and PLN_STATE follows from the next key. -/
theorem endKey_get {f : RField} (hwin : beside Fld.KSQ_STAT_SWAP_WIN f = true) (hpln : beside Fld.PLN_STATE f = true) (p : PlaneId) (b : Nat)
    (c : KeyEnd) (s : State) (u : Nat) : (endKey p b c s).get u f = (endRecorded p b c s).get u f := by
  simp only [endKey_eq, syncPln_get hpln, openSwap, State.get_ite, State.modPl_get, State.get_put_beside hwin, ite_self]

/-- What DONE and PAUSED record of the key (R122): its bank's state, the end code and the end's FT. -/
theorem endKey_records {c : KeyEnd} (hc : c = .done ∨ c = .paused) {b : Nat} (hb : b = 0 ∨ b = 1) (p : PlaneId) (s : State) :
    bankSt (endKey p b c s) p b = (if c = .paused then 5 else 7) ∧
      (endKey p b c s).get (pu p .KSQ) (Fld.KSQ_B_STAT_END.at b) = c.code ∧
      (endKey p b c s).get64 (pu p .KSQ) (Fld.KSQ_B_END_LO_E_LO.at b) (Fld.KSQ_B_END_HI_E_HI.at b) = s.ft p % 2 ^ 64 := by
  have hhalves : ∀ n, n % 2 ^ 32 % 2 ^ 32 + 2 ^ 32 * (n / 2 ^ 32 % 2 ^ 32) = n % 2 ^ 64 := fun n => by omega
  simp only [bankSt, State.get64]
  obtain rfl | rfl := hb <;> simp (disch := decide) only [endKey_get, endRecorded_get hc, setBankSt, State.put64, State.get_put_beside, State.get_put_same]
  all_goals
    refine ⟨?_, ?_, hhalves _⟩ <;> obtain rfl | rfl := hc <;> rfl

/-- An armed next key has its swap window from the end on (R125). -/
theorem endKey_opens {c : KeyEnd} (hc : c = .done ∨ c = .paused) {b : Nat} (hb : b = 0 ∨ b = 1) {p : PlaneId} {s : State}
    (harmed : bankSt s p (1 - b) = 3) : (endKey p b c s).get (pu p .KSQ) Fld.KSQ_STAT_SWAP_WIN = 1 := by
  have hfence : c ≠ .fenced := by obtain rfl | rfl := hc <;> decide
  have hstill : bankSt (endRecorded p b c s) p (1 - b) = 3 := by
    rw [bankSt] at harmed ⊢
    obtain rfl | rfl := hb <;> simpa (disch := decide) only [endRecorded_get hc, setBankSt, State.put64, State.get_put_beside] using harmed
  simp (disch := decide) only [endKey_eq, syncPln_get, openSwap, hstill, hfence, State.get_ite, State.modPl_get, State.get_put_same, ne_eq,
    not_false_eq_true, and_self, true_and, if_true, ite_self]
  decide

/-- A core that follows the key saves itself or halts: no register of KSQ and no FT is touched (R223). -/
theorem followSave_keeps (p : PlaneId) (n : Nat) (s : State) (f : RField) :
    (followSave p n s).get (pu p .KSQ) f = s.get (pu p .KSQ) f ∧ (followSave p n s).ft p = s.ft p := by
  have hne : uCCX p n ≠ pu p .KSQ := by simp only [uCCX, pu, Blk.code]; omega
  have hput : ∀ (t : State) (g : RField) (v : Nat), (t.put (uCCX p n) g v).get (pu p .KSQ) f = t.get (pu p .KSQ) f := fun t g v =>
    State.get_put_ne _ _ (regKey_ne_of_unit (pu_lt p _) hne.symm).symm
  have haside : aside p (followSave p n s) = aside p s := by simp [followSave, beginSave, setCoreSt]
  refine ⟨?_, (aside_eq_iff.mp haside).2.1⟩
  simp only [followSave, beginSave, haltCore, setCoreSt, modCore, setCore, State.get_ite, State.modPl_get, hput, ite_self]

/-- A line whose read fails is reported by KSQ, and the key is marked: no register but the log's is touched (R122). -/
theorem keyCorrupt_get {f : RField} (hf : 0x40 ≤ f.key % 4096) (p : PlaneId) (wh : Nat) (s : State) (u : Nat) :
    (detect (pu p .KSQ) 1 .u wh 0 s).get u f = s.get u f := by
  have hmark : ∀ r : State, (react (pu p .KSQ) .KSQ 1 .u wh 0 r).get u f = r.get u f := fun r => by
    simp only [react, unitPlane_pu, endRunningKey, reduceCtorEq, if_false]
    split <;> simp only [modBank, State.modPl_get]
  rw [detect, detectFault_of_u (unitBlk_KSQ p) rfl]
  exact (hmark _).trans (logOrDead_get (by decide) _ s u hf)

/-- An end that is due is the key's (R122), with the next key's bank and FT as they were. -/
theorem endRun_due {p : PlaneId} {b : Nat} {c : KeyEnd} {s : State} (hslot : slotBank s p = some b) (hdue : dueEnd s p b = some c)
    (hb : b = 0 ∨ b = 1) : ∃ r, endRun p s = (some c, endKey p b c r) ∧ bankSt r p (1 - b) = bankSt s p (1 - b) ∧ r.ft p = s.ft p := by
  simp only [endRun, hslot, hdue]
  refine ⟨_, rfl, ?_, ?_⟩
  · simp only [bankSt]
    obtain rfl | rfl := hb <;> simp (disch := decide) only [State.get_put_beside, modBank, State.modPl_get, State.get_ite, keyCorrupt_get, ite_self]
  · refine (aside_eq_iff.mp ?_).2.1
    simp [aside_detect (unitPlane_pu p .KSQ)]

theorem slotBank_bank {s : State} {p : PlaneId} {b : Nat} (h : slotBank s p = some b) : bankIn s p 4 = some b := by
  obtain ⟨a, ha, hat⟩ := Option.bind_eq_some_iff.mp h
  split at hat
  · rw [ha, hat]
  · exact absurd hat (by simp)

/-- The saves of the cores that follow a key leave the registers of KSQ and FT as the end gave them (R223). -/
theorem execKeyEnd_of_endRun {p : PlaneId} {c : KeyEnd} {s r : State} (hend : endRun p s = (some c, r)) :
    ∃ t, exec (.keyEnd p) s = .next t ∧ (∀ f, t.get (pu p .KSQ) f = r.get (pu p .KSQ) f) ∧ t.ft p = r.ft p := by
  refine ⟨_, rfl, ?_⟩
  rw [hend]
  split
  · exact ⟨fun f => foldl_keeps (fun t => t.get (pu p .KSQ) f) (fun t n => (followSave_keeps p n t f).1) _ _,
      foldl_keeps (fun t => t.ft p) (fun t n => (followSave_keeps p n t Fld.KSQ_CMD).2) _ _⟩
  · exact ⟨fun _ => rfl, rfl⟩

theorem keyEnd_due {p : PlaneId} {b : Nat} {c : KeyEnd} {s : State} (hslot : slotBank s p = some b) (hdue : dueEnd s p b = some c)
    (hc : c = .done ∨ c = .paused) :
    Completes (.keyEnd p) s (fun t => bankSt t p b = (if c = .paused then 5 else 7) ∧ t.get (pu p .KSQ) (Fld.KSQ_B_STAT_END.at b) = c.code ∧
      (bankSt s p (1 - b) = 3 → t.get (pu p .KSQ) Fld.KSQ_STAT_SWAP_WIN = 1) ∧
      t.get64 (pu p .KSQ) (Fld.KSQ_B_END_LO_E_LO.at b) (Fld.KSQ_B_END_HI_E_HI.at b) = s.ft p % 2 ^ 64 ∧ t.ft p = s.ft p) := by
  have hb := (bankIn_eq_some (slotBank_bank hslot)).1
  obtain ⟨r, hend, hother, hft⟩ := endRun_due hslot hdue hb
  obtain ⟨hst, hcode, hat⟩ := endKey_records hc hb p r
  obtain ⟨t, hrun, hget, htft⟩ := execKeyEnd_of_endRun hend
  refine ⟨t, hrun, (hget _).trans hst, (hget _).trans hcode, fun harmed => (hget _).trans (endKey_opens hc hb (hother.trans harmed)), ?_, ?_⟩
  · rw [State.get64, hget, hget, ← State.get64, hat, hft]
  · rw [htft, (aside_eq_iff.mp (aside_endKey p r b c)).2.1, hft]

/-- Settles O20: each event of a key's life by its own lemma above. -/
theorem keyEvents : Obligations.KeyEvents :=
  ⟨fun _ _ _ _ _ => keyLoadDone_rejected, fun _ _ _ => keyLoadDone_loaded, fun _ _ _ => keyStart_runs, fun _ _ _ _ => keySwapLate_returns,
    fun _ _ _ _ => refreshDeadline_reached, fun _ _ _ _ => keyEnd_due,
    fun p s hnone => ⟨s, by simp [exec, execKeyEnd, endRun, hnone], rfl⟩⟩

end Sys2Proof.Machine
end

section
/-! SUPPORT. Slices (R123, R158): a fence of a slice and the spare that stands in, the spare's activation, the capture of an accumulator, and the
statement about them. -/

namespace Sys2Proof.Machine

theorem unitBlk_TMB : ∀ (p : PlaneId) (n : SliceId), unitBlk (uTMB p n.val) = some (.TMB, n.val) := by decide
theorem unitPlane_TMB : ∀ (p : PlaneId) (n : SliceId), unitPlane (uTMB p n.val) = some p := by decide

/-! ### Registers beside a failed chunk's (R172, R184) -/

/-- A report writes no register of another unit. -/
theorem report_get_unit {v u : Nat} (hv : v < 0x400) (h : v ≠ u) (src : Nat) (cls : FaultClass) (wh detail : Nat) (s : State) (f : RField) :
    (report v src cls wh detail s).get u f = s.get u f := by
  have hlog : ∀ x t, (setLog v x t).reg u f.key = t.reg u f.key := fun x t => by
    simp only [setLog, State.modRp_reg]
    repeat rw [State.reg_setReg_ne _ _ (regKey_ne_of_unit hv h)]
  unfold report
  split
  · rw [State.get, logFault, logDetection, State.modRp_reg, hlog, State.get]
  · rfl

theorem modCtx_get (p : PlaneId) (pos c : Nat) (g : Ctx → Ctx) (s : State) (u : Nat) (f : RField) : (modCtx p pos c g s).get u f = s.get u f := by
  unfold modCtx
  split
  · exact State.modPl_get _ _ _ _ _
  · rfl

theorem event_get (s : State) (p : PlaneId) (code inst n u : Nat) (f : RField) : (s.event p code inst n).get u f = s.get u f := by
  simp only [State.event, State.get_ite, State.modPl_get, ite_self]

theorem sealSample_get (p : PlaneId) (pos : Nat) (k : Chunk) (st : ChunkState) (s : State) (u : Nat) (f : RField) :
    (sealSample p pos k st s).get u f = s.get u f := by
  simp only [sealSample, State.sample, State.get_ite, State.modPl_get, ite_self]

section
variable {p : PlaneId} {u : Nat} (hu : u ≠ pu p .XPT) (f : RField)
include hu

/-- A seal may report XPT_COPY, and writes no other register. -/
theorem sealOne_get (pos c n : Nat) (d : CopyDst) (s : State) : (sealOne p pos c n d s).2.get u f = s.get u f := by
  simp only [sealOne]
  split
  · rfl
  · split
    · rfl
    · split
      · rfl
      · simp only [State.get_ite, report_get_unit (pu_lt p .XPT) hu.symm, ite_self, sealSample_get]
        cases d <;> simp only [State.get_ite, event_get, ite_self, setCtx, State.modPl_get]

theorem finalOnly_get (pos c n : Nat) (d : CopyDst) (s : State) : (finalOnly p pos c n d s).get u f = s.get u f := by
  have hissue : ∀ ep (r : Option Cell × State), (issueSeal p pos c ep r).get u f = r.2.get u f := fun ep r => by
    unfold issueSeal
    split
    · exact State.modPl_get _ _ _ _ _
    · rfl
  simp only [finalOnly]
  cases d <;> simp only [hissue, sealOne_get hu, queueRepair, State.modPl_get, modChunk, modCtx_get]

/-- A failed chunk's seals write no register but XPT's log. -/
theorem failChunk_get (pos c n reason : Nat) (extra : List CopyDst) (s : State) : (failChunk p pos c n reason extra s).get u f = s.get u f := by
  simp only [failChunk]
  rw [foldl_keeps (fun t => t.get u f) (fun t d => finalOnly_get hu f pos c n d t)]
  unfold endChunk
  split
  · rw [sealSample_get, modChunk, modCtx_get]
  · rfl

end

/-! ### The fence of a slice (R123, R406) -/

theorem closeHasp_get (u cause : Nat) (s : State) (u' : Nat) {f : RField} (hf : f.key % 4096 ≠ 0x034) :
    (closeHasp u cause s).get u' f = s.get u' f := by
  have hput : ∀ (t : State) (g : RField) (v : Nat), g.key % 4096 = 0x034 → (t.put u g v).get u' f = t.get u' f := fun t g v hg =>
    State.get_put_ne _ _ (regKey_ne_of_mod (by omega))
  simp only [closeHasp, State.get_ite, State.modRp_get, hput _ Fld.BLK_FENCE_CAUSE _ rfl, hput _ Fld.BLK_FENCE_FENCED _ rfl, ite_self]

/-- The registers of a slice that leaves service: its hasp is closed, it serves no position and is UNUSABLE. -/
def sliceOut (p : PlaneId) (n c : Nat) (s : State) : State :=
  ((closeHasp (uTMB p n) c s).put (uTMB p n) Fld.TMB_STAT_ROLE 3).put (uTMB p n) Fld.TMB_STAT_FOR_POS 0x1F

section
variable (p : PlaneId) (n : Nat)

theorem uTMB_ne : uTMB p n ≠ pu p .PLN ∧ uTMB p n ≠ pu p .XPT := by simp only [uTMB, pu, Blk.code]; omega

theorem put_PLN_get (s : State) (g f : RField) (v : Nat) : (s.put (pu p .PLN) g v).get (uTMB p n) f = s.get (uTMB p n) f :=
  State.get_put_ne _ _ (regKey_ne_of_unit (pu_lt p _) (uTMB_ne p n).1.symm)

theorem unitChange_get (s : State) (f : RField) : (unitChange p s).get (uTMB p n) f = s.get (uTMB p n) f := by
  rw [unitChange, State.pulseBit_get, State.inc, put_PLN_get]

theorem sliceRole_sliceOut (c : Nat) (s : State) : sliceRole (sliceOut p n c s) p n = 3 := by
  simp (disch := decide) only [sliceRole, sliceOut, State.get_put_beside, State.get_put_same]
  rfl

/-- A spare that stands in is another slice than the one that leaves. -/
theorem spareSlice_ne {t : State} {sp : Nat} (hn : sliceRole t p n = 3) (h : spareSlice t p = some sp) : sp ≠ n := by
  have hrole : sliceRole t p sp = 1 := by simpa [spareSlice] using List.find?_some h
  rintro rfl
  omega

theorem put_TMB_get_ne {sp : Nat} (hsp : sp ≠ n) (hlt : sp < 17) (s : State) (g f : RField) (v : Nat) :
    (s.put (uTMB p sp) g v).get (uTMB p n) f = s.get (uTMB p n) f := by
  have hp := p.isLt
  refine State.get_put_ne _ _ (regKey_ne_of_unit ?_ ?_)
  · simp only [uTMB]; omega
  · simp only [uTMB]; omega

theorem spareSlice_lt {t : State} {sp : Nat} (h : spareSlice t p = some sp) : sp < 17 := List.mem_range.1 (List.mem_of_find?_eq_some h)

/-- What the fence of a slice whose hasp is open leaves in the slice's own registers. -/
theorem fenceSlice_get {c : Nat} {s : State} (hopen : s.fenced (uTMB p n) = false) (f : RField) :
    (fenceSlice p n c s).get (uTMB p n) f = (sliceOut p n c s).get (uTMB p n) f := by
  have hshut : ¬ s.fenced (uTMB p n) = true := by simp [hopen]
  have hfail := failChunk_get (uTMB_ne p n).2 f
  rw [fenceSlice, if_neg hshut]
  dsimp only
  rw [State.get_ite, unitChange_get, ite_self]
  split
  next sp hsp =>
    split at hsp
    · cases hsp
    · have hout : ∀ g, sliceRole (((sliceOut p n c s).put (pu p .PLN) Fld.PLN_UNIT_SLICE_SLICE_ACT
          ((sliceOut p n c s).get (pu p .PLN) Fld.PLN_UNIT_SLICE_SLICE_ACT &&& (0x1FFFF - 2 ^ n))).modPl p g) p n = 3 := fun g => by
        rw [sliceRole, State.modPl_get, put_PLN_get]
        exact sliceRole_sliceOut p n c s
      have hne := spareSlice_ne p n (hout _) hsp
      have hlt := spareSlice_lt p hsp
      simp only [State.modPl_get, put_PLN_get, put_TMB_get_ne p n hne hlt]
      rfl
  next =>
    simp only [State.get_ite, put_PLN_get]
    rw [foldl_keeps (fun t => t.get (uTMB p n) f) (fun t e => by simp only [State.get_ite, hfail, ite_self])]
    simp only [State.modPl_get, put_PLN_get, ite_self]
    rfl

/-- The slice that leaves is no spare before or after; every other slice keeps its role. -/
theorem spareSlice_congr {s t : State} (hs : sliceRole s p n ≠ 1) (ht : sliceRole t p n ≠ 1)
    (h : ∀ sp, sp < 17 → sp ≠ n → sliceRole t p sp = sliceRole s p sp) : spareSlice t p = spareSlice s p := by
  refine List.find?_congr fun sp hsp => ?_
  by_cases hne : sp = n
  · simp [hne, hs, ht]
  · rw [h sp (List.mem_range.1 hsp) hne]

theorem spareSlice_sliceOut {c : Nat} {s : State} (hn : n < 17) (hrole : sliceRole s p n = 0) (v : Nat) (g : Plane → Plane) :
    spareSlice (((sliceOut p n c s).put (pu p .PLN) Fld.PLN_UNIT_SLICE_SLICE_ACT v).modPl p g) p = spareSlice s p := by
  refine spareSlice_congr p n (by omega) ?_ fun sp hlt hne => ?_
  · rw [sliceRole, State.modPl_get, put_PLN_get]
    simp [show (sliceOut p n c s).get (uTMB p n) Fld.TMB_STAT_ROLE = 3 from sliceRole_sliceOut p n c s]
  · rw [sliceRole, State.modPl_get, put_PLN_get, sliceOut, put_TMB_get_ne p sp (Ne.symm hne) hn, put_TMB_get_ne p sp (Ne.symm hne) hn,
      closeHasp_get _ _ _ _ (by decide), sliceRole]

/-- Where an ACTIVE slice leaves, a spare stands in for its position. -/
theorem fenceSlice_standIn {c sp : Nat} {s : State} (hopen : s.fenced (uTMB p n) = false) (hn : n < 17) (hrole : sliceRole s p n = 0)
    (hsp : spareSlice s p = some sp) :
    sliceRole (fenceSlice p n c s) p sp = 2 ∧ (fenceSlice p n c s).get (uTMB p sp) Fld.TMB_STAT_FOR_POS = n := by
  have hshut : ¬ s.fenced (uTMB p n) = true := by simp [hopen]
  have hspare := spareSlice_sliceOut p n (c := c) hn hrole
  unfold sliceOut at hspare
  rw [sliceRole, fenceSlice, if_neg hshut]
  dsimp only
  rw [hrole, if_neg (by decide), if_neg (by decide), if_neg (by decide), hspare, hsp]
  dsimp only
  simp (disch := decide) only [unitChange_get, State.modPl_get, State.get_put_beside, State.get_put_same]
  exact ⟨rfl, Nat.mod_eq_of_lt (by simpa [Fld.TMB_STAT_FOR_POS, RField.width] using (by omega : n < 32))⟩

/-- A slice whose hasp closes is fenced and UNUSABLE. -/
theorem fenceSlice_shuts {c : Nat} {s : State} (hopen : s.fenced (uTMB p n) = false) :
    (fenceSlice p n c s).fenced (uTMB p n) = true ∧ sliceRole (fenceSlice p n c s) p n = 3 := by
  constructor
  · rw [State.fenced, State.on, fenceSlice_get p n hopen]
    simp (disch := decide) only [sliceOut, State.get_put_beside]
    exact (closeHasp_open hopen c).1
  · rw [sliceRole, fenceSlice_get p n hopen]
    exact sliceRole_sliceOut p n c s

/-- The fence keeps what the fault log of the slice holds. -/
theorem fenceSlice_errClass {c : Nat} {s : State} (hopen : s.fenced (uTMB p n) = false) {f : RField} (hf : f.key % 4096 < 0x34) :
    (fenceSlice p n c s).get (uTMB p n) f = s.get (uTMB p n) f := by
  have hput : ∀ (t : State) (g : RField) (v : Nat), 0x40 ≤ g.key % 4096 → (t.put (uTMB p n) g v).get (uTMB p n) f = t.get (uTMB p n) f :=
    fun t g v hg => State.get_put_ne _ _ (regKey_ne_of_mod (by omega))
  rw [fenceSlice_get p n hopen, sliceOut, hput _ _ _ (by decide), hput _ _ _ (by decide), closeHasp_get _ _ _ _ (by omega)]

end

theorem react_tmbFail (p : PlaneId) (n : SliceId) (wh detail : Nat) (s : State) :
    react (uTMB p n.val) .TMB 7 .u wh detail s = fenceSlice p n.val 2 s := by
  have hcode : uTMB p n.val % 256 - 0x20 = n.val := by
    have hn := n.isLt
    simp only [uTMB]
    omega
  simp [react, unitPlane_TMB, hcode]

theorem logOrDead_fenced {u : Nat} {b : Blk} (hb : b ≠ .FCL) (d : Detection) (s : State) (u' : Nat) :
    (logOrDead u b d s).fenced u' = s.fenced u' := by
  rw [State.fenced, State.on, State.get, keepsHeaders_logOrDead hb d s u' _ (by decide) (by decide), State.fenced, State.on, State.get]

/-- A slice found failed reports TMB_FAIL and is fenced; where it was ACTIVE a spare stands in (R123, R406). -/
theorem detectFault_tmbFail {p : PlaneId} {n : SliceId} {d : Detection} {s : State} (hsrc : d.src = 7) (hcls : d.cls = .u)
    (hopen : s.fenced (uTMB p n.val) = false) (hfree : s.get (uTMB p n.val) Fld.BLK_ERR_CLASS = 0) (hseen : detectedNow s (uTMB p n.val) = []) :
    (fun t => t.fenced (uTMB p n.val) = true ∧ sliceRole t p n.val = 3 ∧
      t.get (uTMB p n.val) Fld.BLK_ERR_CLASS = 2 ∧ t.get (uTMB p n.val) Fld.BLK_ERR_CLASS_SOURCE = 7 ∧
      (∀ sp, sliceRole s p n.val = 0 → spareSlice s p = some sp → sliceRole t p sp = 2 ∧ t.get (uTMB p sp) Fld.TMB_STAT_FOR_POS = n.val))
      (detectFault (uTMB p n.val) d s) := by
  have hblk : Blk.TMB ≠ .FCL := by decide
  rw [detectFault_of_u (unitBlk_TMB p n) hcls, hsrc, react_tmbFail]
  obtain ⟨hclass, hsource⟩ := logOrDead_captured hblk (d := d) (by omega) hfree hseen
  have hlog := logOrDead_get (u := uTMB p n.val) hblk d s
  have hopen' := (logOrDead_fenced (u := uTMB p n.val) hblk d s _).trans hopen
  generalize logOrDead (uTMB p n.val) .TMB d s = logged at *
  have hrole : ∀ m, sliceRole logged p m = sliceRole s p m := fun m => hlog _ (by decide)
  have hspare : spareSlice logged p = spareSlice s p := by simp only [spareSlice, hrole]
  obtain ⟨hfenced, hunusable⟩ := fenceSlice_shuts p n.val (c := 2) hopen'
  refine ⟨hfenced, hunusable, ?_, ?_, fun sp h0 hsp => fenceSlice_standIn p n.val hopen' n.isLt ((hrole _).trans h0) (hspare.trans hsp)⟩
  · rw [fenceSlice_errClass p n.val hopen' (by decide), hclass, hcls]
    rfl
  · rw [fenceSlice_errClass p n.val hopen' (by decide), hsource, hsrc]

theorem tmbFail_fences {p : PlaneId} {n : SliceId} {s : State} (hpow : s.powered (uTMB p n.val) = true)
    (hopen : s.fenced (uTMB p n.val) = false) (hfree : s.get (uTMB p n.val) Fld.BLK_ERR_CLASS = 0) (hseen : detectedNow s (uTMB p n.val) = []) :
    Completes (.tmbFail p n) s (fun t => t.fenced (uTMB p n.val) = true ∧ sliceRole t p n.val = 3 ∧
      t.get (uTMB p n.val) Fld.BLK_ERR_CLASS = 2 ∧ t.get (uTMB p n.val) Fld.BLK_ERR_CLASS_SOURCE = 7 ∧
      (∀ sp, sliceRole s p n.val = 0 → spareSlice s p = some sp → sliceRole t p sp = 2 ∧
        t.get (uTMB p sp) Fld.TMB_STAT_FOR_POS = n.val)) := by
  have hexec : exec (.tmbFail p n) s = execTmbFail p n s := rfl
  exact ⟨_, by rw [hexec, execTmbFail, if_pos ⟨hpow, by simp [hopen]⟩, detect], detectFault_tmbFail rfl rfl hopen hfree hseen⟩

/-! ### The activation of a spare (R158) -/

/-- A spare that stands in becomes ACTIVE in its own position, which is a change of the unit map. -/
theorem spareActivate_active {p : PlaneId} {n : SliceId} {s : State} (hrole : sliceRole s p n.val = 2)
    (hctxs : ctxsOf s p (s.get (uTMB p n.val) Fld.TMB_STAT_FOR_POS) = [])
    (hkey : keyNamesSlice s p (s.get (uTMB p n.val) Fld.TMB_STAT_FOR_POS) = false) :
    Completes (.spareActivate p n) s (fun t => sliceRole t p n.val = 0 ∧ t.get (uTMB p n.val) Fld.TMB_STAT_FOR_POS = n.val ∧
      bit (t.get (pu p .PLN) Fld.PLN_UNIT_SLICE_SLICE_ACT) n.val = true ∧
      t.get (pu p .PLN) Fld.PLN_UNIT_SEQ = (s.get (pu p .PLN) Fld.PLN_UNIT_SEQ + 1) % 2 ^ Fld.PLN_UNIT_SEQ.width) := by
  have hexec : exec (.spareActivate p n) s = execSpareActivate p n s := rfl
  have hn : n.val < 17 := n.isLt
  refine ⟨_, by rw [hexec, execSpareActivate, if_pos ⟨hrole, hctxs, by simp [hkey]⟩], ?_, ?_, ?_, ?_⟩
  · rw [sliceRole, unitChange_get, put_PLN_get, State.get_put_beside (by decide), State.get_put_same _ _ _ _ (by decide), Nat.zero_mod]
  · rw [unitChange_get, put_PLN_get, State.get_put_same _ _ _ _ (by decide)]
    exact Nat.mod_eq_of_lt (show n.val < 2 ^ 5 by omega)
  · rw [unitChange, State.pulseBit_get, State.inc, State.get_put_beside (by decide), State.get_put_same _ _ _ _ (by decide), bit_eq_testBit,
      Nat.testBit_mod_two_pow, Nat.testBit_or, Nat.testBit_two_pow_self, Bool.or_true, Bool.and_true, decide_eq_true_eq]
    exact hn
  · simp (disch := decide) only [unitChange, State.pulseBit_get, State.inc, State.get_put_beside, State.get_put_same, Nat.mod_mod]

/-! ### The capture of an accumulator (R158) -/

theorem regFields_accSel : regFields .TMB Fld.TMB_ACC_SEL_GO.key = [Fld.TMB_ACC_SEL_CTX, Fld.TMB_ACC_SEL_ELEM, Fld.TMB_ACC_SEL_GO] := by decide

/-- What a write of TMB_ACC_SEL shows the slice: GO as written, the context and the element of the write. -/
theorem shownWord_accSel (s : State) (u : Nat) (v : Word) :
    let w := shownWord s u .TMB Fld.TMB_ACC_SEL_GO.key (v ||| Fld.TMB_ACC_SEL_GO.mask)
    w.getLsbD 31 = true ∧ w.toNat % 2 ^ 21 = v.toNat % 2 ^ 21 := by
  have hgo : Fld.TMB_ACC_SEL_GO.mask = 0x80000000#32 := by decide
  have hrw : ∀ locked, accMask (regFields .TMB Fld.TMB_ACC_SEL_GO.key) (fun a => a = .rw || (a = .rwl && !locked)) = 0x1FFFFF#32 := by
    rw [regFields_accSel]
    decide
  have hw1c : accMask (regFields .TMB Fld.TMB_ACC_SEL_GO.key) (fun a => a = .w1c) = 0#32 := by
    rw [regFields_accSel]
    decide
  have hwo : accMask (regFields .TMB Fld.TMB_ACC_SEL_GO.key) (fun a => a = .wo || a = .w1c) = 0x80000000#32 := by
    rw [regFields_accSel]
    decide
  have hlow : BitVec.setWidth 21 (shownWord s u .TMB Fld.TMB_ACC_SEL_GO.key (v ||| Fld.TMB_ACC_SEL_GO.mask)) = BitVec.setWidth 21 v := by
    rw [shownWord, keptWord, mergeWrite, hrw, hw1c, hwo, hgo]
    ext i hi
    interval_cases i <;> simp
  refine ⟨?_, by simpa using congrArg BitVec.toNat hlow⟩
  rw [shownWord, hwo, hgo, BitVec.getLsbD_or, BitVec.getLsbD_and, BitVec.getLsbD_or]
  simp

theorem pageCtx_congr {s t : State} {p : PlaneId} {n : Nat} (hpl : t.pl p = s.pl p)
    (hget : ∀ f : RField, f.key = 0x040 → t.get (uTMB p n) f = s.get (uTMB p n) f) (c : Nat) : pageCtx t p n c = pageCtx s p n c := by
  have hctx : ∀ q, getCtx t p q c = getCtx s p q c := fun q => by rw [getCtx, hpl, getCtx]
  simp only [pageCtx, pagePos, sliceRole, hget Fld.TMB_STAT_ROLE rfl, hget Fld.TMB_STAT_FOR_POS rfl, hctx]

/-- GO captures the selected accumulator and changes no context. -/
theorem tmbEffect_captures {p : PlaneId} {n : Nat} {w v : Word} {s : State} {x : Ctx} (hgo : w.getLsbD 31 = true)
    (hlow : w.toNat % 2 ^ 21 = v.toNat % 2 ^ 21) (hx : pageCtx s p n (v.toNat % 16) = some x) :
    let a := x.acc.getD (v.toNat / 16 % 2 ^ 17) {}
    mget ((tmbEffect p n 0x050 w s).pl p).captures n = some (if x.wide then { a with a := a.w } else a) ∧
      ((tmbEffect p n 0x050 w s).pl p).ctxs = (s.pl p).ctxs := by
  have hctx : w.toNat % 16 = v.toNat % 16 := by omega
  have helem : w.toNat / 16 % 2 ^ 17 = v.toNat / 16 % 2 ^ 17 := by omega
  rw [tmbEffect, if_pos ⟨rfl, hgo⟩, hctx, helem, hx]
  simp only [State.modPl_pl]
  exact ⟨mget_mput_same _ _ _, rfl⟩

/-- An accepted write of TMB_ACC_SEL with GO captures one accumulator of the context of the page. -/
theorem tmbAccSelGo_captures {acc : Accessor} {p : PlaneId} {n : SliceId} {v : Word} {s : State} {x : Ctx}
    (hacc : accepted s acc (uTMB p n.val) Fld.TMB_ACC_SEL_GO.key (v ||| Fld.TMB_ACC_SEL_GO.mask) = true)
    (hx : pageCtx s p n.val (v.toNat % 16) = some x) :
    Completes (.tmbAccSelGo acc p n v) s (fun t => let a := x.acc.getD (v.toNat / 16 % 2 ^ 17) {}
      mget (t.pl p).captures n.val = some (if x.wide then { a with a := a.w } else a) ∧ (t.pl p).ctxs = (s.pl p).ctxs) := by
  have hexec : exec (.tmbAccSelGo acc p n v) s =
      .next (regWrite acc (uTMB p n.val) Fld.TMB_ACC_SEL_GO.key (v ||| Fld.TMB_ACC_SEL_GO.mask) s) := rfl
  have hplain : PlainWrite (arrive acc (uTMB p n.val) s) (uTMB p n.val) .TMB n.val Fld.TMB_ACC_SEL_GO.key (v ||| Fld.TMB_ACC_SEL_GO.mask) :=
    ⟨by decide, lockHit_of_no_rwl (by decide) _ _ _, by
      simp [storeSkips, viewReg, unitPlane_TMB, planeView, tmbRead, RField.key, Fld.TMB_ACC_SEL_GO]⟩
  obtain ⟨was, hw⟩ := regWrite_plane (unitBlk_TMB p n) (unitPlane_TMB p n) (by decide) hacc hplain
  refine ⟨_, hexec, ?_⟩
  obtain ⟨hgo, hlow⟩ := shownWord_accSel (arrive acc (uTMB p n.val) s) (uTMB p n.val) v
  have hpl : (afterStore (arrive acc (uTMB p n.val) s) (uTMB p n.val) .TMB Fld.TMB_ACC_SEL_GO.key (v ||| Fld.TMB_ACC_SEL_GO.mask)).pl p = s.pl p := by
    rw [afterStore_pl, arrive_pl]
  have hpage := pageCtx_congr (n := n.val) hpl (fun f hf => by
    rw [afterStore_get_ne (by rw [hf]; decide) (by rw [hf]; decide), arrive_get _ _ _ (by rw [hf]; decide)]) (v.toNat % 16)
  have heffect := tmbEffect_captures hgo hlow (hpage.trans hx)
  rw [hpl] at heffect
  rw [hw, latchAfter_pl]
  exact heffect

/-- Settles O23: the fence of a failed slice, the activation of a spare, and the capture of an accumulator, each from its rule above. -/
theorem sliceEvents : Obligations.SliceEvents := by
  unfold Obligations.SliceEvents
  exact ⟨fun _ _ _ hpow hopen hfree hseen => tmbFail_fences hpow hopen hfree hseen,
    fun _ _ _ hrole hctxs hkey => spareActivate_active hrole hctxs hkey, fun _ _ _ _ _ _ hacc hx => tmbAccSelGo_captures hacc hx⟩

end Sys2Proof.Machine
end

section
/-! SUPPORT. A slot whose line routes no lane and carries no operation (R97, R98, R101): each part of the slot in its turn does nothing or counts
events, and the statement about it. -/

namespace Sys2Proof.Machine

/-! ### What a slot of an empty line leaves alone -/

/-- The part of a state that neither the events of a slot nor its own bookkeeping touch: the registers, the key banks, the memory, the contexts,
the cells that leave, and what the sync objects are computed from. -/
def slotView (p : PlaneId) (s : State) :
    (Nat → Nat → Word) × List KeyBank × List Host.Cell × SMap Ctx × List SchedOut × SMap Core × Ftm × List SyncUpd × SMap Word :=
  (s.reg, (s.pl p).keys, (s.pl p).mem, (s.pl p).ctxs, (s.pl p).schedOut, syncBasis s p)

theorem slotView_modPl (p : PlaneId) {f : Plane → Plane} (s : State)
    (h : ∀ x, ((f x).keys, (f x).mem, (f x).ctxs, (f x).schedOut, (f x).cores, (f x).ftm, (f x).syncLog, (f x).syncs) =
      (x.keys, x.mem, x.ctxs, x.schedOut, x.cores, x.ftm, x.syncLog, x.syncs)) : slotView p (s.modPl p f) = slotView p s := by
  have hreg : (s.modPl p f).reg = s.reg := by
    funext u off
    exact State.modPl_reg _ _ _ _ _
  rw [slotView, syncBasis, State.modPl_pl_same, hreg, h]
  rfl

theorem slotView_event (p : PlaneId) (s : State) (code inst n : Nat) : slotView p (s.event p code inst n) = slotView p s := by
  unfold State.event
  split
  · rfl
  · exact slotView_modPl p s fun _ => rfl

/-- What follows from the view: a register's field, and a bank. -/
theorem slotView_get {p : PlaneId} {s t : State} (h : slotView p t = slotView p s) (u : Nat) (f : RField) : t.get u f = s.get u f := by
  have hreg : t.reg = s.reg := congrArg Prod.fst h
  rw [State.get, hreg, State.get]

theorem slotView_bank {p : PlaneId} {s t : State} (h : slotView p t = slotView p s) (b : Nat) : bankOfKey t p b = bankOfKey s p b :=
  bankOfKey_congr (congrArg (·.2.1) h) b

/-! ### The parts of a slot of an empty line -/

/-- The pattern of no cell is OPEN on every lane, in and out. -/
theorem inCode_zero (i : Nat) : inCode 0 i = 0 := by simp [inCode, patByte]
theorem outCode_zero (i : Nat) : outCode 0 i = 0 := by simp [outCode, patByte]

theorem presented_none {p : PlaneId} {s : State} (h : (s.pl p).schedIn = []) (lane slot : Nat) : presented s p lane slot = none := by
  rw [presented, h]
  rfl

theorem getCtx_none {p : PlaneId} {s : State} (h : (s.pl p).ctxs = []) (pos c : Nat) : getCtx s p pos c = none := by
  rw [getCtx, h]
  rfl

/-- Pattern 0 without an entry is all OPEN. -/
theorem patEntry_none {p : PlaneId} {s : State} {n : Nat} (h : mget (s.pl p).xpt n = none) : patEntry s p n = 0 := by rw [patEntry, h]

/-- A lane that the pattern leaves open, and on which nothing came. -/
theorem laneIn_open {p : PlaneId} {w : LaneWork} (h : (w.st.pl p).schedIn = []) (b lane : Nat) : laneIn p b 0 w lane = w := by
  rw [laneIn, inCode_zero, outCode_zero, presented_none h]
  rfl

theorem laneFwd_open (p : PlaneId) (held : List (Nat × Option Cell)) (s : State) (lane : Nat) : laneFwd p 0 held s lane = s := by
  rw [laneFwd, outCode_zero]
  rfl

theorem laneOut_open (p : PlaneId) (b : Nat) (s : State) (lane : Nat) : laneOut p b 0 s lane = s := by
  rw [laneOut, outCode_zero]
  rfl

/-- Operations of no kind have no part in a line's first slot, nor after its last one. -/
theorem firstTops_none (p : PlaneId) (b : Nat) (s : State) : firstTops p b (List.replicate 17 0) s = s := rfl
theorem lastTops_none (p : PlaneId) (s : State) : lastTops p (List.replicate 17 0) s = s := rfl

theorem overruns_none {p : PlaneId} {s : State} (h : (s.pl p).ctxs = []) (tops mops : List Nat) (contrib : List (Nat × Nat × Option Cell))
    (pos : Nat) : overruns s p tops mops contrib pos = false := by rw [overruns, getCtx_none h]

theorem laneCycles_none {p : PlaneId} {s : State} (h : (s.pl p).ctxs = []) (tops mops : List Nat) (contrib : List (Nat × Nat × Option Cell))
    (pos : Nat) : laneCycles s p tops mops contrib pos = 0 := by rw [laneCycles, getCtx_none h]

theorem checkGaps_none {p : PlaneId} {b : Nat} {s : State} (h : mapTargets s p (bankOfKey s p b).memMap = []) : checkGaps p b s = s := by
  rw [checkGaps, h]
  rfl

theorem runMop_zero (p : PlaneId) (b : Nat) (s : State) : runMop p b 0 s = s := by
  simp [runMop, bits]

theorem closesDue_none {p : PlaneId} {s : State} (h : (s.pl p).ctxs = []) : closesDue p s = s := by
  rw [closesDue, h]
  rfl

theorem slotView_tdSlot (p : PlaneId) (l : List Nat) (s : State) : slotView p (tdSlot p l s) = slotView p s :=
  foldl_keeps (slotView p) (fun t _ => slotView_event p t _ _ _) _ s

/-- What makes the slot of an empty line empty: no context, no cell of a lane, no memory target that the key schedules, and no entry for
pattern 0. -/
structure Idle (p : PlaneId) (b : Nat) (s : State) : Prop where
  ctxs : (s.pl p).ctxs = []
  schedIn : (s.pl p).schedIn = []
  targets : mapTargets s p (bankOfKey s p b).memMap = []
  pattern : mget (s.pl p).xpt 0 = none

theorem idle_modPl {p : PlaneId} {b : Nat} {s : State} (h : Idle p b s) {f : Plane → Plane}
    (hf : ∀ x, ((f x).ctxs, (f x).schedIn, (f x).keys, (f x).xpt) = (x.ctxs, x.schedIn, x.keys, x.xpt)) : Idle p b (s.modPl p f) := by
  simp only [Prod.mk.injEq] at hf
  obtain ⟨hctxs, hin, hkeys, hxpt⟩ := hf (s.pl p)
  refine ⟨?_, ?_, ?_, ?_⟩
  · rw [State.modPl_pl_same, hctxs, h.ctxs]
  · rw [State.modPl_pl_same, hin, h.schedIn]
  · rw [bankOfKey_congr (s := s) (by rw [State.modPl_pl_same, hkeys])]
    exact h.targets
  · rw [State.modPl_pl_same, hxpt, h.pattern]

theorem idle_event {p : PlaneId} {b : Nat} {s : State} (h : Idle p b s) (code inst n : Nat) : Idle p b (s.event p code inst n) := by
  unfold State.event
  split
  · exact h
  · exact idle_modPl h fun _ => rfl

/-- A change of the bank that keeps its MEM_MAP. -/
theorem idle_modBank {p : PlaneId} {b : Nat} {s : State} (hb : b = 0 ∨ b = 1) (h : Idle p b s) {f : KeyBank → KeyBank}
    (hf : ∀ k, (f k).memMap = k.memMap) : Idle p b (modBank p b f s) := by
  refine ⟨?_, ?_, ?_, ?_⟩
  · rw [modBank, State.modPl_pl_same, h.ctxs]
  · rw [modBank, State.modPl_pl_same, h.schedIn]
  · rw [bankOfKey_modBank hb, hf]
    exact h.targets
  · rw [modBank, State.modPl_pl_same, h.pattern]

/-- The slot of a line that routes no lane and carries no operation, where nothing came and no context is bound. -/
theorem slotView_runSlot {p : PlaneId} {b : Nat} {l : Line} {s : State} (hpat : l.pat = 0) (htops : l.tops = List.replicate 17 0)
    (hmops : l.mops = [0, 0, 0, 0]) (hsops : l.sops = [0, 0, 0]) (hidle : Idle p b s) (first last : Bool) :
    slotView p (runSlot p b l first last s) = slotView p s := by
  have hsync : ¬ (last = true ∧ lineSops l ≠ []) := by simp [lineSops, hsops]
  have hnone : (l.mops.filter (fun m => m % 16 = 4)) = [] := by rw [hmops]; rfl
  have hother : (l.mops.filter (fun m => m % 16 ≠ 4)) = [0, 0, 0, 0] := by rw [hmops]; rfl
  rw [runSlot, hpat, patEntry_none hidle.pattern, htops]
  dsimp only
  -- The pattern is noted; no operation, lane or slice has a part in what comes up to the slices' cycles.
  generalize hs1 : s.modPl p _ = s1
  have hidle1 : Idle p b s1 := hs1 ▸ idle_modPl hidle fun _ => rfl
  have hview1 : slotView p s1 = slotView p s := hs1 ▸ slotView_modPl p s fun _ => rfl
  have hcycles : (List.range 17).foldl (fun s n => s.eventAt p (s.ft p + 19) 0x0A ((serverOf s p n).getD n)
      (laneCycles s p (List.replicate 17 0) l.mops [] n)) s1 = s1 :=
    List.foldl_fixed' (fun n => by rw [laneCycles_none hidle1.ctxs, State.eventAt, if_pos rfl]) _
  rw [firstTops_none, ite_self, List.foldl_fixed' (f := laneIn p b 0) (laneIn_open hidle1.schedIn b)]
  simp only [overruns_none hidle1.ctxs, List.filter_false, List.foldl_nil]
  rw [hcycles]
  -- The cycles are noted; neither a refresh, a gap, a memory operation nor a lane's egress is due.
  generalize hs2 : s1.modPl p _ = s2
  have hidle2 : Idle p b s2 := hs2 ▸ idle_modPl hidle1 fun _ => rfl
  have hview2 : slotView p s2 = slotView p s1 := hs2 ▸ slotView_modPl p s1 fun _ => rfl
  have hcontrib : runContrib p (List.replicate 17 0) [] [] s2 = s2 := rfl
  have hmops2 : List.foldl (fun s m => if m % 16 = 3 then runFeedMop p b (List.replicate 17 0) [] m s else runMop p b m s) s2 [0, 0, 0, 0] = s2 := by
    simp only [List.foldl_cons, List.foldl_nil, runMop_zero, Nat.zero_mod, OfNat.zero_ne_ofNat, if_false]
  rw [hcontrib, hidle2.targets, hnone, hother, List.filter_nil, List.foldl_nil, List.foldl_nil, checkGaps_none hidle2.targets, hmops2,
    List.foldl_fixed' (f := laneFwd p 0 []) (laneFwd_open p [] s2), List.foldl_fixed' (f := laneOut p b 0) (laneOut_open p b s2), lastTops_none,
    ite_self, if_neg hsync]
  -- The lanes' slots are counted, and the slot's cells are past.
  refine (slotView_modPl p _ ?_).trans ((slotView_tdSlot p _ s2).trans (hview2.trans hview1))
  exact fun _ => rfl

/-! ### The lines read ahead (R97) -/

section
variable {p : PlaneId} {s : State} (hmem : memArmed s p = false) (hksq : (s.rp (pu p .KSQ)).corrupt = none)
include hmem hksq

/-- With no injected fault waiting, a line is read without a trace. -/
theorem readAt_state (b : Nat) (read : State → LineAhead) (line : Nat) : (readAt p b read line s).2 = s := by
  have htouch : ∀ a n, memTouchAll p a n s = s := fun a n => by rw [memTouchAll, hmem, if_neg (by decide)]
  have hstrike : strike (pu p .KSQ) 1 s = (false, s) := by simp [strike, hksq]
  simp only [readAt, htouch, hstrike]

theorem readNext_state (b : Nat) (a : LineAhead) : (readNext p b a s).2 = s := by
  rw [readNext]
  split
  · rfl
  · split
    · rfl
    · exact readAt_state hmem hksq b _ _

/-- The slot after the one of this beat and the slot after that stand read. -/
theorem advance_ahead (b : Nat) : ∃ next after, advance p b s = modBank p b (fun k => { k with ahead := [next, after] }) s := by
  rw [advance]
  split
  next next _ _ => exact ⟨next, (readNext p b next s).1, by rw [readNext_state hmem hksq]⟩
  next =>
    have hnext := readNext_state hmem hksq b (reached s p b)
    exact ⟨(readNext p b (reached s p b) s).1, (readNext p b (readNext p b (reached s p b) s).1 s).1, by
      simp only [hnext, readNext_state hmem hksq]⟩

end

/-! ### The slot of an empty line (R98, R101) -/

/-- A bank takes its next slot: the position, the loop and the next slot advance. -/
def slotTaken (r : LineAhead) (k : KeyBank) : KeyBank :=
  { k with line := if r.left = 1 then r.line + 1 else r.line, repLeft := r.left - 1, loopAt := r.loopAt, loopLeft := r.loopLeft,
           nextSlot := k.nextSlot + 20 }

/-- The position that KSQ shows of a bank as its slot begins. -/
def showSlot (p : PlaneId) (b : Nat) (r : LineAhead) (s : State) : State :=
  ((s.put (pu p .KSQ) (Fld.KSQ_B_POS_LINE.at b) r.line).put (pu p .KSQ) (Fld.KSQ_B_LOOP_LOOP_LEFT.at b) r.loopLeft).put (pu p .KSQ)
    (Fld.KSQ_B_LOOP_REP_LEFT.at b) r.left

/-- KEY_SLOT of an empty line shows the position and takes the slot; all else that it changes is bookkeeping. -/
theorem execKeySlot_empty {p : PlaneId} {b : Nat} {s : State} (hslot : slotBank s p = some b) (hdue : dueEnd s p b = none)
    (hidle : Idle p b s) (hmem : memArmed s p = false) (hksq : (s.rp (pu p .KSQ)).corrupt = none)
    (hline : let l := parseLine (reached s p b).data
      l.pat = 0 ∧ l.tops = List.replicate 17 0 ∧ l.mops = [0, 0, 0, 0] ∧ l.sops = [0, 0, 0]) :
    ∃ t next after, exec (.keySlot p) s = .next t ∧ slotView p t = slotView p (modBank p b (slotTaken (reached s p b))
      (modBank p b (fun k => { k with ahead := [next, after] }) (showSlot p b (reached s p b) s))) := by
  have hexec : exec (.keySlot p) s = execKeySlot p s := rfl
  obtain ⟨hpat, htops, hmops, hsops⟩ := hline
  have hb : b = 0 ∨ b = 1 := (bankIn_eq_some (slotBank_bank hslot)).1
  obtain ⟨next, after, hahead⟩ := advance_ahead (p := p) (s := showSlot p b (reached s p b) s) hmem hksq b
  have hshown : Idle p b (showSlot p b (reached s p b) s) := ⟨hidle.ctxs, hidle.schedIn, hidle.targets, hidle.pattern⟩
  have htaken := idle_modBank hb (f := slotTaken (reached s p b))
    (idle_modBank hb (f := fun k => { k with ahead := [next, after] }) hshown fun _ => rfl) fun _ => rfl
  rw [hexec, execKeySlot, hslot]
  dsimp only
  rw [hdue, if_neg (by decide), closesDue_none hidle.ctxs]
  refine ⟨_, next, after, rfl, ?_⟩
  rw [← showSlot, hahead]
  generalize hstate : modBank p b _ (modBank p b _ (showSlot p b (reached s p b) s)) = taken
  have hend : modBank p b (slotTaken (reached s p b)) (modBank p b (fun k => { k with ahead := [next, after] })
      (showSlot p b (reached s p b) s)) = taken := hstate
  rw [hend] at htaken ⊢
  refine (slotView_runSlot hpat htops hmops hsops ?_ _ _).trans ?_
  · split
    · exact idle_event (idle_event htaken _ _ _) _ _ _
    · exact idle_event htaken _ _ _
  · split
    · rw [slotView_event, slotView_event]
    · rw [slotView_event]

theorem slotView_modBank_beside (p : PlaneId) (b : Nat) (f : KeyBank → KeyBank) (s : State) :
    (slotView p (modBank p b f s)).2.2 = (slotView p s).2.2 := by
  rw [slotView, slotView, syncBasis, syncBasis, modBank, State.modPl_pl_same]

theorem showSlot_line {b : Nat} (hb : b = 0 ∨ b = 1) (p : PlaneId) (r : LineAhead) (s : State) :
    (showSlot p b r s).get (pu p .KSQ) (Fld.KSQ_B_POS_LINE.at b) = r.line % 2 ^ 18 := by
  obtain rfl | rfl := hb <;> simp (disch := decide) only [showSlot, State.get_put_beside, State.get_put_same] <;> rfl

/-- Settles O21: what the statement reads of the state after the slot is what the view shows once the slot is taken. -/
theorem keySlotOfAnEmptyLine : Obligations.KeySlotOfAnEmptyLine := by
  unfold Obligations.KeySlotOfAnEmptyLine
  intro p b s hslot hdue hctx hin htgt hmem hksq hline hxpt
  have hb : b = 0 ∨ b = 1 := (bankIn_eq_some (slotBank_bank hslot)).1
  have hnow : (bankOfKey s p b).nextSlot = s.ft p := by
    obtain ⟨a, ha, hat⟩ := Option.bind_eq_some_iff.mp hslot
    split_ifs at hat with hft
    exact Option.some.inj hat ▸ hft
  obtain ⟨t, next, after, hexec, hview⟩ := execKeySlot_empty hslot hdue ⟨hctx, hin, htgt, hxpt⟩ hmem hksq hline
  have hbank : bankOfKey t p b = slotTaken (reached s p b) { bankOfKey s p b with ahead := [next, after] } := by
    rw [slotView_bank hview, bankOfKey_modBank hb, bankOfKey_modBank hb]
    rfl
  have hpos : t.get (pu p .KSQ) (Fld.KSQ_B_POS_LINE.at b) = (reached s p b).line % 2 ^ 18 := by
    rw [slotView_get hview, modBank, State.modPl_get, modBank, State.modPl_get, showSlot_line hb]
  have hbeside : (slotView p t).2.2 = (slotView p s).2.2 := by
    rw [hview, slotView_modBank_beside, slotView_modBank_beside]
    rfl
  simp only [slotView, Prod.mk.injEq] at hbeside
  obtain ⟨hmemory, hctxs, hout, hsync⟩ := hbeside
  have hft : t.ft p = s.ft p := congrArg (·.2.1.ft) hsync
  refine ⟨t, hexec, ?_⟩
  dsimp only
  rw [hbank, hpos, hctxs]
  exact ⟨by rw [slotTaken, hnow], rfl, rfl, rfl, rfl, rfl, hft, hmemory, hctx, hout, syncVal_congr hsync⟩

end Sys2Proof.Machine
end

section
/-! SUPPORT. Contexts and chunks as they are looked up (R159 to R184): what an update of one gives back, what a settled chunk keeps, and the
registers that no update of them touches. -/

namespace Sys2Proof.Machine

/-! ### Lookups -/

theorem getCtx_setCtx (p : PlaneId) (pos c : Nat) (x : Ctx) (s : State) : getCtx (setCtx p pos c x s) p pos c = some x := by
  rw [getCtx, setCtx, State.modPl_pl_same, mget_mput_same]

theorem getCtx_congr {s t : State} {p : PlaneId} (h : (t.pl p).ctxs = (s.pl p).ctxs) (pos c : Nat) : getCtx t p pos c = getCtx s p pos c := by
  rw [getCtx, h, getCtx]

/-- An update of the plane beside its contexts. -/
theorem getCtx_modPl (p : PlaneId) (s : State) (pos c : Nat) {g : Plane → Plane} (h : ∀ x, (g x).ctxs = x.ctxs) :
    getCtx (s.modPl p g) p pos c = getCtx s p pos c := getCtx_congr (by rw [State.modPl_pl_same, h]) pos c

theorem getCtx_event (p : PlaneId) (s : State) (code inst n pos c : Nat) : getCtx (s.event p code inst n) p pos c = getCtx s p pos c := by
  unfold State.event
  split
  · rfl
  · exact getCtx_modPl p s pos c fun _ => rfl

theorem getCtx_sealSample (p : PlaneId) (pos' : Nat) (k : Chunk) (st : ChunkState) (s : State) (pos c : Nat) :
    getCtx (sealSample p pos' k st s) p pos c = getCtx s p pos c := by
  simp only [sealSample, State.sample]
  split
  · exact getCtx_modPl p s pos c fun _ => rfl
  · rfl

theorem report_planes (u src : Nat) (cls : FaultClass) (wh detail : Nat) (s : State) : (report u src cls wh detail s).planes = s.planes := by
  unfold report
  split
  · exact (logDetection_frame _ _ _ s).1
  · rfl

theorem modCtx_of_getCtx {s : State} {p : PlaneId} {pos c : Nat} {x : Ctx} (h : getCtx s p pos c = some x) (f : Ctx → Ctx) :
    modCtx p pos c f s = setCtx p pos c (f x) s := by rw [modCtx, h]

/-- A change that keeps the numbers of a context's chunks is found under the same number. -/
theorem Ctx.chunk_modChunk {x : Ctx} {n : Nat} {k : Chunk} (hk : x.chunk n = some k) {f : Chunk → Chunk} (hnum : ∀ k, (f k).num = k.num) :
    (x.modChunk n f).chunk n = some (f k) := by
  have hkey : (fun k => decide (k.num = n)) ∘ (fun k => if k.num = n then f k else k) = fun k => decide (k.num = n) := by
    funext k
    by_cases h : k.num = n <;> simp [h, hnum]
  have hn : k.num = n := by simpa [Ctx.chunk] using List.find?_some hk
  rw [Ctx.chunk, Ctx.modChunk, List.find?_map, hkey, ← Ctx.chunk, hk, Option.map_some, if_pos hn]

/-- The FILLING chunk is known by its number. -/
theorem Ctx.chunk_of_filling {x : Ctx} {k : Chunk} (h : x.filling = some k) : ∃ k₀, x.chunk k.num = some k₀ :=
  Option.isSome_iff_exists.mp (List.find?_isSome.mpr ⟨k, List.mem_of_find?_eq_some h, by simp⟩)

section
variable {s : State} {p : PlaneId} {pos c n : Nat} {k : Chunk} (hk : (getCtx s p pos c).bind (·.chunk n) = some k) {f : Chunk → Chunk}
include hk

theorem modChunk_chunk (hnum : ∀ k, (f k).num = k.num) : (getCtx (modChunk p pos c n f s) p pos c).bind (·.chunk n) = some (f k) := by
  obtain ⟨x, hx, hxk⟩ := Option.bind_eq_some_iff.mp hk
  rw [modChunk, modCtx_of_getCtx hx, getCtx_setCtx, Option.bind_some, Ctx.chunk_modChunk hxk hnum]

theorem endChunk_chunk (hnum : ∀ k, (f k).num = k.num) : (getCtx (endChunk p pos c n f s) p pos c).bind (·.chunk n) = some (f k) := by
  rw [endChunk, hk]
  dsimp only
  rw [getCtx_sealSample, modChunk_chunk hk hnum]

end

/-! ### Registers -/

@[simp] theorem event_regs (s : State) (p : PlaneId) (code inst n : Nat) : (s.event p code inst n).regs = s.regs := by
  unfold State.event
  split <;> rfl

@[simp] theorem modCtx_regs (p : PlaneId) (pos c : Nat) (f : Ctx → Ctx) (s : State) : (modCtx p pos c f s).regs = s.regs := by
  unfold modCtx
  split <;> rfl

@[simp] theorem modChunk_regs (p : PlaneId) (pos c n : Nat) (f : Chunk → Chunk) (s : State) : (modChunk p pos c n f s).regs = s.regs :=
  modCtx_regs p pos c _ s

@[simp] theorem sealSample_regs (p : PlaneId) (pos : Nat) (k : Chunk) (st : ChunkState) (s : State) : (sealSample p pos k st s).regs = s.regs := by
  simp only [sealSample]
  split <;> rfl

@[simp] theorem endChunk_regs (p : PlaneId) (pos c n : Nat) (f : Chunk → Chunk) (s : State) : (endChunk p pos c n f s).regs = s.regs := by
  unfold endChunk
  split
  · simp
  · rfl

/-! ### Settled chunks (Table 6.2, R166) -/

/-- A chunk that is not marked for release only takes the state that its seals give it. -/
theorem Chunk.settle_unmarked {k : Chunk} (h : k.marked = false) : k.settle = if k.held then { k with st := k.stateOf } else k := by
  simp [Chunk.settle, Chunk.mayRelease, h]

@[simp] theorem Chunk.settle_num (k : Chunk) : k.settle.num = k.num := by
  simp only [Chunk.settle]
  split
  · split <;> rfl
  · rfl

/-! ### Injected faults (R417) -/

/-- No fault of the source waits at the unit. -/
theorem strike_miss {u src : Nat} {s : State} (h : (s.rp u).corrupt ≠ some src) : strike u src s = (false, s) := if_neg h

end Sys2Proof.Machine
end

section
/-! SUPPORT. What keeps a plane's memory and its outstanding feeds: every operation on chunks, copies, keys and fences that a fault of a memory
controller can lead to, and the reads of memory (R212, R263). -/

namespace Sys2Proof.Machine

/-- The bytes of a plane's memory and its outstanding feeds. -/
def stored (p : PlaneId) (s : State) : List Host.Cell × List Feed' := ((s.pl p).mem, (s.pl p).feeds)

theorem stored_of_planes {p : PlaneId} {s t : State} (h : t.planes = s.planes) : stored p t = stored p s := by
  simp only [stored, State.pl, h]

@[simp] theorem stored_ite (p : PlaneId) (c : Prop) [Decidable c] (s t : State) :
    stored p (if c then s else t) = if c then stored p s else stored p t := apply_ite _ _ _ _

@[simp] theorem stored_foldl {α : Type} (p : PlaneId) {f : State → α → State} (h : ∀ t x, stored p (f t x) = stored p t) (l : List α)
    (s : State) : stored p (l.foldl f s) = stored p s := foldl_keeps (stored p) h l s

section
variable (p : PlaneId) (s : State)

/-! ### The state's own operations -/

@[simp] theorem stored_put (u : Nat) (f : RField) (v : Nat) : stored p (s.put u f v) = stored p s := stored_of_planes rfl
@[simp] theorem stored_put64 (u : Nat) (f g : RField) (v : Nat) : stored p (s.put64 u f g v) = stored p s := stored_of_planes rfl
@[simp] theorem stored_inc (u : Nat) (f : RField) (n : Nat) : stored p (s.inc u f n) = stored p s := stored_of_planes rfl
@[simp] theorem stored_incSat (u : Nat) (f : RField) (n : Nat) : stored p (s.incSat u f n) = stored p s := stored_of_planes rfl
@[simp] theorem stored_pulseBit (u n : Nat) : stored p (s.pulseBit u n) = stored p s := stored_of_planes rfl
@[simp] theorem stored_modRp (u : Nat) (g : Reporter → Reporter) : stored p (s.modRp u g) = stored p s := stored_of_planes rfl

/-- A change of the plane beside its memory and its feeds. -/
@[simp] theorem stored_modPl {g : Plane → Plane} (hmem : ∀ x, (g x).mem = x.mem) (hfeeds : ∀ x, (g x).feeds = x.feeds) :
    stored p (s.modPl p g) = stored p s := by simp [stored, hmem, hfeeds]

@[simp] theorem stored_event (code inst n : Nat) : stored p (s.event p code inst n) = stored p s := by simp [State.event]
@[simp] theorem stored_logDetection (u : Nat) (b : Blk) (d : Detection) : stored p (logDetection u b d s) = stored p s :=
  stored_of_planes (logDetection_frame u b d s).1
@[simp] theorem stored_report (u src : Nat) (cls : FaultClass) (wh detail : Nat) : stored p (report u src cls wh detail s) = stored p s :=
  stored_of_planes (report_planes u src cls wh detail s)

/-! ### Chunks and copies (R162 to R181) -/

@[simp] theorem stored_setCtx (pos c : Nat) (x : Ctx) : stored p (setCtx p pos c x s) = stored p s := by simp [setCtx]
@[simp] theorem stored_modCtx (pos c : Nat) (f : Ctx → Ctx) : stored p (modCtx p pos c f s) = stored p s := by
  unfold modCtx
  split
  · exact stored_setCtx p s _ _ _
  · rfl
@[simp] theorem stored_modChunk (pos c n : Nat) (f : Chunk → Chunk) : stored p (modChunk p pos c n f s) = stored p s := stored_modCtx p s _ _ _
@[simp] theorem stored_modColl (g q : Nat) (f : Coll → Coll) : stored p (modColl p g q f s) = stored p s := by simp [modColl]
@[simp] theorem stored_modCore (n : Nat) (f : Core → Core) : stored p (modCore p n f s) = stored p s := by simp [modCore, setCore]

@[simp] theorem stored_sealSample (pos : Nat) (k : Chunk) (st : ChunkState) : stored p (sealSample p pos k st s) = stored p s := by
  simp [sealSample, State.sample]

@[simp] theorem stored_endChunk (pos c n : Nat) (f : Chunk → Chunk) : stored p (endChunk p pos c n f s) = stored p s := by
  unfold endChunk
  split
  · simp
  · rfl

@[simp] theorem stored_sealOne (pos c n : Nat) (d : CopyDst) : stored p (sealOne p pos c n d s).2 = stored p s := by
  unfold sealOne
  split
  · rfl
  · split
    · rfl
    · split
      · rfl
      · cases d <;> simp

@[simp] theorem stored_issueSeal (pos c ep : Nat) (r : Option Cell × State) : stored p (issueSeal p pos c ep r) = stored p r.2 := by
  unfold issueSeal issueFrame
  split <;> simp

@[simp] theorem stored_finalOnly (pos c n : Nat) (d : CopyDst) : stored p (finalOnly p pos c n d s) = stored p s := by
  cases d <;> simp [finalOnly, queueRepair]

@[simp] theorem stored_failChunk (pos c n reason : Nat) (extra : List CopyDst) : stored p (failChunk p pos c n reason extra s) = stored p s := by
  simp [failChunk]

@[simp] theorem stored_abortKeyChunks (b : Nat) : stored p (abortKeyChunks p b s) = stored p s := by
  refine stored_foldl p (fun t w => ?_) _ s
  simp only
  split
  · rfl
  · simp

@[simp] theorem stored_endReleased (pos c n : Nat) : stored p (endReleased p pos c n s) = stored p s := by
  unfold endReleased
  split
  · simp
  · rfl

@[simp] theorem stored_sealCopy (pos c n : Nat) (d : CopyDst) : stored p (sealCopy p pos c n d s).2 = stored p s := by simp [sealCopy]

@[simp] theorem stored_strike (u src : Nat) : stored p (strike u src s).2 = stored p s := by
  unfold strike
  split
  · exact stored_modRp p s _ _
  · rfl

@[simp] theorem stored_spoil (pos c midx : Nat) : stored p (spoil p pos c midx s) = stored p s := stored_modCtx p s _ _ _

@[simp] theorem stored_acceptCell (pos c midx no : Nat) (d : Payload) : stored p (acceptCell p pos c midx no d s) = stored p s := by
  unfold acceptCell
  split
  · rfl
  · split
    · rfl
    · simp

/-! ### The fences of memory controllers (R254, R404) -/

@[simp] theorem stored_closeHasp (u c : Nat) : stored p (closeHasp u c s) = stored p s := by simp [closeHasp]
@[simp] theorem stored_unitChange : stored p (unitChange p s) = stored p s := by simp [unitChange]

@[simp] theorem stored_endKey (b : Nat) (c : KeyEnd) : stored p (endKey p b c s) = stored p s := by
  simp [endKey, dropOrphans, setBankSt, modBank, syncPln, setPlnState]

@[simp] theorem stored_fenceKey : stored p (fenceKey p s) = stored p s := by
  unfold fenceKey
  split
  · simp
  · split <;> simp

@[simp] theorem stored_fencePlane (c : Nat) : stored p (fencePlane p c s) = stored p s := by
  simp [fencePlane, endRunningKey, haltCore, setCoreSt, setPlnState]

@[simp] theorem stored_fenceChannel (n c : Nat) : stored p (fenceChannel p n c s) = stored p s := by simp [fenceChannel, logFault]

/-! ### Faults that a memory finds (R263 to R265) -/

@[simp] theorem stored_markPoison (addr : Nat) : stored p (markPoison p addr s) = stored p s := by simp [markPoison]

end

/-- The units that control plane memory: the scratchpad's block, the channels' and the N-tier's. -/
def ControlsMemory (p : PlaneId) (u : Nat) : Prop := u = pu p .SPM ∨ ∃ t : Fin 7, u = tgtUnit p t.val

theorem spm_blk : ∀ p : PlaneId, unitBlk (pu p .SPM) = some (.SPM, 0) ∧ planeBlk (pu p .SPM % 256) = some (.SPM, 0) := by decide

theorem tgtUnit_blk : ∀ (p : PlaneId) (t : Fin 7), unitPlane (tgtUnit p t.val) = some p ∧
    unitBlk (tgtUnit p t.val) = some (if t = 6 then (.NMC, 0) else (.FMC, t.val)) ∧
    planeBlk (tgtUnit p t.val % 256) = some (if t = 6 then (.NMC, 0) else (.FMC, t.val)) := by decide

theorem ControlsMemory.blk {p : PlaneId} {u : Nat} (hu : ControlsMemory p u) : unitPlane u = some p ∧
    ∃ b n, unitBlk u = some (b, n) ∧ planeBlk (u % 256) = some (b, n) ∧ (b = .SPM ∨ b = .NMC ∨ b = .FMC) := by
  obtain rfl | ⟨t, rfl⟩ := hu
  · obtain ⟨hunit, hcode⟩ := spm_blk p
    exact ⟨unitPlane_pu p .SPM, _, _, hunit, hcode, .inl rfl⟩
  · obtain ⟨hplane, hunit, hcode⟩ := tgtUnit_blk p t
    split_ifs at hunit hcode
    · exact ⟨hplane, _, _, hunit, hcode, .inr (.inl rfl)⟩
    · exact ⟨hplane, _, _, hunit, hcode, .inr (.inr rfl)⟩

theorem formedUnits_lt {s : State} {p : PlaneId} {c : Nat} (hc : c ∈ formedUnits s p) : c < 6 := by
  simp only [formedUnits, formedChans] at hc
  split at hc
  · simp only [List.mem_filter, List.mem_cons, List.not_mem_nil, or_false] at hc
    omega
  · exact List.mem_range.mp (List.mem_filter.mp hc).1

theorem targetOf_lt {s : State} {p : PlaneId} {addr t : Nat} (ht : targetOf s p addr = some t) : t < 7 := by
  obtain ⟨x, hx, rfl⟩ := Option.map_eq_some_iff.mp ht
  simp only [placeOf] at hx
  split_ifs at hx with hn hf hnone
  · cases hx
    exact Nat.lt_succ_self 6
  · cases hx
    have hlt := Nat.mod_lt ((addr - baseF) / 256) (List.length_pos_iff.mpr hnone)
    have hmem := formedUnits_lt (List.getElem_mem hlt)
    simp only [List.getD_eq_getElem _ _ hlt]
    omega

/-- The controller of an address (Table 9.2). -/
theorem controlsMemory_poisonUnit (s : State) (p : PlaneId) (addr : Nat) : ControlsMemory p (poisonUnit s p addr) := by
  unfold poisonUnit
  split
  · exact .inr ⟨6, rfl⟩
  · next c hne hc => exact .inr ⟨⟨c, targetOf_lt hc⟩, (if_neg hne).symm⟩
  · exact .inl rfl

section
variable {p : PlaneId} {u : Nat} (hu : ControlsMemory p u) (s : State)
include hu

/-- The fence unit of a memory controller is a channel or the plane. -/
theorem stored_fenceUnit (c : Nat) : stored p (fenceUnit u c s) = stored p s := by
  obtain ⟨hplane, b, n, -, hb, hblk⟩ := hu.blk
  obtain rfl | rfl | rfl := hblk <;> simp [fenceUnit, hplane, fencePlaneUnit, hb]

/-- A memory controller that finds a bad granule poisons it, and fences its own unit where the fault escalates (R265, R399). -/
theorem stored_detect {src : Nat} (hsrc : src = 1 ∨ src = 2) (cls : FaultClass) (wh detail : Nat) :
    stored p (detect u src cls wh detail s) = stored p s := by
  obtain ⟨hplane, b, n, hb, -, hblk⟩ := hu.blk
  have hlog : ∀ d, stored p (logOrDead u b d s) = stored p s := fun d => by
    simp [logOrDead, unitBlk_ne_fcl hplane hb]
  have hreact : ∀ t, stored p (react u b src cls wh detail t) = stored p t := fun t => by
    obtain rfl | rfl | rfl := hblk <;> obtain rfl | rfl := hsrc <;> simp [react, hplane, poisonWhere]
  simp [detect, detectFault, hb, stored_fenceUnit hu, hreact, hlog]

end

/-! ### Reads of memory (R263) -/

section
variable (p : PlaneId) (s : State)

@[simp] theorem stored_afterUse (addr : Nat) : stored p (afterUse p addr s) = stored p s := by
  have hend : ∀ (t : State) (g chunk : Nat), stored p (endAfterUse p g chunk t) = stored p t := fun t g chunk => by
    unfold endAfterUse
    split <;> simp
  simp [afterUse, hend]

@[simp] theorem stored_corrected (addr : Nat) : stored p (corrected p addr s) = stored p s := by
  simp [corrected, stored_detect (controlsMemory_poisonUnit s p addr)]

@[simp] theorem stored_memTouch (addr : Nat) : stored p (memTouch p addr s) = stored p s := by
  cases hsrc : (s.rp (poisonUnit s p addr)).corrupt <;> simp [memTouch, hsrc, stored_detect (controlsMemory_poisonUnit s p addr)]

@[simp] theorem stored_memTouchAll (addr n : Nat) : stored p (memTouchAll p addr n s) = stored p s := by simp [memTouchAll]

@[simp] theorem stored_countReads (addr n : Nat) : stored p (countReads p addr n s) = stored p s := by
  refine stored_foldl p (fun t i => ?_) _ s
  split <;> simp

end

/-! ### Feeds (R212) -/

/-- A feed reads its cells, and accumulates or spoils them. -/
theorem runFeed_keeps {α : Type} (g : State → α) {p : PlaneId} {f : Feed'} (hread : ∀ t a, g (countReads p a 256 (memTouchAll p a 256 t)) = g t)
    (hspoil : ∀ t, g (spoil p f.pos f.ctx f.midx t) = g t) (haccept : ∀ t i d, g (acceptCell p f.pos f.ctx f.midx i d t) = g t) (s : State) :
    g (runFeed p f s).2 = g s := by
  unfold runFeed
  split
  · rfl
  · refine List.foldlRecOn (motive := fun r : Bool × State => g r.2 = g s) _ _ rfl fun r hr i _ => ?_
    dsimp only
    split
    · exact hr
    · split
      · exact (hspoil _).trans ((hread _ _).trans hr)
      · split
        · exact (hspoil _).trans ((hread _ _).trans hr)
        · exact (haccept _ _ _).trans ((hread _ _).trans hr)

theorem stored_runFeed (p : PlaneId) (f : Feed') (s : State) : stored p (runFeed p f s).2 = stored p s :=
  runFeed_keeps (stored p) (fun t a => by simp) (fun t => by simp) (fun t i d => by simp) s

theorem aside_runFeed (p : PlaneId) (f : Feed') (s : State) : aside p (runFeed p f s).2 = aside p s :=
  runFeed_keeps (aside p) (fun t a => by simp) (fun t => by simp [spoil]) (fun t i d => by simp) s

end Sys2Proof.Machine
end

section
/-! SUPPORT. The closing of a chunk (R162, R164, R176, R181, R213), the end of a feed (R212), and the statement about them. -/

namespace Sys2Proof.Machine

/-! ### CHUNK_CLOSE_BEGIN -/

/-- A closing scales and rounds the accumulators into the retained result, where no injected fault strikes the slice. -/
theorem closeBegin_closes {s : State} {p : PlaneId} {pos c : Nat} {x : Ctx} {k : Chunk} (hx : getCtx s p pos c = some x)
    (hk : x.filling = some k) (hmiss : (s.rp (posUnit s p pos)).corrupt ≠ some 2) :
    (∃ k', (getCtx (closeBegin p pos c s) p pos c).bind (·.chunk k.num) = some k' ∧ k'.st = .closing ∧
      k'.result = (x.closeOut k.num x.acc).1 ∧ k'.status = (x.closeOut k.num x.acc).2 ∧ k'.rcrc = resultCrc (x.closeOut k.num x.acc).1) ∧
    (closeBegin p pos c s).regs = s.regs ∧ ∀ q, q ≠ p → (closeBegin p pos c s).pl q = s.pl q := by
  obtain ⟨k₀, hk₀⟩ := Ctx.chunk_of_filling hk
  have hstate : ∃ f : Chunk → Chunk, (∀ k, (f k).num = k.num) ∧
      closeBegin p pos c s = setCtx p pos c { x.modChunk k.num f with lastStatus := (x.closeOut k.num x.acc).2 } s ∧
      ∀ k', (f k').st = .closing ∧ (f k').result = (x.closeOut k.num x.acc).1 ∧ (f k').status = (x.closeOut k.num x.acc).2 ∧
        (f k').rcrc = resultCrc (x.closeOut k.num x.acc).1 := by
    refine ⟨_, ?_, by simp only [closeBegin, hx, hk, strike_miss hmiss]; rfl, ?_⟩
    · exact fun _ => rfl
    · exact fun _ => ⟨rfl, rfl, rfl, rfl⟩
  obtain ⟨f, hnum, hstate, hf⟩ := hstate
  rw [hstate, getCtx_setCtx]
  exact ⟨⟨f k₀, Ctx.chunk_modChunk hk₀ hnum, hf k₀⟩, rfl, (aside_eq_iff.mp (aside_setCtx p s _ _ _)).1⟩

/-! ### CHUNK_CLOSE_END -/

/-- A chunk as the end of its closing leaves it, before its seals give it its state: its failure, the reason of a NEGATIVE seal, the ports that
its copies are due at, and the beat of it. -/
def Chunk.closed (f neg : Nat) (due : List Nat) (now : Nat) (k : Chunk) : Chunk :=
  { k with st := .sending, fail := f, neg := neg, expect := due, recompNeed := if neg ≠ 0 ∧ f = 0 then some now else none }

theorem releaseCopies_none {s : State} {p : PlaneId} {pos c n : Nat} {k : Chunk} (hk : (getCtx s p pos c).bind (·.chunk n) = some k)
    (hnone : k.copies = []) : releaseCopies p pos c n s = s := by
  simp [releaseCopies, hk, hnone, sendEndpoints]

section
variable {k : Chunk} (hmarked : k.marked = false) (hcopies : k.copies = []) (f neg : Nat) (due : List Nat) (now : Nat)
include hmarked hcopies

/-- A chunk without copies takes its state from its failure and its recompute (Table 6.2). -/
theorem Chunk.settle_closed : (k.closed f neg due now).settle = { k.closed f neg due now with
    st := if f ≠ 0 then .failed else if (k.closed f neg due now).recomputing then .repair else .sending } := by
  rw [Chunk.settle_unmarked (k := k.closed f neg due now) hmarked]
  simp [Chunk.closed, Chunk.held, Chunk.stateOf, hcopies]

end

/-- The chunk that the end of a closing leaves, where no copy was asked for and the collective is not aborted; registers change only where a
member lacks a cell. -/
theorem closeEnd_settles {s : State} {p : PlaneId} {pos c n : Nat} {x : Ctx} {k : Chunk} (hx : getCtx s p pos c = some x)
    (hk : x.chunk n = some k) (hlive : ctxAborted s p x = false) (hover : k.overD = false) (hfail : k.fail = 0) (hcopies : k.copies = [])
    (hmarked : k.marked = false) : ∃ due,
    (getCtx (closeEnd p pos c n s) p pos c).bind (·.chunk n) =
      some (k.closed (if x.incomplete k then 5 else 0) (if k.takeover then 3 else k.neg) due (s.beats p)).settle ∧
    (x.incomplete k = false → (closeEnd p pos c n s).regs = s.regs) := by
  have hf : (if ctxAborted s p x then 7 else if k.fail ≠ 0 then k.fail else if x.incomplete k then 5 else if k.overD then 8 else 0) =
      if x.incomplete k then 5 else 0 := by simp [hlive, hover, hfail]
  -- A member's missing cell is reported before the chunk ends.
  obtain ⟨r, hr⟩ : ∃ r, r = if (if x.incomplete k then 5 else 0) = 5 ∧ k.fail = 0 then report (posUnit s p pos) 5 .u n c s else s :=
    ⟨_, rfl⟩
  have hplanes : r.planes = s.planes := by
    rw [hr, apply_ite State.planes, report_planes, ite_self]
  have hpl : r.pl p = s.pl p := congrArg (·.get p) hplanes
  have hkr : (getCtx r p pos c).bind (·.chunk n) = some k := by rw [getCtx_congr (congrArg Plane.ctxs hpl), hx, Option.bind_some, hk]
  have hbeats : r.beats p = s.beats p := congrArg (·.ftm.beats) hpl
  generalize hg : (fun k' : Chunk => (k'.closed (if x.incomplete k then 5 else 0) (if k.takeover then 3 else k.neg) (portsDue r p pos k none)
    (r.beats p)).settle) = g
  have hend := endChunk_chunk hkr (f := g) (fun _ => by subst hg; exact Chunk.settle_num _)
  have hstate : closeEnd p pos c n s = releaseCopies p pos c n ((endChunk p pos c n g r).event p 0x0B
      (posUnit (endChunk p pos c n g r) p pos % 256 - 0x20) 1) := by
    subst hg
    simp only [closeEnd, hx, hk, hf, ← hr]
    rfl
  have hnone : (g k).copies = [] := by
    subst hg
    dsimp only
    rw [Chunk.settle_closed hmarked hcopies]
    exact hcopies
  rw [releaseCopies_none (by rw [getCtx_event, hend]) hnone] at hstate
  refine ⟨portsDue r p pos k none, ?_, fun hwhole => ?_⟩
  · rw [hstate, getCtx_event, hend, ← hg, hbeats]
  · rw [hstate, event_regs, endChunk_regs, hr, hwhole]
    rfl

theorem chunkCloseEnd_exec {p : PlaneId} {pos : SliceId} {c : Fin 16} {x : Ctx} {n : Nat} {s : State}
    (hx : getCtx s p pos.val c.val = some x) (hover : closeOver s x p = some n) :
    exec (.chunkCloseEnd p pos c) s = .next (closeEnd p pos.val c.val n s) := by
  show execChunkCloseEnd p pos c s = _
  simp only [execChunkCloseEnd, hx, hover]

/-- Settles O24: a closing that begins or ends goes by the two lemmas above, a feed that ends by what its cells keep. -/
theorem chunkCloses : Obligations.ChunkCloses := by
  unfold Obligations.ChunkCloses
  refine ⟨?begin, ?sent, ?repaired, ?idle, ?fed⟩
  case begin =>
    intro p pos c x k s hx hk hdue hmiss
    have hexec : exec (.chunkCloseBegin p pos c) s = execChunkCloseBegin p pos c s := rfl
    obtain ⟨⟨k', hk', hst, hres, hstatus, hrcrc⟩, hregs, hplanes⟩ := closeBegin_closes hx hk hmiss
    exact ⟨_, by rw [hexec, execChunkCloseBegin, hx, Option.bind_some, hk]; exact if_pos hdue, k', hk', hst, hres, hstatus, hrcrc, hregs, hplanes⟩
  case sent =>
    intro p pos c x n k s hx hover hk hlive _ hfits hfail hcopies hmarked htake hneg hrecomp
    obtain ⟨due, hk', hregs⟩ := closeEnd_settles hx hk hlive hfits hfail hcopies hmarked
    refine ⟨_, chunkCloseEnd_exec hx hover, _, hk', ?_⟩
    rw [Chunk.settle_closed hmarked hcopies]
    refine ⟨?_, rfl, rfl, hregs⟩
    cases hwhole : x.incomplete k <;> simp [Chunk.closed, Chunk.recomputing, htake, hneg, hrecomp]
  case repaired =>
    intro p pos c x n k s hx hover hk hlive _ hfits hfail hcopies hmarked hwhole hbad
    obtain ⟨due, hk', -⟩ := closeEnd_settles hx hk hlive hfits hfail hcopies hmarked
    have hneg : (if k.takeover then 3 else k.neg) ≠ 0 := by
      split
      · decide
      · next htake => exact hbad.resolve_left htake
    refine ⟨_, chunkCloseEnd_exec hx hover, _, hk', ?_⟩
    rw [Chunk.settle_closed hmarked hcopies]
    simp [Chunk.closed, Chunk.recomputing, hwhole, hneg]
  case idle =>
    intro p pos c s hnone
    exact ⟨s, by show execChunkCloseBegin p pos c s = _; rw [execChunkCloseBegin, hnone], rfl⟩
  case fed =>
    intro p pos c f s hf
    have hexec : exec (.feedDone p pos c) s = execFeedDone p pos c s := rfl
    obtain ⟨t, ht, hstored, haside⟩ : ∃ t, execFeedDone p pos c s = .next t ∧
        stored p t = stored p ((runFeed p f s).2.modPl p (fun x => { x with feeds := x.feeds.erase f })) ∧
        aside p t = aside p (runFeed p f s).2 := by
      rw [execFeedDone, hf]
      exact ⟨_, rfl, by simp, by simp⟩
    have hrun := stored_runFeed p f s
    simp only [stored, State.modPl_pl_same, Prod.mk.injEq] at hstored hrun
    obtain ⟨hmem, hfeeds⟩ := hstored
    refine ⟨t, hexec.trans ht, ?_, (aside_eq_iff.mp (haside.trans (aside_runFeed p f s))).2.1, hmem.trans hrun.1⟩
    rw [hfeeds, hrun.2]

end Sys2Proof.Machine
end

section
/-! SUPPORT. Contribution frames (R161, R167), recomputes (R177), repair deliveries (R178, R179) and copies to memory (R180), and the statement
about them. -/

namespace Sys2Proof.Machine

/-! ### CONTRIB_FRAME -/

/-- Each data cell of a frame stands with its own TAG: no cell's granule is another's. -/
theorem stageTags_get (a : Nat) (data : List (BitVec 64 × Payload)) (m : SMap Nat) {i : Nat} {d : BitVec 64 × Payload} (hd : data[i]? = some d)
    (z : Nat) : mgetD (data.zipIdx.foldl (fun m e => mput m (a + 256 * (e.2 + 1)) e.1.1.toNat) m) (a + 256 * (i + 1)) z = d.1.toNat := by
  induction data using List.reverseRecOn with
  | nil => cases hd
  | append_singleton r e ih =>
    simp only [List.zipIdx_append, List.foldl_append, List.zipIdx_singleton, List.foldl_cons, List.foldl_nil, Nat.zero_add]
    by_cases hi : i = r.length
    · subst hi
      rw [List.getElem?_concat_length, Option.some.injEq] at hd
      rw [mgetD_mput_same, hd]
    · have hlt : i < r.length := by
        have := (List.getElem?_eq_some_iff.mp hd).1
        simp only [List.length_append, List.length_singleton] at this
        omega
      rw [List.getElem?_append_left hlt] at hd
      rw [mgetD_mput_ne _ _ _ (by omega), ih hd]

/-- A frame that its head cell vouches for is written to open staging. -/
theorem contribFrame_staged {p : PlaneId} {ep : Fin 65536} {a : BitVec 48} {c : BitVec 64 × Payload} {data : List (BitVec 64 × Payload)} {x : Ctx}
    {s : State} (halign : a.toNat % 256 = 0) (hopen : inPart s p .open_ a.toNat (256 * (data.length + 1)) = true)
    (hbound : boundFor s p (headCell c.2).group (headCell c.2).cseq = some x)
    (hmember : ∃ e, member s p (headCell c.2).group (headCell c.2).midx = some e ∧ entKind e = 0 ∧ entAddr e = ep.val)
    (hres : (headCell c.2).reserved = 0) (hcells : (headCell c.2).cells = x.chunkCells) (hlen : data.length = (headCell c.2).cells) :
    execContribFrame p ep a (c :: data) s = .next ((memWrite p a.toNat ((c :: data).flatMap (fun c => payloadBytes c.2)) s).modPl p (fun x => { x with
      stageTags := data.zipIdx.foldl (fun m e => mput m (a.toNat + 256 * (e.2 + 1)) e.1.1.toNat) x.stageTags })) := by
  obtain ⟨e, he, hkind, haddr⟩ := hmember
  have hlen' : 256 * (c :: data).length = 256 * (data.length + 1) := rfl
  simp only [execContribFrame, hlen', halign, hopen, hbound, he, hkind, haddr, hres, hcells]
  simp [hlen, hcells]

/-- A frame of a collective that is not bound is discarded and counted. -/
theorem contribFrame_discarded {p : PlaneId} {ep : Fin 65536} {a : BitVec 48} {c : BitVec 64 × Payload} {data : List (BitVec 64 × Payload)}
    {s : State} (halign : a.toNat % 256 = 0) (hopen : inPart s p .open_ a.toNat (256 * (data.length + 1)) = true)
    (hbound : boundFor s p (headCell c.2).group (headCell c.2).cseq = none) :
    execContribFrame p ep a (c :: data) s = .next (discardGroup p s) := by
  have hlen' : 256 * (c :: data).length = 256 * (data.length + 1) := rfl
  simp only [execContribFrame, hlen', halign, hopen, hbound]
  rfl

/-! ### Recomputes (R177) -/

/-- The first waiting recompute of an idle engine starts. -/
theorem recomputeStart_first {p : PlaneId} {pos : SliceId} {c : Fin 16} {n : Nat} {w : Nat × Nat × Nat × Nat} {s : State}
    (hfirst : let e := engineOf s p pos.val
      let mine := (waiting s p).filter (fun w => engineOf s p w.2.1 = e)
      mine.find? (fun w => w.2 = (pos.val, c.val, n)) = some w ∧ engineBusy s p e = false ∧ mine.any (fun v => before v w) = false) :
    execRecomputeStart p pos c n s =
      .next (modChunk p pos.val c.val n (fun k => { k with recompOn := some (s.beats p, engineOf s p pos.val) }) s) := by
  obtain ⟨hw, hidle, hleast⟩ := hfirst
  simp only [execRecomputeStart, hw, hidle, hleast, Bool.false_eq_true, or_self, if_false]

/-- A recompute that ends, with no fault in what it reads, replaces the result and its RCRC. -/
theorem recomputeDone_replaces {p : PlaneId} {pos : SliceId} {c : Fin 16} {n e t₀ : Nat} {x : Ctx} {k : Chunk} {s : State}
    (hx : getCtx s p pos.val c.val = some x) (hk : x.chunk n = some k) (hon : k.recompOn = some (t₀, e))
    (hover : t₀ + recompBeats s p x k ≤ s.beats p) (hspm : (s.rp (pu p .SPM)).corrupt ≠ some 2) (htmb : (s.rp (uTMB p e)).corrupt ≠ some 2)
    (hclean : poisonedAt s p (retInputs s p pos.val c.val x n) (256 * (x.m * x.chunkCells)) = false) (hmarked : k.marked = false) :
    Completes (.recomputeDone p pos c n) s (fun t => ∃ k', (getCtx t p pos.val c.val).bind (·.chunk n) = some k' ∧
      k'.result = (x.closeOut n (x.rebuild k)).1 ∧ k'.rcrc = resultCrc (x.closeOut n (x.rebuild k)).1 ∧ k'.recompOn = none ∧
      k'.recompNeed = none ∧ t.regs = s.regs) := by
  have hexec : exec (.recomputeDone p pos c n) s = execRecomputeDone p pos c n s := rfl
  have hstate : ∃ (g : Chunk → Chunk) (s₂ : State), s₂.regs = s.regs ∧ (∀ k, (g k).marked = k.marked ∧ (g k).num = k.num) ∧
      ((g k).result = (x.closeOut n (x.rebuild k)).1 ∧ (g k).rcrc = resultCrc (x.closeOut n (x.rebuild k)).1 ∧ (g k).recompOn = none ∧
        (g k).recompNeed = none) ∧
      execRecomputeDone p pos c n s = .next (setCtx p pos.val c.val
        ({ x with lastStatus := (x.closeOut n (x.rebuild k)).2 }.modChunk n (fun k => (g k).settle)) s₂) := by
    simp only [execRecomputeDone, hx, hk, hon, if_neg (Nat.not_lt.mpr hover), strike_miss hspm, strike_miss htmb, hclean,
      Bool.false_eq_true, if_false]
    refine ⟨_, _, ?_, ?_, ?_, rfl⟩
    · rw [State.modPl_regs, event_regs]
    · exact fun _ => ⟨rfl, rfl⟩
    · exact ⟨rfl, rfl, rfl, rfl⟩
  obtain ⟨g, s₂, hregs, hg, hnew, hstate⟩ := hstate
  have hchunk : ({ x with lastStatus := (x.closeOut n (x.rebuild k)).2 } : Ctx).chunk n = some k := hk
  refine ⟨_, hexec.trans hstate, (g k).settle, ?_, ?_⟩
  · rw [getCtx_setCtx, Option.bind_some, Ctx.chunk_modChunk hchunk fun k => (Chunk.settle_num _).trans (hg k).2]
  · rw [Chunk.settle_unmarked ((hg k).1.trans hmarked)]
    obtain ⟨hres, hrcrc, hoff, hneed⟩ := hnew
    split <;> exact ⟨hres, hrcrc, hoff, hneed, hregs⟩

/-! ### Repair deliveries (R178, R179) -/

theorem modCtx_repairs (p : PlaneId) (pos c : Nat) (f : Ctx → Ctx) (s : State) : ((modCtx p pos c f s).pl p).repairs = (s.pl p).repairs := by
  unfold modCtx
  split
  · rw [setCtx, State.modPl_pl_same]
  · rfl

theorem queueRepair_repairs (p : PlaneId) (port : Nat) (r : RepairRef) (s : State) :
    mgetD ((queueRepair p port r s).pl p).repairs port [] = mgetD (s.pl p).repairs port [] ++ [r] := by
  rw [queueRepair, State.modPl_pl_same, mgetD_mput_same]

theorem getCtx_queueRepair (p : PlaneId) (port : Nat) (r : RepairRef) (s : State) (pos c : Nat) :
    getCtx (queueRepair p port r s) p pos c = getCtx s p pos c := getCtx_modPl p s pos c fun _ => rfl

/-- The next attempt of a port's copy stands in the port's repair queue. -/
theorem startDelivery_port {p : PlaneId} {pos c n q : Nat} {k : Chunk} {s : State} (hk : (getCtx s p pos c).bind (·.chunk n) = some k) :
    (getCtx (startDelivery p pos c n (.port q) s) p pos c).bind (·.chunk n) = some (k.modCopy (.port q) Copy.again) ∧
    mgetD ((startDelivery p pos c n (.port q) s).pl p).repairs q [] =
      mgetD (s.pl p).repairs q [] ++ [{ pos := pos, ctx := c, chunk := n, dst := .port q }] := by
  constructor
  · rw [startDelivery, getCtx_queueRepair]
    exact modChunk_chunk hk fun _ => rfl
  · rw [startDelivery, queueRepair_repairs, modChunk, modCtx_repairs]

/-- A request for a chunk no longer held is answered with one seal frame to the member (R178). -/
theorem answerReleased_frame (p : PlaneId) (x : Ctx) (n ep : Nat) (s : State) :
    ∃ f, ((answerReleased p x n ep s).pl p).unitFrames = (s.pl p).unitFrames ++ [f] ∧ f.cls = 3 ∧ f.dests = [ep] := by
  rw [answerReleased, issueFrame, State.modPl_pl_same]
  exact ⟨_, rfl, rfl, rfl⟩

/-! ### CSTORE_WRITE_DONE (R180) -/

section
variable (p : PlaneId) (s : State)

@[simp] theorem aside_strike (u src : Nat) : aside p (strike u src s).2 = aside p s := by
  unfold strike
  split
  · exact aside_modRp p s _ _
  · rfl

@[simp] theorem aside_readResult (pos c n : Nat) : aside p (readResult p pos c n s).2 = aside p s := by
  unfold readResult
  split
  · rfl
  · split
    · rfl
    · simp only
      split <;> simp [aside_detect (unitPlane_pu p .SPM)]

@[simp] theorem aside_endReleased (pos c n : Nat) : aside p (endReleased p pos c n s) = aside p s := by
  unfold endReleased
  split
  · simp
  · rfl

@[simp] theorem aside_sealCopy (pos c n : Nat) (d : CopyDst) : aside p (sealCopy p pos c n d s).2 = aside p s := by simp [sealCopy]

end

/-- A copy to memory that is written: the memory is as its write leaves it, whatever the readback and the seal find. -/
theorem cstoreWriteDone_written {p : PlaneId} {pos : SliceId} {c : Fin 16} {n : Nat} {a : BitVec 48} {x : Ctx} {k : Chunk} {y : Copy} {s : State}
    (hx : getCtx s p pos.val c.val = some x) (hk : x.chunk n = some k) (hy : k.copies.find? (fun y => (match y.dst with
      | .mem m _ => m = a.toNat
      | _ => false) && (y.kind = 0 || y.queued)) = some y)
    (hheld : k.held = true) (hfail : k.fail = 0) (hlive : ctxAborted s p x = false) (hrest : k.recomputing = false) :
    ∃ t, execCstoreWriteDone p pos c n a s = .next t ∧
      stored p t = stored p (memStore p a.toNat (k.result.flatMap payloadBytes) (readResult p pos.val c.val n s).2).2 ∧ aside p t = aside p s := by
  have hgo : ¬ (¬ k.held = true ∨ k.fail ≠ 0 ∨ ctxAborted s p x = true ∨ k.recomputing = true) := by simp [hheld, hfail, hlive, hrest]
  unfold execCstoreWriteDone
  rw [hx]
  dsimp only
  rw [hk]
  dsimp only
  split
  · next h => cases h.symm.trans hy
  · rw [if_neg hgo]
    rw [← apply_ite Host.Outcome.next]
    refine ⟨_, rfl, ?_, ?_⟩ <;> simp

/-- Settles O25: each clause is the lemma of its command above. -/
theorem chunkRepairs : Obligations.ChunkRepairs := by
  unfold Obligations.ChunkRepairs
  refine ⟨?staged, ?discarded, ?starts, ?replaced, ?delivery, ?limit, ?request, ?written⟩
  case staged =>
    intro p ep a c data x s halign hopen hbound hmember hres hcells hlen
    have hexec : exec (.contribFrame p ep a (c :: data)) s = execContribFrame p ep a (c :: data) s := rfl
    refine ⟨_, hexec.trans (contribFrame_staged halign hopen hbound hmember hres hcells hlen), ?_⟩
    dsimp only
    rw [State.modPl_pl_same]
    refine ⟨rfl, rfl, rfl, fun q hq => ?_, fun i d hd z => stageTags_get _ data _ hd z⟩
    rw [State.modPl_pl_ne _ _ hq.symm]
    exact (aside_eq_iff.mp (aside_memWrite p s _ _)).1 q hq
  case discarded =>
    intro p ep a c data s halign hopen hbound
    have hexec : exec (.contribFrame p ep a (c :: data)) s = execContribFrame p ep a (c :: data) s := rfl
    exact ⟨_, hexec.trans (contribFrame_discarded halign hopen hbound), rfl, incSat_get s _ _ (by decide)⟩
  case starts =>
    intro p pos c n w x s hfirst hx hsome
    have hexec : exec (.recomputeStart p pos c n) s = execRecomputeStart p pos c n s := rfl
    obtain ⟨k, hk⟩ := Option.isSome_iff_exists.mp hsome
    have hat : (getCtx s p pos.val c.val).bind (·.chunk n) = some k := by rw [hx, Option.bind_some, hk]
    exact ⟨_, hexec.trans (recomputeStart_first hfirst), _, modChunk_chunk hat fun _ => rfl, rfl, modChunk_regs ..⟩
  case replaced =>
    intro p pos c n e t₀ x k s hx hk hon hover hspm htmb hclean hmarked
    exact recomputeDone_replaces hx hk hon hover hspm htmb hclean hmarked
  case delivery =>
    intro p pos c n q w x k s hw hfirst hx hk
    have hat : (getCtx s p pos.val c.val).bind (·.chunk n) = some k := by rw [hx, Option.bind_some, hk]
    have hexec : exec (.repairDelivery p pos c n (.port q.val)) s = .next (startDelivery p pos.val c.val n (.port q.val) s) := by
      show execRepairDelivery p pos c n _ s = _
      simp only [execRepairDelivery, hw, hfirst, Bool.false_eq_true, if_false]
    obtain ⟨hk', hqueue⟩ := startDelivery_port (q := q.val) hat
    exact ⟨_, hexec, _, hk', rfl, hqueue⟩
  case limit =>
    intro p pos c n t₀ q k y s hk hy hneg hlate hheld
    have hexec : exec (.repairLimit p pos c n (.port q.val)) s =
        .next (finalOnly p pos.val c.val n (.port q.val) (dropRepair p pos.val c.val n (.port q.val) s)) := by
      show execRepairLimit p pos c n _ s = _
      simp only [execRepairLimit, hk, hy, hneg]
      exact if_pos ⟨hlate, hheld⟩
    refine ⟨_, hexec, ?_⟩
    dsimp only
    rw [finalOnly, queueRepair_repairs, List.getLast?_concat]
  case request =>
    intro p g cseq n m s hnone
    have hexec : exec (.repairRequest p g cseq n m) s = execRepairRequest p g cseq n m s := rfl
    obtain ⟨x, hx⟩ : ∃ x, execRepairRequest p g cseq n m s = .next (answerReleased p x n (memberEntry s p g.val m % 65536) s) := by
      unfold execRepairRequest
      dsimp only
      rw [hnone]
      exact ⟨_, rfl⟩
    obtain ⟨f, hf, hcls, hdests⟩ := answerReleased_frame p x n (memberEntry s p g.val m % 65536) s
    exact ⟨_, hexec.trans hx, f, hf, hcls, hdests, rfl⟩
  case written =>
    intro p pos c n a x k y s hx hk hy hheld hfail hlive hrest
    have hexec : exec (.cstoreWriteDone p pos c n a) s = execCstoreWriteDone p pos c n a s := rfl
    obtain ⟨t, ht, hstored, haside⟩ := cstoreWriteDone_written hx hk hy hheld hfail hlive hrest
    exact ⟨t, hexec.trans ht, congrArg Prod.fst hstored, (aside_eq_iff.mp haside).2.1⟩

end Sys2Proof.Machine
end

section
/-! SUPPORT. Collective cores as they are looked up (R185, R190): what an update of one gives back, what it leaves of every other core and of
the state beside them, and how an instruction that can issue is carried out (R186, R198, R221). -/

namespace Sys2Proof.Machine

/-! ### Lookups -/

section
variable (p : PlaneId) (s : State)

@[simp] theorem coreOf_setCore_same (n : Nat) (c : Core) : coreOf (setCore p n c s) p n = c := by
  rw [coreOf, setCore, State.modPl_pl_same, mgetD_mput_same]

@[simp] theorem coreOf_modCore_same (n : Nat) (f : Core → Core) : coreOf (modCore p n f s) p n = f (coreOf s p n) :=
  coreOf_setCore_same p s n _

/-- An update of the plane beside its cores. -/
@[simp] theorem coreOf_modPl (n : Nat) {g : Plane → Plane} (h : ∀ x, (g x).cores = x.cores) : coreOf (s.modPl p g) p n = coreOf s p n := by
  rw [coreOf, State.modPl_pl_same, h, coreOf]

@[simp] theorem coreOf_put (n u : Nat) (f : RField) (v : Nat) : coreOf (s.put u f v) p n = coreOf s p n := rfl
@[simp] theorem coreOf_setReg (n u off : Nat) (w : Word) : coreOf (s.setReg u off w) p n = coreOf s p n := rfl
@[simp] theorem coreOf_inc (n u : Nat) (f : RField) (k : Nat) : coreOf (s.inc u f k) p n = coreOf s p n := rfl
@[simp] theorem coreOf_incSat (n u : Nat) (f : RField) (k : Nat) : coreOf (s.incSat u f k) p n = coreOf s p n := rfl
@[simp] theorem coreOf_setCoreSt (q : PlaneId) (n m v : Nat) : coreOf (setCoreSt q m v s) p n = coreOf s p n := rfl

@[simp] theorem coreOf_event (n code inst k : Nat) : coreOf (s.event p code inst k) p n = coreOf s p n := by
  unfold State.event
  split
  · rfl
  · exact coreOf_modPl p s n fun _ => rfl

@[simp] theorem coreOf_coreEvent (n core code cyc k : Nat) : coreOf (s.coreEvent p core code cyc k) p n = coreOf s p n := by
  unfold State.coreEvent
  split
  · rfl
  · exact coreOf_modPl p s n fun _ => rfl

@[simp] theorem coreOf_sample (n point sel v : Nat) : coreOf (s.sample p point sel v) p n = coreOf s p n := coreOf_modPl p s n fun _ => rfl

end

/-- The state of a core is held in its registers alone. -/
theorem coreSt_modPl (s : State) (q p : PlaneId) (g : Plane → Plane) (n : Nat) : coreSt (s.modPl q g) p n = coreSt s p n := State.modPl_get ..

theorem coreSt_setCoreSt (p : PlaneId) (n v : Nat) (s : State) : coreSt (setCoreSt p n v s) p n = v % 8 := State.get_put_same _ _ _ _ rfl

/-! ### What stands beside one core -/

/-- Removing a key forgets what was stored there. -/
theorem mdel_mput {α : Type} (m : SMap α) (k : Nat) (v : α) : mdel (mput m k v) k = mdel m k := by
  induction m with
  | nil => simp [mput, mdel]
  | cons e r ih =>
    obtain ⟨j, w⟩ := e
    unfold mput
    split
    · simp [mdel]
    · split
      · next h => subst h; simp [mdel]
      · simp only [mdel, List.filter_cons] at ih ⊢
        rw [ih]

/-- A plane without one core and without what the PMU has recorded there. -/
def Plane.besideCore (n : Nat) (x : Plane) : Plane := { x with cores := mdel x.cores n, events := [], coreEvents := [], samples := [] }

/-- A state without one core, what the PMU has recorded in the core's plane, and the counter of free values: what an instruction of the core
that has no effect outside it leaves as it was. -/
def besideCore (p : PlaneId) (n : Nat) (s : State) : State := { s.modPl p (Plane.besideCore n) with fresh := 0 }

theorem besideCore_pl_same (p : PlaneId) (n : Nat) (s : State) : (besideCore p n s).pl p = (s.pl p).besideCore n := State.modPl_pl_same s p _
theorem besideCore_pl_ne {p q : PlaneId} (hq : q ≠ p) (n : Nat) (s : State) : (besideCore p n s).pl q = s.pl q :=
  State.modPl_pl_ne s _ (Ne.symm hq)

section
variable (p : PlaneId) (n : Nat) (s : State)

/-- An update of the plane in the core and in what the PMU records. -/
theorem besideCore_modPl {g : Plane → Plane} (h : ∀ x, (g x).besideCore n = x.besideCore n) : besideCore p n (s.modPl p g) = besideCore p n s := by
  have hset : ∀ a b : Plane, (s.planes.set p a).set p b = s.planes.set p b := fun a b => by fin_cases p <;> rfl
  simp only [besideCore, State.modPl, Quad.get_set_same, hset, h]

@[simp] theorem besideCore_modCore (f : Core → Core) : besideCore p n (modCore p n f s) = besideCore p n s :=
  besideCore_modPl p n s fun x => by simp only [Plane.besideCore, mdel_mput]

@[simp] theorem besideCore_event (code inst k : Nat) : besideCore p n (s.event p code inst k) = besideCore p n s := by
  unfold State.event
  split
  · rfl
  · exact besideCore_modPl p n s fun _ => rfl

@[simp] theorem besideCore_coreEvent (core code cyc k : Nat) : besideCore p n (s.coreEvent p core code cyc k) = besideCore p n s := by
  unfold State.coreEvent
  split
  · rfl
  · exact besideCore_modPl p n s fun _ => rfl

@[simp] theorem besideCore_sample (point sel v : Nat) : besideCore p n (s.sample p point sel v) = besideCore p n s :=
  besideCore_modPl p n s fun _ => rfl

@[simp] theorem besideCore_takeFree : besideCore p n s.takeFree.2 = besideCore p n s := rfl

end

section
variable {p : PlaneId} {n : Nat} {s t : State} (h : besideCore p n t = besideCore p n s)
include h

/-- What of the plane is neither a core nor what the PMU records. -/
theorem plane_of_besideCore {α : Type} (g : Plane → α) (hg : ∀ x, g (x.besideCore n) = g x) : g (t.pl p) = g (s.pl p) := by
  rw [← hg, ← besideCore_pl_same, h, besideCore_pl_same, hg]

theorem regs_of_besideCore : t.regs = s.regs := (congrArg State.regs h :)
theorem hubs_of_besideCore : t.hubs = s.hubs := (congrArg State.hubs h :)
theorem rp_of_besideCore (u : Nat) : t.rp u = s.rp u := (congrArg (State.rp · u) h :)

/-- Every register is as it was. -/
theorem get_of_besideCore (u : Nat) (f : RField) : t.get u f = s.get u f := by
  have hsource : SameSource s t := ⟨(congrArg State.cfg h :), (congrArg State.ident h :), (congrArg State.fitted h :), fun k => by rw [State.hub, hubs_of_besideCore h, State.hub]⟩
  rw [State.get, State.reg_congr (regs_of_besideCore h) hsource, State.get]

theorem coreSt_of_besideCore (m : Nat) : coreSt t p m = coreSt s p m := get_of_besideCore h _ _

/-- Every other core is as it was. -/
theorem coreOf_of_besideCore {m : Nat} (hm : m ≠ n) : coreOf t p m = coreOf s p m := by
  have hcores := plane_of_besideCore h (fun x => mdel x.cores n) fun x => by simp [Plane.besideCore, mdel]
  have hget : ∀ r : State, coreOf r p m = mgetD (mdel (r.pl p).cores n) m {} := fun r => by
    rw [coreOf, mgetD, mgetD, mget_mdel, if_neg (Ne.symm hm)]
  rw [hget, hget, hcores]

/-- Every other plane is as it was. -/
theorem pl_of_besideCore {q : PlaneId} (hq : q ≠ p) : t.pl q = s.pl q := by
  rw [← besideCore_pl_ne hq n t, h, besideCore_pl_ne hq n s]

theorem ft_of_besideCore : t.ft p = s.ft p := plane_of_besideCore h (fun x => x.ftm.ft) fun _ => rfl

end

/-- What stands beside a core covers all that an instruction of it may not touch. -/
theorem onlyCore_of_besideCore {p : PlaneId} {n : CoreId} {s t : State} (h : besideCore p n.val t = besideCore p n.val s) : onlyCore s t p n :=
  ⟨regs_of_besideCore h, plane_of_besideCore h Plane.mem fun _ => rfl, plane_of_besideCore h Plane.syncs fun _ => rfl,
    plane_of_besideCore h Plane.ctxs fun _ => rfl, plane_of_besideCore h Plane.groups fun _ => rfl,
    plane_of_besideCore h Plane.keys fun _ => rfl, plane_of_besideCore h Plane.unitFrames fun _ => rfl, ft_of_besideCore h,
    fun _ hm => coreOf_of_besideCore h fun e => hm (Fin.ext e), fun _ hq => pl_of_besideCore h hq, hubs_of_besideCore h,
    (congrArg State.mbx h :)⟩

/-! ### Issue -/

/-- The instruction that issues at a core. -/
def issued (s : State) (p : PlaneId) (n : CoreId) : Issue :=
  { w := wordAt s p n, pc := (coreOf s p n.val).pc, cyc := issueCyc s p n, a := rs1Of s p n, b := rs2Of s p n
    c := (coreOf s p n.val).reg (insRs3 (wordAt s p n)) }

section
variable (s : State) (p : PlaneId) (n : CoreId)

@[simp] theorem issued_w : (issued s p n).w = wordAt s p n := rfl
@[simp] theorem issued_pc : (issued s p n).pc = (coreOf s p n.val).pc := rfl
@[simp] theorem issued_cyc : (issued s p n).cyc = issueCyc s p n := rfl
@[simp] theorem issued_a : (issued s p n).a = rs1Of s p n := rfl
@[simp] theorem issued_b : (issued s p n).b = rs2Of s p n := rfl

end

/-- No error of the core's local store waits to strike a read. -/
def lsClean (s : State) (p : PlaneId) (n : Nat) : Prop := (s.rp (uCCX p n)).corrupt = none

/-- No soft reset of the core's block is in progress. -/
def notBusy (s : State) (p : PlaneId) (n : Nat) : Prop := s.on (uCCX p n) Fld.BLK_STAT_RST_BUSY = false

theorem lsStrike_clean {s : State} {p : PlaneId} {n : Nat} (h : lsClean s p n) (a k : Nat) : lsStrike p n a k s = (0, s) := by
  rw [lsStrike]
  dsimp only
  rw [h]

theorem lsLoad_clean {s : State} {p : PlaneId} {n : Nat} (h : lsClean s p n) (a k : Nat) (f : List Byte → State → Eff) :
    lsLoad p n a k s f = f (lsRead s p n a k) s := by
  rw [lsLoad, lsStrike_clean h]
  rfl

section
variable {s : State} {p : PlaneId} {n : CoreId} {row : CoreRow} (h : canIssue s p n row = true)
include h

/-- What the issue of an instruction asks of the core and of its turns so far. -/
theorem canIssue_facts : coreSt s p n.val = 1 ∧ fetchOk (coreOf s p n.val).pc.toNat = true ∧ rowOf (wordAt s p n) = row ∧
    cycleBeat (cyclesPerSlot s p) (issueCyc s p n) ≤ s.ft p ∧ irqFirst (coreOf s p n.val) (issueCyc s p n) = false ∧
    lsClean (atIssue s p n) p n.val ∧ coreSt (atIssue s p n) p n.val = 1 ∧ notBusy (atIssue s p n) p n.val := by
  simpa [canIssue, lsClean, notBusy, and_assoc] using h

theorem canIssue_row : rowOf (wordAt s p n) = row := (canIssue_facts h).2.2.1
theorem canIssue_clean : lsClean (atIssue s p n) p n.val := (canIssue_facts h).2.2.2.2.2.1
theorem canIssue_runs : coreSt (atIssue s p n) p n.val = 1 := (canIssue_facts h).2.2.2.2.2.2.1
theorem canIssue_notBusy : notBusy (atIssue s p n) p n.val := (canIssue_facts h).2.2.2.2.2.2.2

/-- An instruction that can issue has its effect in the state in which it issues. -/
theorem issue_of_canIssue (f : Issue → State → Eff) :
    issue p n.val row f s = applyEff p n.val row (issued s p n) (f (issued s p n) (atIssue s p n)) := by
  obtain ⟨hrun, hfetch, hrow, hcycle, hirq, hclean, hstill, -⟩ := canIssue_facts h
  have hw : BitVec.ofNat 32 (ofBytes (lsRead s p n.val (coreOf s p n.val).pc.toNat 4)) = wordAt s p n := rfl
  have hcyc : issueAt (coreOf s p n.val) (wordAt s p n) = issueCyc s p n := rfl
  have hnot : ¬ (coreSt s p n.val ≠ 1 ∨ s.ft p < cycleBeat (cyclesPerSlot s p) (issueCyc s p n) ∨
      irqFirst (coreOf s p n.val) (issueCyc s p n) = true) := by simp [hrun, hirq, hcycle]
  unfold issue
  simp only [hfetch, if_true, hw, hcyc, if_neg hnot, not_true_eq_false, if_false, hrow, ne_eq]
  rw [show runXfers p n.val (issueCyc s p n - 1) s = atIssue s p n from rfl, lsStrike_clean hclean]
  simp only [hstill, not_true_eq_false, if_false]
  rfl

end

end Sys2Proof.Machine
end

section
/-! SUPPORT. What an instruction of a collective core does at its issue (R185, R186, R196, R198, R221): one rule per kind of effect, with what
each leaves of the core's registers. -/

namespace Sys2Proof.Machine

/-! ### Retirement -/

/-- A core whose instruction has retired in a cycle. -/
def Core.stepped (cyc : Nat) (pc : Dword) (ready ft : Nat) (c : Core) : Core :=
  { c with acct := cyc + 1, pc := pc, ready := ready, retired := ft, csr := mput c.csr 0xB02 (mgetD c.csr 0xB02 0 + 1) }

/-- A core that has taken a value for x rd, which can be used from a cycle on. -/
def Core.takeX (rd : Nat) (v : Dword) (at' : Nat) (c : Core) : Core :=
  if rd = 0 then c else { (dropLateX rd c).setX rd v with xr := mput c.xr rd at' }

/-- A core that has taken a vector. -/
def Core.takeW (rd : Nat) (v : Vec) (at' : Nat) (c : Core) : Core := { (dropLateW rd c).setW rd v with wr := mput c.wr rd at' }

/-- A core that waits for an operation to give x rd, or for one that gives none. -/
def Core.defer (o : CoreOp) (at' : Nat) (c : Core) : Core :=
  let c := if o.rd = 0 then c else dropLateX o.rd c
  { c with ops := c.ops ++ [o], xr := if o.rd = 0 then c.xr else mput c.xr o.rd at' }

/-- A core that waits for an SPLD to give a vector. -/
def Core.deferW (o : CoreOp) (at' : Nat) (c : Core) : Core :=
  let c := dropLateW o.rd c
  { c with ops := c.ops ++ [o], wr := mput c.wr o.rd at' }

section
variable (cyc : Nat) (pc : Dword) (ready ft : Nat) (c : Core)

@[simp] theorem Core.stepped_pc : (c.stepped cyc pc ready ft).pc = pc := rfl
@[simp] theorem Core.stepped_x : (c.stepped cyc pc ready ft).x = c.x := rfl
@[simp] theorem Core.stepped_w : (c.stepped cyc pc ready ft).w = c.w := rfl
@[simp] theorem Core.stepped_ls : (c.stepped cyc pc ready ft).ls = c.ls := rfl
@[simp] theorem Core.stepped_xfers : (c.stepped cyc pc ready ft).xfers = c.xfers := rfl
@[simp] theorem Core.stepped_ops : (c.stepped cyc pc ready ft).ops = c.ops := rfl

/-- minstret counts the instruction; every other CSR stays. -/
theorem Core.stepped_csr {k : Nat} (hk : k ≠ 0xB02) : mgetD (c.stepped cyc pc ready ft).csr k 0 = mgetD c.csr k 0 :=
  mgetD_mput_ne _ _ _ (Ne.symm hk)

end

section
variable (rd : Nat) (v : Dword) (u : Vec) (at' : Nat) (o : CoreOp) (c : Core)

@[simp] theorem Core.takeX_x : (c.takeX rd v at').x = (c.setX rd v).x := by
  unfold takeX Core.setX
  split <;> rfl

@[simp] theorem Core.takeX_ls : (c.takeX rd v at').ls = c.ls := by
  unfold takeX Core.setX
  split <;> rfl

@[simp] theorem Core.takeX_csr : (c.takeX rd v at').csr = c.csr := by
  unfold takeX Core.setX
  split <;> rfl

@[simp] theorem Core.takeX_xfers : (c.takeX rd v at').xfers = c.xfers := by
  unfold takeX Core.setX
  split <;> rfl

@[simp] theorem Core.takeW_x : (c.takeW rd u at').x = c.x := rfl
@[simp] theorem Core.takeW_w : (c.takeW rd u at').w = mput c.w rd u := rfl
@[simp] theorem Core.takeW_ls : (c.takeW rd u at').ls = c.ls := rfl
@[simp] theorem Core.takeW_csr : (c.takeW rd u at').csr = c.csr := rfl

@[simp] theorem Core.defer_x : (c.defer o at').x = c.x := by
  unfold defer
  split <;> rfl

theorem Core.defer_ops : (c.defer o at').ops.getLast? = some o := by rw [defer, List.getLast?_concat]

@[simp] theorem Core.deferW_x : (c.deferW o at').x = c.x := rfl
theorem Core.deferW_ops : (c.deferW o at').ops.getLast? = some o := by rw [deferW, List.getLast?_concat]

end

section
variable (p : PlaneId) (n cyc : Nat) (s : State)

@[simp] theorem besideCore_account (cat : Nat) : besideCore p n (account p n cyc cat s) = besideCore p n s := by simp [account]

theorem coreOf_account (cat : Nat) : coreOf (account p n cyc cat s) p n = { coreOf s p n with acct := cyc + 1 } := by simp [account]

@[simp] theorem besideCore_retire (row : CoreRow) (pc : Dword) (ready : Nat) : besideCore p n (retire p n cyc row pc ready s) = besideCore p n s := by
  simp only [retire, besideCore_modCore]
  split <;> simp

theorem coreOf_retire (row : CoreRow) (pc : Dword) (ready : Nat) :
    ∃ ft, coreOf (retire p n cyc row pc ready s) p n = (coreOf s p n).stepped cyc pc ready ft := by
  have hcount : coreOf (if extRow row then (account p n cyc 0x100 (s.coreEvent p n 0x41 cyc 1)).coreEvent p n 0x42 cyc 1 else
      account p n cyc 0x100 (s.coreEvent p n 0x41 cyc 1)) p n = { coreOf s p n with acct := cyc + 1 } := by
    split <;> simp [coreOf_account]
  unfold retire
  exact ⟨_, by rw [coreOf_modCore_same, hcount]; rfl⟩

end

/-! ### Effects -/

/-- The instruction at a core has retired: nothing else of the state `v` that its effect gave has changed, and the core, with its registers
changed by `g`, goes on at `pc`. -/
structure Retires (p : PlaneId) (n : Nat) (v t : State) (pc : Dword) (g : Core → Core) : Prop where
  beside : besideCore p n t = besideCore p n v
  core : ∃ cyc ready ft, coreOf t p n = (g (coreOf v p n)).stepped cyc pc ready ft

section
variable {p : PlaneId} {n : Nat} {v t : State} {dst : Dword} {g : Core → Core} (h : Retires p n v t dst g)
include h

theorem Retires.pc : (coreOf t p n).pc = dst := by
  obtain ⟨_, _, _, hcore⟩ := h.core
  rw [hcore, Core.stepped_pc]

theorem Retires.x : (coreOf t p n).x = (g (coreOf v p n)).x := by
  obtain ⟨_, _, _, hcore⟩ := h.core
  rw [hcore, Core.stepped_x]

theorem Retires.w : (coreOf t p n).w = (g (coreOf v p n)).w := by
  obtain ⟨_, _, _, hcore⟩ := h.core
  rw [hcore, Core.stepped_w]

theorem Retires.ls : (coreOf t p n).ls = (g (coreOf v p n)).ls := by
  obtain ⟨_, _, _, hcore⟩ := h.core
  rw [hcore, Core.stepped_ls]

theorem Retires.xfers : (coreOf t p n).xfers = (g (coreOf v p n)).xfers := by
  obtain ⟨_, _, _, hcore⟩ := h.core
  rw [hcore, Core.stepped_xfers]

theorem Retires.ops : (coreOf t p n).ops = (g (coreOf v p n)).ops := by
  obtain ⟨_, _, _, hcore⟩ := h.core
  rw [hcore, Core.stepped_ops]

theorem Retires.csr {k : Nat} (hk : k ≠ 0xB02) : mgetD (coreOf t p n).csr k 0 = mgetD (g (coreOf v p n)).csr k 0 := by
  obtain ⟨_, _, _, hcore⟩ := h.core
  rw [hcore, Core.stepped_csr _ _ _ _ _ hk]

end

/-- An update of the core before its instruction retired is one of its registers' changes. -/
theorem Retires.of_modCore {p : PlaneId} {n : Nat} {u t : State} {pc : Dword} {f g : Core → Core} (h : Retires p n (modCore p n f u) t pc g) :
    Retires p n u t pc (g ∘ f) := by
  obtain ⟨hbeside, cyc, ready, ft, hcore⟩ := h
  exact ⟨hbeside.trans (besideCore_modCore ..), cyc, ready, ft, by rw [hcore, coreOf_modCore_same]; rfl⟩

theorem notBusy_modCore {p : PlaneId} {n : Nat} {v : State} (h : notBusy v p n) (f : Core → Core) : notBusy (modCore p n f v) p n := by
  rw [notBusy, State.on, get_of_besideCore (besideCore_modCore p n v f), ← State.on]
  exact h

theorem retires_retire (p : PlaneId) (n cyc : Nat) (row : CoreRow) (pc : Dword) (ready : Nat) (g : Core → Core) (v : State) :
    Retires p n v (retire p n cyc row pc ready (modCore p n g v)) pc g := by
  obtain ⟨ft, hcore⟩ := coreOf_retire p n cyc (modCore p n g v) row pc ready
  exact ⟨by simp, _, _, ft, by rw [hcore, coreOf_modCore_same]⟩

section
variable {p : PlaneId} {n : Nat} {v : State} (hfree : notBusy v p n) (row : CoreRow) (i : Issue)
include hfree

/-- It returns a value. -/
theorem applyEff_x (rd : Nat) (val : Dword) (lat : Nat) :
    Retires p n v (applyEff p n row i (.x rd val lat v)) (i.pc + 4) (Core.takeX rd val (i.cyc + lat)) := by
  simp only [applyEff, show v.on (uCCX p n) Fld.BLK_STAT_RST_BUSY = false from hfree, Bool.false_eq_true, if_false]
  exact retires_retire ..

theorem applyEff_xHold (rd : Nat) (val : Dword) (lat : Nat) :
    Retires p n v (applyEff p n row i (.xHold rd val lat v)) (i.pc + 4) (Core.takeX rd val (i.cyc + lat)) := by
  simp only [applyEff, show v.on (uCCX p n) Fld.BLK_STAT_RST_BUSY = false from hfree, Bool.false_eq_true, if_false]
  exact retires_retire ..

/-- It returns a vector. -/
theorem applyEff_w (rd : Nat) (val : Vec) (lat : Nat) :
    Retires p n v (applyEff p n row i (.w rd val lat v)) (i.pc + 4) (Core.takeW rd val (i.cyc + lat)) := by
  simp only [applyEff, show v.on (uCCX p n) Fld.BLK_STAT_RST_BUSY = false from hfree, Bool.false_eq_true, if_false]
  exact retires_retire ..

/-- It has no result. -/
theorem applyEff_hold (lat : Nat) : Retires p n v (applyEff p n row i (.hold lat v)) (i.pc + 4) id := by
  simp only [applyEff, show v.on (uCCX p n) Fld.BLK_STAT_RST_BUSY = false from hfree, Bool.false_eq_true, if_false]
  exact retires_retire ..

/-- It leaves an operation for later, other than an SPLD. -/
theorem applyEff_later {o : CoreOp} (ho : o.kind ≠ opSpld) (lat : Nat) :
    Retires p n v (applyEff p n row i (.later o lat v)) (i.pc + 4) (Core.defer o (i.cyc + lat)) := by
  simp only [applyEff, show v.on (uCCX p n) Fld.BLK_STAT_RST_BUSY = false from hfree, Bool.false_eq_true, if_false, if_neg ho]
  exact retires_retire ..

/-- SPLD. -/
theorem applyEff_spld {o : CoreOp} (ho : o.kind = opSpld) (lat : Nat) :
    Retires p n v (applyEff p n row i (.later o lat v)) (i.pc + 4) (Core.deferW o (i.cyc + lat)) := by
  simp only [applyEff, show v.on (uCCX p n) Fld.BLK_STAT_RST_BUSY = false from hfree, Bool.false_eq_true, if_false, if_pos ho]
  exact retires_retire ..

/-- The next instruction is elsewhere. -/
theorem applyEff_jump (dst : Dword) (rd lat : Nat) :
    Retires p n v (applyEff p n row i (.jump dst rd lat v)) dst (Core.takeX rd (i.pc + 4) (i.cyc + lat)) := by
  have hbusy : (v.coreEvent p n 0x45 i.cyc 1).on (uCCX p n) Fld.BLK_STAT_RST_BUSY = false := by
    rw [State.on, get_of_besideCore (besideCore_coreEvent p n v n 0x45 i.cyc 1), ← State.on]
    exact hfree
  simp only [applyEff, hbusy, Bool.false_eq_true, if_false]
  obtain ⟨hbeside, cyc, ready, ft, hcore⟩ := retires_retire p n i.cyc row dst (i.cyc + lat) (Core.takeX rd (i.pc + 4) (i.cyc + lat))
    (v.coreEvent p n 0x45 i.cyc 1)
  exact ⟨hbeside.trans (besideCore_coreEvent p n v n 0x45 i.cyc 1), cyc, ready, ft, by rw [← coreOf_coreEvent p v n n 0x45 i.cyc 1]; exact hcore⟩

/-- MRET. -/
theorem applyEff_ret (dst : Dword) (lat : Nat) : Retires p n v (applyEff p n row i (.ret dst lat v)) dst id := by
  simp only [applyEff, show v.on (uCCX p n) Fld.BLK_STAT_RST_BUSY = false from hfree, Bool.false_eq_true, if_false]
  exact retires_retire ..

end

/-! ### Traps (R221) -/

/-- A core in its handler: the pc, the cause and MIE of the instruction that trapped are kept. -/
def Core.trapped (cause val : Dword) (ready : Nat) (c : Core) : Core :=
  { c with
    csr := mput (mput (mput (mput c.csr 0x341 c.pc) 0x342 cause) 0x343 val) 0x300 (if (mgetD c.csr 0x300 0).getLsbD mieBit then 1#64 <<< mpieBit else 0)
    pc := mgetD c.csr 0x305 0, ready := ready }

theorem Core.trapped_csr (cause val : Dword) (ready : Nat) (c : Core) :
    mgetD (c.trapped cause val ready).csr 0x341 0 = c.pc ∧ mgetD (c.trapped cause val ready).csr 0x342 0 = cause ∧
      mgetD (c.trapped cause val ready).csr 0x343 0 = val ∧
      mgetD (c.trapped cause val ready).csr 0x300 0 = if (mgetD c.csr 0x300 0).getLsbD 3 then 0x80 else 0 := by
  simp [trapped, mgetD, mget_mput, mieBit, mpieBit]

theorem enterTrap_enters (p : PlaneId) (n cyc : Nat) (cause : Dword) (info : Nat) (s : State) :
    besideCore p n (enterTrap p n cyc cause info s) = besideCore p n s ∧
    ∃ val, (info = 0 → val = 0) ∧ coreOf (enterTrap p n cyc cause info s) p n = (coreOf s p n).trapped cause val (cyc + 4) := by
  have hfree : besideCore p n (trapVal info s).2 = besideCore p n s ∧ coreOf (trapVal info s).2 p n = coreOf s p n := by
    unfold trapVal
    split <;> exact ⟨rfl, rfl⟩
  refine ⟨by rw [enterTrap, besideCore_modCore, hfree.1], (trapVal info s).1, fun h => by rw [trapVal, if_pos h], ?_⟩
  rw [enterTrap, coreOf_modCore_same, hfree.2]
  rfl

/-- An exception of a core with a handler. -/
theorem takeTrap_enters {p : PlaneId} {n : Nat} {s : State} (hvec : mgetD (coreOf s p n).csr 0x305 0 ≠ 0) (cyc cause info : Nat) :
    besideCore p n (takeTrap p n cyc cause info s) = besideCore p n s ∧
    ∃ val, (info = 0 → val = 0) ∧ ∃ acct, coreOf (takeTrap p n cyc cause info s) p n =
      ({ coreOf s p n with acct := acct } : Core).trapped (BitVec.ofNat 64 cause) val (cyc + 4) := by
  obtain ⟨hbeside, val, hval, hcore⟩ := enterTrap_enters p n cyc (BitVec.ofNat 64 cause) info (account p n cyc 0x101 s)
  rw [coreOf_account] at hcore
  simp only [takeTrap, coreOf_account, hvec, if_false]
  exact ⟨hbeside.trans (besideCore_account ..), val, hval, _, hcore⟩

/-- An exception of a core without a handler halts it. -/
theorem takeTrap_halts {p : PlaneId} {n : Nat} {s : State} (hvec : mgetD (coreOf s p n).csr 0x305 0 = 0) (cyc cause info : Nat) :
    takeTrap p n cyc cause info s = haltCore p n .trap (account p n cyc 0x101 s) := by
  simp only [takeTrap, coreOf_account, hvec, if_true]

/-- What a halt leaves (R226). -/
theorem haltCore_halts (p : PlaneId) (n : Nat) (c : HCause) (s : State) :
    coreSt (haltCore p n c s) p n = 0 ∧ (haltCore p n c s).get (uCCX p n) Fld.CCX_STAT_HCAUSE = c.code ∧
    coreOf (haltCore p n c s) p n = { coreOf s p n with wait := none } := by
  have hcode : c.code % 2 ^ Fld.CCX_STAT_HCAUSE.width = c.code := by cases c <;> rfl
  refine ⟨?_, ?_, ?_⟩
  · rw [haltCore, modCore, setCore, coreSt_modPl, coreSt,
      State.get_put_apart (f := Fld.CCX_STAT_HCAUSE) (g := Fld.CCX_STAT_STATE) _ _ rfl rfl rfl rfl, ← coreSt, coreSt_setCoreSt]
  · rw [haltCore, modCore, setCore, State.modPl_get, State.get_put_same _ _ _ _ rfl, hcode]
  · rw [haltCore, coreOf_modCore_same]
    rfl

/-! ### Waits (R198) -/

/-- A wait, where none of an image waits to go on. -/
theorem applyEff_wait {p : PlaneId} {n : Nat} {v : State} (row : CoreRow) (i : Issue) (w : CoreWait) (hnew : (coreOf v p n).again = none) :
    let t := applyEff p n row i (.wait w v)
    coreSt t p n = 2 ∧ coreOf t p n = { coreOf v p n with wait := some w, again := none, acct := i.cyc } ∧
      ∃ r, besideCore p n r = besideCore p n v ∧ t = setCoreSt p n 2 r := by
  simp only [applyEff, coreOf_coreEvent, hnew]
  refine ⟨by rw [coreSt_setCoreSt], ?_, _, ?_, rfl⟩
  · rw [coreOf_setCoreSt, coreOf_modCore_same, coreOf_coreEvent]
  · rw [besideCore_modCore, besideCore_coreEvent]

end Sys2Proof.Machine
end

section
/-! SUPPORT. Scalar instructions of a collective core (R185): what each opcode gives at its issue. -/

namespace Sys2Proof.Machine

/-! ### Instructions that give a value -/

/-- The effect returns a value to x rd and leaves a state as it was, whether issue goes on or is held. -/
def Eff.returns (rd : Nat) (val : Dword) (v : State) (e : Eff) : Prop := ∃ lat, e = .x rd val lat v ∨ e = .xHold rd val lat v

theorem Eff.returns_x (rd : Nat) (val : Dword) (lat : Nat) (v : State) : (Eff.x rd val lat v).returns rd val v := ⟨lat, .inl rfl⟩

theorem Core.setX_x_congr {c d : Core} (h : c.x = d.x) (rd : Nat) (v : Dword) : (c.setX rd v).x = (d.setX rd v).x := by
  unfold Core.setX
  split
  · exact h
  · exact congrArg (mput · rd v) h

section
variable {s : State} {p : PlaneId} {n : CoreId} {row : CoreRow}

/-- An instruction that returns a value from a state that differs in the plane's other parts alone. -/
theorem gaveX_of_returns {val : Dword} {v : State} {e : Eff} (he : e.returns (insRd (wordAt s p n)) val v)
    (hfree : notBusy v p n.val) (hruns : coreSt v p n.val = 1) (hx : (coreOf v p n.val).x = (coreOf (atIssue s p n) p n.val).x) :
    gaveX s (applyEff p n.val row (issued s p n) e) p n val ∧
      besideCore p n.val (applyEff p n.val row (issued s p n) e) = besideCore p n.val v := by
  have hretires : ∃ at', Retires p n.val v (applyEff p n.val row (issued s p n) e) ((issued s p n).pc + 4)
      (Core.takeX (insRd (wordAt s p n)) val at') := by
    obtain ⟨lat, rfl | rfl⟩ := he
    · exact ⟨_, applyEff_x hfree ..⟩
    · exact ⟨_, applyEff_xHold hfree ..⟩
  obtain ⟨at', hbeside, cyc, ready, ft, hcore⟩ := hretires
  refine ⟨⟨?_, ?_, ?_⟩, hbeside⟩
  · rw [hcore, Core.stepped_x, Core.takeX_x]
    exact Core.setX_x_congr hx ..
  · rw [hcore, Core.stepped_pc]
    rfl
  · rw [coreSt_of_besideCore hbeside, hruns]

end

section
variable {s : State} {p : PlaneId} {n : CoreId} {row : CoreRow} (h : canIssue s p n row = true)
include h

/-- What an instruction that issues does is the effect that its row gives. -/
theorem completes_issue {i : Instr} {f : Issue → State → Eff} {P : State → Prop} (hexec : exec i s = .next (issue p n.val row f s))
    (hP : P (applyEff p n.val row (issued s p n) (f (issued s p n) (atIssue s p n)))) : Completes i s P :=
  ⟨_, by rw [hexec, issue_of_canIssue h], hP⟩

/-- An instruction that retires and changes nothing but the core. -/
theorem completes_retires {i : Instr} {f : Issue → State → Eff} {pc : Dword} {g : Core → Core}
    (hexec : exec i s = .next (issue p n.val row f s))
    (hr : Retires p n.val (atIssue s p n) (applyEff p n.val row (issued s p n) (f (issued s p n) (atIssue s p n))) pc g) :
    Completes i s (fun t => Retires p n.val (atIssue s p n) t pc g ∧ onlyCore (atIssue s p n) t p n) :=
  completes_issue h hexec ⟨hr, onlyCore_of_besideCore hr.beside⟩

/-- An instruction that returns a value and has no effect beside it. -/
theorem completes_returns {i : Instr} {f : Issue → State → Eff} {val : Dword} (hexec : exec i s = .next (issue p n.val row f s))
    (hf : (f (issued s p n) (atIssue s p n)).returns (insRd (wordAt s p n)) val (atIssue s p n)) :
    Completes i s (fun t => gaveX s t p n val ∧ onlyCore (atIssue s p n) t p n) := by
  refine completes_issue h hexec ?_
  obtain ⟨hgave, hbeside⟩ := gaveX_of_returns hf (canIssue_notBusy h) (canIssue_runs h) rfl
  exact ⟨hgave, onlyCore_of_besideCore hbeside⟩

end

/-! ### Opcodes -/

section
variable (p : PlaneId) (n : CoreId) (i : Issue) (s : State)

/-- A field of an instruction word is below its power of two. -/
theorem bits_lt (v hi lo : Nat) : bits v hi lo < 2 ^ (hi + 1 - lo) := Nat.mod_lt _ (Nat.two_pow_pos _)

/-- OP-IMM other than a shift. -/
theorem opImmEff_plain (h1 : insF3 i.w ≠ 1) (h5 : insF3 i.w ≠ 5) :
    opImmEff false i s = .x (insRd i.w) (aluOp (insF3 i.w) false i.a (immI i.w)) 1 s := by
  simp [opImmEff, h1, h5]

/-- A shift by an immediate. -/
theorem opImmEff_shift (hf3 : insF3 i.w = 1 ∨ insF3 i.w = 5) (hsh : bits i.w.toNat 31 26 = 0 ∨ (insF3 i.w = 5 ∧ bits i.w.toNat 31 26 = 0x10)) :
    opImmEff false i s =
      .x (insRd i.w) (aluOp (insF3 i.w) (bits i.w.toNat 31 26 ≠ 0) i.a (BitVec.ofNat 64 (bits i.w.toNat 25 20))) 1 s := by
  obtain h1 | h5 := hf3
  · have h0 : bits i.w.toNat 31 26 = 0 := by simpa [h1] using hsh
    simp [opImmEff, h1, h0]
  · have hsh' : bits i.w.toNat 31 26 = 0 ∨ bits i.w.toNat 31 26 = 0x10 := by simpa [h5] using hsh
    simp [opImmEff, h5, hsh']

/-- ADDIW. -/
theorem opImmEff_addiw (h0 : insF3 i.w = 0) : opImmEff true i s = .x (insRd i.w) (aluOpW 0 false i.a (immI i.w)) 1 s := by
  simp [opImmEff, h0]

/-- A 32-bit shift by an immediate. -/
theorem opImmEff_shiftW (hf3 : insF3 i.w = 1 ∨ insF3 i.w = 5) (hsh : insF7 i.w = 0 ∨ (insF3 i.w = 5 ∧ insF7 i.w = 0x20)) :
    opImmEff true i s = .x (insRd i.w) (aluOpW (insF3 i.w) (insF7 i.w ≠ 0) i.a (BitVec.ofNat 64 (bits i.w.toNat 25 20))) 1 s := by
  obtain h1 | h5 := hf3
  · have h0 : insF7 i.w = 0 := by simpa [h1] using hsh
    simp [opImmEff, h1, h0]
  · have hsh' : insF7 i.w = 0 ∨ insF7 i.w = 0x20 := by simpa [h5] using hsh
    simp [opImmEff, h5, hsh']

/-- OP. -/
theorem opEff_base (h7 : insF7 i.w = 0) : opEff false i s = .x (insRd i.w) (aluOp (insF3 i.w) false i.a i.b) 1 s := by
  simp [opEff, h7]

/-- SUB and SRA. -/
theorem opEff_alt (h7 : insF7 i.w = 0x20) (h3 : insF3 i.w = 0 ∨ insF3 i.w = 5) :
    opEff false i s = .x (insRd i.w) (aluOp (insF3 i.w) true i.a i.b) 1 s := by
  simp [opEff, h7, h3]

/-- OP-32. -/
theorem opEff_word (h : (insF7 i.w = 0 ∧ (insF3 i.w = 0 ∨ insF3 i.w = 1 ∨ insF3 i.w = 5)) ∨ (insF7 i.w = 0x20 ∧ (insF3 i.w = 0 ∨ insF3 i.w = 5))) :
    opEff true i s = .x (insRd i.w) (aluOpW (insF3 i.w) (insF7 i.w ≠ 0) i.a i.b) 1 s := by
  obtain ⟨h7, h3⟩ | ⟨h7, h3⟩ := h
  · simp [opEff, h7, h3]
  · simp [opEff, h7, h3]

/-- The multiplications and the divisions. -/
theorem opEff_mul (h7 : insF7 i.w = 1) : (opEff false i s).returns (insRd i.w) (mulOp (insF3 i.w) i.a i.b) s := by
  by_cases h3 : insF3 i.w < 4
  · exact ⟨3, .inl (by simp [opEff, h7, h3])⟩
  · exact ⟨34, .inr (by simp [opEff, h7, h3])⟩

theorem opEff_mulW (h7 : insF7 i.w = 1) (h3 : insF3 i.w = 0 ∨ 4 ≤ insF3 i.w) :
    (opEff true i s).returns (insRd i.w) (mulOpW (insF3 i.w) i.a i.b) s := by
  obtain h0 | h4 := h3
  · exact ⟨3, .inl (by simp [opEff, h7, h0])⟩
  · have hne : insF3 i.w ≠ 1 ∧ insF3 i.w ≠ 2 ∧ insF3 i.w ≠ 3 := by omega
    exact ⟨34, .inr (by simp [opEff, h7, hne, h4])⟩

theorem scalarEff_lui (hop : insOp i.w = 0x37) : scalarEff p n i s = .x (insRd i.w) (immU i.w) 1 s := by simp [scalarEff, hop]
theorem scalarEff_auipc (hop : insOp i.w = 0x17) : scalarEff p n i s = .x (insRd i.w) (i.pc + immU i.w) 1 s := by simp [scalarEff, hop]
theorem scalarEff_opImm (hop : insOp i.w = 0x13) : scalarEff p n i s = opImmEff false i s := by simp [scalarEff, hop]
theorem scalarEff_opImm32 (hop : insOp i.w = 0x1B) : scalarEff p n i s = opImmEff true i s := by simp [scalarEff, hop]
theorem scalarEff_op (hop : insOp i.w = 0x33) : scalarEff p n i s = opEff false i s := by simp [scalarEff, hop]
theorem scalarEff_op32 (hop : insOp i.w = 0x3B) : scalarEff p n i s = opEff true i s := by simp [scalarEff, hop]

end

section
variable {s : State} {p : PlaneId} {n : CoreId} (h : canIssue s p n .scalar = true)
include h

/-- A scalar instruction whose effect returns a value. -/
theorem scalarInstruction_returns {val : Dword}
    (hf : (scalarEff p n (issued s p n) (atIssue s p n)).returns (insRd (wordAt s p n)) val (atIssue s p n)) :
    Completes (.scalarInstruction p n) s (fun t => gaveX s t p n val ∧ onlyCore (atIssue s p n) t p n) :=
  completes_returns h rfl hf

theorem scalarInstruction_x {val : Dword} {lat : Nat}
    (hf : scalarEff p n (issued s p n) (atIssue s p n) = .x (insRd (wordAt s p n)) val lat (atIssue s p n)) :
    Completes (.scalarInstruction p n) s (fun t => gaveX s t p n val ∧ onlyCore (atIssue s p n) t p n) :=
  scalarInstruction_returns h (by rw [hf]; exact Eff.returns_x ..)

/-- A multiplication or a division. -/
theorem scalarInstruction_mul (hop : insOp (wordAt s p n) = 0x33) (h7 : insF7 (wordAt s p n) = 1) :
    Completes (.scalarInstruction p n) s (fun t =>
      gaveX s t p n (mulOp (insF3 (wordAt s p n)) (rs1Of s p n) (rs2Of s p n)) ∧ onlyCore (atIssue s p n) t p n) :=
  scalarInstruction_returns h (by rw [scalarEff_op p n (issued s p n) _ hop]; exact opEff_mul (issued s p n) _ h7)

/-- An instruction of OP. -/
theorem scalarInstruction_op (hop : insOp (wordAt s p n) = 0x33) (h7 : insF7 (wordAt s p n) = 0) :
    Completes (.scalarInstruction p n) s (fun t =>
      gaveX s t p n (aluOp (insF3 (wordAt s p n)) false (rs1Of s p n) (rs2Of s p n)) ∧ onlyCore (atIssue s p n) t p n) :=
  scalarInstruction_x h (by rw [scalarEff_op p n (issued s p n) _ hop]; exact opEff_base (issued s p n) _ h7)

/-- SUB and SRA. -/
theorem scalarInstruction_alt (hop : insOp (wordAt s p n) = 0x33) (h7 : insF7 (wordAt s p n) = 0x20)
    (h3 : insF3 (wordAt s p n) = 0 ∨ insF3 (wordAt s p n) = 5) :
    Completes (.scalarInstruction p n) s (fun t =>
      gaveX s t p n (aluOp (insF3 (wordAt s p n)) true (rs1Of s p n) (rs2Of s p n)) ∧ onlyCore (atIssue s p n) t p n) :=
  scalarInstruction_x h (by rw [scalarEff_op p n (issued s p n) _ hop]; exact opEff_alt (issued s p n) _ h7 h3)

/-- An instruction of OP-32. -/
theorem scalarInstruction_word (hop : insOp (wordAt s p n) = 0x3B)
    (hf : (insF7 (wordAt s p n) = 0 ∧ (insF3 (wordAt s p n) = 0 ∨ insF3 (wordAt s p n) = 1 ∨ insF3 (wordAt s p n) = 5)) ∨
      (insF7 (wordAt s p n) = 0x20 ∧ (insF3 (wordAt s p n) = 0 ∨ insF3 (wordAt s p n) = 5))) :
    Completes (.scalarInstruction p n) s (fun t => gaveX s t p n (aluOpW (insF3 (wordAt s p n)) (insF7 (wordAt s p n) ≠ 0) (rs1Of s p n)
      (rs2Of s p n)) ∧ onlyCore (atIssue s p n) t p n) :=
  scalarInstruction_x h (by rw [scalarEff_op32 p n (issued s p n) _ hop]; exact opEff_word (issued s p n) _ hf)

/-- A shift by an immediate. -/
theorem scalarInstruction_shift (hop : insOp (wordAt s p n) = 0x13) (hf3 : insF3 (wordAt s p n) = 1 ∨ insF3 (wordAt s p n) = 5)
    (hsh : bits (wordAt s p n).toNat 31 26 = 0 ∨ (insF3 (wordAt s p n) = 5 ∧ bits (wordAt s p n).toNat 31 26 = 0x10)) :
    Completes (.scalarInstruction p n) s (fun t => gaveX s t p n (aluOp (insF3 (wordAt s p n)) (bits (wordAt s p n).toNat 31 26 ≠ 0) (rs1Of s p n)
      (BitVec.ofNat 64 (bits (wordAt s p n).toNat 25 20))) ∧ onlyCore (atIssue s p n) t p n) :=
  scalarInstruction_x h (by rw [scalarEff_opImm p n (issued s p n) _ hop]; exact opImmEff_shift (issued s p n) _ hf3 hsh)

end

/-! ### Values -/

/-- A division by zero and its remainder. -/
theorem mulOp_zero {f3 : Nat} (h4 : 4 ≤ f3) (a : Dword) : mulOp f3 a 0 = if f3 < 6 then BitVec.allOnes 64 else a := by
  match f3 with
  | 4 => rfl
  | 5 => rfl
  | 6 => rfl
  | f + 7 => simp [mulOp, remU]

/-- ADDW. -/
theorem aluOpW_add (a b : Dword) : aluOpW 0 false a b = (a.setWidth 32 + b.setWidth 32 : Word).signExtend 64 := rfl

/-- Settles O30: each opcode's effect returns its value and leaves everything beside the core as it was. -/
theorem scalarArithmetic : Obligations.ScalarArithmetic := by
  unfold Obligations.ScalarArithmetic
  refine ⟨?lui, ?auipc, ?opImm, ?srai, ?shift, ?addiw, ?shiftW, ?word, ?mul, ?mulW, ?sra, ?op, ?sub, ?product, ?byZero, ?addw⟩
  case lui =>
    intro p n s h hop
    exact scalarInstruction_x h (scalarEff_lui p n (issued s p n) _ hop)
  case auipc =>
    intro p n s h hop
    exact scalarInstruction_x h (scalarEff_auipc p n (issued s p n) _ hop)
  case opImm =>
    intro p n s h hop h1 h5
    exact scalarInstruction_x h (by rw [scalarEff_opImm p n (issued s p n) _ hop]; exact opImmEff_plain (issued s p n) _ h1 h5)
  case srai =>
    intro p n s h hop h5 hsh
    have hlt := bits_lt (wordAt s p n).toNat 25 20
    have hval : aluOp 5 true (rs1Of s p n) (BitVec.ofNat 64 (bits (wordAt s p n).toNat 25 20)) =
        (rs1Of s p n).sshiftRight (bits (wordAt s p n).toNat 25 20) := by
      simp only [aluOp, if_true, BitVec.toNat_ofNat]
      congr 1
      omega
    simpa [h5, hsh, hval] using scalarInstruction_shift h hop (.inr h5) (.inr ⟨h5, hsh⟩)
  case shift =>
    intro p n s h hop hf3 hsh
    simpa [hsh] using scalarInstruction_shift h hop hf3 (.inl hsh)
  case addiw =>
    intro p n s h hop h0
    exact scalarInstruction_x h (by rw [scalarEff_opImm32 p n (issued s p n) _ hop]; exact opImmEff_addiw (issued s p n) _ h0)
  case shiftW =>
    intro p n s h hop hf3 h7
    exact scalarInstruction_x h (by rw [scalarEff_opImm32 p n (issued s p n) _ hop]; exact opImmEff_shiftW (issued s p n) _ hf3 h7)
  case word =>
    intro p n s h hop hf
    exact scalarInstruction_word h hop hf
  case mul =>
    intro p n s h hop h7
    exact scalarInstruction_mul h hop h7
  case mulW =>
    intro p n s h hop h7 h3
    exact scalarInstruction_returns h (by rw [scalarEff_op32 p n (issued s p n) _ hop]; exact opEff_mulW (issued s p n) _ h7 h3)
  case sra =>
    intro p n s h hop h7 h5
    simpa [h5] using scalarInstruction_alt h hop h7 (.inr h5)
  case op =>
    intro p n s h hop h7
    exact scalarInstruction_op h hop h7
  case sub =>
    intro p n s h hop h7 h0
    simpa [h0, aluOp] using scalarInstruction_alt h hop h7 (.inl h0)
  case product =>
    intro p n s h hop h7 h0
    simpa [h0, mulOp] using scalarInstruction_mul h hop h7
  case byZero =>
    intro p n s h hop h7 hb h4
    have hval := mulOp_zero h4 (rs1Of s p n)
    rw [← hb] at hval
    rw [← hval]
    exact scalarInstruction_mul h hop h7
  case addw =>
    intro p n s h hop h7 h0
    simpa [h0, h7, aluOpW_add] using scalarInstruction_word h hop (.inl ⟨h7, .inl h0⟩)

end Sys2Proof.Machine
end

section
/-! SUPPORT. Control flow, loads, stores and traps of a collective core's scalar instructions (R186 to R188, R221). -/

namespace Sys2Proof.Machine

/-! ### What the opcodes give -/

section
variable (p : PlaneId) (n : CoreId) (i : Issue) (s : State)

theorem jumpEff_aligned {dst : Dword} (h : dst.toNat % 4 = 0) (rd lat : Nat) : jumpEff dst rd lat s = .jump dst rd lat s := by
  simp [jumpEff, h]

theorem jumpEff_misaligned {dst : Dword} (h : dst.toNat % 4 ≠ 0) (rd lat : Nat) : jumpEff dst rd lat s = .trap 0 dst.toNat s := by
  simp [jumpEff, h]

theorem scalarEff_jal (hop : insOp i.w = 0x6F) : scalarEff p n i s = jumpEff (i.pc + immJ i.w) (insRd i.w) 2 s := by simp [scalarEff, hop]

theorem scalarEff_jalr (hop : insOp i.w = 0x67) (h3 : insF3 i.w = 0) :
    scalarEff p n i s = jumpEff ((i.a + immI i.w) &&& ~~~1#64) (insRd i.w) 3 s := by simp [scalarEff, hop, h3]

theorem scalarEff_branch (hop : insOp i.w = 0x63) (h2 : insF3 i.w ≠ 2) (h3 : insF3 i.w ≠ 3) :
    scalarEff p n i s = if brTaken (insF3 i.w) i.a i.b then jumpEff (i.pc + immB i.w) 0 3 s else .hold 1 s := by
  simp [scalarEff, hop, h2, h3]

theorem scalarEff_load (hop : insOp i.w = 0x03) (h7 : insF3 i.w ≠ 7) : scalarEff p n i s = loadEff p n.val i s := by
  simp [scalarEff, hop, h7]

theorem scalarEff_store (hop : insOp i.w = 0x23) (h3 : insF3 i.w < 4) : scalarEff p n i s = storeEff p n i s := by
  simp [scalarEff, hop, Nat.not_le.mpr h3]

theorem scalarEff_fence (hop : insOp i.w = 0x0F) (h3 : insF3 i.w = 0) : ∃ lat, scalarEff p n i s = .hold lat s :=
  ⟨if (coreOf s p n.val).winAt = 0 then 1 else max 1 ((coreOf s p n.val).winAt + 64 - i.cyc), by simp [scalarEff, hop, h3]⟩

theorem scalarEff_system (hop : insOp i.w = 0x73) (h3 : insF3 i.w = 0) : scalarEff p n i s = systemEff p n.val i s := by
  simp [scalarEff, hop, h3]

theorem scalarEff_ecall (hw : i.w = 0x00000073#32) : scalarEff p n i s = .trap 11 0 s := by
  rw [scalarEff_system p n i s (by rw [hw]; decide) (by rw [hw]; decide)]
  simp [systemEff, hw]

theorem scalarEff_ebreak (hw : i.w = 0x00100073#32) : scalarEff p n i s = .trap 3 i.pc.toNat s := by
  rw [scalarEff_system p n i s (by rw [hw]; decide) (by rw [hw]; decide)]
  simp [systemEff, hw]

theorem scalarEff_wfi (hw : i.w = 0x10500073#32) : scalarEff p n i s = .hold 1 s := by
  rw [scalarEff_system p n i s (by rw [hw]; decide) (by rw [hw]; decide)]
  simp [systemEff, hw]

/-- A core that has left its handler: MIE takes MPIE, and MPIE is 1. -/
def Core.untrapped (c : Core) : Core := { c with csr := mput c.csr 0x300 (if (mgetD c.csr 0x300 0).getLsbD 7 then 0x88 else 0x80) }

theorem scalarEff_mret (hw : i.w = 0x30200073#32) :
    scalarEff p n i s = .ret (mgetD (coreOf s p n.val).csr 0x341 0) 3 (modCore p n.val Core.untrapped s) := by
  have hst : (if (mgetD (coreOf s p n.val).csr 0x300 0).getLsbD 7 then 1#64 <<< 3 else 0) ||| 1#64 <<< 7 =
      if (mgetD (coreOf s p n.val).csr 0x300 0).getLsbD 7 then (0x88 : Dword) else 0x80 := by
    split <;> rfl
  have hret : systemEff p n.val i s = .ret (mgetD (coreOf s p n.val).csr 0x341 0) 3 (modCore p n.val (fun c => { c with
      csr := mput c.csr 0x300 ((if (mgetD (coreOf s p n.val).csr 0x300 0).getLsbD 7 then 1#64 <<< 3 else 0) ||| 1#64 <<< 7) }) s) := by
    unfold systemEff
    rw [hw]
    rfl
  rw [scalarEff_system p n i s (by rw [hw]; decide) (by rw [hw]; decide), hret, hst]
  rfl

/-- A word of no opcode. -/
theorem scalarEff_none (hop : insOp i.w = 0) : scalarEff p n i s = .trap 2 i.w.toNat s := by simp [scalarEff, hop, illegal]

/-- A load of the local store. -/
theorem loadEff_ls {s : State} {i : Issue} (hclean : lsClean s p n.val) (ha : (i.a + immI i.w).toNat % 2 ^ (insF3 i.w % 4) = 0)
    (hls : (i.a + immI i.w).toNat + 2 ^ (insF3 i.w % 4) ≤ 0x40000) :
    loadEff p n.val i s =
      .x (insRd i.w) (loadExt (insF3 i.w) (ofBytes (lsRead s p n.val (i.a + immI i.w).toNat (2 ^ (insF3 i.w % 4))))) 2 s := by
  simp only [loadEff, ha, ne_eq, not_true_eq_false, if_false, hls, if_true, lsLoad_clean hclean]

/-- A 32-bit load of the register window. -/
theorem loadEff_window {i : Issue} (h3 : insF3 i.w = 2 ∨ insF3 i.w = 6) (ha : (i.a + immI i.w).toNat % 4 = 0)
    (hlo : winBase ≤ (i.a + immI i.w).toNat) (hhi : (i.a + immI i.w).toNat < winEnd) :
    loadEff p n.val i s = .x (insRd i.w) (loadExt (insF3 i.w) (readBar0 s (winBar0 p (i.a + immI i.w).toNat)).toNat) 64 s := by
  have hk : 2 ^ (insF3 i.w % 4) = 4 := by obtain h | h := h3 <;> simp [h]
  have hls : ¬ (i.a + immI i.w).toNat + 4 ≤ 0x40000 := by
    unfold winBase at hlo
    omega
  simp only [loadEff, hk, ha, hls, hlo, hhi, ne_eq, not_true_eq_false, if_false, and_self, if_true]

/-- A store to the local store. -/
theorem storeEff_ls {i : Issue} (ha : (i.a + immS i.w).toNat % 2 ^ insF3 i.w = 0) (hls : (i.a + immS i.w).toNat + 2 ^ insF3 i.w ≤ 0x40000) :
    storeEff p n i s =
      .hold 1 (modCore p n.val (fun c => { c with ls := memPuts c.ls (i.a + immS i.w).toNat (bytesOf (2 ^ insF3 i.w) i.b.toNat) }) s) := by
  simp only [storeEff, ha, ne_eq, not_true_eq_false, if_false, hls, if_true]

/-- A 32-bit store to the register window. -/
theorem storeEff_window {i : Issue} (h3 : insF3 i.w = 2) (ha : (i.a + immS i.w).toNat % 4 = 0)
    (hlo : winBase ≤ (i.a + immS i.w).toNat) (hhi : (i.a + immS i.w).toNat < winEnd) :
    storeEff p n i s = .hold 1 (winStore p n (i.a + immS i.w).toNat (i.b.setWidth 32) (modCore p n.val (fun c => { c with winAt := i.cyc }) s)) := by
  have hk : 2 ^ insF3 i.w = 4 := by simp [h3]
  have hls : ¬ (i.a + immS i.w).toNat + 4 ≤ 0x40000 := by
    unfold winBase at hlo
    omega
  simp only [storeEff, hk, ha, hls, hlo, hhi, ne_eq, not_true_eq_false, if_false, and_self, if_true]

end

/-! ### A store that the window rejects -/

/-- A store to a page that the core may not write is recorded in the core's own page. The function is named before it is unfolded: the kernel,
comparing the two forms of the store itself, would evaluate `locate` at a free address. -/
theorem winStore_no_may {p : PlaneId} {n : CoreId} {a u off : Nat} {s : State} (hl : locate (winBar0 p a) = some (u, off))
    (hno : winMay s p n.val u = false) (v : Word) :
    winStore p n a v s = latchIrq (uCCX p n.val) (reject (uCCX p n.val) a .unmapped s) := by
  obtain ⟨f, hf⟩ : ∃ f, f = winStore p n a v := ⟨_, rfl⟩
  rw [← hf]
  delta winStore at hf
  rw [hf]
  dsimp only
  rw [hl]
  dsimp only
  rw [if_neg (Bool.eq_false_iff.mp hno)]

/-- The core's own page keeps the rejection, and nothing waits of a soft reset. -/
theorem winStore_rejected {p : PlaneId} {n : CoreId} {a u off : Nat} {s : State} (hl : locate (winBar0 p a) = some (u, off))
    (hno : winMay s p n.val u = false) (v : Word) :
    (winStore p n a v s).get (uCCX p n.val) Fld.BLK_STAT_REJ = 1 ∧
    (s.get (uCCX p n.val) Fld.BLK_STAT_REJ = 0 → (winStore p n a v s).get (uCCX p n.val) Fld.BLK_STAT_REJ_CODE = 9) ∧
    (notBusy s p n.val → notBusy (winStore p n a v s) p n.val) := by
  have hget : ∀ f : RField, f.key = 0x00C →
      (winStore p n a v s).get (uCCX p n.val) f = (reject (uCCX p n.val) a .unmapped s).get (uCCX p n.val) f := fun f hf => by
    rw [winStore_no_may hl hno, latchIrq_eq, latchAfter_get _ _ (regKey_ne_of_mod (by rw [hf]; decide))]
  refine ⟨?rej, fun h => ?code, fun hfree => ?busy⟩
  case rej => rw [hget _ rfl, (reject_counted _ _ _ _).1]
  case code => exact (hget _ rfl).trans (reject_first h _ _).1
  case busy =>
    have hbusy : (reject (uCCX p n.val) a .unmapped s).get (uCCX p n.val) Fld.BLK_STAT_RST_BUSY = s.get (uCCX p n.val) Fld.BLK_STAT_RST_BUSY := by
      simp only [reject, State.incSat]
      split <;> simp (disch := decide) only [State.get_put_apart]
    rw [notBusy, State.on, hget _ rfl, hbusy, ← State.on]
    exact hfree

/-! ### Traps at issue -/

section
variable {s : State} {p : PlaneId} {n : CoreId} {row : CoreRow} (h : canIssue s p n row = true)
include h

/-- An instruction that raises an exception, where the core has a handler. -/
theorem completes_trap {i : Instr} {f : Issue → State → Eff} {cause info : Nat} (hexec : exec i s = .next (issue p n.val row f s))
    (hf : f (issued s p n) (atIssue s p n) = .trap cause info (atIssue s p n)) (hvec : mgetD (coreOf (atIssue s p n) p n.val).csr 0x305 0 ≠ 0) :
    Completes i s (fun t => onlyCore (atIssue s p n) t p n ∧ ∃ val, (info = 0 → val = 0) ∧ ∃ acct ready,
      coreOf t p n.val = ({ coreOf (atIssue s p n) p n.val with acct := acct } : Core).trapped (BitVec.ofNat 64 cause) val ready) := by
  refine completes_issue h hexec ?_
  obtain ⟨hbeside, val, hval, acct, hcore⟩ := takeTrap_enters hvec (issued s p n).cyc cause info
  rw [hf]
  exact ⟨onlyCore_of_besideCore hbeside, val, hval, acct, _, hcore⟩

end

section
variable {s : State} {p : PlaneId} {n : CoreId} (h : canIssue s p n .scalar = true)
include h

theorem scalarInstruction_trap {cause info : Nat} (hf : scalarEff p n (issued s p n) (atIssue s p n) = .trap cause info (atIssue s p n))
    (hvec : mgetD (coreOf (atIssue s p n) p n.val).csr 0x305 0 ≠ 0) :
    Completes (.scalarInstruction p n) s (fun t => onlyCore (atIssue s p n) t p n ∧ ∃ val, (info = 0 → val = 0) ∧ ∃ acct ready,
      coreOf t p n.val = ({ coreOf (atIssue s p n) p n.val with acct := acct } : Core).trapped (BitVec.ofNat 64 cause) val ready) :=
  completes_trap h rfl hf hvec

/-- An instruction without a result. -/
theorem scalarInstruction_hold {lat : Nat} (hf : scalarEff p n (issued s p n) (atIssue s p n) = .hold lat (atIssue s p n)) :
    Completes (.scalarInstruction p n) s (fun t => (coreOf t p n.val).pc = (coreOf s p n.val).pc + 4 ∧
      (coreOf t p n.val).x = (coreOf (atIssue s p n) p n.val).x ∧ onlyCore (atIssue s p n) t p n) := by
  obtain ⟨t, ht, hr, honly⟩ := completes_retires h (i := .scalarInstruction p n) rfl (by rw [hf]; exact applyEff_hold (canIssue_notBusy h) ..)
  exact ⟨t, ht, hr.pc, hr.x, honly⟩

/-- A jump or a taken branch. -/
theorem scalarInstruction_jump {dst : Dword} {rd lat : Nat}
    (hf : scalarEff p n (issued s p n) (atIssue s p n) = .jump dst rd lat (atIssue s p n)) :
    Completes (.scalarInstruction p n) s (fun t => (coreOf t p n.val).pc = dst ∧
      (coreOf t p n.val).x = ((coreOf (atIssue s p n) p n.val).setX rd ((coreOf s p n.val).pc + 4)).x ∧ onlyCore (atIssue s p n) t p n) := by
  obtain ⟨t, ht, hr, honly⟩ := completes_retires h (i := .scalarInstruction p n) rfl (by rw [hf]; exact applyEff_jump (canIssue_notBusy h) ..)
  exact ⟨t, ht, hr.pc, by rw [hr.x, Core.takeX_x]; rfl, honly⟩

end

/-- Settles O31: each opcode's effect is a jump, a hold, a value, an update of the local store or a trap, whose rules say the rest; a rejected
window store latches the core's own page alone. -/
theorem scalarControl : Obligations.ScalarControl := by
  unfold Obligations.ScalarControl
  refine ⟨?taken, ?notTaken, ?jal, ?jalr, ?store, ?load, ?ecall, ?ecallHalt, ?mret, ?advance, ?ebreak, ?misaligned, ?window, ?rejected, ?none⟩
  case taken =>
    intro p n s h hop h2 h3 hbr ha
    refine scalarInstruction_jump h (rd := 0) (lat := 3) ?_
    rw [scalarEff_branch p n (issued s p n) _ hop h2 h3, ← jumpEff_aligned _ ha]
    exact if_pos hbr
  case notTaken =>
    intro p n s h hop h2 h3 hbr
    refine scalarInstruction_hold h (lat := 1) ?_
    rw [scalarEff_branch p n (issued s p n) _ hop h2 h3]
    exact if_neg (Bool.eq_false_iff.mp hbr)
  case jal =>
    intro p n s h hop ha
    exact scalarInstruction_jump h (by rw [scalarEff_jal p n (issued s p n) _ hop]; exact jumpEff_aligned _ ha ..)
  case jalr =>
    intro p n s h hop h3 ha
    exact scalarInstruction_jump h (by rw [scalarEff_jalr p n (issued s p n) _ hop h3]; exact jumpEff_aligned _ ha ..)
  case store =>
    intro p n s h hop h3 ⟨ha, hls⟩
    obtain ⟨t, ht, hr, honly⟩ := completes_retires h (i := .scalarInstruction p n) rfl (by
      rw [scalarEff_store p n (issued s p n) _ hop h3, storeEff_ls p n _ (i := issued s p n) ha hls]
      exact (applyEff_hold (notBusy_modCore (canIssue_notBusy h) _) ..).of_modCore)
    exact ⟨t, ht, hr.pc, hr.ls, hr.x, honly⟩
  case load =>
    intro p n s h hop h7 ⟨ha, hls⟩
    exact scalarInstruction_x h (by
      rw [scalarEff_load p n (issued s p n) _ hop h7]
      exact loadEff_ls p n (i := issued s p n) (canIssue_clean h) ha hls)
  case ecall =>
    intro p n s h hw hvec
    obtain ⟨t, ht, honly, val, hval, acct, ready, hcore⟩ := scalarInstruction_trap h (scalarEff_ecall p n (issued s p n) _ hw) hvec
    obtain ⟨hepc, hcause, htval, hstatus⟩ :=
      Core.trapped_csr (BitVec.ofNat 64 11) val ready { coreOf (atIssue s p n) p n.val with acct := acct }
    refine ⟨t, ht, ?_⟩
    simp only [hcore]
    exact ⟨rfl, hepc, hcause, htval.trans (hval rfl), hstatus, rfl, honly⟩
  case ecallHalt =>
    intro p n s h hw hvec
    have hf := scalarEff_ecall p n (issued s p n) (atIssue s p n) hw
    refine completes_issue h (i := .scalarInstruction p n) rfl ?_
    rw [hf, show applyEff p n.val .scalar (issued s p n) (.trap 11 0 (atIssue s p n)) =
      takeTrap p n.val (issued s p n).cyc 11 0 (atIssue s p n) from rfl, takeTrap_halts hvec]
    obtain ⟨hst, hcause, hcore⟩ := haltCore_halts p n.val .trap (account p n.val (issued s p n).cyc 0x101 (atIssue s p n))
    exact ⟨hst, hcause, by rw [hcore, coreOf_account]⟩
  case mret =>
    intro p n s h hw
    obtain ⟨t, ht, hr, honly⟩ := completes_retires h (i := .scalarInstruction p n) rfl (by
      rw [scalarEff_mret p n (issued s p n) _ hw]
      exact (applyEff_ret (notBusy_modCore (canIssue_notBusy h) _) ..).of_modCore)
    exact ⟨t, ht, hr.pc, (hr.csr (by decide)).trans (mgetD_mput_same ..), hr.x, honly⟩
  case advance =>
    intro p n s h hw
    obtain hw | ⟨hop, h3⟩ := hw
    · exact scalarInstruction_hold h (scalarEff_wfi p n (issued s p n) _ hw)
    · obtain ⟨lat, hf⟩ := scalarEff_fence p n (issued s p n) (atIssue s p n) hop h3
      exact scalarInstruction_hold h hf
  case ebreak =>
    intro p n s h hw hvec
    obtain ⟨t, ht, -, val, -, acct, ready, hcore⟩ := scalarInstruction_trap h (scalarEff_ebreak p n (issued s p n) _ hw) hvec
    exact ⟨t, ht, by rw [hcore, (Core.trapped_csr ..).2.1]; rfl, by rw [hcore]; rfl⟩
  case misaligned =>
    intro p n s h hop ha hvec
    obtain ⟨t, ht, -, val, -, acct, ready, hcore⟩ := scalarInstruction_trap h
      (by rw [scalarEff_jal p n (issued s p n) _ hop]; exact jumpEff_misaligned _ ha ..) hvec
    exact ⟨t, ht, by rw [hcore, (Core.trapped_csr ..).2.1]; rfl, by rw [hcore]; rfl, by rw [hcore]; rfl⟩
  case window =>
    intro p n s h hop h3 ⟨ha, hlo, hhi⟩
    have h7 : insF3 (wordAt s p n) ≠ 7 := by omega
    exact scalarInstruction_x h (by
      rw [scalarEff_load p n (issued s p n) _ hop h7]
      exact loadEff_window p n _ (i := issued s p n) h3 ha hlo hhi)
  case rejected =>
    intro p n u off s h hop h3 ⟨ha, hlo, hhi, hl⟩ hno
    have hlt : insF3 (wordAt s p n) < 4 := by omega
    have hmark := besideCore_modCore p n.val (atIssue s p n) fun c => { c with winAt := issueCyc s p n }
    have hmay : winMay (modCore p n.val (fun c => { c with winAt := issueCyc s p n }) (atIssue s p n)) p n.val u = false := by
      rw [← hno]
      simp only [winMay, State.on, get_of_besideCore hmark]
    obtain ⟨hrej, hcode, hbusy⟩ := winStore_rejected hl hmay ((rs2Of s p n).setWidth 32)
    have hr := applyEff_hold (hbusy (notBusy_modCore (canIssue_notBusy h) _)) .scalar (issued s p n) 1
    refine completes_issue h (i := .scalarInstruction p n) rfl ?_
    rw [scalarEff_store p n (issued s p n) _ hop hlt, storeEff_window p n _ (i := issued s p n) h3 ha hlo hhi]
    refine ⟨(get_of_besideCore hr.beside ..).trans hrej, fun h0 => ?_, hr.pc⟩
    exact (get_of_besideCore hr.beside ..).trans (hcode ((get_of_besideCore hmark ..).trans h0))
  case none =>
    intro p n s h hop hvec
    obtain ⟨t, ht, -, val, -, acct, ready, hcore⟩ := scalarInstruction_trap h (scalarEff_none p n (issued s p n) _ hop) hvec
    exact ⟨t, ht, by rw [hcore, (Core.trapped_csr ..).2.1]; rfl, by rw [hcore]; rfl⟩

end Sys2Proof.Machine
end

section
/-! SUPPORT. CSRs of a collective core and its counter-overflow interrupt (R189, R450). -/

namespace Sys2Proof.Machine

/-! ### CSR instructions -/

section
variable {p : PlaneId} {n : CoreId} {i : Issue} {s : State}

/-- CSRRW of a CSR that a write may change. -/
theorem csrEff_csrrw (h3 : insF3 i.w = 1) {old : Dword} (hread : csrRead s p n.val (insCsr i.w) i.cyc = some old)
    (hmask : (csrMask (insCsr i.w)).isNone = false) :
    csrEff p n.val i s = .x (insRd i.w) old 2 (csrWrite p n.val (insCsr i.w) i.cyc i.a s) := by
  simp only [csrEff, hread, h3, hmask]
  rfl

/-- CSRRS with x0. -/
theorem csrEff_csrrs_x0 (h3 : insF3 i.w = 2) (hrs : insRs1 i.w = 0) {old : Dword} (hread : csrRead s p n.val (insCsr i.w) i.cyc = some old) :
    csrEff p n.val i s = .x (insRd i.w) old 2 s := by
  simp [csrEff, hread, h3, hrs]

end

/-- A plain CSR takes the bits of its mask. -/
def Core.writeCsr (k : Nat) (m v : Dword) (c : Core) : Core := { c with csr := mput c.csr k ((mgetD c.csr k 0 &&& ~~~m) ||| (v &&& m)) }

theorem csrWrite_mscratch (p : PlaneId) (n cyc : Nat) (v : Dword) (s : State) :
    csrWrite p n 0x340 cyc v s = modCore p n (Core.writeCsr 0x340 (BitVec.allOnes 64) v) s := rfl

theorem csrWrite_vround (p : PlaneId) (n cyc : Nat) (v : Dword) (s : State) :
    csrWrite p n 0x7C1 cyc v s = modCore p n (Core.writeCsr 0x7C1 1 v) s := rfl

theorem Core.writeCsr_same (k : Nat) (m v : Dword) (c : Core) :
    mgetD (c.writeCsr k m v).csr k 0 = (mgetD c.csr k 0 &&& ~~~m) ||| (v &&& m) := mgetD_mput_same ..

section
variable {s : State} {p : PlaneId} {n : CoreId} (h : canIssue s p n .csr = true)
include h

/-- CSRRW of a plain CSR. -/
theorem csrInstruction_csrrw {k : Nat} {m : Dword} (h3 : insF3 (wordAt s p n) = 1) (hk : insCsr (wordAt s p n) = k) (hk' : k ≠ 0xB02)
    (hread : csrRead (atIssue s p n) p n.val k (issueCyc s p n) = some (mgetD (coreOf (atIssue s p n) p n.val).csr k 0))
    (hmask : (csrMask k).isNone = false)
    (hwrite : csrWrite p n.val k (issueCyc s p n) (rs1Of s p n) (atIssue s p n) =
      modCore p n.val (Core.writeCsr k m (rs1Of s p n)) (atIssue s p n)) :
    Completes (.csrInstruction p n) s (fun t => gaveX s t p n (mgetD (coreOf (atIssue s p n) p n.val).csr k 0) ∧
      mgetD (coreOf t p n.val).csr k 0 = (mgetD (coreOf (atIssue s p n) p n.val).csr k 0 &&& ~~~m) ||| (rs1Of s p n &&& m) ∧
      onlyCore (atIssue s p n) t p n) := by
  subst hk
  have hf : csrEff p n.val (issued s p n) (atIssue s p n) = .x (insRd (wordAt s p n))
      (mgetD (coreOf (atIssue s p n) p n.val).csr (insCsr (wordAt s p n)) 0) 2
      (modCore p n.val (Core.writeCsr (insCsr (wordAt s p n)) m (rs1Of s p n)) (atIssue s p n)) := by
    rw [← hwrite]
    exact csrEff_csrrw (i := issued s p n) h3 hread hmask
  have hfree := notBusy_modCore (canIssue_notBusy h) (Core.writeCsr (insCsr (wordAt s p n)) m (rs1Of s p n))
  have hruns := coreSt_of_besideCore (besideCore_modCore p n.val (atIssue s p n) (Core.writeCsr (insCsr (wordAt s p n)) m (rs1Of s p n))) n.val
  refine completes_issue h (i := .csrInstruction p n) rfl ?_
  rw [hf]
  have hr := applyEff_x hfree .csr (issued s p n) (insRd (wordAt s p n))
    (mgetD (coreOf (atIssue s p n) p n.val).csr (insCsr (wordAt s p n)) 0) 2
  obtain ⟨hgave, hbeside⟩ := gaveX_of_returns (row := .csr) (Eff.returns_x ..) hfree (hruns.trans (canIssue_runs h))
    (by rw [coreOf_modCore_same]; rfl)
  exact ⟨hgave, by rw [hr.csr hk', Core.takeX_csr, coreOf_modCore_same, Core.writeCsr_same],
    onlyCore_of_besideCore (hbeside.trans (besideCore_modCore ..))⟩

end

/-- Settles O32: a CSR access is a value and an update of the core's own table; the interrupt is a trap that gives no information. -/
theorem coreCsrs : Obligations.CoreCsrs := by
  unfold Obligations.CoreCsrs
  refine ⟨?mscratch, ?vround, ?read, ?interrupt⟩
  case mscratch =>
    intro p n s h h3 hk
    obtain ⟨t, ht, hgave, hcsr, honly⟩ := csrInstruction_csrrw h h3 hk (by decide) rfl rfl (csrWrite_mscratch ..)
    exact ⟨t, ht, hgave, by rw [hcsr, BitVec.not_allOnes, BitVec.and_zero, BitVec.zero_or, BitVec.and_allOnes], honly⟩
  case vround =>
    intro p n s h h3 hk
    obtain ⟨t, ht, -, hcsr, -⟩ := csrInstruction_csrrw h h3 hk (by decide) rfl rfl (csrWrite_vround ..)
    exact ⟨t, ht, hcsr⟩
  case read =>
    intro p n v s h h3 hrs hread
    have hf : csrEff p n.val (issued s p n) (atIssue s p n) = .x (insRd (wordAt s p n)) v 2 (atIssue s p n) :=
      csrEff_csrrs_x0 (i := issued s p n) h3 hrs hread
    refine completes_issue h (i := .csrInstruction p n) rfl ?_
    rw [hf]
    have hr := applyEff_x (canIssue_notBusy h) .csr (issued s p n) (insRd (wordAt s p n)) v 2
    obtain ⟨hgave, hbeside⟩ := gaveX_of_returns (row := .csr) (Eff.returns_x ..) (canIssue_notBusy h) (canIssue_runs h) rfl
    exact ⟨hgave, onlyCore_of_besideCore hbeside, fun k hk => by rw [hr.csr hk, Core.takeX_csr]⟩
  case interrupt =>
    intro p n s hrun hirq hcyc hvec
    have hmie : (mgetD (coreOf s p n.val).csr 0x300 0).getLsbD 3 = true := by
      simp only [irqReady, mieBit, Bool.and_eq_true] at hirq
      exact hirq.2
    have hexec : ∃ cyc, exec (.pmuInterruptTaken p n) s = .next (enterTrap p n.val cyc 0x800000000000000D 0 s) := by
      refine ⟨(coreOf s p n.val).irqAt.elim (coreOf s p n.val).ready (fun l => max (coreOf s p n.val).ready (l + 1)), ?_⟩
      change execPmuInterruptTaken p n s = _
      unfold execPmuInterruptTaken
      cases hat : (coreOf s p n.val).irqAt with
      | none =>
        simp only [hat, Option.elim_none] at hcyc ⊢
        rw [if_pos ⟨hrun, hirq, hcyc⟩, if_neg hvec]
      | some last =>
        simp only [hat, Option.elim_some] at hcyc ⊢
        rw [if_pos ⟨hrun, hirq, hcyc⟩, if_neg hvec]
    obtain ⟨cyc, hexec⟩ := hexec
    obtain ⟨hbeside, val, hval, hcore⟩ := enterTrap_enters p n.val cyc 0x800000000000000D 0 s
    obtain ⟨hepc, hcause, -, hstatus⟩ := Core.trapped_csr 0x800000000000000D val (cyc + 4) (coreOf s p n.val)
    refine ⟨_, hexec, ?_⟩
    simp only [hcore]
    exact ⟨hcause, hepc, rfl, by rw [hstatus, if_pos hmie], onlyCore_of_besideCore hbeside⟩

end Sys2Proof.Machine
end

section
/-! SUPPORT. Vector instructions of a collective core and its accesses to the local store and the scratchpad (R187, R191 to R194). -/

namespace Sys2Proof.Machine

/-! ### Lanes (R193) -/

/-- Codes packed in a number stay below its width. -/
theorem packCodes_lt (k : Nat) (l : List Nat) : packCodes k l < 2 ^ (k * l.length) := by
  induction l with
  | nil => simp [packCodes]
  | cons c r ih =>
    have hc : c % 2 ^ k < 2 ^ k := Nat.mod_lt _ (Nat.two_pow_pos k)
    calc c % 2 ^ k + 2 ^ k * packCodes k r < 2 ^ k * (packCodes k r + 1) := by rw [Nat.mul_add]; omega
      _ ≤ 2 ^ k * 2 ^ (k * r.length) := Nat.mul_le_mul_left _ ih
      _ = 2 ^ (k * (c :: r).length) := by rw [← Nat.pow_add, List.length_cons, Nat.mul_succ, Nat.add_comm]

/-- A code of a packed number. -/
theorem packCodes_digit (k : Nat) (l : List Nat) (i : Nat) (hi : i < l.length) : packCodes k l / 2 ^ (k * i) % 2 ^ k = l[i] % 2 ^ k := by
  induction l generalizing i with
  | nil => simp at hi
  | cons c r ih =>
    have hc : c % 2 ^ k < 2 ^ k := Nat.mod_lt _ (Nat.two_pow_pos k)
    have hcons : packCodes k (c :: r) = c % 2 ^ k + 2 ^ k * packCodes k r := rfl
    cases i with
    | zero => simp [hcons, Nat.add_mul_mod_self_left]
    | succ j =>
      rw [Nat.mul_succ, Nat.add_comm, Nat.pow_add, ← Nat.div_div_eq_div_mul, hcons, Nat.add_mul_div_left _ _ (Nat.two_pow_pos k),
        Nat.div_eq_of_lt hc, Nat.zero_add]
      exact ih j (by simpa using hi)

/-- A lane of a vector made from lanes. -/
theorem lane_ofLanes {k : Nat} {l : List Nat} (hl : k * l.length ≤ 1024) {i : Nat} (hi : i < l.length) : lane k (ofLanes k l) i = l[i] % 2 ^ k := by
  have hlt : packCodes k l < 2 ^ 1024 := (packCodes_lt k l).trans_le (Nat.pow_le_pow_right (by decide) hl)
  rw [lane, ofLanes, BitVec.extractLsb'_toNat, BitVec.toNat_ofNat, Nat.mod_eq_of_lt hlt, Nat.shiftRight_eq_div_pow, packCodes_digit k l i hi]

/-- A lane of a sum of vectors. -/
theorem lane_vaddLanes {k i : Nat} (hi : i < 1024 / k) (a b : Vec) :
    lane k (vaddLanes k a b) i = (lane k a i + lane k b i) % 2 ^ k := by
  have hlen : (List.zipWith (· + ·) (lanes k a) (lanes k b)).length = 1024 / k := by simp [lanes]
  rw [vaddLanes, lanes2, lane_ofLanes (by rw [hlen]; exact Nat.mul_div_le 1024 k) (by rw [hlen]; exact hi)]
  simp [lanes]

/-! ### Vector instructions -/

section
variable {s : State} {p : PlaneId} {n : CoreId} {row : CoreRow} (h : canIssue s p n row = true)
include h

/-- An instruction that returns a vector. -/
theorem completes_vector {i : Instr} {f : Issue → State → Eff} {val : Vec} {lat : Nat} (hexec : exec i s = .next (issue p n.val row f s))
    (hf : f (issued s p n) (atIssue s p n) = .w (insRd (wordAt s p n)) val lat (atIssue s p n)) :
    Completes i s (fun t => (coreOf t p n.val).w = mput (coreOf (atIssue s p n) p n.val).w (insRd (wordAt s p n)) val ∧
      (coreOf t p n.val).x = (coreOf (atIssue s p n) p n.val).x ∧ (coreOf t p n.val).ls = (coreOf (atIssue s p n) p n.val).ls ∧
      (coreOf t p n.val).pc = (coreOf s p n.val).pc + 4 ∧ onlyCore (atIssue s p n) t p n) := by
  obtain ⟨t, ht, hr, honly⟩ := completes_retires h hexec (by rw [hf]; exact applyEff_w (canIssue_notBusy h) ..)
  exact ⟨t, ht, hr.w, hr.x, hr.ls, hr.pc, honly⟩

end

/-- Settles O33: each row's effect returns its vector, VEXT a value; the lanes of a sum are the codes that its vector packs. -/
theorem vectorResults : Obligations.VectorResults := by
  unfold Obligations.VectorResults
  refine ⟨?two, ?fma, ?splat, ?ext, ?toCodes, ?fromCodes, ?lanes⟩
  case two =>
    intro p n s e he h
    simp only [List.mem_cons, List.not_mem_nil, or_false] at he
    obtain rfl | rfl | rfl | rfl | rfl | rfl | rfl | rfl | rfl | rfl | rfl := he
    all_goals exact completes_vector h rfl rfl
  case fma =>
    intro p n s h
    obtain ⟨t, ht, hw, -, -, -, honly⟩ := completes_vector h (i := .vfmaF32 p n) rfl rfl
    exact ⟨t, ht, hw, honly⟩
  case splat =>
    intro p n s h
    obtain ⟨t, ht, hw, -, -, -, honly⟩ := completes_vector h (i := .vsplat p n) rfl rfl
    exact ⟨t, ht, hw, honly⟩
  case ext =>
    intro p n s h
    exact completes_returns h (i := .vext p n) rfl (Eff.returns_x ..)
  case toCodes =>
    intro p n s h
    obtain ⟨t, ht, hr, honly⟩ := completes_retires h (i := .vcvtTo p n) rfl
      (applyEff_w (notBusy_modCore (canIssue_notBusy h) _) ..).of_modCore
    exact ⟨t, ht, hr.w, (hr.csr (by decide)).trans (mgetD_mput_same ..), honly⟩
  case fromCodes =>
    intro p n s h
    obtain ⟨t, ht, hw, -, -, -, honly⟩ := completes_vector h (i := .vcvtFrom p n) rfl rfl
    exact ⟨t, ht, hw, honly⟩
  case lanes =>
    intro k a b i _ hi
    exact lane_vaddLanes hi a b

/-! ### Operations left for later -/

theorem notBusy_of_besideCore {p : PlaneId} {n : Nat} {v s : State} (hv : besideCore p n v = besideCore p n s) (h : notBusy s p n) :
    notBusy v p n := by
  rw [notBusy, State.on, get_of_besideCore hv, ← State.on]
  exact h

section
variable {s : State} {p : PlaneId} {n : CoreId} {row : CoreRow} (h : canIssue s p n row = true)
include h

/-- An instruction that leaves an operation for later. -/
theorem completes_later {i : Instr} {f : Issue → State → Eff} {o : CoreOp} {lat : Nat} {v : State} (hexec : exec i s = .next (issue p n.val row f s))
    (hv : besideCore p n.val v = besideCore p n.val (atIssue s p n)) (hx : (coreOf v p n.val).x = (coreOf (atIssue s p n) p n.val).x)
    (hf : f (issued s p n) (atIssue s p n) = .later o lat v) :
    Completes i s (fun t => (coreOf t p n.val).ops.getLast? = some o ∧ (coreOf t p n.val).pc = (coreOf s p n.val).pc + 4 ∧
      (coreOf t p n.val).x = (coreOf (atIssue s p n) p n.val).x ∧ onlyCore (atIssue s p n) t p n) := by
  have hfree := notBusy_of_besideCore hv (canIssue_notBusy h)
  refine completes_issue h hexec ?_
  rw [hf]
  by_cases ho : o.kind = opSpld
  · have hr := applyEff_spld hfree row (issued s p n) ho lat
    exact ⟨by rw [hr.ops, Core.deferW_ops], hr.pc, hr.x.trans hx, onlyCore_of_besideCore (hr.beside.trans hv)⟩
  · have hr := applyEff_later hfree row (issued s p n) ho lat
    exact ⟨by rw [hr.ops, Core.defer_ops], hr.pc, by rw [hr.x, Core.defer_x, hx], onlyCore_of_besideCore (hr.beside.trans hv)⟩

end

/-- Taking a turn of the scratchpad changes no more than the core's transfers and operations (R191). -/
theorem spTurn_keeps (p : PlaneId) (n cyc : Nat) (s : State) :
    besideCore p n (spTurn p n cyc s).2 = besideCore p n s ∧ (coreOf (spTurn p n cyc s).2 p n).x = (coreOf s p n).x := by
  unfold spTurn stealTurn
  dsimp only
  split <;> simp

/-- A vector goes to the local store. -/
def Core.storeVec (a : Nat) (v : Vec) (c : Core) : Core := { c with ls := memPuts c.ls a (bytesOf 128 v.toNat) }

/-- Settles O34: an access to the local store is a vector or an update of its bytes; one to the scratchpad takes a turn and leaves an operation
for it. -/
theorem vectorMemory : Obligations.VectorMemory := by
  unfold Obligations.VectorMemory
  refine ⟨?vld, ?vst, ?spld, ?spst, ?misaligned⟩
  case vld =>
    intro p n s h ha hls
    obtain ⟨t, ht, hw, hx, -, -, honly⟩ := completes_vector h (i := .vld p n) (lat := 2) rfl (by
      simp only [issued_a, issued_w, ha, ne_eq, not_true_eq_false, if_false,
        Nat.not_lt.mpr hls, lsLoad_clean (canIssue_clean h)]
      rfl)
    exact ⟨t, ht, hw, hx, honly⟩
  case vst =>
    intro p n s h ha hls
    obtain ⟨t, ht, hr, honly⟩ := completes_retires h (i := .vst p n) (pc := (coreOf s p n.val).pc + 4)
      (g := Core.storeVec (rs1Of s p n + immS (wordAt s p n)).toNat ((coreOf (atIssue s p n) p n.val).vreg (insRs2 (wordAt s p n)))) rfl (by
        simp only [issued_a, issued_w, ha, ne_eq, not_true_eq_false,
          if_false, Nat.not_lt.mpr hls]
        exact (applyEff_hold (notBusy_modCore (canIssue_notBusy h) _) ..).of_modCore)
    exact ⟨t, ht, hr.ls, hr.x, hr.w, honly⟩
  case spld =>
    intro p n s h hsp hpoison harmed
    obtain ⟨hbeside, hx⟩ := spTurn_keeps p n.val (issueCyc s p n) (atIssue s p n)
    obtain ⟨t, ht, hops, hpc, hx, honly⟩ := completes_later h (i := .spld p n) rfl hbeside hx (by
      simp only [issued_a, hsp, if_true, memTouchAll, harmed, Bool.false_eq_true, if_false, hpoison,
        Bool.not_true, Bool.or_self]
      rfl)
    exact ⟨t, ht, ⟨_, hops, rfl, rfl, rfl, rfl⟩, hpc, hx, honly⟩
  case spst =>
    intro p n s h hsp
    obtain ⟨hbeside, hx⟩ := spTurn_keeps p n.val (issueCyc s p n) (atIssue s p n)
    obtain ⟨t, ht, hops, hpc, hx, honly⟩ := completes_later h (i := .spst p n) rfl hbeside hx (by
      simp only [issued_a, hsp, Bool.not_true, Bool.false_eq_true, if_false]
      rfl)
    exact ⟨t, ht, ⟨_, hops, rfl, rfl, rfl⟩, hpc, hx, honly⟩
  case misaligned =>
    intro p n s h ha hvec
    obtain ⟨t, ht, -, val, -, acct, ready, hcore⟩ := completes_trap h (i := .vld p n) (cause := 4) rfl (if_pos ha) hvec
    exact ⟨t, ht, by simp only [hcore]; exact (Core.trapped_csr ..).2.1⟩

end Sys2Proof.Machine
end

section
/-! SUPPORT. Waiting instructions of a collective core (R198, R199). -/

namespace Sys2Proof.Machine

/-- A core that waits: it stands at its instruction, and what is beside it is as it was. -/
structure Waits (p : PlaneId) (n : Nat) (v t : State) (w : CoreWait) : Prop where
  st : coreSt t p n = 2
  wait : (coreOf t p n).wait = some w
  pc : (coreOf t p n).pc = (coreOf v p n).pc
  x : (coreOf t p n).x = (coreOf v p n).x
  syncs : (t.pl p).syncs = (v.pl p).syncs
  mem : (t.pl p).mem = (v.pl p).mem
  groups : (t.pl p).groups = (v.pl p).groups

theorem waits_applyEff {p : PlaneId} {n : Nat} {v : State} (row : CoreRow) (i : Issue) (w : CoreWait) (hnew : (coreOf v p n).again = none) :
    Waits p n v (applyEff p n row i (.wait w v)) w := by
  obtain ⟨hst, hcore, r, hbeside, ht⟩ := applyEff_wait row i w hnew
  have hpl : ∀ q, (applyEff p n row i (.wait w v)).pl q = r.pl q := fun q => by rw [ht]; rfl
  exact ⟨hst, by rw [hcore], by rw [hcore], by rw [hcore], by rw [hpl]; exact plane_of_besideCore hbeside Plane.syncs fun _ => rfl,
    by rw [hpl]; exact plane_of_besideCore hbeside Plane.mem fun _ => rfl, by rw [hpl]; exact plane_of_besideCore hbeside Plane.groups fun _ => rfl⟩

/-- An instruction whose effect is a wait. -/
theorem completes_wait {s : State} {p : PlaneId} {n : CoreId} {row : CoreRow} (h : canIssue s p n row = true)
    (hnew : (coreOf (atIssue s p n) p n.val).again = none) {i : Instr} {f : Issue → State → Eff} {w : CoreWait}
    (hexec : exec i s = .next (issue p n.val row f s)) (hf : f (issued s p n) (atIssue s p n) = .wait w (atIssue s p n)) :
    Completes i s (fun t => coreSt t p n.val = 2 ∧ (coreOf t p n.val).wait = some w ∧
      (coreOf t p n.val).pc = (coreOf (atIssue s p n) p n.val).pc ∧ (coreOf t p n.val).x = (coreOf (atIssue s p n) p n.val).x ∧
      (t.pl p).syncs = ((atIssue s p n).pl p).syncs ∧ (t.pl p).mem = ((atIssue s p n).pl p).mem ∧
      (t.pl p).groups = ((atIssue s p n).pl p).groups) := by
  refine completes_issue h hexec ?_
  rw [hf]
  obtain ⟨hst, hwait, hpc, hx, hsyncs, hmem, hgroups⟩ := waits_applyEff row (issued s p n) w hnew
  exact ⟨hst, hwait, hpc, hx, hsyncs, hmem, hgroups⟩

/-- Settles O37: each row's effect is the wait that its operands name. -/
theorem waitInstructions : Obligations.WaitInstructions := by
  unfold Obligations.WaitInstructions
  intro p n s hnew
  refine ⟨?swait, ?qwait, ?mrecv, ?ftwait, ?xwait⟩
  case swait => exact fun h => completes_wait h hnew (i := .swait p n) rfl rfl
  case qwait => exact fun h => completes_wait h hnew (i := .qwait p n) rfl rfl
  case mrecv =>
    intro h hls
    refine completes_wait h hnew (i := .mrecv p n) rfl ?_
    simp only [issued_a, hls, Bool.not_true, Bool.false_eq_true, if_false]
    rfl
  case ftwait => exact fun h => completes_wait h hnew (i := .ftwait p n) rfl rfl
  case xwait =>
    intro h
    refine completes_wait h hnew (i := .xwait p n) rfl ?_
    simp only [decide_eq_true_eq]
    rfl

end Sys2Proof.Machine
end

section
/-! SUPPORT. Commands written at a core (R226) and at a sync object (R201) where a write-only bit already stands stored, and the statements
about them. -/

namespace Sys2Proof.Machine

/-- Core 5 of plane 0 runs, every domain has power, and CCX_CTRL holds the bit of RUN, which no write can have stored there. -/
def staleRun : State :=
  ((State.reset.setReg (hu .a .PWR) Fld.PWR_DOM_STAT_ON.key 0xFFFFFFFF).setReg (uCCX 0 5) Fld.CCX_STAT_STATE.key 1).setReg (uCCX 0 5)
    Fld.CCX_CTRL_RUN.key 1

/-- HALT is accepted, and the core runs on: the command that the write shows the core has RUN as well, which goes first. -/
theorem staleRun_runs : accepted staleRun (.hubCore .a) (uCCX 0 5) Fld.CCX_CTRL_HALT.key (0 ||| Fld.CCX_CTRL_HALT.mask) = true ∧
    coreSt (regWrite (.hubCore .a) (uCCX 0 5) Fld.CCX_CTRL_HALT.key (0 ||| Fld.CCX_CTRL_HALT.mask) staleRun) 0 5 = 1 := by decide +kernel

/-- Refutes O26: the statement speaks of every state, and in one whose write-only RUN bit of CCX_CTRL already stands stored as 1, an accepted
HALT starts the running core again instead of halting it (`staleRun_runs`). CCX_CTRL resets to 0 and no write stores into it
(`keptWord_of_commands`): what the statement misses is the premise that it holds 0. -/
theorem not_coreCommands : ¬ Obligations.CoreCommands := by
  unfold Obligations.CoreCommands
  rintro ⟨-, hhalt, -⟩
  obtain ⟨hacc, hruns⟩ := staleRun_runs
  obtain ⟨t, ht, hhalted, -⟩ := hhalt (.hubCore .a) 0 5 0 staleRun hacc
  have hrun : exec (.halt (.hubCore .a) 0 5 0) staleRun =
      .next (regWrite (.hubCore .a) (uCCX 0 5) Fld.CCX_CTRL_HALT.key (0 ||| Fld.CCX_CTRL_HALT.mask) staleRun) := rfl
  have hend := Host.Outcome.next.inj (hrun.symm.trans ht)
  have hstill : coreSt t 0 5 = 1 := hend ▸ hruns
  exact absurd (hstill.symm.trans hhalted) (by decide)

/-- Every domain has power, no sync object of plane 0 has an update in its beat, and SYN_ADD of object 0 holds a bit, which no write can have
stored there. -/
def staleAdd : State := (State.reset.setReg (hu .a .PWR) Fld.PWR_DOM_STAT_ON.key 0xFFFFFFFF).setReg (pu 0 .SYN) 0x800 1

/-- The stored bit and the written one are added together. -/
theorem staleAdd_adds : accepted staleAdd (.hubCore .a) (pu 0 .SYN) 0x800 2 = true ∧ syncLog staleAdd 0 = [] ∧ syncVal staleAdd 0 0 + 2 = 2 ∧
    syncVal (regWrite (.hubCore .a) (pu 0 .SYN) 0x800 2 staleAdd) 0 0 = 3 := by decide +kernel

/-- Refutes O28: the statement speaks of every state, and in one whose write-only SYN_ADD of object 0 already holds bit 0, an accepted write
of 2 adds 3 to the object (`staleAdd_adds`). SYN_ADD resets to 0 and no write stores into it: what the statement misses is the premise that it
holds 0. -/
theorem not_groupWrites : ¬ Obligations.GroupWrites := by
  unfold Obligations.GroupWrites
  rintro ⟨-, hadd, -⟩
  obtain ⟨hacc, hfirst, htwo, hthree⟩ := staleAdd_adds
  obtain ⟨t, ht, hsum, -⟩ := hadd (.hubCore .a) 0 0 2 staleAdd hacc hfirst
  have hrun : exec (.synAdd (.hubCore .a) 0 0 2) staleAdd = .next (regWrite (.hubCore .a) (pu 0 .SYN) 0x800 2 staleAdd) := rfl
  have hend := Host.Outcome.next.inj (hrun.symm.trans ht)
  have hgot : syncVal t 0 0 = 3 := hend ▸ hthree
  have hwant : syncVal t 0 0 = 2 := hsum.trans htwo
  exact absurd (hgot.symm.trans hwant) (by decide)

end Sys2Proof.Machine
end

section
/-! SUPPORT. What an instruction of a core leaves of the cores and the registers when its effect is on the plane's other parts, and the value that
it then returns (R196). -/

namespace Sys2Proof.Machine

/-! ### Cores and registers -/

/-- What the cores of a plane and every register follow from. -/
def coreBasis (p : PlaneId) (s : State) : SMap (SMap Word) × ModConfig × Ident × Fitted × Pair Hub × SMap Core :=
  (s.regs, s.cfg, s.ident, s.fitted, s.hubs, (s.pl p).cores)

section
variable {p : PlaneId} {s t : State} (h : coreBasis p t = coreBasis p s)
include h

theorem regs_of_coreBasis : t.regs = s.regs := (Prod.mk.inj h).1

theorem coreOf_of_coreBasis (n : Nat) : coreOf t p n = coreOf s p n := by
  obtain ⟨-, -, -, -, -, hcores⟩ : _ ∧ _ ∧ _ ∧ _ ∧ _ ∧ _ := by simpa only [coreBasis, Prod.mk.injEq] using h
  rw [coreOf, hcores, coreOf]

theorem get_of_coreBasis (u : Nat) (f : RField) : t.get u f = s.get u f := by
  obtain ⟨hregs, hcfg, hident, hfitted, hhubs, -⟩ : _ ∧ _ ∧ _ ∧ _ ∧ _ ∧ _ := by simpa only [coreBasis, Prod.mk.injEq] using h
  rw [State.get, State.reg_congr hregs ⟨hcfg, hident, hfitted, fun k => by rw [State.hub, hhubs, State.hub]⟩, State.get]

theorem notBusy_of_coreBasis {n : Nat} (hfree : notBusy s p n) : notBusy t p n := by
  rw [notBusy, State.on, get_of_coreBasis h, ← State.on]
  exact hfree

theorem coreSt_of_coreBasis (n : Nat) : coreSt t p n = coreSt s p n := get_of_coreBasis h _ _

end

section
variable (p : PlaneId) (s : State)

@[simp] theorem coreBasis_ite (c : Prop) [Decidable c] (t : State) :
    coreBasis p (if c then s else t) = if c then coreBasis p s else coreBasis p t := apply_ite _ _ _ _

/-- An update of the plane beside its cores. -/
@[simp] theorem coreBasis_modPl {g : Plane → Plane} (hcores : ∀ x, (g x).cores = x.cores) : coreBasis p (s.modPl p g) = coreBasis p s := by
  simp only [coreBasis, State.modPl_pl_same, hcores]
  rfl

@[simp] theorem coreBasis_event (code inst n : Nat) : coreBasis p (s.event p code inst n) = coreBasis p s := by simp [State.event]
@[simp] theorem coreBasis_coreEvent (core code cyc n : Nat) : coreBasis p (s.coreEvent p core code cyc n) = coreBasis p s := by
  simp [State.coreEvent]
@[simp] theorem coreBasis_sample (point sel v : Nat) : coreBasis p (s.sample p point sel v) = coreBasis p s := by simp [State.sample]
@[simp] theorem coreBasis_setCtx (pos c : Nat) (x : Ctx) : coreBasis p (setCtx p pos c x s) = coreBasis p s := by simp [setCtx]

@[simp] theorem coreBasis_modCtx (pos c : Nat) (f : Ctx → Ctx) : coreBasis p (modCtx p pos c f s) = coreBasis p s := by
  unfold modCtx
  split
  · exact coreBasis_setCtx p s _ _ _
  · rfl

@[simp] theorem coreBasis_modChunk (pos c n : Nat) (f : Chunk → Chunk) : coreBasis p (modChunk p pos c n f s) = coreBasis p s :=
  coreBasis_modCtx p s _ _ _
@[simp] theorem coreBasis_modColl (g q : Nat) (f : Coll → Coll) : coreBasis p (modColl p g q f s) = coreBasis p s := by simp [modColl]
@[simp] theorem coreBasis_freshColl (g q : Nat) : coreBasis p (freshColl p g q s) = coreBasis p s := by simp [freshColl]
@[simp] theorem coreBasis_openChunk (pos c n : Nat) (bank : Option Nat) : coreBasis p (openChunk p pos c n bank s) = coreBasis p s :=
  coreBasis_modCtx p s _ _ _
@[simp] theorem coreBasis_issueFrame (f : UnitFrame) : coreBasis p (issueFrame p f s) = coreBasis p s := by simp [issueFrame]
@[simp] theorem coreBasis_dropRepair (pos c n : Nat) (d : CopyDst) : coreBasis p (dropRepair p pos c n d s) = coreBasis p s := by simp [dropRepair]
@[simp] theorem coreBasis_answerReleased (x : Ctx) (n ep : Nat) : coreBasis p (answerReleased p x n ep s) = coreBasis p s := by
  simp [answerReleased]

@[simp] theorem coreBasis_acceptFeed (n pos c cyc : Nat) (x : Ctx) (addr : Nat) (h : HeadCell) :
    coreBasis p (acceptFeed p n pos c cyc x addr h s) = coreBasis p s := by simp [acceptFeed]

end

/-! ### Values returned beside an effect on the plane -/

section
variable {s : State} {p : PlaneId} {n : CoreId} {row : CoreRow} (h : canIssue s p n row = true)
include h

/-- An instruction that changes the plane beside its cores and returns a value. -/
theorem completes_from {i : Instr} {f : Issue → State → Eff} {val : Dword} {v : State} (hexec : exec i s = .next (issue p n.val row f s))
    (hv : coreBasis p v = coreBasis p (atIssue s p n)) (hf : (f (issued s p n) (atIssue s p n)).returns (insRd (wordAt s p n)) val v) :
    Completes i s (fun t => gaveX s t p n val ∧ t.regs = (atIssue s p n).regs ∧ besideCore p n.val t = besideCore p n.val v) := by
  obtain ⟨hgave, hbeside⟩ := gaveX_of_returns (row := row) hf (notBusy_of_coreBasis hv (canIssue_notBusy h))
    ((coreSt_of_coreBasis hv _).trans (canIssue_runs h)) (congrArg Core.x (coreOf_of_coreBasis hv n.val))
  exact completes_issue h hexec ⟨hgave, (regs_of_besideCore hbeside).trans (regs_of_coreBasis hv), hbeside⟩

end

/-- A status with a value is returned to rd (R196). -/
theorem status_returns (i : Issue) (code value lat : Nat) (v : State) : (status i code value lat v).returns (insRd i.w) (statusVal code value) v :=
  Eff.returns_x ..

theorem getCtx_of_besideCore {p : PlaneId} {n : Nat} {s t : State} (h : besideCore p n t = besideCore p n s) (pos c : Nat) :
    getCtx t p pos c = getCtx s p pos c := getCtx_congr (plane_of_besideCore h Plane.ctxs fun _ => rfl) pos c

theorem chunk_of_besideCore {p : PlaneId} {n pos c m : Nat} {s t : State} (h : besideCore p n t = besideCore p n s) {k : Chunk}
    (hk : (getCtx s p pos c).bind (·.chunk m) = some k) : (getCtx t p pos c).bind (·.chunk m) = some k := by
  rw [getCtx_of_besideCore h, hk]

/-! ### Contexts and chunks that a core names (R208, R213) -/

/-- A handle of the core's own context. -/
theorem getCtx_of_mineCtx {s : State} {p : PlaneId} {n pos c : Nat} {x : Ctx} {d : Dword} (h : mineCtx s p n d = some (pos, c, x)) :
    getCtx s p pos c = some x := by
  simp only [mineCtx] at h
  split at h
  · next y hy =>
    split at h
    · simp only [Option.some.injEq, Prod.mk.injEq] at h
      obtain ⟨rfl, rfl, rfl⟩ := h
      exact hy
    · cases h
  · cases h

/-- A chunk found by a number has it. -/
theorem Ctx.num_of_chunk {x : Ctx} {n : Nat} {k : Chunk} (h : x.chunk n = some k) : k.num = n := by
  simpa [Ctx.chunk] using List.find?_some h

/-- A chunk that rs1 names is known by its number, and not RELEASED. -/
theorem chunk_of_heldChunk {x : Ctx} {d : Dword} {k : Chunk} (h : heldChunk x d = some k) : x.chunk k.num = some k := by
  simp only [heldChunk] at h
  split at h
  · next k' hk =>
    split at h
    · cases h
    · cases h
      rw [Ctx.num_of_chunk hk]
      exact hk
  · cases h

/-- A change that keeps the number of a context's chunk is found under the same number. -/
theorem Ctx.chunk_modChunk_at {x : Ctx} {n : Nat} {k : Chunk} (hk : x.chunk n = some k) {f : Chunk → Chunk}
    (hnum : ∀ k, k.num = n → (f k).num = n) : (x.modChunk n f).chunk n = some (f k) := by
  have hkey : (fun k => decide (k.num = n)) ∘ (fun k => if k.num = n then f k else k) = fun k => decide (k.num = n) := by
    funext k
    by_cases h : k.num = n <;> simp [h, hnum]
  rw [Ctx.chunk, Ctx.modChunk, List.find?_map, hkey, ← Ctx.chunk, hk, Option.map_some, if_pos (Ctx.num_of_chunk hk)]

/-- The chunk after it is changed. -/
theorem bind_chunk_modChunk_at {s : State} {p : PlaneId} {pos c n : Nat} {x : Ctx} {k : Chunk} (hx : getCtx s p pos c = some x)
    (hk : x.chunk n = some k) {f : Chunk → Chunk} (hnum : ∀ k, k.num = n → (f k).num = n) :
    (getCtx (modChunk p pos c n f s) p pos c).bind (·.chunk n) = some (f k) := by
  rw [modChunk, modCtx_of_getCtx hx, getCtx_setCtx, Option.bind_some, Ctx.chunk_modChunk_at hk hnum]

/-! ### Copies (R214) -/

/-- A chunk with one more copy. -/
def Chunk.addCopy (d : CopyDst) (k : Chunk) : Chunk := { k with copies := k.copies ++ [{ dst := d }] }

/-- The first copy of a chunk that is still open, or of one that goes to memory and is not failed, only enters the chunk's list. -/
theorem queueCopy_first {s : State} {p : PlaneId} {pos c n : Nat} {x : Ctx} {k : Chunk} (hx : getCtx s p pos c = some x) (hk : x.chunk n = some k)
    (hnone : k.copies = []) (place : Nat → CopyDst)
    (hstays : k.held = false ∨ (k.fail = 0 ∧ k.st ≠ .failed ∧ ∃ a j, place 0 = .mem a j)) :
    queueCopy p pos c n place s = modChunk p pos c n (Chunk.addCopy (place 0)) s := by
  have hfound : (getCtx s p pos c).bind (·.chunk n) = some k := by rw [hx, Option.bind_some, hk]
  simp only [queueCopy, hfound, hnone, List.filter_nil, List.length_nil]
  obtain hopen | ⟨hfail, hst, a, j, hmem⟩ := hstays
  · simp only [hopen, Bool.false_eq_true, not_false_eq_true, if_true]
    rfl
  · simp only [hfail, hst, hmem, ne_eq, not_true_eq_false, or_self, if_false, ite_self]
    rfl

/-! ### Releases (R166) -/

/-- A SEALED chunk with nothing left to send. -/
structure Chunk.Quiet (k : Chunk) : Prop where
  st : k.st = .sealed
  sent : ∀ y ∈ k.copies, y.kind = 1 ∧ y.queued = false
  fail : k.fail = 0
  need : k.recompNeed = none
  runs : k.recompOn = none

/-- A SEALED chunk once its release is applied. -/
def Chunk.freed (k : Chunk) : Chunk := { k with marked := true, st := .sealed }.release

section
variable {k : Chunk} (h : k.Quiet)
include h

/-- It stays SEALED whatever its seals say anew. -/
theorem Chunk.Quiet.stateOf (m : Bool) : { k with marked := m }.stateOf = .sealed := by
  have hkind : ∀ j, j ≠ 1 → k.copies.any (·.kind = j) = false := fun j hj => by
    simp only [List.any_eq_false, decide_eq_true_eq]
    exact fun y hy he => hj (he.symm.trans (h.sent y hy).1)
  simp [Chunk.stateOf, Chunk.recomputing, h.st, h.fail, h.need, h.runs, hkind]

/-- A release is applied at once. -/
theorem Chunk.Quiet.settle_marked : { k with marked := true }.settle = k.freed := by
  have hqueued : k.copies.any (fun y => y.kind = 1 && y.queued) = false := by
    simp only [List.any_eq_false, Bool.and_eq_true, not_and, Bool.not_eq_true]
    exact fun y hy _ => (h.sent y hy).2
  have hheld : { k with marked := true }.held = true := by simp [Chunk.held, h.st]
  have hmay : { k with marked := true, st := .sealed }.mayRelease = true := by simp [Chunk.mayRelease, hqueued]
  rw [Chunk.settle, if_pos hheld]
  dsimp only
  rw [h.stateOf true, if_pos hmay, Chunk.freed]

/-- No copy of it is left waiting for a repair. -/
theorem Chunk.Quiet.freed_copies : k.freed.copies = k.copies := by
  simp only [Chunk.freed, Chunk.release, h.fail]
  refine (List.map_congr_left (g := id) fun y hy => ?_).trans (List.map_id _)
  simp [(h.sent y hy).1]

end

/-- A request that is taken back leaves its copy sealed and unqueued. -/
theorem Chunk.Quiet.map_copies {k : Chunk} (h : k.Quiet) {f : Copy → Copy} (hf : ∀ y ∈ k.copies, (f y).kind = 1 ∧ (f y).queued = false) :
    { k with copies := k.copies.map f }.Quiet :=
  ⟨h.st, by simpa using hf, h.fail, h.need, h.runs⟩

/-- Taking requests back leaves the chunk ready for its release, and the cores and the registers as they were. -/
theorem dropRequests_quiet {s : State} {p : PlaneId} {pos c n : Nat} {x : Ctx} {k : Chunk} (hx : getCtx s p pos c = some x)
    (hk : x.chunk n = some k) (hq : k.Quiet) :
    coreBasis p (dropRequests p pos c n s) = coreBasis p s ∧
      ∃ x' k', getCtx (dropRequests p pos c n s) p pos c = some x' ∧ x'.chunk n = some k' ∧ k'.Quiet := by
  unfold dropRequests
  rw [hx]
  dsimp only
  rw [hk]
  dsimp only
  split
  · constructor
    · rw [foldl_keeps (coreBasis p) fun t y => by simp]
      simp
    · rw [foldl_keeps (getCtx · p pos c) fun t y => getCtx_congr (by simp [answerReleased, issueFrame, dropRepair]) pos c]
      rw [modChunk, modCtx_of_getCtx hx, getCtx_setCtx]
      refine ⟨_, _, rfl, Ctx.chunk_modChunk_at hk fun _ _ => show k.num = n from Ctx.num_of_chunk hk, hq.map_copies fun y hy => ?_⟩
      split
      · exact ⟨rfl, rfl⟩
      · exact hq.sent y hy
  · exact ⟨rfl, x, k, hx, hk, hq⟩

/-- A chunk with nothing to send is freed (R166). -/
theorem releaseChunk_quiet {s : State} {p : PlaneId} {pos c n : Nat} {x : Ctx} {k : Chunk} (hx : getCtx s p pos c = some x)
    (hk : x.chunk n = some k) (hq : k.Quiet) :
    coreBasis p (releaseChunk p pos c n s) = coreBasis p s ∧
      ∃ k', (getCtx (releaseChunk p pos c n s) p pos c).bind (·.chunk n) = some k' ∧ k'.st = .released ∧ k'.result = [] := by
  obtain ⟨hbasis, x', k', hx', hk', hq'⟩ := dropRequests_quiet hx hk hq
  have hfreed := bind_chunk_modChunk_at hx' hk' (f := fun k => { k with marked := true }.settle) fun k h => by simpa using h
  rw [hq'.settle_marked] at hfreed
  have hnone : k'.freed.copies.filter (fun y : Copy => y.kind = 2 && !y.queued) = [] := by
    rw [hq'.freed_copies, List.filter_eq_nil_iff]
    intro y hy
    simp [(hq'.sent y hy).1]
  have hend : releaseChunk p pos c n s = modChunk p pos c n (fun k => { k with marked := true }.settle) (dropRequests p pos c n s) := by
    rw [releaseChunk, endReleased, hfreed]
    simp only [hnone, List.foldl_nil, ite_self]
  rw [hend]
  exact ⟨(coreBasis_modChunk ..).trans hbasis, _, hfreed, rfl, rfl⟩

/-! ### Transfers, feeds and closes -/

/-- A transfer is outstanding (R205). -/
def Core.addXfer (x : Xfer) (c : Core) : Core := { c with xfers := c.xfers ++ [x] }

@[simp] theorem stored_openChunk (p : PlaneId) (pos c n : Nat) (bank : Option Nat) (s : State) : stored p (openChunk p pos c n bank s) = stored p s :=
  stored_modCtx p s _ _ _

/-- An accepted frame is a feed that is outstanding (R212). -/
theorem feeds_acceptFeed (p : PlaneId) (n pos c cyc : Nat) (x : Ctx) (addr : Nat) (h : HeadCell) (s : State) :
    ((acceptFeed p n pos c cyc x addr h s).pl p).feeds = (s.pl p).feeds ++ [⟨n, pos, c, h.chunk, h.midx, addr⟩] := by
  unfold acceptFeed
  rw [plane_of_besideCore (besideCore_coreEvent p n _ _ _ _ _) Plane.feeds fun _ => rfl, State.modPl_pl_same]
  refine congrArg (· ++ _) (congrArg Prod.snd (?_ : stored p _ = stored p s))
  simp

@[simp] theorem Chunk.askClose_num (k : Chunk) (feeds : Nat) : (k.askClose feeds).num = k.num := by
  unfold askClose
  split <;> rfl

theorem Chunk.askClose_closeReq (k : Chunk) (feeds : Nat) : (k.askClose feeds).closeReq = true := by
  unfold askClose
  split
  · assumption
  · rfl

/-! ### The instructions -/

/-- Settles O35: each row's effect is the status and a change of the plane's contexts, feeds or the core's transfers. -/
theorem contextInstructions : Obligations.ContextInstructions := by
  unfold Obligations.ContextInstructions
  refine ⟨?xfer, ?cbind, ?cunbind, ?cfeed, ?cclose, ?csend, ?cstore, ?crelease, ?cstat, ?notMine⟩
  case xfer =>
    intro p n s h hls hcode
    have hfree := notBusy_modCore (canIssue_notBusy h) (Core.addXfer (xferOf (lsRead (atIssue s p n) p n.val (rs1Of s p n).toNat 32) (issueCyc s p n)))
    have hbeside := besideCore_modCore p n.val (atIssue s p n)
      (Core.addXfer (xferOf (lsRead (atIssue s p n) p n.val (rs1Of s p n).toNat 32) (issueCyc s p n)))
    refine completes_issue h (i := .xfer p n) rfl ?_
    simp only [issued_a, issued_cyc, hls, Bool.not_true, Bool.false_eq_true, if_false, lsLoad_clean (canIssue_clean h), hcode, if_true]
    have hr := applyEff_x hfree .xfer (issued s p n) (insRd (wordAt s p n)) (statusVal sOk 0) 2
    obtain ⟨hgave, hends⟩ := gaveX_of_returns (row := .xfer) (status_returns (issued s p n) sOk 0 2 _) hfree
      ((coreSt_of_besideCore hbeside _).trans (canIssue_runs h)) (by rw [coreOf_modCore_same]; rfl)
    exact ⟨hgave, onlyCore_of_besideCore (hends.trans hbeside), hr.xfers.trans (by rw [Core.takeX_xfers, coreOf_modCore_same]; rfl)⟩
  case cbind =>
    intro p n b x s h hls hb hmap hx hcode
    have hbound : bindEff p n.val (issued s p n) b x (atIssue s p n) = status (issued s p n) sOk
        (ofBytes (sliceB b 4 1) + 32 * ofBytes (sliceB b 5 1)) 64
        (setCtx p (ofBytes (sliceB b 4 1)) (ofBytes (sliceB b 5 1)) x (freshColl p x.group x.cseq (atIssue s p n))) := by
      have hown : { x with core := n.val } = x := by rw [hx]; rfl
      simp only [bindEff, hcode, if_true, hown]
    obtain ⟨t, ht, hgave, hregs, hbeside⟩ := completes_from h (i := .cbind p n) (v := setCtx p (ofBytes (sliceB b 4 1)) (ofBytes (sliceB b 5 1)) x
        (freshColl p x.group x.cseq (atIssue s p n))) rfl (by simp) (by
      simp only [issued_a, hls, Bool.not_true, Bool.false_eq_true, if_false, lsLoad_clean (canIssue_clean h), ← hb]
      by_cases hfeed : (ctxOf b n.val []).feed = true
      · rw [if_pos hfeed] at hx
        simp only [hfeed, Bool.true_or, if_true]
        rw [← hx, hbound]
        exact status_returns (issued s p n) ..
      · rw [if_neg hfeed] at hx
        rw [if_neg (by simp [hfeed, hmap.resolve_left hfeed])]
        change (bindEff p n.val (issued s p n) b (ctxOf b n.val (laneMap (lsRead (atIssue s p n) p n.val (ofBytes (sliceB b 40 8)) 256)))
          (atIssue s p n)).returns _ _ _
        rw [← hx, hbound]
        exact status_returns (issued s p n) ..)
    exact ⟨t, ht, hgave, by rw [getCtx_of_besideCore hbeside, getCtx_setCtx], hregs⟩
  case cunbind =>
    intro p n pos c x s h hmine hall
    have hany : x.chunks.any (fun k => k.st ≠ .released) = false := by
      simpa only [List.any_eq_false, List.all_eq_true, decide_eq_true_eq, ne_eq, not_not] using hall
    obtain ⟨t, ht, hgave, hregs, hbeside⟩ := completes_from h (i := .cunbind p n)
        (v := (atIssue s p n).modPl p (fun y => { y with ctxs := mdel y.ctxs (ctxKey pos c) })) rfl (coreBasis_modPl p _ fun _ => rfl) (by
      simp only [issued_a, hmine, hany, Bool.false_eq_true, if_false]
      exact status_returns (issued s p n) ..)
    have hctx : ∀ pos' c', getCtx t p pos' c' = if ctxKey pos c = ctxKey pos' c' then none else getCtx (atIssue s p n) p pos' c' := by
      intro pos' c'
      rw [getCtx_of_besideCore hbeside, getCtx, State.modPl_pl_same, mget_mdel, getCtx]
    exact ⟨t, ht, hgave, by rw [hctx, if_pos rfl], hregs, fun pos' c' hne => by rw [hctx, if_neg (Ne.symm hne)]⟩
  case cfeed =>
    intro p n pos c x s h ⟨ha, harmed, hmine, hfeed, hbase, hreach, hpoison, hcode⟩
    have hreach' : ¬ ((rs1Of s p n).toNat < baseS ∨ coreReach (atIssue s p n) p (rs1Of s p n).toNat 256 = false) := by
      simp [hreach, hbase]
    obtain ⟨t, ht, hgave, hregs, hbeside⟩ := completes_from h (i := .cfeed p n) rfl (coreBasis_acceptFeed ..) (by
      simp only [issued_a, issued_b, issued_cyc, ha, ne_eq, not_true_eq_false, if_false, hmine, hfeed, Bool.not_true, Bool.false_eq_true, hreach',
        memTouchAll, harmed, hpoison, hcode, if_true]
      exact status_returns (issued s p n) ..)
    exact ⟨t, ht, hgave, hregs, (plane_of_besideCore hbeside Plane.feeds fun _ => rfl).trans (feeds_acceptFeed ..)⟩
  case cclose =>
    intro p n pos c x k s h hmine hfeed hfill
    obtain ⟨k₀, hk₀⟩ := Ctx.chunk_of_filling hfill
    obtain ⟨t, ht, hgave, hregs, hbeside⟩ := completes_from h (i := .cclose p n) rfl (coreBasis_modChunk ..) (by
      simp only [issued_a, hmine, hfeed, hfill, Bool.not_true, Bool.false_eq_true, if_false]
      exact status_returns (issued s p n) ..)
    have hasked := bind_chunk_modChunk_at (f := (·.askClose (ctxFeeds (atIssue s p n) p pos c))) (getCtx_of_mineCtx hmine) hk₀ fun k h => by
      rw [Chunk.askClose_num, h]
    exact ⟨t, ht, hgave, hregs, _, chunk_of_besideCore hbeside hasked, Chunk.askClose_closeReq ..⟩
  case csend =>
    intro p n pos c x k s h hmine hheld hnone hopen
    obtain ⟨t, ht, hgave, hregs, hbeside⟩ := completes_from h (i := .csend p n) rfl (coreBasis_modChunk ..) (by
      simp only [issued_a, issued_b, hmine, hheld, hnone, List.length_nil, Nat.reduceLeDiff, if_false]
      rw [queueCopy_first (getCtx_of_mineCtx hmine) (chunk_of_heldChunk hheld) hnone (CopyDst.endpoint ((rs2Of s p n).toNat % 65536) ·) (.inl hopen)]
      exact status_returns (issued s p n) ..)
    have hqueued := bind_chunk_modChunk_at (getCtx_of_mineCtx hmine) (chunk_of_heldChunk hheld) (f := Chunk.addCopy (.endpoint ((rs2Of s p n).toNat % 65536) 0)) fun _ h => h
    exact ⟨t, ht, hgave, hregs, _, chunk_of_besideCore hbeside hqueued, by rw [Chunk.addCopy, hnone]; rfl⟩
  case cstore =>
    intro p n pos c x k s h hmine hheld hnone hopen hkey ha hside
    have hcode : firstCode [(decide (64 ≤ k.copies.length), sBounds), (keyHoldsRegion (atIssue s p n) p (issued s p n).b.toNat, sState),
        ((issued s p n).b.toNat % 256 ≠ 0, sRange), (!sideOk (atIssue s p n) p 2 (issued s p n).b.toNat (256 * x.resCells), sBounds)] = sOk := by
      simp [firstCode, hnone, hkey, ha, hside]
    obtain ⟨t, ht, hgave, hregs, hbeside⟩ := completes_from h (i := .cstore p n) rfl (coreBasis_modChunk ..) (by
      simp only [issued_a, hmine, hheld, hcode, if_true]
      rw [queueCopy_first (getCtx_of_mineCtx hmine) (chunk_of_heldChunk hheld) hnone (CopyDst.mem (issued s p n).b.toNat ·)
        (hopen.imp_right fun ⟨hfail, hst⟩ => ⟨hfail, hst, _, _, rfl⟩)]
      exact status_returns (issued s p n) ..)
    have hqueued := bind_chunk_modChunk_at (getCtx_of_mineCtx hmine) (chunk_of_heldChunk hheld) (f := Chunk.addCopy (.mem (rs2Of s p n).toNat 0)) fun _ h => h
    exact ⟨t, ht, hgave, hregs, _, chunk_of_besideCore hbeside hqueued, by rw [Chunk.addCopy, hnone]; rfl⟩
  case crelease =>
    intro p n pos c x k s h hmine hheld hst hcopies hsent hfail hneg hneed hruns
    have hquiet : k.Quiet := ⟨hst, by simpa using hsent, hfail, hneed, hruns⟩
    obtain ⟨hbasis, k', hk', hfreed, hresult⟩ := releaseChunk_quiet (getCtx_of_mineCtx hmine) (chunk_of_heldChunk hheld) hquiet
    obtain ⟨t, ht, hgave, hregs, hbeside⟩ := completes_from h (i := .crelease p n) rfl hbasis (by
      simp only [issued_a, hmine, hheld]
      exact status_returns (issued s p n) ..)
    exact ⟨t, ht, hgave, hregs, k', chunk_of_besideCore hbeside hk', hfreed, hresult⟩
  case cstat =>
    intro p n pos c x k s h hmine hk
    exact completes_returns h (i := .cstat p n) rfl (by
      simp only [issued_a, hmine, hk]
      exact status_returns (issued s p n) ..)
  case notMine =>
    intro p n s h hmine
    exact completes_returns h (i := .cstat p n) rfl (by
      simp only [issued_a, hmine]
      exact status_returns (issued s p n) ..)

end Sys2Proof.Machine
end

section
/-! SUPPORT. What a write of plane memory follows from and what it leaves (R254, R267). -/

namespace Sys2Proof.Machine

/-! ### What a write follows from -/

/-- The bytes of a plane and their poison, and the banks and channels that are lost. -/
def Plane.memPart (x : Plane) : List Host.Cell × List Nat × (Nat × List Nat) × List Nat × Option (List Nat) × List Nat × Nat :=
  (x.mem, x.poison, x.poisonNow, x.fencedBanks, x.bankMap, x.lostChans, x.ftm.beats)

/-- The registers and what their reset values follow from. -/
def regBasis (s : State) : SMap (SMap Word) × ModConfig × Ident × Fitted × Pair Hub := (s.regs, s.cfg, s.ident, s.fitted, s.hubs)

/-- What a write of plane memory follows from. -/
def memBasis (p : PlaneId) (s : State) : (SMap (SMap Word) × ModConfig × Ident × Fitted × Pair Hub) ×
    List Host.Cell × List Nat × (Nat × List Nat) × List Nat × Option (List Nat) × List Nat × Nat := (regBasis s, (s.pl p).memPart)

section
variable (p : PlaneId) (s : State)

/-- An update of the plane beside its memory. -/
@[simp] theorem memBasis_modPl {g : Plane → Plane} (h : ∀ x, (g x).memPart = x.memPart) : memBasis p (s.modPl p g) = memBasis p s := by
  rw [memBasis, State.modPl_pl_same, h, memBasis]
  rfl

@[simp] theorem memBasis_event (code inst n : Nat) : memBasis p (s.event p code inst n) = memBasis p s := by
  unfold State.event
  split
  · rfl
  · exact memBasis_modPl p s fun _ => rfl

theorem memBasis_countReads (addr n : Nat) : memBasis p (countReads p addr n s) = memBasis p s :=
  foldl_keeps (memBasis p) (fun t i => by split <;> simp) _ s

end

/-- What of a core's plane is neither the core nor what the PMU records covers memory. -/
theorem memBasis_of_besideCore {p : PlaneId} {n : Nat} {s t : State} (h : besideCore p n t = besideCore p n s) : memBasis p t = memBasis p s :=
  Prod.ext (congrArg regBasis h :) (plane_of_besideCore h Plane.memPart fun _ => rfl)

section
variable {p : PlaneId} {s t : State} (h : memBasis p t = memBasis p s)
include h

theorem memPart_of_memBasis : (t.pl p).memPart = (s.pl p).memPart := congrArg Prod.snd h

theorem sameSource_of_memBasis : SameSource s t := by
  obtain ⟨-, hcfg, hident, hfitted, hhubs⟩ : _ ∧ _ ∧ _ ∧ _ ∧ _ := by simpa only [memBasis, regBasis, Prod.mk.injEq] using congrArg Prod.fst h
  exact ⟨hcfg, hident, hfitted, fun k => by rw [State.hub, hhubs, State.hub]⟩

theorem reg_of_memBasis (u off : Nat) : t.reg u off = s.reg u off :=
  State.reg_congr (congrArg (fun b => b.1.1) h) (sameSource_of_memBasis h) u off

theorem get_of_memBasis (u : Nat) (f : RField) : t.get u f = s.get u f := by rw [State.get, reg_of_memBasis h, State.get]

/-- The interleave is formed anew over the same channels. -/
theorem formedUnits_of_memBasis : formedUnits t p = formedUnits s p := by
  have hsource := sameSource_of_memBasis h
  have hlost : (t.pl p).lostChans = (s.pl p).lostChans := congrArg (fun m => m.2.2.2.2.2.1) (memPart_of_memBasis h)
  have hchans : formedChans t p = formedChans s p := by rw [formedChans, resetVal_congr hsource, hlost, formedChans]
  rw [formedUnits, hchans, mirrored, hsource.cfg, formedUnits, mirrored]

theorem targetOf_of_memBasis (addr : Nat) : targetOf t p addr = targetOf s p addr := by
  have hpop : popF t p = popF s p := by rw [popF, formedUnits_of_memBasis h, dimmBytes, (sameSource_of_memBasis h).ident, popF, dimmBytes]
  rw [targetOf, placeOf, hpop, formedUnits_of_memBasis h, targetOf, placeOf]

theorem targetLost_of_memBasis (addr : Nat) : targetLost t p addr = targetLost s p addr := by
  have hmirror : mirrored t p = mirrored s p := by rw [mirrored, (sameSource_of_memBasis h).cfg, mirrored]
  have hchan : ∀ c, chanLost t p c = chanLost s p c := fun c => by
    simp only [chanLost, State.fenced, State.on, get_of_memBasis h]
  simp only [targetLost, targetOf_of_memBasis h, hmirror, hchan]

theorem poisonUnit_of_memBasis (addr : Nat) : poisonUnit t p addr = poisonUnit s p addr := by
  simp only [poisonUnit, targetOf_of_memBasis h]

theorem bankOf_of_memBasis (addr : Nat) : bankOf t p addr = bankOf s p addr := by
  have hmap : (t.pl p).bankMap = (s.pl p).bankMap := congrArg (fun m => m.2.2.2.2.1) (memPart_of_memBasis h)
  simp only [bankOf, bankMapNow, hmap, (sameSource_of_memBasis h).fitted]

/-- The same update of a counter. -/
theorem memBasis_incSat (u : Nat) (f : RField) (n : Nat) : memBasis p (t.incSat u f n) = memBasis p (s.incSat u f n) := by
  have hregs : t.regs = s.regs := congrArg (fun b => b.1.1) h
  have hset : (t.incSat u f n).regs = (s.incSat u f n).regs := by
    simp only [State.incSat, State.put, State.setReg, get_of_memBasis h, reg_of_memBasis h, hregs]
  exact Prod.ext (Prod.ext hset (congrArg (fun b => b.1.2) h :)) (memPart_of_memBasis h :)

/-- Updates of the plane that change its memory alike. -/
theorem memBasis_modPl_congr {f g : Plane → Plane} (hfg : ∀ x y : Plane, x.memPart = y.memPart → (f x).memPart = (g y).memPart) :
    memBasis p (t.modPl p f) = memBasis p (s.modPl p g) :=
  Prod.ext (congrArg Prod.fst h :) (by
    show ((t.modPl p f).pl p).memPart = ((s.modPl p g).pl p).memPart
    rw [State.modPl_pl_same, State.modPl_pl_same]
    exact hfg _ _ (memPart_of_memBasis h))

/-- Two states with the same basis take the same granule. -/
theorem storeGranule_congr (addr : Nat) (d : List Byte) : (storeGranule p addr d t).1 = (storeGranule p addr d s).1 ∧
    memBasis p (storeGranule p addr d t).2 = memBasis p (storeGranule p addr d s).2 := by
  have hpoison : (t.pl p).poison = (s.pl p).poison := congrArg (fun m => m.2.1) (memPart_of_memBasis h)
  have hbanks : (t.pl p).fencedBanks = (s.pl p).fencedBanks := congrArg (fun m => m.2.2.2.1) (memPart_of_memBasis h)
  simp only [storeGranule, targetLost_of_memBasis h, bankOf_of_memBasis h, poisonUnit_of_memBasis h, memInst, targetOf_of_memBasis h, hbanks, hpoison]
  split
  · refine ⟨rfl, ?_⟩
    split
    · exact h
    · exact memBasis_incSat h ..
  · refine ⟨rfl, memBasis_modPl_congr ?_ fun x y hxy => ?_⟩
    · cases targetOf s p addr
      · exact h
      · exact (memBasis_event ..).trans (h.trans (memBasis_event ..).symm)
    · simp only [Plane.memPart, Prod.mk.injEq] at hxy ⊢
      obtain ⟨hmem, hpoison, hnow, hbanks, hmap, hlost, hbeats⟩ := hxy
      simp [hmem, hpoison, hnow, hbanks, hmap, hlost, hbeats]

end

/-- A write leaves the same bytes and the same poison in states with the same basis. -/
theorem storeParts_congr {p : PlaneId} (fuel addr : Nat) (d : List Byte) {q r : Bool × State}
    (h : q.1 = r.1 ∧ memBasis p q.2 = memBasis p r.2) :
    (storeParts p fuel addr d q).1 = (storeParts p fuel addr d r).1 ∧
      memBasis p (storeParts p fuel addr d q).2 = memBasis p (storeParts p fuel addr d r).2 := by
  induction fuel generalizing addr d q r with
  | zero => exact h
  | succ fuel ih =>
    simp only [storeParts]
    split
    · exact h
    · obtain ⟨hflag, hbasis⟩ := storeGranule_congr h.2 addr (d.take (granule addr - addr % granule addr))
      exact ih _ _ ⟨by rw [h.1, hflag], hbasis⟩

theorem memStore_congr {p : PlaneId} {s t : State} (h : memBasis p t = memBasis p s) (addr : Nat) (d : List Byte) :
    (memStore p addr d t).1 = (memStore p addr d s).1 ∧ memBasis p (memStore p addr d t).2 = memBasis p (memStore p addr d s).2 :=
  storeParts_congr _ _ _ ⟨rfl, h⟩

theorem mem_of_memBasis {p : PlaneId} {s t : State} (h : memBasis p t = memBasis p s) : (t.pl p).mem = (s.pl p).mem :=
  congrArg Prod.fst (memPart_of_memBasis h)

/-! ### What a write leaves -/

/-- A plane without its memory and without what the PMU has recorded there. -/
def Plane.besideMem (x : Plane) : Plane := { x with mem := [], poison := [], stageTags := [], latent := [], written := [], events := [] }

/-- What a write of plane memory leaves: the rest of the plane, and every register but a controller's count of poisoned granules. -/
def besideMem (p : PlaneId) (s : State) : Plane × (Nat → Nat → Option Word) :=
  ((s.pl p).besideMem, fun u off => if off % 4096 = 0x054 then none else some (s.reg u off))

section
variable {p : PlaneId} {s t : State} (h : besideMem p t = besideMem p s)
include h

theorem plane_of_besideMem {α : Type} (g : Plane → α) (hg : ∀ x, g x.besideMem = g x) : g (t.pl p) = g (s.pl p) := by
  rw [← hg, show (t.pl p).besideMem = (s.pl p).besideMem from congrArg Prod.fst h, hg]

theorem get_of_besideMem (u : Nat) {f : RField} (hf : f.key % 4096 ≠ 0x054) : t.get u f = s.get u f := by
  have hreg := congrFun (congrFun (congrArg Prod.snd h) u) f.key
  simp only [besideMem, hf, if_false, Option.some.injEq] at hreg
  rw [State.get, hreg, State.get]

end

section
variable (p : PlaneId) (s : State)

theorem besideMem_modPl {g : Plane → Plane} (h : ∀ x, (g x).besideMem = x.besideMem) : besideMem p (s.modPl p g) = besideMem p s := by
  simp only [besideMem, State.modPl_pl_same, h, State.modPl_reg]

theorem besideMem_event (code inst n : Nat) : besideMem p (s.event p code inst n) = besideMem p s := by
  unfold State.event
  split
  · rfl
  · exact besideMem_modPl p s fun _ => rfl

theorem besideMem_storeGranule (addr : Nat) (d : List Byte) : besideMem p (storeGranule p addr d s).2 = besideMem p s := by
  simp only [storeGranule]
  split
  · split
    · rfl
    · exact Prod.ext rfl (congrArg Prod.snd (keyState_poisonCount p s _) :)
  · refine (besideMem_modPl p _ ?_).trans ?_
    · exact fun x => rfl
    · cases memInst s p addr
      · rfl
      · exact besideMem_event ..

theorem besideMem_storeParts (fuel addr : Nat) (d : List Byte) (r : Bool × State) :
    besideMem p (storeParts p fuel addr d r).2 = besideMem p r.2 := by
  induction fuel generalizing addr d r with
  | zero => rfl
  | succ fuel ih =>
    simp only [storeParts]
    split
    · rfl
    · exact (ih _ _ _).trans (besideMem_storeGranule p ..)

theorem besideMem_memStore (addr : Nat) (d : List Byte) : besideMem p (memStore p addr d s).2 = besideMem p s := besideMem_storeParts p ..
theorem besideMem_memWrite (addr : Nat) (d : List Byte) : besideMem p (memWrite p addr d s) = besideMem p s := besideMem_memStore p s addr d

end

end Sys2Proof.Machine
end

section
/-! SUPPORT. Sync objects, queues, messages, keys and digests from a core (R196, R201, R202, R216 to R220, R233). -/

namespace Sys2Proof.Machine

/-! ### Groups -/

theorem grp_congr {s t : State} {p : PlaneId} (h : (t.pl p).groups = (s.pl p).groups) (g : Nat) : grp t p g = grp s p g := by rw [grp, h, grp]

theorem grp_modGrp_same (p : PlaneId) (g : Nat) (f : Group → Group) (s : State) : grp (modGrp p g f s) p g = f (grp s p g) := by
  rw [grp, modGrp, State.modPl_pl_same, mgetD_mput_same, grp]

theorem grp_of_besideCore {p : PlaneId} {n : Nat} {s t : State} (h : besideCore p n t = besideCore p n s) (g : Nat) : grp t p g = grp s p g :=
  grp_congr (plane_of_besideCore h Plane.groups fun _ => rfl) g

@[simp] theorem coreBasis_modGrp (p : PlaneId) (s : State) (g : Nat) (f : Group → Group) : coreBasis p (modGrp p g f s) = coreBasis p s := by
  simp [modGrp]

@[simp] theorem memBasis_modGrp (p : PlaneId) (s : State) (g : Nat) (f : Group → Group) : memBasis p (modGrp p g f s) = memBasis p s :=
  memBasis_modPl p s fun _ => rfl

/-- A frame that GRQ sends changes the unit's frames alone. -/
theorem sendGroups_keeps (p : PlaneId) (eps : List Nat) (d : Payload) (s : State) :
    coreBasis p (sendGroups p eps d s) = coreBasis p s ∧ memBasis p (sendGroups p eps d s) = memBasis p s ∧
      ((sendGroups p eps d s).pl p).groups = (s.pl p).groups ∧ ((sendGroups p eps d s).pl p).lateCommit = (s.pl p).lateCommit := by
  unfold sendGroups
  split
  · exact ⟨rfl, rfl, rfl, rfl⟩
  · rw [issueFrame, State.modPl_pl_same]
    exact ⟨coreBasis_modPl p s fun _ => rfl, memBasis_modPl p s fun _ => rfl, rfl, rfl⟩

/-! ### Turns of QPOP and QDONE (R191) -/

/-- Taking a turn for a queue changes the core's transfers and operations alone. -/
theorem turnOp_keeps (p : PlaneId) (n cyc : Nat) (s : State) :
    besideCore p n (turnOp p n cyc s).2 = besideCore p n s ∧ (coreOf (turnOp p n cyc s).2 p n).x = (coreOf s p n).x ∧
      (coreOf (turnOp p n cyc s).2 p n).ls = (coreOf s p n).ls := by
  unfold turnOp stealTurn
  simp

/-- The memories of a plane are armed by what is beside a core. -/
theorem memArmed_of_besideCore {p : PlaneId} {n : Nat} {s t : State} (h : besideCore p n t = besideCore p n s) : memArmed t p = memArmed s p := by
  simp only [memArmed, plane_of_besideCore h Plane.latent fun _ => rfl, rp_of_besideCore h]

/-! ### QPOP (R216, R233) -/

section
variable {p : PlaneId} {s : State} (harmed : memArmed s p = false) (g : Nat)
include harmed

/-- The descriptor follows from what is beside the core. -/
theorem popDesc_of_besideCore {n : Nat} {t : State} (h : besideCore p n t = besideCore p n s) : (popDesc p g t).1 = (popDesc p g s).1 := by
  have hmem : (t.pl p).mem = (s.pl p).mem := plane_of_besideCore h Plane.mem fun _ => rfl
  have harmed' := (memArmed_of_besideCore h).trans harmed
  simp only [popDesc, memTouchAll, harmed, harmed', Bool.false_eq_true, if_false, memRead, grp_of_besideCore h, hmem, ft_of_besideCore h]

/-- The descriptor leaves the ring and is popped; nothing of a core changes. -/
theorem popDesc_takes : coreBasis p (popDesc p g s).2 = coreBasis p s ∧
    grp (popDesc p g s).2 p g =
      { grp s p g with cons := ((grp s p g).cons + 1) % 65536, popped := (grp s p g).popped ++ [((grp s p g).cons, (popDesc p g s).1)] } := by
  have hevent : ∀ t : State, ((t.event p 0x15 0xFF 1).pl p).groups = (t.pl p).groups := fun t =>
    plane_of_besideCore (besideCore_event p 0 t 0x15 0xFF 1) Plane.groups fun _ => rfl
  simp only [popDesc, memTouchAll, harmed, Bool.false_eq_true, if_false]
  exact ⟨by simp, by rw [grp_congr (hevent _), grp_modGrp_same]⟩

end

/-! ### Cores and their registers -/

theorem pu_ne_uCCX (p : PlaneId) (b : Blk) (n : CoreId) : pu p b ≠ uCCX p n.val := by
  have hcode : b.code < 0x40 := by cases b <;> decide
  unfold pu uCCX
  omega

/-- The cores of a plane, and their registers but for an offset at which only memory controllers count. -/
def coreSide (p : PlaneId) (s : State) : SMap Core × (CoreId → RField → Option Nat) :=
  ((s.pl p).cores, fun n f => if f.key % 4096 = 0x054 then none else some (s.get (uCCX p n.val) f))

section
variable {p : PlaneId} {s t : State}

theorem coreSide_of_coreBasis (h : coreBasis p t = coreBasis p s) : coreSide p t = coreSide p s :=
  Prod.ext (congrArg (fun b => b.2.2.2.2.2) h :) (by funext n f; simp only [coreSide, get_of_coreBasis h])

theorem coreSide_of_besideMem (h : besideMem p t = besideMem p s) : coreSide p t = coreSide p s := by
  refine Prod.ext (plane_of_besideMem h Plane.cores fun _ => rfl) ?_
  funext n f
  simp only [coreSide]
  split
  · rfl
  · next hf => rw [get_of_besideMem h _ hf]

/-- A register of a block of the plane is none of a core's. -/
theorem coreSide_put (b : Blk) (f : RField) (v : Nat) : coreSide p (s.put (pu p b) f v) = coreSide p s := by
  refine Prod.ext rfl ?_
  funext n g
  simp only [coreSide, State.get_put_ne _ _ (regKey_ne_of_unit (pu_lt p b) (pu_ne_uCCX p b n))]

variable (h : coreSide p t = coreSide p s)
include h

theorem coreOf_of_coreSide (n : Nat) : coreOf t p n = coreOf s p n := by
  rw [coreOf, show (t.pl p).cores = (s.pl p).cores from congrArg Prod.fst h, coreOf]

theorem get_of_coreSide (n : CoreId) {f : RField} (hf : f.key % 4096 ≠ 0x054) : t.get (uCCX p n.val) f = s.get (uCCX p n.val) f := by
  simpa only [coreSide, hf, if_false, Option.some.injEq] using congrFun (congrFun (congrArg Prod.snd h) n) f

theorem coreSt_of_coreSide (n : CoreId) : coreSt t p n.val = coreSt s p n.val := get_of_coreSide h n (by decide)

theorem notBusy_of_coreSide {n : CoreId} (hfree : notBusy s p n.val) : notBusy t p n.val := by
  rw [notBusy, State.on, get_of_coreSide h n (by decide), ← State.on]
  exact hfree

end

/-! ### QDONE (R216, R233, R234) -/

/-- A BARRIER_RELEASE changes GRQ's frames alone. -/
theorem releaseBarrier_keeps (p : PlaneId) (g q : Nat) (d l : List Byte) (s : State) :
    coreBasis p (releaseBarrier p g q d l s) = coreBasis p s ∧ memBasis p (releaseBarrier p g q d l s) = memBasis p s ∧
      ((releaseBarrier p g q d l s).pl p).groups = (s.pl p).groups ∧ ((releaseBarrier p g q d l s).pl p).lateCommit = (s.pl p).lateCommit := by
  simp only [releaseBarrier]
  split
  · exact sendGroups_keeps ..
  · exact ⟨rfl, rfl, rfl, rfl⟩

/-- A record in the completion ring, before its interrupt and its COMPLETE frame. -/
def recordInRing (p : PlaneId) (g : Nat) (d l : List Byte) (s : State) : State :=
  let x := grp s p g
  let t := (memWrite p (ringAddr x.cbase x.cent x.cprod) l s).event p 0x16 0xFF 1
  modGrp p g (fun x => { x with
      cprod := (x.cprod + 1) % 65536, dseq := (x.dseq + 1) % 65536, arrivals := x.arrivals.filter (fun a => a.1 ≠ x.dseq) })
    (t.sample p 3 g (t.ft p - ofBytes (sliceB d 0x78 8)))

/-- Where no COMPLETE frame is due, only the interrupt follows. -/
theorem postRecord_of_no_launch {p : PlaneId} {g : Nat} {s : State} (hlaunch : (grp s p g).launch = false) (d l : List Byte) :
    ∃ f v, postRecord p g d l s = recordInRing p g d l s ∨ postRecord p g d l s = (recordInRing p g d l s).put (pu p .GRQ) f v := by
  refine ⟨Fld.GRQ_CPEND.at (g / 32), (recordInRing p g d l s).get (pu p .GRQ) (Fld.GRQ_CPEND.at (g / 32)) ||| 2 ^ (g % 32), ?_⟩
  simp only [postRecord, hlaunch, Bool.false_eq_true, if_false]
  split
  · exact .inr rfl
  · exact .inl rfl

section
variable (p : PlaneId) (g : Nat) (d l : List Byte) (s : State)

theorem recordInRing_coreSide : coreSide p (recordInRing p g d l s) = coreSide p s :=
  (coreSide_of_coreBasis (s := memWrite p (ringAddr (grp s p g).cbase (grp s p g).cent (grp s p g).cprod) l s) (by simp [recordInRing])).trans
    (coreSide_of_besideMem (besideMem_memWrite ..))

theorem recordInRing_late : ((recordInRing p g d l s).pl p).lateCommit = (s.pl p).lateCommit := by
  have hwrite := plane_of_besideMem (besideMem_memWrite p s (ringAddr (grp s p g).cbase (grp s p g).cent (grp s p g).cprod) l) Plane.lateCommit
    fun _ => rfl
  rw [← hwrite]
  simp [recordInRing, modGrp, State.sample, State.event]

theorem recordInRing_mem : ((recordInRing p g d l s).pl p).mem =
    ((memWrite p (ringAddr (grp s p g).cbase (grp s p g).cent (grp s p g).cprod) l s).pl p).mem := by
  simp [recordInRing, modGrp, State.sample, State.event]

theorem recordInRing_grp : grp (recordInRing p g d l s) p g = { grp s p g with
    cprod := ((grp s p g).cprod + 1) % 65536, dseq := ((grp s p g).dseq + 1) % 65536
    arrivals := (grp s p g).arrivals.filter (fun a => a.1 ≠ (grp s p g).dseq) } := by
  have hwrite := plane_of_besideMem (besideMem_memWrite p s (ringAddr (grp s p g).cbase (grp s p g).cent (grp s p g).cprod) l) Plane.groups
    fun _ => rfl
  rw [recordInRing, grp_modGrp_same, grp_congr (s := s)]
  rw [← hwrite]
  simp [State.sample, State.event]

end

/-- QDONE of the oldest popped descriptor posts its record. -/
theorem doneDesc_posts {p : PlaneId} {n g q : Nat} {d l : List Byte} {r : List (Nat × List Byte)} {s : State} (hg : g < 1024)
    (hlate : (s.pl p).lateCommit = none) (hen : (grp s p g).en = true) (hcore : (grp s p g).core = n) (hlaunch : (grp s p g).launch = false)
    (habandoned : (grp s p g).abandoned = []) (hpopped : (grp s p g).popped = (q, d) :: r) (hroom : compFull (grp s p g) = false)
    (hq : q = ofBytes (sliceB l 6 2)) :
    (doneDesc p n g l s).1 = sOk ∧ coreSide p (doneDesc p n g l s).2 = coreSide p s ∧
      (grp (doneDesc p n g l s).2 p g).popped = r ∧ (grp (doneDesc p n g l s).2 p g).cprod = ((grp s p g).cprod + 1) % 65536 ∧
      (grp (doneDesc p n g l s).2 p g).dseq = ((grp s p g).dseq + 1) % 65536 ∧
      ((doneDesc p n g l s).2.pl p).mem = ((memWrite p (ringAddr (grp s p g).cbase (grp s p g).cent (grp s p g).cprod) l s).pl p).mem := by
  obtain ⟨hbasis, hmemBasis, hgroups, hcommit⟩ := releaseBarrier_keeps p g q d l s
  obtain ⟨m, hm⟩ : ∃ m, m = modGrp p g (fun x => { x with popped := r }) (releaseBarrier p g q d l s) := ⟨_, rfl⟩
  have hgrp : grp m p g = { grp s p g with popped := r } := by rw [hm, grp_modGrp_same, grp_congr hgroups]
  have hcoreSide : coreSide p m = coreSide p s := coreSide_of_coreBasis (by rw [hm, coreBasis_modGrp, hbasis])
  have hmem : memBasis p m = memBasis p s := by rw [hm, memBasis_modGrp, hmemBasis]
  have hlate' : (m.pl p).lateCommit = none := by rw [hm, modGrp, State.modPl_pl_same, ← hlate, ← hcommit]
  have hdone : doneDesc p n g l s = (sOk, retryCommit p g (postRecord p g d l m)) := by
    have hbranch : ¬ (¬ (grp s p g).en = true ∨ (grp s p g).core ≠ n ∨ 1024 ≤ g) := by simp [hen, hcore, hg]
    simp only [doneDesc, if_neg hbranch, hpopped, habandoned, ← hq, ne_eq, not_true_eq_false, or_self, if_false, hroom, Bool.false_eq_true, ← hm]
    rfl
  obtain ⟨f, v, hpost⟩ := postRecord_of_no_launch (s := m) (g := g) (by rw [hgrp]; exact hlaunch) d l
  have hpl : (postRecord p g d l m).pl p = (recordInRing p g d l m).pl p := by
    obtain hpost | hpost := hpost <;> rw [hpost]
    rfl
  have hside : coreSide p (postRecord p g d l m) = coreSide p (recordInRing p g d l m) := by
    obtain hpost | hpost := hpost <;> rw [hpost]
    exact coreSide_put ..
  have hretry : retryCommit p g (postRecord p g d l m) = postRecord p g d l m := by
    rw [retryCommit, hpl, recordInRing_late, hlate']
  have hfinal : grp (postRecord p g d l m) p g = grp (recordInRing p g d l m) p g := grp_congr (congrArg Plane.groups hpl) g
  rw [hdone]
  dsimp only
  rw [hretry, hfinal, recordInRing_grp, hgrp, hpl, recordInRing_mem, hgrp]
  exact ⟨rfl, hside.trans ((recordInRing_coreSide ..).trans hcoreSide), rfl, rfl, rfl, mem_of_memBasis (memStore_congr hmem ..).2⟩

/-! ### Frames of the queues -/

/-- OPEN frames change GRQ's frames alone. -/
theorem sendOpen_keeps (p : PlaneId) (g q : Nat) (d : List Byte) (s : State) :
    coreBasis p (sendOpen p g q d s) = coreBasis p s ∧ ((sendOpen p g q d s).pl p).groups = (s.pl p).groups := by
  unfold sendOpen
  split
  · obtain ⟨hbasis, -, hgroups, -⟩ := sendGroups_keeps p ((endpointIdx s p g).map fun i => entAddr (memberEntry s p g i))
      (ctlPayload [] 0x13 0 g q 0 (descDigest d)) s
    exact ⟨hbasis, hgroups⟩
  · exact ⟨rfl, rfl⟩

/-- A core's local store takes bytes. -/
def Core.storeLs (a : Nat) (l : List Byte) (c : Core) : Core := { c with ls := memPuts c.ls a l }

/-- A core gets a status and bytes of its local store. -/
theorem storeLs_returns {s w : State} {p : PlaneId} {n : CoreId} (hfree : notBusy w p n.val) (hruns : coreSt w p n.val = 1)
    (hx : (coreOf w p n.val).x = (coreOf (atIssue s p n) p n.val).x) (row : CoreRow) (code value lat a : Nat) (l : List Byte) :
    gaveX s (applyEff p n.val row (issued s p n) (status (issued s p n) code value lat (modCore p n.val (Core.storeLs a l) w))) p n
        (statusVal code value) ∧
      besideCore p n.val (applyEff p n.val row (issued s p n) (status (issued s p n) code value lat (modCore p n.val (Core.storeLs a l) w))) =
        besideCore p n.val w ∧
      (coreOf (applyEff p n.val row (issued s p n) (status (issued s p n) code value lat (modCore p n.val (Core.storeLs a l) w))) p n.val).ls =
        memPuts (coreOf w p n.val).ls a l := by
  have hstored := besideCore_modCore p n.val w (Core.storeLs a l)
  have hfree' := notBusy_modCore hfree (Core.storeLs a l)
  obtain ⟨hgave, hbeside⟩ := gaveX_of_returns (row := row) (status_returns (issued s p n) code value lat _) hfree'
    ((coreSt_of_besideCore hstored n.val).trans hruns) (by rw [coreOf_modCore_same]; exact hx)
  refine ⟨hgave, hbeside.trans hstored, (applyEff_x hfree' ..).ls.trans ?_⟩
  rw [Core.takeX_ls, coreOf_modCore_same]
  rfl

/-- What GRQ collected for a collective goes (R233). -/
def dropColl (p : PlaneId) (g q : Nat) (s : State) : State :=
  s.modPl p (fun x => { x with colls := x.colls.filter (fun c => !(c.group = g && c.cseq = q)) })

theorem dropColl_keeps (p : PlaneId) (g q : Nat) (s : State) :
    coreBasis p (dropColl p g q s) = coreBasis p s ∧ ((dropColl p g q s).pl p).groups = (s.pl p).groups :=
  ⟨coreBasis_modPl p s fun _ => rfl, by rw [dropColl, State.modPl_pl_same]⟩

/-- A QPOP takes the next descriptor, of collective q: where no context is bound for it, what GRQ collected for it goes; its OPEN frames are
sent. -/
def takeDesc (p : PlaneId) (g q : Nat) (bound : Bool) (s : State) : State :=
  sendOpen p g q (popDesc p g s).1 (if bound then (popDesc p g s).2 else dropColl p g q (popDesc p g s).2)

theorem takeDesc_pops {p : PlaneId} {s : State} (harmed : memArmed s p = false) (g q : Nat) (bound : Bool) :
    coreBasis p (takeDesc p g q bound s) = coreBasis p s ∧ grp (takeDesc p g q bound s) p g =
      { grp s p g with cons := ((grp s p g).cons + 1) % 65536, popped := (grp s p g).popped ++ [((grp s p g).cons, (popDesc p g s).1)] } := by
  obtain ⟨hpopBasis, hpopGrp⟩ := popDesc_takes harmed g
  obtain ⟨hopenBasis, hopenGroups⟩ := sendOpen_keeps p g q (popDesc p g s).1
    (if bound then (popDesc p g s).2 else dropColl p g q (popDesc p g s).2)
  refine ⟨hopenBasis.trans (Eq.trans ?_ hpopBasis), (grp_congr hopenGroups g).trans (Eq.trans ?_ hpopGrp)⟩
  · cases bound
    · exact (dropColl_keeps p g q _).1
    · rfl
  · cases bound
    · exact grp_congr (dropColl_keeps p g q _).2 g
    · rfl

/-! ### The instructions -/

/-- Settles O36: each row's effect is an operation that waits, a status, or a change of the group that it names with the core's local store. -/
theorem queueInstructions : Obligations.QueueInstructions := by
  unfold Obligations.QueueInstructions
  refine ⟨?sync, ?larr, ?kcmd, ?noKey, ?kdig, ?msend, ?qpop, ?empty, ?qdone⟩
  case sync =>
    intro p n s e he h
    simp only [List.mem_cons, List.not_mem_nil, or_false] at he
    obtain rfl | rfl | rfl := he
    all_goals exact completes_later h rfl rfl rfl rfl
  case larr =>
    intro p n s h ha
    obtain ⟨t, ht, hops, hpc, -, honly⟩ := completes_later h (i := .larr p n) rfl rfl rfl (if_neg (Nat.not_le.mpr ha))
    exact ⟨t, ht, ⟨_, hops, rfl, rfl, rfl⟩, hpc, honly⟩
  case kcmd =>
    intro p n s h hkey hls
    obtain ⟨t, ht, hops, hpc, -, honly⟩ := completes_later h (i := .kcmd p n) rfl rfl rfl (by
      simp only [issued_b, hkey, hls, Bool.not_true, Bool.false_eq_true, if_false, lsLoad_clean (canIssue_clean h)]
      rfl)
    exact ⟨t, ht, ⟨_, hops, rfl, rfl, rfl⟩, hpc, honly⟩
  case noKey =>
    intro p n s h hkey
    exact completes_returns h (i := .kcmd p n) rfl (by
      simp only [hkey, Bool.not_false, if_true]
      exact status_returns (issued s p n) ..)
  case kdig =>
    intro p n s h ha hls
    exact completes_returns h (i := .kdig p n) rfl (by
      simp only [issued_a, issued_w, ha, ne_eq, not_true_eq_false, if_false, Nat.not_lt.mpr hls, lsLoad_clean (canIssue_clean h)]
      exact Eff.returns_x ..)
  case msend =>
    intro p n s h hls hroom
    obtain ⟨t, ht, hgave, hregs, hbeside⟩ := completes_from h (i := .msend p n) rfl (coreBasis_issueFrame ..) (by
      simp only [issued_a, issued_b, hls, Bool.not_true, Bool.false_eq_true, if_false, Nat.not_le.mpr hroom, lsLoad_clean (canIssue_clean h)]
      exact status_returns (issued s p n) ..)
    have hframes := plane_of_besideCore hbeside Plane.unitFrames fun _ => rfl
    rw [issueFrame, State.modPl_pl_same] at hframes
    exact ⟨t, ht, hgave, hregs, _, hframes, rfl, rfl⟩
  case qpop =>
    intro p n g s h hg hls hserved hwaiting harmed
    subst hg
    obtain ⟨hturn, hturnX, hturnLs⟩ := turnOp_keeps p n.val (issueCyc s p n) (atIssue s p n)
    have harmed' := (memArmed_of_besideCore hturn).trans harmed
    obtain ⟨hbasis, hgrp⟩ := takeDesc_pops harmed' (rs1Of s p n).toNat (grp (atIssue s p n) p (rs1Of s p n).toNat).cons
      (boundFor (atIssue s p n) p (rs1Of s p n).toNat (grp (atIssue s p n) p (rs1Of s p n).toNat).cons).isSome
    rw [grp_of_besideCore hturn, popDesc_of_besideCore harmed _ hturn] at hgrp
    have hcode : firstCode [(!lsArg (issued s p n).b.toNat 128, sRange), (!servedBy (atIssue s p n) p n.val (issued s p n).a.toNat, sNotMine),
        (!grpWaiting (grp (atIssue s p n) p (issued s p n).a.toNat), sEmpty)] = sOk := by
      simp [firstCode, hls, hserved, hwaiting]
    obtain ⟨hgave, hbeside, hls'⟩ := storeLs_returns (s := s) (notBusy_of_coreBasis hbasis (notBusy_of_besideCore hturn (canIssue_notBusy h)))
      ((coreSt_of_coreBasis hbasis _).trans ((coreSt_of_besideCore hturn _).trans (canIssue_runs h)))
      ((congrArg Core.x (coreOf_of_coreBasis hbasis _)).trans hturnX) .qpop sOk 0 (turnOp p n.val (issueCyc s p n) (atIssue s p n)).1
      (rs2Of s p n).toNat (popDesc p (rs1Of s p n).toNat (turnOp p n.val (issueCyc s p n) (atIssue s p n)).2).1
    refine completes_issue h (i := .qpop p n) rfl ?_
    simp only [hcode, if_true]
    refine ⟨hgave, ?_, ?_, hls'.trans ?_⟩
    · exact (congrArg Group.cons ((grp_of_besideCore hbeside _).trans hgrp) :)
    · exact (congrArg Group.popped ((grp_of_besideCore hbeside _).trans hgrp) :)
    · rw [coreOf_of_coreBasis hbasis, hturnLs, popDesc_of_besideCore harmed _ hturn]
  case empty =>
    intro p n g s h hg hls hserved hwaiting
    subst hg
    obtain ⟨hbeside, hx, -⟩ := turnOp_keeps p n.val (issueCyc s p n) (atIssue s p n)
    obtain ⟨hgave, hends⟩ := gaveX_of_returns (row := .qpop) (status_returns (issued s p n) sEmpty 0 _ _)
      (notBusy_of_besideCore hbeside (canIssue_notBusy h)) ((coreSt_of_besideCore hbeside _).trans (canIssue_runs h)) hx
    refine completes_issue h (i := .qpop p n) rfl ?_
    have hcode : firstCode [(!lsArg (issued s p n).b.toNat 128, sRange), (!servedBy (atIssue s p n) p n.val (issued s p n).a.toNat, sNotMine),
        (!grpWaiting (grp (atIssue s p n) p (issued s p n).a.toNat), sEmpty)] = sEmpty := by
      simp [firstCode, hls, hserved, hwaiting]
    simp only [hcode, show sEmpty ≠ sOk by decide, if_false]
    exact ⟨hgave, onlyCore_of_besideCore (hends.trans hbeside)⟩
  case qdone =>
    intro p n g q d r s h hg hlt hls hlate ⟨hen, hcore, hlaunch, habandoned, hpopped, hroom, hq⟩
    subst hg
    obtain ⟨hbeside, hx, -⟩ := turnOp_keeps p n.val (issueCyc s p n) (atIssue s p n)
    have hgrp := grp_of_besideCore hbeside (rs1Of s p n).toNat
    obtain ⟨hcode, hside, hrest, hcprod, hdseq, hmem⟩ := doneDesc_posts (n := n.val)
      (s := (turnOp p n.val (issueCyc s p n) (atIssue s p n)).2) hlt
      ((plane_of_besideCore hbeside Plane.lateCommit fun _ => rfl).trans hlate) (by rw [hgrp]; exact hen) (by rw [hgrp]; exact hcore)
      (by rw [hgrp]; exact hlaunch) (by rw [hgrp]; exact habandoned) (by rw [hgrp]; exact hpopped) (by rw [hgrp]; exact hroom) hq
    obtain ⟨hgave, hends⟩ := gaveX_of_returns (row := .qdone) (status_returns (issued s p n) sOk 0 _ _)
      (notBusy_of_coreSide hside (notBusy_of_besideCore hbeside (canIssue_notBusy h)))
      ((coreSt_of_coreSide hside n).trans ((coreSt_of_besideCore hbeside _).trans (canIssue_runs h)))
      ((congrArg Core.x (coreOf_of_coreSide hside _)).trans hx)
    rw [hgrp] at hcprod hdseq hmem
    refine completes_issue h (i := .qdone p n) rfl ?_
    simp only [issued_a, issued_b, issued_cyc, hls, Bool.not_true, Bool.false_eq_true, if_false, lsLoad_clean (canIssue_clean h), hcode]
    refine ⟨hgave, ?_, ?_, ?_, ?_⟩
    · rw [grp_of_besideCore hends, hrest]
    · rw [grp_of_besideCore hends, hcprod]
    · rw [grp_of_besideCore hends, hdseq]
    · rw [plane_of_besideCore hends Plane.mem fun _ => rfl, hmem]
      exact mem_of_memBasis (memStore_congr (memBasis_of_besideCore hbeside) ..).2

end Sys2Proof.Machine
end

section
/-! SUPPORT. Events of a core apart from its instructions: waits that end, messages, the watchdog, saves and restores, transfers (R198, R199,
R206, R220 to R224). -/

namespace Sys2Proof.Machine

/-! ### Waits that end (R198, R199) -/

/-- A core whose wait ends in a cycle, at a fabric time. -/
def Core.resumed (cyc ft : Nat) (c : Core) : Core :=
  { c with wait := none, pc := c.pc + 4, ready := cyc, retired := ft, acct := cyc, csr := mput c.csr 0xB02 (mgetD c.csr 0xB02 0 + 1) }

/-- A core that gets the result of its wait in x rd. -/
def Core.gets (rd : Nat) (v : Dword) (c : Core) : Core := (dropLateX rd c).setX rd v

section
variable (rd : Nat) (v : Dword) (c : Core)

@[simp] theorem Core.gets_wait : (c.gets rd v).wait = c.wait := by
  unfold gets Core.setX
  split <;> rfl

@[simp] theorem Core.gets_pc : (c.gets rd v).pc = c.pc := by
  unfold gets Core.setX
  split <;> rfl

@[simp] theorem Core.gets_ready : (c.gets rd v).ready = c.ready := by
  unfold gets Core.setX
  split <;> rfl

@[simp] theorem Core.gets_x : (c.gets rd v).x = (c.setX rd v).x := by
  unfold gets Core.setX
  split <;> rfl

end

/-- What the PMU records of a wait that ends in a cycle (R449). -/
def countWait (p : PlaneId) (n : Nat) (w : CoreWait) (cyc code : Nat) (s : State) : State :=
  let first := max w.cyc (cycleFrom (cyclesPerSlot s p) (s.ft p))
  let s := (List.range (cyc - first)).foldl (fun t i => t.coreEvent p n 0x43 (first + i) 1) s
  let s := ((s.coreEvent p n 0x41 cyc 1).coreEvent p n 0x42 cyc 1).coreEvent p n (if code = 0 then 0x102 else 0x101) cyc (cyc - w.cyc)
  if code = 0 then s.sample p 6 n (s.ft p - w.at') else s

section
variable (p : PlaneId) (n : Nat) (w : CoreWait) (cyc code : Nat) (s : State)

@[simp] theorem besideCore_countWait : besideCore p n (countWait p n w cyc code s) = besideCore p n s := by
  have hcycles := fun first l => foldl_keeps (besideCore p n) (f := fun t i => t.coreEvent p n 0x43 (first + i) 1)
    (fun t i => besideCore_coreEvent ..) l s
  unfold countWait
  split <;> simp [hcycles]

@[simp] theorem coreOf_countWait : coreOf (countWait p n w cyc code s) p n = coreOf s p n := by
  have hcycles := fun first l => foldl_keeps (coreOf · p n) (f := fun t i => t.coreEvent p n 0x43 (first + i) 1)
    (fun t i => coreOf_coreEvent ..) l s
  unfold countWait
  split <;> simp [hcycles]

end

/-- SWAIT ends: its core goes on with a status and a value, an end without the condition is counted at SYN, and nothing else changes. -/
theorem endWait_swait {w : CoreWait} (hkind : w.kind = 1) (p : PlaneId) (n cyc code value : Nat) (s : State) :
    ∃ v, endWait p n w cyc code value s = setCoreSt p n 1 (if code = 0 then v else v.incSat (pu p .SYN) Fld.SYN_STAT_TMO_CNT) ∧
      besideCore p n v = besideCore p n s ∧ coreOf v p n = ((coreOf s p n).resumed cyc (s.ft p)).gets w.rd (statusVal code value) := by
  refine ⟨countWait p n w cyc code (modCore p n (fun c => (c.resumed cyc (s.ft p)).gets w.rd (statusVal code value)) s), ?_, by simp, by simp⟩
  unfold endWait countWait
  by_cases hcode : code = 0 <;>
    simp only [hkind, hcode, Nat.reduceEqDiff, Nat.reduceLeDiff, and_false, and_true, and_self, not_true_eq_false, not_false_eq_true,
      ne_eq, if_true, if_false] <;>
    rfl

/-- What a core shows after an SWAIT. -/
theorem swait_ends {w : CoreWait} (hkind : w.kind = 1) (p : PlaneId) (n cyc code value : Nat) (s : State) :
    let t := endWait p n w cyc code value s
    (coreOf t p n).wait = none ∧ (coreOf t p n).pc = (coreOf s p n).pc + 4 ∧ coreSt t p n = 1 ∧
      (coreOf t p n).x = ((coreOf s p n).setX w.rd (statusVal code value)).x ∧ (coreOf t p n).ready = cyc ∧
      (t.pl p).mem = (s.pl p).mem ∧ (t.pl p).syncs = (s.pl p).syncs := by
  intro t
  obtain ⟨v, ht, hbeside, hcore⟩ := endWait_swait hkind p n cyc code value s
  have hpl : t.pl p = v.pl p := by
    rw [show t = _ from ht]
    split <;> rfl
  have hcore' : coreOf t p n = ((coreOf s p n).resumed cyc (s.ft p)).gets w.rd (statusVal code value) := by rw [← hcore, coreOf, hpl, coreOf]
  have hst : coreSt t p n = 1 := by rw [show t = _ from ht, coreSt_setCoreSt]
  rw [hcore', hpl, Core.gets_wait, Core.gets_pc, Core.gets_x, Core.gets_ready]
  have hx : ((coreOf s p n).resumed cyc (s.ft p)).x = (coreOf s p n).x := rfl
  exact ⟨rfl, rfl, hst, Core.setX_x_congr hx .., rfl, plane_of_besideCore hbeside Plane.mem fun _ => rfl,
    plane_of_besideCore hbeside Plane.syncs fun _ => rfl⟩

/-! ### Registers of other units -/

theorem unitBlk_uCCX : ∀ (p : PlaneId) (n : CoreId), unitBlk (uCCX p n.val) = some (.CCX, n.val) := by decide

theorem uCCX_lt (p : PlaneId) (n : CoreId) : uCCX p n.val < 0x400 := by
  unfold uCCX
  omega

/-- A register of a block of the plane is apart from a core's state. -/
theorem get_setCoreSt (p : PlaneId) (b : Blk) (f : RField) (n : CoreId) (v : Nat) (s : State) :
    (setCoreSt p n.val v s).get (pu p b) f = s.get (pu p b) f :=
  State.get_put_ne _ _ (regKey_ne_of_unit (uCCX_lt p n) (pu_ne_uCCX p b n).symm)

/-! ### The watchdog (R221) -/

/-- A halt writes CCX_STAT alone of its core's registers. -/
theorem get_haltCore (p : PlaneId) (n : Nat) (c : HCause) (s : State) {f : RField} (hf : Fld.CCX_STAT_STATE.key % 4096 ≠ f.key % 4096) :
    (haltCore p n c s).get (uCCX p n) f = s.get (uCCX p n) f := by
  rw [haltCore, modCore, setCore, State.modPl_get, State.get_put_ne (f := Fld.CCX_STAT_HCAUSE) _ _ (regKey_ne_of_mod hf), setCoreSt,
    State.get_put_ne _ _ (regKey_ne_of_mod hf)]

theorem react_wdog (p : PlaneId) (n : CoreId) (cls : FaultClass) (wh detail : Nat) (s : State) :
    react (uCCX p n.val) .CCX 2 cls wh detail s = haltCore p n.val .wdog s := by
  have hcore : uCCX p n.val % 256 - 0x40 = n.val := by
    unfold uCCX
    omega
  simp only [react, unitPlane_uCCX p n.isLt, hcore]

/-- What the watchdog of a core detects. -/
def wdogFault (n : CoreId) : Detection := { src := 2, cls := .u, loc := n.val, detail := 0 }

/-- The watchdog's fault halts its core and is logged. -/
theorem detect_wdog {p : PlaneId} {n : CoreId} {s : State} (hclass : s.get (uCCX p n.val) Fld.BLK_ERR_CLASS = 0)
    (hnone : detectedNow s (uCCX p n.val) = []) :
    let t := detect (uCCX p n.val) 2 .u n.val 0 s
    coreSt t p n.val = 0 ∧ t.get (uCCX p n.val) Fld.CCX_STAT_HCAUSE = 3 ∧ t.get (uCCX p n.val) Fld.BLK_ERR_CLASS = 2 ∧
      t.get (uCCX p n.val) Fld.BLK_ERR_CLASS_SOURCE = 2 := by
  intro t
  have ht : t = haltCore p n.val .wdog (logOrDead (uCCX p n.val) .CCX (wdogFault n) s) :=
    (detectFault_of_u (unitBlk_uCCX p n) rfl s).trans (react_wdog ..)
  obtain ⟨hst, hcause, -⟩ := haltCore_halts p n.val .wdog (logOrDead (uCCX p n.val) .CCX (wdogFault n) s)
  obtain ⟨hlog, hsource⟩ := logOrDead_captured (d := wdogFault n) (b := .CCX) (by decide) (show 2 < 256 by decide) hclass hnone
  rw [ht, get_haltCore (f := Fld.BLK_ERR_CLASS) _ _ _ _ (by decide), get_haltCore (f := Fld.BLK_ERR_CLASS_SOURCE) _ _ _ _ (by decide)]
  exact ⟨hst, hcause, hlog, hsource⟩

/-! ### Reads and transfers through the memory controllers (R206) -/

/-- Counting reads touches what the PMU records alone. -/
theorem countReads_keeps (p : PlaneId) (n addr k : Nat) (s : State) :
    besideCore p n (countReads p addr k s) = besideCore p n s ∧ coreOf (countReads p addr k s) p n = coreOf s p n :=
  ⟨foldl_keeps (besideCore p n) (fun t i => by split <;> simp) _ s, foldl_keeps (coreOf · p n) (fun t i => by split <;> simp) _ s⟩

theorem memTouchAll_unarmed {p : PlaneId} {s : State} (harmed : memArmed s p = false) (addr k : Nat) : memTouchAll p addr k s = s := by
  simp only [memTouchAll, harmed, Bool.false_eq_true, if_false]

/-- Poison follows from memory and from what is lost. -/
theorem poisonedAt_of_memBasis {p : PlaneId} {s t : State} (h : memBasis p t = memBasis p s) (addr k : Nat) :
    poisonedAt t p addr k = poisonedAt s p addr k := by
  have hpoison : (t.pl p).poison = (s.pl p).poison := congrArg (fun m => m.2.1) (memPart_of_memBasis h)
  have hbanks : (t.pl p).fencedBanks = (s.pl p).fencedBanks := congrArg (fun m => m.2.2.2.1) (memPart_of_memBasis h)
  simp only [poisonedAt, poisonedGr, targetLost_of_memBasis h, bankOf_of_memBasis h, hpoison, hbanks]

/-! ### Restores (R224) -/

/-- The image of a core has been read: memory controllers count the reads, and the core its turns. -/
def coreImageRead (p : PlaneId) (n : Nat) (s : State) : State :=
  (countReads p (saveAddr s p n) imageBytes s).coreEvent p n 0x44 (cycleFrom (cyclesPerSlot s p) (s.ft p)) (imageBytes / 128)

theorem coreImageRead_keeps (p : PlaneId) (n : Nat) (s : State) :
    besideCore p n (coreImageRead p n s) = besideCore p n s ∧ coreOf (coreImageRead p n s) p n = coreOf s p n := by
  obtain ⟨hbeside, hcore⟩ := countReads_keeps p n (saveAddr s p n) imageBytes s
  exact ⟨(besideCore_coreEvent ..).trans hbeside, (coreOf_coreEvent ..).trans hcore⟩

/-- A restore follows from the image as it stands before the reads are counted. -/
theorem restoreDone_eq {p : PlaneId} {n : CoreId} {s : State} (hst : coreSt s p n.val = 5) (harmed : memArmed s p = false) :
    execCcRestoreDone p n s =
      if imageOk p (memRead s p (saveAddr s p n.val) imageBytes) = true ∧ ¬ poisonedAt s p (saveAddr s p n.val) imageBytes = true then
        let r := restoreCore (coreImageRead p n.val s) p (coreOf s p n.val) (memRead s p (saveAddr s p n.val) imageBytes)
        .next (setCoreSt p n.val 0 ((setCore p n.val r.1 r.2).put (uCCX p n.val) Fld.CCX_STAT_RESTORED 1))
      else .next (setCoreSt p n.val (if (coreOf s p n.val).wasSaved then 4 else 0)
        ((coreImageRead p n.val s).put (uCCX p n.val) Fld.CCX_STAT_IMG_BAD 1)) := by
  obtain ⟨hbeside, hcore⟩ := coreImageRead_keeps p n.val s
  have hread : ∀ a k, memRead (coreImageRead p n.val s) p a k = memRead s p a k := fun a k =>
    congrArg (memBytes · a k) (plane_of_besideCore hbeside Plane.mem fun _ => rfl)
  have hrun : (countReads p (saveAddr s p n.val) imageBytes (memTouchAll p (saveAddr s p n.val) imageBytes s)).coreEvent p n.val 0x44
      (cycleFrom (cyclesPerSlot s p) (s.ft p)) (imageBytes / 128) = coreImageRead p n.val s := by rw [memTouchAll_unarmed harmed, coreImageRead]
  simp only [execCcRestoreDone, hst, ne_eq, not_true_eq_false, if_false, hrun, hcore, hread,
    poisonedAt_of_memBasis (memBasis_of_besideCore hbeside)]

/-! ### Transfers (R206) -/

/-- A core with no operations whose transfers go through the memory controllers takes no turn. -/
theorem runXfers_idle {p : PlaneId} {n : Nat} {s : State} (hops : (coreOf s p n).ops = []) (hx : ∀ y ∈ (coreOf s p n).xfers, y.onTurns = false)
    (c : Nat) : runXfers p n c s = s := by
  have hmove : ∀ fuel, advanceXfers p n c fuel s = s
    | 0 => rfl
    | fuel + 1 => by
      unfold advanceXfers
      split
      · rfl
      · next i x hhead =>
        obtain ⟨e, hfind, he⟩ := Option.map_eq_some_iff.mp hhead
        obtain rfl : e.1 = x := congrArg Prod.snd he
        simp [hx _ (List.fst_mem_of_mem_zipIdx (List.mem_of_find?_eq_some hfind))]
  simp only [runXfers, hops, List.filter_nil, List.foldl_nil, moveXfers, hmove]

/-! ### The events -/

/-- Settles O27: each event's effect on the core, with the rules of waits, faults, writes and reads. -/
theorem coreEvents : Obligations.CoreEvents := by
  unfold Obligations.CoreEvents
  refine ⟨?retire, ?timeout, ?message, ?dropped, ?watchdog, ?saved, ?badImage, ?restored, ?transfer⟩
  case retire =>
    intro p n w m v s hwait hkind hmet hst hdue
    obtain ⟨hdone, hpc, hrun, hx, hready, hmem, hsyncs⟩ := swait_ends hkind p n.val (retireCycle (cyclesPerSlot s p) w m) 0 v s
    refine ⟨_, ?_, hdone, hpc, hrun, hx, hready, hmem, hsyncs⟩
    simp only [exec, execWaitRetire, hwait, hkind, hmet, hst, hdue, Nat.reduceEqDiff, if_false, true_and, if_true]
  case timeout =>
    intro p n w d s hwait hkind hdeadline hmet hst hlate
    have hvalue : timeoutValue s p w = (syncVal s p w.arg).toNat := by simp only [timeoutValue, hkind, if_true]
    obtain ⟨hdone, hpc, hrun, hx, -, -, -⟩ := swait_ends hkind p n.val (cycleFrom (cyclesPerSlot s p) (d + 1)) 0x10
      (w.lapse.getD (syncVal s p w.arg).toNat) s
    obtain ⟨v, hend, hbeside, -⟩ := endWait_swait hkind p n.val (cycleFrom (cyclesPerSlot s p) (d + 1)) 0x10
      (w.lapse.getD (syncVal s p w.arg).toNat) s
    refine ⟨_, ?_, hdone, hpc, hrun, hx, ?_⟩
    · simp only [exec, execWaitTimeout, hwait, hdeadline, hmet, hst, hlate, hvalue, Option.isNone_none, and_self, if_true]
    · rw [hend, get_setCoreSt, if_neg (by decide), incSat_get _ _ _ rfl, get_of_besideCore hbeside]
      rfl
  case message =>
    intro p n sm sc d s hpower hsaving hsaved hroom
    refine ⟨_, by
      simp only [exec, execMsgArrive, hpower, hsaving, hsaved, Nat.not_le.mpr hroom, not_true_eq_false, or_self, if_false]
      rfl, ?_, ?_⟩
    · rw [coreOf_modCore_same]
    · rfl
  case dropped =>
    intro p n sm sc d s hpower hfull
    refine ⟨_, by
      simp only [exec, execMsgArrive, hpower, hfull, not_true_eq_false, or_true, if_false, if_true]
      rfl, ?_, ?_⟩
    · rfl
    · exact incSat_get _ _ _ rfl
  case watchdog =>
    intro p n s hst hdue hclass hnone
    exact ⟨_, by simp only [exec, execCcWatchdog, hst, hdue, and_self, if_true], detect_wdog hclass hnone⟩
  case saved =>
    intro p n s hst hxfers hops hfeeds
    have hside : coreSide p (memWrite p (saveAddr s p n.val) (saveImage s p n.val) s) = coreSide p s :=
      coreSide_of_besideMem (besideMem_memWrite ..)
    refine ⟨_, by
      simp only [exec, execCcSaveDone, hst, hxfers, hops, hfeeds, and_self, if_true]
      rfl, ?_, ?_, ?_⟩
    · exact coreSt_setCoreSt ..
    · exact plane_of_besideCore (besideCore_coreEvent p n.val _ ..) Plane.mem fun _ => rfl
    · rw [coreOf_setCoreSt, coreOf_coreEvent, coreOf_of_coreSide hside]
  case badImage =>
    intro p n s hst harmed hbad
    have hexec : exec (.ccRestoreDone p n) s = .next (setCoreSt p n.val (if (coreOf s p n.val).wasSaved then 4 else 0)
        ((coreImageRead p n.val s).put (uCCX p n.val) Fld.CCX_STAT_IMG_BAD 1)) := by
      rw [exec, restoreDone_eq hst harmed, if_neg (by simp [hbad])]
    refine ⟨_, hexec, ?_, ?_, ?_⟩
    · rw [coreSt_setCoreSt]
      split <;> rfl
    · rw [setCoreSt, State.get_put_apart (f := Fld.CCX_STAT_STATE) (g := Fld.CCX_STAT_IMG_BAD) _ _ rfl rfl rfl rfl, State.get_put_same _ _ _ _ rfl]
      rfl
    · rw [coreOf_setCoreSt, coreOf_put, (coreImageRead_keeps ..).2]
  case restored =>
    intro p n s hst harmed hgood hclean
    obtain ⟨r, hr⟩ : ∃ r, r = restoreCore (coreImageRead p n.val s) p (coreOf s p n.val) (memRead s p (saveAddr s p n.val) imageBytes) :=
      ⟨_, rfl⟩
    have hpc : r.1.pc = BitVec.ofNat 64 (img (memRead s p (saveAddr s p n.val) imageBytes) 0x138 8) := by
      rw [hr]
      rfl
    have hexec : exec (.ccRestoreDone p n) s =
        .next (setCoreSt p n.val 0 ((setCore p n.val r.1 r.2).put (uCCX p n.val) Fld.CCX_STAT_RESTORED 1)) := by
      rw [exec, restoreDone_eq hst harmed, if_pos (by simp [hgood, hclean]), hr]
    refine ⟨_, hexec, ?_, ?_, ?_⟩
    · rw [coreSt_setCoreSt]
    · rw [setCoreSt, State.get_put_apart (f := Fld.CCX_STAT_STATE) (g := Fld.CCX_STAT_RESTORED) _ _ rfl rfl rfl rfl,
        State.get_put_same _ _ _ _ rfl]
      rfl
    · rw [coreOf_setCoreSt, coreOf_put, coreOf_setCore_same, hpc]
  case transfer =>
    intro p n x r s hops hxfers hkind hkinds hclean harmed
    have hturns : ∀ y : Xfer, y.kind = 2 ∨ y.kind = 3 → y.onTurns = false := by
      rintro y (hy | hy) <;> simp [Xfer.onTurns, hy]
    have hidle := runXfers_idle (p := p) (n := n.val) (s := s) hops (by
      rw [hxfers]
      exact List.forall_mem_cons.mpr ⟨hturns x hkind, fun y hy => hturns y (hkinds y hy)⟩)
    have hmove : moveAll p n.val x s = memStore p x.dst (memRead s p x.src x.len) (countReads p x.src x.len s) := by
      simp only [moveAll, memTouchAll_unarmed harmed, hclean, Bool.false_eq_true, if_false]
    obtain ⟨hflag, hbasis⟩ := memStore_congr (memBasis_countReads p s x.src x.len) x.dst (memRead s p x.src x.len)
    have hcore : coreOf (memStore p x.dst (memRead s p x.src x.len) (countReads p x.src x.len s)).2 p n.val = coreOf s p n.val :=
      (coreOf_of_coreSide (coreSide_of_besideMem (besideMem_memStore ..)) _).trans (countReads_keeps ..).2
    refine ⟨_, by
      simp only [exec, execXferComplete, hidle, hxfers, hturns x hkind, Bool.false_eq_true, false_and, if_false, hmove, hflag]
      rfl, ?_, ?_, ?_⟩
    · rw [coreOf_modCore_same, coreOf_coreEvent, hcore, hxfers]
      cases r <;> rfl
    · exact (plane_of_besideCore ((besideCore_modCore p n.val _ _).trans (besideCore_coreEvent ..)) Plane.mem fun _ => rfl).trans
        (mem_of_memBasis hbasis)
    · rw [coreOf_modCore_same, coreOf_coreEvent, hcore]

end Sys2Proof.Machine
end

section
/-! SUPPORT. Group control frames that arrive, the records that GRQ posts for abandoned descriptors, and the end of a collective's time
(R232, R238, R246, R249, R250). -/

namespace Sys2Proof.Machine

/-! ### Frames that GRQ sends -/

section
variable (p : PlaneId) (ep : Nat) (d : Payload) (s : State)

theorem groups_sendGroup : ((sendGroup p ep d s).pl p).groups = (s.pl p).groups := by
  obtain ⟨-, -, hgroups, -⟩ := sendGroups_keeps p [ep] d s
  exact hgroups

theorem get_sendGroup (u : Nat) (f : RField) : (sendGroup p ep d s).get u f = s.get u f := by
  obtain ⟨hbasis, -⟩ := sendGroups_keeps p [ep] d s
  exact get_of_coreBasis hbasis u f

/-- An answer to an endpoint: one frame with one cell, behind the frames already sent. -/
theorem sendGroup_answers : ∃ f, ((sendGroup p ep d s).pl p).unitFrames = (s.pl p).unitFrames ++ [f] ∧ f.dests = [ep] ∧ f.cells = [d] :=
  ⟨_, by rw [sendGroup, sendGroups, if_neg (List.cons_ne_nil ep []), issueFrame, State.modPl_pl_same], rfl, rfl⟩

end

/-! ### LAUNCH (R232) -/

section
variable (p : PlaneId) (g : Nat) (b : List Byte) (s : State)

/-- A descriptor that enters a ring moves PROD. -/
theorem grp_pushDesc : grp (pushDesc p g b s) p g = { grp s p g with prod := ((grp s p g).prod + 1) % 65536 } := by
  rw [pushDesc, grp_modGrp_same, grp_congr (plane_of_besideMem (besideMem_memWrite ..) Plane.groups fun _ => rfl)]

theorem unitFrames_pushDesc : ((pushDesc p g b s).pl p).unitFrames = (s.pl p).unitFrames := by
  rw [pushDesc, modGrp, State.modPl_pl_same]
  exact plane_of_besideMem (besideMem_memWrite ..) Plane.unitFrames fun _ => rfl

end

section
variable {p : PlaneId} {ep : Fin 65536} {d : Payload} {s : State} (hok : ctlOk d = true) (htype : ctlType d = 0x10) (hg : ctlGroup d < 1024)
include hok htype hg

/-- A member's LAUNCH to a ring with room is queued and answered with 0 and its CSEQ. -/
theorem launch_queued (hen : (grp s p (ctlGroup d)).en = true) (hlaunch : (grp s p (ctlGroup d)).launch = true)
    (hmember : isMember s p (ctlGroup d) ep.val = true) (hroom : idxDist (grp s p (ctlGroup d)).cons (grp s p (ctlGroup d)).prod <
      (grp s p (ctlGroup d)).qent) :
    ∃ b, exec (.launch p ep d) s = .next (sendGroup p ep.val (ctlPayload [] 0x11 0 (ctlGroup d) (grp s p (ctlGroup d)).prod 0 0)
      (pushDesc p (ctlGroup d) b s)) := by
  refine ⟨(ctlBody d).take 0x70 ++ bytesOf 2 ep.val ++ (ctlBody d).drop 0x72, ?_⟩
  simp only [exec, execLaunch, hok, htype, hen, hlaunch, hmember, Nat.mod_eq_of_lt hg, Nat.not_le.mpr hg, Nat.not_le.mpr hroom, Bool.not_true,
    Bool.false_eq_true, ne_eq, not_true_eq_false, or_self, if_false]

/-- A LAUNCH to a disabled group is counted and answered with 2. -/
theorem launch_disabled (hen : (grp s p (ctlGroup d)).en = false) :
    exec (.launch p ep d) s = .next (sendGroup p ep.val (ctlPayload [] 0x11 2 (ctlGroup d) 0 0 0)
      (s.incSat (pu p .GRQ) Fld.GRQ_DISCARD_LAUNCH_REF)) := by
  simp only [exec, execLaunch, hok, htype, hen, Nat.mod_eq_of_lt hg, Bool.not_true, Bool.false_eq_true, ne_eq, not_true_eq_false,
    not_false_eq_true, or_true, if_false, if_true]

end

/-! ### BARRIER_ARRIVE (R246) -/

/-- An arrival that has been counted changes nothing. -/
theorem barrierArrive_again {p : PlaneId} {d : Payload} {s : State} (hok : ctlOk d = true)
    (hcounted : (grp s p (ctlGroup d)).arrivals.contains (ctlCseq d, ctlMidx d) = true) : exec (.barrierArrive p d) s = .next s := by
  simp only [exec, execBarrierArrive, hok, hcounted, Bool.not_true, Bool.false_eq_true, or_true, if_false, if_true]
  split
  · rfl
  · cases poppedDesc s p (ctlGroup d) (ctlCseq d) <;> rfl

/-- A member's first arrival with the barrier's digest is counted. -/
theorem barrierArrive_counts {p : PlaneId} {d : Payload} {b : List Byte} {s : State} (hok : ctlOk d = true) (htype : ctlType d = 0x15)
    (hpopped : poppedDesc s p (ctlGroup d) (ctlCseq d) = some b) (hbarrier : unkeyedBarrier b = true)
    (hmember : (member s p (ctlGroup d) (ctlMidx d)).map entKind = some 0)
    (hnew : (grp s p (ctlGroup d)).arrivals.contains (ctlCseq d, ctlMidx d) = false) (hdigest : ctlDigest d = descDigest b) :
    exec (.barrierArrive p d) s =
      .next (modGrp p (ctlGroup d) (fun x => { x with arrivals := x.arrivals ++ [(ctlCseq d, ctlMidx d)] }) s) := by
  simp only [exec, execBarrierArrive, hok, htype, hpopped, hbarrier, hmember, hnew, hdigest, Bool.not_true, Bool.false_eq_true, ne_eq,
    not_true_eq_false, decide_true, or_self, if_false]

/-! ### MISMATCH_REPORT (R175, R238) -/

/-- A change that keeps a collective's name is found under it. -/
theorem getColl_modColl {p : PlaneId} {g q : Nat} {s : State} {f : Coll → Coll} (hname : ∀ c, (f c).group = c.group ∧ (f c).cseq = c.cseq) :
    getColl (modColl p g q f s) p g q = f (getColl s p g q) := by
  have hfound : (getColl s p g q).group = g ∧ (getColl s p g q).cseq = q := by
    unfold getColl
    cases hc : (s.pl p).colls.find? (fun c => c.group = g && c.cseq = q) with
    | none => exact ⟨rfl, rfl⟩
    | some c => simpa using List.find?_some hc
  obtain ⟨hgroup, hcseq⟩ := hname (getColl s p g q)
  rw [getColl, modColl, State.modPl_pl_same, List.find?_cons_of_pos (by simp [hgroup, hcseq, hfound]), Option.getD_some]

/-- Where no context is bound, an abort is the collective's own record of it. -/
theorem abortColl_unbound {p : PlaneId} {g q : Nat} {s : State} (hnot : (getColl s p g q).aborted = none) (hctxs : (s.pl p).ctxs = [])
    (midx digest : Nat) : abortColl p g q midx digest s = modColl p g q (fun c => { c with aborted := some (midx, digest) }) s := by
  have hnone : ∀ f, chunksWhere (modColl p g q (fun c => { c with aborted := some (midx, digest) }) s) p f = [] := fun f => by
    rw [chunksWhere, modColl, State.modPl_pl_same, hctxs, List.flatMap_nil]
  simp only [abortColl, hnot, Option.isSome_none, Bool.false_eq_true, if_false, hnone, List.foldl_nil]

/-! ### ABANDONED_POST (R250) -/

/-- A record for which no COMPLETE frame is due fills the entry at CPROD and sends nothing. -/
theorem postRecord_posts {p : PlaneId} {g : Nat} {s : State} (hlaunch : (grp s p g).launch = false) (d l : List Byte) :
    grp (postRecord p g d l s) p g = { grp s p g with
        cprod := ((grp s p g).cprod + 1) % 65536, dseq := ((grp s p g).dseq + 1) % 65536
        arrivals := (grp s p g).arrivals.filter (fun a => a.1 ≠ (grp s p g).dseq) } ∧
      ((postRecord p g d l s).pl p).unitFrames = (s.pl p).unitFrames := by
  have hpl : (postRecord p g d l s).pl p = (recordInRing p g d l s).pl p := by
    obtain ⟨f, v, hpost | hpost⟩ := postRecord_of_no_launch hlaunch d l <;> rw [hpost]
    rfl
  have hwrite := plane_of_besideMem (besideMem_memWrite p s (ringAddr (grp s p g).cbase (grp s p g).cent (grp s p g).cprod) l) Plane.unitFrames
    fun _ => rfl
  refine ⟨(grp_congr (congrArg Plane.groups hpl) g).trans (recordInRing_grp ..), ?_⟩
  rw [hpl, ← hwrite]
  simp [recordInRing, modGrp, State.sample, State.event]

/-! ### COLLECTIVE_TMO (R249) -/

/-- A map whose values change under their keys. -/
theorem mget_map_values {α : Type} (f : Nat → α → α) (m : SMap α) (k : Nat) :
    mget (m.map fun e => (e.1, f e.1 e.2)) k = (mget m k).map (f k) := by
  induction m with
  | nil => rfl
  | cons e r ih =>
    obtain ⟨j, v⟩ := e
    rw [List.map_cons, mget, mget]
    split
    · next h => rw [h, Option.map_some]
    · exact ih

/-- A chunk's state stays as it is asked to close. -/
@[simp] theorem Chunk.askClose_st (k : Chunk) (feeds : Nat) : (k.askClose feeds).st = k.st := by
  unfold askClose
  split <;> rfl

/-- Every FILLING chunk of a context is asked to close. -/
def Ctx.askFilling (x : Ctx) (feeds : Nat) : Ctx :=
  { x with chunks := x.chunks.map fun k => if k.st = .filling then k.askClose feeds else k }

theorem Ctx.filling_askFilling (x : Ctx) (feeds : Nat) : (x.askFilling feeds).filling = x.filling.map (·.askClose feeds) := by
  have hst : ((fun k : Chunk => decide (k.st = .filling)) ∘ fun k => if k.st = .filling then k.askClose feeds else k) =
      fun k => decide (k.st = .filling) := by
    funext k
    rw [Function.comp_apply, apply_ite Chunk.st, Chunk.askClose_st, ite_self]
  rw [filling, askFilling, List.find?_map, hst, filling]
  cases hfound : x.chunks.find? (fun k => decide (k.st = .filling)) with
  | none => rfl
  | some k => rw [Option.map_some, Option.map_some, if_pos (by simpa using List.find?_some hfound)]

/-- What the end of a collective's time does to the context at a key. -/
def lapsedCtx (s : State) (p : PlaneId) (g q key : Nat) (x : Ctx) : Ctx :=
  if x.group = g ∧ x.cseq = q ∧ x.feed then x.askFilling (ctxFeeds s p (key / 16) (key % 16)) else x

section
variable {p : PlaneId} {g : Fin 1024} {cseq : Fin 65536} {d : List Byte} {s : State} (hpopped : poppedDesc s p g.val cseq.val = some d)
  (hlimited : ofBytes (sliceB d 0x68 8) ≠ 2 ^ 64 - 1) (hover : ofBytes (sliceB d 0x78 8) + ofBytes (sliceB d 0x68 8) < s.ft p)
include hpopped hlimited hover

/-- The time of a collective without a key is over: its contexts that are fed ask their chunks to close. -/
theorem collectiveTmo_fed (hkeyed : bit (ofBytes (sliceB d 1 1)) 0 = false) : exec (.collectiveTmo p g cseq) s =
    .next (s.modPl p fun x => { x with ctxs := x.ctxs.map fun e => (e.1, lapsedCtx s p g.val cseq.val e.1 e.2) }) := by
  have hentry : ∀ e : Nat × Ctx, (e.1, lapsedCtx s p g.val cseq.val e.1 e.2) =
      if e.2.group = g.val ∧ e.2.cseq = cseq.val ∧ e.2.feed then (e.1, e.2.askFilling (ctxFeeds s p (e.1 / 16) (e.1 % 16))) else e :=
    fun e => apply_ite (Prod.mk e.1) _ _ _
  simp only [exec, execCollectiveTmo, hpopped, hlimited, Nat.not_le.mpr hover, hkeyed, or_self, Bool.false_eq_true, if_false, hentry]
  rfl

/-- The time of a keyed collective is over while a key runs: the key stops, if it is the collective's. -/
theorem collectiveTmo_keyed (hkeyed : bit (ofBytes (sliceB d 1 1)) 0 = true) {b : Nat} (hbank : bankIn s p 4 = some b) :
    exec (.collectiveTmo p g cseq) s =
      .next (modBank p b (fun k => if k.keyId = ofBytes (sliceB d 0x48 8) then { k with stop := some (s.ft p) } else k) s) := by
  simp only [exec, execCollectiveTmo, hpopped, hlimited, Nat.not_le.mpr hover, hkeyed, or_self, if_false, if_true, hbank]

end

/-! ### The frames and records -/

/-- Settles O29: each frame by what GRQ does with it, a posted record by the ring's rule, and the end of a collective's time by its contexts or
its key. -/
theorem groupFrames : Obligations.GroupFrames := by
  unfold Obligations.GroupFrames
  refine ⟨?queued, ?disabled, ?discarded, ?arrives, ?again, ?mismatch, ?abandoned, ?fed, ?keyed⟩
  case queued =>
    rintro p ep d s hok htype hg ⟨hen, hlaunch, hmember, hroom⟩
    obtain ⟨b, hexec⟩ := launch_queued hok htype hg hen hlaunch hmember hroom
    refine ⟨_, hexec, ?_, ?_⟩
    · rw [grp_congr (groups_sendGroup ..), grp_pushDesc]
    · rw [← unitFrames_pushDesc p (ctlGroup d) b s]
      exact sendGroup_answers ..
  case disabled =>
    intro p ep d s hok htype hg hen
    refine ⟨_, launch_disabled hok htype hg hen, ?_, ?_, sendGroup_answers ..⟩
    · exact groups_sendGroup ..
    · rw [get_sendGroup]
      exact incSat_get _ _ _ rfl
  case discarded =>
    intro p ep d s hbad
    refine ⟨⟨_, ?_, rfl⟩, ⟨_, ?_, rfl⟩, ⟨_, ?_, rfl⟩⟩
    · simp only [exec, execLaunch, hbad, Bool.not_false, if_true]
    · simp only [exec, execMismatchReport, hbad, Bool.not_false, if_true]
    · simp only [exec, execBarrierArrive, hbad, Bool.not_false, if_true]
  case arrives =>
    intro p d b s hok htype hpopped hbarrier hmember hnew hdigest
    refine ⟨_, barrierArrive_counts hok htype hpopped hbarrier hmember hnew hdigest, ?_, rfl⟩
    rw [grp_modGrp_same]
  case again =>
    intro p d s hok hcounted
    exact ⟨_, barrierArrive_again hok hcounted, rfl⟩
  case mismatch =>
    intro p d s hok htype hpopped hnot hctxs
    refine ⟨_, by
      simp only [exec, execMismatchReport, hok, htype, hpopped, Bool.not_true, Bool.false_eq_true, and_self, if_false, if_true]
      rfl, ?_⟩
    rw [abortColl_unbound hnot hctxs]
    refine congrArg Coll.aborted (getColl_modColl ?_)
    exact fun _ => ⟨rfl, rfl⟩
  case abandoned =>
    intro p g q d r s habandoned hroom hlaunch
    obtain ⟨hgrp, hframes⟩ := postRecord_posts (g := g.val) (s := modGrp p g.val (fun x => { x with abandoned := r }) s)
      (by rw [grp_modGrp_same]; exact hlaunch) d (abandonedRecord s p g.val q d)
    refine ⟨_, by
      simp only [exec, execAbandonedPost, habandoned, hroom, Bool.false_eq_true, if_false]
      rfl, ?_⟩
    dsimp only
    rw [hgrp, grp_modGrp_same, hframes, modGrp, State.modPl_pl_same]
    exact ⟨rfl, rfl, rfl, rfl⟩
  case fed =>
    intro p g cseq d s hpopped hlimited hover hkeyed
    refine ⟨_, collectiveTmo_fed hpopped hlimited hover hkeyed, ?_⟩
    intro pos c x k hx hgroup hcseq hfeed hfilling
    rw [getCtx, State.modPl_pl_same, mget_map_values, ← getCtx, hx, Option.map_some, Option.bind_some, lapsedCtx, if_pos ⟨hgroup, hcseq, hfeed⟩,
      Ctx.filling_askFilling, hfilling, Option.map_some, Option.map_some, Chunk.askClose_closeReq]
  case keyed =>
    intro p g cseq d b s hpopped hlimited hover hkeyed hbank hkey
    obtain ⟨hb, hrunning⟩ := bankIn_eq_some hbank
    refine ⟨_, collectiveTmo_keyed hpopped hlimited hover hkeyed hbank, ?_, ?_⟩
    · rw [bankOfKey_modBank hb, if_pos hkey]
    · rw [bankSt, modBank, State.modPl_get]
      exact hrunning

end Sys2Proof.Machine
end

section
/-! SUPPORT. The partition signature (R270): what SPM_PART_SIG reads, and the checks of a key against it. -/

namespace Sys2Proof.Machine

/-- SPM_PART_SIG shows the signature, while the block has power and is not in soft reset. -/
theorem readUnit_partSig {p : PlaneId} {s : State} (hpower : s.powered (pu p .SPM) = true)
    (hreset : s.on (pu p .SPM) Fld.BLK_STAT_RST_BUSY = false) : readUnit s (pu p .SPM) 0x048 = BitVec.ofNat 32 (partSig s p) := by
  have hfields : regFields .SPM 0x048 ≠ [] := by decide
  obtain ⟨hblk, -⟩ := spm_blk p
  simp [readUnit, hblk, hpower, hreset, hfields, viewReg, unitPlane_pu, planeView, spmRead]

/-- The fields of the signature, where STAGE and ACTIVE fit theirs. -/
theorem partSig_fields {p : PlaneId} {s : State} (hstage : partStage (partNow s p) (spmActive s p) < 64) (hactive : spmActive s p ≤ 64) :
    bits (partSig s p) 2 0 = partKeyb (partNow s p) ∧ bits (partSig s p) 6 3 = partGq (partNow s p) ∧
      bits (partSig s p) 11 7 = partReord (partNow s p) ∧ bits (partSig s p) 17 12 = partAdapt (partNow s p) ∧
      bits (partSig s p) 23 18 = partStage (partNow s p) (spmActive s p) ∧ bits (partSig s p) 30 24 = spmActive s p ∧
      bits (partSig s p) 31 31 = 0 ∧ partSig s p < 2 ^ 31 := by
  have hkeyb : partKeyb (partNow s p) < 2 ^ 3 := bits_lt _ 2 0
  have hgq : partGq (partNow s p) < 2 ^ 4 := bits_lt _ 6 3
  have hreord : partReord (partNow s p) < 2 ^ 5 := bits_lt _ 11 7
  have hadapt : partAdapt (partNow s p) < 2 ^ 6 := bits_lt _ 17 12
  simp only [partSig, bits]
  omega

/-- A key image of another partition fails its load checks (R114). -/
theorem loadFail_of_partSig_ne {p : PlaneId} {s : State} {addr len : Nat} (h : le (memRead s p addr len) 0x28 4 ≠ partSig s p) (b : Nat) :
    loadFail s p b addr len ≠ none := by
  simp only [loadFail, h, ne_eq, not_false_eq_true, if_true]
  split_ifs <;> exact not_false

/-- A key of another partition fails its arm checks (R119). -/
theorem armFail_of_partSig_ne {p : PlaneId} {s : State} {b : Nat} (h : (bankOfKey s p b).partSig ≠ partSig s p) (prev : Bool) :
    armFail s p b prev ≠ none := by
  simp only [armFail, h, ne_eq, not_false_eq_true, if_true]
  split_ifs <;> exact not_false

/-- The signature of the default partition with 64 active banks. -/
theorem partSig_default {p : PlaneId} {s : State} (hpart : partNow s p = 0x00410424) (hactive : spmActive s p = 64) :
    partSig s p = 0x40710424 := by
  rw [partSig, hpart, hactive]
  rfl

/-- Settles O39: SPM_PART_SIG reads the signature whole, since it lies below 2^31, and both checks of a key compare with it. -/
theorem partitionSignature : Obligations.PartitionSignature := by
  unfold Obligations.PartitionSignature
  intro p s hpower hreset hstage hactive
  obtain ⟨hkeyb, hgq, hreord, hadapt, hstageAt, hactiveAt, htop, hlt⟩ := partSig_fields hstage hactive
  have hsig : (readUnit s (pu p .SPM) 0x048).toNat = partSig s p := by
    rw [readUnit_partSig hpower hreset, BitVec.toNat_ofNat]
    exact Nat.mod_eq_of_lt (hlt.trans (by decide))
  rw [hsig]
  exact ⟨⟨hkeyb, hgq, hreord, hadapt, hstageAt, hactiveAt, htop⟩, fun b _ _ hne => loadFail_of_partSig_ne hne b,
    fun _ prev hne => armFail_of_partSig_ne hne prev, partSig_default⟩

end Sys2Proof.Machine
end

section
/-! SUPPORT. Commands and events of plane memory: POISON (R267), the apply of a partition (R272), refresh rounds (R259) and patrol steps (R260),
and the statement about them. -/

namespace Sys2Proof.Machine

/-! ### POISON (R267) -/

theorem mem_insertNat (x : Nat) (l : List Nat) : x ∈ insertNat x l := by
  induction l with
  | nil => exact List.mem_singleton_self x
  | cons y r ih =>
    rw [insertNat]
    split_ifs with hlt heq
    · exact List.mem_cons_self
    · rw [heq]
      exact List.mem_cons_self
    · exact List.mem_cons_of_mem y ih

/-- What an error in a granule leads to beyond it poisons no other. -/
theorem poison_afterUse (p : PlaneId) (addr : Nat) (s : State) : ((afterUse p addr s).pl p).poison = (s.pl p).poison := by
  have hend : ∀ (t : State) (g chunk : Nat), ((endAfterUse p g chunk t).pl p).poison = (t.pl p).poison := fun t g chunk => by
    unfold endAfterUse
    split <;> simp [modColl]
  unfold afterUse
  dsimp only
  split_ifs
  · rw [foldl_keeps (fun t : State => (t.pl p).poison) (fun t e => hend t _ _), State.pl, report_planes, State.pl]
  · rfl

theorem poison_markPoison (p : PlaneId) (addr : Nat) (s : State) :
    ((markPoison p addr s).pl p).poison = insertNat (granuleOf addr) (s.pl p).poison := by
  simp only [markPoison]
  split <;> simp

theorem poison_poisonGranule (p : PlaneId) (addr : Nat) (s : State) :
    ((poisonGranule p addr s).pl p).poison = insertNat (granuleOf addr) (s.pl p).poison := by
  rw [poisonGranule, poison_afterUse, poison_markPoison]

theorem mem_poisonGranule (p : PlaneId) (addr : Nat) (s : State) : ((poisonGranule p addr s).pl p).mem = (s.pl p).mem := by
  have hstored : stored p (poisonGranule p addr s) = stored p s := by rw [poisonGranule, stored_afterUse, stored_markPoison]
  exact congrArg Prod.fst hstored

/-- A command in bit 0 that is written reaches its block, whatever the register holds. -/
theorem shownWord_command {b : Blk} {off : Nat} {m : Word} (hwo : (accMask (regFields b off) (fun a => a = .wo || a = .w1c)).getLsbD 0 = true)
    (hm : m.getLsbD 0 = true) (s : State) (u : Nat) (v : Word) : (shownWord s u b off (v ||| m)).getLsbD 0 = true := by
  simp only [shownWord, BitVec.getLsbD_or, BitVec.getLsbD_and, hwo, hm, Bool.or_true, Bool.and_true]

/-- The block of a target, whose writes have the effects of a memory controller. -/
theorem tgtUnit_controller (p : PlaneId) (n : Fin 7) : ∃ b k, unitBlk (tgtUnit p n.val) = some (b, k) ∧ (b = .NMC ∨ b = .FMC) ∧
    ∀ off v old s, planeEffect p b k off v old s = fmcEffect p n.val off v s := by
  obtain ⟨-, hblk, -⟩ := tgtUnit_blk p n
  by_cases hn : n = 6
  · subst hn
    exact ⟨_, _, hblk, .inl rfl, fun _ _ _ _ => rfl⟩
  · rw [if_neg hn] at hblk
    exact ⟨_, _, hblk, .inr rfl, fun _ _ _ _ => rfl⟩

theorem storeSkips_poison {u : Nat} {p : PlaneId} (hu : unitPlane u = some p) {b : Blk} (hb : b = .NMC ∨ b = .FMC) (s : State) (k : Nat)
    (v : Word) : storeSkips s u b k Fld.FMC_CMD_POISON.key v = false := by
  obtain rfl | rfl := hb <;> simp [storeSkips, viewReg, hu, planeView, RField.key, Fld.FMC_CMD_POISON]

/-- POISON poisons the granule at PADDR. -/
theorem fmcEffect_poison {w : Word} (hw : w.getLsbD 0 = true) (p : PlaneId) (n : Nat) (s : State) :
    fmcEffect p n Fld.FMC_CMD_POISON.key w s = poisonGranule p (s.get64 (tgtUnit p n) Fld.FMC_PADDR_LO Fld.FMC_PADDR_HI) s :=
  if_pos ⟨rfl, hw⟩

/-- An accepted POISON poisons the granule at PADDR and changes no byte. -/
theorem poison_poisons {acc : Accessor} {p : PlaneId} {n : Fin 7} {v : Word} {s : State}
    (hacc : accepted s acc (tgtUnit p n.val) Fld.FMC_CMD_POISON.key (v ||| Fld.FMC_CMD_POISON.mask) = true) :
    Completes (.poison acc p n v) s (fun t =>
      (t.pl p).poison.contains (granuleOf (s.get64 (tgtUnit p n.val) Fld.FMC_PADDR_LO Fld.FMC_PADDR_HI)) = true ∧
      (t.pl p).mem = (s.pl p).mem) := by
  obtain ⟨hplane, -⟩ := tgtUnit_blk p n
  obtain ⟨b, k, hblk, hb, heffect⟩ := tgtUnit_controller p n
  have hpage : Fld.FMC_CMD_POISON.key < 4096 * pagesOf b := by obtain rfl | rfl := hb <;> decide
  have hrwl : (regFields b Fld.FMC_CMD_POISON.key).any (fun f => f.acc = .rwl) = false := by obtain rfl | rfl := hb <;> decide
  have hwo : (accMask (regFields b Fld.FMC_CMD_POISON.key) (fun a => a = .wo || a = .w1c)).getLsbD 0 = true := by
    obtain rfl | rfl := hb <;> decide
  obtain ⟨was, hw⟩ := regWrite_plane hblk hplane hpage hacc
    ⟨by decide, lockHit_of_no_rwl hrwl _ _ _, storeSkips_poison hplane hb _ k _⟩
  rw [heffect, fmcEffect_poison (shownWord_command hwo (by decide) _ _ _), State.get64, afterStore_get_ne (by decide) (by decide),
    afterStore_get_ne (by decide) (by decide), arrive_get _ _ _ (by decide), arrive_get _ _ _ (by decide), ← State.get64] at hw
  refine ⟨_, rfl, ?_, ?_⟩ <;> rw [hw, latchAfter_pl]
  · rw [poison_poisonGranule]
    exact List.contains_iff_mem.mpr (mem_insertNat _ _)
  · rw [mem_poisonGranule, afterStore_pl, arrive_pl]

/-! ### The partition (R268, R272) -/

/-- An accepted APPLY starts an apply and changes neither the partition nor memory. -/
theorem apply_starts {acc : Accessor} {p : PlaneId} {v : Word} {s : State}
    (hacc : accepted s acc (pu p .SPM) Fld.SPM_PART_CTL_APPLY.key (v ||| Fld.SPM_PART_CTL_APPLY.mask) = true) :
    Completes (.apply acc p v) s (fun t => t.get (pu p .SPM) Fld.SPM_STAT_APPLY_BUSY = 1 ∧ (t.pl p).applyAt = some (s.beats p) ∧
      (t.pl p).part = (s.pl p).part ∧ (t.pl p).mem = (s.pl p).mem) := by
  have heffect : ∀ {w : Word}, w.getLsbD 0 = true → ∀ t, spmEffect p Fld.SPM_PART_CTL_APPLY.key w t =
      (t.put (pu p .SPM) Fld.SPM_STAT_APPLY_BUSY 1).modPl p (fun x => { x with applyAt := some x.ftm.beats }) :=
    fun h t => if_pos ⟨rfl, h⟩
  obtain ⟨was, hw⟩ := regWrite_plane (spm_blk p).1 (unitPlane_pu p .SPM) (by decide) hacc
    ⟨by decide, lockHit_of_no_rwl (by decide) _ _ _, by
      simp [storeSkips, viewReg, unitPlane_pu, planeView, spmRead, RField.key, Fld.SPM_PART_CTL_APPLY]⟩
  rw [planeEffect, heffect (shownWord_command (by decide) (by decide) _ _ _)] at hw
  refine ⟨_, rfl, ?_, ?_⟩ <;> rw [hw]
  · rw [latchAfter_get _ _ (regKey_ne_of_mod (by decide)), State.modPl_get, State.get_put_same _ _ _ _ rfl]
    rfl
  · rw [latchAfter_pl, State.modPl_pl_same, State.put_pl, afterStore_pl, arrive_pl]
    exact ⟨rfl, rfl, rfl⟩

/-- A plane's partition: whether an apply runs and since when, the partition and the bank map in force, and memory. -/
def partView (p : PlaneId) (s : State) : Nat × Option Nat × Option Word × Option (List Nat) × List Host.Cell :=
  (s.get (pu p .SPM) Fld.SPM_STAT_APPLY_BUSY, (s.pl p).applyAt, (s.pl p).part, (s.pl p).bankMap, (s.pl p).mem)

/-- OVERCOMMIT is logged and has no reaction of its own. -/
theorem partView_checkCommit (p : PlaneId) (s : State) : partView p (checkCommit p s) = partView p s := by
  unfold checkCommit
  split
  · have hlogged : ∀ d : Detection, partView p (logOrDead (pu p .SWC) .SWC d s) = partView p s := fun d => by
      have hblk : Blk.SWC ≠ .FCL := by decide
      simp only [partView, State.pl, logOrDead_planes hblk, logOrDead_get hblk d s _ (f := Fld.SPM_STAT_APPLY_BUSY) (by decide)]
    rw [detect, detectFault_of_u (unitBlk_SWC p) rfl]
    simp only [react, unitPlane_SWC]
    exact hlogged _
  · rfl

/-- Emptying a key bank leaves the partition. -/
theorem partView_emptyBank (p : PlaneId) (b : Nat) (s : State) :
    partView p (freePatterns p b (modBank p b (fun _ => {}) (setBankSt p b 0 s))) = partView p s := by
  have hunit : pu p .KSQ ≠ pu p .SPM := by revert p; decide
  have hbusy : (setBankSt p b 0 s).get (pu p .SPM) Fld.SPM_STAT_APPLY_BUSY = s.get (pu p .SPM) Fld.SPM_STAT_APPLY_BUSY :=
    State.get_put_ne _ _ (regKey_ne_of_unit (pu_lt p .KSQ) hunit)
  simp only [partView, freePatterns, modBank, State.modPl_get, State.modPl_pl_same, hbusy]
  rfl

/-- The partition that SPM_PART_CFG gives is in force, with the banks now active. -/
def partInForce (p : PlaneId) (s : State) : State :=
  (s.put (pu p .SPM) Fld.SPM_STAT_APPLY_BUSY 0).modPl p (fun x => { x with
    applyAt := none, part := some (s.reg (pu p .SPM) 0x040), bankMap := some (formBankMap (banksNext s p)), fencedBanks := [] })

/-- The logical banks that the end of an apply zeroes: those placed anew, and those that enter REORD or ADAPT. -/
def banksZeroed (p : PlaneId) (s : State) : List Nat :=
  (List.range 64).filter (fun i => (bankMapNow s p)[i]? ≠ (formBankMap (banksNext s p))[i]?) ++
    (cellBanks (partInForce p s) p).filter (fun b => !(cellBanks s p).contains b)

/-- The end of an apply puts the partition in force and zeroes banks; the key banks that it empties and the check of the buffer leave both. -/
theorem exec_partitionApplyDone {p : PlaneId} {s : State} (h : (s.pl p).applyAt ≠ none) : ∃ t,
    exec (.partitionApplyDone p) s = .next t ∧ partView p t = partView p (zeroBanks p (banksZeroed p s) (partInForce p s)) := by
  have hrun : (s.pl p).applyAt.isNone = false := Option.isNone_eq_false_iff.mpr (Option.isSome_iff_ne_none.mpr h)
  refine ⟨_, by
    simp only [exec, execPartitionApplyDone, hrun, Bool.false_eq_true, if_false]
    rfl, ?_⟩
  rw [partView_checkCommit]
  split
  · rfl
  · exact foldl_keeps (partView p) (fun t b => partView_emptyBank p b t) _ _

theorem mget_filter_of_keeps {α : Type} (m : SMap α) {k : Nat} {f : Nat × α → Bool} (h : ∀ v, f (k, v) = true) :
    mget (m.filter f) k = mget m k := by
  induction m with
  | nil => rfl
  | cons e r ih =>
    obtain ⟨j, v⟩ := e
    rw [List.filter_cons, mget]
    by_cases hj : j = k
    · subst hj
      rw [if_pos (h v), mget, if_pos rfl, if_pos rfl]
    · rw [if_neg hj]
      split
      · rw [mget, if_neg hj, ih]
      · exact ih

/-- Zeroing banks of the scratchpad changes no byte of the tiers below it. -/
theorem memByte_zeroBanks {a : Nat} (ha : a < baseS) (p : PlaneId) (l : List Nat) (s : State) :
    memByte ((zeroBanks p l s).pl p).mem a = memByte (s.pl p).mem a := by
  have hbelow : decide (baseS ≤ a) = false := decide_eq_false (Nat.not_le.mpr ha)
  simp only [zeroBanks, State.modPl_pl_same, memByte, mgetD]
  rw [mget_filter_of_keeps _ fun v => by rw [hbelow]; rfl]

theorem partitionApplyDone_ends {p : PlaneId} {s : State} (h : (s.pl p).applyAt ≠ none) :
    Completes (.partitionApplyDone p) s (fun t => t.get (pu p .SPM) Fld.SPM_STAT_APPLY_BUSY = 0 ∧ (t.pl p).applyAt = none ∧
      (t.pl p).part = some (s.reg (pu p .SPM) 0x040) ∧ (t.pl p).bankMap = some (formBankMap (banksNext s p)) ∧
      ∀ a, a < baseS → memByte (t.pl p).mem a = memByte (s.pl p).mem a) := by
  obtain ⟨t, hexec, hview⟩ := exec_partitionApplyDone h
  have hidle : (zeroBanks p (banksZeroed p s) (partInForce p s)).get (pu p .SPM) Fld.SPM_STAT_APPLY_BUSY = 0 := by
    rw [zeroBanks, partInForce, State.modPl_get, State.modPl_get, State.get_put_same _ _ _ _ rfl]
    rfl
  have hplane : (partInForce p s).pl p = { s.pl p with
      applyAt := none, part := some (s.reg (pu p .SPM) 0x040), bankMap := some (formBankMap (banksNext s p)), fencedBanks := [] } := by
    rw [partInForce, State.modPl_pl_same, State.put_pl]
  simp only [partView, Prod.mk.injEq] at hview
  obtain ⟨hbusy, happly, hpart, hbanks, hmem⟩ := hview
  refine ⟨t, hexec, hbusy.trans hidle, happly.trans ?_, hpart.trans ?_, hbanks.trans ?_, fun a ha => ?_⟩
  · rw [zeroBanks, State.modPl_pl_same, hplane]
  · rw [zeroBanks, State.modPl_pl_same, hplane]
  · rw [zeroBanks, State.modPl_pl_same, hplane]
  · rw [hmem, memByte_zeroBanks ha, hplane]

theorem partitionApplyDone_idle {p : PlaneId} {s : State} (h : (s.pl p).applyAt = none) : exec (.partitionApplyDone p) s = .next s := by
  simp only [exec, execPartitionApplyDone, h, Option.isNone_none, if_true]

/-! ### Refresh rounds (R259) -/

@[simp] theorem tgt_modTgt (p : PlaneId) (k : Nat) (f : Target → Target) (s : State) : tgt (modTgt p k f s) p k = f (tgt s p k) := by
  simp [tgt, modTgt]

/-- A round that is due on a target that no key schedules begins. -/
theorem exec_ctrlRefresh {p : PlaneId} {n : Fin 7} {s : State} (hready : tgtReady s p n.val = true)
    (hfree : mapNames (runningMemMap s p) n.val = false) (hdue : (tgt s p (targetKey s p n.val)).lastRef + 3000 ≤ s.beats p) :
    exec (.ctrlRefresh p n) s = .next (modTgt p (targetKey s p n.val) (fun x => { x with lastRef := s.beats p }) s) := by
  simp only [exec, execCtrlRefresh, hready, hfree, hdue, Bool.false_eq_true, not_false_eq_true, and_self, if_true]

/-! ### Patrol steps (R260) -/

/-- Where no injected fault waits, the check of a granule finds nothing. -/
theorem memTouch_unarmed {p : PlaneId} {s : State} (h : memArmed s p = false) (addr : Nat) : memTouch p addr s = s := by
  obtain ⟨hlatent, hunits⟩ : (s.pl p).latent = [] ∧ ∀ u, ControlsMemory p u → (s.rp u).corrupt = none := by
    simp only [memArmed, Bool.or_eq_false_iff, decide_eq_false_iff_not, not_not, List.any_eq_false] at h
    obtain ⟨hlatent, hany⟩ := h
    refine ⟨hlatent, fun u hu => ?_⟩
    have hmem : u ∈ pu p .SPM :: (List.range 7).map (fun t => if t = 6 then pu p .NMC else uFMC p t) := by
      obtain rfl | ⟨t, rfl⟩ := hu
      · exact List.mem_cons_self
      · exact List.mem_cons_of_mem _ (List.mem_map.mpr ⟨t.val, List.mem_range.mpr t.isLt, rfl⟩)
    simpa using hany u hmem
  simp only [memTouch, hunits _ (controlsMemory_poisonUnit s p addr), hlatent, List.contains_nil, Bool.false_and, Bool.false_eq_true, if_false]

/-- The patrol pointer holds 48 bits. -/
theorem patrolPtr_put (p : PlaneId) (t v : Nat) (s : State) :
    patrolPtr (s.put64 (tgtUnit p t) Fld.FMC_PATROL_LO_PTR_LO Fld.FMC_PATROL_HI_PTR_HI v) p t = v % 2 ^ 48 := by
  have hlo : (s.put64 (tgtUnit p t) Fld.FMC_PATROL_LO_PTR_LO Fld.FMC_PATROL_HI_PTR_HI v).get (tgtUnit p t) Fld.FMC_PATROL_LO_PTR_LO =
      v % 2 ^ 32 % 2 ^ 32 := (State.get_put_ne _ _ (regKey_ne_of_mod (by decide))).trans (State.get_put_same _ _ _ _ rfl)
  have hhi : (s.put64 (tgtUnit p t) Fld.FMC_PATROL_LO_PTR_LO Fld.FMC_PATROL_HI_PTR_HI v).get (tgtUnit p t) Fld.FMC_PATROL_HI_PTR_HI =
      v / 2 ^ 32 % 2 ^ 16 := State.get_put_same _ _ _ _ rfl
  rw [patrolPtr, State.get64, hlo, hhi]
  omega

theorem patrolNext_of_memBasis {p : PlaneId} {s t : State} (h : memBasis p t = memBasis p s) (n a : Nat) :
    patrolNext t p n a = patrolNext s p n a := by
  have hpop : popF t p = popF s p := by
    rw [popF, formedUnits_of_memBasis h, dimmBytes, (sameSource_of_memBasis h).ident, popF, dimmBytes]
  rw [patrolNext, tgtRegion, hpop, patrolNext, tgtRegion]

/-- A patrol step is counted in the beat in which it happens. -/
theorem lastPatrol_scrubStep (p : PlaneId) (n : Nat) (s : State) : (tgt (scrubStep p n s) p n).lastPatrol = s.beats p := by
  have haside : ∀ a v u f g, aside p (((memTouch p a s).modPl p (fun x => { x with latent := x.latent.erase (granuleOf a) })).put64 u f g v) =
      aside p s := fun a v u f g => by simp
  rw [scrubStep, tgt_modTgt]
  exact (aside_eq_iff.mp (haside _ _ _ _ _)).2.2

/-- Where no injected fault waits, a patrol step changes no byte and moves the pointer one step. -/
theorem scrubStep_unarmed {p : PlaneId} {s : State} (h : memArmed s p = false) (n : Nat) :
    ((scrubStep p n s).pl p).mem = (s.pl p).mem ∧
      patrolPtr (scrubStep p n s) p n = patrolNext s p n (patrolPtr s p n) % 2 ^ 48 := by
  have hbasis : memBasis p (s.modPl p (fun x => { x with latent := x.latent.erase (granuleOf (patrolPtr s p n)) })) = memBasis p s :=
    memBasis_modPl p s fun _ => rfl
  have hptr : ∀ (f : Target → Target) (t : State), patrolPtr (modTgt p n f t) p n = patrolPtr t p n := fun f t => by
    simp only [patrolPtr, State.get64, modTgt, State.modPl_get]
  rw [scrubStep, memTouch_unarmed h, patrolNext_of_memBasis hbasis, hptr, patrolPtr_put]
  refine ⟨?_, rfl⟩
  rw [modTgt, State.modPl_pl_same, State.put64_pl, State.modPl_pl_same]

theorem exec_patrolStep {p : PlaneId} {n : Fin 7} {s : State} (hready : tgtReady s p n.val = true)
    (hpatrol : s.on (tgtUnit p n.val) Fld.FMC_CFG_PATROL_EN = true) (hfree : mapNames (runningMemMap s p) n.val = false)
    (hdue : (tgt s p n.val).lastPatrol + 262144 ≤ s.beats p) : exec (.patrolStep p n) s = .next (scrubStep p n.val s) := by
  simp only [exec, execPatrolStep, hready, hpatrol, hfree, hdue, Bool.false_eq_true, not_false_eq_true, and_self, if_true]

/-! ### The statement -/

/-- Settles O38: the commands by their accepted writes, the end of an apply by what its zeroing leaves, and the events of a controller's own
time by the target that they change. -/
theorem memoryCommands : Obligations.MemoryCommands := by
  unfold Obligations.MemoryCommands
  refine ⟨?poison, ?apply, ?done, ?idle, ?refresh, ?patrol⟩
  case poison => exact fun _ _ _ _ _ => poison_poisons
  case apply => exact fun _ _ _ _ => apply_starts
  case done => exact fun _ _ => partitionApplyDone_ends
  case idle => exact fun _ s h => ⟨s, partitionApplyDone_idle h, rfl⟩
  case refresh =>
    intro p n s hready hfree hdue
    refine ⟨_, exec_ctrlRefresh hready hfree hdue, ?_, rfl, ?_⟩
    · rw [tgt_modTgt]
    · rw [modTgt, State.modPl_pl_same]
  case patrol =>
    intro p n s hready hpatrol hfree hdue
    exact ⟨_, exec_patrolStep hready hpatrol hfree hdue, lastPatrol_scrubStep p n.val s, fun harmed => scrubStep_unarmed harmed n.val⟩

end Sys2Proof.Machine
end

section
/-! SUPPORT. The state of ports and lanes (R284, R301, R309): links as data, the registers of a port's page beside the updates of other blocks, and
what the operations that a port's states share leave of both. -/

namespace Sys2Proof.Machine

/-! ### Links and lanes as data -/

@[simp] theorem modFab_fab (p : PlaneId) (f : Fabric → Fabric) (s : State) : (modFab p f s).fab p = f (s.fab p) := by
  rw [State.fab, modFab, State.modPl_pl_same, State.fab]

section
variable (p : PlaneId) (s : State) (n : Nat) (f : PortLink → PortLink) (g : LaneLink → LaneLink)

@[simp] theorem linkOf_modLink : linkOf (modLink p n f s) p n = f (linkOf s p n) := by simp [linkOf, modLink]
@[simp] theorem laneOf_modLane : laneOf (modLane p n g s) p n = g (laneOf s p n) := by simp [laneOf, modLane]
@[simp] theorem laneOf_modLink (i : Nat) : laneOf (modLink p n f s) p i = laneOf s p i := by simp [laneOf, modLink]
@[simp] theorem linkOf_modLane (i : Nat) : linkOf (modLane p n g s) p i = linkOf s p i := by simp [linkOf, modLane]
@[simp] theorem linkOf_put (u : Nat) (x : RField) (v i : Nat) : linkOf (s.put u x v) p i = linkOf s p i := rfl
@[simp] theorem laneOf_put (u : Nat) (x : RField) (v i : Nat) : laneOf (s.put u x v) p i = laneOf s p i := rfl
@[simp] theorem modFab_get (h : Fabric → Fabric) (u : Nat) (x : RField) : (modFab p h s).get u x = s.get u x := State.modPl_get ..
@[simp] theorem modLink_get (u : Nat) (x : RField) : (modLink p n f s).get u x = s.get u x := modFab_get ..
@[simp] theorem modLane_get (u : Nat) (x : RField) : (modLane p n g s).get u x = s.get u x := modFab_get ..

end

/-- A port that is configured is the port of its lowest lane. -/
theorem portOf_self {s : State} {p : PlaneId} {n : Nat} (h : portPen s p n = true) : portOf s p n = some n := by
  have hwidth : n < n + portWidth s p n := Nat.lt_add_of_pos_right (Nat.two_pow_pos _)
  simp [portOf, h, hwidth]

/-- The port of a lane is configured. -/
theorem portPen_of_portOf {s : State} {p : PlaneId} {lane n : Nat} (h : portOf s p lane = some n) : portPen s p n = true := by
  have hfound := List.find?_some h
  rw [Bool.and_eq_true] at hfound
  exact hfound.1

/-- The port of a lane follows from FPT_CFG.PEN and WIDTH. -/
theorem portOf_congr {s t : State} {p : PlaneId} (hpen : ∀ m, t.get (uFPT p m) Fld.FPT_CFG_PEN = s.get (uFPT p m) Fld.FPT_CFG_PEN)
    (hwidth : ∀ m, t.get (uFPT p m) Fld.FPT_CFG_WIDTH = s.get (uFPT p m) Fld.FPT_CFG_WIDTH) (lane : Nat) : portOf t p lane = portOf s p lane := by
  have hpens : ∀ m, portPen t p m = portPen s p m := fun m => by rw [portPen, State.on, hpen, portPen, State.on]
  have hwidths : ∀ m, portWidth t p m = portWidth s p m := fun m => by rw [portWidth, hwidth, portWidth]
  simp only [portOf, hpens, hwidths]

/-- The lanes in use follow from the width, LANE_ACT and the lanes with a fault. -/
theorem actLanes_congr {s t : State} {p : PlaneId} {n : Nat} (hwidth : t.get (uFPT p n) Fld.FPT_CFG_WIDTH = s.get (uFPT p n) Fld.FPT_CFG_WIDTH)
    (hact : t.get (uFPT p n) Fld.FPT_STAT_LANE_ACT = s.get (uFPT p n) Fld.FPT_STAT_LANE_ACT) (hbad : (linkOf t p n).bad = (linkOf s p n).bad) :
    actLanes t p n = actLanes s p n := by
  simp only [actLanes, portLanes, portWidth, hwidth, hact, hbad]

/-! ### The registers of a port's page -/

theorem unitBlk_uFPT : ∀ (p : PlaneId) (n : PortId), unitBlk (uFPT p n.val) = some (.FPT, n.val) := by decide

theorem unitPlane_uFPT (p : PlaneId) (n : PortId) : unitPlane (uFPT p n.val) = some p := by
  have hdiv : uFPT p n.val / 256 = p.val := by unfold uFPT; omega
  simp [unitPlane, hdiv]

theorem uFPT_lt (p : PlaneId) (n : PortId) : uFPT p n.val < 0x400 := by unfold uFPT; omega

theorem uFPT_ne_pu (p q : PlaneId) (b : Blk) (n : PortId) : uFPT p n.val ≠ pu q b := by
  have hcode : b.code < 128 := by cases b <;> decide
  unfold uFPT pu
  omega

/-- The registers of the ports' own pages, without the headers. -/
def portRegs (p : PlaneId) (s : State) (n : PortId) (off : Nat) : Option Word :=
  if 0x40 ≤ off % 4096 then some (s.reg (uFPT p n.val) off) else none

theorem portRegs_ext {p : PlaneId} {s t : State} (h : ∀ (n : PortId) (off : Nat), 0x40 ≤ off % 4096 → t.reg (uFPT p n.val) off = s.reg (uFPT p n.val) off) :
    portRegs p t = portRegs p s := by
  funext n off
  simp only [portRegs]
  split
  · rw [h n off ‹_›]
  · rfl

theorem get_of_portRegs {p : PlaneId} {s t : State} (h : portRegs p t = portRegs p s) (n : PortId) {f : RField} (hf : 0x40 ≤ f.key % 4096) :
    t.get (uFPT p n.val) f = s.get (uFPT p n.val) f := by
  have hreg := congrFun (congrFun h n) f.key
  simp only [portRegs, hf, if_true, Option.some.injEq] at hreg
  rw [State.get, hreg, State.get]

section
variable (p : PlaneId) (s : State)

@[simp] theorem portRegs_put_pu (q : PlaneId) (b : Blk) (f : RField) (v : Nat) : portRegs p (s.put (pu q b) f v) = portRegs p s :=
  portRegs_ext fun n _ _ => State.reg_put_ne _ _ (regKey_ne_of_unit (pu_lt q b) (uFPT_ne_pu p q b n).symm)

@[simp] theorem portRegs_modPl (q : PlaneId) (f : Plane → Plane) : portRegs p (s.modPl q f) = portRegs p s :=
  portRegs_ext fun _ _ _ => State.modPl_reg ..

@[simp] theorem portRegs_modFtm (q : PlaneId) (f : Ftm → Ftm) : portRegs p (modFtm s q f) = portRegs p s := portRegs_modPl p s q _

/-- A detection of a block that is no collector reaches its log alone (R393). -/
theorem portRegs_logOrDead {u : Nat} {b : Blk} (hb : b ≠ .FCL) (d : Detection) : portRegs p (logOrDead u b d s) = portRegs p s :=
  portRegs_ext fun _ _ h => logOrDead_reg hb d s h

/-- OVERCOMMIT is logged and has no reaction of its own. -/
@[simp] theorem portRegs_checkCommit (q : PlaneId) : portRegs p (checkCommit q s) = portRegs p s := by
  unfold checkCommit
  split
  · rw [detect, detectFault_of_u (unitBlk_SWC q) rfl]
    simp only [react, unitPlane_SWC]
    exact portRegs_logOrDead p s (by decide) _
  · rfl

/-! ### Fabric time beside the ports -/

@[simp] theorem portRegs_setFtmState (q : PlaneId) (st : Nat) : portRegs p (setFtmState q st s) = portRegs p s := by
  simp only [setFtmState]
  split <;> simp

@[simp] theorem portRegs_useSource (q : PlaneId) (src : Option TimeSource) : portRegs p (useSource q src s) = portRegs p s := by
  simp only [useSource]
  split <;> simp

/-- REF_LOST and UPSTREAM_LOST reach the log, FTM_STAT and PLN_STATE. -/
theorem portRegs_detect_FTM (q : PlaneId) {src : Nat} (hsrc : src = 1 ∨ src = 2) : portRegs p (detect (pu q .FTM) src .c 0 0 s) = portRegs p s := by
  rw [detect, detectFault_FTM q rfl]
  obtain rfl | rfl := hsrc <;>
  · simp only [react, unitPlane_FTM, enterHoldover]
    split <;> simp [portRegs_logOrDead]

@[simp] theorem portRegs_sourceLost (q : PlaneId) : portRegs p (sourceLost q s) = portRegs p s := by
  unfold sourceLost
  split
  · exact portRegs_detect_FTM p s q (by split <;> simp)
  · simp
  · simp
  · rfl

@[simp] theorem portRegs_sourceFound (q : PlaneId) (src : Option TimeSource) : portRegs p (sourceFound q src s) = portRegs p s := by
  unfold sourceFound
  split <;> simp

/-- A plane that follows its sources anew writes no port's page. -/
@[simp] theorem portRegs_followUpstream (q : PlaneId) : portRegs p (followUpstream q s) = portRegs p s := by
  simp only [followUpstream]
  repeat' split
  all_goals simp

end

/-! ### Faults of ports (R285, R305, Table 14.2) -/

/-- A class C fault of a block whose sources take no part in escalation is logged and has its reaction. -/
theorem detectFault_of_no_escalation {u n : Nat} {b : Blk} (hb : unitBlk u = some (b, n)) (hfcl : b ≠ .FCL) (hesc : ∀ src, escSource b src = false)
    {d : Detection} (hd : d.cls = .c) (s : State) : detectFault u d s = react u b d.src d.cls d.loc d.detail (logOrDead u b d s) := by
  have hno : (settleLog s u b (logBase s u) (detectedNow s u)).held = 1 → (logNow (logOrDead u b d s) u).held ≠ 2 := by
    rw [logOrDead_held hfcl, logDetection_held, settleLog, settleLog, foldl_add_held hesc, foldl_add_held hesc]
    exact heldAfterAll_addDetection hd
  have hstay : ¬ (d.cls = .c ∧ (settleLog s u b (logBase s u) (detectedNow s u)).held = 1 ∧ (logNow (logOrDead u b d s) u).held = 2) :=
    fun ⟨_, h1, h2⟩ => hno h1 h2
  simp only [detectFault, hb, hstay, if_false]

/-- A class C fault of a port is logged, and that is all: a port's reactions are those of the meanings that find its faults. -/
theorem detect_FPT (p : PlaneId) (n : PortId) (src wh detail : Nat) (s : State) : detect (uFPT p n.val) src .c wh detail s =
    logOrDead (uFPT p n.val) .FPT { src := src, cls := .c, loc := wh, detail := detail } s := by
  have hesc : ∀ k, escSource .FPT k = false := fun k => by simp [escSource, sourcesOf]
  rw [detect, detectFault_of_no_escalation (unitBlk_uFPT p n) (by decide) hesc rfl]
  simp [react, unitPlane_uFPT]

@[simp] theorem detect_FPT_planes (p : PlaneId) (n : PortId) (src wh detail : Nat) (s : State) :
    (detect (uFPT p n.val) src .c wh detail s).planes = s.planes := by rw [detect_FPT, logOrDead_planes (by decide)]

theorem detect_FPT_get (p : PlaneId) (n : PortId) (src wh detail : Nat) (s : State) (u : Nat) {f : RField} (hf : 0x40 ≤ f.key % 4096) :
    (detect (uFPT p n.val) src .c wh detail s).get u f = s.get u f := by rw [detect_FPT, logOrDead_get (by decide) _ _ _ hf]

/-! ### States, lanes and credits of a port -/

/-- An update that a fold repeats keeps what each of its steps with a member of the list keeps. -/
theorem foldl_keeps_of_mem {α β : Type} (g : State → β) {f : State → α → State} (l : List α) (h : ∀ x ∈ l, ∀ t, g (f t x) = g t) (s : State) :
    g (l.foldl f s) = g s := by
  induction l generalizing s with
  | nil => rfl
  | cons x r ih => exact (ih (fun y hy => h y (List.mem_cons_of_mem x hy)) _).trans (h x List.mem_cons_self s)

section
variable (p : PlaneId) (n : Nat) (s : State)

theorem portState_setPort {st : Nat} (hst : st < 16) : portState (setPort p n st s) p n = st := by
  rw [portState, setPort, modLink_get, State.get_put_same _ _ _ _ rfl]
  exact Nat.mod_eq_of_lt hst

theorem setPort_get {f : RField} (h : beside Fld.FPT_STAT_STATE f = true) (st u : Nat) : (setPort p n st s).get u f = s.get u f := by
  rw [setPort, modLink_get, State.get_put_beside h]

theorem laneAct_setActive (l : List Nat) : (setActive p n l s).get (uFPT p n) Fld.FPT_STAT_LANE_ACT = maskOf l % 16 := by
  rw [setActive, State.get_put_beside (by decide), State.get_put_same _ _ _ _ rfl]
  rfl

theorem setActive_get {f : RField} (hact : beside Fld.FPT_STAT_LANE_ACT f = true) (hwidth : beside Fld.FPT_STAT_WIDTH_NOW f = true) (l : List Nat)
    (u : Nat) : (setActive p n l s).get u f = s.get u f := by
  rw [setActive, State.get_put_beside hwidth, State.get_put_beside hact]

/-- VC_AVAIL stands beyond the registers of a port's states and lanes. -/
theorem dropCredits_get {f : RField} (h : f.key % 4096 < 0x100) (u : Nat) : (dropCredits p n s).get u f = s.get u f := by
  refine foldl_keeps_of_mem (fun t : State => t.get u f) _ (fun v hv t => State.get_put_beside ?_ t _ _ _) s
  have hkey : (Fld.FPT_VC_AVAIL.at v).key = 0x100 + 4 * v := by simp [RField.key, RField.at, Fld.FPT_VC_AVAIL, Nat.mul_comm]
  have hlt := List.mem_range.mp hv
  have hplace : (Fld.FPT_VC_AVAIL.at v).key % 4096 ≠ f.key % 4096 := by omega
  simp [beside, hplace]

theorem dropLink_get {f : RField} (h : f.key % 4096 < 0x100) (u : Nat) : (dropLink p n s).get u f = s.get u f := by
  rw [dropLink, dropCredits_get p n _ h, modLink_get]

@[simp] theorem dropCredits_planes : (dropCredits p n s).planes = s.planes :=
  foldl_keeps State.planes (fun t v => State.put_planes t (uFPT p n) (Fld.FPT_VC_AVAIL.at v) 0) (List.range 8) s

/-- FPT_LANE.LOCK is what a start of training writes beyond the port's state and lanes. -/
theorem startTraining_get {f : RField} (hlane : f.key % 4096 ≠ 0x054) (hcredit : f.key % 4096 < 0x100) (u : Nat) :
    (startTraining p n s).get u f = (setActive p n [] (setPort p n 1 s)).get u f := by
  have hlock : beside Fld.FPT_LANE_LOCK f = true := by
    have hkey : Fld.FPT_LANE_LOCK.key % 4096 ≠ f.key % 4096 := Ne.symm hlane
    simp [beside, hkey]
  unfold startTraining
  dsimp only
  rw [foldl_keeps (fun t : State => t.get u f) fun t i => by
    rw [trainLane, modLane_get, dropLane, modLane_get, State.get_put_beside hlock], dropLink_get p n _ hcredit, modLink_get]

/-- A port that starts training is TRAINING, without lanes, and its configuration stays. -/
theorem startTraining_shown : portState (startTraining p n s) p n = 1 ∧ (startTraining p n s).get (uFPT p n) Fld.FPT_STAT_LANE_ACT = 0 ∧
    (startTraining p n s).get (uFPT p n) Fld.FPT_CFG_PEN = s.get (uFPT p n) Fld.FPT_CFG_PEN := by
  refine ⟨?_, ?_, ?_⟩
  · rw [portState, startTraining_get p n s (by decide) (by decide), setActive_get p n _ (by decide) (by decide), ← portState,
      portState_setPort p n s (by decide)]
  · rw [startTraining_get p n s (by decide) (by decide), laneAct_setActive]
    rfl
  · rw [startTraining_get p n s (by decide) (by decide), setActive_get p n _ (by decide) (by decide), setPort_get p n s (by decide)]

end

/-! ### The first event of a beat (R308) -/

@[simp] theorem noteEvent_get (p : PlaneId) (n : Nat) (s : State) (u : Nat) (f : RField) : (noteEvent p n s).get u f = s.get u f := by
  simp only [noteEvent]
  split <;> simp

@[simp] theorem noteEvent_lane (p : PlaneId) (n : Nat) (s : State) (i : Nat) : laneOf (noteEvent p n s) p i = laneOf s p i := by
  simp only [noteEvent]
  split <;> simp [laneOf, State.fab]

/-- What a port keeps of its pages is no part of its lanes. -/
@[simp] theorem noteEvent_bad (p : PlaneId) (n : Nat) (s : State) : (linkOf (noteEvent p n s) p n).bad = (linkOf s p n).bad := by
  simp only [noteEvent]
  split <;> simp [linkOf, State.fab]

end Sys2Proof.Machine
end

section
/-! SUPPORT. The life of a port (R284, R304, R306): writes of FPT_CFG, the end of training, and the times of DISCOVER and ABSENT, and the
statement about them. -/

namespace Sys2Proof.Machine

/-! ### Offsets as a mask -/

theorem offsOf_maskOf_range : ∀ w < 5, offsOf (maskOf (List.range w) % 16) = List.range w := by decide

/-- A port runs on the offsets that it was given, where they are its lowest. -/
theorem activeOffs_setActive {w : Nat} (hw : w ≤ 4) (p : PlaneId) (n : Nat) (s : State) :
    activeOffs (setActive p n (List.range w) s) p n = List.range w := by
  rw [activeOffs, laneAct_setActive, offsOf_maskOf_range w (by omega)]

/-! ### FPT_CFG (R309) -/

theorem regFields_fptCfg : regFields .FPT 0x040 =
    [Fld.FPT_CFG_PEN, Fld.FPT_CFG_WIDTH, Fld.FPT_CFG_ROLE, Fld.FPT_CFG_VC8, Fld.FPT_CFG_SLAT] := by decide

/-- Every field of FPT_CFG takes the written value. -/
theorem fieldGet_keptWord_fptCfg {f : RField} (hf : f ∈ regFields .FPT 0x040) (s : State) (u : Nat) (v : Word) :
    fieldGet (keptWord s u .FPT 0x040 v) f = fieldGet v f := by
  have hrw : ∀ locked, ∀ f ∈ regFields .FPT 0x040,
      accMask (regFields .FPT 0x040) (fun a => a = .rw || (a = .rwl && !locked)) &&& f.mask = f.mask := by decide
  have hw1c : ∀ f ∈ regFields .FPT 0x040, accMask (regFields .FPT 0x040) (fun a => a = .w1c) &&& f.mask = 0 := by decide
  exact fieldGet_mergeWrite (hrw _ f hf) (hw1c f hf)

theorem b2n_eq_one : ∀ b : Bool, decide (b2n b = 1) = b := by decide

/-- FPT_CFG.PEN is bit 0 of its register. -/
theorem portPen_eq_bit (s : State) (p : PlaneId) (n : Nat) : portPen s p n = (s.reg (uFPT p n) 0x040).getLsbD 0 := by
  have hkey : Fld.FPT_CFG_PEN.key = 0x040 := by decide
  rw [portPen, State.on, State.get, hkey, fieldGet_bit rfl]
  exact b2n_eq_one _

section
variable {acc : Accessor} {p : PlaneId} {n : PortId} {v : Word} {s : State}

theorem arrive_upperLane (acc : Accessor) (u : Nat) (s : State) (p : PlaneId) (n : Nat) : upperLane (arrive acc u s) p n = upperLane s p n := by
  rw [upperLane, portOf_congr (fun m => arrive_get acc u s (by decide)) (fun m => arrive_get acc u s (by decide)), upperLane]

theorem arrive_portPen (acc : Accessor) (u : Nat) (s : State) (p : PlaneId) (n : Nat) : portPen (arrive acc u s) p n = portPen s p n := by
  rw [portPen, State.on, arrive_get acc u s (by decide), portPen, State.on]

/-- The state of a port's page after the store of a write of FPT_CFG, before its effect. -/
def cfgStored (acc : Accessor) (p : PlaneId) (n : PortId) (v : Word) (s : State) : State :=
  afterStore (arrive acc (uFPT p n.val) s) (uFPT p n.val) .FPT 0x040 v

/-- FPT_CFG of the port holds the written fields. -/
theorem cfgStored_get {f : RField} (hf : f ∈ regFields .FPT 0x040) : (cfgStored acc p n v s).get (uFPT p n.val) f = fieldGet v f := by
  have hkey : ∀ f ∈ regFields .FPT 0x040, f.key = 0x040 := by decide
  rw [cfgStored, afterStore_get_own (hkey f hf) (by decide), fieldGet_keptWord_fptCfg hf]

theorem cfgStored_portPen : portPen (cfgStored acc p n v s) p n.val = v.getLsbD 0 := by
  rw [portPen, State.on, cfgStored_get (by decide), fieldGet_bit rfl]
  exact b2n_eq_one _

/-- The other ports keep theirs. -/
theorem cfgStored_get_ne {m : Nat} (hm : m ≠ n.val) {f : RField} (hf : f.key = 0x040) : (cfgStored acc p n v s).get (uFPT p m) f = s.get (uFPT p m) f := by
  have hunit : uFPT p n.val ≠ uFPT p m := by unfold uFPT; omega
  rw [cfgStored, State.get, hf, afterStore_reg_ne _ _ _ (regKey_ne_of_unit (uFPT_lt p n) hunit).symm (regKey_ne_of_mod (by decide)), ← hf,
    ← State.get, arrive_get acc _ s (by rw [hf]; decide)]

/-- An accepted write of FPT_CFG in the page of a port's lowest lane is stored and enables or disables the port. -/
theorem pen_accepted (hacc : accepted s acc (uFPT p n.val) 0x040 v = true) (hlow : upperLane s p n.val = false)
    (hlow' : upperLane (cfgStored acc p n v s) p n.val = false) : ∃ was, regWrite acc (uFPT p n.val) 0x040 v s =
      latchAfter was (uFPT p n.val) (penEffect p n.val (portPen s p n.val) (cfgStored acc p n v s)) := by
  have hview : storeSkips (arrive acc (uFPT p n.val) s) (uFPT p n.val) .FPT n.val 0x040 v = false := by
    simp [storeSkips, viewReg, unitPlane_uFPT, planeView, fptRead, arrive_upperLane, hlow]
  obtain ⟨was, hw⟩ := regWrite_plane (unitBlk_uFPT p n) (unitPlane_uFPT p n) (by decide) hacc
    ⟨by decide, lockHit_of_no_rwl (by decide) _ _ _, hview⟩
  refine ⟨was, hw.trans ?_⟩
  have heffect : ∀ (w old : Word) (t : State), upperLane t p n.val = false → planeEffect p .FPT n.val 0x040 w old t = penEffect p n.val (old.getLsbD 0) t :=
    fun w old t ht => if_pos ⟨rfl, by simp [ht]⟩
  rw [← cfgStored, heffect _ _ _ hlow', ← portPen_eq_bit, arrive_portPen]

/-- What follows a change of a port's state in its beat leaves its page: the check of the buffer's reserve, and the interrupts latched. -/
theorem checked_get (was : Bool) (r : State) {f : RField} (hf : 0x40 ≤ f.key % 4096) :
    (latchAfter was (uFPT p n.val) (checkCommit p r)).get (uFPT p n.val) f = r.get (uFPT p n.val) f := by
  rw [latchAfter_get _ _ (regKey_ne_of_mod (by omega)), get_of_portRegs (portRegs_checkCommit p _ p) n hf]

/-- PEN = 1 at a port that was disabled: it trains. -/
theorem pen_enables (hacc : accepted s acc (uFPT p n.val) 0x040 v = true) (hlow : upperLane s p n.val = false) (hoff : portPen s p n.val = false)
    (hv : v.getLsbD 0 = true) : Completes (.pen acc p n v) s (fun t => t.get (uFPT p n.val) Fld.FPT_CFG_PEN = 1 ∧ portState t p n.val = 1 ∧
      t.get (uFPT p n.val) Fld.FPT_STAT_LANE_ACT = 0) := by
  have hon : portPen (cfgStored acc p n v s) p n.val = true := by rw [cfgStored_portPen, hv]
  have hlow' : upperLane (cfgStored acc p n v s) p n.val = false := by simp [upperLane, portOf_self hon]
  obtain ⟨was, hw⟩ := pen_accepted hacc hlow hlow'
  have hpen : (cfgStored acc p n v s).get (uFPT p n.val) Fld.FPT_CFG_PEN = 1 := by rw [cfgStored_get (by decide), fieldGet_bit rfl]; exact congrArg b2n hv
  refine ⟨_, rfl, ?_⟩
  rw [show Fld.FPT_CFG_PEN.key = 0x040 from rfl, hw, hoff, penEffect, if_neg (by simp [hon]), if_pos hon]
  dsimp only
  generalize hr : (portLanes _ p n.val).foldl _ _ = r
  have hkept : r.get (uFPT p n.val) Fld.FPT_CFG_PEN = 1 := by
    rw [← hr, foldl_keeps (fun t : State => t.get (uFPT p n.val) Fld.FPT_CFG_PEN) fun t i => State.get_put_beside (by decide) ..,
      State.get_put_beside (by decide), hpen]
  obtain ⟨hstate, hact, hcfg⟩ := startTraining_shown p n.val (modLink p n.val (fun _ => {}) r)
  refine ⟨?_, ?_, ?_⟩
  · rw [checked_get _ _ (by decide), hcfg, modLink_get, hkept]
  · rw [portState, checked_get _ _ (by decide), ← portState, hstate]
  · rw [checked_get _ _ (by decide), hact]

/-- A write that no condition rejects meets no STATE of its block (Table 2.3). -/
theorem state_of_firstReject_none {width unmapped busy fenced reserved : Bool} {v : Verdict}
    (h : firstReject width unmapped busy fenced v reserved = none) : v.state = false := by
  unfold firstReject at h
  split_ifs at h with h1 h2 h3 h4 h5
  all_goals simpa using h5

/-- While a port is enabled, FPT_CFG takes no change but of PEN (R309). -/
theorem accepted_enabled_keeps_cfg (hacc : accepted s acc (uFPT p n.val) 0x040 v = true) (hlow : upperLane s p n.val = false)
    (hon : portPen s p n.val = true) : s.reg (uFPT p n.val) 0x040 >>> 1 = v >>> 1 := by
  simp only [accepted, verdictOf, unitBlk_uFPT, Bool.and_eq_true, decide_eq_true_eq] at hacc
  have hstate := state_of_firstReject_none hacc.2
  have hrw : ∀ lock : Bool, (regFields .FPT 0x040).all (fun f => f.acc = .ro || f.acc = .res || (lock && f.acc = .rwl)) = false := by decide
  have hrwl : accMask (regFields .FPT 0x040) (fun a => a = .rwl) = 0 := by decide
  have hown : (fptVerdict (arrive acc (uFPT p n.val) s) p n.val 0x040 v).state = false := by
    have hunlocked : ∀ (lock : Bool) (old : Word), unlockedValue (regFields .FPT 0x040) lock old v = v := fun lock old => by
      rw [unlockedValue, hrwl]
      cases lock
      · rfl
      · show (old &&& 0#32) ||| (v &&& ~~~0#32) = v
        rw [BitVec.and_zero, BitVec.zero_or, BitVec.not_zero, BitVec.and_allOnes]
    simp [blockVerdict, hrw, hunlocked, unitPlane_uFPT, Verdict.or, planeVerdict] at hstate
    exact hstate.1
  have hreg : (arrive acc (uFPT p n.val) s).reg (uFPT p n.val) 0x040 = s.reg (uFPT p n.val) 0x040 :=
    arrive_reg acc _ s (not_countsLink_of_low _ (by decide))
  simp [fptVerdict, portReg, arrive_upperLane, hlow, arrive_portPen, hon, hreg] at hown
  exact hown.2

theorem fieldGet_width_of_shift {w v : Word} (h : w >>> 1 = v >>> 1) : fieldGet w Fld.FPT_CFG_WIDTH = fieldGet v Fld.FPT_CFG_WIDTH := by
  have hnat := congrArg BitVec.toNat h
  simp only [BitVec.toNat_ushiftRight] at hnat
  simp only [fieldGet, BitVec.extractLsb'_toNat, show Fld.FPT_CFG_WIDTH.lo = 1 from rfl, hnat]

/-- A write of PEN = 0 leaves the ports as one field less leaves them. -/
theorem cfgStored_disabled (hacc : accepted s acc (uFPT p n.val) 0x040 v = true) (hlow : upperLane s p n.val = false)
    (hon : portPen s p n.val = true) (hv : v.getLsbD 0 = false) :
    upperLane (cfgStored acc p n v s) p n.val = upperLane (s.put (uFPT p n.val) Fld.FPT_CFG_PEN 0) p n.val := by
  have hother : ∀ (m : Nat), m ≠ n.val → ∀ f : RField, f.key = 0x040 →
      (cfgStored acc p n v s).get (uFPT p m) f = (s.put (uFPT p n.val) Fld.FPT_CFG_PEN 0).get (uFPT p m) f := fun m hm f hf => by
    have hunit : uFPT p n.val ≠ uFPT p m := by unfold uFPT; omega
    rw [cfgStored_get_ne hm hf, State.get_put_ne _ _ (regKey_ne_of_unit (uFPT_lt p n) hunit)]
  have hpen : ∀ m, (cfgStored acc p n v s).get (uFPT p m) Fld.FPT_CFG_PEN = (s.put (uFPT p n.val) Fld.FPT_CFG_PEN 0).get (uFPT p m) Fld.FPT_CFG_PEN := by
    intro m
    by_cases hm : m = n.val
    · subst hm
      rw [cfgStored_get (by decide), State.get_put_same _ _ _ _ rfl, fieldGet_bit rfl, show Fld.FPT_CFG_PEN.lo = 0 from rfl, hv]
      rfl
    · exact hother m hm _ rfl
  have hwidth : ∀ m, (cfgStored acc p n v s).get (uFPT p m) Fld.FPT_CFG_WIDTH =
      (s.put (uFPT p n.val) Fld.FPT_CFG_PEN 0).get (uFPT p m) Fld.FPT_CFG_WIDTH := by
    intro m
    by_cases hm : m = n.val
    · subst hm
      rw [cfgStored_get (by decide), State.get_put_beside (by decide), State.get,
        fieldGet_width_of_shift (accepted_enabled_keeps_cfg hacc hlow hon).symm]
      rfl
    · exact hother m hm _ rfl
  rw [upperLane, portOf_congr hpen hwidth, upperLane]

/-- A port that is disabled loses its link and its credits, and its plane follows its sources anew: its page keeps its state and lanes. -/
theorem disabled_get {was : Bool} {r : State} {g : Fabric → Fabric} {f : RField} (hlow : 0x40 ≤ f.key % 4096) (hhigh : f.key % 4096 < 0x100) :
    (latchAfter was (uFPT p n.val) (checkCommit p (followUpstream p (dropCredits p n.val (modFab p g r))))).get (uFPT p n.val) f =
      r.get (uFPT p n.val) f := by
  rw [checked_get _ _ hlow, get_of_portRegs (portRegs_followUpstream p _ p) n hlow, dropCredits_get p _ _ hhigh, modFab_get]

/-- PEN = 0 at an enabled port: it is DISABLED and has no lane. -/
theorem pen_disables (hacc : accepted s acc (uFPT p n.val) 0x040 v = true) (hlow : upperLane s p n.val = false) (hon : portPen s p n.val = true)
    (hv : v.getLsbD 0 = false) (hlow' : upperLane (s.put (uFPT p n.val) Fld.FPT_CFG_PEN 0) p n.val = false) :
    Completes (.pen acc p n v) s (fun t => t.get (uFPT p n.val) Fld.FPT_CFG_PEN = 0 ∧ portState t p n.val = 0 ∧
      t.get (uFPT p n.val) Fld.FPT_STAT_LANE_ACT = 0) := by
  have hoff : portPen (cfgStored acc p n v s) p n.val = false := by rw [cfgStored_portPen, hv]
  obtain ⟨was, hw⟩ := pen_accepted hacc hlow ((cfgStored_disabled hacc hlow hon hv).trans hlow')
  have hpen : (cfgStored acc p n v s).get (uFPT p n.val) Fld.FPT_CFG_PEN = 0 := by rw [cfgStored_get (by decide), fieldGet_bit rfl]; exact congrArg b2n hv
  refine ⟨_, rfl, ?_⟩
  rw [show Fld.FPT_CFG_PEN.key = 0x040 from rfl, hw, hon, penEffect, if_neg (by simp [hoff]), if_neg (by simp [hoff])]
  dsimp only
  generalize hr : ((List.range _).map _).foldl _ _ = r
  have hkept : r.get (uFPT p n.val) Fld.FPT_CFG_PEN = 0 := by
    rw [← hr, foldl_keeps (fun t : State => t.get (uFPT p n.val) Fld.FPT_CFG_PEN) fun t i => by
      rw [dropLane, modLane_get, State.get_put_beside (by decide), State.get_put_beside (by decide)], hpen]
  refine ⟨?_, ?_, ?_⟩
  · rw [disabled_get (by decide) (by decide), State.get_put_beside (by decide), State.get_put_beside (by decide),
      setActive_get p n.val r (by decide) (by decide), hkept]
  · rw [portState, disabled_get (by decide) (by decide), State.get_put_beside (by decide), State.get_put_same _ _ _ _ rfl]
    rfl
  · rw [disabled_get (by decide) (by decide), State.get_put_beside (by decide), State.get_put_beside (by decide), laneAct_setActive]
    rfl

end

/-! ### Training (R304, R306) -/

theorem selectLanes_none_bad (w : Nat) : selectLanes w [] = List.range w := by simp [selectLanes]

section
variable {p : PlaneId} {n : PortId} {s : State}

/-- Training that ends on every lane. -/
theorem exec_trainingDone_whole (hpen : portPen s p n.val = true) (hst : portState s p n.val = 1) (hbad : (linkOf s p n.val).bad = [])
    (hwidth : portWidth s p n.val ≤ 4) : exec (.trainingDone p n 15) s = .next (setPort p n.val 2 (setActive p n.val (List.range (portWidth s p n.val))
      (modLink p n.val (fun l => { l with bad := [] })
        ((List.range (portWidth s p n.val)).foldl (fun t i => t.put (uFPT p (n.val + i)) Fld.FPT_LANE_LOCK 1) s)))) := by
  have hbits : ∀ i < 4, bit 15 i = true := by decide
  have hgood : (List.range (portWidth s p n.val)).filter (fun i => bit 15 i) = List.range (portWidth s p n.val) :=
    List.filter_eq_self.mpr fun i hi => hbits i (by have := List.mem_range.mp hi; omega)
  have hnone : List.range (portWidth s p n.val) ≠ [] := by simp [portWidth]
  have hall : (List.range (portWidth s p n.val)).filter (fun i => !decide (i < portWidth s p n.val)) = [] := by
    simp [List.filter_eq_nil_iff]
  simp only [exec, execTrainingDone, hpen, hst, hbad]
  simp [hgood, hnone, hall, selectLanes_none_bad]

/-- A lane that is locked stays so, whichever lanes lock after it. -/
theorem laneLock_put {t : State} {u : Nat} (h : t.get u Fld.FPT_LANE_LOCK = 1) (u' : Nat) :
    (t.put u' Fld.FPT_LANE_LOCK 1).get u Fld.FPT_LANE_LOCK = 1 := by
  by_cases hkey : regKey u' Fld.FPT_LANE_LOCK.key = regKey u Fld.FPT_LANE_LOCK.key
  · rw [State.get, State.reg_of_key_eq _ hkey.symm, ← State.get, State.get_put_same _ _ _ _ rfl]
    rfl
  · rw [State.get_put_ne _ _ hkey, h]

/-- The lowest lane is among those that lock. -/
theorem laneLock_foldl {w : Nat} (hw : 0 < w) (p : PlaneId) (n : Nat) (s : State) :
    ((List.range w).foldl (fun t i => t.put (uFPT p (n + i)) Fld.FPT_LANE_LOCK 1) s).get (uFPT p n) Fld.FPT_LANE_LOCK = 1 := by
  induction w with
  | zero => omega
  | succ w ih =>
    rw [List.range_succ, List.foldl_append, List.foldl_cons, List.foldl_nil]
    by_cases h0 : w = 0
    · subst h0
      rw [Nat.add_zero, State.get_put_same _ _ _ _ rfl]
      rfl
    · exact laneLock_put (ih (by omega)) _

theorem trainingDone_whole (hpen : portPen s p n.val = true) (hst : portState s p n.val = 1) (hbad : (linkOf s p n.val).bad = [])
    (hwidth : portWidth s p n.val ≤ 4) : Completes (.trainingDone p n 15) s (fun t => portState t p n.val = 2 ∧
      activeOffs t p n.val = List.range (portWidth s p n.val) ∧ t.get (uFPT p n.val) Fld.FPT_LANE_LOCK = 1 ∧ ∀ q, q ≠ p → t.pl q = s.pl q) := by
  refine ⟨_, exec_trainingDone_whole hpen hst hbad hwidth, ?_, ?_, ?_, (aside_eq_iff.mp (by simp [setPort, setActive])).1⟩
  · exact portState_setPort p n.val _ (by decide)
  · rw [activeOffs, setPort_get p n.val _ (by decide), ← activeOffs, activeOffs_setActive hwidth]
  · rw [setPort_get p n.val _ (by decide), setActive_get p n.val _ (by decide) (by decide), modLink_get]
    exact laneLock_foldl (Nat.two_pow_pos _) ..

/-- Training that ends on no lane, once its time is over: each lane's fault is logged. -/
theorem exec_trainingDone_none (hpen : portPen s p n.val = true) (hst : portState s p n.val = 1)
    (hlate : (linkOf s p n.val).since + 165000000 ≤ s.beats p) : exec (.trainingDone p n 0) s = .next (setPort p n.val 5
      (((List.range (portWidth s p n.val)).filter (fun i => !(linkOf s p n.val).bad.contains i)).foldl
        (fun t i => detect (uFPT p n.val) 2 .c (n.val + i) 0 t) s)) := by
  have hbits : ∀ l : List Nat, l.filter (fun i => bit 0 i) = [] := fun l => by simp [bit]
  have hlate' : (linkOf s p n.val).since + trainBeats ≤ s.beats p := hlate
  simp [exec, execTrainingDone, hpen, hst, hlate', hbits]

theorem trainingDone_none (hpen : portPen s p n.val = true) (hst : portState s p n.val = 1) (hlate : (linkOf s p n.val).since + 165000000 ≤ s.beats p) :
    Completes (.trainingDone p n 0) s (fun t => portState t p n.val = 5 ∧ (linkOf t p n.val).since = s.beats p) := by
  refine ⟨_, exec_trainingDone_none hpen hst hlate, portState_setPort p n.val _ (by decide), ?_⟩
  rw [setPort, linkOf_modLink, State.beats, State.pl, foldl_keeps State.planes fun t i => detect_FPT_planes .., ← State.pl, ← State.beats]

theorem trainingDone_idle (hst : portState s p n.val ≠ 1) (m : Fin 16) : exec (.trainingDone p n m) s = .next s := by
  simp [exec, execTrainingDone, hst]

/-! ### DISCOVER and ABSENT (R306) -/

theorem discoverTimeout_silent (hpen : portPen s p n.val = true) (hst : portState s p n.val = 2) (hlate : (linkOf s p n.val).since + 262144 < s.beats p)
    (hlanes : activeOffs s p n.val ≠ []) (hsilent : (activeOffs s p n.val).all (fun i => !(laneOf s p (n.val + i)).heard) = true) :
    Completes (.discoverTimeout p n) s (fun t => portState t p n.val = 5 ∧ t.get (uFPT p n.val) Fld.FPT_STAT_LANE_ACT = 0) := by
  have hlate' : ¬ s.beats p ≤ (linkOf s p n.val).since + discoverBeats := Nat.not_le.mpr hlate
  have hoffs : activeOffs (noteEvent p n.val s) p n.val = activeOffs s p n.val := by rw [activeOffs, noteEvent_get, activeOffs]
  have hquiet : (activeOffs s p n.val).filter (fun i => !(laneOf s p (n.val + i)).heard) = activeOffs s p n.val :=
    List.filter_eq_self.mpr (List.all_eq_true.mp hsilent)
  refine ⟨setActive p n.val [] (setPort p n.val 5 (noteEvent p n.val s)), ?_, ?_, ?_⟩
  · simp [exec, execDiscoverTimeout, hpen, hst, hlate', hoffs, hquiet, hlanes]
  · rw [portState, setActive_get p n.val _ (by decide) (by decide), ← portState, portState_setPort p n.val _ (by decide)]
  · rw [laneAct_setActive]
    rfl

theorem absentRetry_due (hpen : portPen s p n.val = true) (hst : portState s p n.val = 5) (hlate : (linkOf s p n.val).since + 165000000 ≤ s.beats p) :
    Completes (.absentRetry p n) s (fun t => portState t p n.val = 1 ∧ t.get (uFPT p n.val) Fld.FPT_STAT_LANE_ACT = 0) := by
  obtain ⟨hstate, hact, -⟩ := startTraining_shown p n.val s
  exact ⟨_, if_pos ⟨hpen, hst, hlate⟩, hstate, hact⟩

theorem absentRetry_idle (hst : portState s p n.val ≠ 5) : exec (.absentRetry p n) s = .next s := if_neg fun h => hst h.2.1

end

/-- Settles O40: writes of PEN by what the port's page holds after them, and each event of a port's time by the state that it sets. -/
theorem portStates : Obligations.PortStates := by
  unfold Obligations.PortStates
  refine ⟨?enable, ?disable, ?trained, ?untrained, ?notTraining, ?discover, ?retry, ?notAbsent⟩
  case enable => exact fun _ _ _ _ _ => pen_enables
  case disable => exact fun _ _ _ _ _ => pen_disables
  case trained => exact fun _ _ _ => trainingDone_whole
  case untrained => exact fun _ _ _ => trainingDone_none
  case notTraining => exact fun _ _ m s hst => ⟨s, trainingDone_idle hst m, rfl⟩
  case discover => exact fun _ _ _ => discoverTimeout_silent
  case retry => exact fun _ _ _ => absentRetry_due
  case notAbsent => exact fun _ _ s hst => ⟨s, absentRetry_idle hst, rfl⟩

end Sys2Proof.Machine
end

section
/-! SUPPORT. Link control messages (R289, R300 to R306): the bytes of a message, round trips, HELLOs sent and received, and the statement about
them. -/

namespace Sys2Proof.Machine

/-! ### Bytes of a number (R65) -/

theorem drop_bytesOf (i n v : Nat) : (bytesOf n v).drop i = bytesOf (n - i) (v / 256 ^ i) := by
  induction i generalizing n v with
  | zero => simp
  | succ i ih =>
    cases n with
    | zero => simp [bytesOf]
    | succ n => rw [bytesOf, List.drop_succ_cons, ih, Nat.div_div_eq_div_mul, pow_succ', Nat.add_sub_add_right]

theorem take_bytesOf (k n v : Nat) : (bytesOf n v).take k = bytesOf (min k n) v := by
  induction k generalizing n v with
  | zero => simp [bytesOf]
  | succ k ih =>
    cases n with
    | zero => simp [bytesOf]
    | succ n => rw [bytesOf, List.take_succ_cons, ih, Nat.add_min_add_right, bytesOf]

theorem length_bytesOf (n v : Nat) : (bytesOf n v).length = n := by
  induction n generalizing v with
  | zero => rfl
  | succ n ih => rw [bytesOf, List.length_cons, ih]

theorem ofBytes_bytesOf (n v : Nat) : ofBytes (bytesOf n v) = v % 256 ^ n := by
  induction n generalizing v with
  | zero => simp [bytesOf, ofBytes, Nat.mod_one]
  | succ n ih => rw [bytesOf, ofBytes, ih, BitVec.toNat_ofNat, show 2 ^ 8 = 256 from rfl, pow_succ' 256 n, Nat.mod_mul]

/-- A field of whole bytes within a number's bytes. -/
theorem ofBytes_sliceB_bytesOf {i k n : Nat} (h : i + k ≤ n) (v : Nat) : ofBytes (sliceB (bytesOf n v) i k) = v / 256 ^ i % 256 ^ k := by
  have hk : min k (n - i) = k := by omega
  simp only [sliceB, drop_bytesOf, take_bytesOf, hk, length_bytesOf, Nat.sub_self, List.replicate_zero, List.append_nil, ofBytes_bytesOf]

section
variable {p : PlaneId} {s : State}

/-! ### Round trips (R300, R301) -/

@[simp] theorem laneOf_queueCtl (lane : Nat) (m : CtlMsg) : laneOf (queueCtl p lane m s) p lane = { laneOf s p lane with tx := (laneOf s p lane).tx ++ [m] } :=
  laneOf_modLane ..

theorem rttProbe_answered {lane n : PortId} (hport : portOf s p lane.val = some n.val) (htalks : portTalks s p n.val = true ∨ portState s p n.val = 1)
    (dep : Dword) : Completes (.rttProbe p lane dep) s (fun t => (laneOf t p lane.val).tx =
      (laneOf s p lane.val).tx ++ [{ kind := 6, body := ctlBytes 6 (bytesOf 8 dep.toNat), due := s.ft p }] ∧ t.regs = s.regs) := by
  have hexec : exec (.rttProbe p lane dep) s =
      .next (queueCtl p lane.val { kind := 6, body := ctlBytes 6 (bytesOf 8 dep.toNat), due := s.ft p } s) := by
    simp only [exec, execRttProbe, probeIn, hport, htalks, if_true]
  exact ⟨_, hexec, by rw [laneOf_queueCtl], rfl⟩

theorem rttEcho_measures {lane n : PortId} (hport : portOf s p lane.val = some n.val) (htalks : portTalks s p n.val = true ∨ portState s p n.val = 1)
    (dep : Dword) (sub : Fin 64) : Completes (.rttEcho p lane dep sub) s (fun t => t.get (uFPT p n.val) Fld.FPT_STAT_RTT =
      min (rttBeats p lane.val (64 * s.ft p + sub.val - 64 * dep.toNat)) 0xFFFF ∧ t.planes = s.planes) := by
  have hexec : exec (.rttEcho p lane dep sub) s = .next (s.put (uFPT p n.val) Fld.FPT_STAT_RTT
      (min (rttBeats p lane.val (64 * s.ft p + sub.val - 64 * dep.toNat)) 0xFFFF)) := by
    simp only [exec, execRttEcho, rttIn, hport, htalks, if_true]
  refine ⟨_, hexec, ?_, rfl⟩
  have hwidth : Fld.FPT_STAT_RTT.width = 16 := rfl
  rw [State.get_put_same _ _ _ _ rfl, hwidth]
  omega

/-! ### HELLOs sent (R302, R303) -/

theorem helloSend_due {lane n : PortId} (hport : portOf s p lane.val = some n.val) (htalks : portTalks s p n.val = true)
    (hact : (actLanes s p n.val).contains lane.val = true) (hfirst : (laneOf s p lane.val).helloIn ≠ some (s.ft p / 65536)) :
    Completes (.helloSend p lane) s (fun t => (laneOf t p lane.val).hseq = ((laneOf s p lane.val).hseq + 1) % 2 ^ 32 ∧
      (laneOf t p lane.val).helloIn = some (s.ft p / 65536) ∧ t.regs = s.regs ∧ (laneOf t p lane.val).tx =
        (laneOf s p lane.val).tx ++ [{ kind := 1, body := helloBody s p n.val lane.val, due := 65536 * (s.ft p / 65536) }]) := by
  have hexec : exec (.helloSend p lane) s = .next (modLane p lane.val (fun l => { l with helloIn := some (s.ft p / 65536), hseq := (l.hseq + 1) % 2 ^ 32 })
      (queueCtl p lane.val { kind := 1, body := helloBody s p n.val lane.val, due := 65536 * (s.ft p / 65536) } s)) := by
    simp only [exec, execHelloSend, hport]
    exact if_pos ⟨htalks, hact, hfirst⟩
  refine ⟨_, hexec, ?_, ?_, rfl, ?_⟩ <;> rw [laneOf_modLane, laneOf_queueCtl]

/-- An interval that has sent its HELLO sends no second one. -/
theorem helloSend_again {lane : PortId} (hsent : (laneOf s p lane.val).helloIn = some (s.ft p / 65536)) : exec (.helloSend p lane) s = .next s := by
  simp only [exec, execHelloSend]
  split
  · rfl
  · exact if_neg fun h => h.2.2 hsent

/-! ### Entry to UP and QUARANTINE (R289, R305) -/

/-- A field of FPT_STAT shares no bit with the registers beyond it. -/
theorem beside_stat {f g : RField} (hf : f.key % 4096 = 0x050) (hg : 0x050 < g.key % 4096) : beside f g = true := by
  have hne : f.key % 4096 ≠ g.key % 4096 := by omega
  simp [beside, hne]

/-- UP leaves the registers of a port's page between FPT_STAT and VC_GRANT. -/
theorem enterUp_get (n : Nat) (m : PortId) {f : RField} (hlow : 0x050 < f.key % 4096) (hhigh : f.key % 4096 < 0x100) :
    (enterUp p n s).get (uFPT p m.val) f = s.get (uFPT p m.val) f := by
  rw [enterUp, get_of_portRegs (portRegs_followUpstream p _ p) m (by omega), modLink_get, dropLink_get p n _ hhigh, setPort_get p n s (beside_stat rfl hlow)]

theorem portState_enterUp (n : PortId) : portState (enterUp p n.val s) p n.val = 3 := by
  rw [portState, enterUp, get_of_portRegs (portRegs_followUpstream p _ p) n (by decide), modLink_get, dropLink_get p _ _ (by decide), ← portState,
    portState_setPort p _ _ (by decide)]

/-- The log of an entry to QUARANTINE and what follows it leave a port's page: it is as the state, the lost link and the cause left it. -/
theorem quarantine_get (n m : PortId) (cause : Nat) {f : RField} (hlow : 0x40 ≤ f.key % 4096) : (quarantine p n.val cause s).get (uFPT p m.val) f =
    ((dropLink p n.val (setPort p n.val 4 (noteEvent p n.val s))).put (uFPT p n.val) Fld.FPT_STAT_QCAUSE cause).get (uFPT p m.val) f := by
  rw [quarantine, quarantineBy]
  rw [get_of_portRegs (portRegs_followUpstream p _ p) m hlow, detect_FPT_get _ _ _ _ _ _ _ hlow,
    foldl_keeps (fun t : State => t.get (uFPT p m.val) f) fun t i => modLane_get .., modLink_get]

/-- QUARANTINE leaves the registers of a port's page between FPT_STAT and VC_GRANT. -/
theorem quarantine_get_beyond (n m : PortId) (cause : Nat) {f : RField} (hlow : 0x050 < f.key % 4096) (hhigh : f.key % 4096 < 0x100) :
    (quarantine p n.val cause s).get (uFPT p m.val) f = s.get (uFPT p m.val) f := by
  rw [quarantine_get n m cause (by omega), State.get_put_beside (beside_stat rfl hlow), dropLink_get _ _ _ hhigh, setPort_get _ _ _ (beside_stat rfl hlow),
    noteEvent_get]

theorem quarantine_shown (n : PortId) {cause : Nat} (hcause : cause < 16) : portState (quarantine p n.val cause s) p n.val = 4 ∧
    (quarantine p n.val cause s).get (uFPT p n.val) Fld.FPT_STAT_QCAUSE = cause := by
  constructor
  · rw [portState, quarantine_get n n _ (by decide), State.get_put_beside (by decide), dropLink_get _ _ _ (by decide), ← portState,
      portState_setPort p _ _ (by decide)]
  · rw [quarantine_get n n _ (by decide), State.get_put_same _ _ _ _ rfl]
    exact Nat.mod_eq_of_lt hcause

/-- What the entry to UP of a port can come to. -/
theorem tryUp_cases (p : PlaneId) (n : Nat) (s : State) : tryUp p n s = enterUp p n s ∨ tryUp p n s = quarantine p n 8 s ∨ tryUp p n s = s := by
  simp only [tryUp]
  split_ifs <;> simp

theorem tryUp_get (n m : PortId) {f : RField} (hlow : 0x050 < f.key % 4096) (hhigh : f.key % 4096 < 0x100) :
    (tryUp p n.val s).get (uFPT p m.val) f = s.get (uFPT p m.val) f := by
  obtain hup | hlatency | hstay := tryUp_cases p n.val s
  · rw [hup, enterUp_get n.val m hlow hhigh]
  · rw [hlatency, quarantine_get_beyond n m _ hlow hhigh]
  · rw [hstay]

/-- A port in DISCOVER whose lanes have all matched goes to UP where the round trip fits (R289). -/
theorem tryUp_up {n : Nat} (hst : portState s p n = 2) (hlanes : actLanes s p n ≠ []) (hmatched : ∀ i ∈ actLanes s p n, 1 ≤ (laneOf s p i).streak)
    (hfits : latencyOk s p n = true) : tryUp p n s = enterUp p n s := by
  have hall : (actLanes s p n).all (fun i => decide (1 ≤ (laneOf s p i).streak)) = true := List.all_eq_true.mpr fun i hi => decide_eq_true (hmatched i hi)
  simp [tryUp, hst, hlanes, hall, hfits]

/-! ### HELLOs received (R302 to R306) -/

/-- The port's pages once a HELLO that arrives is kept in the lane's. -/
def helloPage (p : PlaneId) (n lane : Nat) (b : List Byte) (s : State) : State :=
  (List.range 12).foldl (fun t k => t.put (uFPT p lane) (Fld.FPT_HELLO_DATA.at k) (ofBytes (sliceB b (4 * k) 4))) (noteEvent p n s)

/-- The lane has heard the HELLO as well. -/
def helloKept (p : PlaneId) (n lane : Nat) (b : List Byte) (s : State) : State :=
  modLane p lane (fun l => { l with heard := true, streak := if helloCause s p n lane b = 0 then min (l.streak + 1) 4 else 0 }) (helloPage p n lane b s)

theorem key_helloData (k : Nat) : (Fld.FPT_HELLO_DATA.at k).key = 0x080 + 4 * k := by simp [RField.key, RField.at, Fld.FPT_HELLO_DATA, Nat.mul_comm]

/-- FPT_HELLO stands beyond what a port's life and a HELLO's comparisons read. -/
theorem helloPage_get (n lane : Nat) (b : List Byte) (u : Nat) {f : RField} (h : f.key % 4096 < 0x080) :
    (helloPage p n lane b s).get u f = s.get u f := by
  rw [helloPage, foldl_keeps_of_mem (fun t : State => t.get u f), noteEvent_get]
  intro k hk t
  have hlt := List.mem_range.mp hk
  have hplace : (Fld.FPT_HELLO_DATA.at k).key % 4096 ≠ f.key % 4096 := by rw [key_helloData]; omega
  exact State.get_put_beside (by simp [beside, hplace]) ..

theorem helloPage_data (n lane : Nat) (b : List Byte) {k : Nat} (hk : k < 12) :
    (helloPage p n lane b s).get (uFPT p lane) (Fld.FPT_HELLO_DATA.at k) = ofBytes (sliceB b (4 * k) 4) % 2 ^ 32 := by
  suffices h : ∀ j ≤ 12, k < j → ((List.range j).foldl (fun t k => t.put (uFPT p lane) (Fld.FPT_HELLO_DATA.at k) (ofBytes (sliceB b (4 * k) 4)))
      (noteEvent p n s)).get (uFPT p lane) (Fld.FPT_HELLO_DATA.at k) = ofBytes (sliceB b (4 * k) 4) % 2 ^ 32 from h 12 (by decide) hk
  intro j hj hkj
  induction j with
  | zero => omega
  | succ j ih =>
    rw [List.range_succ, List.foldl_append, List.foldl_cons, List.foldl_nil]
    by_cases heq : k = j
    · subst heq
      rw [State.get_put_same _ _ _ _ rfl]
      rfl
    · rw [State.get_put_ne _ _ (regKey_ne_of_mod (by rw [key_helloData, key_helloData]; omega)), ih (by omega) (by omega)]

/-- Beside the first event of its beat, a HELLO that is kept changes registers alone. -/
theorem helloPage_planes (n lane : Nat) (b : List Byte) : (helloPage p n lane b s).planes = (noteEvent p n s).planes :=
  foldl_keeps State.planes (fun t k => State.put_planes t (uFPT p lane) (Fld.FPT_HELLO_DATA.at k) (ofBytes (sliceB b (4 * k) 4))) _ _

theorem helloPage_bad (n lane : Nat) (b : List Byte) : (linkOf (helloPage p n lane b s) p n).bad = (linkOf s p n).bad := by
  rw [linkOf, State.fab, State.pl, helloPage_planes, ← State.pl, ← State.fab, ← linkOf, noteEvent_bad]

theorem helloPage_ident (n lane : Nat) (b : List Byte) : (helloPage p n lane b s).ident = s.ident := by
  have hnote : (noteEvent p n s).ident = s.ident := by simp only [noteEvent]; split <;> rfl
  rw [← hnote]
  exact foldl_keeps State.ident (fun t k => State.put_ident t (uFPT p lane) (Fld.FPT_HELLO_DATA.at k) (ofBytes (sliceB b (4 * k) 4))) _ _

/-- What a HELLO is compared with (Table 10.7): the module's identity, the port's plan and configuration, and the plan in force. -/
theorem helloCause_congr {t : State} (hident : t.ident = s.ident) (hget : ∀ (u : Nat) (f : RField), f.key % 4096 < 0x080 → t.get u f = s.get u f)
    (n lane : Nat) (b : List Byte) : helloCause t p n lane b = helloCause s p n lane b := by
  have hvcs : portVcs t p n = portVcs s p n := by rw [portVcs, State.on, hget _ _ (by decide), portVcs, State.on]
  have hplan : planId t p = planId s p := by rw [planId, State.get64, hget _ _ (by decide), hget _ _ (by decide), planId, State.get64]
  have hserial : t.get64 (uFPT p n) Fld.FPT_PLAN_SER_LO Fld.FPT_PLAN_SER_HI = s.get64 (uFPT p n) Fld.FPT_PLAN_SER_LO Fld.FPT_PLAN_SER_HI := by
    rw [State.get64, hget _ _ (by decide), hget _ _ (by decide), State.get64]
  simp only [helloCause]
  rw [hident, hserial, hvcs, hplan, hget _ Fld.FPT_PLAN_PLAN_KIND (by decide), hget _ Fld.FPT_PLAN_PLAN_ADDR (by decide),
    hget _ Fld.FPT_PLAN_PLAN_PORT (by decide), hget _ Fld.FPT_CFG_WIDTH (by decide), hget _ Fld.FPT_CFG_SLAT (by decide)]

/-- Keeping a HELLO changes nothing that it is compared with. -/
theorem helloCause_helloPage (n lane : Nat) (b c : List Byte) : helloCause (helloPage p n lane b s) p n lane c = helloCause s p n lane c :=
  helloCause_congr (helloPage_ident n lane b) (fun u _ => helloPage_get n lane b u) n lane c

/-- A cause is a row of Table 10.7. -/
theorem helloCause_lt (s : State) (p : PlaneId) (n lane : Nat) (b : List Byte) : helloCause s p n lane b < 16 := by
  simp only [helloCause]
  split_ifs <;> decide

theorem helloKept_get (n lane : Nat) (b : List Byte) (u : Nat) {f : RField} (h : f.key % 4096 < 0x080) :
    (helloKept p n lane b s).get u f = s.get u f := by rw [helloKept, modLane_get, helloPage_get n lane b u h]

theorem helloKept_actLanes (n lane : Nat) (b : List Byte) : actLanes (helloKept p n lane b s) p n = actLanes s p n :=
  actLanes_congr (helloKept_get n lane b _ (by decide)) (helloKept_get n lane b _ (by decide)) (by rw [helloKept, linkOf_modLane, helloPage_bad])

/-- What a HELLO on an active lane leads to (R305): a port whose lanes match may go to UP, and one that differs goes to QUARANTINE. -/
theorem helloIn_active {n lane : Nat} {b : List Byte} (hport : portOf s p lane = some n) (htalks : portTalks s p n = true)
    (hact : (actLanes s p n).contains lane = true) (hkind : ofBytes (b.take 1) = 1) (hversion : ofBytes (sliceB b 1 1) = 1) :
    helloIn p lane b s = if helloCause s p n lane b = 0 then tryUp p n (helloKept p n lane b s)
      else if portState s p n = 4 then helloKept p n lane b s else quarantine p n (helloCause s p n lane b) (helloKept p n lane b s) := by
  have hgo : ¬ (ofBytes (b.take 1) ≠ 1 ∨ ofBytes (sliceB b 1 1) ≠ 1 ∨ ¬ portTalks s p n = true ∨ ¬ (actLanes s p n).contains lane = true) := by
    simp only [hkind, hversion, htalks, hact]
    simp
  have hstate : portState (helloKept p n lane b s) p n = portState s p n := helloKept_get n lane b _ (by decide)
  have hpage : (List.range 12).foldl (fun t k => t.put (uFPT p lane) (Fld.FPT_HELLO_DATA.at k) (ofBytes (sliceB b (4 * k) 4))) (noteEvent p n s) =
      helloPage p n lane b s := by rw [helloPage]
  simp only [helloIn, hport]
  rw [if_neg hgo, hpage, helloCause_helloPage, ← helloKept, hstate]

section
variable {n lane : PortId} {msg : BitVec 384}

/-- The two leading bytes of a HELLO. -/
theorem helloBytes {v : Nat} (hv : v % 65536 = 0x0101) : ofBytes ((bytesOf 48 v).take 1) = 1 ∧ ofBytes (sliceB (bytesOf 48 v) 1 1) = 1 := by
  have hkind : ofBytes ((bytesOf 48 v).take 1) = v % 256 := by rw [take_bytesOf, ofBytes_bytesOf]; rfl
  have hversion : ofBytes (sliceB (bytesOf 48 v) 1 1) = v / 256 % 256 := by rw [ofBytes_sliceB_bytesOf (by decide), pow_one]
  rw [hkind, hversion]
  omega

theorem exec_hello_active (hport : portOf s p lane.val = some n.val) (htalks : portTalks s p n.val = true) (hmsg : msg.toNat % 65536 = 0x0101)
    (hact : (actLanes s p n.val).contains lane.val = true) : exec (.hello p lane msg) s =
      .next (if helloCause s p n.val lane.val (bytesOf 48 msg.toNat) = 0 then tryUp p n.val (helloKept p n.val lane.val (bytesOf 48 msg.toNat) s)
        else if portState s p n.val = 4 then helloKept p n.val lane.val (bytesOf 48 msg.toNat) s
        else quarantine p n.val (helloCause s p n.val lane.val (bytesOf 48 msg.toNat)) (helloKept p n.val lane.val (bytesOf 48 msg.toNat) s)) := by
  obtain ⟨hkind, hversion⟩ := helloBytes hmsg
  have hexec : exec (.hello p lane msg) s = .next (helloIn p lane.val (bytesOf 48 msg.toNat) s) := rfl
  rw [hexec, helloIn_active hport htalks hact hkind hversion]

/-- A HELLO on an active lane is kept in FPT_HELLO, whatever the port does about it. -/
theorem hello_kept (hport : portOf s p lane.val = some n.val) (htalks : portTalks s p n.val = true) (hmsg : msg.toNat % 65536 = 0x0101)
    (hact : (actLanes s p n.val).contains lane.val = true) : Completes (.hello p lane msg) s (fun t => ∀ k : Fin 12,
      t.get (uFPT p lane.val) (Fld.FPT_HELLO_DATA.at k.val) = msg.toNat / 2 ^ (32 * k.val) % 2 ^ 32) := by
  refine ⟨_, exec_hello_active hport htalks hmsg hact, fun k => ?_⟩
  have hkey := key_helloData k.val
  have hplace : 0x080 ≤ (Fld.FPT_HELLO_DATA.at k.val).key % 4096 ∧ (Fld.FPT_HELLO_DATA.at k.val).key % 4096 < 0x100 := by omega
  have hkept : (helloKept p n.val lane.val (bytesOf 48 msg.toNat) s).get (uFPT p lane.val) (Fld.FPT_HELLO_DATA.at k.val) =
      msg.toNat / 2 ^ (32 * k.val) % 2 ^ 32 := by
    have hpow : (256 : Nat) ^ (4 * k.val) = 2 ^ (32 * k.val) := by rw [show (256 : Nat) = 2 ^ 8 from rfl, ← pow_mul]; congr 1; omega
    rw [helloKept, modLane_get, helloPage_data _ _ _ k.isLt, ofBytes_sliceB_bytesOf (by omega), hpow]
    exact Nat.mod_mod _ _
  split_ifs
  · rw [tryUp_get n lane (by omega) hplace.2, hkept]
  · exact hkept
  · rw [quarantine_get_beyond n lane _ (by omega) hplace.2, hkept]

/-- A port of one lane in DISCOVER goes to UP with the first HELLO that matches. -/
theorem hello_matches (hport : portOf s p n.val = some n.val) (hst : portState s p n.val = 2) (hmsg : msg.toNat % 65536 = 0x0101)
    (hact : actLanes s p n.val = [n.val]) (hcause : helloCause s p n.val n.val (bytesOf 48 msg.toNat) = 0) (hfits : latencyOk s p n.val = true) :
    Completes (.hello p n msg) s (fun t => portState t p n.val = 3) := by
  have htalks : portTalks s p n.val = true := by rw [portTalks, portPen_of_portOf hport, hst]; rfl
  have hup : tryUp p n.val (helloKept p n.val n.val (bytesOf 48 msg.toNat) s) = enterUp p n.val (helloKept p n.val n.val (bytesOf 48 msg.toNat) s) := by
    have hlanes := (helloKept_actLanes (s := s) (p := p) n.val n.val (bytesOf 48 msg.toNat)).trans hact
    refine tryUp_up ((helloKept_get _ _ _ _ (by decide)).trans hst) (by rw [hlanes]; simp) (fun i hi => ?_) ?_
    · obtain rfl : i = n.val := by simpa [hlanes] using hi
      rw [helloKept, laneOf_modLane]
      simp only [hcause, if_true]
      omega
    · rw [latencyOk, helloKept_get _ _ _ _ (by decide), helloKept_get _ _ _ _ (by decide), ← latencyOk, hfits]
  refine ⟨_, exec_hello_active hport htalks hmsg (by simp [hact]), ?_⟩
  rw [if_pos hcause, hup]
  exact portState_enterUp n

theorem hello_differs (hport : portOf s p n.val = some n.val) (hst : portState s p n.val = 2) (hmsg : msg.toNat % 65536 = 0x0101)
    (hact : (actLanes s p n.val).contains n.val = true) (hcause : helloCause s p n.val n.val (bytesOf 48 msg.toNat) ≠ 0) :
    Completes (.hello p n msg) s (fun t => portState t p n.val = 4 ∧
      t.get (uFPT p n.val) Fld.FPT_STAT_QCAUSE = helloCause s p n.val n.val (bytesOf 48 msg.toNat)) := by
  have htalks : portTalks s p n.val = true := by rw [portTalks, portPen_of_portOf hport, hst]; rfl
  refine ⟨_, exec_hello_active hport htalks hmsg hact, ?_⟩
  rw [if_neg hcause, if_neg (by rw [hst]; decide)]
  exact quarantine_shown n (helloCause_lt _ _ _ _ _)

end
end

/-- Settles O42: round trips and HELLOs sent by what they queue and store, and a HELLO that arrives by what is kept of it and by the entry to UP or
QUARANTINE that it leads to. -/
theorem linkMessages : Obligations.LinkMessages := by
  unfold Obligations.LinkMessages
  refine ⟨?probe, ?echo, ?send, ?again, ?kept, ?up, ?quarantine⟩
  case probe => exact fun _ _ _ dep _ hport htalks => rttProbe_answered hport htalks dep
  case echo => exact fun _ _ _ dep sub _ hport htalks => rttEcho_measures hport htalks dep sub
  case send => exact fun _ _ _ _ => helloSend_due
  case again => exact fun _ _ s hsent => ⟨s, helloSend_again hsent, rfl⟩
  case kept => exact fun _ _ _ _ _ => hello_kept
  case up => exact fun _ _ _ _ => hello_matches
  case quarantine => exact fun _ _ _ _ => hello_differs

end Sys2Proof.Machine
end

section
/-! SUPPORT. Link units (R280, R282, R283, R288, R290, R307): what a unit that arrives changes of the plane, where its scheduled cell is placed, and
what a port in DISCOVER sends, and the statement about them. -/

namespace Sys2Proof.Machine

section
variable {p : PlaneId} {s : State}

/-! ### What a unit that is lost leaves (R282) -/

/-- What units carry into a plane: its memory, the cells come from links, and the frames of the switch core. -/
def carriedIn (p : PlaneId) (s : State) : List Host.Cell × List (Nat × Cell) × List Held := ((s.pl p).mem, (s.fab p).arrived, (s.fab p).frames)

theorem carriedIn_modPl (s : State) {f : Plane → Plane} (hmem : ∀ x, (f x).mem = x.mem) (harr : ∀ x, (f x).fab.arrived = x.fab.arrived)
    (hframes : ∀ x, (f x).fab.frames = x.fab.frames) : carriedIn p (s.modPl p f) = carriedIn p s := by
  simp only [carriedIn, State.fab, State.modPl_pl_same, hmem, harr, hframes]

theorem carriedIn_modLane (i : Nat) (f : LaneLink → LaneLink) (s : State) : carriedIn p (modLane p i f s) = carriedIn p s :=
  carriedIn_modPl s (fun _ => rfl) (fun _ => rfl) fun _ => rfl

theorem carriedIn_modLink (n : Nat) (f : PortLink → PortLink) (s : State) : carriedIn p (modLink p n f s) = carriedIn p s :=
  carriedIn_modPl s (fun _ => rfl) (fun _ => rfl) fun _ => rfl

theorem carriedIn_presentNone (lane slot : Nat) (s : State) : carriedIn p (presentNone p lane slot s) = carriedIn p s := by
  unfold presentNone
  split
  · rfl
  · exact carriedIn_modPl s (fun _ => rfl) (fun _ => rfl) fun _ => rfl

/-- A unit that is lost leaves a gap in its lane's sequence, and brings nothing. -/
theorem carriedIn_unitLost (n lane : Nat) (s : State) : carriedIn p (unitLost p n lane s) = carriedIn p s := by
  unfold unitLost
  split
  · exact carriedIn_modLane ..
  · dsimp only
    split
    · rw [carriedIn_presentNone, carriedIn_modLink, carriedIn_modLane]
    · exact carriedIn_modLane ..

/-! ### Units on a lane of no port -/

/-- A unit on a lane of no port counts a valid cell as discarded, and that is all. -/
theorem linkUnitReceive_no_port {lane : PortId} (hport : portOf s p lane.val = none) (u : BitVec 2400) (ce ue : Fin 256) (sub : Fin 64) :
    Completes (.linkUnitReceive p lane u ce ue sub) s (fun t => t.planes = s.planes ∧ t.out = s.out) := by
  simp only [Completes, exec, execLinkUnitReceive, hport]
  split_ifs <;> exact ⟨_, rfl, rfl, rfl⟩

/-! ### Units on an active lane -/

/-- The plane once the FEC counts of a unit without errors are taken, on a lane without uncorrectable codewords. -/
def fecQuiet (p : PlaneId) (lane : Nat) (s : State) : State :=
  modLane p lane (fun x => { x with ues := [] }) ((s.incSat (uFPT p lane) Fld.FPT_FEC_CE_CNT 0).incSat (uFPT p lane) Fld.FPT_FEC_UE_CNT 0)

theorem fecIn_quiet {lane : Nat} (h : (laneOf s p lane).ues = []) : fecIn p lane 0 0 s = fecQuiet p lane s := by
  have hlane : ∀ f g : RField, laneOf ((s.incSat (uFPT p lane) f 0).incSat (uFPT p lane) g 0) p lane = laneOf s p lane := fun _ _ => rfl
  simp only [fecIn, hlane, h]
  rfl

/-- The counts stand beyond the registers of a port's state. -/
theorem fecQuiet_get (lane : Nat) (u : Nat) {f : RField} (h : f.key % 4096 < 0x054) : (fecQuiet p lane s).get u f = s.get u f := by
  have hce : beside Fld.FPT_FEC_CE_CNT f = true := by
    have hkey : Fld.FPT_FEC_CE_CNT.key % 4096 ≠ f.key % 4096 := by rw [show Fld.FPT_FEC_CE_CNT.key % 4096 = 0x060 from rfl]; omega
    simp [beside, hkey]
  have hue : beside Fld.FPT_FEC_UE_CNT f = true := by
    have hkey : Fld.FPT_FEC_UE_CNT.key % 4096 ≠ f.key % 4096 := by rw [show Fld.FPT_FEC_UE_CNT.key % 4096 = 0x064 from rfl]; omega
    simp [beside, hkey]
  rw [fecQuiet, modLane_get, State.incSat, State.get_put_beside hue, State.incSat, State.get_put_beside hce]

theorem fecQuiet_link (lane i : Nat) : linkOf (fecQuiet p lane s) p i = linkOf s p i := by rw [fecQuiet, linkOf_modLane]; rfl

theorem carriedIn_fecQuiet (lane : Nat) : carriedIn p (fecQuiet p lane s) = carriedIn p s := carriedIn_modLane ..

/-- The receiver of a unit without FEC errors on an active lane of a port that is UP. -/
theorem exec_linkUnitReceive_active {lane n : PortId} {u : BitVec 2400} {sub : Fin 64} (hpower : s.powered (uFPT p lane.val) = true)
    (hport : portOf s p lane.val = some n.val) (hst : portState s p n.val = 3) (hact : (actLanes s p n.val).contains lane.val = true)
    (hbad : (linkOf s p n.val).bad = []) (hues : (laneOf s p lane.val).ues = []) : exec (.linkUnitReceive p lane u 0 0 sub) s =
      .next (if (u.extractLsb' 2384 16).toNat = crc16 (bytesOf 26 (u.extractLsb' 2176 208).toNat) then
        unitIn p n.val lane.val (64 * s.ft p + sub.val) (lcwOf (u.extractLsb' 2176 208).toNat) (u.extractLsb' 0 2176) (fecQuiet p lane.val s)
      else unitLost p n.val lane.val (fecQuiet p lane.val s)) := by
  have hlanes : actLanes (fecQuiet p lane.val s) p n.val = actLanes s p n.val :=
    actLanes_congr (fecQuiet_get _ _ (by decide)) (fecQuiet_get _ _ (by decide)) (by rw [fecQuiet_link])
  have hft : (fecQuiet p lane.val s).ft p = s.ft p := by simp [fecQuiet, modLane, modFab, State.ft]
  rw [apply_ite Host.Outcome.next]
  simp [exec, execLinkUnitReceive, hpower, hport, hst, fecIn_quiet hues, fecQuiet_link, hbad, hlanes, List.contains_iff_mem.mp hact, hft]

theorem linkUnitReceive_bad_lcrc {lane n : PortId} {u : BitVec 2400} {sub : Fin 64} (hpower : s.powered (uFPT p lane.val) = true)
    (hport : portOf s p lane.val = some n.val) (hst : portState s p n.val = 3) (hact : (actLanes s p n.val).contains lane.val = true)
    (hbad : (linkOf s p n.val).bad = []) (hues : (laneOf s p lane.val).ues = [])
    (hcrc : (u.extractLsb' 2384 16).toNat ≠ crc16 (bytesOf 26 (u.extractLsb' 2176 208).toNat)) :
    Completes (.linkUnitReceive p lane u 0 0 sub) s (fun t => (t.pl p).mem = (s.pl p).mem ∧ (t.fab p).arrived = (s.fab p).arrived ∧
      (t.fab p).frames = (s.fab p).frames) := by
  refine ⟨_, exec_linkUnitReceive_active hpower hport hst hact hbad hues, ?_⟩
  rw [if_neg hcrc]
  have hkept := (carriedIn_unitLost n.val lane.val (fecQuiet p lane.val s)).trans (carriedIn_fecQuiet lane.val)
  simpa only [carriedIn, Prod.mk.injEq] using hkept

/-! ### A scheduled cell in sequence (R288, R290) -/

/-- A port without a message under way takes the CTL bytes of a unit between messages as none. -/
theorem ctlIn_between {n lane slot : Nat} (hslot : slot % 4 ≠ 0) (hparts : (laneOf s p lane).parts = []) (now : Nat) (b : List Byte) :
    ctlIn p n lane slot now b s = modLane p lane (fun l => { l with parts := [] }) s := by
  simp only [ctlIn, hslot, hparts, true_or, if_true, if_false]

/-- What places a scheduled cell: the port's FPT_CFG and state, the time, the cells that wait for their slots, and injected faults. -/
structure SamePlacing (p : PlaneId) (n : Nat) (s t : State) : Prop where
  pen : portPen t p n = portPen s p n
  state : portState t p n = portState s p n
  slat : slatOf t p n = slatOf s p n
  ft : t.ft p = s.ft p
  schedIn : (t.pl p).schedIn = (s.pl p).schedIn
  rep : t.rep = s.rep

theorem SamePlacing.trans {n : Nat} {t r : State} (h : SamePlacing p n s t) (h' : SamePlacing p n t r) : SamePlacing p n s r :=
  ⟨h'.pen.trans h.pen, h'.state.trans h.state, h'.slat.trans h.slat, h'.ft.trans h.ft, h'.schedIn.trans h.schedIn, h'.rep.trans h.rep⟩

theorem samePlacing_modFab (n : Nat) (f : Fabric → Fabric) (s : State) : SamePlacing p n s (modFab p f s) := by
  have hpl : (modFab p f s).pl p = { s.pl p with fab := f (s.pl p).fab } := State.modPl_pl_same ..
  refine ⟨?_, ?_, ?_, by rw [State.ft, hpl, State.ft], by rw [hpl], rfl⟩
  · rw [portPen, State.on, modFab_get, portPen, State.on]
  · rw [portState, modFab_get, portState]
  · rw [slatOf, modFab_get, slatOf]

theorem samePlacing_modLane (n i : Nat) (f : LaneLink → LaneLink) (s : State) : SamePlacing p n s (modLane p i f s) := samePlacing_modFab n _ s
theorem samePlacing_modLink (n : Nat) (f : PortLink → PortLink) (s : State) : SamePlacing p n s (modLink p n f s) := samePlacing_modFab n _ s

theorem samePlacing_fecQuiet (n lane : Nat) (s : State) : SamePlacing p n s (fecQuiet p lane s) := by
  have hpl : ((s.incSat (uFPT p lane) Fld.FPT_FEC_CE_CNT 0).incSat (uFPT p lane) Fld.FPT_FEC_UE_CNT 0).pl p = s.pl p := rfl
  obtain ⟨-, -, -, hft, hsched, hrep⟩ := samePlacing_modLane (p := p) n lane (fun x => { x with ues := [] })
    ((s.incSat (uFPT p lane) Fld.FPT_FEC_CE_CNT 0).incSat (uFPT p lane) Fld.FPT_FEC_UE_CNT 0)
  refine ⟨?_, fecQuiet_get _ _ (by decide), fecQuiet_get _ _ (by decide), hft, hsched, hrep⟩
  rw [portPen, State.on, fecQuiet_get _ _ (by decide), portPen, State.on]

section
variable {n : Nat} {t : State} (h : SamePlacing p n s t)
include h

theorem SamePlacing.fullSlot (slot : Nat) : fullSlot t p n slot = fullSlot s p n slot := by
  simp only [Machine.fullSlot, h.ft, h.slat]

theorem SamePlacing.presented (lane slot : Nat) : presented t p lane slot = presented s p lane slot := by
  simp only [Machine.presented, h.schedIn]

theorem SamePlacing.portUp : portUp t p n = portUp s p n := by simp only [Machine.portUp, h.pen, h.state]

theorem SamePlacing.rp (u : Nat) : t.rp u = s.rp u := by rw [State.rp, h.rep, State.rp]

end

/-- A cell is placed in a slot that is yet to begin and that nothing stands in. -/
theorem presentCell_placed {lane slot : Nat} (hahead : s.ft p < slot * 20) (hempty : presented s p lane slot = none) (c : Cell) :
    ((presentCell p lane slot c s).pl p).schedIn = (s.pl p).schedIn ++ [⟨lane, slot, some c⟩] := by
  simp [presentCell, Nat.not_le.mpr hahead, hempty, State.event]

theorem seqDist_self (a : Nat) : seqDist a a = 0 := by unfold seqDist; omega

/-- A new scheduled cell without a fault, next in sequence, is placed SLAT slots after the slot it was sent in. -/
theorem cellIn_placed {n lane slot : Nat} {w : Lcw} {b : BitVec 2176} (hnext : (linkOf s p n).rxSeq = w.seq) (hpend : w.pend = false)
    (hreplay : w.replay = false) (hsched : w.sched = true) (hcrc : ccrcOf b = w.ccrc) (hinj : (s.rp (uFPT p lane)).corrupt = none)
    (hcons : (readCell b true).consistent = true) (hahead : s.ft p < (slot + slatOf s p n) * 20)
    (hempty : presented s p lane (slot + slatOf s p n) = none) :
    ((cellIn p n lane slot w b s).pl p).schedIn = (s.pl p).schedIn ++ [⟨lane, slot + slatOf s p n, some (readCell b true)⟩] := by
  have hgap := samePlacing_modLink (p := p) n (noteGap w.seq) s
  have hstrike : strike (uFPT p lane) 1 (modLink p n (noteGap w.seq) s) = (false, modLink p n (noteGap w.seq) s) :=
    if_neg (by rw [hgap.rp, hinj]; simp)
  have hsame := hgap.trans (samePlacing_modLane n lane (fun l => { l with fails := mdel l.fails w.seq }) _)
  have hcell : cellIn p n lane slot w b s = presentCell p lane (slot + slatOf s p n) (readCell b true)
      (modLane p lane (fun l => { l with fails := mdel l.fails w.seq }) (modLink p n (noteGap w.seq) s)) := by
    simp [cellIn, hnext, seqDist_self, hpend, hreplay, hsched, hcrc, hstrike, hcons, hsame.slat]
  rw [hcell, presentCell_placed (by rw [hsame.ft]; exact hahead) (by rw [hsame.presented, hempty]), hsame.schedIn]

theorem linkUnitReceive_scheduled {n : PortId} {u : BitVec 2400} {sub : Fin 64} {w : Lcw} (hpower : s.powered (uFPT p n.val) = true)
    (hport : portOf s p n.val = some n.val) (hst : portState s p n.val = 3) (hact : (actLanes s p n.val).contains n.val = true)
    (hbad : (linkOf s p n.val).bad = []) (hues : (laneOf s p n.val).ues = []) (hparts : (laneOf s p n.val).parts = [])
    (hlcrc : (u.extractLsb' 2384 16).toNat = crc16 (bytesOf 26 (u.extractLsb' 2176 208).toNat)) (hw : lcwOf (u.extractLsb' 2176 208).toNat = w)
    (hvalid : w.cvalid = true) (hack : w.ack = none) (hnak : w.nak = none) (hccum : w.ccum = none) (hnext : (linkOf s p n.val).rxSeq = w.seq)
    (hpend : w.pend = false) (hreplay : w.replay = false) (hsched : w.sched = true) (hcrc : ccrcOf (u.extractLsb' 0 2176) = w.ccrc)
    (hinj : (s.rp (uFPT p n.val)).corrupt = none) (hcons : (readCell (u.extractLsb' 0 2176) true).consistent = true)
    (hslot : fullSlot s p n.val w.slot % 4 ≠ 0) (hahead : s.ft p < (fullSlot s p n.val w.slot + slatOf s p n.val) * 20)
    (hempty : presented s p n.val (fullSlot s p n.val w.slot + slatOf s p n.val) = none) :
    Completes (.linkUnitReceive p n u 0 0 sub) s (fun t => (t.pl p).schedIn = (s.pl p).schedIn ++
      [⟨n.val, fullSlot s p n.val w.slot + slatOf s p n.val, some (readCell (u.extractLsb' 0 2176) true)⟩]) := by
  refine ⟨_, exec_linkUnitReceive_active hpower hport hst hact hbad hues, ?_⟩
  rw [if_pos hlcrc, hw]
  have hfec := samePlacing_fecQuiet (p := p) n.val n.val s
  -- The state in which the cell comes: the lane knows the unit's slot, and its CTL bytes are none of a message.
  generalize ht : modLane p n.val (fun l => { l with parts := [] })
    (modLane p n.val (fun l => { l with last := some (fullSlot s p n.val w.slot) }) (fecQuiet p n.val s)) = t
  have hsame : SamePlacing p n.val s t := ht ▸ (hfec.trans (samePlacing_modLane n.val n.val _ _)).trans (samePlacing_modLane n.val n.val _ _)
  have hrx : (linkOf t p n.val).rxSeq = w.seq := by rw [← ht, linkOf_modLane, linkOf_modLane, fecQuiet_link, hnext]
  have hup : portUp t p n.val = true := by rw [hsame.portUp, portUp, portPen_of_portOf hport, hst]; rfl
  have hctl : ∀ now b, ctlIn p n.val n.val (fullSlot s p n.val w.slot) now b
      (modLane p n.val (fun l => { l with last := some (fullSlot s p n.val w.slot) }) (fecQuiet p n.val s)) = t := fun now b => by
    rw [← ht, ctlIn_between hslot]
    rw [laneOf_modLane, fecQuiet, laneOf_modLane]
    exact hparts
  have hunit : ∀ now, unitIn p n.val n.val now w (u.extractLsb' 0 2176) (fecQuiet p n.val s) =
      cellIn p n.val n.val (fullSlot s p n.val w.slot) w (u.extractLsb' 0 2176) t := fun now => by
    simp only [unitIn, hfec.fullSlot, hctl, hup, hack, hnak, hccum, hvalid, if_true]
  have hplaced := cellIn_placed (lane := n.val) (slot := fullSlot s p n.val w.slot) hrx hpend hreplay hsched hcrc (by rw [hsame.rp, hinj]) hcons
    (by rw [hsame.ft, hsame.slat]; exact hahead) (by rw [hsame.presented, hsame.slat, hempty])
  rw [hsame.schedIn, hsame.slat] at hplaced
  rw [hunit]
  exact hplaced

/-! ### Units sent (R280) -/

/-- The cell position of a link unit. -/
theorem linkUnit_cell (cell : BitVec 2176) (w : Lcw) : (linkUnit cell w).extractLsb' 0 2176 = cell := by
  apply BitVec.eq_of_getLsbD_eq
  intro i hi
  have hwide : i < 2400 := by omega
  simp [linkUnit, hi, hwide]

/-- The link control word of a link unit whose cell position is empty. -/
theorem linkUnit_word (w : Lcw) : ((linkUnit 0 w).extractLsb' 2176 208).toNat = w.word % 2 ^ 208 := by
  have hbits : (linkUnit 0 w).extractLsb' 2176 208 = BitVec.ofNat 208 w.word := by
    apply BitVec.eq_of_getLsbD_eq
    intro i hi
    have hwide : 2176 + i < 2400 := by omega
    have hlow : (w.word + 2 ^ 208 * crc16 (bytesOf 26 w.word)).testBit i = w.word.testBit i := by
      have hmod : (w.word + 2 ^ 208 * crc16 (bytesOf 26 w.word)) % 2 ^ 208 = w.word % 2 ^ 208 := Nat.add_mul_mod_self_left _ _ _
      have hbit := congrArg (Nat.testBit · i) hmod
      simpa only [Nat.testBit_mod_two_pow, hi, decide_true, Bool.true_and] using hbit
    simp only [linkUnit, BitVec.getLsbD_extractLsb', BitVec.getLsbD_or, BitVec.getLsbD_shiftLeft, BitVec.getLsbD_ofNat, BitVec.getLsbD_setWidth,
      hi, hwide, Nat.add_sub_cancel_left, hlow]
    simp [show i < 2400 by omega]
  rw [hbits, BitVec.toNat_ofNat]

/-- A control word without a cell says so. -/
theorem cvalid_of_no_cell (slot : Nat) (ctl : List Byte) : (lcwOf (({ slot := slot, ctl := ctl } : Lcw).word % 2 ^ 208)).cvalid = false := by
  have hbit : ({ slot := slot, ctl := ctl } : Lcw).word % 2 ^ 208 / 2 ^ 44 % 2 = 0 := by
    simp only [Lcw.word, b2n, Option.isSome_none, Option.getD_none, Bool.false_eq_true, if_false]
    omega
  simp only [lcwOf, bit, hbit]
  decide

/-- A unit of a port that carries no traffic: no cell, and nothing but the slot and the CTL bytes in its control word. -/
def idleUnit (s : State) (p : PlaneId) (lane slot : Nat) : BitVec 2400 :=
  linkUnit 0 { slot := slot, ctl := sliceB (laneOf s p lane).cur (12 * (slot % 4)) 12 }

theorem idleUnit_empty (s : State) (lane slot : Nat) : (idleUnit s p lane slot).extractLsb' 0 2176 = 0 ∧
    (lcwOf ((idleUnit s p lane slot).extractLsb' 2176 208).toNat).cvalid = false :=
  ⟨linkUnit_cell _ _, by rw [idleUnit, linkUnit_word, cvalid_of_no_cell]⟩

/-- What a message position of a lane leaves: what was sent, the ports' links, and the time. -/
theorem startCtl_keeps (n lane t : Nat) (s : State) : (startCtl p n lane t s).out = s.out ∧
    (∀ i, linkOf (startCtl p n lane t s) p i = linkOf s p i) := by
  have hecho : ∀ (m : PortId) (r : State), (echoLeft p m t r).out = r.out ∧ ∀ i, linkOf (echoLeft p m t r) p i = linkOf r p i := fun m r =>
    ⟨rfl, fun i => by rw [linkOf, State.fab, echoLeft, modFtm_pl, linkOf, State.fab]⟩
  unfold startCtl
  split
  · exact ⟨rfl, fun i => linkOf_modLane ..⟩
  · dsimp only
    split
    · exact ⟨(hecho _ _).1, fun i => ((hecho _ _).2 i).trans (linkOf_modLane ..)⟩
    · exact ⟨rfl, fun i => linkOf_modLane ..⟩

/-- A lane of a port that carries no traffic sends one unit without a cell. -/
theorem sendUnit_idle {n : PortId} (hup : portUp s p n.val = false) (t : Nat) : ∃ r, sendUnit p n.val n.val t s =
    r.emit (.linkUnit p n (idleUnit r p n.val (s.ft p / 20))) ∧ r.out = s.out ∧ ∀ i, linkOf r p i = linkOf s p i := by
  have hlane : (⟨n.val % 128, Nat.mod_lt _ (by decide)⟩ : PortId) = n := Fin.ext (Nat.mod_eq_of_lt n.isLt)
  refine ⟨if s.ft p / 20 % 4 = 0 then startCtl p n.val n.val t s else s, ?_, ?_⟩
  · simp only [sendUnit, hup, Bool.false_eq_true, if_false, hlane]
    rfl
  · split
    · exact startCtl_keeps n.val n.val t s
    · exact ⟨rfl, fun _ => rfl⟩

/-- A port as its units of a slot leave: the slot and the offset are noted. -/
def slotNoted (p : PlaneId) (n sub : Nat) (s : State) : State :=
  modLink p n (fun l => { l with sentSlot := some (s.ft p / 20), offset := some (64 * (s.ft p % 20) + sub) }) s

/-- Scheduled cells that the port's lanes had to send up to a slot are gone after it. -/
def slotSwept (p : PlaneId) (n slot : Nat) (s : State) : State :=
  s.modPl p (fun x => { x with schedOut := x.schedOut.filter (fun e => !((portLanes s p n).contains e.lane && decide (e.slot ≤ slot))) })

theorem linkOf_slotSwept (n slot i : Nat) (s : State) : linkOf (slotSwept p n slot s) p i = linkOf s p i := by
  rw [linkOf, State.fab, slotSwept, State.modPl_pl_same, linkOf, State.fab]

/-- A port in DISCOVER with one lane in use sends that lane's unit, once its slot and its offset have come. -/
theorem exec_linkSlotSend_discover {n : PortId} {sub : Fin 64} (hpen : portPen s p n.val = true) (hst : portState s p n.val = 2)
    (hlanes : actLanes s p n.val = [n.val]) (hfirst : (linkOf s p n.val).sentSlot ≠ some (s.ft p / 20))
    (hoffset : (linkOf s p n.val).offset.all (fun x => decide (x = 64 * (s.ft p % 20) + sub.val)) = true) (hidle : slotBank s p = none)
    (hpower : s.powered (uFPT p n.val) = true) : exec (.linkSlotSend p n sub) s = .next (slotSwept p n.val (s.ft p / 20)
      (sendUnit p n.val n.val (64 * s.ft p + sub.val) (slotNoted p n.val sub.val s))) := by
  have haway : (linkOf s p n.val).offset.any (fun x => !decide (x = 64 * (s.ft p % 20) + sub.val)) = false := by
    cases hx : (linkOf s p n.val).offset with
    | none => rfl
    | some x => simpa [hx] using hoffset
  have hbad : (linkOf (slotNoted p n.val sub.val s) p n.val).bad = (linkOf s p n.val).bad := by
    unfold slotNoted
    rw [linkOf_modLink]
  have hnoted : actLanes (slotNoted p n.val sub.val s) p n.val = [n.val] :=
    (actLanes_congr (modLink_get ..) (modLink_get ..) hbad).trans hlanes
  have hft : (slotNoted p n.val sub.val s).ft p = s.ft p := (samePlacing_modLink n.val _ s).ft
  have hsends : (actLanes (slotNoted p n.val sub.val s) p n.val).foldl (fun t i => sendUnit p n.val i (64 * t.ft p + sub.val) t)
      (slotNoted p n.val sub.val s) = sendUnit p n.val n.val (64 * s.ft p + sub.val) (slotNoted p n.val sub.val s) := by
    rw [hnoted, List.foldl_cons, List.foldl_nil, hft]
  rw [← hsends]
  simp [exec, execLinkSlotSend, hst, hidle, hpen, hpower, hfirst, haway, slotSwept, slotNoted]

theorem linkSlotSend_discover {n : PortId} {sub : Fin 64} (hpen : portPen s p n.val = true) (hst : portState s p n.val = 2)
    (hlanes : actLanes s p n.val = [n.val]) (hfirst : (linkOf s p n.val).sentSlot ≠ some (s.ft p / 20))
    (hoffset : (linkOf s p n.val).offset.all (fun x => decide (x = 64 * (s.ft p % 20) + sub.val)) = true) (hidle : slotBank s p = none)
    (hpower : s.powered (uFPT p n.val) = true) : Completes (.linkSlotSend p n sub) s (fun t => (∃ u, t.out = s.out ++ [.linkUnit p n u] ∧
        u.extractLsb' 0 2176 = 0 ∧ (lcwOf (u.extractLsb' 2176 208).toNat).cvalid = false) ∧
      (linkOf t p n.val).sentSlot = some (s.ft p / 20)) := by
  have hup : portUp (slotNoted p n.val sub.val s) p n.val = false := by
    rw [slotNoted, (samePlacing_modLink n.val _ s).portUp, portUp, hst]
    simp
  obtain ⟨r, hsent, hout, hlink⟩ := sendUnit_idle hup (64 * s.ft p + sub.val)
  refine ⟨_, exec_linkSlotSend_discover hpen hst hlanes hfirst hoffset hidle hpower, ⟨idleUnit r p n.val ((slotNoted p n.val sub.val s).ft p / 20), ?_, idleUnit_empty _ _ _⟩, ?_⟩
  · rw [slotSwept, State.modPl_out, hsent, State.emit_out, hout]
    rfl
  · rw [linkOf_slotSwept, hsent, linkOf, State.fab, State.emit_pl, ← State.fab, ← linkOf, hlink, slotNoted, linkOf_modLink]

/-- A port sends once in a slot. -/
theorem linkSlotSend_again {n : PortId} (hsent : (linkOf s p n.val).sentSlot = some (s.ft p / 20)) (sub : Fin 64) :
    exec (.linkSlotSend p n sub) s = .next s := by
  simp [exec, execLinkSlotSend, hsent]

end

/-- Settles O43: a unit that arrives by the lane's port and its LCRC, a cell by its place in the sequence, and a port's own unit by the slot that
it was last sent in. -/
theorem linkUnits : Obligations.LinkUnits := by
  unfold Obligations.LinkUnits
  refine ⟨?noPort, ?badLcrc, ?scheduled, ?discover, ?again⟩
  case noPort => exact fun _ _ u ce ue sub _ hport => linkUnitReceive_no_port hport u ce ue sub
  case badLcrc => exact fun _ _ _ _ _ _ => linkUnitReceive_bad_lcrc
  case scheduled => exact fun _ _ _ _ _ _ => linkUnitReceive_scheduled
  case discover => exact fun _ _ _ _ => linkSlotSend_discover
  case again => exact fun _ _ sub s hsent => ⟨s, linkSlotSend_again hsent sub, rfl⟩

end Sys2Proof.Machine
end

section
/-! SUPPORT. The switch core as data (R338 to R348): its queues, reorder buffers and frames as they are looked up, and what the operations that
its frames share leave of the plane. -/

namespace Sys2Proof.Machine

/-! ### What stands beside the switch core -/

/-- The module without what the frames of a plane's switch core pass through: its adaptive side, its events and its samples. -/
def besideFab (p : PlaneId) (s : State) : State := s.modPl p (fun x => { x with fab := {}, events := [], samples := [] })

/-! Passing frames leave every register, what the module has sent, and the frames that wait at the units. -/

section
variable {p : PlaneId} {s t : State} (h : besideFab p t = besideFab p s)
include h

theorem reg_of_besideFab : t.reg = s.reg := funext₂ fun u off => by
  rw [← State.modPl_reg t p, ← State.modPl_reg s p]
  exact congrArg (·.reg u off) h

theorem get_of_besideFab : t.get = s.get := funext₂ fun u f => by rw [State.get, State.get, reg_of_besideFab h]

theorem out_of_besideFab : t.out = s.out := by
  have hout : (besideFab p t).out = (besideFab p s).out := by rw [h]
  exact hout

theorem unitFrames_of_besideFab : (t.pl p).unitFrames = (s.pl p).unitFrames := by
  have hwait := congrArg (fun r => (r.pl p).unitFrames) h
  simpa only [besideFab, State.modPl_pl_same] using hwait

end

section
variable (p : PlaneId) (s : State)

theorem besideFab_modPl {g : Plane → Plane}
    (hg : ∀ x, ({ g x with fab := {}, events := [], samples := [] } : Plane) = { x with fab := {}, events := [], samples := [] }) :
    besideFab p (s.modPl p g) = besideFab p s := by
  have hx := hg (s.planes.get p)
  have hset : ∀ (q : Quad Plane) (a b : Plane), (q.set p a).set p b = q.set p b := fun q a b => by fin_cases p <;> rfl
  simp only [besideFab, State.modPl, Quad.get_set_same, hset, hx]

@[simp] theorem besideFab_modFab (f : Fabric → Fabric) : besideFab p (modFab p f s) = besideFab p s := besideFab_modPl p s fun _ => rfl
@[simp] theorem besideFab_modLink (n : Nat) (f : PortLink → PortLink) : besideFab p (modLink p n f s) = besideFab p s := besideFab_modFab p s _
@[simp] theorem besideFab_modFrame (id : Nat) (f : Held → Held) : besideFab p (modFrame p id f s) = besideFab p s := besideFab_modFab p s _
@[simp] theorem besideFab_setQueue (k : Nat) (l : List QCopy) : besideFab p (setQueue p k l s) = besideFab p s := besideFab_modFab p s _
@[simp] theorem besideFab_setRob (n : Nat) (l : List RobStream) : besideFab p (setRob p n l s) = besideFab p s := besideFab_modFab p s _
@[simp] theorem besideFab_modStream (n : Nat) (h : Held) (f : RobStream → RobStream) : besideFab p (modStream p n h f s) = besideFab p s :=
  besideFab_setRob p s _ _
@[simp] theorem besideFab_sample (point sel v : Nat) : besideFab p (s.sample p point sel v) = besideFab p s := besideFab_modPl p s fun _ => rfl

@[simp] theorem besideFab_event (code inst n : Nat) : besideFab p (s.event p code inst n) = besideFab p s := by
  unfold State.event
  split
  · rfl
  · exact besideFab_modPl p s fun _ => rfl

@[simp] theorem besideFab_returnOpt (c : Option (Nat × Nat)) : besideFab p (returnOpt p c s) = besideFab p s := by
  cases c with
  | none => rfl
  | some e => exact besideFab_modLink p s _ _

@[simp] theorem besideFab_freeBuf (e : Nat × BufCell) : besideFab p (freeBuf p s e) = besideFab p s := by simp [freeBuf]

/-- All that tidying a frame does: cells of it are freed, and it may leave. -/
theorem tidyFrame_cases (id : Nat) : tidyFrame p id s = s ∨ ∃ l : List (Nat × BufCell), tidyFrame p id s = l.foldl (freeBuf p) s ∨
    tidyFrame p id s = modFab p (fun f => { f with frames := f.frames.filter (·.id ≠ id) }) (l.foldl (freeBuf p) s) := by
  unfold tidyFrame
  split
  · exact .inl rfl
  · simp only
    split
    · exact .inr ⟨_, .inr rfl⟩
    · exact .inr ⟨_, .inl rfl⟩

@[simp] theorem besideFab_tidyFrame (id : Nat) : besideFab p (tidyFrame p id s) = besideFab p s := by
  have hfold : ∀ l : List (Nat × BufCell), besideFab p (l.foldl (freeBuf p) s) = besideFab p s :=
    fun l => foldl_keeps (besideFab p) (besideFab_freeBuf p) l s
  rcases tidyFrame_cases p s id with h | ⟨l, h | h⟩ <;> simp [h, hfold]

@[simp] theorem besideFab_linkCopy (id dest k : Nat) : besideFab p (linkCopy p id dest k s) = besideFab p s := by
  unfold linkCopy
  split
  · rfl
  · exact besideFab_setQueue p s _ _

@[simp] theorem besideFab_robRelease (n : Nat) (h : Held) : besideFab p (robRelease p n h s) = besideFab p s := by
  unfold robRelease
  rw [besideFab_tidyFrame, besideFab_linkCopy, besideFab_modStream]
  split <;> simp

/-! ### The adaptive side beside the buffer -/

@[simp] theorem event_fab (code inst n : Nat) : (s.event p code inst n).fab p = s.fab p := by
  unfold State.event
  split
  · rfl
  · simp [State.fab]

@[simp] theorem sample_fab (point sel v : Nat) : (s.sample p point sel v).fab p = s.fab p := by simp [State.fab, State.sample]
@[simp] theorem incSat_fab (u : Nat) (f : RField) (n : Nat) : (s.incSat u f n).fab p = s.fab p := rfl
@[simp] theorem emit_fab (o : Output) : (s.emit o).fab p = s.fab p := rfl
@[simp] theorem report_fab (u src : Nat) (cls : FaultClass) (wh detail : Nat) : (report u src cls wh detail s).fab p = s.fab p := by
  rw [State.fab, State.pl, report_planes, ← State.pl, ← State.fab]

/-- The adaptive side without the buffer's cells, the links' credits and the frames. -/
def flowsOf (p : PlaneId) (s : State) : Fabric := { s.fab p with bufs := [], links := [], frames := [] }

theorem returnOpt_fab (c : Option (Nat × Nat)) :
    flowsOf p (returnOpt p c s) = flowsOf p s ∧ ((returnOpt p c s).fab p).bufs = (s.fab p).bufs ∧
      ((returnOpt p c s).fab p).frames = (s.fab p).frames := by
  cases c <;> simp [returnOpt, returnCredit, modLink, flowsOf]

/-- A freed cell leaves the buffer, and no frame with it. -/
theorem freeBuf_fab (e : Nat × BufCell) :
    flowsOf p (freeBuf p s e) = flowsOf p s ∧ ((freeBuf p s e).fab p).bufs = mdel (s.fab p).bufs e.1 ∧
      ((freeBuf p s e).fab p).frames = (s.fab p).frames := by
  obtain ⟨hflows, hbufs, hframes⟩ := returnOpt_fab p (modFab p (fun f => { f with bufs := mdel f.bufs e.1 }) s) e.2.credit
  exact ⟨hflows.trans (by simp [flowsOf]), hbufs.trans (by simp), hframes.trans (by simp)⟩

/-- Cells freed one after another. -/
theorem foldl_freeBuf_fab (l : List (Nat × BufCell)) :
    flowsOf p (l.foldl (freeBuf p) s) = flowsOf p s ∧ ((l.foldl (freeBuf p) s).fab p).frames = (s.fab p).frames ∧
      ((l.foldl (freeBuf p) s).fab p).bufs = (s.fab p).bufs.filter (fun b => l.all (fun e => decide (b.1 ≠ e.1))) := by
  induction l generalizing s with
  | nil => simp
  | cons e r ih =>
    obtain ⟨hflows, hframes, hbufs⟩ := ih (freeBuf p s e)
    obtain ⟨hflows₁, hbufs₁, hframes₁⟩ := freeBuf_fab p s e
    refine ⟨hflows.trans hflows₁, hframes.trans hframes₁, hbufs.trans ?_⟩
    rw [hbufs₁, mdel, List.filter_filter]
    simp only [List.all_cons, Bool.and_comm]

theorem flowsOf_tidyFrame (id : Nat) : flowsOf p (tidyFrame p id s) = flowsOf p s := by
  rcases tidyFrame_cases p s id with h | ⟨l, h | h⟩
  · rw [h]
  · rw [h, (foldl_freeBuf_fab p s l).1]
  · rw [h, ← (foldl_freeBuf_fab p s l).1]
    simp [flowsOf]

/-- What a frame that is tidied leaves: every queue, every reorder buffer and every candidate. -/
theorem tidyFrame_flows (id : Nat) :
    ((tidyFrame p id s).fab p).queues = (s.fab p).queues ∧ ((tidyFrame p id s).fab p).robs = (s.fab p).robs ∧
      ((tidyFrame p id s).fab p).cands = (s.fab p).cands ∧ ((tidyFrame p id s).fab p).arrived = (s.fab p).arrived := by
  have h : ∀ {α : Type} (g : Fabric → α), g (flowsOf p (tidyFrame p id s)) = g (flowsOf p s) := fun g => congrArg g (flowsOf_tidyFrame p s id)
  exact ⟨h (·.queues), h (·.robs), h (·.cands), h (·.arrived)⟩

/-! ### Queues and reorder buffers -/

theorem queueOf_setQueue (k j : Nat) (l : List QCopy) : queueOf (setQueue p k l s) p j = if k = j then l else queueOf s p j := by
  simp only [queueOf, setQueue, modFab_fab, mgetD]
  by_cases hl : l = []
  · simp only [hl, if_true, mget_mdel]
    split <;> rfl
  · simp only [hl, if_false, mget_mput]
    split <;> rfl

theorem robOf_setRob (n : Nat) (l : List RobStream) : robOf (setRob p n l s) p n = l := by
  simp only [robOf, setRob, modFab_fab, mgetD]
  by_cases hl : l = []
  · simp [hl, mget_mdel]
  · simp [hl, mget_mput]

theorem robOf_modStream (n : Nat) (h : Held) (f : RobStream → RobStream) :
    robOf (modStream p n h f s) p n = (robOf s p n).map (fun r => if r.mine h then f r else r) := robOf_setRob p s n _

theorem queueOf_modStream (n k : Nat) (h : Held) (f : RobStream → RobStream) : queueOf (modStream p n h f s) p k = queueOf s p k := by
  simp [queueOf, modStream, setRob]

theorem frameOf_modStream (n id : Nat) (h : Held) (f : RobStream → RobStream) : frameOf (modStream p n h f s) p id = frameOf s p id := by
  simp [frameOf, modStream, setRob]

theorem robOf_tidyFrame (n id : Nat) : robOf (tidyFrame p id s) p n = robOf s p n := by rw [robOf, (tidyFrame_flows p s id).2.1, ← robOf]
theorem queueOf_tidyFrame (k id : Nat) : queueOf (tidyFrame p id s) p k = queueOf s p k := by rw [queueOf, (tidyFrame_flows p s id).1, ← queueOf]

theorem robOf_linkCopy (n id dest k : Nat) : robOf (linkCopy p id dest k s) p n = robOf s p n := by
  unfold linkCopy
  split
  · rfl
  · simp [robOf, setQueue]

/-- A linked copy stands at the tail of its queue. -/
theorem queueOf_linkCopy {id : Nat} {h : Held} (hframe : frameOf s p id = some h) (dest k : Nat) :
    ∃ c : QCopy, c.frame = id ∧ queueOf (linkCopy p id dest k s) p k = queueOf s p k ++ [c] := by
  simp only [linkCopy, hframe, queueOf_setQueue, if_true]
  exact ⟨_, rfl, rfl⟩

end

end Sys2Proof.Machine
end

section
/-! SUPPORT. Copies past their deadline (R360), the auditor (R361) and the reorder buffers' times (R326 to R328). -/

namespace Sys2Proof.Machine

/-! ### Ageing and audit -/

section
variable {p : PlaneId} {s : State}

/-- Copies past their deadline leave their queue; what is tidied and counted after them touches no queue (R360). -/
theorem copyAgeExpire_queues (k : Fin 1024) : Completes (.copyAgeExpire p k) s (fun t =>
    queueOf t p k.val = (queueOf s p k.val).filter (fun c => decide (s.ft p ≤ c.deadline)) ∧
      ∀ j, j ≠ k.val → queueOf t p j = queueOf s p j) := by
  have hrun : exec (.copyAgeExpire p k) s = execCopyAgeExpire p k s := rfl
  unfold Completes
  rw [hrun, execCopyAgeExpire]
  simp only
  split
  case isTrue hnone =>
    refine ⟨s, rfl, (List.filter_eq_self.mpr fun c hc => ?_).symm, fun _ _ => rfl⟩
    have hc' := List.filter_eq_nil_iff.mp hnone c hc
    simpa using hc'
  case isFalse =>
    have hkeep : ∀ t (c : QCopy), (fun r : State => (r.fab p).queues)
        (((tidyFrame p c.frame t).incSat (pu p .SWC) Fld.SWC_DISC_B_AGED).event p 0x14 0xFF 1) =
        (fun r : State => (r.fab p).queues) t := fun t c => by
      simp only [event_fab, incSat_fab, (tidyFrame_flows p t c.frame).1]
    have hqueue := foldl_keeps (fun r : State => (r.fab p).queues) hkeep ((queueOf s p k.val).filter (fun c => decide (c.deadline < s.ft p)))
      (setQueue p k.val ((queueOf s p k.val).filter (fun c => decide (s.ft p ≤ c.deadline))) s)
    refine ⟨_, rfl, ?_, fun j hj => ?_⟩
    · rw [queueOf, hqueue, ← queueOf, queueOf_setQueue, if_pos rfl]
    · rw [queueOf, hqueue, ← queueOf, queueOf_setQueue, if_neg (Ne.symm hj)]

/-- The auditor visits the next cell (R361): a leaked one is freed and counted, and another stays. -/
theorem auditVisit_cell {b : BufCell} (hen : s.on (pu p .SWC) Fld.SWC_CFG_AUDIT_EN = true) (hbeat : (s.fab p).auditAt ≠ some (s.beats p))
    (hcells : bufCells s p ≠ 0) (hcell : mget (s.fab p).bufs ((s.fab p).audit % bufCells s p) = some b) :
    Completes (.auditVisit p) s (fun t => (t.fab p).audit = ((s.fab p).audit % bufCells s p + 1) % bufCells s p ∧
      (t.fab p).auditAt = some (s.beats p) ∧
      (b.deadline + s.get (pu p .SWC) Fld.SWC_AUDIT_GRACE * 65536 < s.ft p →
        (t.fab p).bufs = mdel (s.fab p).bufs ((s.fab p).audit % bufCells s p) ∧
        t.get (pu p .SWC) Fld.SWC_AUDIT_LEAK_CNT = min (s.get (pu p .SWC) Fld.SWC_AUDIT_LEAK_CNT + 1) 0xFFFF) ∧
      (s.ft p ≤ b.deadline + s.get (pu p .SWC) Fld.SWC_AUDIT_GRACE * 65536 → (t.fab p).bufs = (s.fab p).bufs)) := by
  have hgo : ¬ (¬ s.on (pu p .SWC) Fld.SWC_CFG_AUDIT_EN ∨ (s.fab p).auditAt = some (s.beats p) ∨ bufCells s p = 0) := by
    simp [hen, hbeat, hcells]
  have hrun : exec (.auditVisit p) s = execAuditVisit p s := rfl
  unfold Completes
  rw [hrun, execAuditVisit]
  simp only [hgo, if_false, hcell]
  split
  case isTrue hleaked =>
    set i := (s.fab p).audit % bufCells s p
    set v := modFab p (fun f => { f with audit := (i + 1) % bufCells s p, auditAt := some (s.beats p) }) s with hv
    obtain ⟨hflows, hbufs, -⟩ := freeBuf_fab p v (i, b)
    have hflow : ∀ {α : Type} (g : Fabric → α), g (flowsOf p (freeBuf p v (i, b))) = g (flowsOf p v) := fun g => congrArg g hflows
    have hfab : ∀ wh detail, (report (pu p .SWC) 2 .c wh detail ((freeBuf p v (i, b)).incSat (pu p .SWC) Fld.SWC_AUDIT_LEAK_CNT)).fab p =
        (freeBuf p v (i, b)).fab p := fun wh detail => by rw [report_fab, incSat_fab]
    refine ⟨_, rfl, ?_, ?_, fun _ => ⟨?_, ?_⟩, fun hsound => absurd hleaked (by omega)⟩
    · rw [hfab]
      exact (hflow (·.audit)).trans (by simp [flowsOf, hv])
    · rw [hfab]
      exact (hflow (·.auditAt)).trans (by simp [flowsOf, hv])
    · rw [hfab, hbufs, hv, modFab_fab]
    · have hget := get_of_besideFab ((besideFab_freeBuf p v (i, b)).trans (besideFab_modFab p s _))
      rw [report_get (by decide), incSat_get _ _ _ rfl, hget]
      rfl
  case isFalse hsound =>
    refine ⟨_, rfl, ?_, ?_, fun hleaked => absurd hleaked hsound, fun _ => ?_⟩ <;> rw [modFab_fab]

/-! ### Releases from a reorder buffer (R327, R346) -/

/-- A stream after the release of a frame of it in a beat. -/
def streamAfter (now : Nat) (h : Held) (r : RobStream) : RobStream :=
  let left := r.frames.filter (·.1 ≠ h.id)
  let r := { r with frames := left, idle := if left = [] then now else r.idle }
  if r.exp = some (tagChunk h.tag) then
    if h.cls = 3 then { r with exp := some ((tagChunk h.tag + 1) % 2 ^ 20), results := [] } else { r with results := tagAttempt h.tag :: r.results }
  else r

/-- A release takes the frame out of its stream, keeps the stream's name, and moves EXP on without closing it. -/
theorem streamAfter_fields (now : Nat) (h g : Held) (r : RobStream) :
    (streamAfter now h r).frames = r.frames.filter (·.1 ≠ h.id) ∧ (streamAfter now h r).mine g = r.mine g ∧
      (r.exp ≠ none → (streamAfter now h r).exp ≠ none) := by
  simp only [streamAfter]
  split
  · split <;> simp_all [RobStream.mine]
  · exact ⟨rfl, rfl, id⟩

/-- A release, behind the sample of the frame's time in its stream. -/
theorem robRelease_eq (n : Nat) (h : Held) (s : State) : ∃ v, v.fab p = s.fab p ∧ robRelease p n h s =
    tidyFrame p h.id (linkCopy p h.id h.dest (8 * n + h.tc) (modStream p n h (streamAfter (s.beats p) h) v)) :=
  ⟨_, by split <;> simp, rfl⟩

theorem robOf_robRelease (n : Nat) (h : Held) (s : State) :
    robOf (robRelease p n h s) p n = (robOf s p n).map (fun r => if r.mine h then streamAfter (s.beats p) h r else r) := by
  obtain ⟨v, hv, heq⟩ := robRelease_eq (p := p) n h s
  rw [heq, robOf_tidyFrame, robOf_linkCopy, robOf_modStream, robOf, hv, ← robOf]

/-- A released frame has its copy in queue TC of its port. -/
theorem queueOf_robRelease {h g : Held} (hframe : frameOf s p h.id = some g) (n : Nat) :
    ∃ c ∈ queueOf (robRelease p n h s) p (8 * n + h.tc), c.frame = h.id := by
  obtain ⟨v, hv, heq⟩ := robRelease_eq (p := p) n h s
  have hkept : frameOf (modStream p n h (streamAfter (s.beats p) h) v) p h.id = some g := by
    rw [frameOf_modStream, frameOf, hv, ← frameOf, hframe]
  obtain ⟨c, hc, hq⟩ := queueOf_linkCopy p _ hkept h.dest (8 * n + h.tc)
  refine ⟨c, ?_, hc⟩
  rw [heq, queueOf_tidyFrame, hq]
  exact List.mem_append_right _ (List.mem_singleton_self c)

/-- Releases leave every stream with an EXP that had one. -/
theorem robDrain_exp (n : Nat) (h : Held) (fuel : Nat) {s : State} (hexp : ∀ r ∈ robOf s p n, r.exp ≠ none) :
    ∀ r ∈ robOf (robDrain p n h fuel s) p n, r.exp ≠ none := by
  induction fuel generalizing s with
  | zero => exact hexp
  | succ fuel ih =>
    simp only [robDrain]
    split
    · exact hexp
    · split
      · exact hexp
      · refine ih fun r hr => ?_
        rw [robOf_robRelease] at hr
        obtain ⟨r₀, hr₀, rfl⟩ := List.mem_map.mp hr
        split
        · exact (streamAfter_fields _ _ h r₀).2.2 (hexp r₀ hr₀)
        · exact hexp r₀ hr₀

/-- Streams that hold no frame release none. -/
theorem robDrain_empty {n : Nat} (hempty : ∀ r ∈ robOf s p n, r.frames = []) (h : Held) (fuel : Nat) : robDrain p n h fuel s = s := by
  cases fuel with
  | zero => rfl
  | succ fuel =>
    simp only [robDrain]
    split
    · rfl
    · rename_i r hfind
      have hnone : robNext s p r = none := by
        simp [robNext, robFirst, robFrames, hempty r (List.mem_of_find?_eq_some hfind)]
      rw [hnone]

/-! ### Streams that have been open for ROB_OPEN, and frames held for ROB_WAIT (R327, R328) -/

/-- A port's one stream takes the lowest chunk that it holds for its EXP. -/
theorem robOpenExpire_exp {n : PortId} {r : RobStream} {h : Held} (hrob : robOf s p n.val = [r]) (hexp : r.exp = none)
    (hopen : r.opened + robOpen s p ≤ s.beats p) (hfirst : robFirst s p r = some h) (hmine : r.mine h = true) :
    Completes (.robOpenExpire p n) s (fun t => ∀ r' ∈ robOf t p n.val, r'.exp ≠ none) := by
  refine ⟨_, rfl, ?_⟩
  rw [hrob]
  simp only [List.foldl_cons, List.foldl_nil, hexp, Option.isNone_none, hopen, and_self, if_true, hfirst]
  refine robDrain_exp n.val h _ fun q hq => ?_
  rw [robOf_modStream, hrob, List.map_singleton, if_pos hmine, List.mem_singleton] at hq
  rw [hq]
  exact Option.some_ne_none _

@[simp] theorem countRob_fab (f : RField) (s : State) : (countRob p f s).fab p = s.fab p := by rw [countRob, report_fab, incSat_fab]

/-- A count of FORCE or LATE holds at its top. -/
theorem countRob_get {f : RField} (hok : f.ok = true) (hown : 0x40 ≤ f.key % 4096) (s : State) :
    (countRob p f s).get (pu p .RTE) f = min (s.get (pu p .RTE) f + 1) (2 ^ f.width - 1) := by
  rw [countRob, report_get hown, incSat_get _ _ _ hok]

/-- A port's one stream holds nothing after its only frame is released. -/
theorem robOf_released {n at' : Nat} {r : RobStream} {h : Held} (hrob : robOf s p n = [r]) (hframes : r.frames = [(h.id, at')])
    (hmine : r.mine h = true) {g : RobStream → RobStream} (hg : ∀ q, (g q).frames = q.frames) :
    ∀ q ∈ robOf (modStream p n h g (robRelease p n h s)) p n, q.frames = [] := by
  obtain ⟨hleft, hname, -⟩ := streamAfter_fields (s.beats p) h h r
  have hq : robOf (modStream p n h g (robRelease p n h s)) p n = [g (streamAfter (s.beats p) h r)] := by
    simp [robOf_modStream, robOf_robRelease, hrob, hmine, hname]
  simp [hq, hg, hleft, hframes]

/-- The forced release of the only frame that a port's one stream holds (R328). -/
theorem robForce_only {n at' : Nat} {r : RobStream} {h : Held} (hrob : robOf s p n = [r]) (hframes : r.frames = [(h.id, at')])
    (hframe : frameOf s p h.id = some h) (hmine : r.mine h = true) :
    ∃ g : RobStream → RobStream, (∀ q, (g q).frames = q.frames) ∧
      robForce p n h s = countRob p Fld.RTE_ROB_CNT_FORCE (modStream p n h g (robRelease p n h s)) := by
  have hheld : robFrames s p r = [h] := by simp [robFrames, hframes, hframe]
  have hfound : (robOf s p n).find? (·.mine h) = some r := by simp [hrob, hmine]
  have hdrained : ∀ {g : RobStream → RobStream}, (∀ q, (g q).frames = q.frames) → ∀ fuel,
      robDrain p n h fuel (countRob p Fld.RTE_ROB_CNT_FORCE (modStream p n h g (robRelease p n h s))) =
        countRob p Fld.RTE_ROB_CNT_FORCE (modStream p n h g (robRelease p n h s)) := fun hg fuel =>
    robDrain_empty (by rw [robOf, countRob_fab, ← robOf]; exact robOf_released hrob hframes hmine hg) h fuel
  simp only [robForce, hfound, hheld, List.filter_cons, le_refl, decide_true, if_true, List.filter_nil, List.map_cons, List.map_nil,
    List.foldr_cons, List.foldr_nil, insertNat, List.flatMap_cons, List.flatMap_nil, List.append_nil, List.foldl_cons, List.foldl_nil]
  refine ⟨_, fun q => ?_, hdrained (fun q => ?_) _⟩ <;> (split <;> rfl)

/-- What a map holds stands in it. -/
theorem mem_of_mget {α : Type} {m : SMap α} {k : Nat} {v : α} (h : mget m k = some v) : (k, v) ∈ m := by
  induction m with
  | nil => simp at h
  | cons e m ih =>
    unfold mget at h
    split at h
    case isTrue hk =>
      subst hk
      rw [← Option.some.inj h]
      exact List.mem_cons_self
    case isFalse => exact List.mem_cons_of_mem _ (ih h)

/-- A frame that a stream of a port lists is in a reorder buffer. -/
theorem inRob_of_mem {n id at' : Nat} {r : RobStream} (hr : r ∈ robOf s p n) (hid : (id, at') ∈ r.frames) : inRob s p id = true := by
  rw [robOf, mgetD] at hr
  cases hl : mget (s.fab p).robs n with
  | none => simp [hl] at hr
  | some l =>
    rw [hl, Option.getD_some] at hr
    simp only [inRob, List.any_eq_true, decide_eq_true_eq]
    exact ⟨_, mem_of_mget hl, r, hr, _, hid, rfl⟩

/-- A port's one frame that has been held for ROB_WAIT is released by force and counted (R328). -/
theorem robWaitExpire_only {n : PortId} {at' : Nat} {r : RobStream} {h : Held} (hrob : robOf s p n.val = [r]) (hframes : r.frames = [(h.id, at')])
    (hlate : at' + robWait s p ≤ s.beats p) (hframe : frameOf s p h.id = some h) (hmine : r.mine h = true) :
    Completes (.robWaitExpire p n) s (fun t => (∀ r' ∈ robOf t p n.val, r'.frames = []) ∧
      (∃ c ∈ queueOf t p (8 * n.val + h.tc), c.frame = h.id) ∧
      t.get (pu p .RTE) Fld.RTE_ROB_CNT_FORCE = min (s.get (pu p .RTE) Fld.RTE_ROB_CNT_FORCE + 1) 0xFFFF) := by
  have hin : inRob s p h.id = true := inRob_of_mem (n := n.val) (r := r) (at' := at') (by simp [hrob]) (by simp [hframes])
  obtain ⟨g, hg, hforce⟩ := robForce_only hrob hframes hframe hmine
  refine ⟨_, rfl, ?_⟩
  simp only [hrob, hframes, List.flatMap_cons, List.flatMap_nil, List.append_nil, List.foldl_cons, List.foldl_nil, hlate, hin, and_self, if_true,
    hframe, hforce]
  refine ⟨?_, ?_, ?_⟩
  · rw [robOf, countRob_fab, ← robOf]
    exact robOf_released hrob hframes hmine hg
  · rw [queueOf, countRob_fab, ← queueOf, queueOf_modStream]
    exact queueOf_robRelease hframe n.val
  · have hget := get_of_besideFab ((besideFab_modStream p (robRelease p n.val h s) n.val h g).trans (besideFab_robRelease p s n.val h))
    rw [countRob_get rfl (by decide), hget]
    rfl

end

end Sys2Proof.Machine
end

section
/-! SUPPORT. A frame that is alone in the switch core (R342, R343): a CONTROL frame for this module, from its admission to its unit. -/

namespace Sys2Proof.Machine

/-! ### One frame -/

/-- A frame that goes to the plane's units, or no longer does. -/
def Held.forUnits (b : Bool) (x : Held) : Held := { x with toUnits := b }

/-- A frame admitted without a color, for a destination and a job. -/
def Held.admitted (dest job : Nat) (x : Held) : Held := { x with dest := dest, job := job, color := 0 }

/-- A frame with one more cell written. -/
def Held.withCell (c : Cell) (x : Held) : Held := { x with data := x.data ++ [(c.data, c.poison)], tags := x.tags ++ [c.tag] }

/-- A frame is the only one in the switch core of a plane, and no copy of it waits. -/
structure Lone (p : PlaneId) (h : Held) (s : State) : Prop where
  frames : (s.fab p).frames = [h]
  queues : (s.fab p).queues = []
  robs : (s.fab p).robs = []
  cands : (s.fab p).cands = []

section
variable {p : PlaneId} {h : Held} {s : State}

theorem Lone.frameOf (hl : Lone p h s) : frameOf s p h.id = some h := by simp [Machine.frameOf, hl.frames]

theorem Lone.copiesOf (hl : Lone p h s) (id : Nat) : copiesOf s p id = [] := by simp [Machine.copiesOf, hl.queues]

/-- What leaves the frames and the flows leaves the frame alone. -/
theorem Lone.of_flows (hl : Lone p h s) {t : State} (hframes : (t.fab p).frames = (s.fab p).frames) (hflows : flowsOf p t = flowsOf p s) :
    Lone p h t := by
  have hsame : ∀ {α : Type} (g : Fabric → α), g (flowsOf p t) = g (flowsOf p s) := fun g => congrArg g hflows
  exact ⟨hframes.trans hl.frames, (hsame (·.queues)).trans hl.queues, (hsame (·.robs)).trans hl.robs, (hsame (·.cands)).trans hl.cands⟩

theorem Lone.of_fab (hl : Lone p h s) {t : State} (hfab : t.fab p = s.fab p) : Lone p h t :=
  hl.of_flows (by rw [hfab]) (by rw [flowsOf, hfab, flowsOf])

theorem Lone.modFrame (hl : Lone p h s) (f : Held → Held) {id : Nat} (hid : id = h.id) : Lone p (f h) (modFrame p id f s) := by
  subst hid
  obtain ⟨hframes, hqueues, hrobs, hcands⟩ := hl
  constructor <;> simp [Machine.modFrame, *]

/-- A frame enters an empty switch core. -/
theorem lone_addFrame (hframes : (s.fab p).frames = []) (hqueues : (s.fab p).queues = []) (hrobs : (s.fab p).robs = [])
    (hcands : (s.fab p).cands = []) (h : Held) : Lone p h (addFrame p h s) := by
  constructor <;> simp [addFrame, *]

/-- A frame alone that is complete and goes to no unit any more leaves, and with it its cells. -/
theorem Lone.tidyFrame (hl : Lone p h s) (hdone : h.complete = true) (hunits : h.toUnits = false) :
    ((tidyFrame p h.id s).fab p).frames = [] ∧
      ((∀ e ∈ (s.fab p).bufs, e.2.frame = h.id) → ((tidyFrame p h.id s).fab p).bufs = []) := by
  have hneed : ∀ no, cellNeeded (s.fab p) h [] no = false := fun no => by simp [cellNeeded, hunits, hl.cands]
  set cells := (s.fab p).bufs.filter (fun e => e.2.frame = h.id) with hcells
  obtain ⟨hflows, hframes, hbufs⟩ := foldl_freeBuf_fab p s cells
  have hl' : Lone p h (cells.foldl (freeBuf p) s) := hl.of_flows hframes hflows
  have hdead : frameLive (cells.foldl (freeBuf p) s) p h = false := by
    simp [frameLive, hunits, hl'.cands, hl'.copiesOf, inRob, hl'.robs]
  have heq : Machine.tidyFrame p h.id s =
      modFab p (fun f => { f with frames := f.frames.filter (·.id ≠ h.id) }) (cells.foldl (freeBuf p) s) := by
    simp [Machine.tidyFrame, hl.frameOf, hl.copiesOf, hneed, ← hcells, hdone, hdead]
  rw [heq, modFab_fab]
  refine ⟨by simp [hl'.frames], fun hall => ?_⟩
  have hgone : ∀ e ∈ (s.fab p).bufs, cells.all (fun c => decide (e.1 ≠ c.1)) = false := fun e he => by
    simp only [List.all_eq_false, decide_eq_true_eq]
    exact ⟨e, List.mem_filter.mpr ⟨he, by simp [hall e he]⟩, by simp⟩
  simpa [hbufs] using hgone

/-- A complete frame alone is handed over: it leaves, and nothing but its cells and their credits with it (R342). -/
theorem Lone.handOver (hl : Lone p h s) (hdone : h.complete = true) :
    (handOver p h.id s).out = s.out ++ [.handOver p h.src h.tag (h.data.map (·.1))] ∧ ((handOver p h.id s).fab p).frames = [] ∧
      flowsOf p (handOver p h.id s) = flowsOf p s ∧ ((handOver p h.id s).pl p).unitFrames = (s.pl p).unitFrames ∧
      ((∀ e ∈ (s.fab p).bufs, e.2.frame = h.id) → ((handOver p h.id s).fab p).bufs = []) := by
  set o : Output := .handOver p h.src h.tag (h.data.map (·.1))
  set v := Machine.modFrame p h.id (Held.forUnits false) (s.emit o) with hv
  have heq : Machine.handOver p h.id s = Machine.tidyFrame p h.id v := by
    simp only [Machine.handOver, hl.frameOf]
    rfl
  have hl' : Lone p (h.forUnits false) v := (hl.of_fab (emit_fab p s o)).modFrame _ rfl
  obtain ⟨hframes, hbufs⟩ := hl'.tidyFrame hdone rfl
  have hbeside : besideFab p (Machine.tidyFrame p h.id v) = besideFab p (s.emit o) := by rw [besideFab_tidyFrame, hv, besideFab_modFrame]
  have hwait := unitFrames_of_besideFab hbeside
  rw [heq]
  refine ⟨out_of_besideFab hbeside, hframes, (flowsOf_tidyFrame p v h.id).trans (by simp [flowsOf, hv, Machine.modFrame]),
    hwait, fun hall => hbufs ?_⟩
  simpa [hv, Machine.modFrame, Held.forUnits] using hall

end

/-! ### From a torus port (R339, R342, R343) -/

section
variable {p : PlaneId} {h : Held} {s : State} {n : Nat} {c : Cell}

/-- A cell of a frame alone takes a free place of the buffer (R339). -/
theorem Lone.writeCell (hl : Lone p h s) (hfree : bufFree s p ≠ 0) (c : Cell) (credit : Option (Nat × Nat)) :
    ∃ b : BufCell, b.frame = h.id ∧ writeCell p h.id c credit s =
      (true, modFab p (fun f => { f with bufs := mput f.bufs (lowFree (f.bufs.map (·.1)) 0) b }) (Machine.modFrame p h.id (Held.withCell c) s)) := by
  simp only [Machine.writeCell, hl.frameOf, hfree, if_false]
  exact ⟨_, rfl, rfl⟩

/-- What decides over a CONTROL frame for this module that comes from a torus port that a job owns, in a plane that runs. -/
structure ForUnits (s : State) (p : PlaneId) (n : Nat) (c : Cell) : Prop where
  fits : c.flen ≤ maxFlen s p
  runs : rteState s p = 1
  torus : portRole s p n = 2
  owned : ownerOf s p n ≠ 0
  control : c.cls = 1
  here : c.dest = selfAddr s p
  unpoliced : bit (tblWord s p (curBank s p) 2 (4 * n + c.vc / 2 % 4) 0) 12 = false

/-- The decision rests on the registers and the epoch tables. -/
theorem ForUnits.congr (hf : ForUnits s p n c) {t : State} (hreg : t.reg = s.reg) (htbl : (t.fab p).tbl = (s.fab p).tbl) : ForUnits t p n c := by
  obtain ⟨h1, h2, h3, h4, h5, h6, h7⟩ := hf
  constructor <;> simpa only [maxFlen, rteState, portRole, ownerOf, selfAddr, tblWord, curBank, State.get, hreg, htbl]

/-- Such a frame goes to its unit, uncolored, for the job that owns the port (R320, R342, R343, R351). -/
theorem admitHead_units (hf : ForUnits s p n c) (htc : h.tc = c.vc / 2 % 4) : admitHead p n c h s =
    modFrame p h.id (Held.forUnits true) ((modFrame p h.id (Held.admitted c.dest (ownerOf s p n)) s).event p 0x12 0xFF 1) := by
  obtain ⟨hfits, hruns, htorus, howned, hcontrol, hhere, hpolice⟩ := hf
  have hhead : acceptHead s p n c = .ok c.dest := by simp [acceptHead, htorus]
  have hcolor : colorFrame p n h.tc c.flen s = (0, false, s) := by simp [colorFrame, htc, hpolice]
  simp [admitHead, Nat.not_lt.mpr hfits, hruns, hhead, htorus, howned, route, hcontrol, ← hhere, hcolor, placeCopy]
  rfl

/-- The frame that the head cell of an arrival brings, before its admission. -/
def arrivedHeld (s : State) (p : PlaneId) (n : Nat) (c : Cell) : Held :=
  { id := (s.fab p).nextId, origin := (s.fab p).nextId, inPort := some n, vc := c.vc, cls := c.cls, f2 := c.f2, dest := c.dest, src := c.src
    flen := c.flen, tag := c.tag, tc := arrivalTc s p n c.vc, job := 0, epoch := curBank s p, color := 0
    admitFt := s.ft p, latch := c.isLatch, headAt := s.ft p / 20, complete := c.flen = 1 }

/-- The plane with an arrival's first cell written into its buffer as `b`. -/
def headWritten (p : PlaneId) (n : Nat) (c : Cell) (b : BufCell) (s : State) : State :=
  modFab p (fun f => { f with bufs := mput f.bufs (lowFree (f.bufs.map (·.1)) 0) b })
    (modFrame p (s.fab p).nextId (Held.withCell c) (openAsm p n c.vc (s.fab p).nextId c.flen (addFrame p (arrivedHeld s p n c) s)))

theorem besideFab_headWritten (b : BufCell) : besideFab p (headWritten p n c b s) = besideFab p s := by
  simp [headWritten, openAsm, addFrame]

theorem headWritten_fab (b : BufCell) : ((headWritten p n c b s).fab p).tbl = (s.fab p).tbl ∧
    ((headWritten p n c b s).fab p).arrived = (s.fab p).arrived ∧
    ((headWritten p n c b s).fab p).bufs = mput (s.fab p).bufs (lowFree ((s.fab p).bufs.map (·.1)) 0) b := by
  simp [headWritten, modFrame, openAsm, modLink, addFrame]

theorem bufFree_opened (vc id flen : Nat) (h : Held) : bufFree (openAsm p n vc id flen (addFrame p h s)) p = bufFree s p := by
  simp [bufFree, bufCells, partNow, openAsm, modLink, addFrame, modFab, State.fab]

/-- An arrival whose first cell is written and that is admitted for the units alone, complete, is handed over. -/
theorem takeHead_of_admitted (hasm : mget (linkOf s p n).asm c.vc = none) {t : State} {x : Held}
    (hwritten : writeCell p (s.fab p).nextId c (some (n, c.vc)) (openAsm p n c.vc (s.fab p).nextId c.flen (addFrame p (arrivedHeld s p n c) s)) =
      (true, t))
    (hwhole : (t.rp (pu p .SWC)).corrupt ≠ some 3) (hframe : frameOf (admitHead p n c (arrivedHeld s p n c) t) p (s.fab p).nextId = some x)
    (hrob : x.rob = none) (hunits : x.toUnits = true) (hdone : x.complete = true) :
    takeHead p n c s = handOver p (s.fab p).nextId (admitHead p n c (arrivedHeld s p n c) t) := by
  simp only [arrivedHeld] at hwritten hframe ⊢
  simp only [takeHead, hasm, hwritten, strike_miss hwhole, hframe, Option.bind_some, hrob, hunits, hdone, Bool.not_true, Bool.false_eq_true,
    if_false, and_self, if_true]

/-- The frame of a single-cell CONTROL frame for this module, admitted from a torus port and on its way to its unit. -/
def admittedHeld (s : State) (p : PlaneId) (n : Nat) (c : Cell) : Held :=
  (((arrivedHeld s p n c).withCell c).admitted c.dest (ownerOf s p n)).forUnits true

/-- A single-cell CONTROL frame for this module that comes from a torus port into an empty switch core is admitted and handed over. -/
theorem takeHead_eq_handOver (hf : ForUnits s p n c) (hone : c.flen = 1) (hasm : mget (linkOf s p n).asm c.vc = none)
    (hempty : Lone p (arrivedHeld s p n c) (addFrame p (arrivedHeld s p n c) s)) (hbufs : (s.fab p).bufs = []) (hcells : 1 ≤ bufCells s p)
    (hwhole : (s.rp (pu p .SWC)).corrupt ≠ some 3) :
    ∃ t, takeHead p n c s = handOver p (admittedHeld s p n c).id t ∧ Lone p (admittedHeld s p n c) t ∧ t.out = s.out ∧
      (t.fab p).arrived = (s.fab p).arrived ∧ ∀ e ∈ (t.fab p).bufs, e.2.frame = (admittedHeld s p n c).id := by
  have hopen : Lone p (arrivedHeld s p n c) (openAsm p n c.vc (s.fab p).nextId c.flen (addFrame p (arrivedHeld s p n c) s)) :=
    hempty.of_flows (by simp [openAsm, modLink]) (by simp [openAsm, modLink, flowsOf])
  have hfree : bufFree (openAsm p n c.vc (s.fab p).nextId c.flen (addFrame p (arrivedHeld s p n c) s)) p ≠ 0 := by
    rw [bufFree_opened, bufFree, hbufs]
    exact Nat.one_le_iff_ne_zero.mp hcells
  obtain ⟨b, hb, hwritten⟩ := hopen.writeCell hfree c (some (n, c.vc))
  change _ = (true, headWritten p n c b s) at hwritten
  have hbeside : besideFab p (headWritten p n c b s) = besideFab p s := besideFab_headWritten b
  have hreg := reg_of_besideFab hbeside
  obtain ⟨htbl, harrived, hcell⟩ := headWritten_fab (p := p) (n := n) (c := c) (s := s) b
  have hlone : Lone p ((arrivedHeld s p n c).withCell c) (headWritten p n c b s) :=
    (hopen.modFrame (Held.withCell c) rfl).of_flows (by simp [headWritten, arrivedHeld]) (by simp [headWritten, flowsOf, arrivedHeld])
  have howner : ownerOf (headWritten p n c b s) p n = ownerOf s p n := by rw [ownerOf, hreg, ← ownerOf]
  have hadmit := admitHead_units (h := arrivedHeld s p n c) (hf.congr hreg htbl) (by simp [arrivedHeld, arrivalTc, hf.torus])
  rw [howner] at hadmit
  have hgoing : Lone p (admittedHeld s p n c) (admitHead p n c (arrivedHeld s p n c) (headWritten p n c b s)) := by
    rw [hadmit]
    exact ((hlone.modFrame (Held.admitted c.dest _) rfl).of_fab (event_fab p _ 0x12 0xFF 1)).modFrame (Held.forUnits true) rfl
  refine ⟨_, takeHead_of_admitted hasm hwritten hwhole hgoing.frameOf rfl rfl (decide_eq_true hone), hgoing, ?_, ?_, ?_⟩ <;> rw [hadmit]
  · exact out_of_besideFab (p := p) (by rw [besideFab_modFrame, besideFab_event, besideFab_modFrame, hbeside])
  · simpa [modFrame] using harrived
  · have hplace : ((headWritten p n c b s).fab p).bufs = [(0, b)] := by simp [hcell, hbufs, lowFree, mput]
    have hframe : b.frame = (admittedHeld s p n c).id := hb
    simp [modFrame, hplace, hframe]

/-- Arrivals in increasing port: a single one stands alone. -/
theorem arrivals_single {l : List Nat} (hnodup : l.Nodup) (hn : n ∈ l) (c : Cell) :
    l.flatMap (fun k => [(n, c)].filter (fun a => decide (a.1 = k))) = [(n, c)] := by
  induction l with
  | nil => exact absurd hn List.not_mem_nil
  | cons k r ih =>
    obtain ⟨hk, hr⟩ := List.nodup_cons.mp hnodup
    rw [List.flatMap_cons]
    by_cases hnk : n = k
    · subst hnk
      have hrest : r.flatMap (fun k => [(n, c)].filter (fun a => decide (a.1 = k))) = [] :=
        List.flatMap_eq_nil_iff.mpr fun j hj => by
          have hne : n ≠ j := fun h => hk (h ▸ hj)
          simp [hne]
      simp [hrest]
    · simp [hnk, ih hr ((List.mem_cons.mp hn).resolve_left hnk)]

/-- FRAME_ADMIT of a single arrival of a whole frame that its channel has a credit for. -/
theorem exec_frameAdmit_single {n : PortId} (harrived : (s.fab p).arrived = [(n.val, c)]) (hpos : c.pos = 3) (hbufs : (s.fab p).bufs = [])
    (hgrant : 1 ≤ grantOf s p n.val c.vc) :
    exec (.frameAdmit p) s = .next (takeHead p n.val c (modFab p (fun f => { f with arrived := [] }) s)) := by
  have horder : (List.range 128).flatMap (fun k => (s.fab p).arrived.filter (·.1 = k)) = [(n.val, c)] := by
    rw [harrived]
    exact arrivals_single List.nodup_range (List.mem_range.mpr n.isLt) c
  have hgrant' : ¬ grantOf (modFab p (fun f => { f with arrived := [] }) s) p n.val c.vc ≤ 0 := by
    rw [grantOf, modFab_get, ← grantOf]
    omega
  have hrun : exec (.frameAdmit p) s = execFrameAdmit p s := rfl
  rw [hrun, execFrameAdmit]
  simp [horder, takeCell, hbufs, hpos, hgrant']

/-- A single-cell CONTROL frame for this module, alone at a torus port of an empty switch core. -/
theorem frameAdmit_units {n : PortId} (hf : ForUnits s p n.val c) (harrived : (s.fab p).arrived = [(n.val, c)]) (hpos : c.pos = 3)
    (hone : c.flen = 1) (hframes : (s.fab p).frames = []) (hqueues : (s.fab p).queues = []) (hrobs : (s.fab p).robs = [])
    (hcands : (s.fab p).cands = []) (hbufs : (s.fab p).bufs = []) (hasm : mget (linkOf s p n.val).asm c.vc = none)
    (hgrant : 1 ≤ grantOf s p n.val c.vc) (hcells : 1 ≤ bufCells s p) (hwhole : (s.rp (pu p .SWC)).corrupt ≠ some 3) :
    Completes (.frameAdmit p) s (fun t => t.out = s.out ++ [.handOver p c.src c.tag [c.data]] ∧ (t.fab p).arrived = [] ∧ (t.fab p).bufs = [] ∧
      (t.fab p).frames = [] ∧ (t.fab p).queues = []) := by
  set v := modFab p (fun f => { f with arrived := [] }) s with hv
  have hreg : v.reg = s.reg := reg_of_besideFab (besideFab_modFab p s _)
  have hasm' : mget (linkOf v p n.val).asm c.vc = none := by simpa [hv, linkOf] using hasm
  have hempty : Lone p (arrivedHeld v p n.val c) (addFrame p (arrivedHeld v p n.val c) v) :=
    lone_addFrame (by simpa [hv] using hframes) (by simpa [hv] using hqueues) (by simpa [hv] using hrobs) (by simpa [hv] using hcands) _
  have hcells' : 1 ≤ bufCells v p := by simpa [hv, bufCells, partNow, modFab] using hcells
  obtain ⟨t, heq, hlone, hout, hleft, hmine⟩ := takeHead_eq_handOver (hf.congr hreg (by simp [hv])) hone hasm' hempty
    (by simpa [hv] using hbufs) hcells' hwhole
  obtain ⟨hsent, hgone, hflows, -, hfreed⟩ := hlone.handOver (decide_eq_true hone)
  have hlater : ∀ {α : Type} (g : Fabric → α), g (flowsOf p (handOver p (admittedHeld v p n.val c).id t)) = g (flowsOf p t) :=
    fun g => congrArg g hflows
  refine ⟨_, exec_frameAdmit_single harrived hpos hbufs hgrant, ?_⟩
  rw [← hv, heq]
  refine ⟨hsent.trans ?_, (hlater (·.arrived)).trans (hleft.trans ?_), hfreed hmine, hgone, (hlater (·.queues)).trans hlone.queues⟩
  · rw [hout]
    rfl
  · simp [hv]

end

/-! ### From a unit (R340, R342, R348) -/

section
variable {p : PlaneId} {s : State} {u : Nat} {f : UnitFrame}

/-- While injection is held the frame of a unit waits, but for the latch unit's (R332). -/
theorem unitFrameAdmit_held (hfind : (s.pl p).unitFrames.find? (·.unit = u) = some f) (hheld : held s p = true) (hu : u ≠ pu p .LAT) :
    exec (.unitFrameAdmit p u) s = .next s := by
  have hrun : exec (.unitFrameAdmit p u) s = execUnitFrameAdmit p u s := rfl
  rw [hrun, execUnitFrameAdmit, hfind]
  simp [hheld, hu]

/-- The cells of a unit's frame take free places of the buffer; they hold no credit (R340). -/
def storeCells (p : PlaneId) (id deadline flen : Nat) (s : State) : State :=
  (List.range flen).foldl (fun t i => modFab p (fun x => { x with
    bufs := mput x.bufs (lowFree (x.bufs.map (·.1)) 0) { frame := id, no := i, deadline := deadline, credit := none } }) t) s

/-- The buffer is all that they change. -/
theorem storeCells_keeps (id deadline flen : Nat) : besideFab p (storeCells p id deadline flen s) = besideFab p s ∧
    flowsOf p (storeCells p id deadline flen s) = flowsOf p s ∧ ((storeCells p id deadline flen s).fab p).frames = (s.fab p).frames :=
  ⟨foldl_keeps (besideFab p) (fun t _ => besideFab_modFab p t _) _ s, foldl_keeps (flowsOf p) (fun t _ => by simp [flowsOf]) _ s,
    foldl_keeps (fun r : State => (r.fab p).frames) (fun t _ => by simp) _ s⟩

/-- A CONTROL frame for this module goes to its units (R320, R342). -/
theorem unitCopy_units {h : Held} (hcontrol : h.cls = 1) (many : Bool) :
    unitCopy p h many s (selfAddr s p) = modFrame p h.id (Held.forUnits true) s := by
  simp only [unitCopy, route, hcontrol, if_true]
  rfl

/-- A frame that has left the units' wait, in the switch core with its cells stored and no copy made. -/
def unitStored (p : PlaneId) (f : UnitFrame) (v : State) : State :=
  let w := (addFrame p (unitHeld v p f) v).event p 0x12 0xFF 1
  storeCells p (unitHeld v p f).id (w.ft p + tcAge w p (unitHeld v p f).epoch (unitHeld v p f).tc * 1650) f.cells.length w

theorem besideFab_unitStored (v : State) : besideFab p (unitStored p f v) = besideFab p v :=
  (storeCells_keeps _ _ _).1.trans (by simp [addFrame])

/-- In an empty switch core it is alone. -/
theorem lone_unitStored {v : State} (hframes : (v.fab p).frames = []) (hqueues : (v.fab p).queues = []) (hrobs : (v.fab p).robs = [])
    (hcands : (v.fab p).cands = []) : Lone p (unitHeld v p f) (unitStored p f v) := by
  obtain ⟨-, hflows, hkept⟩ := storeCells_keeps (p := p) (s := (addFrame p (unitHeld v p f) v).event p 0x12 0xFF 1) _ _ _
  exact ((lone_addFrame hframes hqueues hrobs hcands _).of_fab (event_fab p _ 0x12 0xFF 1)).of_flows hkept hflows

/-- UNIT_FRAME_ADMIT of a CONTROL frame for this module, which the headroom covers in a plane that runs. -/
theorem exec_unitFrameAdmit_units (hfind : (s.pl p).unitFrames.find? (·.unit = u) = some f) (hcontrol : f.cls = 1)
    (hdests : f.dests = [selfAddr s p]) (hfits : f.cells.length ≤ maxFlen s p) (hruns : rteState s p = 1)
    (hroom : f.cells.length ≤ bufFree s p + bufHeld s p - bufResv s p) {h : Held} (hh : unitHeld (dropUnitFrame p f s) p f = h)
    (hlone : Lone p h (unitStored p f (dropUnitFrame p f s))) :
    exec (.unitFrameAdmit p u) s = .next (handOver p h.id (modFrame p h.id (Held.forUnits true) (unitStored p f (dropUnitFrame p f s)))) := by
  have hreg : (dropUnitFrame p f s).reg = s.reg := funext₂ fun _ _ => State.modPl_reg _ _ _ _ _
  have hself : selfAddr (unitStored p f (dropUnitFrame p f s)) p = selfAddr s p := by
    simp only [selfAddr, State.get, reg_of_besideFab (besideFab_unitStored (p := p) (f := f) (dropUnitFrame p f s)), hreg]
  have hfits' : ¬ maxFlen (dropUnitFrame p f s) p < f.cells.length := by simpa only [maxFlen, State.get, hreg, not_lt] using hfits
  have hruns' : rteState (dropUnitFrame p f s) p = 1 := by simpa only [rteState, State.get, hreg] using hruns
  have hheld : held s p = false := by simp [held, hruns]
  have hcopy : f.dests.foldl (unitCopy p h (decide (1 < f.dests.length))) (unitStored p f (dropUnitFrame p f s)) =
      modFrame p h.id (Held.forUnits true) (unitStored p f (dropUnitFrame p f s)) := by
    rw [hdests, List.foldl_cons, List.foldl_nil, ← hself]
    exact unitCopy_units (by rw [← hh]; exact hcontrol) _
  have hfound : frameOf (modFrame p h.id (Held.forUnits true) (unitStored p f (dropUnitFrame p f s))) p h.id = some (h.forUnits true) :=
    (hlone.modFrame (Held.forUnits true) rfl).frameOf
  have hunits : (h.forUnits true).toUnits = true := rfl
  have hrun : exec (.unitFrameAdmit p u) s = execUnitFrameAdmit p u s := rfl
  rw [unitStored, storeCells, hh] at hcopy hfound ⊢
  rw [hrun, execUnitFrameAdmit, hfind]
  simp only [hheld, Bool.false_and, Bool.false_or, decide_eq_true_eq, Nat.not_lt.mpr hroom, if_false, hfits', hruns', one_ne_zero, false_and,
    hh, hcopy, hfound, hunits, if_true]

/-- A CONTROL frame of a unit for this module, in an empty switch core. -/
theorem unitFrameAdmit_units (hfind : (s.pl p).unitFrames.find? (·.unit = u) = some f) (hcontrol : f.cls = 1) (hdests : f.dests = [selfAddr s p])
    (hfits : f.cells.length ≤ maxFlen s p) (hruns : rteState s p = 1) (hbufs : (s.fab p).bufs = []) (hframes : (s.fab p).frames = [])
    (hqueues : (s.fab p).queues = []) (hrobs : (s.fab p).robs = []) (hcands : (s.fab p).cands = [])
    (hroom : bufResv s p + f.cells.length ≤ bufCells s p) :
    Completes (.unitFrameAdmit p u) s (fun t => t.out = s.out ++ [.handOver p (selfAddr s p) f.tag f.cells] ∧
      (t.pl p).unitFrames = (s.pl p).unitFrames.erase f ∧ (t.fab p).frames = []) := by
  have hfree : f.cells.length ≤ bufFree s p + bufHeld s p - bufResv s p := by
    simp only [bufFree, hbufs, List.length_nil]
    omega
  have hfab : (dropUnitFrame p f s).fab p = s.fab p := by simp [dropUnitFrame, State.fab]
  have hlone : Lone p (unitHeld (dropUnitFrame p f s) p f) (unitStored p f (dropUnitFrame p f s)) :=
    lone_unitStored (by rw [hfab, hframes]) (by rw [hfab, hqueues]) (by rw [hfab, hrobs]) (by rw [hfab, hcands])
  obtain ⟨hsent, hgone, -, hwait, -⟩ := (hlone.modFrame (Held.forUnits true) rfl).handOver rfl
  have hbeside := (besideFab_modFrame p (unitStored p f (dropUnitFrame p f s)) (unitHeld (dropUnitFrame p f s) p f).id
    (Held.forUnits true)).trans (besideFab_unitStored (dropUnitFrame p f s))
  refine ⟨_, exec_unitFrameAdmit_units hfind hcontrol hdests hfits hruns hfree rfl hlone, hsent.trans ?_,
    hwait.trans ((unitFrames_of_besideFab hbeside).trans (by simp [dropUnitFrame])), hgone⟩
  have hcells : ((unitHeld (dropUnitFrame p f s) p f).forUnits true).data.map (·.1) = f.cells := by
    simp [Held.forUnits, unitHeld, Function.comp_def]
  have hself : ((unitHeld (dropUnitFrame p f s) p f).forUnits true).src = selfAddr s p := by
    simp [Held.forUnits, unitHeld, dropUnitFrame, selfAddr]
  rw [out_of_besideFab hbeside, hcells, hself]
  rfl

end

/-- Without arrivals FRAME_ADMIT changes nothing. -/
theorem frameAdmit_none {p : PlaneId} {s : State} (harrived : (s.fab p).arrived = []) : exec (.frameAdmit p) s = .next s := by
  have hrun : exec (.frameAdmit p) s = execFrameAdmit p s := rfl
  simp [hrun, execFrameAdmit, harrived]

/-- Settles O46: a CONTROL frame that is alone in the switch core is handed over with its cells freed, copies and audited cells leave their own
queue and place alone, and a port's one stream is released frame by frame. -/
theorem switchEvents : Obligations.SwitchEvents := by
  unfold Obligations.SwitchEvents
  refine ⟨?none, ?arrival, ?held, ?unit, ?age, ?audit, ?opened, ?waited, ?close⟩
  case none => exact fun p s harrived => ⟨s, frameAdmit_none harrived, rfl⟩
  case arrival =>
    intro p n c s harrived hpos hone hcontrol hhere htorus howned hruns hbufs hframes hqueues hrobs hcands hasm hlen hgrant hcells hpolice hwhole
    exact frameAdmit_units ⟨hone ▸ hlen, hruns, htorus, howned, hcontrol, hhere, hpolice⟩ harrived hpos hone hframes hqueues hrobs hcands hbufs
      hasm hgrant hcells hwhole
  case held => exact fun p u f s hfind hheld hu => ⟨s, unitFrameAdmit_held hfind hheld hu, rfl⟩
  case unit =>
    intro p u f s hfind hcontrol hdests hfits hruns hbufs hframes hqueues hrobs hcands hroom
    exact unitFrameAdmit_units hfind hcontrol hdests hfits hruns hbufs hframes hqueues hrobs hcands hroom
  case age => exact fun p k s => copyAgeExpire_queues k
  case audit => exact fun _ _ _ => auditVisit_cell
  case opened => exact fun _ _ _ _ _ => robOpenExpire_exp
  case waited => exact fun _ _ _ _ _ _ => robWaitExpire_only
  case close => exact fun p n s => ⟨_, rfl, rfl, robOf_setRob p s n.val _⟩

end Sys2Proof.Machine
end

section
/-! SUPPORT. A command written at the drain (R334) where a write-only bit already stands stored, and the statement about the drain. -/

namespace Sys2Proof.Machine

/-- Plane 0 is COMMITTED, every domain has power, and RTE_CTL holds the bit of START, which no write can have stored there. -/
def staleStart : State :=
  ((State.reset.setReg (hu .a .PWR) Fld.PWR_DOM_STAT_ON.key 0xFFFFFFFF).put (pu 0 .RTE) Fld.RTE_STAT_STATE 5).setReg (pu 0 .RTE)
    Fld.RTE_CTL_START.key 1

/-- RESUME is accepted, and the plane is ARMED: the command that the write shows RTE has START as well, which goes first. -/
theorem staleStart_arms : accepted staleStart (.hubCore .a) (pu 0 .RTE) Fld.RTE_CTL_RESUME.key (0 ||| Fld.RTE_CTL_RESUME.mask) = true ∧
    rteState (regWrite (.hubCore .a) (pu 0 .RTE) Fld.RTE_CTL_RESUME.key (0 ||| Fld.RTE_CTL_RESUME.mask) staleStart) 0 = 2 := by
  decide +kernel

/-- Refutes O44: the statement speaks of every state, and in one whose write-only START bit of RTE_CTL already stands stored as 1, an accepted
RESUME arms the COMMITTED plane for a drain instead of leaving it COMMITTED (`staleStart_arms`). RTE_CTL resets to 0 and no write stores into it
(`keptWord_of_commands`): what the statement misses is the premise that it holds 0. -/
theorem not_routingDrain : ¬ Obligations.RoutingDrain := by
  unfold Obligations.RoutingDrain
  rintro ⟨-, -, hresume, -⟩
  obtain ⟨hacc, harms⟩ := staleStart_arms
  obtain ⟨t, ht, hcommitted, -⟩ := hresume (.hubCore .a) 0 0 staleStart hacc
  have hrun : exec (.routeResume (.hubCore .a) 0 0) staleStart =
      .next (regWrite (.hubCore .a) (pu 0 .RTE) Fld.RTE_CTL_RESUME.key (0 ||| Fld.RTE_CTL_RESUME.mask) staleStart) := rfl
  have hend := Host.Outcome.next.inj (hrun.symm.trans ht)
  have harmed : rteState t 0 = 2 := hend ▸ harms
  exact absurd (harmed.symm.trans hcommitted) (by decide)

end Sys2Proof.Machine
end

section
/-! SUPPORT. What no command but a few changes: the queue, the identity record and what is fitted, which no command changes; the deadbolt state,
which an entry begins and only a power cycle ends; and the bytes of plane memory, which stores and losses of memory or power change. -/

namespace Sys2Proof.Machine

/-- The queue, the identity record, what is fitted, the deadbolt state, and the memory of every plane. -/
def bedrock (s : State) : (List Instr × Ident × Fitted) × Option Deadbolt × (PlaneId → List Host.Cell) :=
  ((s.pending, s.ident, s.fitted), s.dead, fun p => (s.pl p).mem)

theorem bedrock_congr {s t : State} (hpending : t.pending = s.pending) (hident : t.ident = s.ident) (hfitted : t.fitted = s.fitted)
    (hdead : t.dead = s.dead) (hmem : ∀ p, (t.pl p).mem = (s.pl p).mem) : bedrock t = bedrock s := by
  simp only [bedrock, hpending, hident, hfitted, hdead, hmem]

/-- What a state's own operations leave whole. -/
theorem bedrock_of_planes {s t : State} (h : (t.pending, t.ident, t.fitted, t.dead, t.planes) = (s.pending, s.ident, s.fitted, s.dead, s.planes)) :
    bedrock t = bedrock s := by
  simp only [Prod.mk.injEq] at h
  obtain ⟨hpending, hident, hfitted, hdead, hplanes⟩ := h
  exact bedrock_congr hpending hident hfitted hdead fun p => by rw [State.pl, hplanes, State.pl]

@[simp] theorem bedrock_ite (c : Prop) [Decidable c] (s t : State) : bedrock (if c then s else t) = if c then bedrock s else bedrock t :=
  apply_ite _ _ _ _

@[simp] theorem bedrock_foldl {α : Type} {f : State → α → State} (h : ∀ t x, bedrock (f t x) = bedrock t) (l : List α) (s : State) :
    bedrock (l.foldl f s) = bedrock s := foldl_keeps bedrock h l s

/-! ### The state's own operations -/

section
variable (p : PlaneId) (h : HubId) (s : State)

@[simp] theorem bedrock_setReg (u off : Nat) (w : Word) : bedrock (s.setReg u off w) = bedrock s := bedrock_of_planes rfl
@[simp] theorem bedrock_put (u : Nat) (f : RField) (v : Nat) : bedrock (s.put u f v) = bedrock s := bedrock_of_planes rfl
@[simp] theorem bedrock_inc (u : Nat) (f : RField) (n : Nat) : bedrock (s.inc u f n) = bedrock s := bedrock_of_planes rfl
@[simp] theorem bedrock_incSat (u : Nat) (f : RField) (n : Nat) : bedrock (s.incSat u f n) = bedrock s := bedrock_of_planes rfl
@[simp] theorem bedrock_put64 (u : Nat) (f g : RField) (v : Nat) : bedrock (s.put64 u f g v) = bedrock s := bedrock_of_planes rfl
@[simp] theorem bedrock_eraseRegs (u : Nat) (keep : List Nat) : bedrock (s.eraseRegs u keep) = bedrock s := bedrock_of_planes rfl
@[simp] theorem bedrock_modHub (g : Hub → Hub) : bedrock (s.modHub h g) = bedrock s := bedrock_of_planes rfl
@[simp] theorem bedrock_modPwr (f : PowerCtl → PowerCtl) : bedrock (s.modPwr f) = bedrock s := bedrock_of_planes rfl
@[simp] theorem bedrock_emit (o : Output) : bedrock (s.emit o) = bedrock s := bedrock_of_planes rfl
@[simp] theorem bedrock_pulseBit (u n : Nat) : bedrock (s.pulseBit u n) = bedrock s := bedrock_of_planes rfl
@[simp] theorem bedrock_modRp (u : Nat) (f : Reporter → Reporter) : bedrock (s.modRp u f) = bedrock s := bedrock_of_planes rfl
@[simp] theorem bedrock_takeFree : bedrock s.takeFree.2 = bedrock s := bedrock_of_planes rfl

/-- A change of a plane bedrock_of_planes its memory. -/
@[simp] theorem bedrock_modPl {g : Plane → Plane} (hmem : ∀ x, (g x).mem = x.mem) : bedrock (s.modPl p g) = bedrock s :=
  bedrock_congr rfl rfl rfl rfl fun q => by
    by_cases hq : p = q
    · subst hq; simp [hmem]
    · rw [State.modPl_pl_ne s g hq]

/-- A change of what is neither the queue, the identity record, what is fitted, the deadbolt state nor a plane. -/
@[simp] theorem bedrock_with (regs : SMap (SMap Word)) (pulse : SMap Word) (rep : SMap Reporter) (hubs : Pair Hub) (pwr : PowerCtl) (lease : Lease)
    (mbx : SMap Channel) (cfg : ModConfig) (ppsOut : Option Nat) (out : List Output) (fresh : Nat) :
    bedrock { s with regs := regs, pulse := pulse, rep := rep, hubs := hubs, pwr := pwr, lease := lease, mbx := mbx, cfg := cfg, ppsOut := ppsOut,
                     out := out, fresh := fresh } = bedrock s := bedrock_of_planes rfl

end

/-! ### Commands -/

/-- The state that a command answers. -/
def endState (s : State) : Out → State
  | .next t => t
  | _ => s

@[simp] theorem endState_next (s t : State) : endState s (.next t) = t := rfl
@[simp] theorem endState_ite (s : State) (c : Prop) [Decidable c] (x y : Out) :
    endState s (if c then x else y) = if c then endState s x else endState s y := apply_ite _ _ _ _

end Sys2Proof.Machine
end

section
/-! SUPPORT. What keeps `bedrock`: the functions of the model that store no byte of plane memory, and neither enter nor leave the deadbolt state. -/

namespace Sys2Proof.Machine

section
variable (p : PlaneId) (h : HubId) (s : State)

/-! ### Counters and events -/

@[simp] theorem bedrock_event (code inst n : Nat) : bedrock (State.event s p code inst n) = bedrock s := by simp [State.event]
@[simp] theorem bedrock_eventAt (beat code inst n : Nat) : bedrock (State.eventAt s p beat code inst n) = bedrock s := by simp [State.eventAt]
@[simp] theorem bedrock_coreEvent (core code cyc n : Nat) : bedrock (State.coreEvent s p core code cyc n) = bedrock s := by simp [State.coreEvent]
@[simp] theorem bedrock_sample (point sel v : Nat) : bedrock (State.sample s p point sel v) = bedrock s := by simp [State.sample]

/-! ### Fault logs -/

@[simp] theorem bedrock_setLog (u : Nat) (x : LogSave) : bedrock (setLog u x s) = bedrock s := by simp [setLog]
@[simp] theorem bedrock_logDetection (u : Nat) (b : Blk) (d : Detection) : bedrock (logDetection u b d s) = bedrock s := by simp [logDetection]
@[simp] theorem bedrock_logFault (u : Nat) (b : Blk) (src : Nat) (cls : FaultClass) (wh detail : Nat) :
    bedrock (logFault u b src cls wh detail s) = bedrock s := by simp [logFault]
@[simp] theorem bedrock_ackFault (u : Nat) : bedrock (ackFault u s) = bedrock s := by
  unfold ackFault
  split <;> simp
@[simp] theorem bedrock_report (u src : Nat) (cls : FaultClass) (wh detail : Nat) : bedrock (report u src cls wh detail s) = bedrock s := by
  unfold report
  split <;> simp

/-! ### Memory targets -/

@[simp] theorem bedrock_markPoison (addr : Nat) : bedrock (markPoison p addr s) = bedrock s := by simp [markPoison]

/-! ### Chunks -/

@[simp] theorem bedrock_setCtx (pos c : Nat) (x : Ctx) : bedrock (setCtx p pos c x s) = bedrock s := by simp [setCtx]
@[simp] theorem bedrock_modCtx (pos c : Nat) (f : Ctx → Ctx) : bedrock (modCtx p pos c f s) = bedrock s := by
  unfold modCtx
  split <;> simp
@[simp] theorem bedrock_modColl (g q : Nat) (f : Coll → Coll) : bedrock (modColl p g q f s) = bedrock s := by simp [modColl]
@[simp] theorem bedrock_modChunk (pos c n : Nat) (f : Chunk → Chunk) : bedrock (modChunk p pos c n f s) = bedrock s := by simp [modChunk]
@[simp] theorem bedrock_sealSample (pos : Nat) (k : Chunk) (st : ChunkState) : bedrock (sealSample p pos k st s) = bedrock s := by simp [sealSample]
@[simp] theorem bedrock_endChunk (pos c n : Nat) (f : Chunk → Chunk) : bedrock (endChunk p pos c n f s) = bedrock s := by
  unfold endChunk
  split <;> simp
@[simp] theorem bedrock_sealOne (pos c n : Nat) (d : CopyDst) : bedrock ((sealOne p pos c n d s).2) = bedrock s := by
  simp only [sealOne]
  repeat' split
  all_goals simp
@[simp] theorem bedrock_issueFrame (f : UnitFrame) : bedrock (issueFrame p f s) = bedrock s := by simp [issueFrame]
@[simp] theorem bedrock_queueRepair (port : Nat) (r : RepairRef) : bedrock (queueRepair p port r s) = bedrock s := by simp [queueRepair]
@[simp] theorem bedrock_issueSeal (pos c ep : Nat) (r : Option Cell × State) : bedrock (issueSeal p pos c ep r) = bedrock r.2 := by
  unfold issueSeal
  split <;> simp
@[simp] theorem bedrock_finalOnly (pos c n : Nat) (d : CopyDst) : bedrock (finalOnly p pos c n d s) = bedrock s := by
  unfold finalOnly
  split <;> simp
@[simp] theorem bedrock_endReleased (pos c n : Nat) : bedrock (endReleased p pos c n s) = bedrock s := by
  unfold endReleased
  split <;> simp
@[simp] theorem bedrock_sealCopy (pos c n : Nat) (d : CopyDst) : bedrock ((sealCopy p pos c n d s).2) = bedrock s := by simp [sealCopy]
@[simp] theorem bedrock_failChunk (pos c n reason : Nat) (extra : List CopyDst) :
    bedrock (failChunk p pos c n reason extra s) = bedrock s := by simp [failChunk]
@[simp] theorem bedrock_abortColl (g q midx digest : Nat) : bedrock (abortColl p g q midx digest s) = bedrock s := by simp [abortColl]
@[simp] theorem bedrock_dropRepair (pos c n : Nat) (d : CopyDst) : bedrock (dropRepair p pos c n d s) = bedrock s := by simp [dropRepair]
@[simp] theorem bedrock_answerReleased (x : Ctx) (n ep : Nat) : bedrock (answerReleased p x n ep s) = bedrock s := by simp [answerReleased]
@[simp] theorem bedrock_dropRequests (pos c n : Nat) : bedrock (dropRequests p pos c n s) = bedrock s := by
  simp only [dropRequests]
  repeat' split
  all_goals simp
@[simp] theorem bedrock_releaseChunk (pos c n : Nat) : bedrock (releaseChunk p pos c n s) = bedrock s := by simp [releaseChunk]
@[simp] theorem bedrock_discardOldest (pos c : Nat) : bedrock (discardOldest p pos c s) = bedrock s := by
  simp only [discardOldest]
  repeat' split
  all_goals simp
@[simp] theorem bedrock_openChunk (pos c n : Nat) (bank : Option Nat) : bedrock (openChunk p pos c n bank s) = bedrock s := by simp [openChunk]

/-! ### Core complexes -/

@[simp] theorem bedrock_setCore (n : Nat) (c : Core) : bedrock (setCore p n c s) = bedrock s := by simp [setCore]
@[simp] theorem bedrock_modCore (n : Nat) (f : Core → Core) : bedrock (modCore p n f s) = bedrock s := by simp [modCore]
@[simp] theorem bedrock_setCoreSt (n v : Nat) : bedrock (setCoreSt p n v s) = bedrock s := by simp [setCoreSt]
@[simp] theorem bedrock_haltCore (n : Nat) (c : HCause) : bedrock (haltCore p n c s) = bedrock s := by simp [haltCore]
@[simp] theorem bedrock_rebaseCores (ft0 was : Nat) : bedrock (rebaseCores p ft0 was s) = bedrock s := by simp [rebaseCores]

/-! ### Key images -/

@[simp] theorem bedrock_setBankSt (b v : Nat) : bedrock (setBankSt p b v s) = bedrock s := by simp [setBankSt]
@[simp] theorem bedrock_setRcode (b v : Nat) : bedrock (setRcode p b v s) = bedrock s := by simp [setRcode]
@[simp] theorem bedrock_modBank (b : Nat) (f : KeyBank → KeyBank) : bedrock (modBank p b f s) = bedrock s := by simp [modBank]
@[simp] theorem bedrock_setPlnState (v : Nat) : bedrock (setPlnState p v s) = bedrock s := by simp [setPlnState]
@[simp] theorem bedrock_syncPln : bedrock (syncPln p s) = bedrock s := by simp [syncPln]
@[simp] theorem bedrock_unitChange : bedrock (unitChange p s) = bedrock s := by
  simp [unitChange]
@[simp] theorem bedrock_abortKeyChunks (b : Nat) : bedrock (abortKeyChunks p b s) = bedrock s := by
  refine bedrock_foldl (fun t w => ?_) _ s
  dsimp only
  split <;> simp
@[simp] theorem bedrock_dropOrphans : bedrock (dropOrphans p s) = bedrock s := by simp [dropOrphans]
@[simp] theorem bedrock_endKey (b : Nat) (c : KeyEnd) : bedrock (endKey p b c s) = bedrock s := by simp [endKey]
@[simp] theorem bedrock_disarm (b rcode : Nat) : bedrock (disarm p b rcode s) = bedrock s := by
  simp only [disarm, bedrock_syncPln, bedrock_ite]
  split <;> simp
@[simp] theorem bedrock_endAtSlot (b code : Nat) : bedrock (endAtSlot p b code s) = bedrock s := by simp [endAtSlot]
@[simp] theorem bedrock_fenceKey : bedrock (fenceKey p s) = bedrock s := by
  simp only [fenceKey]
  repeat' split
  all_goals simp
@[simp] theorem bedrock_endRunningKey (c : KeyEnd) : bedrock (endRunningKey p c s) = bedrock s := by
  simp only [endRunningKey]
  repeat' split
  all_goals simp
@[simp] theorem bedrock_setGapHit : bedrock (setGapHit p s) = bedrock s := by simp [setGapHit]
@[simp] theorem bedrock_freePatterns (b : Nat) : bedrock (freePatterns p b s) = bedrock s := by simp [freePatterns]

/-! ### Fences -/

@[simp] theorem bedrock_closeHasp (u cause : Nat) : bedrock (closeHasp u cause s) = bedrock s := by simp [closeHasp]
@[simp] theorem bedrock_openHasp (u : Nat) (keep : List Nat) : bedrock (openHasp u keep s) = bedrock s := by simp [openHasp]
@[simp] theorem bedrock_noteEvent (n : Nat) : bedrock (noteEvent p n s) = bedrock s := by simp [noteEvent]
@[simp] theorem bedrock_undoEvents (n : Nat) : bedrock (undoEvents p n s) = bedrock s := by
  unfold undoEvents
  split
  · split
    · refine bedrock_foldl ?_ _ s
      exact fun _ _ => bedrock_of_planes rfl
    · rfl
  · rfl
@[simp] theorem bedrock_shutPort (n c : Nat) : bedrock (shutPort p n c s) = bedrock s := by
  unfold shutPort
  split <;> simp
@[simp] theorem bedrock_fencePort (n c : Nat) : bedrock (fencePort p n c s) = bedrock s := by simp [fencePort]
@[simp] theorem bedrock_liftPort (n : Nat) : bedrock (liftPort p n s) = bedrock s := by simp [liftPort]
@[simp] theorem bedrock_fenceChiplet (n c : Nat) : bedrock (fenceChiplet p n c s) = bedrock s := by simp [fenceChiplet]
@[simp] theorem bedrock_liftChiplet (n : Nat) : bedrock (liftChiplet p n s) = bedrock s := by simp [liftChiplet]
@[simp] theorem bedrock_fenceSlice (n c : Nat) : bedrock (fenceSlice p n c s) = bedrock s := by
  simp only [fenceSlice]
  repeat' split
  all_goals simp
@[simp] theorem bedrock_fenceChannel (n c : Nat) : bedrock (fenceChannel p n c s) = bedrock s := by simp [fenceChannel]
@[simp] theorem bedrock_fenceBank (b : Nat) : bedrock (fenceBank p b s) = bedrock s := by simp [fenceBank]
@[simp] theorem bedrock_poisonWhere (addr : Nat) : bedrock (poisonWhere p addr s) = bedrock s := by simp [poisonWhere]
@[simp] theorem bedrock_dropCoreCtxs (n : Nat) : bedrock (dropCoreCtxs p n s) = bedrock s := by simp [dropCoreCtxs]
@[simp] theorem bedrock_fenceCore (n c : Nat) : bedrock (fenceCore p n c s) = bedrock s := by simp [fenceCore]
@[simp] theorem bedrock_liftCore (n : Nat) : bedrock (liftCore p n s) = bedrock s := by simp [liftCore]
@[simp] theorem bedrock_fenceMgc (c : Nat) : bedrock (fenceMgc p c s) = bedrock s := by simp [fenceMgc]
@[simp] theorem bedrock_liftMgc : bedrock (liftMgc p s) = bedrock s := by simp [liftMgc]
@[simp] theorem bedrock_fencePlane (c : Nat) : bedrock (fencePlane p c s) = bedrock s := by simp [fencePlane]
@[simp] theorem bedrock_showLink : bedrock (showLink h p s) = bedrock s := by simp [showLink]
@[simp] theorem bedrock_closeHubLink (p : Nat) : bedrock (closeHubLink h p s) = bedrock s := by simp [closeHubLink]
@[simp] theorem bedrock_fenceHub (c : Nat) : bedrock (fenceHub h c s) = bedrock s := by simp [fenceHub]
@[simp] theorem bedrock_isolatePlane : bedrock (isolatePlane p s) = bedrock s := by simp [isolatePlane]
@[simp] theorem bedrock_enterHoldover : bedrock (enterHoldover p s) = bedrock s := by simp [enterHoldover]

/-! ### Detections -/

@[simp] theorem bedrock_fencePlaneUnit (u cause : Nat) : bedrock (fencePlaneUnit p u cause s) = bedrock s := by
  unfold fencePlaneUnit
  split <;> simp

/-! ### Plane memory -/

@[simp] theorem bedrock_endAfterUse (g chunk : Nat) : bedrock (endAfterUse p g chunk s) = bedrock s := by
  unfold endAfterUse
  split <;> simp
@[simp] theorem bedrock_afterUse (addr : Nat) : bedrock (afterUse p addr s) = bedrock s := by simp [afterUse]
@[simp] theorem bedrock_poisonGranule (addr : Nat) : bedrock (poisonGranule p addr s) = bedrock s := by simp [poisonGranule]
@[simp] theorem bedrock_countReads (addr n : Nat) : bedrock (countReads p addr n s) = bedrock s := by
  refine bedrock_foldl (fun t i => ?_) _ s
  split <;> simp
@[simp] theorem bedrock_modTgt (t : Nat) (f : Target → Target) : bedrock (modTgt p t f s) = bedrock s := by simp [modTgt]
@[simp] theorem bedrock_execCtrlRefresh (t : Fin 7) : bedrock (endState s (execCtrlRefresh p t s)) = bedrock s := by simp [execCtrlRefresh]
@[simp] theorem bedrock_fmcEffect (t off : Nat) (v : Word) : bedrock (fmcEffect p t off v s) = bedrock s := by simp [fmcEffect]

/-! ### Sync objects -/

@[simp] theorem bedrock_syncUpdate (rank i : Nat) (set : Bool) (v : Word) : bedrock (syncUpdate p rank i set v s) = bedrock s := by simp [syncUpdate]
@[simp] theorem bedrock_syncCommit : bedrock (syncCommit p s) = bedrock s := by simp [syncCommit]
@[simp] theorem bedrock_syncSop (i : Nat) (set : Bool) (v : Word) : bedrock (syncSop p i set v s) = bedrock s := by simp [syncSop]

/-! ### Writes -/

@[simp] theorem bedrock_reject (u off : Nat) (c : RejCode) : bedrock (reject u off c s) = bedrock s := by simp [reject]

/-! ### Cores: transfers and control -/

@[simp] theorem bedrock_dropOp (n : Nat) (o : CoreOp) : bedrock (dropOp p n o s) = bedrock s := by simp [dropOp]
@[simp] theorem bedrock_runSyncOp (e : Nat × CoreOp) : bedrock (runSyncOp p e s) = bedrock s := by simp [runSyncOp]
@[simp] theorem bedrock_flushSync : bedrock (flushSync p s) = bedrock s := by simp [flushSync]
@[simp] theorem bedrock_synEffect (off : Nat) (v : Word) : bedrock (synEffect p off v s) = bedrock s := by simp [synEffect]
@[simp] theorem bedrock_markWait (n : Nat) : bedrock (markWait p n s) = bedrock s := by
  simp only [markWait]
  repeat' split
  all_goals simp
@[simp] theorem bedrock_markWaits : bedrock (markWaits p s) = bedrock s := by simp [markWaits]
@[simp] theorem bedrock_endWait (n : Nat) (w : CoreWait) (cyc code value : Nat) :
    bedrock (endWait p n w cyc code value s) = bedrock s := by simp [endWait]
@[simp] theorem bedrock_execWaitRetire (n : CoreId) : bedrock (endState s (execWaitRetire p n s)) = bedrock s := by
  simp only [execWaitRetire]
  repeat' split
  all_goals simp
@[simp] theorem bedrock_execWaitTimeout (n : CoreId) : bedrock (endState s (execWaitTimeout p n s)) = bedrock s := by
  simp only [execWaitTimeout]
  repeat' split
  all_goals simp
@[simp] theorem bedrock_setXfer (n i : Nat) (x : Xfer) : bedrock (setXfer p n i x s) = bedrock s := by simp [setXfer]
@[simp] theorem bedrock_stealTurn (n turn : Nat) : bedrock (stealTurn p n turn s) = bedrock s := by simp [stealTurn]
@[simp] theorem bedrock_spTurn (n cyc : Nat) : bedrock ((spTurn p n cyc s).2) = bedrock s := by
  simp only [spTurn]
  repeat' split
  all_goals simp
@[simp] theorem bedrock_execMsgArrive (n : CoreId) (srcMod : Fin 65536) (srcCore : CoreId) (d : Payload) :
    bedrock (endState s (execMsgArrive p n srcMod srcCore d s)) = bedrock s := by simp [execMsgArrive]
@[simp] theorem bedrock_beginSave (n : Nat) : bedrock (beginSave p n s) = bedrock s := by simp [beginSave]
@[simp] theorem bedrock_followSave (n : Nat) : bedrock (followSave p n s) = bedrock s := by simp [followSave]
@[simp] theorem bedrock_restoreInbox (l : List Byte) (k i : Nat) : bedrock (restoreInbox l k i s).2 = bedrock s := by
  induction k generalizing i s with
  | zero => rfl
  | succ k ih => simp [restoreInbox, ih]
@[simp] theorem bedrock_restoreCore (c : Core) (l : List Byte) : bedrock ((restoreCore s p c l).2) = bedrock s := by
  simp [restoreCore]
@[simp] theorem bedrock_runCore (n : Nat) : bedrock (runCore p n s) = bedrock s := by simp [runCore]
@[simp] theorem bedrock_ccxEffect (n off : Nat) (v : Word) : bedrock (ccxEffect p n off v s) = bedrock s := by simp [ccxEffect]

/-! ### Chunks: closing, delivery and repair -/

@[simp] theorem bedrock_spoil (pos c midx : Nat) : bedrock (spoil p pos c midx s) = bedrock s := by simp [spoil]
@[simp] theorem bedrock_acceptCell (pos c midx no : Nat) (d : Payload) : bedrock (acceptCell p pos c midx no d s) = bedrock s := by
  simp only [acceptCell]
  repeat' split
  all_goals simp
@[simp] theorem bedrock_checkDigest (pos c midx digest : Nat) : bedrock ((checkDigest p pos c midx digest s).2) = bedrock s := by
  simp only [checkDigest]
  repeat' split
  all_goals simp
@[simp] theorem bedrock_nextNo (pos c src : Nat) : bedrock ((nextNo p pos c src s).2) = bedrock s := by
  unfold nextNo
  split <;> simp
@[simp] theorem bedrock_laneCell (pos c lane slot : Nat) (cell : Option Cell) : bedrock (laneCell p pos c lane slot cell s) = bedrock s := by
  simp only [laneCell]
  repeat' split
  all_goals simp
@[simp] theorem bedrock_feedCell (pos c f : Nat) (d : Option Payload) : bedrock (feedCell p pos c f d s) = bedrock s := by
  simp only [feedCell]
  repeat' split
  all_goals simp
@[simp] theorem bedrock_replayCell (pos c lane slot : Nat) (cell : Cell) : bedrock (replayCell p pos c lane slot cell s) = bedrock s := by
  simp only [replayCell]
  repeat' split
  all_goals simp
@[simp] theorem bedrock_tryLate (e : Nat × Nat × Nat × Nat × Nat × Payload) : bedrock (tryLate p s e) = bedrock s := by
  simp only [tryLate]
  repeat' split
  all_goals simp
@[simp] theorem bedrock_tryLates : bedrock (tryLates p s) = bedrock s := by simp [tryLates]
@[simp] theorem bedrock_overrun (pos : Nat) (ctxs : List Nat) : bedrock (overrun p pos ctxs s) = bedrock s := by simp [overrun]
@[simp] theorem bedrock_cutChunk (pos c : Nat) : bedrock (cutChunk p pos c s) = bedrock s := by
  simp only [cutChunk]
  repeat' split
  all_goals simp
@[simp] theorem bedrock_openByKey (b pos c : Nat) : bedrock (openByKey p b pos c s) = bedrock s := by
  simp only [openByKey]
  repeat' split
  all_goals simp
@[simp] theorem bedrock_strike (u src : Nat) : bedrock ((strike u src s).2) = bedrock s := by
  unfold strike
  split <;> simp
@[simp] theorem bedrock_execRecomputeStart (pos : SliceId) (c : Fin 16) (n : Nat) :
    bedrock (endState s (execRecomputeStart p pos c n s)) = bedrock s := by
  simp only [execRecomputeStart]
  repeat' split
  all_goals simp
@[simp] theorem bedrock_execRepairLimit (pos : SliceId) (c : Fin 16) (n : Nat) (d : CopyDst) :
    bedrock (endState s (execRepairLimit p pos c n d s)) = bedrock s := by
  simp only [execRepairLimit]
  repeat' split
  all_goals simp
@[simp] theorem bedrock_execSpareActivate (n : SliceId) : bedrock (endState s (execSpareActivate p n s)) = bedrock s := by simp [execSpareActivate]
@[simp] theorem bedrock_tmbEffect (n off : Nat) (v : Word) : bedrock (tmbEffect p n off v s) = bedrock s := by
  simp only [tmbEffect]
  repeat' split
  all_goals simp

/-! ### Ports -/

@[simp] theorem bedrock_modFab (f : Fabric → Fabric) : bedrock (modFab p f s) = bedrock s := by simp [modFab]
@[simp] theorem bedrock_modLink (n : Nat) (f : PortLink → PortLink) : bedrock (modLink p n f s) = bedrock s := by simp [modLink]
@[simp] theorem bedrock_modLane (n : Nat) (f : LaneLink → LaneLink) : bedrock (modLane p n f s) = bedrock s := by simp [modLane]
@[simp] theorem bedrock_queueCtl (lane : Nat) (m : CtlMsg) : bedrock (queueCtl p lane m s) = bedrock s := by simp [queueCtl]
@[simp] theorem bedrock_sendTime (n : PortId) (m : TsyncMsg) : bedrock (sendTime p n m s) = bedrock s := by simp [sendTime]

/-! ### Drains -/

@[simp] theorem bedrock_setRte (v : Nat) : bedrock (setRte p v s) = bedrock s := by simp [setRte]
@[simp] theorem bedrock_drainOutcome (e st : Nat) : bedrock (drainOutcome p e st s) = bedrock s := by simp [drainOutcome]
@[simp] theorem bedrock_drainSample : bedrock (drainSample p s) = bedrock s := by simp [drainSample]

/-! ### Routing -/

@[simp] theorem bedrock_countDiscard (why dest src : Nat) : bedrock (countDiscard p why dest src s) = bedrock s := by
  unfold countDiscard
  split <;> simp
@[simp] theorem bedrock_countIngress (why dest src : Nat) : bedrock (countIngress p why dest src s) = bedrock s := by simp [countIngress]
@[simp] theorem bedrock_returnOwed : bedrock (returnOwed p s) = bedrock s := by simp [returnOwed]
@[simp] theorem bedrock_enterIsolated : bedrock (enterIsolated p s) = bedrock s := by simp [enterIsolated]
@[simp] theorem bedrock_execHoldFt : bedrock (endState s (execHoldFt p s)) = bedrock s := by simp [execHoldFt]
@[simp] theorem bedrock_resumeRun : bedrock (resumeRun p s) = bedrock s := by simp [resumeRun]
@[simp] theorem bedrock_rteEffect (off : Nat) (v : Word) : bedrock (rteEffect p off v s) = bedrock s := by simp [rteEffect]

/-! ### The adaptive switch -/

@[simp] theorem bedrock_returnCredit (n v : Nat) : bedrock (returnCredit p n v s) = bedrock s := by simp [returnCredit]
@[simp] theorem bedrock_returnOpt (c : Option (Nat × Nat)) : bedrock (returnOpt p c s) = bedrock s := by
  unfold returnOpt
  split <;> simp
@[simp] theorem bedrock_modFrame (id : Nat) (f : Held → Held) : bedrock (modFrame p id f s) = bedrock s := by simp [modFrame]
@[simp] theorem bedrock_freeBuf (e : Nat × BufCell) : bedrock (freeBuf p s e) = bedrock s := by simp [freeBuf]
@[simp] theorem bedrock_tidyFrame (id : Nat) : bedrock (tidyFrame p id s) = bedrock s := by
  unfold tidyFrame
  split <;> simp
@[simp] theorem bedrock_truncateFrame (id : Nat) : bedrock (truncateFrame p id s) = bedrock s := by simp [truncateFrame]
@[simp] theorem bedrock_countTrunc : bedrock (countTrunc p s) = bedrock s := by simp [countTrunc]
@[simp] theorem bedrock_modQ (k : Nat) (f : QState → QState) : bedrock (modQ p k f s) = bedrock s := by simp [modQ]
@[simp] theorem bedrock_modP (n : Nat) (f : PState → PState) : bedrock (modP p n f s) = bedrock s := by simp [modP]
@[simp] theorem bedrock_setQueue (k : Nat) (l : List QCopy) : bedrock (setQueue p k l s) = bedrock s := by simp [setQueue]
@[simp] theorem bedrock_noteDepths : bedrock (noteDepths p s) = bedrock s := by simp [noteDepths]
@[simp] theorem bedrock_linkCopy (id dest k : Nat) : bedrock (linkCopy p id dest k s) = bedrock s := by
  unfold linkCopy
  split <;> simp
@[simp] theorem bedrock_colorFrame (n tc flen : Nat) : bedrock ((colorFrame p n tc flen s).2.2) = bedrock s := by
  simp only [colorFrame]
  repeat' split
  all_goals simp
@[simp] theorem bedrock_profileDrop (h : Held) (k : Nat) : bedrock ((profileDrop p h k s).2) = bedrock s := by
  simp only [profileDrop]
  repeat' split
  all_goals simp
@[simp] theorem bedrock_offerCopy (c : Cand) : bedrock (offerCopy p s c) = bedrock s := by
  simp only [offerCopy]
  repeat' split
  all_goals simp
@[simp] theorem bedrock_addCand (c : Cand) : bedrock (addCand p c s) = bedrock s := by simp [addCand]
@[simp] theorem bedrock_offerCands : bedrock (offerCands p s) = bedrock s := by simp [offerCands]
@[simp] theorem bedrock_setRob (n : Nat) (l : List RobStream) : bedrock (setRob p n l s) = bedrock s := by simp [setRob]
@[simp] theorem bedrock_modStream (n : Nat) (h : Held) (f : RobStream → RobStream) : bedrock (modStream p n h f s) = bedrock s := by simp [modStream]
@[simp] theorem bedrock_robRelease (n : Nat) (h : Held) : bedrock (robRelease p n h s) = bedrock s := by
  simp only [robRelease]
  repeat' split
  all_goals simp
@[simp] theorem bedrock_robDrain (n : Nat) (x : Held) (fuel : Nat) : bedrock (robDrain p n x fuel s) = bedrock s := by
  induction fuel generalizing s with
  | zero => rfl
  | succ fuel ih =>
    unfold robDrain
    split
    · rfl
    · split
      · rfl
      · rw [ih, bedrock_robRelease]
@[simp] theorem bedrock_countRob (f : RField) : bedrock (countRob p f s) = bedrock s := by simp [countRob]
@[simp] theorem bedrock_robForce (n : Nat) (h : Held) : bedrock (robForce p n h s) = bedrock s := by
  unfold robForce
  split <;> simp
@[simp] theorem bedrock_robRoom (n fuel : Nat) : bedrock (robRoom p n fuel s) = bedrock s := by
  induction fuel generalizing s with
  | zero => rfl
  | succ fuel ih =>
    unfold robRoom
    split
    · rfl
    · split
      · rfl
      · rw [ih, bedrock_robForce]
@[simp] theorem bedrock_robEnter (n id : Nat) : bedrock (robEnter p n id s) = bedrock s := by
  simp only [robEnter]
  repeat' split
  all_goals simp
@[simp] theorem bedrock_robMore (id : Nat) : bedrock (robMore p id s) = bedrock s := by
  unfold robMore
  split
  · simp
  · rfl
@[simp] theorem bedrock_execRobOpenExpire (n : PortId) : bedrock (endState s (execRobOpenExpire p n s)) = bedrock s := by
  refine bedrock_foldl (fun t r => ?_) _ s
  split
  · split <;> simp
  · rfl
@[simp] theorem bedrock_execRobWaitExpire (n : PortId) : bedrock (endState s (execRobWaitExpire p n s)) = bedrock s := by
  refine bedrock_foldl (fun t e => ?_) _ s
  split
  · split <;> simp
  · rfl
@[simp] theorem bedrock_execRobStreamClose (n : PortId) : bedrock (endState s (execRobStreamClose p n s)) = bedrock s := by simp [execRobStreamClose]
@[simp] theorem bedrock_addFrame (h : Held) : bedrock (addFrame p h s) = bedrock s := by simp [addFrame]
@[simp] theorem bedrock_writeCell (id : Nat) (c : Cell) (credit : Option (Nat × Nat)) : bedrock ((writeCell p id c credit s).2) = bedrock s := by
  simp only [writeCell]
  repeat' split
  all_goals simp
@[simp] theorem bedrock_handOver (id : Nat) : bedrock (handOver p id s) = bedrock s := by
  unfold handOver
  split <;> simp
@[simp] theorem bedrock_finishFrame (id : Nat) : bedrock (finishFrame p id s) = bedrock s := by
  simp only [finishFrame]
  repeat' split
  all_goals simp
@[simp] theorem bedrock_countMasked : bedrock (countMasked p s) = bedrock s := by simp [countMasked]
@[simp] theorem bedrock_placeCopy (h : Held) (dest : Nat) (r : Route) : bedrock (placeCopy p h dest r s) = bedrock s := by
  unfold placeCopy
  split <;> simp
@[simp] theorem bedrock_openAsm (n vc id flen : Nat) : bedrock (openAsm p n vc id flen s) = bedrock s := by simp [openAsm]
@[simp] theorem bedrock_dropAsm (n vc id : Nat) : bedrock (dropAsm p n vc id s) = bedrock s := by simp [dropAsm]
@[simp] theorem bedrock_admitHead (n : Nat) (c : Cell) (h : Held) : bedrock (admitHead p n c h s) = bedrock s := by
  simp only [admitHead]
  repeat' split
  all_goals simp
@[simp] theorem bedrock_takeRest (n : Nat) (c : Cell) : bedrock (takeRest p n c s) = bedrock s := by
  unfold takeRest
  split <;> simp
@[simp] theorem bedrock_robClone (h : Held) (n dest : Nat) : bedrock (robClone p h n dest s) = bedrock s := by simp [robClone]
@[simp] theorem bedrock_unitCopy (h : Held) (many : Bool) (dest : Nat) : bedrock (unitCopy p h many s dest) = bedrock s := by
  simp only [unitCopy]
  repeat' split
  all_goals simp
@[simp] theorem bedrock_dropUnitFrame (f : UnitFrame) : bedrock (dropUnitFrame p f s) = bedrock s := by simp [dropUnitFrame]
@[simp] theorem bedrock_execUnitFrameAdmit (u : Nat) : bedrock (endState s (execUnitFrameAdmit p u s)) = bedrock s := by
  simp only [execUnitFrameAdmit]
  repeat' split
  all_goals simp
@[simp] theorem bedrock_pickRound (n fuel : Nat) : bedrock (pickRound p n fuel s).2 = bedrock s := by
  induction fuel generalizing s with
  | zero => rfl
  | succ fuel ih =>
    simp only [pickRound]
    split
    · dsimp only
      split <;> simp
    · simp [ih]
@[simp] theorem bedrock_pickQueue (n : Nat) : bedrock ((pickQueue p n s).2) = bedrock s := by
  unfold pickQueue
  split
  · rfl
  · split
    · rfl
    · simp
@[simp] theorem bedrock_setAvail (n v : Nat) : bedrock (setAvail p n v s) = bedrock s := by simp [setAvail]
@[simp] theorem bedrock_popCell (n q : Nat) : bedrock ((popCell p n q s).2) = bedrock s := by
  simp only [popCell]
  repeat' split
  all_goals simp
@[simp] theorem bedrock_pickCell (n : Nat) : bedrock ((pickCell p n s).2) = bedrock s := by
  simp only [pickCell]
  repeat' split
  all_goals simp
@[simp] theorem bedrock_moveCopy (k : Nat) (acc : SMap (List QCopy) × State) (c : QCopy) : bedrock ((moveCopy p k acc c).2) = bedrock acc.2 := by
  simp only [moveCopy]
  repeat' split
  all_goals simp
@[simp] theorem bedrock_leaveSet (n : Nat) : bedrock (leaveSet p n s) = bedrock s := by
  have hmoves : ∀ (t : State) (k : Nat) (l : List QCopy),
      bedrock (l.foldl (moveCopy p k) (([] : SMap (List QCopy)), t)).2 = bedrock t := fun t k l =>
    List.foldlRecOn (motive := fun r : SMap (List QCopy) × State => bedrock r.2 = bedrock t) _ _ rfl fun r hr c _ => (bedrock_moveCopy p k r c).trans hr
  unfold leaveSet
  split
  · rfl
  · refine (bedrock_foldl (fun t q => ?_) _ _).trans (by simp)
    exact (bedrock_foldl (fun t e => by simp) _ _).trans (hmoves _ _ _)
@[simp] theorem bedrock_drainFenced (n : Nat) : bedrock (drainFenced p n s) = bedrock s := by
  unfold drainFenced
  split
  · rfl
  · refine bedrock_foldl (fun t q => ?_) _ s
    split <;> simp
@[simp] theorem bedrock_dropPartial : bedrock (dropPartial p s) = bedrock s := by simp [dropPartial]
@[simp] theorem bedrock_tidyPorts : bedrock (tidyPorts p s) = bedrock s := by simp [tidyPorts]
@[simp] theorem bedrock_execCopyAgeExpire (k : Fin 1024) : bedrock (endState s (execCopyAgeExpire p k s)) = bedrock s := by simp [execCopyAgeExpire]
@[simp] theorem bedrock_execAuditVisit : bedrock (endState s (execAuditVisit p s)) = bedrock s := by
  simp only [execAuditVisit]
  repeat' split
  all_goals simp
@[simp] theorem bedrock_swcEffect (off : Nat) (v : Word) : bedrock (swcEffect p off v s) = bedrock s := by simp [swcEffect]
@[simp] theorem bedrock_qshEffect (off : Nat) (v : Word) : bedrock (qshEffect p off v s) = bedrock s := by
  unfold qshEffect
  split <;> simp
@[simp] theorem bedrock_polEffect (off : Nat) (v : Word) : bedrock (polEffect p off v s) = bedrock s := by simp [polEffect]

/-! ### Fabric time -/

@[simp] theorem bedrock_modFtm (f : Ftm → Ftm) : bedrock (modFtm s p f) = bedrock s := by simp [modFtm]
@[simp] theorem bedrock_setFtmState (st : Nat) : bedrock (setFtmState p st s) = bedrock s := by simp [setFtmState]
@[simp] theorem bedrock_rebaseSwitch (v : Nat) : bedrock (rebaseSwitch p v s) = bedrock s := by simp [rebaseSwitch]
@[simp] theorem bedrock_loadFt (v : Nat) : bedrock (loadFt p v s) = bedrock s := by simp [loadFt]
@[simp] theorem bedrock_useSource (src : Option TimeSource) : bedrock (useSource p src s) = bedrock s := by
  unfold useSource
  split <;> simp
@[simp] theorem bedrock_sourceFound (src : Option TimeSource) : bedrock (sourceFound p src s) = bedrock s := by
  unfold sourceFound
  split <;> simp
@[simp] theorem bedrock_takeOffset (offset : Int) : bedrock (takeOffset p offset s) = bedrock s := by simp [takeOffset]
@[simp] theorem bedrock_seedLoad (sub : Nat) : bedrock (seedLoad h sub p s) = bedrock s := by
  simp only [seedLoad]
  repeat' split
  all_goals simp
@[simp] theorem bedrock_execPpsEdge (high : Nat) (sub : Fin 64) : bedrock (endState s (execPpsEdge h high sub s)) = bedrock s := by simp [execPpsEdge]
@[simp] theorem bedrock_execPpsLoss : bedrock (endState s (execPpsLoss h s)) = bedrock s := by
  unfold execPpsLoss
  split <;> simp
@[simp] theorem bedrock_ptpLoad (now : Int) : bedrock (ptpLoad h now p s) = bedrock s := by
  simp only [ptpLoad]
  repeat' split
  all_goals simp
@[simp] theorem bedrock_execFreqLock : bedrock (endState s (execFreqLock p s)) = bedrock s := by simp [execFreqLock]
@[simp] theorem bedrock_execTsyncSend (sub : Fin 64) : bedrock (endState s (execTsyncSend p sub s)) = bedrock s := by simp [execTsyncSend]
@[simp] theorem bedrock_useExchange (u : Upstream) (t4 : Nat) (asym : Int) : bedrock (useExchange p u t4 asym s) = bedrock s := by simp [useExchange]
@[simp] theorem bedrock_takeDepth (src : TimeSource) (depth : Nat) : bedrock (takeDepth p src depth s) = bedrock s := by simp [takeDepth]
@[simp] theorem bedrock_echoIn (src : TimeSource) (msg : TsyncMsg) (now : Nat) : bedrock (echoIn p src msg now s) = bedrock s := by simp [echoIn]
@[simp] theorem bedrock_execTsyncEchoReceive (src : TimeSource) (msg : TsyncMsg) (sub : Fin 64) :
    bedrock (endState s (execTsyncEchoReceive p src msg sub s)) = bedrock s := by simp [execTsyncEchoReceive]
@[simp] theorem bedrock_echoLeft (n : PortId) (t : Nat) : bedrock (echoLeft p n t s) = bedrock s := by simp [echoLeft]
@[simp] theorem bedrock_execPhaseStep : bedrock (endState s (execPhaseStep p s)) = bedrock s := by simp [execPhaseStep]
@[simp] theorem bedrock_execPpsOutRise : bedrock (endState s (execPpsOutRise s)) = bedrock s := by
  unfold execPpsOutRise
  split <;> simp
@[simp] theorem bedrock_execPpsOutFall : bedrock (endState s (execPpsOutFall s)) = bedrock s := by
  unfold execPpsOutFall
  split <;> simp

/-! ### Link units -/

@[simp] theorem bedrock_setActive (n : Nat) (l : List Nat) : bedrock (setActive p n l s) = bedrock s := by simp [setActive]
@[simp] theorem bedrock_setPort (n st : Nat) : bedrock (setPort p n st s) = bedrock s := by simp [setPort]
@[simp] theorem bedrock_dropCredits (n : Nat) : bedrock (dropCredits p n s) = bedrock s := by simp [dropCredits]
@[simp] theorem bedrock_dropLink (n : Nat) : bedrock (dropLink p n s) = bedrock s := by simp [dropLink]
@[simp] theorem bedrock_trainLane (lane : Nat) : bedrock (trainLane p lane s) = bedrock s := by simp [trainLane]
@[simp] theorem bedrock_sendNarrow (n : Nat) (bad : List Nat) : bedrock (sendNarrow p n bad s) = bedrock s := by simp [sendNarrow]
@[simp] theorem bedrock_execNarrowAck (_p : PlaneId) (_lane : PortId) (_mask : Fin 16) (_t : Dword) :
    bedrock (endState s (execNarrowAck _p _lane _mask _t s)) = bedrock s := by simp [execNarrowAck]
@[simp] theorem bedrock_probeIn (lane dep : Nat) : bedrock (probeIn p lane dep s) = bedrock s := by
  unfold probeIn
  split <;> simp
@[simp] theorem bedrock_execRttProbe (lane : PortId) (dep : Dword) :
    bedrock (endState s (execRttProbe p lane dep s)) = bedrock s := by simp [execRttProbe]
@[simp] theorem bedrock_rttIn (lane dep now : Nat) : bedrock (rttIn p lane dep now s) = bedrock s := by
  unfold rttIn
  split <;> simp
@[simp] theorem bedrock_execRttEcho (lane : PortId) (dep : Dword) (sub : Fin 64) :
    bedrock (endState s (execRttEcho p lane dep sub s)) = bedrock s := by simp [execRttEcho]

/-! ### Injected faults -/

@[simp] theorem bedrock_tmbReact (n src : Nat) (cls : FaultClass) (wh detail : Nat) : bedrock (tmbReact p n src cls wh detail s) = bedrock s := by
  simp only [tmbReact]
  repeat' split
  all_goals simp
@[simp] theorem bedrock_corruptNext (u src : Nat) (b : Blk) (cls : FaultClass) (word : Option Nat) :
    bedrock (corruptNext u src b cls word s) = bedrock s := by simp [corruptNext]

/-! ### Keys -/

@[simp] theorem bedrock_setKeyStart (b t : Nat) : bedrock (setKeyStart p b t s) = bedrock s := by simp [setKeyStart]
@[simp] theorem bedrock_keyLatchStrike (e t : Nat) : bedrock (keyLatchStrike p e t s) = bedrock s := by
  unfold keyLatchStrike
  split <;> simp
@[simp] theorem bedrock_keyLatchEnd (e st : Nat) : bedrock (keyLatchEnd p e st s) = bedrock s := by
  unfold keyLatchEnd
  split <;> simp

/-! ### Key loads -/

@[simp] theorem bedrock_applyRedirects (b : Nat) : bedrock (applyRedirects p b s) = bedrock s := by simp [applyRedirects]
@[simp] theorem bedrock_openWindow (b : Nat) : bedrock (openWindow p b s) = bedrock s := by
  simp only [openWindow]
  repeat' split
  all_goals simp
@[simp] theorem bedrock_armBank (b : Nat) (resume : Bool) : bedrock (armBank p b resume s) = bedrock s := by
  simp only [armBank]
  repeat' split
  all_goals simp
@[simp] theorem bedrock_ksqEffect (off : Nat) (v : Word) : bedrock (ksqEffect p off v s) = bedrock s := by
  simp only [ksqEffect]
  split
  · rfl
  · split
    case h_4 => split <;> simp
    all_goals simp

/-! ### MSI-X -/

@[simp] theorem bedrock_sendMsix (vec : Nat) : bedrock (sendMsix h vec s) = bedrock s := by simp [sendMsix]
@[simp] theorem bedrock_flushMsix : bedrock (flushMsix h s) = bedrock s := by simp [flushMsix]
@[simp] theorem bedrock_requestAt (src : Nat) : bedrock (requestAt h src s) = bedrock s := by
  simp only [requestAt]
  repeat' split
  all_goals simp
@[simp] theorem bedrock_requestRises (src : Nat) : bedrock (requestRises src s) = bedrock s := by simp [requestRises]

/-! ### Host ports -/

@[simp] theorem bedrock_setHolder (v : Nat) : bedrock (setHolder v s) = bedrock s := by simp [setHolder]
@[simp] theorem bedrock_setDeadline : bedrock (setDeadline h s) = bedrock s := by simp [setDeadline]
@[simp] theorem bedrock_endLease : bedrock (endLease h s) = bedrock s := by simp [endLease]
@[simp] theorem bedrock_lapseLease : bedrock (lapseLease s) = bedrock s := by simp [lapseLease]
@[simp] theorem bedrock_execLeaseExpire : bedrock (endState s (execLeaseExpire s)) = bedrock s := by simp [execLeaseExpire]
@[simp] theorem bedrock_execLeaseLow : bedrock (endState s (execLeaseLow s)) = bedrock s := by simp [execLeaseLow]
@[simp] theorem bedrock_turnAwayB : bedrock (turnAwayB s) = bedrock s := by simp [turnAwayB]
@[simp] theorem bedrock_grantLease (x : HubId) : bedrock (grantLease x s) = bedrock s := by simp [grantLease]
@[simp] theorem bedrock_pciEffect (acc : Accessor) (off : Nat) (v : Word) : bedrock (pciEffect acc off v s) = bedrock s := by
  simp only [pciEffect]
  repeat' split
  all_goals simp
@[simp] theorem bedrock_portReset : bedrock (portReset h s) = bedrock s := by simp [portReset]
@[simp] theorem bedrock_execPerst (beats : Nat) : bedrock (endState s (execPerst h beats s)) = bedrock s := by simp [execPerst]
@[simp] theorem bedrock_execPerstRelease (beats : Nat) : bedrock (endState s (execPerstRelease h beats s)) = bedrock s := by simp [execPerstRelease]
@[simp] theorem bedrock_execFlr : bedrock (endState s (execFlr h s)) = bedrock s := by simp [execFlr]
@[simp] theorem bedrock_execPcieLinkDown : bedrock (endState s (execPcieLinkDown h s)) = bedrock s := by simp [execPcieLinkDown]
@[simp] theorem bedrock_execPcieLinkUp (rate : Fin 7) (width : Fin 9) :
    bedrock (endState s (execPcieLinkUp h rate width s)) = bedrock s := by simp [execPcieLinkUp]
@[simp] theorem bedrock_setBme (on : Bool) : bedrock (setBme h on s) = bedrock s := by simp [setBme]
@[simp] theorem bedrock_execConfigurationRequest (w : CfgWrite) : bedrock (endState s (execConfigurationRequest h w s)) = bedrock s := by
  unfold execConfigurationRequest
  split <;> simp
@[simp] theorem bedrock_qpError (q : Nat) : bedrock (qpError h q s) = bedrock s := by simp [qpError]
@[simp] theorem bedrock_roceNak (q kind psn : Nat) : bedrock (roceNak h q kind psn s) = bedrock s := by simp [roceNak]
@[simp] theorem bedrock_readPackets (q fuel psn : Nat) (d : List Byte) : bedrock (readPackets h q fuel psn d s) = bedrock s := by
  induction fuel generalizing psn d s with
  | zero => rfl
  | succ fuel ih =>
    unfold readPackets
    split
    · rfl
    · rw [ih, bedrock_emit]
@[simp] theorem bedrock_finishRdma (a : HostAccess) : bedrock (finishRdma h a s) = bedrock s := by
  simp only [finishRdma, bedrock_ite]
  split
  · simp
  · split <;> simp
@[simp] theorem bedrock_finishAccess (a : HostAccess) : bedrock (finishAccess a s) = bedrock s := by
  unfold finishAccess
  split <;> simp
@[simp] theorem bedrock_bar2Refuse (write : Bool) (tag addr : Nat) : bedrock (bar2Refuse h write tag addr s) = bedrock s := by simp [bar2Refuse]
@[simp] theorem bedrock_linkRequest : bedrock (linkRequest h p s) = bedrock s := by simp [linkRequest]

/-! ### The service port -/

@[simp] theorem bedrock_execSvcFrameReceive (f : SvcFrame) : bedrock (endState s (execSvcFrameReceive h f s)) = bedrock s := by
  unfold execSvcFrameReceive
  split <;> simp
@[simp] theorem bedrock_execServiceLinkChange (up : Bool) :
    bedrock (endState s (execServiceLinkChange h up s)) = bedrock s := by simp [execServiceLinkChange]
@[simp] theorem bedrock_svcEffect (off : Nat) (v : Word) : bedrock (svcEffect h off v s) = bedrock s := by simp [svcEffect]

/-! ### Key slots -/

@[simp] theorem bedrock_dropPaused (b : Nat) : bedrock (dropPaused p b s) = bedrock s := by simp [dropPaused]
@[simp] theorem bedrock_execKeySwapLate : bedrock (endState s (execKeySwapLate p s)) = bedrock s := by
  unfold execKeySwapLate
  split <;> simp
@[simp] theorem bedrock_setPtr (b i : Nat) (f : StreamPtr → StreamPtr) : bedrock (setPtr p b i f s) = bedrock s := by simp [setPtr]
@[simp] theorem bedrock_takeUnits (t n : Nat) : bedrock ((takeUnits p t n s).2) = bedrock s := by
  simp only [takeUnits]
  repeat' split
  all_goals simp
@[simp] theorem bedrock_markStage (a : Nat) (bad poison : Bool) : bedrock (markStage p a bad poison s) = bedrock s := by simp [markStage]
theorem bedrock_repeatN {f : State → State} (hf : ∀ t, bedrock (f t) = bedrock t) (n : Nat) : bedrock (repeatN n f s) = bedrock s := by
  induction n generalizing s with
  | zero => rfl
  | succ n ih => rw [repeatN, ih, hf]
@[simp] theorem bedrock_refreshRound (t : Nat) : bedrock (refreshRound p t s) = bedrock s := by simp [refreshRound]
@[simp] theorem bedrock_sdrop (lane : Nat) : bedrock (sdrop p lane s) = bedrock s := by simp [sdrop]
@[simp] theorem bedrock_sendLane (lane : Nat) (c : Cell) (pend : Bool) (fwd : Nat) :
    bedrock (sendLane p lane c pend fwd s) = bedrock s := by simp [sendLane]
@[simp] theorem bedrock_laneFwd (d : Payload) (held : List (Nat × Option Cell)) (lane : Nat) : bedrock (laneFwd p d held s lane) = bedrock s := by
  simp only [laneFwd]
  repeat' split
  all_goals simp
@[simp] theorem bedrock_sendResult (r : ResStream) (lane : Nat) : bedrock (sendResult p r lane s) = bedrock s := by
  simp only [sendResult]
  repeat' split
  all_goals simp
@[simp] theorem bedrock_laneSeal (pos lane : Nat) : bedrock (laneSeal p pos lane s) = bedrock s := by
  simp only [laneSeal]
  repeat' split
  all_goals simp
@[simp] theorem bedrock_firstTops (b : Nat) (tops : List Nat) : bedrock (firstTops p b tops s) = bedrock s := by simp [firstTops]
@[simp] theorem bedrock_lastTops (tops : List Nat) : bedrock (lastTops p tops s) = bedrock s := by simp [lastTops]
@[simp] theorem bedrock_runContrib (tops dead : List Nat) (contrib : List (Nat × Nat × Option Cell)) :
    bedrock (runContrib p tops dead contrib s) = bedrock s := by simp [runContrib]
@[simp] theorem bedrock_tdSlot (l : List Nat) : bedrock (tdSlot p l s) = bedrock s := by simp [tdSlot]

/-! ### Links -/

@[simp] theorem bedrock_hdrDrop (lane : Nat) : bedrock (hdrDrop p lane s) = bedrock s := by simp [hdrDrop]
@[simp] theorem bedrock_presentNone (lane slot : Nat) : bedrock (presentNone p lane slot s) = bedrock s := by simp [presentNone]
@[simp] theorem bedrock_presentCell (lane slot : Nat) (c : Cell) : bedrock (presentCell p lane slot c s) = bedrock s := by simp [presentCell]
@[simp] theorem bedrock_acceptAdaptive (n lane : Nat) (c : Cell) : bedrock (acceptAdaptive p n lane c s) = bedrock s := by simp [acceptAdaptive]
@[simp] theorem bedrock_releaseAside (n : Nat) : bedrock (releaseAside p n s) = bedrock s := by simp [releaseAside]
@[simp] theorem bedrock_adaptiveNew (n lane seq : Nat) (c : Cell) : bedrock (adaptiveNew p n lane seq c s) = bedrock s := by simp [adaptiveNew]
@[simp] theorem bedrock_adaptiveReplay (n lane seq : Nat) (c : Cell) :
    bedrock (adaptiveReplay p n lane seq c s) = bedrock s := by simp [adaptiveReplay]
@[simp] theorem bedrock_fillForward (lane slot : Nat) (c : Cell) : bedrock (fillForward p lane slot c s) = bedrock s := by simp [fillForward]
@[simp] theorem bedrock_unitLost (n lane : Nat) : bedrock (unitLost p n lane s) = bedrock s := by
  unfold unitLost
  split <;> simp
@[simp] theorem bedrock_sendNew (n lane : Nat) (c : Cell) (pend : Bool) (fwd : Nat) :
    bedrock ((sendNew p n lane c pend fwd s).2) = bedrock s := by simp [sendNew]
@[simp] theorem bedrock_nextReplay (n lane : Nat) (l : List Nat) : bedrock (nextReplay p n lane l s).2 = bedrock s := by
  induction l generalizing s with
  | nil => rfl
  | cons q rest ih =>
    simp only [nextReplay]
    split
    · rw [ih, bedrock_modLink]
    · split
      · exact ih s
      · simp
@[simp] theorem bedrock_popRepair (n : Nat) (r : RepairRef) : bedrock (popRepair p n r s) = bedrock s := by simp [popRepair]
@[simp] theorem bedrock_nextAdaptive (n lane : Nat) : bedrock ((nextAdaptive p n lane s).2) = bedrock s := by
  simp only [nextAdaptive]
  repeat' split
  all_goals simp
@[simp] theorem bedrock_startCtl (n lane t : Nat) : bedrock (startCtl p n lane t s) = bedrock s := by
  unfold startCtl
  split <;> simp

/-! ### Domains -/

@[simp] theorem bedrock_setDom (f : RField) (d : Nat) (on : Bool) : bedrock (setDom f d on s) = bedrock s := by simp [setDom]
@[simp] theorem bedrock_resetUnit (fence : Bool) (u : Nat) : bedrock (resetUnit fence s u) = bedrock s := by simp [resetUnit]
@[simp] theorem bedrock_dropDomain (d : Nat) : bedrock (dropDomain d s) = bedrock s := by simp [dropDomain]
@[simp] theorem bedrock_linksDown : bedrock (linksDown p s) = bedrock s := by simp [linksDown]
@[simp] theorem bedrock_mapChanged : bedrock (mapChanged p s) = bedrock s := by simp [mapChanged]
@[simp] theorem bedrock_resetHubState (fence : Bool) : bedrock (resetHubState fence h s) = bedrock s := by simp [resetHubState]
@[simp] theorem bedrock_aliveStart : bedrock (aliveStart h s) = bedrock s := by simp [aliveStart]
@[simp] theorem bedrock_resetHub : bedrock (resetHub h s) = bedrock s := by simp [resetHub]
@[simp] theorem bedrock_liftHub : bedrock (liftHub h s) = bedrock s := by simp [liftHub]

/-! ### Memory partitions -/

@[simp] theorem bedrock_spmEffect (off : Nat) (v : Word) : bedrock (spmEffect p off v s) = bedrock s := by simp [spmEffect]
@[simp] theorem bedrock_plnEffect (off : Nat) (v : Word) : bedrock (plnEffect p off v s) = bedrock s := by simp [plnEffect]
@[simp] theorem bedrock_execClkchgEnter : bedrock (endState s (execClkchgEnter p s)) = bedrock s := by
  unfold execClkchgEnter
  split <;> simp
@[simp] theorem bedrock_returnWithheld : bedrock (returnWithheld p s) = bedrock s := by simp [returnWithheld]
@[simp] theorem bedrock_execRelockDone : bedrock (endState s (execRelockDone p s)) = bedrock s := by simp [execRelockDone]

/-! ### Groups -/

@[simp] theorem bedrock_modGrp (g : Nat) (f : Group → Group) : bedrock (modGrp p g f s) = bedrock s := by simp [modGrp]
@[simp] theorem bedrock_sendGroups (eps : List Nat) (d : Payload) : bedrock (sendGroups p eps d s) = bedrock s := by simp [sendGroups]
@[simp] theorem bedrock_sendGroup (ep : Nat) (d : Payload) : bedrock (sendGroup p ep d s) = bedrock s := by simp [sendGroup]
@[simp] theorem bedrock_discardGroup : bedrock (discardGroup p s) = bedrock s := by simp [discardGroup]
@[simp] theorem bedrock_sendOpen (g cseq : Nat) (desc : List Byte) : bedrock (sendOpen p g cseq desc s) = bedrock s := by simp [sendOpen]
@[simp] theorem bedrock_releaseBarrier (g cseq : Nat) (desc rec' : List Byte) :
    bedrock (releaseBarrier p g cseq desc rec' s) = bedrock s := by simp [releaseBarrier]
@[simp] theorem bedrock_commitGrp (keep : Bool) : bedrock (commitGrp p keep s) = bedrock s := by simp [commitGrp]
@[simp] theorem bedrock_retryCommit (g : Nat) : bedrock (retryCommit p g s) = bedrock s := by
  unfold retryCommit
  split <;> simp
@[simp] theorem bedrock_execMismatchReport (d : Payload) : bedrock (endState s (execMismatchReport p d s)) = bedrock s := by simp [execMismatchReport]
@[simp] theorem bedrock_execBarrierArrive (d : Payload) : bedrock (endState s (execBarrierArrive p d s)) = bedrock s := by
  simp only [execBarrierArrive]
  repeat' split
  all_goals simp
@[simp] theorem bedrock_execCollectiveTmo (g : Fin 1024) (cseq : Fin 65536) : bedrock (endState s (execCollectiveTmo p g cseq s)) = bedrock s := by
  simp only [execCollectiveTmo]
  repeat' split
  all_goals simp
@[simp] theorem bedrock_loadStaging (g : Nat) : bedrock (loadStaging p g s) = bedrock s := by simp [loadStaging]
@[simp] theorem bedrock_grqEffect (off : Nat) (v : Word) : bedrock (grqEffect p off v s) = bedrock s := by simp [grqEffect]

/-! ### Mailboxes -/

@[simp] theorem bedrock_setChan (c : Fin 256) (x : Channel) : bedrock (setChan s c x) = bedrock s := by simp [setChan]
@[simp] theorem bedrock_chDeliver (agent : Nat) (c : Fin 256) : bedrock (chDeliver agent c s) = bedrock s := by simp [chDeliver]
@[simp] theorem bedrock_updChan (c : Fin 256) (x : Channel) : bedrock (updChan c x s) = bedrock s := by simp [updChan]
@[simp] theorem bedrock_chSet (c : Fin 256) (irq : BitVec 3) (db : Word) (x : Channel) : bedrock (chSet c irq db x s) = bedrock s := by simp [chSet]
@[simp] theorem bedrock_chSend (c : Fin 256) : bedrock (chSend c s) = bedrock s := by simp [chSend]
@[simp] theorem bedrock_chPop (c : Fin 256) : bedrock (chPop c s) = bedrock s := by simp [chPop]
@[simp] theorem bedrock_chEffect (acc : Accessor) (c : Fin 256) (off : Nat) (v : Word) :
    bedrock (chEffect acc c off v s) = bedrock s := by simp [chEffect]
@[simp] theorem bedrock_chRefuseFull (acc : Accessor) (c : Fin 256) : bedrock (chRefuseFull acc c s) = bedrock s := by
  unfold chRefuseFull
  split <;> simp
@[simp] theorem bedrock_chWrite (acc : Accessor) (c : Fin 256) (off : Nat) (be : BitVec 4) (v : Word) :
    bedrock (chWrite acc c off be v s) = bedrock s := by
  simp only [chWrite]
  repeat' split
  all_goals simp
@[simp] theorem bedrock_execChGo (acc : Accessor) (c : Fin 256) : bedrock (endState s (execChGo acc c s)) = bedrock s := by simp [execChGo]
@[simp] theorem bedrock_execChPop (acc : Accessor) (c : Fin 256) : bedrock (endState s (execChPop acc c s)) = bedrock s := by simp [execChPop]
@[simp] theorem bedrock_execChDbSet (acc : Accessor) (c : Fin 256) (v : Word) :
    bedrock (endState s (execChDbSet acc c v s)) = bedrock s := by simp [execChDbSet]
@[simp] theorem bedrock_execChDbPend (acc : Accessor) (c : Fin 256) (v : Word) :
    bedrock (endState s (execChDbPend acc c v s)) = bedrock s := by simp [execChDbPend]
@[simp] theorem bedrock_execMbxVisible (c : Fin 256) : bedrock (endState s (execMbxVisible c s)) = bedrock s := by
  simp only [execMbxVisible]
  repeat' split
  all_goals simp
@[simp] theorem bedrock_loseChannels : bedrock (loseChannels h s) = bedrock s := by simp [loseChannels]

/-! ### Flags -/

@[simp] theorem bedrock_latchWas (was : Bool) (u : Nat) : bedrock (latchWas was u s) = bedrock s := by simp [latchWas]
@[simp] theorem bedrock_latchIrq (u : Nat) : bedrock (latchIrq u s) = bedrock s := by simp [latchIrq]
@[simp] theorem bedrock_latchUnits (l : List Nat) : bedrock (latchUnits l s) = bedrock s := by simp [latchUnits]

/-! ### Latch entries -/

@[simp] theorem bedrock_modLatch (e : Nat) (f : LatchEntry → LatchEntry) : bedrock (modLatch p e f s) = bedrock s := by simp [modLatch]
@[simp] theorem bedrock_sendLatches (e type : Nat) (dsts : List Nat) (ft : Nat) :
    bedrock (sendLatches p e type dsts ft s) = bedrock s := by simp [sendLatches]
@[simp] theorem bedrock_sendLatch (e type dst ft : Nat) : bedrock (sendLatch p e type dst ft s) = bedrock s := by simp [sendLatch]
@[simp] theorem bedrock_entEnd (e st : Nat) : bedrock (entEnd p e st s) = bedrock s := by simp [entEnd]
@[simp] theorem bedrock_abortCounted (e : Nat) : bedrock (abortCounted p e s) = bedrock s := by simp [abortCounted]
@[simp] theorem bedrock_entTimeout (e : Nat) : bedrock (entTimeout p e s) = bedrock s := by simp [entTimeout]
@[simp] theorem bedrock_entLapse (e : Nat) : bedrock (entLapse p e s) = bedrock s := by simp [entLapse]
@[simp] theorem bedrock_entStruck (e t : Nat) : bedrock (entStruck p e t s) = bedrock s := by simp [entStruck]
@[simp] theorem bedrock_strikeFix (e : Nat) : bedrock (strikeFix p e s) = bedrock s := by simp [strikeFix]
@[simp] theorem bedrock_countArrival (e pidx mod : Nat) : bedrock (countArrival p e pidx mod s) = bedrock s := by simp [countArrival]
@[simp] theorem bedrock_localArrive (e : Nat) : bedrock (localArrive p e s) = bedrock s := by simp [localArrive]
@[simp] theorem bedrock_entArm (e : Nat) : bedrock (entArm p e s) = bedrock s := by simp [entArm]
@[simp] theorem bedrock_abortEntry (e : Nat) : bedrock (abortEntry p e s) = bedrock s := by simp [abortEntry]
@[simp] theorem bedrock_discardLatch : bedrock (discardLatch p s) = bedrock s := by simp [discardLatch]
@[simp] theorem bedrock_latchArrive (m : LatchMsg) : bedrock (latchArrive p m s) = bedrock s := by
  unfold latchArrive
  split <;> simp
@[simp] theorem bedrock_latchStrike (m : LatchMsg) : bedrock (latchStrike p m s) = bedrock s := by simp [latchStrike]
@[simp] theorem bedrock_latchAbort (m : LatchMsg) : bedrock (latchAbort p m s) = bedrock s := by simp [latchAbort]
@[simp] theorem bedrock_latchMissed (m : LatchMsg) : bedrock (latchMissed p m s) = bedrock s := by simp [latchMissed]
@[simp] theorem bedrock_latchMessage (m : LatchMsg) : bedrock (latchMessage p m s) = bedrock s := by
  simp only [latchMessage]
  repeat' split
  all_goals simp
theorem bedrock_latchTyped {f : LatchMsg → State → State} (hf : ∀ m t, bedrock (f m t) = bedrock t) (type : Nat) (d : Payload) :
    bedrock (latchTyped p type f d s) = bedrock s := by
  simp only [latchTyped]
  split
  · rw [hf]
    split <;> simp
  · split <;> simp
@[simp] theorem bedrock_execLatchArriveMsg (d : Payload) : bedrock (endState s (execLatchArriveMsg p d s)) = bedrock s :=
  bedrock_latchTyped p s (fun m t => bedrock_latchArrive p t m) _ d
@[simp] theorem bedrock_execLatchStrikeMsg (d : Payload) : bedrock (endState s (execLatchStrikeMsg p d s)) = bedrock s :=
  bedrock_latchTyped p s (fun m t => bedrock_latchStrike p t m) _ d
@[simp] theorem bedrock_execLatchAbortMsg (d : Payload) : bedrock (endState s (execLatchAbortMsg p d s)) = bedrock s :=
  bedrock_latchTyped p s (fun m t => bedrock_latchAbort p t m) _ d
@[simp] theorem bedrock_execLatchMissedMsg (d : Payload) : bedrock (endState s (execLatchMissedMsg p d s)) = bedrock s :=
  bedrock_latchTyped p s (fun m t => bedrock_latchMissed p t m) _ d
@[simp] theorem bedrock_execLatchArriveResend (e : Fin 64) :
    bedrock (endState s (execLatchArriveResend p e s)) = bedrock s := by simp [execLatchArriveResend]
@[simp] theorem bedrock_execLatchRelease (e : Fin 64) : bedrock (endState s (execLatchRelease p e s)) = bedrock s := by simp [execLatchRelease]
@[simp] theorem bedrock_execLatchTimeout (e : Fin 64) : bedrock (endState s (execLatchTimeout p e s)) = bedrock s := by simp [execLatchTimeout]
@[simp] theorem bedrock_latEffect (off : Nat) (v : Word) : bedrock (latEffect p off v s) = bedrock s := by simp [latEffect]

/-! ### Counters of a plane -/

@[simp] theorem bedrock_setCnt (k v : Nat) : bedrock (setCnt p k v s) = bedrock s := by simp [setCnt]
@[simp] theorem bedrock_addCount (k i : Nat) : bedrock ((addCount p k i s).2) = bedrock s := by
  simp only [addCount]
  repeat' split
  all_goals simp
@[simp] theorem bedrock_raiseMip (n last : Nat) : bedrock (raiseMip p n last s) = bedrock s := by simp [raiseMip]
@[simp] theorem bedrock_tickCounter (k : Nat) : bedrock (tickCounter p s k) = bedrock s := by simp [tickCounter]
@[simp] theorem bedrock_tickHist (h : Nat) : bedrock (tickHist p s h) = bedrock s := by
  simp only [tickHist]
  split
  · rfl
  · exact bedrock_foldl (fun t e => by simp) _ s
@[simp] theorem bedrock_addTd (lo hi : RField) (n : Nat) : bedrock (addTd p lo hi n s) = bedrock s := by simp [addTd]
@[simp] theorem bedrock_tickTd : bedrock (tickTd p s) = bedrock s := by simp [tickTd]
@[simp] theorem bedrock_takeSnap : bedrock (takeSnap p s) = bedrock s := by simp [takeSnap]
@[simp] theorem bedrock_pmuBeat : bedrock (pmuBeat p s) = bedrock s := by simp [pmuBeat]
@[simp] theorem bedrock_clearFields (u : Nat) (l : List RField) : bedrock (clearFields u l s) = bedrock s := by simp [clearFields]
@[simp] theorem bedrock_pmuEffect (off : Nat) (v old : Word) : bedrock (pmuEffect p off v old s) = bedrock s := by simp [pmuEffect]

/-! ### Reports -/

@[simp] theorem bedrock_execReportFrameSend (u : Nat) : bedrock (endState s (execReportFrameSend u s)) = bedrock s := by simp [execReportFrameSend]
@[simp] theorem bedrock_modView (u : Nat) (f : UnitView → UnitView) : bedrock (modView h u f s) = bedrock s := by simp [modView]
@[simp] theorem bedrock_setPend (u : Nat) (on : Bool) : bedrock (setPend h u on s) = bedrock s := by simp [setPend]
@[simp] theorem bedrock_execPeerHeartbeat : bedrock (endState s (execPeerHeartbeat h s)) = bedrock s := by simp [execPeerHeartbeat]
@[simp] theorem bedrock_execCSelfAck (u : Nat) : bedrock (endState s (execCSelfAck u s)) = bedrock s := by simp [execCSelfAck]
@[simp] theorem bedrock_liftUnit (u : Nat) : bedrock (liftUnit u s) = bedrock s := by
  simp only [liftUnit]
  repeat' split
  all_goals simp
@[simp] theorem bedrock_aliveWrite (on : Bool) : bedrock (aliveWrite h on s) = bedrock s := by simp [aliveWrite]
@[simp] theorem bedrock_fclEffect (off : Nat) (v : Word) : bedrock (fclEffect h off v s) = bedrock s := by simp [fclEffect]
@[simp] theorem bedrock_execDeadboltRecord : bedrock (endState s (execDeadboltRecord h s)) = bedrock s := by
  unfold execDeadboltRecord
  split <;> simp
@[simp] theorem bedrock_execAliveToggle : bedrock (endState s (execAliveToggle h s)) = bedrock s := by simp [execAliveToggle]

/-! ### Attestation -/

@[simp] theorem bedrock_setResult (code ty : Nat) : bedrock (setResult h code ty s) = bedrock s := by simp [setResult]
@[simp] theorem bedrock_modKpl (f : Keyplate → Keyplate) : bedrock (modKpl h f s) = bedrock s := by simp [modKpl]
@[simp] theorem bedrock_modFlash (f : Flash → Flash) : bedrock (modFlash h f s) = bedrock s := by simp [modFlash]
@[simp] theorem bedrock_showSvn : bedrock (showSvn h s) = bedrock s := by simp [showSvn]
@[simp] theorem bedrock_dropImage : bedrock (dropImage h s) = bedrock s := by simp [dropImage]
@[simp] theorem bedrock_dropNonce : bedrock (dropNonce h s) = bedrock s := by simp [dropNonce]
@[simp] theorem bedrock_newNonce : bedrock (newNonce h s) = bedrock s := by simp [newNonce]
@[simp] theorem bedrock_lsPuts (n a : Nat) (d : List Byte) : bedrock (lsPuts p n a d s) = bedrock s := by simp [lsPuts]
@[simp] theorem bedrock_loadCc (r : List Byte) : bedrock (loadCc h r s) = bedrock s := by simp [loadCc]
@[simp] theorem bedrock_commitSvn (r : List Byte) : bedrock (commitSvn h r s) = bedrock s := by simp [commitSvn]
@[simp] theorem bedrock_claim (r : List Byte) : bedrock (claim h r s) = bedrock s := by simp [claim]
theorem bedrock_kplChecked {f : List Byte → State → State} (hf : ∀ l t, bedrock (f l t) = bedrock t) (ok : Nat → Bool) :
    bedrock (kplChecked h ok f s) = bedrock s := by
  simp only [kplChecked]
  split
  · rw [hf, bedrock_setResult]
  · exact bedrock_setResult ..
@[simp] theorem bedrock_kplRun (c : Nat) : bedrock (kplRun h c s) = bedrock s := by
  simp only [kplRun]
  split
  · exact bedrock_kplChecked h s (fun _ _ => rfl) _
  · exact bedrock_kplChecked h s (fun l t => bedrock_loadCc h t l) _
  · exact bedrock_kplChecked h s (fun l t => bedrock_commitSvn h t l) _
  · exact bedrock_kplChecked h s (fun l t => bedrock_claim h t l) _
  · exact bedrock_newNonce h s
  · split <;> simp
  · exact bedrock_modFlash ..
  · rfl
@[simp] theorem bedrock_execKplCmdDone : bedrock (endState s (execKplCmdDone h s)) = bedrock s := by
  unfold execKplCmdDone
  split <;> simp
@[simp] theorem bedrock_doe (r : List Byte) : bedrock (doe h r s) = bedrock s := by simp [doe]
@[simp] theorem bedrock_spdmError (code data : Nat) : bedrock (spdmError h code data s) = bedrock s := by simp [spdmError]
@[simp] theorem bedrock_modSpdm (f : Spdm → Spdm) : bedrock (modSpdm h f s) = bedrock s := by simp [modSpdm]
@[simp] theorem bedrock_spdmAnswer (req resp : List Byte) : bedrock (spdmAnswer h req resp s) = bedrock s := by simp [spdmAnswer]
@[simp] theorem bedrock_execGetVersion (req : List Byte) : bedrock (endState s (execGetVersion h req s)) = bedrock s := by simp [execGetVersion]
@[simp] theorem bedrock_execGetCapabilities (req : List Byte) :
    bedrock (endState s (execGetCapabilities h req s)) = bedrock s := by simp [execGetCapabilities]
@[simp] theorem bedrock_execNegotiateAlgorithms (req : List Byte) :
    bedrock (endState s (execNegotiateAlgorithms h req s)) = bedrock s := by simp [execNegotiateAlgorithms]
@[simp] theorem bedrock_execGetDigests (req : List Byte) : bedrock (endState s (execGetDigests h req s)) = bedrock s := by simp [execGetDigests]
@[simp] theorem bedrock_execGetCertificate (req : List Byte) :
    bedrock (endState s (execGetCertificate h req s)) = bedrock s := by simp [execGetCertificate]
@[simp] theorem bedrock_respNonce : bedrock ((respNonce s).2) = bedrock s := by simp [respNonce]
@[simp] theorem bedrock_execChallenge (req : List Byte) : bedrock (endState s (execChallenge h req s)) = bedrock s := by simp [execChallenge]
@[simp] theorem bedrock_execGetMeasurements (req : List Byte) :
    bedrock (endState s (execGetMeasurements h req s)) = bedrock s := by simp [execGetMeasurements]
@[simp] theorem bedrock_execSpdmUnsupported (req : List Byte) :
    bedrock (endState s (execSpdmUnsupported h req s)) = bedrock s := by simp [execSpdmUnsupported]

/-! ### Power -/

@[simp] theorem bedrock_pickFeed : bedrock (pickFeed s) = bedrock s := by simp [pickFeed]
@[simp] theorem bedrock_setFeed (f : FeedId) (st : Nat) : bedrock (setFeed f st s) = bedrock s := by simp [setFeed]
@[simp] theorem bedrock_measureFeed (f : FeedId) (mv : Nat) : bedrock (measureFeed f mv s) = bedrock s := by simp [measureFeed]
@[simp] theorem bedrock_forFeedA : bedrock (forFeedA s) = bedrock s := by simp [forFeedA]
@[simp] theorem bedrock_feedGood (f : FeedId) : bedrock (feedGood f s) = bedrock s := by simp [feedGood]
@[simp] theorem bedrock_execHoldupCharge (ok : Bool) : bedrock (endState s (execHoldupCharge ok s)) = bedrock s := by simp [execHoldupCharge]
@[simp] theorem bedrock_beginStart : bedrock (beginStart s) = bedrock s := by simp [beginStart]
@[simp] theorem bedrock_refillCredit : bedrock (refillCredit s) = bedrock s := by simp [refillCredit]
@[simp] theorem bedrock_execCreditRefill : bedrock (endState s (execCreditRefill s)) = bedrock s := by simp [execCreditRefill]
@[simp] theorem bedrock_execDomainAdmit (d : Fin 32) : bedrock (endState s (execDomainAdmit d s)) = bedrock s := by simp [execDomainAdmit]
@[simp] theorem bedrock_exchangeSvn : bedrock (exchangeSvn h s) = bedrock s := by simp [exchangeSvn]
@[simp] theorem bedrock_configure : bedrock (configure s) = bedrock s := by simp [configure]
@[simp] theorem bedrock_checkMismatch : bedrock (checkMismatch s) = bedrock s := by simp [checkMismatch]
@[simp] theorem bedrock_freshViews : bedrock (freshViews h s) = bedrock s := by simp [freshViews]
@[simp] theorem bedrock_freshHub : bedrock (freshHub h s) = bedrock s := by simp [freshHub]
@[simp] theorem bedrock_expectReports (us : List Nat) : bedrock (expectReports us s) = bedrock s := by simp [expectReports]
@[simp] theorem bedrock_bootHub : bedrock (bootHub h s) = bedrock s := by
  simp only [bootHub]
  repeat' split
  all_goals simp
@[simp] theorem bedrock_endBoot : bedrock (endBoot p s) = bedrock s := by simp [endBoot]
@[simp] theorem bedrock_execMemoryReady (t : Fin 7) : bedrock (endState s (execMemoryReady p t s)) = bedrock s := by simp [execMemoryReady]
@[simp] theorem bedrock_requestPlane (p : Nat) : bedrock (requestPlane s p) = bedrock s := by simp [requestPlane]
@[simp] theorem bedrock_refund (d : Nat) : bedrock (refund s d) = bedrock s := by simp [refund]
@[simp] theorem bedrock_execI3cRead (addr : Nat) (off : Byte) (n : Nat) :
    bedrock (endState s (execI3cRead addr off n s)) = bedrock s := by simp [execI3cRead]
@[simp] theorem bedrock_execI3cWrite (addr : Nat) (off : Byte) (d : List Byte) :
    bedrock (endState s (execI3cWrite addr off d s)) = bedrock s := by simp [execI3cWrite]
@[simp] theorem bedrock_execI3cTimeout : bedrock (endState s (execI3cTimeout s)) = bedrock s := by simp [execI3cTimeout]
@[simp] theorem bedrock_execEntdaa (addr : Nat) : bedrock (endState s (execEntdaa addr s)) = bedrock s := by simp [execEntdaa]
@[simp] theorem bedrock_setMgcDogs (u : Nat) (d : SMap Nat) : bedrock (setMgcDogs u d s) = bedrock s := by
  unfold setMgcDogs
  split <;> simp
@[simp] theorem bedrock_mgcEffect (u off : Nat) (v : Word) : bedrock (mgcEffect u off v s) = bedrock s := by simp [mgcEffect]

/-! ### Soft resets -/

@[simp] theorem bedrock_emptySwitch : bedrock (emptySwitch p s) = bedrock s := by simp [emptySwitch]
@[simp] theorem bedrock_showPlane : bedrock (showPlane p s) = bedrock s := by simp [showPlane]
@[simp] theorem bedrock_execSoftResetDone (u : Nat) : bedrock (endState s (execSoftResetDone u s)) = bedrock s := by
  simp only [execSoftResetDone]
  repeat' split
  all_goals simp

/-! ### Register writes -/

@[simp] theorem bedrock_latchAfter (was : Bool) (u : Nat) : bedrock (latchAfter was u s) = bedrock s := by simp [latchAfter]
@[simp] theorem bedrock_noteLate (u off : Nat) (c : RejCode) (v : Word) (before : State) : bedrock (noteLate u off c v before s) = bedrock s := by
  unfold noteLate
  split <;> simp
@[simp] theorem bedrock_noPage (acc : Accessor) (a : Nat) : bedrock (noPage acc a s) = bedrock s := by simp [noPage]
@[simp] theorem bedrock_arrive (acc : Accessor) (u : Nat) : bedrock (arrive acc u s) = bedrock s := by
  unfold arrive
  split <;> simp

/-! ### Core execution -/

@[simp] theorem bedrock_account (n cyc cat : Nat) : bedrock (account p n cyc cat s) = bedrock s := by simp [account]
@[simp] theorem bedrock_retire (n cyc : Nat) (row : CoreRow) (pc : Dword) (ready : Nat) :
    bedrock (retire p n cyc row pc ready s) = bedrock s := by simp [retire]
@[simp] theorem bedrock_trapVal (info : Nat) : bedrock ((trapVal info s).2) = bedrock s := by
  unfold trapVal
  split <;> simp
@[simp] theorem bedrock_enterTrap (n cyc : Nat) (cause : Dword) (info : Nat) :
    bedrock (enterTrap p n cyc cause info s) = bedrock s := by simp [enterTrap]
@[simp] theorem bedrock_takeTrap (n cyc cause info : Nat) : bedrock (takeTrap p n cyc cause info s) = bedrock s := by simp [takeTrap]
@[simp] theorem bedrock_csrWrite (n k cyc : Nat) (v : Dword) : bedrock (csrWrite p n k cyc v s) = bedrock s := by simp [csrWrite]
@[simp] theorem bedrock_execPmuInterruptTaken (n : CoreId) :
    bedrock (endState s (execPmuInterruptTaken p n s)) = bedrock s := by simp [execPmuInterruptTaken]

/-! ### Extension instructions -/

@[simp] theorem bedrock_freshColl (g q : Nat) : bedrock (freshColl p g q s) = bedrock s := by simp [freshColl]
@[simp] theorem bedrock_acceptFeed (n pos c cyc : Nat) (x : Ctx) (addr : Nat) (h : HeadCell) :
    bedrock (acceptFeed p n pos c cyc x addr h s) = bedrock s := by simp [acceptFeed]
@[simp] theorem bedrock_turnOp (n cyc : Nat) : bedrock ((turnOp p n cyc s).2) = bedrock s := by simp [turnOp]

/-! ### The beat -/

@[simp] theorem bedrock_execDeviceHot (t : Fin 7) (hot : Bool) : bedrock (endState s (execDeviceHot p t hot s)) = bedrock s := by simp [execDeviceHot]
@[simp] theorem bedrock_dropStale (slot : Nat) : bedrock (dropStale p slot s) = bedrock s := by simp [dropStale]
@[simp] theorem bedrock_beatSwitch : bedrock (beatSwitch p s) = bedrock s := by
  simp only [beatSwitch]
  repeat' split
  all_goals simp
@[simp] theorem bedrock_noteTemps : bedrock (noteTemps p s) = bedrock s := by simp [noteTemps]
@[simp] theorem bedrock_noteLanes : bedrock (noteLanes p s) = bedrock s := by simp [noteLanes]
@[simp] theorem bedrock_applySops : bedrock (applySops p s) = bedrock s := by
  unfold applySops
  split <;> simp
@[simp] theorem bedrock_hubBeat : bedrock (hubBeat h s) = bedrock s := by simp [hubBeat]

/-! ### Vector instructions -/

end
end Sys2Proof.Machine
end

section
/-! SUPPORT. What every command upholds: the queue, the identity record and what is fitted; the canonical form of plane memory; and, but for a power
cycle, the deadbolt state. -/

namespace Sys2Proof.Machine

/-- The type of `bedrock`. -/
abbrev Bedrock : Type := (List Instr × Ident × Fitted) × Option Deadbolt × (PlaneId → List Host.Cell)

/-- From one state's `bedrock` to another's: the queue, the identity record and what is fitted are the same, and the memories are still in their
canonical form. -/
structure Endures (a b : Bedrock) : Prop where
  same : b.1 = a.1
  mem : (∀ p, memWf (a.2.2 p) = true) → ∀ p, memWf (b.2.2 p) = true

/-- Besides, the deadbolt state has not been left. -/
structure Upholds (a b : Bedrock) : Prop extends Endures a b where
  dead : ∀ d, a.2.1 = some d → b.2.1 = some d

@[simp] theorem Upholds.refl (a : Bedrock) : Upholds a a := ⟨⟨rfl, id⟩, fun _ => id⟩

theorem Endures.trans {a b c : Bedrock} (hab : Endures a b) (hbc : Endures b c) : Endures a c :=
  ⟨hbc.same.trans hab.same, fun h => hbc.mem (hab.mem h)⟩

theorem Upholds.trans {a b c : Bedrock} (hab : Upholds a b) (hbc : Upholds b c) : Upholds a c :=
  ⟨hab.toEndures.trans hbc.toEndures, fun d h => hbc.dead d (hab.dead d h)⟩

@[simp] theorem upholds_ite (a b b' : Bedrock) (c : Prop) [Decidable c] : Upholds a (if c then b else b') ↔ if c then Upholds a b else Upholds a b' := by
  split <;> rfl

@[simp] theorem upholds_foldl {a : Bedrock} {s : State} {α : Type} {f : State → α → State} (h : ∀ t x, Upholds (bedrock t) (bedrock (f t x)))
    (hs : Upholds a (bedrock s)) (l : List α) : Upholds a (bedrock (l.foldl f s)) :=
  List.foldlRecOn (motive := fun t => Upholds a (bedrock t)) l f hs fun t ht x _ => ht.trans (h t x)

/-- A change of a plane that keeps the form of its memory. -/
theorem upholds_modPl {a : Bedrock} {s : State} (hs : Upholds a (bedrock s)) (p : PlaneId) {g : Plane → Plane}
    (hmem : memWf (s.pl p).mem = true → memWf (g (s.pl p)).mem = true) : Upholds a (bedrock (s.modPl p g)) := by
  refine hs.trans ⟨⟨rfl, fun h q => ?_⟩, fun d => id⟩
  change memWf ((s.modPl p g).pl q).mem = true
  by_cases hq : p = q
  · subst hq
    rw [State.modPl_pl_same]
    exact hmem (h p)
  · rw [State.modPl_pl_ne s g hq]
    exact h q

/-- The state in which an instruction's effect leaves the plane. -/
def Eff.state : Eff → State
  | .x _ _ _ s => s
  | .xHold _ _ _ s => s
  | .w _ _ _ s => s
  | .hold _ s => s
  | .later _ _ s => s
  | .jump _ _ _ s => s
  | .ret _ _ s => s
  | .trap _ _ s => s
  | .wait _ s => s

section
variable (s : State)

@[simp] theorem state_x (rd : Nat) (v : Dword) (lat : Nat) : (Eff.x rd v lat s).state = s := rfl
@[simp] theorem state_xHold (rd : Nat) (v : Dword) (lat : Nat) : (Eff.xHold rd v lat s).state = s := rfl
@[simp] theorem state_w (rd : Nat) (v : Vec) (lat : Nat) : (Eff.w rd v lat s).state = s := rfl
@[simp] theorem state_hold (lat : Nat) : (Eff.hold lat s).state = s := rfl
@[simp] theorem state_later (o : CoreOp) (lat : Nat) : (Eff.later o lat s).state = s := rfl
@[simp] theorem state_jump (dst : Dword) (rd lat : Nat) : (Eff.jump dst rd lat s).state = s := rfl
@[simp] theorem state_ret (dst : Dword) (lat : Nat) : (Eff.ret dst lat s).state = s := rfl
@[simp] theorem state_trap (cause info : Nat) : (Eff.trap cause info s).state = s := rfl
@[simp] theorem state_wait (w : CoreWait) : (Eff.wait w s).state = s := rfl

end

@[simp] theorem bedrock_applyEff (p : PlaneId) (n : Nat) (row : CoreRow) (i : Issue) (e : Eff) :
    bedrock (applyEff p n row i e) = bedrock e.state := by
  cases e <;> simp only [applyEff, Eff.state]
  case later => split <;> split <;> simp
  case trap | wait => simp
  all_goals split <;> simp

end Sys2Proof.Machine
end

section
/-! SUPPORT. What upholds `bedrock` without keeping it: stores to plane memory, losses of it, and faults, which can enter the deadbolt state. -/

namespace Sys2Proof.Machine

section
variable (p : PlaneId) (h : HubId) {β : Bedrock} {s : State} (hs : Upholds β (bedrock s))
include hs

/-! ### Fences -/

@[simp] theorem upholds_loseMemory : Upholds β (bedrock (loseMemory p s)) :=
  upholds_modPl hs p fun _ => memWf_nil

/-! ### Detections -/

@[simp] theorem upholds_enterDeadbolt (unit source path : Nat) : Upholds β (bedrock (enterDeadbolt unit source path s)) := by
  refine hs.trans ?_
  unfold enterDeadbolt
  split
  · exact Upholds.refl _
  · next hdead =>
    have hfresh : ∀ d, Upholds (bedrock s) (bedrock { s with dead := d }) := fun d =>
      ⟨⟨rfl, id⟩, fun e (he : s.dead = some e) => absurd (hdead.symm.trans he) (by simp)⟩
    exact upholds_foldl (fun t q => by simp) (by simp [hfresh]) _
@[simp] theorem upholds_logOrDead (u : Nat) (b : Blk) (d : Detection) : Upholds β (bedrock (logOrDead u b d s)) := by simp [logOrDead, hs]
@[simp] theorem upholds_hubBoth : Upholds β (bedrock (hubBoth h s)) := by simp [hubBoth, hs]
@[simp] theorem upholds_loseUnits : Upholds β (bedrock (loseUnits h s)) := by
  unfold loseUnits
  split
  · exact hs
  · refine upholds_foldl (fun t v => ?_) (by simp [hs]) _
    split
    · simp
    · split <;> simp
@[simp] theorem upholds_fenceHubOrBoth (cause : Nat) : Upholds β (bedrock (fenceHubOrBoth h cause s)) := by simp [fenceHubOrBoth, hs]
@[simp] theorem upholds_fenceUnit (u cause : Nat) : Upholds β (bedrock (fenceUnit u cause s)) := by
  unfold fenceUnit
  split
  · simp [hs]
  · split <;> simp [hs]
@[simp] theorem upholds_losePeer : Upholds β (bedrock (losePeer h s)) := by simp [losePeer, hs]
@[simp] theorem upholds_react (u : Nat) (b : Blk) (src : Nat) (cls : FaultClass) (wh detail : Nat) :
    Upholds β (bedrock (react u b src cls wh detail s)) := by
  unfold react
  split
  · split <;> simp [hs]
  · split
    · split <;> simp [hs, upholds_fenceHubOrBoth]
    · exact hs
@[simp] theorem upholds_detectFault (u : Nat) (d : Detection) : Upholds β (bedrock (detectFault u d s)) := by
  simp only [detectFault]
  split
  · exact hs
  · next b n hb =>
    have hreact := upholds_react (upholds_logOrDead hs u b d) u b d.src d.cls d.loc d.detail
    split
    · exact upholds_fenceUnit hreact u 3
    · exact hreact
@[simp] theorem upholds_detect (u src : Nat) (cls : FaultClass) (wh detail : Nat) :
    Upholds β (bedrock (detect u src cls wh detail s)) := by simp [detect, hs]

/-! ### Plane memory -/

@[simp] theorem upholds_storeGranule (addr : Nat) (d : List Byte) : Upholds β (bedrock ((storeGranule p addr d s).2)) := by
  simp only [storeGranule]
  split
  · simp [hs]
  · refine upholds_modPl ?_ p fun h => memWf_memPuts _ _ _ h
    cases memInst s p addr <;> simp [hs]
omit hs in
theorem upholds_storeParts {r : Bool × State} (hr : Upholds β (bedrock r.2)) (fuel addr : Nat) (d : List Byte) :
    Upholds β (bedrock (storeParts p fuel addr d r).2) := by
  induction fuel generalizing addr d r with
  | zero => exact hr
  | succ fuel ih =>
    simp only [storeParts]
    split
    · exact hr
    · refine ih (r := (_, _)) ?_ _ _
      exact upholds_storeGranule p hr _ _
@[simp] theorem upholds_memStore (addr : Nat) (d : List Byte) : Upholds β (bedrock (memStore p addr d s).2) :=
  upholds_storeParts p (r := (false, s)) hs _ _ _
@[simp] theorem upholds_memWrite (addr : Nat) (d : List Byte) : Upholds β (bedrock (memWrite p addr d s)) :=
  upholds_memStore p hs addr d
@[simp] theorem upholds_corrected (addr : Nat) : Upholds β (bedrock (corrected p addr s)) := by simp [corrected, hs]
@[simp] theorem upholds_memTouch (addr : Nat) : Upholds β (bedrock (memTouch p addr s)) := by
  simp only [memTouch]
  repeat' split
  all_goals simp [hs]
@[simp] theorem upholds_memTouchAll (addr n : Nat) : Upholds β (bedrock (memTouchAll p addr n s)) := by simp [memTouchAll, hs]
@[simp] theorem upholds_scrubStep (t : Nat) : Upholds β (bedrock (scrubStep p t s)) := by simp [scrubStep, hs]
@[simp] theorem upholds_execPatrolStep (t : Fin 7) : Upholds β (bedrock (endState s (execPatrolStep p t s))) := by simp [execPatrolStep, hs]

/-! ### Cores: transfers and control -/

@[simp] theorem upholds_lsStrike (n o k : Nat) : Upholds β (bedrock (lsStrike p n o k s).2) := by
  simp only [lsStrike]
  repeat' split
  all_goals simp [hs]
@[simp] theorem upholds_movePart (n : Nat) (x : Xfer) (i : Nat) : Upholds β (bedrock ((movePart p n x i s).2)) := by
  have htouch := upholds_memTouchAll p hs (x.src + 128 * i) 128
  simp only [movePart]
  split
  · have hstore := upholds_memStore p (upholds_lsStrike p hs n (x.src + 128 * i) 128) (x.dst + 128 * i)
      (memBytes (coreOf (lsStrike p n (x.src + 128 * i) 128 s).2 p n).ls (x.src + 128 * i) 128)
    split <;> simp [hstore]
  · split
    · exact htouch
    · split
      · simp [htouch]
      · exact upholds_memStore p (by simp [htouch]) _ _
@[simp] theorem upholds_advanceXfers (n upto fuel : Nat) : Upholds β (bedrock (advanceXfers p n upto fuel s)) := by
  induction fuel generalizing s with
  | zero => exact hs
  | succ fuel ih =>
    simp only [advanceXfers]
    split
    · exact hs
    · next i x hx =>
      have hmove := upholds_movePart p hs n x x.done
      generalize (if x.next = 0 then _ else x.next) = next
      split
      · exact hs
      · split
        · split <;> simp [hs]
        · refine ih ?_
          split <;> simp [hmove]
@[simp] theorem upholds_moveXfers (n c : Nat) : Upholds β (bedrock (moveXfers p n c s)) :=
  upholds_advanceXfers p hs n c _
@[simp] theorem upholds_runTurnOp (n : Nat) (o : CoreOp) : Upholds β (bedrock (runTurnOp p n o s)) := by simp [runTurnOp, hs]
@[simp] theorem upholds_runXfers (n c : Nat) : Upholds β (bedrock (runXfers p n c s)) := by
  have hturn : ∀ (t : State) (o : CoreOp), Upholds (bedrock t)
      (bedrock (runTurnOp p n o (modCore p n (fun x => { x with ops := x.ops.erase o }) (moveXfers p n (o.b - 1) t)))) := fun t o => by simp
  exact upholds_moveXfers p (upholds_foldl hturn hs _) n c
@[simp] theorem upholds_moveAll (n : Nat) (x : Xfer) : Upholds β (bedrock ((moveAll p n x s).2)) := by
  have htouch := upholds_memTouchAll p hs x.src x.len
  simp only [moveAll]
  split
  · exact List.foldlRecOn (motive := fun r : Bool × State => Upholds β (bedrock r.2)) _ _ htouch fun r hr i _ => upholds_movePart p hr n x i
  · exact upholds_memStore p (by simp [htouch]) _ _
@[simp] theorem upholds_execXferComplete (n : CoreId) : Upholds β (bedrock (endState s (execXferComplete p n s))) := by
  simp only [execXferComplete]
  repeat' split
  all_goals simp [hs]
@[simp] theorem upholds_execCcWatchdog (n : CoreId) : Upholds β (bedrock (endState s (execCcWatchdog p n s))) := by simp [execCcWatchdog, hs]
@[simp] theorem upholds_execCcSaveDone (n : CoreId) : Upholds β (bedrock (endState s (execCcSaveDone p n s))) := by simp [execCcSaveDone, hs]
@[simp] theorem upholds_execCcRestoreDone (n : CoreId) : Upholds β (bedrock (endState s (execCcRestoreDone p n s))) := by simp [execCcRestoreDone, hs]

/-! ### Chunks: closing, delivery and repair -/

@[simp] theorem upholds_readResult (pos c n : Nat) : Upholds β (bedrock ((readResult p pos c n s).2)) := by
  simp only [readResult]
  repeat' split
  all_goals simp [hs]
@[simp] theorem upholds_sendEndpoints (pos c n : Nat) (l : List (CopyDst × Nat)) : Upholds β (bedrock (sendEndpoints p pos c n l s)) := by
  simp only [sendEndpoints]
  repeat' split
  all_goals simp [hs]
@[simp] theorem upholds_sendEndpoint (pos c n : Nat) (d : CopyDst) (ep : Nat) :
    Upholds β (bedrock (sendEndpoint p pos c n d ep s)) := by simp [sendEndpoint, hs]
@[simp] theorem upholds_closeBegin (pos c : Nat) : Upholds β (bedrock (closeBegin p pos c s)) := by
  simp only [closeBegin]
  repeat' split
  all_goals simp [hs]
@[simp] theorem upholds_releaseCopies (pos c n : Nat) : Upholds β (bedrock (releaseCopies p pos c n s)) := by
  simp only [releaseCopies]
  split
  · exact hs
  · split
    · refine upholds_foldl (fun t y => ?_) hs _
      split <;> simp
    · simp [hs]
@[simp] theorem upholds_closeEnd (pos c n : Nat) : Upholds β (bedrock (closeEnd p pos c n s)) := by
  simp only [closeEnd]
  repeat' split
  all_goals simp [hs]
@[simp] theorem upholds_execChunkCloseBegin (pos : SliceId) (c : Fin 16) : Upholds β (bedrock (endState s (execChunkCloseBegin p pos c s))) := by
  unfold execChunkCloseBegin
  split <;> simp [hs]
@[simp] theorem upholds_execChunkCloseEnd (pos : SliceId) (c : Fin 16) : Upholds β (bedrock (endState s (execChunkCloseEnd p pos c s))) := by
  simp only [execChunkCloseEnd]
  repeat' split
  all_goals simp [hs]
@[simp] theorem upholds_closesDue : Upholds β (bedrock (closesDue p s)) := by
  have hend : ∀ (t : State) (e : Nat × Ctx), Upholds (bedrock t) (bedrock (match (getCtx t p (e.1 / 16) (e.1 % 16)).bind (fun x => closeOver t x p) with
      | some n => closeEnd p (e.1 / 16) (e.1 % 16) n t
      | none => t)) := fun t e => by split <;> simp
  have hbegin : ∀ {t u : State} (e : Nat × Ctx), Upholds (bedrock t) (bedrock u) →
      Upholds (bedrock t) (bedrock (match (getCtx u p (e.1 / 16) (e.1 % 16)).bind (·.filling) with
        | some k => if k.bank.isSome ∧ closeDue u p (e.1 / 16) (e.1 % 16) k then closeBegin p (e.1 / 16) (e.1 % 16) u else u
        | none => u)) := fun e hu => by
    split
    · split <;> simp [hu]
    · exact hu
  exact upholds_foldl (fun t e => hbegin e (hend t e)) hs _
@[simp] theorem upholds_execRecomputeDone (pos : SliceId) (c : Fin 16) (n : Nat) :
    Upholds β (bedrock (endState s (execRecomputeDone p pos c n s))) := by
  simp only [execRecomputeDone]
  repeat' split
  all_goals simp [hs]
@[simp] theorem upholds_startDelivery (pos c n : Nat) (d : CopyDst) : Upholds β (bedrock (startDelivery p pos c n d s)) := by
  unfold startDelivery
  split <;> simp [hs]
@[simp] theorem upholds_execRepairDelivery (pos : SliceId) (c : Fin 16) (n : Nat) (d : CopyDst) :
    Upholds β (bedrock (endState s (execRepairDelivery p pos c n d s))) := by
  simp only [execRepairDelivery]
  repeat' split
  all_goals simp [hs]
@[simp] theorem upholds_execRepairRequest (g : Fin 1024) (cseq : Fin 65536) (n m : Nat) :
    Upholds β (bedrock (endState s (execRepairRequest p g cseq n m s))) := by
  simp only [execRepairRequest]
  repeat' split
  all_goals simp [hs]
@[simp] theorem upholds_execCstoreWriteDone (pos : SliceId) (c : Fin 16) (n : Nat) (addr : BitVec 48) :
    Upholds β (bedrock (endState s (execCstoreWriteDone p pos c n addr s))) := by
  have hread : ∀ d : List Byte, Upholds β (bedrock (memStore p addr.toNat d (readResult p pos.val c.val n s).2).2) :=
    fun d => by simp [hs]
  simp only [execCstoreWriteDone]
  repeat' split
  all_goals simp [hs, hread]
@[simp] theorem upholds_runFeed (f : Feed') : Upholds β (bedrock ((runFeed p f s).2)) := by
  unfold runFeed
  split
  · exact hs
  · refine List.foldlRecOn (motive := fun r : Bool × State => Upholds β (bedrock r.2)) _ _ hs fun r hr i _ => ?_
    have hread := upholds_memTouchAll p hr (f.addr + 256 * (i + 1)) 256
    dsimp only
    split
    · exact hr
    · split
      · simp [hread]
      · split <;> simp [hread]
@[simp] theorem upholds_execTmbFail (n : SliceId) : Upholds β (bedrock (endState s (execTmbFail p n s))) := by simp [execTmbFail, hs]

/-! ### Routing -/

@[simp] theorem upholds_missResume : Upholds β (bedrock (missResume p s)) := by simp [missResume, hs]
@[simp] theorem upholds_execResumeTime : Upholds β (bedrock (endState s (execResumeTime p s))) := by simp [execResumeTime, hs]
@[simp] theorem upholds_endResume : Upholds β (bedrock (endResume p s)) := by simp [endResume, hs]

/-! ### The adaptive switch -/

@[simp] theorem upholds_checkCommit : Upholds β (bedrock (checkCommit p s)) := by simp [checkCommit, hs]
@[simp] theorem upholds_takeHead (n : Nat) (c : Cell) : Upholds β (bedrock (takeHead p n c s)) := by
  simp only [takeHead]
  repeat' split
  all_goals simp [hs]
@[simp] theorem upholds_takeCell (e : Nat × Cell) : Upholds β (bedrock (takeCell p s e)) := by simp [takeCell, hs]
@[simp] theorem upholds_execFrameAdmit : Upholds β (bedrock (endState s (execFrameAdmit p s))) := by simp [execFrameAdmit, hs]

/-! ### Fabric time -/

@[simp] theorem upholds_sourceLost : Upholds β (bedrock (sourceLost p s)) := by
  unfold sourceLost
  split <;> simp [hs]
@[simp] theorem upholds_followReference : Upholds β (bedrock (followReference p s)) := by simp [followReference, hs]
@[simp] theorem upholds_followReferences : Upholds β (bedrock (followReferences s)) :=
  upholds_followReference 3 (upholds_followReference 2 (upholds_followReference 1 (upholds_followReference 0 hs)))
@[simp] theorem upholds_followUpstream : Upholds β (bedrock (followUpstream p s)) := by
  simp only [followUpstream]
  repeat' split
  all_goals simp [hs]
@[simp] theorem upholds_followLink : Upholds β (bedrock (followLink p s)) := by simp [followLink, hs]
@[simp] theorem upholds_execTimerefChange (present : Bool) (ppb : Int) (beats : Nat) :
    Upholds β (bedrock (endState s (execTimerefChange h present ppb beats s))) := by simp [execTimerefChange, hs]
@[simp] theorem upholds_chooseMaster (l : List (Nat × Nat)) : Upholds β (bedrock (chooseMaster h l s)) := by simp [chooseMaster, hs]
@[simp] theorem upholds_trfEffect (v old : Word) : Upholds β (bedrock (trfEffect h v old s)) := by simp [trfEffect, hs]
@[simp] theorem upholds_execPtpMessage (domain : Byte) (eth : Bool) (msg : PtpMsg) :
    Upholds β (bedrock (endState s (execPtpMessage h domain eth msg s))) := by
  simp only [execPtpMessage]
  repeat' split
  all_goals simp [hs]
@[simp] theorem upholds_execPtpMasterLost : Upholds β (bedrock (endState s (execPtpMasterLost h s))) := by
  unfold execPtpMasterLost
  split <;> simp [hs]
@[simp] theorem upholds_tsyncIn (src : TimeSource) (msg : TsyncMsg) (now t3 : Nat) : Upholds β (bedrock (tsyncIn p src msg now t3 s)) := by
  simp only [tsyncIn]
  repeat' split
  all_goals simp [hs]
@[simp] theorem upholds_execTsyncReceive (src : TimeSource) (msg : TsyncMsg) (sub echoSub : Fin 64) :
    Upholds β (bedrock (endState s (execTsyncReceive p src msg sub echoSub s))) := by simp [execTsyncReceive, hs]
@[simp] theorem upholds_execTsyncTimeout : Upholds β (bedrock (endState s (execTsyncTimeout p s))) := by
  unfold execTsyncTimeout
  split <;> simp [hs]
@[simp] theorem upholds_execHoldoverExpire : Upholds β (bedrock (endState s (execHoldoverExpire p s))) := by simp [execHoldoverExpire, hs]
@[simp] theorem upholds_ftmEffect (off : Nat) (v old : Word) : Upholds β (bedrock (ftmEffect p off v old s)) := by simp [ftmEffect, hs]

/-! ### Link units -/

@[simp] theorem upholds_dropLane (lane : Nat) : Upholds β (bedrock (dropLane p lane s)) := by simp [dropLane, hs]
@[simp] theorem upholds_portGone (n : Nat) : Upholds β (bedrock (portGone p n s)) := by simp [portGone, hs]
@[simp] theorem upholds_applyMask (n : Nat) (m : List Nat) : Upholds β (bedrock (applyMask p n m s)) := by simp [applyMask, hs]
@[simp] theorem upholds_startTraining (n : Nat) : Upholds β (bedrock (startTraining p n s)) := by simp [startTraining, hs]
theorem upholds_quarantineBy {log : State → State} (hlog : ∀ {t : State}, Upholds β (bedrock t) → Upholds β (bedrock (log t))) (n cause : Nat) :
    Upholds β (bedrock (quarantineBy log p n cause s)) :=
  upholds_followUpstream p (hlog (by simp [hs]))
@[simp] theorem upholds_quarantine (n cause : Nat) : Upholds β (bedrock (quarantine p n cause s)) := by
  exact upholds_quarantineBy p hs (fun ht => upholds_detect ht _ _ _ _ _) n cause
@[simp] theorem upholds_enterUp (n : Nat) : Upholds β (bedrock (enterUp p n s)) := by simp [enterUp, hs]
@[simp] theorem upholds_tryUp (n : Nat) : Upholds β (bedrock (tryUp p n s)) := by simp [tryUp, hs]
theorem upholds_laneFaultBy {log : Nat → State → State} (hlog : ∀ {n : Nat} {t : State}, Upholds β (bedrock t) → Upholds β (bedrock (log n t)))
    (lane : Nat) : Upholds β (bedrock (laneFaultBy log p lane s)) := by
  simp only [laneFaultBy]
  split
  · exact hs
  · next n hn =>
    have hlogged : Upholds β (bedrock (log n (noteEvent p n s))) := hlog (by simp [hs])
    split
    · exact hs
    · split
      · split <;> simp [hlogged]
      · split
        · split <;> simp [hlogged]
        · split
          · exact upholds_portGone p (upholds_applyMask p (by simp [hlogged]) _ _) n
          · exact upholds_tryUp p (upholds_applyMask p (by simp [hlogged]) _ _) n
@[simp] theorem upholds_laneFault (lane : Nat) : Upholds β (bedrock (laneFault p lane s)) := by
  exact upholds_laneFaultBy p hs (fun ht => upholds_detect ht _ _ _ _ _) lane
@[simp] theorem upholds_execLaneFault (lane : PortId) (locked : Bool) :
    Upholds β (bedrock (endState s (execLaneFault p lane locked s))) := by simp [execLaneFault, hs]
@[simp] theorem upholds_narrowIn (lane mask t : Nat) : Upholds β (bedrock (narrowIn p lane mask t s)) := by
  unfold narrowIn
  split <;> simp [hs]
@[simp] theorem upholds_execNarrow (lane : PortId) (mask : Fin 16) (t : Dword) :
    Upholds β (bedrock (endState s (execNarrow p lane mask t s))) := by simp [execNarrow, hs]
@[simp] theorem upholds_execNarrowSwitch (n : PortId) : Upholds β (bedrock (endState s (execNarrowSwitch p n s))) := by simp [execNarrowSwitch, hs]
@[simp] theorem upholds_execHelloSend (lane : PortId) : Upholds β (bedrock (endState s (execHelloSend p lane s))) := by
  unfold execHelloSend
  split <;> simp [hs]
@[simp] theorem upholds_helloIn (lane : Nat) (b : List Byte) : Upholds β (bedrock (helloIn p lane b s)) := by
  unfold helloIn
  split <;> simp [hs]
@[simp] theorem upholds_execHello (lane : PortId) (msg : BitVec 384) :
    Upholds β (bedrock (endState s (execHello p lane msg s))) := by simp [execHello, hs]
@[simp] theorem upholds_execTrainingDone (n : PortId) (trained : Fin 16) :
    Upholds β (bedrock (endState s (execTrainingDone p n trained s))) := by simp [execTrainingDone, hs]
@[simp] theorem upholds_execDiscoverTimeout (n : PortId) :
    Upholds β (bedrock (endState s (execDiscoverTimeout p n s))) := by simp [execDiscoverTimeout, hs]
@[simp] theorem upholds_execAbsentRetry (n : PortId) : Upholds β (bedrock (endState s (execAbsentRetry p n s))) := by simp [execAbsentRetry, hs]

/-! ### Injected faults -/

@[simp] theorem upholds_fptReact (n src : Nat) : Upholds β (bedrock (fptReact p n src s)) := by
  simp only [fptReact]
  split
  · exact upholds_laneFaultBy p hs (fun ht => ht) n
  · split
    · split
      · split
        · exact upholds_quarantineBy p (by simp [hs]) (fun ht => ht) _ _
        · exact hs
      · exact hs
    · exact hs
@[simp] theorem upholds_detectAll (injected : Bool) (u src : Nat) (cls : FaultClass) (wh detail : Nat) :
    Upholds β (bedrock (detectAll injected u src cls wh detail s)) := by
  simp only [detectAll]
  repeat' split
  all_goals simp [hs]
@[simp] theorem upholds_execFaultDetect (u src : Nat) (cls : FaultClass) (wh detail : Nat) (item : Bool) :
    Upholds β (bedrock (endState s (execFaultDetect u src cls wh detail item s))) := by
  unfold execFaultDetect
  split <;> simp [hs]
@[simp] theorem upholds_inject (u : Nat) (b : Blk) (v : Word) : Upholds β (bedrock (inject u b v s)) := by simp [inject, hs]

/-! ### Key loads -/

@[simp] theorem upholds_storeLines (b : Nat) (k : KeyImage) : Upholds β (bedrock (storeLines p b k s)) := by simp [storeLines, hs]
@[simp] theorem upholds_fillBank (b : Nat) (k : KeyImage) : Upholds β (bedrock (fillBank p b k s)) := by simp [fillBank, hs]
@[simp] theorem upholds_execKeyLoadDone : Upholds β (bedrock (endState s (execKeyLoadDone p s))) := by
  simp only [execKeyLoadDone]
  repeat' split
  all_goals simp [hs]

/-! ### Host ports -/

@[simp] theorem upholds_servePart (write : Bool) (x : AccessPart) : Upholds β (bedrock ((servePart p write x s).2)) := by
  unfold servePart
  split <;> simp [hs]
omit hs in
theorem upholds_serveParts (x : HostAccess) (now : State → AccessPart → Bool) (l : List AccessPart) {r : Nat × State} (hr : Upholds β (bedrock r.2)) :
    Upholds β (bedrock (serveParts p x now l r).2.2) := by
  induction l generalizing r with
  | nil => exact hr
  | cons y l ih =>
    simp only [serveParts]
    split
    · exact ih hr
    · refine ih (upholds_servePart p ?_ _ _)
      cases targetOf r.2 p y.addr <;> simp [hr]
omit hs in
theorem upholds_serveAccess (now : State → AccessPart → Bool) {acc : List HostAccess × Nat × State} (hacc :
    Upholds β (bedrock acc.2.2)) (x : HostAccess) :
    Upholds β (bedrock (serveAccess p now acc x).2.2) := by
  have hparts := upholds_serveParts p x now x.parts hacc
  simp only [serveAccess]
  split
  · exact hacc
  · split
    · simp [hparts]
    · exact hparts
@[simp] theorem upholds_serveQueue (n : Nat) (now : State → AccessPart → Bool) : Upholds β (bedrock (serveQueue p n now s).2) := by
  have hfold := List.foldlRecOn (motive := fun r : List HostAccess × Nat × State => Upholds β (bedrock r.2.2)) (s.pl p).hostQ (serveAccess p now)
    (b := ([], n, s)) hs fun r hr x _ => upholds_serveAccess p now hr x
  simp [serveQueue, hfold]
@[simp] theorem upholds_serveOpen : Upholds β (bedrock (serveOpen p s)) := by simp [serveOpen, hs]
@[simp] theorem upholds_arriveAccess (x : HostAccess) : Upholds β (bedrock (arriveAccess p x s)) := upholds_serveOpen p (by simp [hs])
@[simp] theorem upholds_mgcAccess (write : Bool) (addr : Nat) (data : List Byte) (tag : Nat) :
    Upholds β (bedrock (mgcAccess p write addr data tag s)) := by
  simp only [mgcAccess]
  split
  · exact hs
  · split
    · split <;> simp [hs]
    · exact upholds_arriveAccess p hs _
@[simp] theorem upholds_execBar2Access (offset : BitVec 36) (write : Bool) (data : List Byte) (tag : Nat) :
    Upholds β (bedrock (endState s (execBar2Access h offset write data tag s))) := by
  simp only [execBar2Access]
  split
  · exact hs
  · split
    · simp [hs]
    · split
      · simp [hs]
      · split
        · simp [hs]
        · split
          · simp [hs]
          · split
            · split <;> simp [hs]
            · exact upholds_arriveAccess _ (by simp [hs]) _

/-! ### The service port -/

@[simp] theorem upholds_execRdmaRequest (q : Fin 64) (rip : Word) (psn : BitVec 24) (rkey : Word) (addr : BitVec 48) (op : RdmaOp) :
    Upholds β (bedrock (endState s (execRdmaRequest h q rip psn rkey addr op s))) := by
  simp only [execRdmaRequest]
  split
  · exact hs
  · split
    · simp [hs]
    · cases op <;> simp [hs]

/-! ### Key slots -/

@[simp] theorem upholds_readAt (b : Nat) (read : State → LineAhead) (line : Nat) :
    Upholds β (bedrock ((readAt p b read line s).2)) := by simp [readAt, hs]
@[simp] theorem upholds_readNext (b : Nat) (x : LineAhead) : Upholds β (bedrock ((readNext p b x s).2)) := by
  simp only [readNext]
  split
  · exact hs
  · split
    · exact hs
    · exact upholds_readAt p hs _ _ _
@[simp] theorem upholds_advance (b : Nat) : Upholds β (bedrock (advance p b s)) := by
  have hnext : Upholds β (bedrock (match (bankOfKey s p b).ahead.drop 1 with
      | n :: _ => (n, s)
      | [] => readNext p b (reached s p b) s).2) := by split <;> simp [hs]
  simp only [advance, bedrock_modBank]
  exact upholds_readNext p hnext _ _
@[simp] theorem upholds_readAhead : Upholds β (bedrock (readAhead p s)) := by
  simp only [readAhead]
  split
  · next b _ =>
    split
    · have hline : Upholds β (bedrock (if (bankOfKey s p b).resumed then s
          else modBank p b (fun k => { k with line := 0, repLeft := 0, loopAt := none, loopLeft := 0 }) s)) := by split <;> simp [hs]
      simp only [bedrock_modBank]
      exact upholds_readNext p (upholds_readAt p hline b _ _) _ _
    · exact hs
  · exact hs
@[simp] theorem upholds_endRun : Upholds β (bedrock ((endRun p s).2)) := by
  simp only [endRun]
  repeat' split
  all_goals simp [hs]
@[simp] theorem upholds_stopXfers (mm : Nat) : Upholds β (bedrock (stopXfers p mm s)) := by
  refine upholds_foldl (fun t e => upholds_foldl (fun u x => ?_) (Upholds.refl _) _) hs _
  split
  · dsimp only
    rw [bedrock_modCore]
    exact upholds_memWrite p (by simp) _ _
  · exact Upholds.refl _
@[simp] theorem upholds_execKeyStart : Upholds β (bedrock (endState s (execKeyStart p s))) := by
  unfold execKeyStart
  split <;> simp [hs]
@[simp] theorem upholds_placeStage (b i : Nat) (d : Option Payload) (poison : Bool) : Upholds β (bedrock (placeStage p b i d poison s)) := by
  unfold placeStage
  split <;> simp [hs]
@[simp] theorem upholds_drainStage (b i : Nat) : Upholds β (bedrock (drainStage p b i s).2) := by
  have htouch := upholds_memTouchAll p hs (((bankOfKey s p b).streams.getD i {}).stage + (ptrOf (bankOfKey s p b) i).drain) 256
  simp only [drainStage, bedrock_setPtr]
  exact upholds_modPl htouch p id
@[simp] theorem upholds_readOne (b i : Nat) : Upholds β (bedrock (readOne p b i s)) := by simp [readOne, hs]
@[simp] theorem upholds_writeOne (b i : Nat) : Upholds β (bedrock (writeOne p b i s)) := by
  simp only [writeOne, bedrock_setPtr]
  generalize (targetOf s p _).getD 6 = t
  have hdrain := upholds_drainStage (β := β) p (s := (takeUnits p t 1 s).2) (by simp [hs]) b i
  split
  · split <;> simp [hdrain]
  · exact hdrain
@[simp] theorem upholds_forceRefresh (t : Nat) : Upholds β (bedrock (forceRefresh p t s)) := by simp [forceRefresh, hs]
@[simp] theorem upholds_execRefreshDeadline (t : Fin 7) : Upholds β (bedrock (endState s (execRefreshDeadline p t s))) := by
  unfold execRefreshDeadline
  split <;> simp [hs]
@[simp] theorem upholds_hostWindow (t : Nat) : Upholds β (bedrock (hostWindow p t s)) := by simp [hostWindow, hs]
theorem upholds_repeatN {f : State → State} (hf : ∀ t, Upholds (bedrock t) (bedrock (f t))) (n : Nat) : Upholds β (bedrock (repeatN n f s)) := by
  induction n generalizing s with
  | zero => exact hs
  | succ n ih => exact ih (hs.trans (hf s))

@[simp] theorem upholds_runMop (b m : Nat) : Upholds β (bedrock (runMop p b m s)) := by
  simp only [runMop]
  split
  · exact upholds_repeatN hs (fun t => upholds_readOne p (Upholds.refl _) _ _) _
  · exact upholds_repeatN hs (fun t => upholds_writeOne p (Upholds.refl _) _ _) _
  · simp [hs]
  · split <;> simp [hs]
  · split <;> simp [hs]
  · exact hs
@[simp] theorem upholds_checkGaps (b : Nat) : Upholds β (bedrock (checkGaps p b s)) := by simp [checkGaps, hs]
@[simp] theorem upholds_takeLane (lane slot : Nat) : Upholds β (bedrock ((takeLane p lane slot s).2)) := by
  simp only [takeLane]
  repeat' split
  all_goals simp [hs]
@[simp] theorem upholds_beginStream (r : ResStream) : Upholds β (bedrock (beginStream p r s)) := by simp [beginStream, hs]
@[simp] theorem upholds_laneResult (b pos lane : Nat) : Upholds β (bedrock (laneResult p b pos lane s)) := by
  simp only [laneResult]
  repeat' split
  all_goals simp [hs]
@[simp] theorem upholds_laneOut (b : Nat) (d : Payload) (lane : Nat) : Upholds β (bedrock (laneOut p b d s lane)) := by simp [laneOut, hs]
@[simp] theorem upholds_runFeedMop (b : Nat) (tops dead : List Nat) (m : Nat) : Upholds β (bedrock (runFeedMop p b tops dead m s)) := by
  simp only [runFeedMop]
  refine upholds_repeatN hs (fun t => ?_) _
  split <;> simp
omit hs in
theorem upholds_laneIn {w : LaneWork} (hw : Upholds β (bedrock w.st)) (b : Nat) (d : Payload) (lane : Nat) :
    Upholds β (bedrock (laneIn p b d w lane).st) := by
  simp only [laneIn]
  generalize hx : ite (inCode d lane = 0) _ _ = x
  have hxst : Upholds β (bedrock x.st) := by
    subst hx
    split
    · split <;> simp [hw]
    · split
      · simp [hw]
      · split <;> simp [hw]
  split
  · simp [hxst]
  · exact hxst
@[simp] theorem upholds_runSlot (b : Nat) (l : Line) (first last : Bool) : Upholds β (bedrock (runSlot p b l first last s)) := by
  unfold runSlot
  extract_lets d s₁ tdi s₂ w hot s₃ s₄ s₅ s₆ due s₇ s₈ s₉ s₁₀ s₁₁ s₁₂ s₁₃ s₁₄
  have h₂ : Upholds β (bedrock s₂) := by simp [s₂, s₁, hs]
  have hw : Upholds β (bedrock w.st) :=
    List.foldlRecOn (motive := fun w : LaneWork => Upholds β (bedrock w.st)) _ _ h₂ fun w hw i _ => upholds_laneIn p hw b d i
  have h₃ : Upholds β (bedrock s₃) := by simp [s₃, hw]
  have h₆ : Upholds β (bedrock s₆) := by simp [s₆, s₅, s₄, h₃]
  have h₇ : Upholds β (bedrock s₇) := upholds_checkGaps p (upholds_foldl (fun t x => by simp) h₆ _) b
  have h₉ : Upholds β (bedrock s₉) := by
    refine upholds_foldl (fun t m => ?_) (by simp [s₈, h₇]) _
    split <;> simp
  have h₁₂ : Upholds β (bedrock s₁₂) := by simp [s₁₂, s₁₁, s₁₀, h₉]
  simp [s₁₄, s₁₃, h₁₂]
@[simp] theorem upholds_execKeySlot : Upholds β (bedrock (endState s (execKeySlot p s))) := by
  unfold execKeySlot
  split
  · exact hs
  · split
    · exact hs
    · extract_lets s₁ r l first left u s₂ s₃ s₄ s₅
      have h₃ : Upholds β (bedrock s₃) := by simp [s₃, s₂, s₁, hs]
      simp [s₅, s₄, h₃]

/-! ### Links -/

@[simp] theorem upholds_placeReplay (lane slot : Nat) (c : Cell) : Upholds β (bedrock (placeReplay p lane slot c s)) := by
  simp only [placeReplay]
  repeat' split
  all_goals simp [hs]
@[simp] theorem upholds_schedReplay (n seq : Nat) (own : Option (Nat × Nat)) (c : Cell) : Upholds β (bedrock (schedReplay p n seq own c s)) := by
  simp only [schedReplay]
  repeat' split
  all_goals simp [hs]
@[simp] theorem upholds_crcFail (n lane slot : Nat) (w : Lcw) : Upholds β (bedrock (crcFail p n lane slot w s)) := by simp [crcFail, hs]
@[simp] theorem upholds_cellIn (n lane slot : Nat) (w : Lcw) (b : BitVec 2176) :
    Upholds β (bedrock (cellIn p n lane slot w b s)) := by simp [cellIn, hs]
@[simp] theorem upholds_messageIn (n lane now : Nat) (b : List Byte) : Upholds β (bedrock (messageIn p n lane now b s)) := by
  simp only [messageIn]
  repeat' split
  all_goals simp [hs]
@[simp] theorem upholds_ctlIn (n lane slot now : Nat) (b : List Byte) : Upholds β (bedrock (ctlIn p n lane slot now b s)) := by simp [ctlIn, hs]
@[simp] theorem upholds_fecIn (lane ce ue : Nat) : Upholds β (bedrock (fecIn p lane ce ue s)) := by simp [fecIn, hs]
@[simp] theorem upholds_unitIn (n lane now : Nat) (w : Lcw) (b : BitVec 2176) : Upholds β (bedrock (unitIn p n lane now w b s)) := by
  simp only [unitIn]
  repeat' split
  all_goals simp [hs]
@[simp] theorem upholds_execLinkUnitReceive (lane : PortId) (u : BitVec 2400) (ce ue : Fin 256) (sub : Fin 64) :
    Upholds β (bedrock (endState s (execLinkUnitReceive p lane u ce ue sub s))) := by
  simp only [execLinkUnitReceive]
  repeat' split
  all_goals simp [hs]
@[simp] theorem upholds_nextRepair (n lane : Nat) (l : List RepairRef) : Upholds β (bedrock (nextRepair p n lane l s).2) := by
  induction l generalizing s with
  | nil => exact hs
  | cons r rest ih =>
    simp only [nextRepair]
    split
    · exact ih (by simp [hs])
    · split
      · exact ih (by simp [hs])
      · next x k _ _ cp _ =>
        have hread : Upholds β (bedrock (if cp.sent = 0 ∧ (!k.recomputing) = true then readResult p r.pos r.ctx r.chunk s
            else (!k.recomputing || decide (0 < cp.sent), s)).2) := by split <;> simp [hs]
        generalize (if cp.sent = 0 ∧ (!k.recomputing) = true then readResult p r.pos r.ctx r.chunk s
            else (!k.recomputing || decide (0 < cp.sent), s)) = y at hread ⊢
        split
        · split
          · exact ih hread
          · split
            · exact hread
            · split <;> simp [hread]
        · split
          · simp [hs]
          · exact ih (by simp [hs])
@[simp] theorem upholds_laneCellOut (n lane : Nat) : Upholds β (bedrock ((laneCellOut p n lane s).2)) := by
  have hrepair := upholds_nextRepair (β := β) p (s := (nextReplay p n lane (linkOf s p n).replays s).2) (by simp [hs]) n lane
    (mgetD ((nextReplay p n lane (linkOf s p n).replays s).2.pl p).repairs n [])
  simp only [laneCellOut]
  split
  · simp [hs]
  · split
    · exact hs
    · split
      · simp [hs]
      · split
        · exact hrepair
        · simp [hrepair]
@[simp] theorem upholds_sendUnit (n lane t : Nat) : Upholds β (bedrock (sendUnit p n lane t s)) := by
  simp only [sendUnit]
  repeat' split
  all_goals simp [hs]
@[simp] theorem upholds_execLinkSlotSend (n : PortId) (sub : Fin 64) :
    Upholds β (bedrock (endState s (execLinkSlotSend p n sub s))) := by simp [execLinkSlotSend, hs]

/-! ### Domains -/

@[simp] theorem upholds_resetPlane (fence : Bool) : Upholds β (bedrock (resetPlane fence p s)) := by
  simp only [resetPlane, bedrock_linksDown]
  exact upholds_modPl (by simp [hs]) p fun _ => memWf_nil
@[simp] theorem upholds_powerOffPlane : Upholds β (bedrock (powerOffPlane p s)) := by simp [powerOffPlane, hs]
@[simp] theorem upholds_dropMem (b n : Nat) : Upholds β (bedrock (dropMem p b n s)) :=
  upholds_modPl hs p fun h => memWf_filter _ _ h
@[simp] theorem upholds_powerOffPart (k : Nat) : Upholds β (bedrock (powerOffPart p k s)) := by
  unfold powerOffPart
  split <;> simp [hs]

/-! ### Memory partitions -/

@[simp] theorem upholds_zeroBanks (l : List Nat) : Upholds β (bedrock (zeroBanks p l s)) :=
  upholds_modPl hs p fun h => memWf_filter _ _ h
@[simp] theorem upholds_execPartitionApplyDone : Upholds β (bedrock (endState s (execPartitionApplyDone p s))) := by
  simp only [execPartitionApplyDone]
  split
  · exact hs
  · refine upholds_checkCommit p ?_
    split
    · exact upholds_zeroBanks p (by simp [hs]) _
    · simp only [List.foldl_cons, List.foldl_nil, bedrock_freePatterns, bedrock_modBank, bedrock_setBankSt]
      exact upholds_zeroBanks p (by simp [hs]) _

/-! ### Port registers -/

@[simp] theorem upholds_penEffect (n : Nat) (was : Bool) : Upholds β (bedrock (penEffect p n was s)) := by
  simp only [penEffect]
  split
  · exact hs
  · split
    · exact upholds_checkCommit p (upholds_startTraining p (by simp [hs]) n)
    · refine upholds_checkCommit p (upholds_followUpstream p ?_)
      simp only [bedrock_dropCredits, bedrock_modFab, bedrock_put, bedrock_setActive]
      exact upholds_foldl (fun t i => by simp) hs _

/-! ### Groups -/

@[simp] theorem upholds_pushDesc (g : Nat) (d : List Byte) : Upholds β (bedrock (pushDesc p g d s)) := by simp [pushDesc, hs]
@[simp] theorem upholds_execLaunch (ep : Fin 65536) (d : Payload) : Upholds β (bedrock (endState s (execLaunch p ep d s))) := by simp [execLaunch, hs]
@[simp] theorem upholds_popDesc (g : Nat) : Upholds β (bedrock ((popDesc p g s).2)) := by simp [popDesc, hs]
@[simp] theorem upholds_postRecord (g : Nat) (desc rec' : List Byte) : Upholds β (bedrock (postRecord p g desc rec' s)) := by simp [postRecord, hs]
@[simp] theorem upholds_doneDesc (core g : Nat) (rec' : List Byte) : Upholds β (bedrock ((doneDesc p core g rec' s).2)) := by
  simp only [doneDesc]
  repeat' split
  all_goals simp [hs]
@[simp] theorem upholds_execAbandonedPost (g : Fin 1024) : Upholds β (bedrock (endState s (execAbandonedPost p g s))) := by
  simp only [execAbandonedPost]
  repeat' split
  all_goals simp [hs]
@[simp] theorem upholds_execContribFrame (ep : Fin 65536) (addr : BitVec 48) (cells : List (BitVec 64 × Payload)) :
    Upholds β (bedrock (endState s (execContribFrame p ep addr cells s))) := by
  simp only [execContribFrame]
  repeat' split
  all_goals simp [hs]

/-! ### Reports -/

@[simp] theorem upholds_markBroken (u : Nat) : Upholds β (bedrock (markBroken h u s)) := by simp [markBroken, hs]
@[simp] theorem upholds_execReportFrameReceive (u : Nat) (f : BitVec 16) (wires : Bool) :
    Upholds β (bedrock (endState s (execReportFrameReceive h u f wires s))) := by simp [execReportFrameReceive, hs]
@[simp] theorem upholds_execReportTimeout (u : Nat) : Upholds β (bedrock (endState s (execReportTimeout h u s))) := by simp [execReportTimeout, hs]
@[simp] theorem upholds_execPeerTimeout : Upholds β (bedrock (endState s (execPeerTimeout h s))) := by simp [execPeerTimeout, hs]
@[simp] theorem upholds_execHubLinkTimeout : Upholds β (bedrock (endState s (execHubLinkTimeout h p s))) := by simp [execHubLinkTimeout, hs]

/-! ### Attestation -/

@[simp] theorem upholds_fetchImage : Upholds β (bedrock (fetchImage h s)) := by
  simp only [fetchImage]
  split
  · exact upholds_arriveAccess _ (by simp [hs]) _
  · exact hs
@[simp] theorem upholds_kplEffect (off : Nat) (v : Word) : Upholds β (bedrock (kplEffect h off v s)) := by simp [kplEffect, hs]

/-! ### Power -/

@[simp] theorem upholds_execRailTimeout (d : Fin 32) : Upholds β (bedrock (endState s (execRailTimeout d s))) := by
  unfold execRailTimeout
  split <;> simp [hs]
@[simp] theorem upholds_bootPlane : Upholds β (bedrock (bootPlane p s)) := by simp [bootPlane, hs]
@[simp] theorem upholds_partStable (k : Nat) : Upholds β (bedrock (partStable p k s)) := by
  unfold partStable
  split <;> simp [hs]
@[simp] theorem upholds_execDomainStable (d : Fin 32) : Upholds β (bedrock (endState s (execDomainStable d s))) := by
  unfold execDomainStable
  split <;> simp [hs]
@[simp] theorem upholds_domainsOn (v : Word) : Upholds β (bedrock (domainsOn v s)) := by simp [domainsOn, hs]
@[simp] theorem upholds_domainsOff (v : Word) : Upholds β (bedrock (domainsOff v s)) := by
  refine upholds_foldl (fun t p => ?_) hs _
  dsimp only
  split
  · simp
  · refine upholds_foldl (fun u k => ?_) (Upholds.refl _) _
    split <;> simp
@[simp] theorem upholds_planeReset : Upholds β (bedrock (planeReset p s)) := by simp [planeReset, hs]
@[simp] theorem upholds_pwrEffect (off : Nat) (v : Word) : Upholds β (bedrock (pwrEffect off v s)) := by simp [pwrEffect, hs]
@[simp] theorem upholds_execFencePowerOff (u : Nat) : Upholds β (bedrock (endState s (execFencePowerOff u s))) := by
  unfold execFencePowerOff
  split <;> simp [hs]
@[simp] theorem upholds_execMgcWatchdog (u : Nat) (n : Fin 4) :
    Upholds β (bedrock (endState s (execMgcWatchdog u n s))) := by simp [execMgcWatchdog, hs]

/-! ### Soft resets -/

@[simp] theorem upholds_srstPlane (b : Blk) (n : Nat) : Upholds β (bedrock (srstPlane p b n s)) := by
  unfold srstPlane
  split
  case h_6 => split <;> simp [hs]
  case h_8 =>
    dsimp only
    split
    · simp [hs]
    · refine upholds_followUpstream p ?_
      have hdrop := upholds_dropLane p hs n
      split <;> simp [hdrop]
  all_goals simp [hs]
@[simp] theorem upholds_srstHub (b : Blk) (was : State) : Upholds β (bedrock (srstHub h b was s)) := by
  unfold srstHub
  split <;> simp [hs]
@[simp] theorem upholds_softReset (u : Nat) (b : Blk) (n : Nat) : Upholds β (bedrock (softReset u b n s)) := by
  simp only [softReset]
  repeat' split
  all_goals simp [hs]

/-! ### Register writes -/

@[simp] theorem upholds_planeEffect (b : Blk) (n off : Nat) (v old : Word) : Upholds β (bedrock (planeEffect p b n off v old s)) := by
  unfold planeEffect
  split <;> simp [hs]
@[simp] theorem upholds_hubEffect (acc : Accessor) (b : Blk) (off : Nat) (v old : Word) : Upholds β (bedrock (hubEffect acc h b off v old s)) := by
  unfold hubEffect
  split <;> simp [hs]
@[simp] theorem upholds_headerEffect (u : Nat) (b : Blk) (n off : Nat) (v old : Word) : Upholds β (bedrock (headerEffect u b n off v old s)) := by
  simp only [headerEffect]
  repeat' split
  all_goals simp [hs]
@[simp] theorem upholds_acceptWrite (acc : Accessor) (u : Nat) (b : Blk) (n off : Nat) (v : Word) :
    Upholds β (bedrock (acceptWrite acc u b n off v s)) := by
  simp only [acceptWrite]
  repeat' split
  all_goals simp [hs]
@[simp] theorem upholds_writeUnit (acc : Accessor) (u off : Nat) (full : Bool) (v : Word) : Upholds β (bedrock (writeUnit acc u off full v s)) := by
  simp only [writeUnit]
  repeat' split
  all_goals simp [hs]
@[simp] theorem upholds_writeBar0 (acc : Accessor) (o : Nat) (be : BitVec 4) (v : Word) : Upholds β (bedrock (writeBar0 acc o be v s)) := by
  simp only [writeBar0]
  repeat' split
  all_goals simp [hs]

end
end Sys2Proof.Machine
end

section
/-! SUPPORT. The instructions of the core complexes and the beat uphold `bedrock`. -/

namespace Sys2Proof.Machine

/-! ### Instructions of the core complexes -/

section
variable (p : PlaneId) {β : Bedrock} {s : State} (hs : Upholds β (bedrock s))

@[simp] theorem status_state (i : Issue) (code value lat : Nat) (s : State) : (status i code value lat s).state = s := rfl
@[simp] theorem illegal_state (i : Issue) (s : State) : (illegal i s).state = s := rfl
@[simp] theorem syncEff_state (kind : Nat) (i : Issue) (s : State) : (syncEff kind p i s).state = s := rfl
@[simp] theorem vec2_state (n lat : Nat) (f : Vec → Vec → Vec) (i : Issue) (s : State) : (vec2 p n lat f i s).state = s := rfl
@[simp] theorem jumpEff_state (dst : Dword) (rd lat : Nat) (s : State) : (jumpEff dst rd lat s).state = s := by
  unfold jumpEff
  split <;> rfl
@[simp] theorem opImmEff_state (w : Bool) (i : Issue) (s : State) : (opImmEff w i s).state = s := by
  simp only [opImmEff]
  repeat' split
  all_goals rfl
@[simp] theorem opEff_state (w : Bool) (i : Issue) (s : State) : (opEff w i s).state = s := by
  simp only [opEff]
  repeat' split
  all_goals rfl
@[simp] theorem bedrock_systemEff (n : Nat) (i : Issue) (s : State) : bedrock (systemEff p n i s).state = bedrock s := by
  unfold systemEff
  split <;> simp
@[simp] theorem bedrock_bindEff (n : Nat) (i : Issue) (b : List Byte) (x : Ctx) (s : State) : bedrock (bindEff p n i b x s).state = bedrock s := by
  simp only [bindEff]
  split <;> simp
@[simp] theorem bedrock_csrEff (n : Nat) (i : Issue) (s : State) : bedrock (csrEff p n i s).state = bedrock s := by
  simp only [csrEff]
  split
  · simp
  · split
    · simp
    · simp only [Eff.state]
      split <;> simp

include hs

/-- An instruction whose effect upholds, upholds when it issues. -/
theorem upholds_issue (n : Nat) (row : CoreRow) {f : Issue → State → Eff}
    (hf : ∀ (i : Issue) {t : State}, Upholds β (bedrock t) → Upholds β (bedrock (f i t).state)) : Upholds β (bedrock (issue p n row f s)) := by
  have hfetch : ∀ pc c : Nat, Upholds β (bedrock (lsStrike p n pc 4 (runXfers p n c s)).2) :=
    fun pc c => upholds_lsStrike p (upholds_runXfers p hs n c) n pc 4
  unfold issue
  extract_lets c pc w cyc r i
  split
  · exact hs
  · split
    · split
      · rw [bedrock_takeTrap]
        exact hs
      · exact hs
    · split
      · exact hs
      · split
        · rw [bedrock_takeTrap]
          exact hfetch _ _
        · split
          · exact hfetch _ _
          · rw [bedrock_applyEff]
            exact hf _ (hfetch _ _)

theorem upholds_lsLoad (n a k : Nat) {f : List Byte → State → Eff}
    (hf : ∀ (l : List Byte) {t : State}, Upholds β (bedrock t) → Upholds β (bedrock (f l t).state)) : Upholds β (bedrock (lsLoad p n a k s f).state) := by
  have hstrike := upholds_lsStrike p hs n a k
  simp only [lsLoad]
  split
  · exact hstrike
  · exact hf _ hstrike

theorem upholds_loadEff (n : Nat) (i : Issue) : Upholds β (bedrock (loadEff p n i s).state) := by
  simp only [loadEff]
  split
  · exact hs
  · split
    · exact upholds_lsLoad p hs _ _ _ fun _ _ ht => ht
    · split <;> exact hs

@[simp] theorem upholds_winStore (n : CoreId) (a : Nat) (v : Word) : Upholds β (bedrock (winStore p n a v s)) := by
  obtain ⟨f, hf⟩ : ∃ f, f = winStore p n a v := ⟨_, rfl⟩
  rw [← hf]
  delta winStore at hf
  subst hf
  dsimp only
  split
  · split <;> simp [hs]
  · simp [hs]

theorem upholds_storeEff (n : CoreId) (i : Issue) : Upholds β (bedrock (storeEff p n i s).state) := by
  have hls : ∀ (f : Core → Core), Upholds β (bedrock (modCore p n.val f s)) := fun f => by simp [hs]
  simp only [storeEff]
  split
  · exact hs
  · split
    · rw [state_hold]
      exact hls _
    · split
      · rw [state_hold]
        exact upholds_winStore p (hls _) _ _ _
      · exact hs

theorem upholds_scalarEff (n : CoreId) (i : Issue) : Upholds β (bedrock (scalarEff p n i s).state) := by
  simp only [scalarEff]
  split
  case h_6 => split <;> simp [hs, upholds_loadEff p hs]
  case h_7 => split <;> simp [hs, upholds_storeEff p hs]
  case h_4 | h_12 | h_13 => split <;> simp [hs]
  case h_5 =>
    split
    · simp [hs]
    · split <;> simp [hs]
  all_goals simp [hs]

theorem upholds_writeSeq (n : CoreId) (u : Nat) (l : List (Nat × Nat)) : Upholds β (bedrock (writeSeq p n u l s).2) := by
  induction l generalizing s with
  | nil => exact hs
  | cons x l ih =>
    have hwrite := upholds_writeUnit hs (.cc p n) u x.1 true (BitVec.ofNat 32 x.2)
    simp only [writeSeq]
    split
    · exact hwrite
    · exact ih hwrite

@[simp] theorem upholds_runLateOp (n : CoreId) (o : CoreOp) : Upholds β (bedrock (runLateOp p n o s)) := by
  simp only [runLateOp, bedrock_modCore]
  split <;> exact upholds_writeSeq p hs _ _ _

@[simp] theorem upholds_flushLate : Upholds β (bedrock (flushLate p s)) := by
  refine upholds_foldl (fun t e => ?_) hs _
  split <;> simp

@[simp] theorem upholds_queueCopy (pos c n : Nat) (place : Nat → CopyDst) : Upholds β (bedrock (queueCopy p pos c n place s)) := by
  simp only [queueCopy]
  split
  · exact hs
  · split
    · simp [hs]
    · split
      · simp [hs]
      · split <;> simp [hs]

@[simp] theorem upholds_beatCores : Upholds β (bedrock (beatCores p s)) := by
  have hrun : ∀ c : Nat, Upholds β (bedrock ((List.range 16).foldl (fun t n => runXfers p n c t) s)) :=
    fun c => upholds_foldl (fun t n => upholds_runXfers p (Upholds.refl _) n c) hs _
  simp [beatCores, hrun]

@[simp] theorem upholds_planeBeat : Upholds β (bedrock (planeBeat p s)) := by
  unfold planeBeat
  extract_lets ft beats s₁ s₂ s₃ s₄ s₅
  have h₁ : Upholds β (bedrock s₁) := by simp [s₁, hs]
  have h₂ : Upholds β (bedrock s₂) := by
    simp only [s₂, bedrock_drainSample, bedrock_offerCands]
    exact upholds_endResume p (upholds_beatCores p (upholds_serveOpen p (by simp [h₁])))
  have h₄ : Upholds β (bedrock s₄) := by
    simp only [s₄, s₃, bedrock_pmuBeat, bedrock_latchUnits, bedrock_noteLanes]
    exact upholds_followLink p (by simp [h₂])
  exact upholds_readAhead p (by simp [s₅, h₄])

/-! ### The instructions, one by one -/

variable (n : CoreId)

@[simp] theorem upholds_execScalarInstruction : Upholds β (bedrock (endState s (execScalarInstruction p n s))) := by
  rw [execScalarInstruction, endState_next]
  exact upholds_issue p hs _ _ fun i _ ht => upholds_scalarEff p ht n i
@[simp] theorem upholds_execCsrInstruction : Upholds β (bedrock (endState s (execCsrInstruction p n s))) := by
  rw [execCsrInstruction, endState_next]
  exact upholds_issue p hs _ _ fun i _ ht => by simp [ht]
@[simp] theorem upholds_execXfer : Upholds β (bedrock (endState s (execXfer p n s))) := by
  rw [execXfer, endState_next]
  exact upholds_issue p hs _ _ fun i _ ht => by
    dsimp only
    split
    · exact ht
    · exact upholds_lsLoad p ht _ _ _ fun l _ hu => by
        dsimp only [status_state]
        split <;> simp [hu]
@[simp] theorem upholds_execCbind : Upholds β (bedrock (endState s (execCbind p n s))) := by
  rw [execCbind, endState_next]
  exact upholds_issue p hs _ _ fun i _ ht => by
    dsimp only
    split
    · exact ht
    · exact upholds_lsLoad p ht _ _ _ fun b _ hu => by
        split
        · simp [hu]
        · exact upholds_lsLoad p hu _ _ _ fun l _ hv => by simp [hv]
@[simp] theorem upholds_execCunbind : Upholds β (bedrock (endState s (execCunbind p n s))) := by
  rw [execCunbind, endState_next]
  exact upholds_issue p hs _ _ fun i _ ht => by
    split
    · exact ht
    · split <;> simp [ht]
@[simp] theorem upholds_execCfeed : Upholds β (bedrock (endState s (execCfeed p n s))) := by
  rw [execCfeed, endState_next]
  exact upholds_issue p hs _ _ fun i t ht => by
    have htouch := upholds_memTouchAll p ht i.a.toNat 256
    dsimp only
    split
    · exact ht
    · split
      · exact ht
      · split
        · exact ht
        · split
          · exact ht
          · split
            · exact htouch
            · rw [status_state]
              split
              · simp [htouch]
              · split <;> simp [htouch]
@[simp] theorem upholds_execCclose : Upholds β (bedrock (endState s (execCclose p n s))) := by
  rw [execCclose, endState_next]
  exact upholds_issue p hs _ _ fun i _ ht => by
    split
    · exact ht
    · split
      · exact ht
      · split <;> simp [ht]
@[simp] theorem upholds_execCsend : Upholds β (bedrock (endState s (execCsend p n s))) := by
  rw [execCsend, endState_next]
  exact upholds_issue p hs _ _ fun i _ ht => by
    split
    · exact ht
    · split
      · exact ht
      · split <;> simp [ht]
@[simp] theorem upholds_execCstore : Upholds β (bedrock (endState s (execCstore p n s))) := by
  rw [execCstore, endState_next]
  exact upholds_issue p hs _ _ fun i _ ht => by
    dsimp only
    split
    · exact ht
    · split
      · exact ht
      · rw [status_state]
        split <;> simp [ht]
@[simp] theorem upholds_execCrelease : Upholds β (bedrock (endState s (execCrelease p n s))) := by
  rw [execCrelease, endState_next]
  exact upholds_issue p hs _ _ fun i _ ht => by
    split
    · exact ht
    · split <;> simp [ht]
@[simp] theorem upholds_execCstat : Upholds β (bedrock (endState s (execCstat p n s))) := by
  rw [execCstat, endState_next]
  exact upholds_issue p hs _ _ fun i _ ht => by
    split
    · exact ht
    · split <;> exact ht
@[simp] theorem upholds_execSadd : Upholds β (bedrock (endState s (execSadd p n s))) := by
  rw [execSadd, endState_next]
  exact upholds_issue p hs _ _ fun _ _ ht => ht
@[simp] theorem upholds_execSset : Upholds β (bedrock (endState s (execSset p n s))) := by
  rw [execSset, endState_next]
  exact upholds_issue p hs _ _ fun _ _ ht => ht
@[simp] theorem upholds_execSrd : Upholds β (bedrock (endState s (execSrd p n s))) := by
  rw [execSrd, endState_next]
  exact upholds_issue p hs _ _ fun _ _ ht => ht
@[simp] theorem upholds_execSwait : Upholds β (bedrock (endState s (execSwait p n s))) := by
  rw [execSwait, endState_next]
  exact upholds_issue p hs _ _ fun _ _ ht => ht
@[simp] theorem upholds_execQwait : Upholds β (bedrock (endState s (execQwait p n s))) := by
  rw [execQwait, endState_next]
  exact upholds_issue p hs _ _ fun _ _ ht => ht
@[simp] theorem upholds_execFtwait : Upholds β (bedrock (endState s (execFtwait p n s))) := by
  rw [execFtwait, endState_next]
  exact upholds_issue p hs _ _ fun _ _ ht => ht
@[simp] theorem upholds_execXwait : Upholds β (bedrock (endState s (execXwait p n s))) := by
  rw [execXwait, endState_next]
  exact upholds_issue p hs _ _ fun _ _ ht => ht
@[simp] theorem upholds_execMrecv : Upholds β (bedrock (endState s (execMrecv p n s))) := by
  rw [execMrecv, endState_next]
  exact upholds_issue p hs _ _ fun i _ ht => by
    split <;> exact ht
@[simp] theorem upholds_execQpop : Upholds β (bedrock (endState s (execQpop p n s))) := by
  rw [execQpop, endState_next]
  exact upholds_issue p hs _ _ fun i t ht => by
    have hpop := upholds_popDesc (β := β) p (s := (turnOp p n.val i.cyc t).2) (by simp [ht]) i.a.toNat
    dsimp only
    split
    · simp only [status_state, bedrock_modCore, bedrock_sendOpen]
      split <;> simp [hpop]
    · simp [ht]
@[simp] theorem upholds_execQdone : Upholds β (bedrock (endState s (execQdone p n s))) := by
  rw [execQdone, endState_next]
  exact upholds_issue p hs _ _ fun i _ ht => by
    dsimp only
    split
    · simp [ht]
    · exact upholds_lsLoad p ht _ _ _ fun l _ hu => by
        simp [hu]
@[simp] theorem upholds_execMsend : Upholds β (bedrock (endState s (execMsend p n s))) := by
  rw [execMsend, endState_next]
  exact upholds_issue p hs _ _ fun i _ ht => by
    dsimp only
    split
    · exact ht
    · split
      · exact ht
      · exact upholds_lsLoad p ht _ _ _ fun l _ hu => by simp [hu]
@[simp] theorem upholds_execKdig : Upholds β (bedrock (endState s (execKdig p n s))) := by
  rw [execKdig, endState_next]
  exact upholds_issue p hs _ _ fun i _ ht => by
    dsimp only
    split
    · exact ht
    · split
      · exact ht
      · exact upholds_lsLoad p ht _ _ _ fun l _ hu => hu
@[simp] theorem upholds_execKcmd : Upholds β (bedrock (endState s (execKcmd p n s))) := by
  rw [execKcmd, endState_next]
  exact upholds_issue p hs _ _ fun i _ ht => by
    split
    · exact ht
    · split
      · exact ht
      · exact upholds_lsLoad p ht _ _ _ fun l _ hu => hu
@[simp] theorem upholds_execLarr : Upholds β (bedrock (endState s (execLarr p n s))) := by
  rw [execLarr, endState_next]
  exact upholds_issue p hs _ _ fun i _ ht => by
    split <;> exact ht
@[simp] theorem upholds_execVld : Upholds β (bedrock (endState s (execVld p n s))) := by
  rw [execVld, endState_next]
  exact upholds_issue p hs _ _ fun i _ ht => by
    dsimp only
    split
    · exact ht
    · split
      · exact ht
      · exact upholds_lsLoad p ht _ _ _ fun l _ hu => hu
@[simp] theorem upholds_execVst : Upholds β (bedrock (endState s (execVst p n s))) := by
  rw [execVst, endState_next]
  exact upholds_issue p hs _ _ fun i t ht => by
    have hls : ∀ (f : Core → Core), Upholds β (bedrock (modCore p n.val f t)) := fun f => by simp [ht]
    dsimp only
    split
    · exact ht
    · split
      · exact ht
      · rw [state_hold]
        exact hls _
@[simp] theorem upholds_execSpld : Upholds β (bedrock (endState s (execSpld p n s))) := by
  rw [execSpld, endState_next]
  exact upholds_issue p hs _ _ fun i t ht => by
    have htouch : Upholds β (bedrock (if spOk t p i.a.toNat then memTouchAll p i.a.toNat 128 t else t)) := by split <;> simp [ht]
    extract_lets a u r at'
    split
    · exact htouch
    · rw [state_later, bedrock_spTurn]
      exact htouch
@[simp] theorem upholds_execSpst : Upholds β (bedrock (endState s (execSpst p n s))) := by
  rw [execSpst, endState_next]
  exact upholds_issue p hs _ _ fun i _ ht => by
    dsimp only
    split
    · exact ht
    · simp [ht]
/-- The vector instructions: they change nothing but the core's own registers. -/
@[simp] theorem upholds_issueV (row : CoreRow) (lat : Nat) (f : Vec → Vec → Vec) : Upholds β (bedrock (endState s (issueV p n row lat f s))) := by
  rw [issueV, endState_next]
  exact upholds_issue p hs _ _ fun _ _ ht => ht
@[simp] theorem upholds_execVfmaF32 : Upholds β (bedrock (endState s (execVfmaF32 p n s))) := by
  rw [execVfmaF32, endState_next]
  exact upholds_issue p hs _ _ fun _ _ ht => ht
@[simp] theorem upholds_execVsplat : Upholds β (bedrock (endState s (execVsplat p n s))) := by
  rw [execVsplat, endState_next]
  exact upholds_issue p hs _ _ fun _ _ ht => ht
@[simp] theorem upholds_execVext : Upholds β (bedrock (endState s (execVext p n s))) := by
  rw [execVext, endState_next]
  exact upholds_issue p hs _ _ fun _ _ ht => ht
@[simp] theorem upholds_execVcvtTo : Upholds β (bedrock (endState s (execVcvtTo p n s))) := by
  rw [execVcvtTo, endState_next]
  exact upholds_issue p hs _ _ fun _ _ ht => by simp [ht]
@[simp] theorem upholds_execVcvtFrom : Upholds β (bedrock (endState s (execVcvtFrom p n s))) := by
  rw [execVcvtFrom, endState_next]
  exact upholds_issue p hs _ _ fun _ _ ht => ht
@[simp] theorem upholds_execFeedDone (pos : SliceId) (c : Fin 16) : Upholds β (bedrock (endState s (execFeedDone p pos c s))) := by
  simp only [execFeedDone]
  split
  · exact hs
  · next f _ =>
    have hrun := upholds_runFeed p hs f
    rw [endState_next]
    split <;> simp [hrun]
@[simp] theorem upholds_execKeyEnd : Upholds β (bedrock (endState s (execKeyEnd p s))) := by
  have hend := upholds_endRun p hs
  simp only [execKeyEnd, endState_next]
  split <;> simp [hend]

end

end Sys2Proof.Machine
end

section
/-! SUPPORT. Every command endures, and all but five uphold `bedrock`. -/

namespace Sys2Proof.Machine

/-! ### Power cycles: a module without power forgets the deadbolt state, and nothing else of what is asked for here -/

theorem endures_dead {β : Bedrock} {s : State} (hs : Endures β (bedrock s)) (d : Option Deadbolt) : Endures β (bedrock { s with dead := d }) :=
  ⟨hs.same, hs.mem⟩

/-- A change of a plane that keeps its memory. -/
theorem bedrock_modPl_pair {g : Plane → Plane} (hmem : ∀ x, (g x).mem = x.mem) (s : State) (p : PlaneId) : bedrock (s.modPl p g) = bedrock s :=
  bedrock_modPl p s hmem

section
variable {β : Bedrock} {s : State} (hs : Upholds β (bedrock s))
include hs

theorem endures_allOff (stby : Bool) : Endures β (bedrock (allOff stby s)) := by
  unfold allOff
  extract_lets s₁ s₂ s₃ stop s₄ s₅ s₆
  have h₁ : Upholds β (bedrock s₁) := upholds_foldl (fun t p => by simp) hs _
  have h₅ : Upholds β (bedrock s₅) := by simp [s₅, s₄, s₃, s₂, h₁]
  have h₆ : Upholds β (bedrock s₆) := by
    simp only [s₆]
    split
    · exact h₅
    · exact upholds_foldl (fun t p => by simp) h₅ _
  exact endures_dead (s := { s₆ with cfg := {}, lease := {}, mbx := [], ppsOut := none }) (by simpa using h₆.toEndures) none

theorem endures_feedLost (f : FeedId) (active : Bool) : Endures β (bedrock (feedLost f active s)) := by
  unfold feedLost
  extract_lets twice forA s₁
  have h₁ : Upholds β (bedrock s₁) := by
    simp only [s₁]
    split
    · exact hs
    · split
      · split <;> simp [hs]
      · simp [hs]
  split
  · exact h₁.toEndures
  · split
    · exact endures_allOff (by simp [h₁]) false
    · simpa using h₁.toEndures

theorem endures_rideOver : Endures β (bedrock (rideOver s)) := by
  unfold rideOver
  split
  · split
    · exact endures_allOff (by simp [hs]) false
    · exact hs.toEndures
  · exact hs.toEndures

end

/-- The commands that can end a power cycle's deadbolt state. -/
def cyclesPower : Instr → Prop
  | .feedChange _ _ _ | .feedQualify _ | .rideThroughExpire | .pwrcycN _ _ | .powerOn => True
  | _ => False

@[simp] theorem upholds_moduleReset {β : Bedrock} {s : State} (hs :
    Upholds β (bedrock s)) (hnone : β.2.1 = none) : Upholds β (bedrock (moduleReset s)) := by
  unfold moduleReset
  split
  · exact hs
  · have hoff := endures_allOff hs true
    refine ⟨?_, fun d hd => absurd (hnone.symm.trans hd) (by simp)⟩
    simpa using hoff

@[simp] theorem upholds_powerBeat {s : State} : Upholds (bedrock s) (bedrock (powerBeat s)) := by
  unfold powerBeat
  extract_lets due l t
  have ht : bedrock t = bedrock s := by simp [t]
  split
  · rw [ht]
    exact Upholds.refl _
  · next hdead =>
    split
    · exact upholds_moduleReset (by simp [ht]) (by simpa [t, bedrock] using hdead)
    · simp [ht]

@[simp] theorem upholds_execBeat (c : Clock) (s : State) : Upholds (bedrock s) (bedrock (endState s (execBeat c s))) := by
  unfold execBeat
  cases c with
  | plane p => split <;> simp
  | hub h => split <;> simp
  | power => exact upholds_powerBeat

@[simp] theorem upholds_regWrite {β : Bedrock} {s : State} (hs : Upholds β (bedrock s)) (acc : Accessor) (u off : Nat) (v : Word) :
    Upholds β (bedrock (regWrite acc u off v s)) := by
  unfold regWrite
  split
  · exact upholds_writeBar0 hs acc _ _ v
  · exact hs

/-- Every command but those that can cycle the module's power. -/
theorem upholds_exec {i : Instr} (hi : ¬ cyclesPower i) (s : State) : Upholds (bedrock s) (bedrock (endState s (exec i s))) := by
  cases i
  case feedChange | feedQualify | rideThroughExpire | pwrcycN | powerOn => exact absurd trivial hi
  case regWrite acc t be v => cases t <;> simp [exec, execRegWrite]
  case blkEnable | lock | srst | rej | irqStat | ack | go | fenceReq | aclkSet | linkEn | cap | ftmSeedHi | holdLimit | arm | arrive | abort
      | load | keyArm | resume | pause | stop | discard | tmbAccSelGo | run | halt | save | restore | ccxLsData | synObj | synAdd | grqDb
      | group | commit | ccons | poison | apply | pen | start | routeCommit | routeResume | polSel | polApply | flip | swcTblData
      | swcSeedHi | shaperWrite | clrmax | req | renew | release | ready | rdmaRegionEn | fclLift | aliveEn | pwrDomOn | pwrDomOff
      | moduleReset | planeReset | hubReset | verify | loadCc | commitSvn | claim | dbgNonce | dbgUnlock | setPref | mgcRun | mgcHalt | kick
      | snap | clrAll | tdClr | clr => exact upholds_regWrite (Upholds.refl _) _ _ _ _
  case vaddF32 | vsubF32 | vmulF32 | vmaxF32 | vminF32 | vaddI32 | vaddI16 | vaddI8 | vand | vor | vxor =>
    exact upholds_issueV _ (Upholds.refl _) _ _ _ _
  all_goals simp [exec]

@[simp] theorem endures_refl (β : Bedrock) : Endures β β := ⟨rfl, id⟩

theorem endures_execFeedChange (f : FeedId) (mv n : Nat) (s : State) : Endures (bedrock s) (bedrock (endState s (execFeedChange f mv n s))) := by
  unfold execFeedChange
  extract_lets st active s₁ nx s₂ s₃
  have h₃ : Upholds (bedrock s) (bedrock s₃) := by
    simp only [s₃, s₂, s₁]
    split <;> simp
  split
  · simp [s₁]
  · split
    · split <;> simp [s₁]
    · split
      · exact endures_feedLost h₃ f active
      · exact h₃.toEndures

theorem endures_execFeedQualify (f : FeedId) (s : State) : Endures (bedrock s) (bedrock (endState s (execFeedQualify f s))) := by
  have hride := endures_rideOver (Upholds.refl (bedrock s))
  unfold execFeedQualify
  extract_lets x u
  split <;> simpa [u] using hride

theorem endures_execPwrcycN (low : Bool) (n : Nat) (s : State) : Endures (bedrock s) (bedrock (endState s (execPwrcycN low n s))) := by
  have hoff := endures_allOff (Upholds.refl (bedrock s)) true
  unfold execPwrcycN
  split
  · simp
  · split
    · simp
    · simpa using hoff

theorem endures_execPowerOn (s : State) : Endures (bedrock s) (bedrock (endState s (execPowerOn s))) := by
  have hoff := endures_allOff (Upholds.refl (bedrock s)) true
  unfold execPowerOn
  extract_lets held u v
  split
  · simpa [v, u] using hoff
  · simp

/-- Every command, those that cycle the module's power with the rest. -/
theorem endures_exec (i : Instr) (s : State) : Endures (bedrock s) (bedrock (endState s (exec i s))) := by
  by_cases hi : cyclesPower i
  · cases i <;> simp only [cyclesPower] at hi
    case feedChange f mv n => exact endures_execFeedChange f mv n s
    case feedQualify f => exact endures_execFeedQualify f s
    case rideThroughExpire => exact endures_rideOver (Upholds.refl _)
    case pwrcycN low n => exact endures_execPwrcycN low n s
    case powerOn => exact endures_execPowerOn s
  · exact (upholds_exec hi s).toEndures

/-- What a step leaves, of the state with the queue's rest. -/
theorem endures_step {s t : State} (h : step s = .next t) : Endures (bedrock (s.withPending s.pending.tail)) (bedrock t) := by
  cases hq : s.pending with
  | nil =>
    simp only [step, hq, Host.Outcome.next.injEq] at h
    subst h
    exact ⟨by simp [bedrock, State.withPending, hq], id⟩
  | cons c q =>
    simp only [step, hq] at h
    have hexec := endures_exec c (s.withPending q)
    rwa [h] at hexec

end Sys2Proof.Machine
end

section
/-! SUPPORT. The feeds' registers: what a loss of power leaves in STBY. -/

namespace Sys2Proof.Machine

/-- The registers of the feeds, in the power controller's own page. -/
def feedRegs (s : State) : Word × Word := (s.reg (hu .a .PWR) 0x044, s.reg (hu .a .PWR) 0x048)

theorem feedRegs_of_reg {s t : State} (h : ∀ off, off = 0x044 ∨ off = 0x048 → t.reg (hu .a .PWR) off = s.reg (hu .a .PWR) off) :
    feedRegs t = feedRegs s := by
  rw [feedRegs, feedRegs, h _ (Or.inl rfl), h _ (Or.inr rfl)]

theorem feedRegs_of_regs {s t : State} (h : t.regs = s.regs) : feedRegs t = feedRegs s :=
  feedRegs_of_reg fun off hoff => by
    have hreset : resetVal t 0x404 off = resetVal s 0x404 off := by rcases hoff with rfl | rfl <;> rfl
    have hkey : regKey (hu .a .PWR) off = (0x404, off) := by rcases hoff with rfl | rfl <;> rfl
    simp only [State.reg, h, hkey, hreset]

@[simp] theorem feedRegs_ite (c : Prop) [Decidable c] (s t : State) : feedRegs (if c then s else t) = if c then feedRegs s else feedRegs t :=
  apply_ite _ _ _ _

@[simp] theorem feedRegs_foldl {α : Type} {f : State → α → State} (h : ∀ t x, feedRegs (f t x) = feedRegs t) (l : List α) (s : State) :
    feedRegs (l.foldl f s) = feedRegs s := foldl_keeps feedRegs h l s

section
variable (s : State)

@[simp] theorem feedRegs_modPl (p : PlaneId) (g : Plane → Plane) : feedRegs (s.modPl p g) = feedRegs s := feedRegs_of_regs rfl
@[simp] theorem feedRegs_modHub (h : HubId) (g : Hub → Hub) : feedRegs (s.modHub h g) = feedRegs s := feedRegs_of_regs rfl
@[simp] theorem feedRegs_modPwr (g : PowerCtl → PowerCtl) : feedRegs (s.modPwr g) = feedRegs s := feedRegs_of_regs rfl
@[simp] theorem feedRegs_with (pulse : SMap Word) (rep : SMap Reporter) (pwr : PowerCtl) (hubs : Pair Hub) (lease : Lease) (mbx : SMap Channel)
    (cfg : ModConfig) (dead : Option Deadbolt) (ppsOut : Option Nat) :
    feedRegs { s with pulse := pulse, rep := rep, pwr := pwr, hubs := hubs, lease := lease, mbx := mbx, cfg := cfg, dead := dead, ppsOut := ppsOut }
      = feedRegs s := feedRegs_of_regs rfl

theorem feedRegs_put {u : Nat} {f : RField} (v : Nat) (h : regKey u f.key ≠ (0x404, 0x044) ∧ regKey u f.key ≠ (0x404, 0x048)) :
    feedRegs (s.put u f v) = feedRegs s :=
  feedRegs_of_reg fun off hoff => State.reg_put_ne s v (by rcases hoff with rfl | rfl <;> [exact h.1; exact h.2])

theorem regKey_ne_pwr {u k off : Nat} (hu : u ≠ 0x404 ∧ u ≠ 0x414) : regKey u k ≠ (0x404, off) := fun hk => by
  rcases regKey_fst u k with h | ⟨h, -⟩
  · exact hu.1 (h.symm.trans (congrArg Prod.fst hk))
  · exact hu.2 h

/-- Another unit's register. -/
theorem feedRegs_put_unit {u : Nat} (f : RField) (v : Nat) (hu : u ≠ 0x404 ∧ u ≠ 0x414) : feedRegs (s.put u f v) = feedRegs s :=
  feedRegs_put s v ⟨regKey_ne_pwr hu, regKey_ne_pwr hu⟩

@[simp] theorem feedRegs_put_hub (h : HubId) (f : RField) (v : Nat) : feedRegs (s.put (hu h .HUB) f v) = feedRegs s :=
  feedRegs_put_unit s f v (by cases h <;> decide)

@[simp] theorem feedRegs_put_pci (h : HubId) (f : RField) (v : Nat) : feedRegs (s.put (hu h .PCI) f v) = feedRegs s :=
  feedRegs_put_unit s f v (by cases h <;> decide)

@[simp] theorem feedRegs_put_on (v : Nat) : feedRegs (s.put (hu .a .PWR) Fld.PWR_DOM_STAT_ON v) = feedRegs s := feedRegs_put s v (by decide)
@[simp] theorem feedRegs_put_pend (v : Nat) : feedRegs (s.put (hu .a .PWR) Fld.PWR_DOM_PEND v) = feedRegs s := feedRegs_put s v (by decide)

/-- The feeds' registers are of those that stand in STBY. -/
@[simp] theorem feedRegs_resetUnit (fence : Bool) (u : Nat) : feedRegs (resetUnit fence s u) = feedRegs s := feedRegs_of_reg fun off hoff => by
  have hkeep : off ∈ pwrKeep := by rcases hoff with rfl | rfl <;> decide
  have hkey : regKey (hu .a .PWR) off = (0x404, off) := by rcases hoff with rfl | rfl <;> rfl
  have hreset : ∀ t : State, resetVal t 0x404 off = resetVal s 0x404 off := fun t => by rcases hoff with rfl | rfl <;> rfl
  simp only [State.reg, hkey, hreset]
  simp only [resetUnit, State.eraseRegs, mget_mput]
  by_cases hu : u = 0x404
  · subst hu
    cases hm : mget s.regs 0x404 with
    | none => simp [mgetD, hm]
    | some m =>
      simp only [mgetD, hm, Option.getD_some, Option.bind_some, if_true]
      rw [mget_filter_of_keeps]
      simp [hkeep]
  · simp [hu]

@[simp] theorem feedRegs_dropDomain (d : Nat) : feedRegs (dropDomain d s) = feedRegs s := by simp [dropDomain, setDom]
@[simp] theorem feedRegs_linksDown (p : PlaneId) : feedRegs (linksDown p s) = feedRegs s := by simp [linksDown]
@[simp] theorem feedRegs_setHolder (v : Nat) : feedRegs (setHolder v s) = feedRegs s := by
  unfold setHolder
  split
  · rfl
  · calc _ = feedRegs ((s.put (hu .a .PCI) Fld.PCI_LEASE_HOLDER v).put (hu .b .PCI) Fld.PCI_LEASE_HOLDER v) := feedRegs_of_regs rfl
      _ = feedRegs s := by simp
@[simp] theorem feedRegs_endLease (h : HubId) : feedRegs (endLease h s) = feedRegs s := by simp [endLease]
@[simp] theorem feedRegs_resetPlane (fence : Bool) (p : PlaneId) : feedRegs (resetPlane fence p s) = feedRegs s := by simp [resetPlane]
@[simp] theorem feedRegs_resetHubState (fence : Bool) (h : HubId) : feedRegs (resetHubState fence h s) = feedRegs s := by simp [resetHubState]
@[simp] theorem feedRegs_allOff (stby : Bool) : feedRegs (allOff stby s) = feedRegs s := by simp [allOff, leaveDeadbolt]

end

theorem feedSt_congr {s t : State} (h : feedRegs t = feedRegs s) (f : FeedId) : feedSt t f = feedSt s f := by
  simp only [feedRegs, Prod.mk.injEq] at h
  cases f
  · exact congrArg (fieldGet · _) h.1
  · exact congrArg (fieldGet · _) h.2

@[simp] theorem feedSt_modPwr (s : State) (g : PowerCtl → PowerCtl) (f : FeedId) : feedSt (s.modPwr g) f = feedSt s f :=
  feedSt_congr (feedRegs_modPwr s g) f

@[simp] theorem feedSt_allOff (stby : Bool) (s : State) (f : FeedId) : feedSt (allOff stby s) f = feedSt s f :=
  feedSt_congr (feedRegs_allOff s stby) f

theorem anyFeed_eq_false {s : State} : anyFeed s = false ↔ feedSt s .a ≠ 3 ∧ feedSt s .b ≠ 3 := by
  simp only [anyFeed, Bool.or_eq_false_iff, decide_eq_false_iff_not, ne_eq]

/-- The loss of a feed keeps the deadbolt state, unless it was the last one. -/
theorem feedLost_dead {s : State} {d : Deadbolt} (hd : s.dead = some d) (f : FeedId) (active : Bool) :
    (feedLost f active s).dead = some d ∨ feedSt (feedLost f active s) .a ≠ 3 ∧ feedSt (feedLost f active s) .b ≠ 3 := by
  unfold feedLost
  extract_lets twice forA u
  have hu : Upholds (bedrock s) (bedrock u) := by
    simp only [u]
    split
    · simp
    · split
      · split <;> simp
      · simp
  split
  · exact Or.inl (hu.dead d hd)
  · next hlast =>
    split
    · simp only [feedSt_allOff, feedSt_modPwr]
      exact Or.inr (anyFeed_eq_false.mp (Bool.eq_false_iff.mpr hlast))
    · exact Or.inl (hu.dead d hd)

/-- The end of the ride-through comes without an OK feed. -/
theorem rideOver_dead {s : State} {d : Deadbolt} (hd : s.dead = some d) : (rideOver s).dead = some d ∨ feedSt s .a ≠ 3 ∧ feedSt s .b ≠ 3 := by
  unfold rideOver
  split
  · split
    · next hend => exact Or.inr (anyFeed_eq_false.mp (by simpa using hend.2))
    · exact Or.inl hd
  · exact Or.inl hd

end Sys2Proof.Machine
end

section
/-! SUPPORT. O1, O3, O4, O5 and O55: the machine as a whole, and the deadbolt state. -/

namespace Sys2Proof.Machine

/-- Settles O1. The queue is the model's own, and `step` is its definition. -/
theorem stepRunsTheFrontCommand : Obligations.StepRunsTheFrontCommand :=
  ⟨fun c q s h => by simp only [step, h], fun s h => by simp only [step, h]⟩

/-- Settles O3: no command writes the queue, the identity record or what is fitted. -/
theorem stepKeepsQueueAndIdentity : Obligations.StepKeepsQueueAndIdentity := fun s t h => by
  have hsame := (endures_step h).same
  simp only [bedrock, Prod.mk.injEq] at hsame
  exact hsame

/-- Settles O4: a command stores bytes by `memPuts`, filters them, or empties the memory, and each keeps the canonical form. -/
theorem stepKeepsMemoryCanonical : Obligations.StepKeepsMemoryCanonical := fun _ _ hwf h => (endures_step h).mem hwf

theorem reset_mem (p : PlaneId) : (State.reset.pl p).mem = [] := by fin_cases p <;> rfl

/-- Settles O5: no byte is listed, and an unlisted byte reads as 0. -/
theorem resetStateIsWellFormed : Obligations.ResetStateIsWellFormed :=
  ⟨fun p => by rw [reset_mem]; exact memWf_nil, rfl, rfl, rfl, fun p a n => by
    rw [memRead, reset_mem, memBytes]
    exact (List.map_const' ..).trans (by rw [List.length_range]; rfl)⟩

theorem execFeedChange_dead {s t : State} {d : Deadbolt} {f : FeedId} {mv n : Nat} (hd : s.dead = some d) (h : execFeedChange f mv n s = .next t) :
    t.dead = some d ∨ 165 ≤ n ∧ feedSt s f = 3 ∧ feedSt t .a ≠ 3 ∧ feedSt t .b ≠ 3 := by
  unfold execFeedChange at h
  extract_lets st active s₁ nx s₂ s₃ at h
  have h₃ : Upholds (bedrock s) (bedrock s₃) := by
    simp only [s₃, s₂, s₁]
    split <;> simp
  have hkept : ∀ {u : State}, Upholds (bedrock s) (bedrock u) → (.next u : Out) = .next t → t.dead = some d := fun hu ht => by
    cases ht
    exact hu.dead d hd
  split at h
  · exact Or.inl (hkept (by simp [s₁]) h)
  · split at h
    · exact Or.inl (hkept (by simp [s₁]) h)
    · split at h
      · next hn hst =>
        cases h
        exact (feedLost_dead (h₃.dead d hd) f active).imp id fun hoff => ⟨by omega, hst.1, hoff⟩
      · exact Or.inl (hkept h₃ h)

/-- Settles O55: only a power cycle writes `none` to the deadbolt state. -/
theorem onlyAPowerCycleLeavesTheDeadbolt : Obligations.OnlyAPowerCycleLeavesTheDeadbolt := fun i s t d hd h => by
  by_cases hi : cyclesPower i
  · cases i <;> simp only [cyclesPower] at hi
    case feedChange f mv n =>
      exact (execFeedChange_dead hd h).imp id fun ⟨hn, hst, hoff⟩ => Or.inl ⟨f, mv, n, rfl, hn, hst, hoff⟩
    case feedQualify f =>
      have hend : Upholds (bedrock (rideOver s)) (bedrock t) := by
        change execFeedQualify f s = _ at h
        unfold execFeedQualify at h
        extract_lets x u at h
        split at h
        · split at h <;> injection h with h <;> simp [← h, u]
        · split at h <;> injection h with h <;> simp [← h, u]
      exact (rideOver_dead hd).imp (hend.dead d) fun hoff => Or.inr (Or.inl ⟨Or.inr ⟨f, rfl⟩, hoff⟩)
    case rideThroughExpire =>
      cases h
      exact (rideOver_dead hd).imp id fun hoff => Or.inr (Or.inl ⟨Or.inl rfl, hoff⟩)
    case pwrcycN low n =>
      simp only [exec, execPwrcycN] at h
      split at h
      · cases h
        exact Or.inl hd
      · next hlow =>
        split at h
        · cases h
          exact Or.inl hd
        · next hn => exact Or.inr (Or.inr (Or.inr (Or.inl ⟨n, by simp_all, by omega⟩)))
    case powerOn =>
      change execPowerOn s = _ at h
      unfold execPowerOn at h
      extract_lets held u v at h
      split at h
      · next hon => exact Or.inr (Or.inr (Or.inr (Or.inr ⟨rfl, by simpa using hon.2.1⟩)))
      · cases h
        exact Or.inl hd
  · have hkept := upholds_exec hi s
    rw [h] at hkept
    exact Or.inl (hkept.dead d hd)

end Sys2Proof.Machine
end

section
/-! SUPPORT. Accepted writes of registers that a block shows from other state, and the bits that a write gives its block (R12, R46, R52). -/

namespace Sys2Proof.Machine

/-- A write of a register that the block shows from other state is counted and has its effect; nothing is stored. -/
theorem acceptWrite_planeShown {acc : Accessor} {u n off : Nat} {b : Blk} {v : Word} {s : State} {p : PlaneId} (hu : unitPlane u = some p)
    (hown : 0x40 ≤ off % 4096) (hlock : lockHit (regFields b off) (s.on u Fld.BLK_CTRL_LOCK) (s.reg u off) v = false)
    (hshown : storeSkips s u b n off v = true) :
    acceptWrite acc u b n off v s = planeEffect p b n off (shownWord s u b off v) (s.reg u off) (s.inc u Fld.BLK_SEQ) := by
  have h8 : off % 4096 ≠ 0x008 := by omega
  have h40 : ¬ off % 4096 < 0x40 := by omega
  simp [acceptWrite, h8, h40, hlock, hshown, hu, shownWord, keptWord]

theorem regWrite_planeShown {acc : Accessor} {u n off : Nat} {b : Blk} {v : Word} {s : State} {p : PlaneId} (hb : unitBlk u = some (b, n))
    (hu : unitPlane u = some p) (hpage : off < 4096 * pagesOf b) (hacc : accepted s acc u off v = true) (hown : 0x40 ≤ off % 4096)
    (hrwl : (regFields b off).any (fun f => f.acc = .rwl) = false) (hshown : storeSkips (arrive acc u s) u b n off v = true) :
    ∃ was, regWrite acc u off v s = latchAfter was u (planeEffect p b n off (shownWord (arrive acc u s) u b off v)
      ((arrive acc u s).reg u off) ((arrive acc u s).inc u Fld.BLK_SEQ)) :=
  ⟨_, by rw [regWrite_accepted hb hpage hacc, acceptWrite_planeShown hu hown (lockHit_of_no_rwl hrwl _ _ _) hshown]⟩

/-- An accepted write of a register without RWL fields that the block stores. -/
theorem regWrite_planeStored {acc : Accessor} {u n off : Nat} {b : Blk} {v : Word} {s : State} {p : PlaneId} (hb : unitBlk u = some (b, n))
    (hu : unitPlane u = some p) (hpage : off < 4096 * pagesOf b) (hacc : accepted s acc u off v = true) (hown : 0x40 ≤ off % 4096)
    (hrwl : (regFields b off).any (fun f => f.acc = .rwl) = false) (hstored : storeSkips (arrive acc u s) u b n off v = false) :
    ∃ was, regWrite acc u off v s = latchAfter was u (planeEffect p b n off (shownWord (arrive acc u s) u b off v)
      ((arrive acc u s).reg u off) (afterStore (arrive acc u s) u b off v)) :=
  regWrite_plane hb hu hpage hacc ⟨hown, lockHit_of_no_rwl hrwl _ _ _, hstored⟩

/-- A bit of a field that the write may change is given as written. -/
theorem shownWord_getLsbD {s : State} {u off : Nat} {b : Blk} (v : Word) {i : Nat}
    (hrw : ∀ locked, (accMask (regFields b off) (fun a => a = .rw || (a = .rwl && !locked))).getLsbD i = true)
    (hw1c : (accMask (regFields b off) (fun a => a = .w1c)).getLsbD i = false) : (shownWord s u b off v).getLsbD i = v.getLsbD i := by
  have h32 : i < 32 := BitVec.lt_of_getLsbD (hrw true)
  simp only [shownWord, keptWord, mergeWrite, BitVec.getLsbD_or, BitVec.getLsbD_and, BitVec.getLsbD_not, hrw, hw1c, h32, decide_true]
  cases v.getLsbD i <;> simp

theorem bit_toNat (w : Word) (i : Nat) : bit w.toNat i = w.getLsbD i := by
  rw [bit, ← BitVec.testBit_toNat, Nat.testBit_eq_decide_div_mod_eq]

/-- The low bits of a word that a write may change are given as written. -/
theorem shownWord_low {s : State} {u off : Nat} {b : Blk} (v : Word) {k : Nat} (hk : k ≤ 32)
    (hrw : ∀ locked, accMask (regFields b off) (fun a => a = .rw || (a = .rwl && !locked)) &&& (BitVec.allOnes k).setWidth 32 = (BitVec.allOnes k).setWidth 32)
    (hw1c : accMask (regFields b off) (fun a => a = .w1c) &&& (BitVec.allOnes k).setWidth 32 = 0) :
    (shownWord s u b off v).toNat % 2 ^ k = v.toNat % 2 ^ k := by
  apply Nat.eq_of_testBit_eq
  intro i
  rw [Nat.testBit_mod_two_pow, Nat.testBit_mod_two_pow]
  by_cases hi : i < k
  · have hmask : ((BitVec.allOnes k).setWidth 32).getLsbD i = true := by simp [hi]; omega
    have hset : ∀ locked, (accMask (regFields b off) (fun a => a = .rw || (a = .rwl && !locked))).getLsbD i = true := fun locked => by
      have h := congrArg (·.getLsbD i) (hrw locked)
      simpa only [BitVec.getLsbD_and, hmask, Bool.and_true] using h
    have hclear : (accMask (regFields b off) (fun a => a = .w1c)).getLsbD i = false := by
      have h := congrArg (·.getLsbD i) hw1c
      simpa [BitVec.getLsbD_and, hmask] using h
    rw [BitVec.testBit_toNat, BitVec.testBit_toNat, shownWord_getLsbD v hset hclear]
  · simp [hi]

/-- A field that the write may change holds the written value. -/
theorem afterStore_get_written {s : State} {u off : Nat} {b : Blk} {v : Word} {f : RField} (hf : f.key = off) (hown : 0x40 ≤ off % 4096)
    (hrw : ∀ locked, accMask (regFields b off) (fun a => a = .rw || (a = .rwl && !locked)) &&& f.mask = f.mask)
    (hw1c : accMask (regFields b off) (fun a => a = .w1c) &&& f.mask = 0) : (afterStore s u b off v).get u f = fieldGet v f :=
  (afterStore_get_own hf hown).trans (fieldGet_mergeWrite (hrw _) hw1c)

/-- A register of which a write changes every bit keeps the written word. -/
theorem keptWord_full {s : State} {u off : Nat} {b : Blk} {v : Word}
    (hrw : ∀ locked, accMask (regFields b off) (fun a => a = .rw || (a = .rwl && !locked)) = BitVec.allOnes 32)
    (hw1c : accMask (regFields b off) (fun a => a = .w1c) = 0) : keptWord s u b off v = v := by
  have hall : ~~~BitVec.allOnes 32 = 0#32 := by decide
  rw [keptWord, mergeWrite, hrw, hw1c]
  simp only [hall, BitVec.ofNat_eq_ofNat, BitVec.and_allOnes, BitVec.and_zero, BitVec.zero_or, BitVec.zero_and, BitVec.not_zero]

theorem afterStore_reg_full {s : State} {u off : Nat} {b : Blk} {v : Word} (hoff : off % 4096 ≠ 0x038)
    (hrw : ∀ locked, accMask (regFields b off) (fun a => a = .rw || (a = .rwl && !locked)) = BitVec.allOnes 32)
    (hw1c : accMask (regFields b off) (fun a => a = .w1c) = 0) : (afterStore s u b off v).reg u off = v :=
  (afterStore_reg_own s hoff).trans (keptWord_full hrw hw1c)

end Sys2Proof.Machine
end

section
/-! SUPPORT. O45: writes that set up the switch (R353, R354, R358, R362 to R366), by their accepted writes. -/

namespace Sys2Proof.Machine

theorem unitBlk_POL (p : PlaneId) : unitBlk (pu p .POL) = some (.POL, 0) := by revert p; decide
theorem unitBlk_QSH (p : PlaneId) : unitBlk (pu p .QSH) = some (.QSH, 0) := by revert p; decide

/-! ### Policers (R353, R362, R366) -/

section
variable {acc : Accessor} {p : PlaneId} {v : Word} {s : State}

/-- The staging copy that POL_SEL loads. -/
theorem polEffect_sel (v : Word) (s : State) : let x := polSel s p
    let c := (x.next.map (·.1)).getD x.cur
    let t := polEffect p 0x040 v s
    t.get (pu p .POL) Fld.POL_SEL_POLICER = s.get (pu p .POL) Fld.POL_SEL_POLICER ∧ t.get (pu p .POL) Fld.POL_CIR = c.cir % 2 ^ Fld.POL_CIR.width ∧
      t.get (pu p .POL) Fld.POL_PIR = c.pir % 2 ^ Fld.POL_PIR.width ∧ t.get (pu p .POL) Fld.POL_CBS = c.cbs % 2 ^ Fld.POL_CBS.width ∧
      t.get (pu p .POL) Fld.POL_PBS = c.pbs % 2 ^ Fld.POL_PBS.width ∧ t.get (pu p .POL) Fld.POL_CFG_RED_DROP = b2n c.redDrop ∧
      t.planes = s.planes := by
  have hne : ∀ {f g : RField} (w : Nat) (u : State), f.key % 4096 ≠ g.key % 4096 → (u.put (pu p .POL) f w).get (pu p .POL) g = u.get (pu p .POL) g :=
    fun w u h => State.get_put_ne u w (regKey_ne_of_mod h)
  have hone : ∀ b : Bool, b2n b % 2 ^ Fld.POL_CFG_RED_DROP.width = b2n b := by decide
  refine ⟨?_, ?_, ?_, ?_, ?_, ?_, by simp [polEffect]⟩ <;> simp only [polEffect, if_true]
  · rw [hne _ _ (by decide), hne _ _ (by decide), hne _ _ (by decide), hne _ _ (by decide), hne _ _ (by decide)]
  · rw [hne _ _ (by decide), hne _ _ (by decide), hne _ _ (by decide), hne _ _ (by decide), State.get_put_same _ _ _ _ rfl]
  · rw [hne _ _ (by decide), hne _ _ (by decide), hne _ _ (by decide), State.get_put_same _ _ _ _ rfl]
  · rw [hne _ _ (by decide), hne _ _ (by decide), State.get_put_same _ _ _ _ rfl]
  · rw [hne _ _ (by decide), State.get_put_same _ _ _ _ rfl]
  · rw [State.get_put_same _ _ _ _ rfl, hone]

theorem polSel_congr {s t : State} (hsel : t.get (pu p .POL) Fld.POL_SEL_POLICER = s.get (pu p .POL) Fld.POL_SEL_POLICER)
    (hpl : t.planes = s.planes) : polSel t p = polSel s p := by
  have hp : t.pl p = s.pl p := by rw [State.pl, hpl, State.pl]
  simp only [polSel, hsel, State.fab, State.beats, hp]

theorem polSel_writes (hacc : accepted s acc (pu p .POL) 0x040 v = true) : Completes (.polSel acc p v) s (fun t =>
    let x := polSel t p
    let c := (x.next.map (·.1)).getD x.cur
    t.get (pu p .POL) Fld.POL_SEL_POLICER = fieldGet v Fld.POL_SEL_POLICER ∧ t.get (pu p .POL) Fld.POL_CIR = c.cir % 2 ^ Fld.POL_CIR.width ∧
    t.get (pu p .POL) Fld.POL_PIR = c.pir % 2 ^ Fld.POL_PIR.width ∧ t.get (pu p .POL) Fld.POL_CBS = c.cbs % 2 ^ Fld.POL_CBS.width ∧
    t.get (pu p .POL) Fld.POL_PBS = c.pbs % 2 ^ Fld.POL_PBS.width ∧ t.get (pu p .POL) Fld.POL_CFG_RED_DROP = b2n c.redDrop ∧
    t.planes = s.planes) := by
  obtain ⟨was, hw⟩ := regWrite_planeStored (unitBlk_POL p) (unitPlane_pu p .POL) (by decide) hacc (by decide) (by decide)
    (by simp [storeSkips, viewReg, unitPlane_pu, planeView, polRead])
  rw [planeEffect] at hw
  generalize hs₁ : afterStore (arrive acc (pu p .POL) s) (pu p .POL) .POL 0x040 v = s₁ at hw
  have hplanes : s₁.planes = s.planes := by rw [← hs₁, (afterStore_frame ..).1, (arrive_frame ..).1]
  have hsel₁ : s₁.get (pu p .POL) Fld.POL_SEL_POLICER = fieldGet v Fld.POL_SEL_POLICER := by
    rw [← hs₁]
    exact afterStore_get_written rfl (by decide) (by decide) (by decide)
  obtain ⟨hsel, hcir, hpir, hcbs, hpbs, hred, hpl⟩ := polEffect_sel (p := p) (shownWord (arrive acc (pu p .POL) s) (pu p .POL) .POL 0x040 v) s₁
  have hlatched : ∀ {f : RField} (t : State), f.key % 4096 ≠ 0x018 → (latchAfter was (pu p .POL) t).get (pu p .POL) f = t.get (pu p .POL) f :=
    fun t hf => latchAfter_get _ _ (regKey_ne_of_mod hf.symm)
  have hsame : polSel (latchAfter was (pu p .POL) (polEffect p 0x040 (shownWord (arrive acc (pu p .POL) s) (pu p .POL) .POL 0x040 v) s₁)) p =
      polSel s₁ p := polSel_congr (by rw [hlatched _ (by decide), hsel]) (by rw [latchAfter_planes, hpl])
  refine ⟨_, congrArg Host.Outcome.next hw, ?_⟩
  simp only [hsame, latchAfter_planes]
  rw [hlatched _ (by decide), hlatched _ (by decide), hlatched _ (by decide), hlatched _ (by decide), hlatched _ (by decide), hlatched _ (by decide)]
  exact ⟨hsel.trans hsel₁, hcir, hpir, hcbs, hpbs, hred, hpl.trans hplanes⟩

/-- The parameters that stand staged. -/
def stagedParams (s : State) (p : PlaneId) : PolParams :=
  { cir := s.get (pu p .POL) Fld.POL_CIR, pir := s.get (pu p .POL) Fld.POL_PIR, cbs := s.get (pu p .POL) Fld.POL_CBS
    pbs := s.get (pu p .POL) Fld.POL_PBS, redDrop := s.on (pu p .POL) Fld.POL_CFG_RED_DROP }

/-- The policers once the staged parameters are the next ones of the selected one. -/
def appliedPols (s : State) (p : PlaneId) (pols : SMap Policer) : SMap Policer :=
  let i := s.get (pu p .POL) Fld.POL_SEL_POLICER
  mput pols i { ((mgetD pols i {}).settle (s.beats p)) with next := some (stagedParams s p, s.beats p) }

theorem polEffect_apply {w : Word} (h : w.getLsbD 0 = true) (t : State) : polEffect p Fld.POL_CTL_APPLY.key w t =
    modFab p (fun f => { f with pols := appliedPols t p f.pols }) t := by
  have hoff : Fld.POL_CTL_APPLY.key = 0x058 := rfl
  have hsel : ¬ (0x058 : Nat) = 0x040 := by decide
  simp only [polEffect, hoff, hsel, h, if_false, and_self, if_true, appliedPols, stagedParams]

theorem polApply_applies (hacc : accepted s acc (pu p .POL) Fld.POL_CTL_APPLY.key (v ||| Fld.POL_CTL_APPLY.mask) = true) :
    Completes (.polApply acc p v) s (fun t =>
      (mgetD (t.fab p).pols (s.get (pu p .POL) Fld.POL_SEL_POLICER) {}).next = some (stagedParams s p, s.beats p) ∧
      ∀ k, k ≠ s.get (pu p .POL) Fld.POL_SEL_POLICER → mget (t.fab p).pols k = mget (s.fab p).pols k) := by
  obtain ⟨was, hw⟩ := regWrite_planeStored (unitBlk_POL p) (unitPlane_pu p .POL) (by decide) hacc (by decide) (by decide)
    (by simp [storeSkips, viewReg, unitPlane_pu, planeView, polRead, RField.key, Fld.POL_CTL_APPLY])
  have hshown := shownWord_command (b := .POL) (off := Fld.POL_CTL_APPLY.key) (m := Fld.POL_CTL_APPLY.mask) (by decide) (by decide)
    (arrive acc (pu p .POL) s) (pu p .POL) v
  rw [planeEffect, polEffect_apply hshown] at hw
  generalize hs₁ : afterStore (arrive acc (pu p .POL) s) (pu p .POL) .POL Fld.POL_CTL_APPLY.key (v ||| Fld.POL_CTL_APPLY.mask) = s₁ at hw
  have hkept : ∀ f : RField, Fld.POL_CTL_APPLY.key % 4096 ≠ f.key % 4096 → f.key % 4096 ≠ 0x038 → s₁.get (pu p .POL) f = s.get (pu p .POL) f :=
    fun f h h' => by rw [← hs₁, afterStore_get_ne h h', arrive_get_pu]
  have hpl : s₁.pl p = s.pl p := by simp [← hs₁]
  have hstaged : stagedParams s₁ p = stagedParams s p := by
    simp only [stagedParams, State.on, hkept Fld.POL_CIR (by decide) (by decide), hkept Fld.POL_PIR (by decide) (by decide),
      hkept Fld.POL_CBS (by decide) (by decide), hkept Fld.POL_PBS (by decide) (by decide), hkept Fld.POL_CFG_RED_DROP (by decide) (by decide)]
  have hpols : ∀ pols, appliedPols s₁ p pols = appliedPols s p pols := fun pols => by
    simp only [appliedPols, hkept Fld.POL_SEL_POLICER (by decide) (by decide), hstaged, State.beats, hpl]
  simp only [hpols] at hw
  refine ⟨_, congrArg Host.Outcome.next hw, ?_, fun k hk => ?_⟩ <;>
    rw [State.fab, latchAfter_pl, ← State.fab, modFab_fab, State.fab, hpl, ← State.fab, appliedPols]
  · rw [mgetD, mget_mput_same]
    rfl
  · exact mget_mput_ne _ _ hk.symm

/-! ### Tables (R354, R362) -/

theorem flip_asks (hacc : accepted s acc (pu p .SWC) Fld.SWC_EPOCH_FLIP.key (v ||| Fld.SWC_EPOCH_FLIP.mask) = true) :
    Completes (.flip acc p v) s (fun t => (t.fab p).flip = some (1 - curBank s p) ∧ curBank t p = curBank s p ∧ (t.fab p).tbl = (s.fab p).tbl) := by
  obtain ⟨was, hw⟩ := regWrite_planeStored (unitBlk_SWC p) (unitPlane_pu p .SWC) (by decide) hacc (by decide) (by decide)
    (by simp [storeSkips, viewReg, unitPlane_pu, planeView, swcRead, RField.key, Fld.SWC_EPOCH_FLIP])
  have hshown : (shownWord (arrive acc (pu p .SWC) s) (pu p .SWC) .SWC Fld.SWC_EPOCH_FLIP.key (v ||| Fld.SWC_EPOCH_FLIP.mask)).getLsbD 1 = true := by
    have hwo : (accMask (regFields .SWC Fld.SWC_EPOCH_FLIP.key) (fun a => a = .wo || a = .w1c)).getLsbD 1 = true := by decide
    have hmask : Fld.SWC_EPOCH_FLIP.mask.getLsbD 1 = true := by decide
    simp only [shownWord, BitVec.getLsbD_or, BitVec.getLsbD_and, hwo, hmask, Bool.or_true, Bool.and_true]
  have heffect : ∀ {w : Word}, w.getLsbD 1 = true → ∀ t : State, swcEffect p Fld.SWC_EPOCH_FLIP.key w t =
      modFab p (fun f => { f with flip := some (1 - curBank t p) }) t := fun h t =>
      (if_neg (by decide)).trans (if_pos ⟨rfl, h⟩)
  rw [planeEffect, heffect hshown] at hw
  generalize hs₁ : afterStore (arrive acc (pu p .SWC) s) (pu p .SWC) .SWC Fld.SWC_EPOCH_FLIP.key (v ||| Fld.SWC_EPOCH_FLIP.mask) = s₁ at hw
  have hpl : s₁.pl p = s.pl p := by simp [← hs₁]
  have hcur : curBank s₁ p = curBank s p := by
    rw [curBank, ← hs₁, afterStore_get_own (f := Fld.SWC_EPOCH_CUR) (off := Fld.SWC_EPOCH_FLIP.key) rfl (by decide),
      keptWord_of_commands (by decide) (by decide)]
    exact arrive_get_pu acc _ s p .SWC Fld.SWC_EPOCH_CUR
  refine ⟨_, congrArg Host.Outcome.next hw, ?_, ?_, ?_⟩
  · rw [State.fab, latchAfter_pl, ← State.fab, modFab_fab, hcur]
  · rw [curBank, latchAfter_get _ _ (regKey_ne_of_mod (by decide)), modFab_get, ← curBank, hcur]
  · rw [State.fab, latchAfter_pl, ← State.fab, modFab_fab, State.fab, hpl, State.fab]

theorem swcTblData_writes (hacc : accepted s acc (pu p .SWC) 0x084 v = true) : Completes (.swcTblData acc p v) s (fun t =>
    let (a, b, i, w) := tblSel s p
    tblWord t p b a i w = v.toNat ∧ ∀ k, k ≠ tblKey b a i w → mget (t.fab p).tbl k = mget (s.fab p).tbl k) := by
  obtain ⟨was, hw⟩ := regWrite_planeShown (unitBlk_SWC p) (unitPlane_pu p .SWC) (by decide) hacc (by decide) (by decide)
    (by simp [storeSkips, viewReg, unitPlane_pu, planeView, swcRead]; split <;> rfl)
  have hshown : shownWord (arrive acc (pu p .SWC) s) (pu p .SWC) .SWC 0x084 v = v :=
    (shownWord_of_no_command (by decide)).trans (keptWord_full (by decide) (by decide))
  generalize hs₁ : (arrive acc (pu p .SWC) s).inc (pu p .SWC) Fld.BLK_SEQ = s₁ at hw
  have hpl : s₁.pl p = s.pl p := by simp [← hs₁]
  have hsel : tblSel s₁ p = tblSel s p := by
    have hkept : ∀ f : RField, f.key % 4096 ≠ 0x038 → s₁.get (pu p .SWC) f = s.get (pu p .SWC) f :=
      fun f h => by
        have hseq : Fld.BLK_SEQ.key % 4096 ≠ f.key % 4096 := h.symm
        rw [← hs₁, State.inc, State.get_put_ne _ _ (regKey_ne_of_mod hseq), arrive_get_pu]
    simp only [tblSel, hkept Fld.SWC_TBL_SEL_TABLE (by decide), hkept Fld.SWC_TBL_SEL_BANK (by decide), hkept Fld.SWC_TBL_SEL_INDEX (by decide),
      hkept Fld.SWC_TBL_SEL_WORD (by decide)]
  rw [planeEffect, hshown, swcEffect, if_pos rfl, hsel] at hw
  refine ⟨_, congrArg Host.Outcome.next hw, ?_⟩
  simp only [tblWord, State.fab, latchAfter_pl, modFab, State.modPl_pl_same, hpl, mgetD, mget_mput_same]
  exact ⟨rfl, fun k hk => mget_mput_ne _ _ hk.symm⟩

theorem swcSeedHi_restarts (hacc : accepted s acc (pu p .SWC) 0x07C v = true) :
    Completes (.swcSeedHi acc p v) s (fun t => t.reg (pu p .SWC) 0x07C = v ∧ drawCount t p = 0 ∧ t.planes = s.planes) := by
  obtain ⟨was, hw⟩ := regWrite_planeStored (unitBlk_SWC p) (unitPlane_pu p .SWC) (by decide) hacc (by decide) (by decide)
    (by simp [storeSkips, viewReg, unitPlane_pu, planeView, swcRead])
  have heffect : ∀ (w : Word) (t : State), swcEffect p 0x07C w t = t.put64 (pu p .SWC) Fld.SWC_DRAW_LO Fld.SWC_DRAW_HI 0 := fun w t => rfl
  rw [planeEffect, heffect] at hw
  refine ⟨_, congrArg Host.Outcome.next hw, ?_, ?_, ?_⟩
  · rw [latchAfter_reg _ _ (regKey_ne_of_mod (by decide)), State.put64, State.reg_put_ne _ _ (regKey_ne_of_mod (by decide)),
      State.reg_put_ne _ _ (regKey_ne_of_mod (by decide))]
    exact afterStore_reg_full (by decide) (by decide) (by decide)
  · rw [drawCount, State.get64, latchAfter_get _ _ (regKey_ne_of_mod (by decide)), latchAfter_get _ _ (regKey_ne_of_mod (by decide)), State.put64,
      State.get_put_same _ _ _ _ rfl, State.get_put_ne _ _ (regKey_ne_of_mod (by decide)), State.get_put_same _ _ _ _ rfl]
    rfl
  · rw [latchAfter_planes]
    change (afterStore (arrive acc (pu p .SWC) s) (pu p .SWC) .SWC 0x07C v).planes = s.planes
    rw [(afterStore_frame ..).1, (arrive_frame ..).1]

/-! ### Queues and shapers (R358, R363 to R365) -/

/-- A write of a queue's or a port's settings: QSH shows them from its own state, and stores nothing. -/
theorem regWrite_shaper {off : Nat} (hacc : accepted s acc (pu p .QSH) off v = true) (hoff : off = 0x044 ∨ off = 0x06C) :
    ∃ was s₁, s₁.pl p = s.pl p ∧ (∀ n, portRole s₁ p n = portRole s p n) ∧ qshSel s₁ p = qshSel s p ∧
      regWrite acc (pu p .QSH) off v s = latchAfter was (pu p .QSH) (qshEffect p off (shownWord (arrive acc (pu p .QSH) s) (pu p .QSH) .QSH off v) s₁) := by
  have hshown : storeSkips (arrive acc (pu p .QSH) s) (pu p .QSH) .QSH 0 off v = true := by
    rcases hoff with rfl | rfl
    · simp [storeSkips, viewReg, unitPlane_pu, planeView, qshRead]
      split <;> rfl
    · simp [storeSkips, viewReg, unitPlane_pu, planeView, qshRead]
  obtain ⟨was, hw⟩ := regWrite_planeShown (unitBlk_QSH p) (unitPlane_pu p .QSH) (by rcases hoff with rfl | rfl <;> decide) hacc
    (by rcases hoff with rfl | rfl <;> decide) (by rcases hoff with rfl | rfl <;> decide) hshown
  refine ⟨was, _, ?_, ?_, ?_, hw⟩
  · simp
  · intro n
    rw [portRole, State.inc, State.get_put_ne _ _ (regKey_ne_of_mod (by decide)), arrive_get _ _ _ (by decide), portRole]
  · rw [qshSel, State.inc, State.get_put_ne _ _ (regKey_ne_of_mod (by decide)), arrive_get_pu, qshSel]

theorem shaperWrite_portBurst (hacc : accepted s acc (pu p .QSH) 0x06C v = true) : Completes (.shaperWrite acc p .portBurst v) s (fun t =>
    let n := qshSel s p / 8
    (pState t p n).shaper.burst = v.toNat % 2 ^ 20 ∧ (pState t p n).shaper.rate = (pState s p n).shaper.rate ∧
    (pState t p n).shaper.tok ≤ ((v.toNat % 2 ^ 20 * 422400 : Nat) : Int) ∧ (t.fab p).qs = (s.fab p).qs) := by
  obtain ⟨was, s₁, hpl, -, hsel, hw⟩ := regWrite_shaper hacc (Or.inr rfl)
  have hburst : (shownWord (arrive acc (pu p .QSH) s) (pu p .QSH) .QSH 0x06C v).toNat % 2 ^ 20 = v.toNat % 2 ^ 20 :=
    shownWord_low v (by decide) (by decide) (by decide)
  have htok : ∀ (b : Shaper) (slot : Nat) (en : Bool) (rate burst : Nat), (b.write slot en rate burst).tok ≤ ((burst * 422400 : Nat) : Int) :=
    fun b slot en rate burst => by
      simp only [Shaper.write]
      split
      · exact le_refl _
      · exact min_le_right _ _
  have heffect : qshEffect p 0x06C (shownWord (arrive acc (pu p .QSH) s) (pu p .QSH) .QSH 0x06C v) s₁ = modP p (qshSel s p / 8) (fun y => { y with
      shaper := y.shaper.write (s.ft p / 20) (pState s p (qshSel s p / 8)).shaper.en (pState s p (qshSel s p / 8)).shaper.rate (v.toNat % 2 ^ 20) }) s₁ := by
    simp only [qshEffect, hsel, hburst, State.ft, pState, State.fab, hpl]
    exact if_neg (by omega)
  rw [heffect] at hw
  refine ⟨_, congrArg Host.Outcome.next hw, ?_⟩
  simp only [pState, State.fab, latchAfter_pl, modP, modFab, State.modPl_pl_same, hpl, mgetD, mget_mput_same, Option.getD_some]
  exact ⟨rfl, rfl, htok _ _ _ _ _, trivial⟩

theorem shaperWrite_queueCfg (hacc : accepted s acc (pu p .QSH) 0x044 v = true) (hused : queueUsed s p (qshSel s p / 8) (qshSel s p % 8) = true) :
    Completes (.shaperWrite acc p .queueCfg v) s (fun t => let k := qshSel s p
      (qState t p k).quantum = v.toNat % 4096 ∧ qStrict t p k = v.getLsbD 12 ∧ (qState t p k).shaper.en = v.getLsbD 13 ∧
      (t.fab p).ps = (s.fab p).ps) := by
  obtain ⟨was, s₁, hpl, hrole, hsel, hw⟩ := regWrite_shaper hacc (Or.inl rfl)
  have hquantum : (shownWord (arrive acc (pu p .QSH) s) (pu p .QSH) .QSH 0x044 v).toNat % 4096 = v.toNat % 4096 :=
    shownWord_low (k := 12) v (by decide) (by decide) (by decide)
  have hbit : ∀ i, i = 12 ∨ i = 13 → bit (shownWord (arrive acc (pu p .QSH) s) (pu p .QSH) .QSH 0x044 v).toNat i = v.getLsbD i := fun i hi => by
    rw [bit_toNat]
    rcases hi with rfl | rfl <;> exact shownWord_getLsbD v (by decide) (by decide)
  have hused₁ : queueUsed s₁ p (qshSel s p / 8) (qshSel s p % 8) = true := by simpa only [queueUsed, hrole] using hused
  have heffect : qshEffect p 0x044 (shownWord (arrive acc (pu p .QSH) s) (pu p .QSH) .QSH 0x044 v) s₁ = modQ p (qshSel s p) (fun y => { y with
      quantum := v.toNat % 4096, strict := some (v.getLsbD 12)
      shaper := y.shaper.write (s₁.ft p / 20) (v.getLsbD 13) (qState s₁ p (qshSel s p)).shaper.rate (qState s₁ p (qshSel s p)).shaper.burst }) s₁ := by
    simp only [qshEffect, hsel, hquantum, hbit 12 (Or.inl rfl), hbit 13 (Or.inr rfl)]
    exact if_neg fun h => h.2.2 hused₁
  rw [heffect] at hw
  refine ⟨_, congrArg Host.Outcome.next hw, ?_⟩
  simp only [qState, qStrict, State.fab, latchAfter_pl, modQ, modFab, State.modPl_pl_same, hpl, mgetD, mget_mput_same, Option.getD_some]
  refine ⟨?_, ?_, ?_, ?_⟩ <;> trivial

theorem clrmax_restarts (hacc : accepted s acc (pu p .QSH) Fld.QSH_CMD_CLRMAX.key (v ||| Fld.QSH_CMD_CLRMAX.mask) = true) :
    Completes (.clrmax acc p v) s (fun t => let k := qshSel s p
      (qState t p k).maxDepth = depthOf s p k ∧ (qState t p k).maxDelay = 0 ∧ (qState t p k).lastDelay = (qState s p k).lastDelay) := by
  obtain ⟨was, hw⟩ := regWrite_planeStored (unitBlk_QSH p) (unitPlane_pu p .QSH) (by decide) hacc (by decide) (by decide)
    (by simp [storeSkips, viewReg, unitPlane_pu, planeView, qshRead, RField.key, Fld.QSH_CMD_CLRMAX])
  have hshown := shownWord_command (b := .QSH) (off := Fld.QSH_CMD_CLRMAX.key) (m := Fld.QSH_CMD_CLRMAX.mask) (by decide) (by decide)
    (arrive acc (pu p .QSH) s) (pu p .QSH) v
  have heffect : ∀ {w : Word}, w.getLsbD 0 = true → ∀ t : State, qshEffect p Fld.QSH_CMD_CLRMAX.key w t =
      modQ p (qshSel t p) (fun y => { y with maxDepth := depthOf t p (qshSel t p), maxDelay := 0 }) t := fun h t => by
    have hb := (bit_toNat _ 0).trans h
    have hoff : Fld.QSH_CMD_CLRMAX.key = 0x078 := rfl
    have hown : ¬ (0x078 : Nat) < 0x064 := by decide
    simp only [qshEffect, hoff, hown, false_and, and_false, if_false, hb, if_true]
  rw [planeEffect, heffect hshown] at hw
  generalize hs₁ : afterStore (arrive acc (pu p .QSH) s) (pu p .QSH) .QSH Fld.QSH_CMD_CLRMAX.key (v ||| Fld.QSH_CMD_CLRMAX.mask) = s₁ at hw
  have hpl : s₁.pl p = s.pl p := by simp [← hs₁]
  have hsel : qshSel s₁ p = qshSel s p := by rw [qshSel, ← hs₁, afterStore_get_ne (by decide) (by decide), arrive_get_pu, qshSel]
  have hdepth : ∀ k, depthOf s₁ p k = depthOf s p k := fun k => by
    simp only [depthOf, queueOf, writtenOf, frameOf, State.fab, hpl]
  rw [hsel, hdepth] at hw
  refine ⟨_, congrArg Host.Outcome.next hw, ?_⟩
  simp only [qState, State.fab, latchAfter_pl, modQ, modFab, State.modPl_pl_same, hpl, mgetD, mget_mput_same, Option.getD_some]
  exact ⟨trivial, trivial, trivial⟩

end

/-- Settles O45: each write by what its block's effect answers. -/
theorem switchWrites : Obligations.SwitchWrites :=
  ⟨fun _ _ _ _ => polSel_writes, fun _ _ _ _ => polApply_applies, fun _ _ _ _ => flip_asks, fun _ _ _ _ => swcTblData_writes,
    fun _ _ _ _ => swcSeedHi_restarts, fun _ _ _ _ => shaperWrite_portBurst, fun _ _ _ _ => shaperWrite_queueCfg, fun _ _ _ _ => clrmax_restarts⟩

end Sys2Proof.Machine
end

section
/-! SUPPORT. O47: host ports (R367, R371, R372, R374, R415): the lease's holder, what a port reset leaves, and the configuration of the function. -/

namespace Sys2Proof.Machine

/-! ### The holder of the lease (R373, R375) -/

theorem regKey_pci (h : HubId) (off : Nat) : regKey (hu h .PCI) off = (hu h .PCI, if off % 4096 < 0x40 then off % 4096 else off) := by
  have hb : hu h .PCI ≠ 0x414 := by cases h <;> decide
  simp only [regKey, hb, if_false]
  split <;> rfl

/-- The two hubs' pages are apart. -/
theorem regKey_pci_ne {h k : HubId} (hne : h ≠ k) (off off' : Nat) : regKey (hu h .PCI) off ≠ regKey (hu k .PCI) off' := by
  rw [regKey_pci, regKey_pci]
  have hunit : hu h .PCI ≠ hu k .PCI := by
    cases h <;> cases k
    · exact absurd rfl hne
    · decide
    · decide
    · exact absurd rfl hne
  exact fun hk => hunit (congrArg Prod.fst hk)

/-- A change of a hub's own state beside its Keyplate leaves every field. -/
theorem get_modHub {g : Hub → Hub} (hg : ∀ x, (g x).kpl = x.kpl) (s : State) (k : HubId) (u : Nat) (f : RField) :
    (s.modHub k g).get u f = s.get u f := congrArg (fieldGet · f) (modHub_reg s k g u f.key hg)

section
variable (h : HubId) (s : State)

theorem holder_lt : holder s < 4 := by
  rw [holder, State.get, fieldGet]
  exact BitVec.isLt _

/-- The two hubs' marks of a changed holder (R373). -/
def markHolder (s : State) : State :=
  { (s.modHub .a (fun x => { x with pci := { x.pci with holderChg := true } })).modHub .b (fun x => { x with pci := { x.pci with holderChg := true } })
    with lease := { s.lease with low := false, newB := false } }

theorem setHolder_eq (v : Nat) : setHolder v s =
    if holder s = v then s else markHolder ((s.put (hu .a .PCI) Fld.PCI_LEASE_HOLDER v).put (hu .b .PCI) Fld.PCI_LEASE_HOLDER v) := rfl

/-- The marks touch no register. -/
theorem get_markHolder (u : Nat) (f : RField) : (markHolder s).get u f = s.get u f :=
  congrArg (fieldGet · f) (State.reg_congr (s := s) (t := markHolder s) rfl ⟨rfl, rfl, rfl, fun k => by cases k <;> rfl⟩ u f.key)

theorem holder_setHolder {v : Nat} (hv : v < 4) : holder (setHolder v s) = v := by
  rw [setHolder_eq]
  split
  · assumption
  · rw [holder, get_markHolder, State.get_put_ne _ _ (regKey_pci_ne (by decide) _ _), State.get_put_same _ _ _ _ rfl]
    exact Nat.mod_eq_of_lt hv

@[simp] theorem setHolder_planes (v : Nat) : (setHolder v s).planes = s.planes := by
  unfold setHolder
  split <;> rfl
@[simp] theorem setHolder_mbx (v : Nat) : (setHolder v s).mbx = s.mbx := by
  unfold setHolder
  split <;> rfl

/-- A change of HOLDER leaves the other registers. -/
theorem setHolder_get (v : Nat) {u : Nat} {f : RField} (hf : f.key % 4096 ≠ 0x048) : (setHolder v s).get u f = s.get u f := by
  have hkey : ∀ k, regKey (hu k .PCI) Fld.PCI_LEASE_HOLDER.key ≠ regKey u f.key := fun k => regKey_ne_of_mod (Ne.symm hf)
  rw [setHolder_eq]
  split
  · rfl
  · rw [get_markHolder, State.get_put_ne _ _ (hkey .b), State.get_put_ne _ _ (hkey .a)]

@[simp] theorem endLease_planes : (endLease h s).planes = s.planes := by unfold endLease; split <;> simp
@[simp] theorem endLease_mbx : (endLease h s).mbx = s.mbx := by unfold endLease; split <;> simp
theorem endLease_get {u : Nat} {f : RField} (hf : f.key % 4096 ≠ 0x048) : (endLease h s).get u f = s.get u f := by
  unfold endLease
  split
  · exact setHolder_get s 0 hf
  · rfl

theorem portCode_ne_zero : portCode h ≠ 0 := by cases h <;> decide

/-- After the end of a port's lease the port holds none, and another's lease stands. -/
theorem holder_endLease : holder (endLease h s) = if holder s = portCode h then 0 else holder s := by
  unfold endLease
  split
  · exact holder_setHolder s (by decide)
  · rfl

end

theorem holder_modHub (h : HubId) (g : Hub → Hub) (hg : ∀ x, (g x).kpl = x.kpl) (s : State) : holder (s.modHub h g) = holder s :=
  get_modHub hg _ _ _ _

/-! ### A port reset (R372) -/

section
variable (h : HubId) (s : State)

/-- An erased register of the PCI block reads its reset value. -/
theorem eraseRegs_pci_get {f : RField} : (s.eraseRegs (hu h .PCI) []).get (hu h .PCI) f =
    fieldGet (resetVal s (regKey (hu h .PCI) f.key).1 (regKey (hu h .PCI) f.key).2) f := by
  have hreset := resetVal_congr (s := s) (t := s.eraseRegs (hu h .PCI) []) ⟨rfl, rfl, rfl, fun _ => rfl⟩
  rw [State.get, State.reg, regKey_pci, hreset]
  simp [State.eraseRegs, mget_mput_same]

/-- Another unit's registers stay. -/
theorem eraseRegs_get_ne {u u' : Nat} {f : RField} (keep : List Nat) (hu : u ≠ (regKey u' f.key).1) : (s.eraseRegs u keep).get u' f = s.get u' f := by
  have hreset := resetVal_congr (s := s) (t := s.eraseRegs u keep) ⟨rfl, rfl, rfl, fun _ => rfl⟩
  simp only [State.get, State.reg, hreset]
  simp only [State.eraseRegs, mget_mput_ne _ _ hu]

/-- PCI_STAT and PCI_CFG reset to 0. -/
theorem resetVal_pci {off : Nat} (hoff : off = 0x040 ∨ off = 0x044) : resetVal s (hu h .PCI) off = 0 := by
  rcases hoff with rfl | rfl <;> cases h <;> rfl

theorem portReset_get_pci {f : RField} (hf : f.key = 0x040 ∨ f.key = 0x044) : (portReset h s).get (hu h .PCI) f = 0 := by
  have hkey : Fld.PCI_LEASE_HOLDER.key % 4096 ≠ f.key % 4096 := by rcases hf with hf | hf <;> rw [hf] <;> decide
  have hself : regKey (hu h .PCI) f.key = (hu h .PCI, f.key) := by rw [regKey_pci, if_neg (by rcases hf with hf | hf <;> rw [hf] <;> decide)]
  simp only [portReset]
  rw [get_modHub, State.get_put_ne _ _ (regKey_ne_of_mod hkey), eraseRegs_pci_get, hself, resetVal_pci h _ hf]
  · simp [fieldGet]
  · exact fun _ => rfl

/-- After a port reset the port holds no lease, and another's lease stands. -/
theorem holder_portReset : holder (portReset h s) = if holder s = portCode h then 0 else holder s := by
  have hlt := holder_lt s
  simp only [portReset]
  rw [holder_modHub (hg := fun x => by rfl)]
  cases h with
  | a =>
    rw [holder, State.get_put_same _ _ _ _ rfl]
    refine Nat.mod_eq_of_lt ?_
    split
    · decide
    · exact hlt
  | b =>
    rw [holder, State.get_put_ne _ _ (regKey_pci_ne (by decide) _ _), eraseRegs_get_ne _ _ (by rw [regKey_pci]; decide)]
    exact holder_endLease .b s

theorem holder_portReset_ne : holder (portReset h s) ≠ portCode h := by
  rw [holder_portReset]
  split
  · exact (portCode_ne_zero h).symm
  · assumption

@[simp] theorem portReset_planes : (portReset h s).planes = s.planes := by simp [portReset]
@[simp] theorem portReset_mbx : (portReset h s).mbx = s.mbx := by simp [portReset]
theorem portReset_pci : ((portReset h s).hub h).pci.msix = [] ∧ ((portReset h s).hub h).pci.msixEn = false := by
  simp only [portReset, State.modHub_hub_same, and_self]

end

/-! ### The events of a port -/

section
variable (h : HubId) (s : State)

theorem perst_resets {n : Nat} (hn : 1650 ≤ n) (hoff : s.pwr.offUntil = none) :
    Completes (.perst h n) s (fun t => (t.hub h).pci.perst = true ∧ (t.hub h).pci.msix = [] ∧ (t.hub h).pci.msixEn = false ∧
      t.get (hu h .PCI) Fld.PCI_STAT_LINK_UP = 0 ∧ holder t ≠ portCode h ∧ (holder s ≠ portCode h → holder t = holder s) ∧ t.mbx = s.mbx ∧
      t.planes = s.planes) := by
  obtain ⟨hmsix, hen⟩ := portReset_pci h s
  refine ⟨_, if_pos ⟨hn, by rw [hoff]; rfl⟩, ?_, ?_, ?_, ?_, ?_, fun hne => ?_, ?_, ?_⟩
  · rw [State.modHub_hub_same]
  · rw [State.modHub_hub_same]
    exact hmsix
  · rw [State.modHub_hub_same]
    exact hen
  · rw [get_modHub, portReset_get_pci h s (Or.inl rfl)]
    exact fun _ => rfl
  · rw [holder_modHub]
    · exact holder_portReset_ne h s
    · exact fun _ => rfl
  · rw [holder_modHub, holder_portReset, if_neg hne]
    exact fun _ => rfl
  · simp
  · simp

theorem flr_resets (hpow : s.powered (hu h .PCI) = true) : Completes (.flr h) s (fun t => (t.hub h).pci.msix = [] ∧
    t.get (hu h .PCI) Fld.PCI_STAT_LINK_UP = 0 ∧ holder t ≠ portCode h ∧ t.get (hu h .PCI) Fld.PCI_CFG_READY = 0 ∧ t.mbx = s.mbx ∧
    t.planes = s.planes) :=
  ⟨_, if_pos hpow, (portReset_pci h s).1, portReset_get_pci h s (Or.inl rfl), holder_portReset_ne h s, portReset_get_pci h s (Or.inr rfl),
    portReset_mbx h s, portReset_planes h s⟩

theorem pcieLinkDown_ends : Completes (.pcieLinkDown h) s (fun t => t.get (hu h .PCI) Fld.PCI_STAT_LINK_UP = 0 ∧ holder t ≠ portCode h ∧
    t.planes = s.planes ∧ t.mbx = s.mbx) := by
  refine ⟨_, rfl, ?_, ?_, ?_, ?_⟩
  · rw [endLease_get _ _ (by decide)]
    simp (disch := decide) only [State.get_put_beside]
    exact State.get_put_same _ _ _ _ rfl
  · rw [holder_endLease]
    split
    · exact (portCode_ne_zero h).symm
    · assumption
  · simp
  · simp

theorem pcieLinkUp_shows (hpow : s.powered (hu h .PCI) = true) (hperst : (s.hub h).pci.perst = false) :
    Completes (.pcieLinkUp h 6 8) s (fun t => t.get (hu h .PCI) Fld.PCI_STAT_LINK_UP = 1 ∧ t.get (hu h .PCI) Fld.PCI_STAT_RATE = 6 ∧
      t.get (hu h .PCI) Fld.PCI_STAT_WIDTH = 8 ∧ t.get (hu h .PCI) Fld.PCI_STAT_FLIT = 1 ∧ t.planes = s.planes) := by
  refine ⟨_, if_pos ⟨hpow, by simp [hperst], by decide, by decide⟩, ?_, ?_, ?_, ?_, ?_⟩
  · simp (disch := decide) only [State.get_put_beside]
    exact State.get_put_same _ _ _ _ rfl
  · simp (disch := decide) only [State.get_put_beside]
    exact State.get_put_same _ _ _ _ rfl
  · simp (disch := decide) only [State.get_put_beside]
    exact State.get_put_same _ _ _ _ rfl
  · exact State.get_put_same _ _ _ _ rfl
  · simp

/-! ### Configuration writes (R367, R369, R372) -/

/-- What sending messages leaves alone: the registers, the Keyplates, the planes, and of the function all but the messages that wait. -/
structure KeepsFunction (h : HubId) (s t : State) : Prop where
  regs : t.regs = s.regs
  source : SameSource s t
  planes : t.planes = s.planes
  msix : (t.hub h).pci.msix = (s.hub h).pci.msix
  msixEn : (t.hub h).pci.msixEn = (s.hub h).pci.msixEn
  cfg : (t.hub h).pci.cfg = (s.hub h).pci.cfg

theorem KeepsFunction.refl : KeepsFunction h s s := ⟨rfl, ⟨rfl, rfl, rfl, fun _ => rfl⟩, rfl, rfl, rfl, rfl⟩

theorem KeepsFunction.trans {h : HubId} {s t w : State} (a : KeepsFunction h s t) (b : KeepsFunction h t w) : KeepsFunction h s w where
  regs := b.regs.trans a.regs
  source := ⟨b.source.cfg.trans a.source.cfg, b.source.ident.trans a.source.ident, b.source.fitted.trans a.source.fitted,
    fun k => (b.source.kpl k).trans (a.source.kpl k)⟩
  planes := b.planes.trans a.planes
  msix := b.msix.trans a.msix
  msixEn := b.msixEn.trans a.msixEn
  cfg := b.cfg.trans a.cfg

theorem KeepsFunction.get {h : HubId} {s t : State} (a : KeepsFunction h s t) (u : Nat) (f : RField) : t.get u f = s.get u f :=
  congrArg (fieldGet · f) (State.reg_congr a.regs a.source u f.key)

theorem keepsFunction_modHub {g : Hub → Hub} (hkpl : ∀ x, (g x).kpl = x.kpl) (hmsix : ∀ x, (g x).pci.msix = x.pci.msix)
    (hen : ∀ x, (g x).pci.msixEn = x.pci.msixEn) (hcfg : ∀ x, (g x).pci.cfg = x.pci.cfg) : KeepsFunction h s (s.modHub h g) where
  regs := State.modHub_regs ..
  source := modHub_source s h g hkpl
  planes := State.modHub_planes ..
  msix := by rw [State.modHub_hub_same, hmsix]
  msixEn := by rw [State.modHub_hub_same, hen]
  cfg := by rw [State.modHub_hub_same, hcfg]

theorem keepsFunction_sendMsix (vec : Nat) : KeepsFunction h s (sendMsix h vec s) := by
  unfold sendMsix
  extract_lets
  split
  · exact ⟨rfl, ⟨rfl, rfl, rfl, fun _ => rfl⟩, rfl, rfl, rfl, rfl⟩
  · split
    · exact keepsFunction_modHub h s (fun _ => rfl) (fun _ => rfl) (fun _ => rfl) (fun _ => rfl)
    · exact .refl h s

theorem keepsFunction_flushMsix : KeepsFunction h s (flushMsix h s) := by
  have hfold : ∀ (l : List Nat) (t : State), KeepsFunction h t (l.foldl (fun s v => sendMsix h v s) t) := fun l => by
    induction l with
    | nil => exact fun t => .refl h t
    | cons v l ih => exact fun t => (keepsFunction_sendMsix h t v).trans (ih _)
  refine KeepsFunction.trans ?_ (hfold (s.hub h).pci.pba _)
  exact keepsFunction_modHub h s (fun _ => rfl) (fun _ => rfl) (fun _ => rfl) (fun _ => rfl)

/-- A change of BME, and the messages that it releases. -/
theorem keepsFunction_setBme (on : Bool) : KeepsFunction h (s.put (hu h .PCI) Fld.PCI_STAT_BME (b2n on)) (setBme h on s) := by
  cases on
  · exact .refl ..
  · exact keepsFunction_flushMsix ..

theorem setBme_bme (on : Bool) : (setBme h on s).get (hu h .PCI) Fld.PCI_STAT_BME = b2n on := by
  rw [(keepsFunction_setBme h s on).get, State.get_put_same _ _ _ _ rfl]
  cases on <;> rfl

theorem configurationRequest_writes (hpow : s.powered (hu h .PCI) = true) (hperst : (s.hub h).pci.perst = false) :
    Completes (.configurationRequest h (.busMaster false)) s (fun t => t.get (hu h .PCI) Fld.PCI_STAT_BME = 0 ∧ t.planes = s.planes) ∧
    (∀ d, Completes (.configurationRequest h (.powerState d)) s (fun t => t.get (hu h .PCI) Fld.PCI_STAT_D3HOT = b2n d ∧ t.planes = s.planes)) ∧
    (∀ on, Completes (.configurationRequest h (.msixEnable on)) s (fun t => (t.hub h).pci.msixEn = on ∧ t.regs = s.regs)) ∧
    (∀ i a d m, Completes (.configurationRequest h (.msixEntry i a d m)) s (fun t =>
      (t.hub h).pci.msix = mput (s.hub h).pci.msix i.val { addr := a, data := d, masked := m } ∧ t.regs = s.regs)) ∧
    (∀ r v, Completes (.configurationRequest h (.dword r v)) s (fun t => (t.hub h).pci.cfg = mput (s.hub h).pci.cfg r.val v ∧
      (r.val ≠ 1 → t.regs = s.regs) ∧ (r.val = 1 → t.get (hu h .PCI) Fld.PCI_STAT_BME = b2n (v.getLsbD 2)))) := by
  have hgate : s.powered (hu h .PCI) = true ∧ ¬ (s.hub h).pci.perst = true := ⟨hpow, by simp [hperst]⟩
  refine ⟨⟨_, if_pos hgate, setBme_bme h s false, (keepsFunction_setBme h s false).planes⟩, fun d => ⟨_, if_pos hgate, ?_, rfl⟩,
    fun on => ⟨_, if_pos hgate, ?_, rfl⟩, fun i a d m => ⟨_, if_pos hgate, ?_, ?_⟩, fun r v => ?_⟩
  · rw [State.get_put_same _ _ _ _ rfl]
    cases d <;> rfl
  · rw [State.modHub_hub_same]
  · rw [(keepsFunction_flushMsix h _).msix, State.modHub_hub_same]
  · rw [(keepsFunction_flushMsix h _).regs, State.modHub_regs]
  · refine ⟨_, if_pos hgate, ?_⟩
    by_cases hr : r.val = 1
    · simp only [hr, if_true]
      refine ⟨?_, fun hne => absurd rfl hne, fun _ => setBme_bme h _ _⟩
      rw [(keepsFunction_setBme h _ _).cfg, State.put_hub, State.modHub_hub_same]
    · simp only [hr, if_false]
      exact ⟨by rw [State.modHub_hub_same], fun _ => rfl, fun heq => absurd heq (by simp)⟩

end

/-- Settles O47. -/
theorem hostPortEvents : Obligations.HostPortEvents := by
  unfold Obligations.HostPortEvents
  refine ⟨fun h _ s hn hoff => perst_resets h s hn hoff, fun h n s hn => ⟨s, if_neg (by omega), rfl⟩,
    fun h n s hn hoff => ⟨_, if_pos ⟨hn, by rw [hoff]; rfl⟩, ?_, rfl, rfl⟩, fun h s => flr_resets h s, fun h s => pcieLinkDown_ends h s,
    fun h s => pcieLinkUp_shows h s, fun h s => configurationRequest_writes h s⟩
  rw [State.modHub_hub_same]

end Sys2Proof.Machine
end

section
/-! SUPPORT. O49: a state in which RELEASE does not end the lease. -/

namespace Sys2Proof.Machine

/-- The hubs have power, port A's link is up, port A holds the lease for 1 ms, and its PCI_LEASE holds the bit of REQ, which no write can
have stored there. -/
def staleRequest : State :=
  ((State.reset.setReg (hu .a .PWR) Fld.PWR_DOM_STAT_ON.key 0xFFFFFFFF).setReg (hu .a .PCI) Fld.PCI_LEASE_REQ.key 0x00010011).setReg (hu .a .PCI)
    Fld.PCI_STAT_LINK_UP.key Fld.PCI_STAT_LINK_UP.mask

/-- Host A may release its lease. -/
theorem staleRequest_accepted :
    accepted staleRequest (.host .a) (hu .a .PCI) Fld.PCI_LEASE_RELEASE.key (0x00010000 ||| Fld.PCI_LEASE_RELEASE.mask) = true := by decide +kernel

/-- The stored bit reaches the block beside the written one, and REQ goes first: port A stays the holder. -/
theorem staleRequest_keeps :
    holder (regWrite (.host .a) (hu .a .PCI) Fld.PCI_LEASE_RELEASE.key (0x00010000 ||| Fld.PCI_LEASE_RELEASE.mask) staleRequest) = 1 := by decide +kernel

/-- Refutes O49: the statement speaks of every state, and in one whose PCI_LEASE holds the bit of the write-only REQ, an accepted RELEASE by
the holder shows the block both commands (`shownWord`). REQ goes first, and port A takes the lease again where the statement says it ends.
PCI_LEASE resets to 0 and no write stores a command's bit: what the statement misses is the premise that no such bit stands there. -/
theorem not_leaseRules : ¬ Obligations.LeaseRules := by
  unfold Obligations.LeaseRules
  rintro ⟨-, -, hrelease, -⟩
  obtain ⟨-, t, ht, hends, -⟩ := hrelease .a 0x00010000 staleRequest staleRequest_accepted
  have hrun : exec (.release (.host .a) .a 0x00010000) staleRequest =
      .next (regWrite (.host .a) (hu .a .PCI) Fld.PCI_LEASE_RELEASE.key (0x00010000 ||| Fld.PCI_LEASE_RELEASE.mask) staleRequest) := rfl
  have hend : regWrite (.host .a) (hu .a .PCI) Fld.PCI_LEASE_RELEASE.key (0x00010000 ||| Fld.PCI_LEASE_RELEASE.mask) staleRequest = t :=
    Host.Outcome.next.inj (hrun.symm.trans ht)
  rw [← hend, staleRequest_keeps] at hends
  exact absurd hends (by decide)

end Sys2Proof.Machine
end

section
/-! SUPPORT. An access to plane memory that comes alone: what it follows from, and that it is served where it arrives (R261, R275). -/

namespace Sys2Proof.Machine

/-! ### What the memory of a plane follows from -/

/-- The memory of a plane stands alike in two states: its bytes and its poison, and what decides which targets are lost. -/
structure SameStore (p : PlaneId) (s t : State) : Prop where
  source : SameSource s t
  part : (t.pl p).memPart = (s.pl p).memPart
  get : ∀ u (f : RField), f.key % 4096 < 0x050 → t.get u f = s.get u f

theorem SameStore.refl (p : PlaneId) (s : State) : SameStore p s s := ⟨⟨rfl, rfl, rfl, fun _ => rfl⟩, rfl, fun _ _ _ => rfl⟩

theorem SameStore.trans {p : PlaneId} {s t v : State} (a : SameStore p s t) (b : SameStore p t v) : SameStore p s v where
  source := ⟨b.source.cfg.trans a.source.cfg, b.source.ident.trans a.source.ident, b.source.fitted.trans a.source.fitted,
    fun k => (b.source.kpl k).trans (a.source.kpl k)⟩
  part := b.part.trans a.part
  get u f hf := (b.get u f hf).trans (a.get u f hf)

theorem sameStore_of_memBasis {p : PlaneId} {s t : State} (h : memBasis p t = memBasis p s) : SameStore p s t :=
  ⟨sameSource_of_memBasis h, memPart_of_memBasis h, fun u f _ => get_of_memBasis h u f⟩

/-- A store of a register beyond the common ones. -/
theorem sameStore_put (p : PlaneId) (s : State) (u : Nat) {f : RField} (v : Nat) (hf : 0x050 ≤ f.key % 4096) : SameStore p s (s.put u f v) where
  source := ⟨rfl, rfl, rfl, fun _ => rfl⟩
  part := rfl
  get _ g hg := State.get_put_ne _ _ (regKey_ne_of_mod (by omega))

/-- A request on a hub link counts there, and touches nothing of the plane. -/
theorem linkRequest_get (k : HubId) (q : PlaneId) (s : State) (u : Nat) {f : RField} (hf : f.key % 4096 < 0x400) :
    (linkRequest k q s).get u f = s.get u f := by
  rw [linkRequest, get_modHub]
  · exact State.get_put_ne _ _ (regKey_ne_of_mod (by have := q.isLt; simp only [RField.at, RField.key, Fld.HUB_LINK_REQ] at hf ⊢; omega))
  · exact fun _ => rfl

theorem linkRequest_source (k : HubId) (q : PlaneId) (s : State) : SameSource s (linkRequest k q s) := by
  have h := modHub_source (s.inc (hu k .HUB) (Fld.HUB_LINK_REQ.at q.val)) k
    (fun x => { x with reqAt := if (mget x.reqAt q.val).isSome then x.reqAt else mput x.reqAt q.val x.beat }) (fun _ => rfl)
  exact ⟨h.cfg, h.ident, h.fitted, h.kpl⟩

theorem sameStore_linkRequest (p : PlaneId) (k : HubId) (q : PlaneId) (s : State) : SameStore p s (linkRequest k q s) where
  source := linkRequest_source k q s
  part := rfl
  get u f hf := linkRequest_get k q s u (by omega)

section
variable {p : PlaneId} {s t : State} (h : SameStore p s t)
include h

theorem SameStore.mem : (t.pl p).mem = (s.pl p).mem := congrArg Prod.fst h.part

theorem SameStore.formedUnits : formedUnits t p = formedUnits s p := by
  have hlost : (t.pl p).lostChans = (s.pl p).lostChans := congrArg (fun m => m.2.2.2.2.2.1) h.part
  have hchans : formedChans t p = formedChans s p := by rw [formedChans, resetVal_congr h.source, hlost, formedChans]
  rw [Machine.formedUnits, hchans, mirrored, h.source.cfg, Machine.formedUnits, mirrored]

theorem SameStore.targetOf (addr : Nat) : targetOf t p addr = targetOf s p addr := by
  have hpop : popF t p = popF s p := by rw [popF, h.formedUnits, dimmBytes, h.source.ident, popF, dimmBytes]
  rw [Machine.targetOf, placeOf, hpop, h.formedUnits, Machine.targetOf, placeOf]

theorem SameStore.targetLost (addr : Nat) : targetLost t p addr = targetLost s p addr := by
  have hmirror : mirrored t p = mirrored s p := by rw [mirrored, h.source.cfg, mirrored]
  have hfence : ∀ u, t.get u Fld.BLK_FENCE_FENCED = s.get u Fld.BLK_FENCE_FENCED := fun u => h.get u _ (by decide)
  have hact : t.get (pu p .PLN) Fld.PLN_UNIT_MEM_FMC_ACT = s.get (pu p .PLN) Fld.PLN_UNIT_MEM_FMC_ACT := h.get _ _ (by decide)
  have hchan : ∀ c, chanLost t p c = chanLost s p c := fun c => by simp only [chanLost, State.fenced, State.on, hfence, hact]
  simp only [Machine.targetLost, h.targetOf, hmirror, hchan]

theorem SameStore.bankOf (addr : Nat) : bankOf t p addr = bankOf s p addr := by
  have hmap : (t.pl p).bankMap = (s.pl p).bankMap := congrArg (fun m => m.2.2.2.2.1) h.part
  simp only [Machine.bankOf, bankMapNow, hmap, h.source.fitted]

theorem SameStore.poisonedAt (addr n : Nat) : poisonedAt t p addr n = poisonedAt s p addr n := by
  have hpoison : (t.pl p).poison = (s.pl p).poison := congrArg (fun m => m.2.1) h.part
  have hbanks : (t.pl p).fencedBanks = (s.pl p).fencedBanks := congrArg (fun m => m.2.2.2.1) h.part
  simp only [Machine.poisonedAt, poisonedGr, h.targetLost, h.bankOf, hpoison, hbanks]

/-- A granule is held where the same keys run. -/
theorem SameStore.keyHolds (hkeys : (t.pl p).keys = (s.pl p).keys)
    (hrun : ∀ b < 2, t.get (pu p .KSQ) (Fld.KSQ_B_STAT_STATE.at b) = s.get (pu p .KSQ) (Fld.KSQ_B_STAT_STATE.at b)) (addr : Nat) :
    keyHolds t p addr = keyHolds s p addr := by
  simp only [Machine.keyHolds, h.targetOf, runningMemMap, hkeys, hrun 0 (by decide), hrun 1 (by decide)]

end

/-! ### Writes -/

/-- What a write of a granule leaves of what decides which targets are lost. -/
theorem storeGranule_leaves (p : PlaneId) (addr : Nat) (d : List Byte) (s : State) : SameSource s (storeGranule p addr d s).2 ∧
    ∀ u (f : RField), f.key % 4096 < 0x050 → (storeGranule p addr d s).2.get u f = s.get u f := by
  simp only [storeGranule]
  split
  · split
    · exact ⟨⟨rfl, rfl, rfl, fun _ => rfl⟩, fun _ _ _ => rfl⟩
    · have hput := sameStore_put p s (poisonUnit s p addr) (f := Fld.FMC_POISON_CNT_PCNT)
        (min (s.get (poisonUnit s p addr) Fld.FMC_POISON_CNT_PCNT + 1) (2 ^ Fld.FMC_POISON_CNT_PCNT.width - 1)) (by decide)
      exact ⟨hput.source, hput.get⟩
  · cases memInst s p addr with
    | none => exact ⟨⟨rfl, rfl, rfl, fun _ => rfl⟩, fun _ _ _ => rfl⟩
    | some t => exact ⟨⟨rfl, rfl, rfl, fun _ => rfl⟩, fun _ _ _ => rfl⟩

theorem SameStore.memPart_modPl {p : PlaneId} {s t : State} (h : SameStore p s t) {f g : Plane → Plane}
    (hfg : ∀ x y : Plane, x.memPart = y.memPart → (f x).memPart = (g y).memPart) : ((t.modPl p f).pl p).memPart = ((s.modPl p g).pl p).memPart := by
  rw [State.modPl_pl_same, State.modPl_pl_same]
  exact hfg _ _ h.part

/-- The record of an event leaves the memory. -/
theorem sameStore_event (p : PlaneId) (s : State) (code inst n : Nat) : SameStore p s (s.event p code inst n) :=
  sameStore_of_memBasis (memBasis_event ..)

/-- A write of a granule follows from how the memory stands. -/
theorem SameStore.storeGranule {p : PlaneId} {s t : State} (h : SameStore p s t) (addr : Nat) (d : List Byte) :
    (storeGranule p addr d t).1 = (storeGranule p addr d s).1 ∧ SameStore p (storeGranule p addr d s).2 (storeGranule p addr d t).2 := by
  have hpoison : (t.pl p).poison = (s.pl p).poison := congrArg (fun m => m.2.1) h.part
  have hbanks : (t.pl p).fencedBanks = (s.pl p).fencedBanks := congrArg (fun m => m.2.2.2.1) h.part
  obtain ⟨hsource, hget⟩ := storeGranule_leaves p addr d s
  obtain ⟨hsource', hget'⟩ := storeGranule_leaves p addr d t
  have hpart : (Machine.storeGranule p addr d t).1 = (Machine.storeGranule p addr d s).1 ∧
      ((Machine.storeGranule p addr d t).2.pl p).memPart = ((Machine.storeGranule p addr d s).2.pl p).memPart := by
    have hunit : poisonUnit t p addr = poisonUnit s p addr := by simp only [poisonUnit, h.targetOf]
    have hinst : memInst t p addr = memInst s p addr := h.targetOf addr
    simp only [Machine.storeGranule, h.targetLost, h.bankOf, hunit, hinst, hbanks, hpoison]
    split
    · refine ⟨rfl, ?_⟩
      split
      · exact h.part
      · exact h.part
    · have hbase : SameStore p ((memInst s p addr).elim s (fun i => s.event p 0x10 i 1)) ((memInst s p addr).elim t (fun i => t.event p 0x10 i 1)) := by
        cases memInst s p addr with
        | none => exact h
        | some i =>
          have hs := sameStore_event p s 0x10 i 1
          have ht := sameStore_event p t 0x10 i 1
          exact ⟨⟨h.source.cfg, h.source.ident, h.source.fitted, h.source.kpl⟩, ht.part.trans (h.part.trans hs.part.symm),
            fun u f hf => (ht.get u f hf).trans ((h.get u f hf).trans (hs.get u f hf).symm)⟩
      refine ⟨rfl, hbase.memPart_modPl fun x y hxy => ?_⟩
      simp only [Plane.memPart, Prod.mk.injEq] at hxy ⊢
      obtain ⟨hmem, hpoison, hnow, hbanks, hmap, hlost, hbeats⟩ := hxy
      simp [hmem, hpoison, hnow, hbanks, hmap, hlost, hbeats]
  refine ⟨hpart.1, ⟨?_, ?_, ?_, ?_⟩, hpart.2, fun u f hf => (hget' u f hf).trans ((h.get u f hf).trans (hget u f hf).symm)⟩
  · exact hsource'.cfg.trans (h.source.cfg.trans hsource.cfg.symm)
  · exact hsource'.ident.trans (h.source.ident.trans hsource.ident.symm)
  · exact hsource'.fitted.trans (h.source.fitted.trans hsource.fitted.symm)
  · exact fun k => (hsource'.kpl k).trans ((h.source.kpl k).trans (hsource.kpl k).symm)

theorem SameStore.storeParts {p : PlaneId} (fuel addr : Nat) (d : List Byte) {q r : Bool × State} (hflag : q.1 = r.1) (h : SameStore p r.2 q.2) :
    SameStore p (storeParts p fuel addr d r).2 (storeParts p fuel addr d q).2 := by
  induction fuel generalizing addr d q r with
  | zero => exact h
  | succ fuel ih =>
    simp only [Machine.storeParts]
    split
    · exact h
    · obtain ⟨hone, hrest⟩ := h.storeGranule addr (d.take (granule addr - addr % granule addr))
      exact ih _ _ (by rw [hflag, hone]) hrest

/-- A write stores the same bytes where the memory stands alike. -/
theorem SameStore.memStore {p : PlaneId} {s t : State} (h : SameStore p s t) (addr : Nat) (d : List Byte) :
    SameStore p (memStore p addr d s).2 (memStore p addr d t).2 := SameStore.storeParts _ _ _ rfl h

/-- A write puts nothing out. -/
theorem memStore_out (p : PlaneId) (addr : Nat) (d : List Byte) (s : State) : (memStore p addr d s).2.out = s.out := by
  have hgranule : ∀ (addr : Nat) (d : List Byte) (s : State), (storeGranule p addr d s).2.out = s.out := fun addr d s => by
    simp only [storeGranule]
    split
    · split <;> rfl
    · cases memInst s p addr <;> rfl
  have hparts : ∀ (fuel addr : Nat) (d : List Byte) (r : Bool × State), (storeParts p fuel addr d r).2.out = r.2.out := fun fuel => by
    induction fuel with
    | zero => exact fun _ _ _ => rfl
    | succ fuel ih =>
      intro addr d r
      simp only [storeParts]
      split
      · rfl
      · exact (ih ..).trans (hgranule ..)
  exact hparts ..

theorem memBasis_sample (p : PlaneId) (s : State) (point sel v : Nat) : memBasis p (s.sample p point sel v) = memBasis p s := by
  rw [State.sample, memBasis_modPl]
  exact fun _ => rfl

theorem countReads_out (p : PlaneId) (addr n : Nat) (s : State) : (countReads p addr n s).out = s.out :=
  foldl_keeps State.out (fun t i => by split <;> rfl) _ s

/-! ### The parts of an access -/

/-- An access within one granule is one part. -/
theorem splitParts_one {fuel addr : Nat} {d : List Byte} (hone : addr % 256 + d.length ≤ 256) :
    splitParts (fuel + 1) addr d = [{ addr := addr, len := d.length, data := d }] := by
  simp only [splitParts]
  rw [if_pos (by omega)]

/-- Alone, an access of one part to a target that no key schedules is served where it arrives. -/
theorem arriveAccess_alone {p : PlaneId} {a : HostAccess} {x : AccessPart} {s : State} (hparts : a.parts = [x]) (hserved : x.served = false)
    (halone : (s.pl p).hostQ = []) (hfree : keyHolds s p x.addr = false) : ∃ v, memBasis p v = memBasis p s ∧ v.out = s.out ∧
      memArmed v p = memArmed s p ∧ arriveAccess p a s =
        (finishAccess { a with parts := [(servePart p a.write x v).1] } (servePart p a.write x v).2).modPl p (fun y => { y with hostQ := [] }) := by
  set s₁ := s.modPl p (fun y => { y with hostQ := y.hostQ ++ [a] }) with hs₁
  have hqueue : (s₁.pl p).hostQ = [a] := by rw [hs₁, State.modPl_pl_same, halone, List.nil_append]
  have hbasis : memBasis p s₁ = memBasis p s := memBasis_modPl p s fun _ => rfl
  have hnow : keyHolds s₁ p x.addr = false := by
    rw [(sameStore_of_memBasis hbasis).keyHolds (by rw [hs₁, State.modPl_pl_same]) (fun _ _ => rfl), hfree]
  have harmed : memArmed s₁ p = memArmed s p := by rw [memArmed, hs₁, State.modPl_pl_same]; rfl
  have hdone : (servePart p a.write x ((targetOf s₁ p x.addr).elim s₁ (fun t => s₁.sample p 4 t (s₁.beats p - a.at')))).1.served = true := by
    unfold servePart
    split <;> rfl
  refine ⟨(targetOf s₁ p x.addr).elim s₁ (fun t => s₁.sample p 4 t (s₁.beats p - a.at')), ?_, ?_, ?_, ?_⟩
  · cases targetOf s₁ p x.addr with
    | none => exact hbasis
    | some t => exact (memBasis_sample p s₁ ..).trans hbasis
  · cases targetOf s₁ p x.addr <;> rfl
  · cases targetOf s₁ p x.addr with
    | none => exact harmed
    | some t =>
      refine Eq.trans ?_ harmed
      simp only [Option.elim, State.sample, memArmed, State.modPl_pl_same]
      rfl
  · have hserve : serveOpen p s₁ = (serveQueue p 1 (fun s x => !keyHolds s p x.addr) s₁).2 := by
      rw [serveOpen, hqueue, if_neg (by simp)]
      simp [hparts]
    rw [arriveAccess, ← hs₁, hserve]
    simp [serveQueue, hqueue, serveAccess, hparts, serveParts, hserved, hnow, hdone]

/-- Alone, such a read without faults answers with what memory holds. -/
theorem arriveAccess_read {p : PlaneId} {a : HostAccess} {x : AccessPart} {s : State} (hparts : a.parts = [x]) (hserved : x.served = false)
    (hread : a.write = false) (halone : (s.pl p).hostQ = []) (hfree : keyHolds s p x.addr = false) (harmed : memArmed s p = false)
    (hgood : poisonedAt s p x.addr x.len = false) : ∃ v, SameStore p s v ∧ v.regs = s.regs ∧ v.out = s.out ∧ arriveAccess p a s =
      (finishAccess { a with parts := [{ x with served := true, poisoned := false, data := memRead s p x.addr x.len }] } v).modPl p
        (fun y => { y with hostQ := [] }) := by
  obtain ⟨v, hbasis, hout, harm, hrun⟩ := arriveAccess_alone hparts hserved halone hfree
  have hstore := sameStore_of_memBasis hbasis
  have hcount := memBasis_countReads p v x.addr x.len
  have hpart : servePart p a.write x v = ({ x with served := true, poisoned := false, data := memRead s p x.addr x.len }, countReads p x.addr x.len v) := by
    simp only [servePart, hread, Bool.false_eq_true, if_false, memTouchAll_unarmed (harm.trans harmed), hstore.poisonedAt, hgood, memRead, hstore.mem]
  rw [hpart] at hrun
  exact ⟨_, hstore.trans (sameStore_of_memBasis hcount), congrArg (fun b => b.1.1) (hcount.trans hbasis), (countReads_out ..).trans hout, hrun⟩

end Sys2Proof.Machine
end

section
/-! SUPPORT. O48: host accesses to plane memory through BAR2 (R371, R374). -/

namespace Sys2Proof.Machine

section
variable (h : HubId) (p : PlaneId) (o : BitVec 36) (d : List Byte) (tag : Nat) (s : State)

/-- The plane that the window's register names. -/
def windowPlane (s : State) (h : HubId) : PlaneId := ⟨s.get (hu h .PCI) Fld.PCI_WIN_WPLANE % 4, Nat.mod_lt _ (by decide)⟩

theorem windowPlane_eq {p : PlaneId} (hp : s.get (hu h .PCI) Fld.PCI_WIN_WPLANE = p.val) : windowPlane s h = p :=
  Fin.ext ((congrArg (· % 4) hp).trans (Nat.mod_eq_of_lt p.isLt))

/-- A write without the lease is logged and counted. -/
theorem bar2Access_denied (hup : s.on (hu h .PCI) Fld.PCI_STAT_LINK_UP = true) (hawake : s.on (hu h .PCI) Fld.PCI_STAT_D3HOT = false)
    (hlease : holder s ≠ portCode h) : Completes (.bar2Access h o true d tag) s (fun t => t.planes = s.planes ∧ t.out = s.out ++ [.aer h o.toNat] ∧
      t.get (hu h .PCI) Fld.PCI_CNT_A_DENY = min (s.get (hu h .PCI) Fld.PCI_CNT_A_DENY + 1) 0xFFFF) := by
  have hrun : exec (.bar2Access h o true d tag) s = .next ((s.emit (.aer h o.toNat)).incSat (hu h .PCI) Fld.PCI_CNT_A_DENY) := by
    simp [exec, execBar2Access, hup, hawake, hlease]
  refine ⟨_, hrun, State.incSat_planes .., State.incSat_out .., ?_⟩
  have hfull : 2 ^ Fld.PCI_CNT_A_DENY.width - 1 = 0xFFFF := rfl
  rw [incSat_get _ _ _ rfl, State.emit_get, hfull]

/-- A read over a hub link that carries nothing is logged and aborted. -/
theorem bar2Access_unreached (hup : s.on (hu h .PCI) Fld.PCI_STAT_LINK_UP = true) (hawake : s.on (hu h .PCI) Fld.PCI_STAT_D3HOT = false)
    (hlive : s.dead = none) (hcarry : hubCarries s h (windowPlane s h) = false) :
    Completes (.bar2Access h o false d tag) s (fun t => t.planes = s.planes ∧ t.out = s.out ++ [.aer h o.toNat, .completion h tag false false []]) := by
  have hrun : exec (.bar2Access h o false d tag) s = .next (bar2Refuse h false tag o.toNat s) := by
    rw [windowPlane] at hcarry
    simp [exec, execBar2Access, hup, hawake, hlive, hcarry]
  exact ⟨_, hrun, rfl, by simp [bar2Refuse]⟩

/-- The access that BAR2 hands to the plane. -/
def windowAccess (s : State) (h : HubId) (p : PlaneId) (write : Bool) (tag addr : Nat) (d : List Byte) : HostAccess :=
  { via := .host h, tag := tag, write := write, parts := [{ addr := addr, len := d.length, data := d }], at' := s.beats p }

/-- An access within one granule that the reach allows goes to the plane. -/
theorem bar2Access_arrives {write : Bool} {a : Nat} (hup : s.on (hu h .PCI) Fld.PCI_STAT_LINK_UP = true)
    (hawake : s.on (hu h .PCI) Fld.PCI_STAT_D3HOT = false) (hlive : s.dead = none) (hplane : s.get (hu h .PCI) Fld.PCI_WIN_WPLANE = p.val)
    (hcarry : hubCarries s h p = true) (hlease : write = true → holder s = portCode h)
    (ha : a = s.get (hu h .PCI) Fld.PCI_WIN_WBASE * 2 ^ 30 + o.toNat) (hone : a % 256 + d.length ≤ 256) (hreach : hubReach s p write a d.length = true)
    (hguard : write = true → guarded s p a d.length = false) :
    exec (.bar2Access h o write d tag) s = .next (arriveAccess p (windowAccess s h p write tag a d) (linkRequest h p s)) := by
  have hp : (⟨s.get (hu h .PCI) Fld.PCI_WIN_WPLANE % 4, Nat.mod_lt _ (by decide)⟩ : PlaneId) = p := windowPlane_eq h s hplane
  simp only [exec, execBar2Access, hp, ← ha, splitParts_one hone]
  cases write with
  | false => simp [hup, hawake, hlive, hcarry, hreach, windowAccess]
  | true => simp [hup, hawake, hlive, hcarry, hreach, hguard rfl, hlease rfl, windowAccess]

/-- Where the request on the hub link has been counted, the target is as free and as good as before. -/
theorem keyHolds_linkRequest (k : HubId) (addr : Nat) : keyHolds (linkRequest k p s) p addr = keyHolds s p addr :=
  (sameStore_linkRequest p k p s).keyHolds rfl (fun b hb => linkRequest_get k p s _ (by
    simp only [RField.at, RField.key, Fld.KSQ_B_STAT_STATE]
    omega)) addr

end

/-- The end of a host's write touches no plane and puts nothing out. -/
theorem hostWrite_ends {a : HostAccess} {h : HubId} (s : State) (hvia : a.via = .host h) (hwrite : a.write = true) :
    (finishAccess a s).planes = s.planes ∧ (finishAccess a s).out = s.out := by
  simp only [finishAccess, hvia, hwrite, if_true]
  split <;> exact ⟨rfl, rfl⟩

/-- Settles O48. -/
theorem hostAccesses : Obligations.HostAccesses := by
  unfold Obligations.HostAccesses
  refine ⟨fun h o d tag s => bar2Access_denied h o d tag s, fun h o d tag s => bar2Access_unreached h o d tag s, ?_, ?_⟩
  · intro h p o d tag a s hup hawake hlive hplane hcarry ha hone hreach hfree harmed hgood halone
    have hlink := sameStore_linkRequest p h p s
    obtain ⟨v, hstore, -, hout, hrun⟩ := arriveAccess_read (a := windowAccess s h p false tag a d) (s := linkRequest h p s) rfl rfl rfl halone
      ((keyHolds_linkRequest p s h a).trans hfree) harmed ((hlink.poisonedAt a d.length).trans hgood)
    refine ⟨_, (bar2Access_arrives h p o d tag s hup hawake hlive hplane hcarry (fun hw => absurd hw (by decide)) ha hone hreach
      (fun hw => absurd hw (by decide))).trans (congrArg Host.Outcome.next hrun), ?_, ?_⟩
    · rw [State.modPl_pl_same]
      exact (hlink.trans hstore).mem
    · exact congrArg (· ++ [Output.completion h tag true false (memRead s p a d.length ++ [])]) hout |>.trans (by rw [List.append_nil])
  · intro h p o d tag a s hup hawake hlive hplane hcarry hlease ha hone hreach hguard hfree halone
    have hlink := sameStore_linkRequest p h p s
    obtain ⟨v, hbasis, hout, -, hrun⟩ := arriveAccess_alone (a := windowAccess s h p true tag a d) (s := linkRequest h p s) rfl rfl halone
      ((keyHolds_linkRequest p s h a).trans hfree)
    refine ⟨_, (bar2Access_arrives h p o d tag s hup hawake hlive hplane hcarry (fun _ => hlease) ha hone hreach
      (fun _ => hguard)).trans (congrArg Host.Outcome.next hrun), ?_, ?_⟩
    · rw [State.modPl_pl_same, State.pl, (hostWrite_ends _ rfl rfl).1]
      exact ((hlink.trans (sameStore_of_memBasis hbasis)).memStore a d).mem
    · exact (hostWrite_ends _ rfl rfl).2.trans ((memStore_out ..).trans hout)

end Sys2Proof.Machine
end

section
/-! SUPPORT. O50: mailbox channels: what storing a channel leaves, and the writes that its ends and others make (R381 to R384). -/

namespace Sys2Proof.Machine

/-! ### Storing a channel -/

/-- A request that rises at a port touches no register, no plane and no channel. -/
theorem requestAt_frame (h : HubId) (src : Nat) (s : State) :
    (requestAt h src s).mbx = s.mbx ∧ (requestAt h src s).regs = s.regs ∧ (requestAt h src s).planes = s.planes := by
  unfold requestAt
  split
  · split
    · unfold sendMsix
      extract_lets
      split
      · exact ⟨rfl, rfl, rfl⟩
      · split <;> exact ⟨rfl, rfl, rfl⟩
    · exact ⟨rfl, rfl, rfl⟩
  · exact ⟨rfl, rfl, rfl⟩

theorem chDeliver_frame (agent : Nat) (c : Fin 256) (s : State) :
    (chDeliver agent c s).mbx = s.mbx ∧ (chDeliver agent c s).regs = s.regs ∧ (chDeliver agent c s).planes = s.planes := by
  unfold chDeliver
  split
  · exact requestAt_frame ..
  · split
    · exact requestAt_frame ..
    · exact ⟨rfl, rfl, rfl⟩

/-- What replacing a channel changes: the channel alone. -/
theorem updChan_frame (c : Fin 256) (x : Channel) (s : State) :
    (updChan c x s).mbx = mput s.mbx c.val x ∧ (updChan c x s).regs = s.regs ∧ (updChan c x s).planes = s.planes := by
  have hdeliver : ∀ (b : Bool) (agent : Nat) (t : State), (if b then chDeliver agent c t else t).mbx = t.mbx ∧
      (if b then chDeliver agent c t else t).regs = t.regs ∧ (if b then chDeliver agent c t else t).planes = t.planes := fun b agent t => by
    cases b
    · exact ⟨rfl, rfl, rfl⟩
    · exact chDeliver_frame agent c t
  unfold updChan
  extract_lets o s₁ s₂
  obtain ⟨hmbx₂, hregs₂, hplanes₂⟩ := hdeliver (!chReqS o && chReqS x) (ward s₁ c Fld.MBX_WARD_SEND) s₁
  obtain ⟨hmbx, hregs, hplanes⟩ := hdeliver (!chReqR o && chReqR x) (ward s₂ c Fld.MBX_WARD_RECV) s₂
  exact ⟨hmbx.trans hmbx₂, hregs.trans hregs₂, hplanes.trans hplanes₂⟩

theorem chan_of_mbx {c : Fin 256} {x : Channel} {m : SMap Channel} {t : State} (h : t.mbx = mput m c.val x) : chan t c = x := by
  simp [chan, h]

theorem chan_updChan (c : Fin 256) (x : Channel) (s : State) : chan (updChan c x s) c = x := chan_of_mbx (updChan_frame c x s).1

theorem chan_setChan (c : Fin 256) (x : Channel) (s : State) : chan (setChan s c x) c = x := chan_of_mbx rfl

/-- The hardware's set of latched and doorbell bits. -/
theorem chan_chSet (c : Fin 256) (irq : BitVec 3) (db : Word) (x : Channel) (s : State) : (chan (chSet c irq db x s) c).irq = x.irq ||| irq ∧
    (chan (chSet c irq db x s) c).dbPend = x.dbPend ||| db ∧ (chan (chSet c irq db x s) c).queue = x.queue ∧
    (chan (chSet c irq db x s) c).sent = x.sent := by
  rw [chSet, chan_updChan]
  exact ⟨rfl, rfl, rfl, rfl⟩

/-- The channel as its sender's composed message leaves it. -/
def Channel.sending (x : Channel) : Channel :=
  { x with sent := x.sent ++ [⟨x.txSeq, txBytes x x.txLen⟩], txSeq := (x.txSeq + 1) % 65536 }

/-! ### Writes to a channel page -/

/-- The registers that these writes name have no reserved bit in what they write. -/
theorem chFields_plain {off : Nat} (hoff : off = 0x018 ∨ off = 0x01C) : (chFields off).isEmpty = false ∧ reservedMask (chFields off) = 0#32 := by
  obtain rfl | rfl := hoff <;> decide +kernel

theorem chEffect_go (acc : Accessor) (c : Fin 256) (s : State) : chEffect acc c 0x004 1#32 s = chSend c s := by simp [chEffect]
theorem chEffect_pop (acc : Accessor) (c : Fin 256) (s : State) : chEffect acc c 0x004 2#32 s = chPop c s := by simp [chEffect]

theorem chFields_ctrl : (chFields 0x004).isEmpty = false ∧ (1#32 &&& reservedMask (chFields 0x004)) = 0#32 ∧
    (2#32 &&& reservedMask (chFields 0x004)) = 0#32 := by decide +kernel

section
variable {acc : Accessor} {c : Fin 256} {off : Nat} {v : Word} {s : State} (hreach : chReach s acc (chHub c) = true)
  (hrst : s.on (hu (chHub c) .MBX) Fld.BLK_STAT_RST_BUSY = false) (hfence : s.fenced (hu (chHub c) .MBX) = false)
  (hfields : (chFields off).isEmpty = false) (hplain : v &&& reservedMask (chFields off) = 0#32) (h4 : off % 4 = 0)
include hreach hrst hfence hfields hplain h4

/-- A write that the channel's checks let pass has its effect. -/
theorem chWrite_accepted (hverdict : chVerdict s acc c off v = {}) :
    chWrite acc c off 15 v s = chEffect acc c off v (s.inc (hu (chHub c) .MBX) Fld.BLK_SEQ) := by
  simp [chWrite, hreach, hrst, hfence, hfields, hplain, h4, hverdict, firstReject]

omit hplain in
/-- A write of the wrong end, or in the wrong state, is rejected. -/
theorem chWrite_state (hverdict : (chVerdict s acc c off v).state = true) : chWrite acc c off 15 v s = reject (hu (chHub c) .MBX) off .state s := by
  simp [chWrite, hreach, hrst, hfence, hfields, h4, hverdict, firstReject]

/-- A write that only the full channel refuses is counted there. -/
theorem chWrite_full {x : Verdict} (hverdict : chVerdict s acc c off v = x) (hstate : x.state = false) (hrange : x.range = false)
    (hzero : x.zero = false) (hbounds : x.bounds = true) :
    chWrite acc c off 15 v s = chRefuseFull acc c (reject (hu (chHub c) .MBX) off .bounds s) := by
  simp [chWrite, hreach, hrst, hfence, hfields, hplain, h4, hverdict, hstate, hrange, hzero, hbounds, firstReject]

end

/-- A refused GO counts in the channel, and leaves the page's status. -/
theorem chRefuseFull_counts (acc : Accessor) (c : Fin 256) (s : State) :
    chan (chRefuseFull acc c s) c = { chan s c with rejCnt := min ((chan s c).rejCnt + 1) 0xFFFF } ∧
    ∀ (u : Nat) (f : RField), f.key % 4096 < 0x040 → (chRefuseFull acc c s).get u f = s.get u f := by
  have hget : ∀ (u : Nat) (f : RField) (x : Channel), f.key % 4096 < 0x040 →
      ((setChan s c x).incSat (hu (chHub c) .MBX) Fld.MBX_STAT_FULL_CNT).get u f = s.get u f := fun u f x hf =>
    State.get_put_ne _ _ (regKey_ne_of_mod (by simp only [RField.key, Fld.MBX_STAT_FULL_CNT] at hf ⊢; omega))
  unfold chRefuseFull
  extract_lets x s₁ s₂
  cases acc <;> exact ⟨chan_of_mbx rfl, fun u f hf => hget u f _ hf⟩

section
variable (acc : Accessor) (c : Fin 256) (s : State) (hreach : chReach s acc (chHub c) = true)
  (hrst : s.on (hu (chHub c) .MBX) Fld.BLK_STAT_RST_BUSY = false) (hfence : s.fenced (hu (chHub c) .MBX) = false) (hag : agentOf acc ≠ 0)
include hreach hrst hfence hag

/-- GO by the sending end of an enabled channel (R382). -/
theorem chGo_sends (hsend : agentOf acc = ward s c Fld.MBX_WARD_SEND) (hen : ward s c Fld.MBX_WARD_EN ≠ 0) (hone : 1 ≤ (chan s c).txLen)
    (hlen : (chan s c).txLen ≤ 256) :
    (chFull s c = false → Completes (.chGo acc c) s (fun t =>
      (chan t c).sent = (chan s c).sent ++ [⟨(chan s c).txSeq, txBytes (chan s c) (chan s c).txLen⟩] ∧
      (chan t c).txSeq = ((chan s c).txSeq + 1) % 65536 ∧ (chan t c).queue = (chan s c).queue ∧
      ∀ k, k ≠ c.val → mget t.mbx k = mget s.mbx k)) ∧
    (chFull s c = true → Completes (.chGo acc c) s (fun t => (chan t c).sent = (chan s c).sent ∧ (chan t c).queue = (chan s c).queue ∧
      (chan t c).rejCnt = min ((chan s c).rejCnt + 1) 0xFFFF ∧ t.get (hu (chHub c) .MBX) Fld.BLK_STAT_REJ = 1 ∧
      (s.get (hu (chHub c) .MBX) Fld.BLK_STAT_REJ = 0 → t.get (hu (chHub c) .MBX) Fld.BLK_STAT_REJ_CODE = 4))) := by
  obtain ⟨hfields, hplain, -⟩ := chFields_ctrl
  have hverdict : chVerdict s acc c 0x004 1#32 = { bounds := chFull s c } := by
    have hzero : (chan s c).txLen ≠ 0 := by omega
    simp [chVerdict, hsend ▸ hag, hsend, hen, hzero, Nat.not_lt.2 hlen]
  refine ⟨fun hroom => ?_, fun hfull => ?_⟩
  · have hw := chWrite_accepted hreach hrst hfence hfields hplain rfl (by rw [hverdict, hroom])
    refine ⟨_, congrArg Host.Outcome.next (hw.trans (chEffect_go ..)), ?_⟩
    have hmbx : (chSend c (s.inc (hu (chHub c) .MBX) Fld.BLK_SEQ)).mbx = mput s.mbx c.val (chan s c).sending := (updChan_frame ..).1
    have hchan := chan_of_mbx hmbx
    refine ⟨by rw [hchan]; rfl, by rw [hchan]; rfl, by rw [hchan]; rfl, fun k hk => ?_⟩
    exact (congrArg (mget · k) hmbx).trans (mget_mput_ne _ _ (Ne.symm hk))
  · have hw := chWrite_full hreach hrst hfence hfields hplain rfl hverdict rfl rfl rfl hfull
    obtain ⟨hchan, hget⟩ := chRefuseFull_counts acc c (reject (hu (chHub c) .MBX) 0x004 .bounds s)
    have hsame : chan (reject (hu (chHub c) .MBX) 0x004 .bounds s) c = chan s c := by simp [chan]
    rw [hsame] at hchan
    refine ⟨_, congrArg Host.Outcome.next hw, by rw [hchan], by rw [hchan], by rw [hchan], ?_,
      fun hfirst => ?_⟩
    · rw [hget _ _ (by decide), (reject_counted _ _ _ _).1]
    · rw [hget _ _ (by decide), (reject_first hfirst _ _).1]
      rfl

/-- POP by the receiving end (R383). -/
theorem chPop_removes (hrecv : agentOf acc = ward s c Fld.MBX_WARD_RECV) :
    (∀ m r, (chan s c).queue = m :: r → Completes (.chPop acc c) s (fun t => (chan t c).queue = r ∧ (chan t c).sent = (chan s c).sent ∧
      (r = [] → (chan t c).irq = (chan s c).irq ||| 1#3) ∧ (r ≠ [] → (chan t c).irq = (chan s c).irq))) ∧
    ((chan s c).queue = [] → Completes (.chPop acc c) s (fun t => t.mbx = s.mbx ∧ t.get (hu (chHub c) .MBX) Fld.BLK_STAT_REJ = 1)) := by
  obtain ⟨hfields, -, hplain⟩ := chFields_ctrl
  have hverdict : chVerdict s acc c 0x004 2#32 = { state := decide ((chan s c).queue = []) } := by
    simp [chVerdict, hrecv ▸ hag, hrecv]
  refine ⟨fun m r hqueue => ?_, fun hempty => ?_⟩
  · have hw := chWrite_accepted hreach hrst hfence hfields hplain rfl (by rw [hverdict, hqueue]; rfl)
    obtain ⟨hirq, -, hleft, hsent⟩ := chan_chSet c (if (chan s c).queue.length = 1 then 1#3 else 0) 0
      { chan s c with queue := (chan s c).queue.drop 1 } (s.inc (hu (chHub c) .MBX) Fld.BLK_SEQ)
    refine ⟨_, congrArg Host.Outcome.next (hw.trans (chEffect_pop ..)), hleft.trans (by rw [hqueue]; rfl), hsent, fun hr => hirq.trans ?_,
      fun hr => hirq.trans ?_⟩
    · have hlen : (chan s c).queue.length = 1 := by rw [hqueue, hr]; rfl
      rw [if_pos hlen]
    · have hlen : (chan s c).queue.length ≠ 1 := by rw [hqueue]; simpa using hr
      rw [if_neg hlen]
      exact BitVec.or_zero
  · have hw := chWrite_state hreach hrst hfence hfields rfl (by rw [hverdict, hempty]; rfl)
    exact ⟨_, congrArg Host.Outcome.next hw, (reject_frame ..).2.2.1, (reject_counted _ _ _ _).1⟩

/-- The receiving end clears doorbell bits (R384). -/
theorem chDbPend_clears (hrecv : agentOf acc = ward s c Fld.MBX_WARD_RECV) (v : Word) :
    Completes (.chDbPend acc c v) s (fun t => (chan t c).dbPend = (chan s c).dbPend &&&
      ~~~(v &&& ~~~(if (chan s c).setAt = (s.hub (chHub c)).beat then (chan s c).setDb else 0)) ∧ (chan t c).queue = (chan s c).queue) := by
  obtain ⟨hfields, hmask⟩ := chFields_plain (Or.inr rfl)
  have hw := chWrite_accepted (v := v) hreach hrst hfence hfields (by rw [hmask]; simp) rfl (by simp [chVerdict, hrecv ▸ hag, hrecv])
  have heffect : ∀ t, chEffect acc c 0x01C v t = setChan t c { chan t c with dbPend := (chan t c).dbPend &&&
      ~~~(v &&& ~~~(if (chan t c).setAt = (t.hub (chHub c)).beat then (chan t c).setDb else 0)) } := fun t => by simp [chEffect]
  have hchan := chan_of_mbx (c := c) (t := chEffect acc c 0x01C v (s.inc (hu (chHub c) .MBX) Fld.BLK_SEQ)) (by rw [heffect]; rfl)
  exact ⟨_, congrArg Host.Outcome.next hw, by rw [hchan]; rfl, by rw [hchan]; rfl⟩

/-- The sending end rings doorbell bits (R384). -/
theorem chDbSet_rings (hsend : agentOf acc = ward s c Fld.MBX_WARD_SEND) (v : Word) :
    Completes (.chDbSet acc c v) s (fun t => (chan t c).dbPend = (chan s c).dbPend ||| v ∧ (chan t c).queue = (chan s c).queue) := by
  obtain ⟨hfields, hmask⟩ := chFields_plain (Or.inl rfl)
  have hw := chWrite_accepted (v := v) hreach hrst hfence hfields (by rw [hmask]; simp) rfl (by simp [chVerdict, hsend ▸ hag, hsend])
  have heffect : ∀ t, chEffect acc c 0x018 v t = chSet c (if (chan t c).dbPend = 0 ∧ v ≠ 0 then 4#3 else 0) v (chan t c) t := fun t => by
    simp [chEffect]
  obtain ⟨-, hdb, hqueue, -⟩ := chan_chSet c (if (chan s c).dbPend = 0 ∧ v ≠ 0 then 4#3 else 0) v (chan s c) (s.inc (hu (chHub c) .MBX) Fld.BLK_SEQ)
  exact ⟨_, congrArg Host.Outcome.next (hw.trans (heffect _)), hdb, hqueue⟩

end

/-- A write that fails the check of the state is rejected, and not for its bounds. -/
theorem firstReject_state {width unmapped busy fenced reserved : Bool} {x : Verdict} (hx : x.state = true) {code : RejCode}
    (h : firstReject width unmapped busy fenced x reserved = some code) : code ≠ .bounds := by
  rintro rfl
  simp only [firstReject, hx, if_true] at h
  split_ifs at h <;> exact absurd (Option.some.inj h) (by decide)

theorem firstReject_state_some {width unmapped busy fenced reserved : Bool} {x : Verdict} (hx : x.state = true) :
    firstReject width unmapped busy fenced x reserved ≠ none := by
  simp only [firstReject, hx, if_true]
  split_ifs <;> simp

/-- An agent of neither end changes no channel (R381). -/
theorem chDbSet_outsider (acc : Accessor) (c : Fin 256) (v : Word) (s : State) (hsend : agentOf acc ≠ ward s c Fld.MBX_WARD_SEND)
    (hrecv : agentOf acc ≠ ward s c Fld.MBX_WARD_RECV) : Completes (.chDbSet acc c v) s (fun t => t.mbx = s.mbx) := by
  have hverdict : chVerdict s acc c 0x018 v = { state := true } := by simp [chVerdict, hsend, hrecv]
  refine ⟨_, rfl, ?_⟩
  unfold chWrite
  extract_lets h u fs
  split
  · split
    · split <;> rfl
    · rfl
  · split
    next code hcode =>
      rw [hverdict] at hcode
      rw [if_neg (firstReject_state rfl hcode)]
      exact (reject_frame ..).2.2.1
    next hcode =>
      rw [hverdict] at hcode
      exact absurd hcode (firstReject_state_some rfl)

/-- A message becomes visible to the receiver (R382, R383). -/
theorem mbxVisible_queues (c : Fin 256) (m : MbxMsg) (r : List MbxMsg) (s : State) (hsent : (chan s c).sent = m :: r) :
    Completes (.mbxVisible c) s (fun t => (chan t c).sent = r ∧ (chan t c).queue = (chan s c).queue ++ [m] ∧
      (chan t c).irq = (chan s c).irq ||| 2#3 ∧ t.regs = s.regs ∧ t.planes = s.planes) := by
  have hrun : exec (.mbxVisible c) s = .next (chSet c 2#3 0 { chan s c with sent := r, queue := (chan s c).queue ++ [m] } s) := by
    simp only [exec, execMbxVisible, hsent]
  obtain ⟨hirq, -, hqueue, hleft⟩ := chan_chSet c 2#3 0 { chan s c with sent := r, queue := (chan s c).queue ++ [m] } s
  obtain ⟨-, hregs, hplanes⟩ := updChan_frame c _ s
  exact ⟨_, hrun, hleft, hqueue, hirq, hregs, hplanes⟩

/-- Settles O50. -/
theorem mailboxChannels : Obligations.MailboxChannels := by
  unfold Obligations.MailboxChannels
  refine ⟨fun acc c s hreach hrst hfence hag => chGo_sends acc c s hreach hrst hfence hag, mbxVisible_queues, fun c s hnone => ⟨s, ?_, rfl⟩,
    fun acc c s hreach hrst hfence hag hrecv => ?_, fun acc c v s hreach hrst hfence hag hsend => chDbSet_rings acc c s hreach hrst hfence hag hsend v,
    chDbSet_outsider⟩
  · simp only [exec, execMbxVisible, hnone]
  · obtain ⟨hpop, hempty⟩ := chPop_removes acc c s hreach hrst hfence hag hrecv
    exact ⟨hpop, hempty, chDbPend_clears acc c s hreach hrst hfence hag hrecv⟩

end Sys2Proof.Machine
end

section
/-! SUPPORT. O51: the service port: its frames, its link, its regions, and a READ through its RDMA engine (R387, R388, R391). -/

namespace Sys2Proof.Machine

theorem unitBlk_SVC (h : HubId) : unitBlk (hu h .SVC) = some (.SVC, 0) := by cases h <;> decide
theorem unitHub_SVC (h : HubId) : unitHub (hu h .SVC) = some h := by cases h <;> decide

/-! ### Frames and the link -/

section
variable (h : HubId) (s : State)

/-- An enabled port whose link is up takes frames (R387). -/
theorem svcFrameReceive_takes (hen : s.on (hu h .SVC) Fld.SVC_CFG_EN = true) (hup : s.on (hu h .SVC) Fld.SVC_STAT_LINK_UP = true)
    (hpow : s.powered (hu h .SVC) = true) :
    (∀ (dst : BitVec 48) (d : List Byte), d.length ≤ 9216 → dst.toNat = s.get64 (hu h .SVC) Fld.SVC_MAC_LO Fld.SVC_MAC_HI →
      Completes (.svcFrameReceive h (.other dst d)) s (fun t => (t.hub h).rxFrames = (s.hub h).rxFrames ++ [d] ∧ t.regs = s.regs)) ∧
    (∀ (dst : BitVec 48) (d : List Byte), 9216 < d.length →
      Completes (.svcFrameReceive h (.other dst d)) s (fun t => t.hubs = s.hubs ∧
        t.get (hu h .SVC) Fld.SVC_CNT_DROP = min (s.get (hu h .SVC) Fld.SVC_CNT_DROP + 1) 0xFFFF)) ∧
    (∀ q, Completes (.svcFrameReceive h (.pfc q)) s (fun t => (t.hub h).pause = q ∧ t.regs = s.regs)) := by
  have hgate : ¬ ¬ (s.on (hu h .SVC) Fld.SVC_CFG_EN = true ∧ s.on (hu h .SVC) Fld.SVC_STAT_LINK_UP = true ∧ s.powered (hu h .SVC) = true) :=
    not_not.2 ⟨hen, hup, hpow⟩
  refine ⟨fun dst d hlen hdst => ⟨_, (if_neg hgate).trans (if_pos ⟨hlen, Or.inl hdst⟩), ?_, rfl⟩,
    fun dst d hlen => ⟨_, (if_neg hgate).trans (if_neg fun hshort => absurd hshort.1 (by omega)), rfl, ?_⟩,
    fun q => ⟨_, if_neg hgate, ?_, rfl⟩⟩
  · rw [State.modHub_hub_same]
  · have hfull : 2 ^ Fld.SVC_CNT_DROP.width - 1 = 0xFFFF := rfl
    rw [incSat_get _ _ _ rfl, hfull]
  · rw [State.modHub_hub_same]

theorem svcFrameReceive_disabled (f : SvcFrame) (hdis : s.on (hu h .SVC) Fld.SVC_CFG_EN = false) :
    Completes (.svcFrameReceive h f) s (fun t => t = s) :=
  ⟨s, if_pos (by simp [hdis]), rfl⟩

theorem serviceLinkChange_links : Completes (.serviceLinkChange h false) s (fun t => t.get (hu h .SVC) Fld.SVC_STAT_LINK_UP = 0) ∧
    (s.powered (hu h .SVC) = true → s.on (hu h .SVC) Fld.SVC_CFG_EN = true → s.dead = none →
      Completes (.serviceLinkChange h true) s (fun t => t.get (hu h .SVC) Fld.SVC_STAT_LINK_UP = 1)) := by
  refine ⟨⟨s.put (hu h .SVC) Fld.SVC_STAT_LINK_UP 0, ?_, State.get_put_same _ _ _ _ rfl⟩,
    fun hpow hen hlive => ⟨s.put (hu h .SVC) Fld.SVC_STAT_LINK_UP 1, ?_, State.get_put_same _ _ _ _ rfl⟩⟩
  · simp [exec, execServiceLinkChange]
  · simp [exec, execServiceLinkChange, hpow, hen, hlive]

end

/-! ### Regions -/

theorem key_regionEn (r : Fin 64) : (Fld.SVC_RG_EN.at r.val).key = 0x2814 + 32 * r.val := by
  simp only [RField.at, RField.key, Fld.SVC_RG_EN]
  omega

theorem regFields_regionEn (r : Fin 64) : regFields .SVC (Fld.SVC_RG_EN.at r.val).key = [Fld.SVC_RG_RD, Fld.SVC_RG_WR, Fld.SVC_RG_EN] := by
  revert r
  decide +kernel

/-- A write of a region's EN is stored, and has no effect of its own. -/
theorem regWrite_regionEn {acc : Accessor} {h : HubId} {r : Fin 64} {v : Word} {s : State}
    (hacc : accepted s acc (hu h .SVC) (Fld.SVC_RG_EN.at r.val).key v = true) :
    ∃ was, regWrite acc (hu h .SVC) (Fld.SVC_RG_EN.at r.val).key v s =
      latchAfter was (hu h .SVC) (afterStore s (hu h .SVC) .SVC (Fld.SVC_RG_EN.at r.val).key v) := by
  have hkey := key_regionEn r
  have hr := r.isLt
  have hview : storeSkips s (hu h .SVC) .SVC 0 (Fld.SVC_RG_EN.at r.val).key v = false := by
    have hown : ¬ (0x2814 + 32 * r.val) % 4096 < 0x40 := by omega
    simp [storeSkips, viewReg, hkey, hown, unitPlane_hu, unitHub_SVC, hubView]
  have heffect : ∀ w old t, hubEffect acc h .SVC (Fld.SVC_RG_EN.at r.val).key w old t = t := fun w old t => by
    have hqp : ¬ 0x2814 + 32 * r.val < 0x1C00 := by omega
    have hcfg : ¬ 0x2814 + 32 * r.val = 0x040 := by omega
    simp only [hubEffect, svcEffect, hkey, hqp, hcfg, false_and, and_false, if_false]
  obtain ⟨was, hw⟩ := regWrite_hub (unitBlk_SVC h) (unitPlane_hu h _) (unitHub_SVC h) (by rw [hkey]; simp only [pagesOf]; omega) hacc
    ⟨by rw [hkey]; omega, lockHit_of_no_rwl (by rw [regFields_regionEn]; decide) _ _ _, hview⟩
  exact ⟨was, by rw [hw, heffect]⟩

/-- EN opens a region and leaves its extent (R388). -/
theorem rdmaRegionEn_opens (h : HubId) (r : Fin 64) (v : Word) (s : State)
    (hacc : accepted s (.hubCore h) (hu h .SVC) (Fld.SVC_RG_EN.at r.val).key (v ||| (Fld.SVC_RG_EN.at r.val).mask) = true) :
    Completes (.rdmaRegionEn (.hubCore h) h r v) s (fun t => (regionOf t h r.val).en = true ∧
      (regionOf t h r.val).base = (regionOf s h r.val).base ∧ (regionOf t h r.val).len = (regionOf s h r.val).len ∧ t.planes = s.planes) := by
  have hkey := key_regionEn r
  have hr := r.isLt
  obtain ⟨was, hw⟩ := regWrite_regionEn hacc
  set s₁ := afterStore s (hu h .SVC) .SVC (Fld.SVC_RG_EN.at r.val).key (v ||| (Fld.SVC_RG_EN.at r.val).mask) with hs₁
  have hmask : (Fld.SVC_RG_EN.at r.val).mask = 4#32 := rfl
  have hbit : fieldGet (v ||| (Fld.SVC_RG_EN.at r.val).mask) (Fld.SVC_RG_EN.at r.val) = 1 := by
    rw [fieldGet_bit rfl, hmask, BitVec.getLsbD_or, show (Fld.SVC_RG_EN.at r.val).lo = 2 from rfl]
    simp [b2n]
  have hen : (latchAfter was (hu h .SVC) s₁).get (hu h .SVC) (Fld.SVC_RG_EN.at r.val) = 1 := by
    rw [latchAfter_get _ _ (regKey_ne_of_mod (by rw [hkey]; omega)), hs₁, afterStore_get_written rfl (by rw [hkey]; omega)
      (fun locked => by rw [regFields_regionEn, hmask]; revert locked; decide) (by rw [regFields_regionEn, hmask]; decide), hbit]
  have hkept : ∀ f : RField, f.key % 4096 < 0x810 + 32 * r.val → 0x800 ≤ f.key % 4096 →
      (latchAfter was (hu h .SVC) s₁).get (hu h .SVC) f = s.get (hu h .SVC) f := fun f hlow hpage => by
    rw [latchAfter_get _ _ (regKey_ne_of_mod (by omega)), hs₁, afterStore_get_ne (by rw [hkey]; omega) (by omega)]
  have hplace : ∀ k < 4, (0x2800 + 4 * k + 32 * r.val) % 4096 < 0x810 + 32 * r.val ∧ 0x800 ≤ (0x2800 + 4 * k + 32 * r.val) % 4096 := by omega
  refine ⟨_, congrArg Host.Outcome.next hw, ?_, ?_, ?_, ?_⟩
  · simp [regionOf, State.on, hen]
  · simp only [regionOf]
    rw [hkept, hkept]
    all_goals
      simp only [RField.at, RField.key, Fld.SVC_RG_BASE_LO, Fld.SVC_RG_BASE_HI]
      omega
  · simp only [regionOf]
    rw [hkept, hkept]
    all_goals
      simp only [RField.at, RField.key, Fld.SVC_RG_LEN_LO, Fld.SVC_RG_LEN_HI]
      omega
  · rw [latchAfter_planes, hs₁, (afterStore_frame ..).1]

/-! ### The RDMA engine -/

section
variable (h : HubId) (q : Fin 64) (rip : Word) (psn : BitVec 24) (rkey : Word) (addr : BitVec 48) (s : State)

/-- The queue pair takes requests from a remote address (R388). -/
structure QpOpen (h : HubId) (q : Fin 64) (rip : Word) (s : State) : Prop where
  en : s.on (hu h .SVC) Fld.SVC_CFG_EN = true
  rdma : s.on (hu h .SVC) Fld.SVC_CFG_RDMA_EN = true
  up : s.on (hu h .SVC) Fld.SVC_STAT_LINK_UP = true
  powered : s.powered (hu h .SVC) = true
  qp : s.on (hu h .SVC) (Fld.SVC_QP_EN.at q.val) = true
  remote : s.get (hu h .SVC) (Fld.SVC_QP_RIP.at q.val) = rip.toNat
  good : s.on (hu h .SVC) (Fld.SVC_QP_ERR.at q.val) = false

/-- The access that a READ of the RDMA engine makes of a plane. -/
def rdmaRead (s : State) (h : HubId) (q : Fin 64) (psn : BitVec 24) (p : PlaneId) (addr n : Nat) : HostAccess :=
  { via := .hubCore h, rdma := true, tag := q.val + 64 * psn.toNat, write := false
    parts := [{ addr := addr, len := n, data := List.replicate n 0 }], at' := s.beats p }

variable {h q rip} (hopen : QpOpen h q rip s)
include hopen

/-- A request with a wrong sequence number is refused. -/
theorem rdmaRequest_sequence (op : RdmaOp) (hpsn : psn.toNat ≠ s.get (hu h .SVC) (Fld.SVC_QP_EPSN.at q.val)) :
    exec (.rdmaRequest h q rip psn rkey addr op) s = .next (roceNak h q.val 2 (s.get (hu h .SVC) (Fld.SVC_QP_EPSN.at q.val)) s) := by
  obtain ⟨hen, hrdma, hup, hpow, hqp, hrip, hgood⟩ := hopen
  simp [exec, execRdmaRequest, hen, hrdma, hup, hpow, hqp, hrip, hgood, hpsn]

theorem rdmaRequest_other (hpsn : psn.toNat = s.get (hu h .SVC) (Fld.SVC_QP_EPSN.at q.val)) :
    exec (.rdmaRequest h q rip psn rkey addr .other) s = .next (roceNak h q.val 3 psn.toNat s) := by
  obtain ⟨hen, hrdma, hup, hpow, hqp, hrip, hgood⟩ := hopen
  simp [exec, execRdmaRequest, hen, hrdma, hup, hpow, hqp, hrip, hgood, hpsn]

/-- A READ of a region that is not open is refused and stops the queue pair. -/
theorem rdmaRequest_closed (n : Nat) (hpsn : psn.toNat = s.get (hu h .SVC) (Fld.SVC_QP_EPSN.at q.val))
    (hclosed : (regionOf s h (rkey.toNat % 64)).en = false) :
    exec (.rdmaRequest h q rip psn rkey addr (.read n)) s = .next (qpError h q.val (roceNak h q.val 4 psn.toNat s)) := by
  obtain ⟨hen, hrdma, hup, hpow, hqp, hrip, hgood⟩ := hopen
  simp [exec, execRdmaRequest, hen, hrdma, hup, hpow, hqp, hrip, hgood, hpsn, hclosed]

/-- A READ within one granule of an open region goes to the plane. -/
theorem rdmaRequest_arrives (n : Nat) {r : Region} (hpsn : psn.toNat = s.get (hu h .SVC) (Fld.SVC_QP_EPSN.at q.val))
    (hregion : regionOf s h (rkey.toNat % 64) = r) (hen : r.en = true) (htag : r.tag = rkey.toNat / 256) (hrd : r.rd = true)
    (hbase : r.base ≤ addr.toNat) (hend : addr.toNat + n ≤ r.base + r.len) (hcarry : hubCarries s h r.plane = true)
    (hone : addr.toNat % 256 + n ≤ 256) (hreach : hubReach s r.plane false addr.toNat n = true) :
    exec (.rdmaRequest h q rip psn rkey addr (.read n)) s = .next (arriveAccess r.plane (rdmaRead s h q psn r.plane addr.toNat n)
      (linkRequest h r.plane (s.put (hu h .SVC) (Fld.SVC_QP_EPSN.at q.val) ((psn.toNat + 1) % 2 ^ 24)))) := by
  obtain ⟨hcfg, hrdma, hup, hpow, hqp, hrip, hgood⟩ := hopen
  have hcount : roceCount n = 1 := by
    rw [roceCount]
    omega
  have hparts : splitParts (n / 256 + 2) addr.toNat (List.replicate n 0) = [{ addr := addr.toNat, len := n, data := List.replicate n 0 }] := by
    rw [splitParts_one (by simpa using hone), List.length_replicate]
  have hfree : ¬ (s.on (hu h .SVC) (Fld.SVC_QP_ERR.at q.val) = true) := by simp [hgood]
  simp only [exec, execRdmaRequest, hcfg, hrdma, hup, hpow, hqp, hrip, hgood, ← hpsn, hregion, hen, htag, hrd, hbase, hend, hcarry, hreach, hcount, hparts]
  simp [rdmaRead]
  rfl

end

/-- The response to a READ of one packet. -/
theorem finishRdma_read {h : HubId} {a : HostAccess} {x : AccessPart} (s : State) (hvia : a.via = .hubCore h) (hrdma : a.rdma = true)
    (hread : a.write = false) (hgood : x.poisoned = false) (hsome : x.data ≠ []) (hlen : x.data.length < 4096) :
    finishAccess { a with parts := [x] } s = s.emit (.roce h (a.tag % 64) 1 (a.tag / 64) x.data) := by
  have hnone : x.data.drop 4096 = [] := List.drop_eq_nil_of_le hlen.le
  have hall : x.data.take 4096 = x.data := List.take_of_length_le hlen.le
  have hfuel : x.data.length / 4096 = 0 := Nat.div_eq_of_lt hlen
  simp [finishAccess, hvia, hrdma, finishRdma, hread, hgood, hfuel, readPackets, hsome, hall]

/-- Settles O51. -/
theorem servicePort : Obligations.ServicePort := by
  unfold Obligations.ServicePort
  refine ⟨svcFrameReceive_takes, fun h f s => svcFrameReceive_disabled h s f, serviceLinkChange_links, rdmaRegionEn_opens, ?_⟩
  intro h q rip psn rkey addr s hen hrdma hup hpow hqp hrip hgood
  have hopen : QpOpen h q rip s := ⟨hen, hrdma, hup, hpow, hqp, hrip, hgood⟩
  refine ⟨fun op hpsn => ⟨_, rdmaRequest_sequence psn rkey addr s hopen op hpsn, rfl, rfl, rfl⟩,
    fun hpsn => ⟨_, rdmaRequest_other psn rkey addr s hopen hpsn, rfl, rfl⟩,
    fun n hpsn hclosed => ⟨_, rdmaRequest_closed psn rkey addr s hopen n hpsn hclosed, rfl, ?_, rfl⟩, ?_⟩
  · rw [State.on, qpError, State.get_put_same _ _ _ _ rfl]
    rfl
  · intro n r hpsn hregion hren htag hrd hbase hend hcarry hsome hone hreach hfree hclean harmed halone
    set s₁ := s.put (hu h .SVC) (Fld.SVC_QP_EPSN.at q.val) ((psn.toNat + 1) % 2 ^ 24) with hs₁
    have hepsn : (Fld.SVC_QP_EPSN.at q.val).key % 4096 = 0x808 + 16 * q.val := by
      have hq := q.isLt
      simp only [RField.at, RField.key, Fld.SVC_QP_EPSN]
      omega
    have hput : SameStore r.plane s s₁ := sameStore_put r.plane s _ _ (by rw [hepsn]; omega)
    have hlink : SameStore r.plane s (linkRequest h r.plane s₁) := hput.trans (sameStore_linkRequest ..)
    have hfree₁ : keyHolds (linkRequest h r.plane s₁) r.plane addr.toNat = false := by
      rw [keyHolds_linkRequest, hput.keyHolds rfl (fun b hb => State.get_put_ne _ _ (regKey_ne_of_mod (by
        rw [hepsn]
        simp only [RField.at, RField.key, Fld.KSQ_B_STAT_STATE]
        omega))), hfree]
    obtain ⟨v, hstore, hregs, hout, hrun⟩ := arriveAccess_read (a := rdmaRead s h q psn r.plane addr.toNat n) (s := linkRequest h r.plane s₁)
      rfl rfl rfl halone hfree₁ harmed ((hlink.poisonedAt addr.toNat n).trans hclean)
    have hread : memRead (linkRequest h r.plane s₁) r.plane addr.toNat n = memRead s r.plane addr.toNat n := rfl
    have hdata : (memRead s r.plane addr.toNat n).length = n := by simp [memRead, memBytes]
    have hbytes : memRead s r.plane addr.toNat n ≠ [] := List.ne_nil_of_length_pos (by omega)
    have hshort : (memRead s r.plane addr.toNat n).length < 4096 := by omega
    have htags : (q.val + 64 * psn.toNat) % 64 = q.val ∧ (q.val + 64 * psn.toNat) / 64 = psn.toNat := by omega
    rw [hread, finishRdma_read v rfl rfl rfl rfl hbytes hshort] at hrun
    refine ⟨_, (rdmaRequest_arrives psn rkey addr s hopen n hpsn hregion hren htag hrd hbase hend hcarry hone hreach).trans
      (congrArg Host.Outcome.next hrun), ?_, ?_, ?_⟩
    · rw [rdmaRead, htags.1, htags.2]
      exact congrArg (· ++ [Output.roce h q.val 1 psn.toNat (memRead s r.plane addr.toNat n)]) hout
    · rw [State.modPl_get, State.emit_get, State.get, State.reg_congr hregs hstore.source, ← State.get, linkRequest_get_ne, hs₁,
        State.get_put_same _ _ _ _ rfl]
      · exact Nat.mod_mod _ _
      · cases h <;> decide
    · rw [State.modPl_pl_same]
      exact (hlink.trans hstore).mem

end Sys2Proof.Machine
end

section
/-! SUPPORT. O18: injected faults (R417): what the log of a free unit takes of one, and the rejection of GO outside test mode. -/

namespace Sys2Proof.Machine

/-! ### A fault with its reactions -/

/-- The reactions that `detectAll` adds to a detection. -/
def furtherReactions (u src : Nat) (cls : FaultClass) (wh detail : Nat) (s : State) : State :=
  match unitPlane u with
  | none => s
  | some p => match planeBlk (u % 256) with
    | some (.FPT, n) => fptReact p n src s
    | some (.TMB, n) => tmbReact p n src cls wh detail s
    | some (.NMC, _) => if src = 2 then afterUse p (wh + 2 ^ 32 * detail) s else s
    | some (.FMC, _) => if src = 2 then afterUse p (wh + 2 ^ 32 * detail) s else s
    | _ => s

theorem detectAll_eq (injected : Bool) (u src : Nat) (cls : FaultClass) (wh detail : Nat) (s : State) : detectAll injected u src cls wh detail s =
    furtherReactions u src cls wh detail (detectFault u { src := src, cls := cls, loc := wh, detail := detail, injected := injected } s) := rfl

/-- A quiet source has none of them. -/
theorem furtherReactions_quiet {u n src : Nat} {b : Blk} (hb : unitBlk u = some (b, n)) (hq : (b, src) ∈ quietSources) (cls : FaultClass)
    (wh detail : Nat) (s : State) : furtherReactions u src cls wh detail s = s := by
  unfold furtherReactions
  split
  · rfl
  next p hp =>
    have hblk : planeBlk (u % 256) = some (b, n) := by
      have hu : u < 0x400 := by
        by_contra hge
        rw [unitPlane, dif_neg (by omega)] at hp
        exact absurd hp (by simp)
      rw [← hb, unitBlk, if_pos hu]
    have hall : ∀ e ∈ quietSources, e.1 ≠ .FPT ∧ (e.1 = .TMB → e.2 = 3) ∧ (e.1 = .NMC ∨ e.1 = .FMC → e.2 ≠ 2) := by decide
    obtain ⟨hfpt, htmb, hmem⟩ := hall _ hq
    rw [hblk]
    cases b
    case FPT => exact absurd rfl hfpt
    case TMB =>
      obtain rfl : src = 3 := htmb rfl
      simp only [tmbReact]
      split <;> rfl
    case NMC => exact if_neg (hmem (Or.inl rfl))
    case FMC => exact if_neg (hmem (Or.inr rfl))
    all_goals rfl

/-- At a unit whose log is free, the first fault of a beat by a quiet source is logged, whatever its class. -/
theorem detectFault_first {u n : Nat} {b : Blk} {d : Detection} {s : State} (hb : unitBlk u = some (b, n)) (hq : (b, d.src) ∈ quietSources)
    (hseen : detectedNow s u = []) (h0 : s.get u Fld.BLK_ERR_CLASS = 0) : detectFault u d s = logOrDead u b d s := by
  have hheld : (logNow s u).held = 0 := h0
  have hbase : (settleLog s u b (logBase s u) (detectedNow s u)).held = 0 := by simp [logBase, hseen, settleLog, LogSave.due, hheld]
  simp only [detectFault, hb, hbase, react_quiet hq, Nat.zero_ne_one, false_and, and_false, if_false]

/-- What a captured fault leaves in the log and in the report logic of a block that is no collector. -/
theorem logOrDead_first {u : Nat} {b : Blk} {d : Detection} {s : State} (hb : b ≠ .FCL) (hsrc : d.src < 256) (hseen : detectedNow s u = [])
    (h0 : s.get u Fld.BLK_ERR_CLASS = 0) :
    (logOrDead u b d s).get u Fld.BLK_ERR_CLASS = classCode d.cls ∧ (logOrDead u b d s).get u Fld.BLK_ERR_CLASS_SOURCE = d.src ∧
      ((logOrDead u b d s).rp u).rseq = ((s.rp u).rseq + 1) % 16 ∧ ((logOrDead u b d s).rp u).corrupt = (s.rp u).corrupt := by
  obtain ⟨hclass, hsource⟩ := logOrDead_captured (d := d) hb hsrc h0 hseen
  have hheld : (logNow s u).held = 0 := h0
  have hbase : logBase s u = logNow s u := by simp [logBase, hseen, LogSave.due, hheld]
  have hrseq : ((logDetection u b d s).rp u).rseq = ((s.rp u).rseq + 1) % 16 := by
    have hlog := logNow_logDetection hseen b d
    rw [hbase] at hlog
    obtain ⟨-, -, -, -, -, -, -, -, hnext⟩ := LogSave.add_free hheld b (unitFt s u) (unitBeat s u) (cackBeats s) hsrc
    exact (congrArg LogSave.rseq hlog).trans hnext
  have hcorrupt : ((logDetection u b d s).rp u).corrupt = (s.rp u).corrupt := by
    simp only [logDetection, setLog, State.modRp_rp]
    rfl
  refine ⟨hclass, hsource, ?_⟩
  simp only [logOrDead, hb, if_false]
  split
  · rw [State.modRp_rp]
    exact ⟨hrseq, hcorrupt⟩
  · exact ⟨hrseq, hcorrupt⟩

/-! ### GO -/

/-- GO's bit leaves the source and the class that a write names. -/
theorem injected_fields (v : Word) : (v ||| Fld.BLK_ERR_INJ_GO.mask).toNat % 256 = fieldGet v Fld.BLK_ERR_INJ_INJ_SRC ∧
    bits (v ||| Fld.BLK_ERR_INJ_GO.mask).toNat 9 8 = fieldGet v Fld.BLK_ERR_INJ_INJ_CLASS := by
  have hsrc : fieldGet (v ||| Fld.BLK_ERR_INJ_GO.mask) Fld.BLK_ERR_INJ_INJ_SRC = fieldGet v Fld.BLK_ERR_INJ_INJ_SRC := by
    apply fieldGet_congr
    have hapart : Fld.BLK_ERR_INJ_GO.mask &&& Fld.BLK_ERR_INJ_INJ_SRC.mask = 0#32 := by decide
    rw [BitVec.and_or_distrib_right, hapart, BitVec.or_zero]
  have hcls : fieldGet (v ||| Fld.BLK_ERR_INJ_GO.mask) Fld.BLK_ERR_INJ_INJ_CLASS = fieldGet v Fld.BLK_ERR_INJ_INJ_CLASS := by
    apply fieldGet_congr
    have hapart : Fld.BLK_ERR_INJ_GO.mask &&& Fld.BLK_ERR_INJ_INJ_CLASS.mask = 0#32 := by decide
    rw [BitVec.and_or_distrib_right, hapart, BitVec.or_zero]
  refine ⟨?_, ?_⟩
  · rw [← hsrc, fieldGet, BitVec.extractLsb'_toNat]
    rfl
  · rw [← hcls, fieldGet, BitVec.extractLsb'_toNat, Nat.shiftRight_eq_div_pow]
    rfl

/-- The class that a field of two bits names has that code. -/
theorem classCode_classOf {n : Nat} (hn : n < 4) : classCode (classOf n) = n := by
  interval_cases n <;> rfl

/-- What the store of BLK_ERR_INJ leaves of the unit's log and report logic. -/
theorem injStored_keeps (acc : Accessor) (u : Nat) (b : Blk) (v : Word) (s : State) :
    (afterStore (arrive acc u s) u b 0x030 v).get u Fld.BLK_ERR_CLASS = s.get u Fld.BLK_ERR_CLASS ∧
    (afterStore (arrive acc u s) u b 0x030 v).rp u = s.rp u ∧
    detectedNow (afterStore (arrive acc u s) u b 0x030 v) u = detectedNow s u := by
  obtain ⟨hplanes, hhubs, hrep, -⟩ := afterStore_frame (arrive acc u s) u b 0x030 v
  obtain ⟨hplanes', hrep', -⟩ := arrive_frame acc u s
  have hrp : (afterStore (arrive acc u s) u b 0x030 v).rp u = s.rp u := by rw [State.rp, hrep, hrep', State.rp]
  have hbeat : unitBeat (afterStore (arrive acc u s) u b 0x030 v) u = unitBeat s u := by
    cases hp : unitPlane u with
    | some p => simp only [unitBeat, hp, State.beats, State.pl, hplanes, hplanes']
    | none =>
      rw [arrive_of_hub hp] at hhubs ⊢
      simp only [unitBeat, hp, State.hub, hhubs]
  exact ⟨(afterStore_get_ne (by decide) (by decide)).trans (arrive_get _ _ _ (by decide)), hrp, by rw [detectedNow, hrp, hbeat, detectedNow]⟩

/-- What an injected fault leaves at a block that is no collector and whose log was free. -/
theorem inject_first {u n : Nat} {b : Blk} {v : Word} {s : State} (hb : unitBlk u = some (b, n)) (hfcl : b ≠ .FCL)
    (hq : (b, v.toNat % 256) ∈ quietSources) (h0 : s.get u Fld.BLK_ERR_CLASS = 0) (hseen : detectedNow s u = []) :
    (inject u b v s).get u Fld.BLK_ERR_CLASS = bits v.toNat 9 8 ∧ (inject u b v s).get u Fld.BLK_ERR_CLASS_SOURCE = v.toNat % 256 ∧
      ((inject u b v s).rp u).rseq = ((s.rp u).rseq + 1) % 16 ∧
      (injectsD b (v.toNat % 256) = true → ((inject u b v s).rp u).corrupt.isSome = true) ∧
      (injectsD b (v.toNat % 256) = false → ((inject u b v s).rp u).corrupt = (s.rp u).corrupt) := by
  have hcls : classCode (classOf (bits v.toNat 9 8)) = bits v.toNat 9 8 := classCode_classOf (Nat.mod_lt _ (by decide))
  have hseen' : detectedNow s.takeFree.2 u = [] := hseen
  have h0' : s.takeFree.2.get u Fld.BLK_ERR_CLASS = 0 :=
    (congrArg (fieldGet · Fld.BLK_ERR_CLASS) (State.reg_congr (s := s) (t := s.takeFree.2) rfl ⟨rfl, rfl, rfl, fun _ => rfl⟩ u _)).trans h0
  set w := injWhere s u b (v.toNat % 256) s.takeFree.1.toNat
  have hrun : detectAll true u (v.toNat % 256) (classOf (bits v.toNat 9 8)) w.1 w.2 s.takeFree.2 = logOrDead u b
      { src := v.toNat % 256, cls := classOf (bits v.toNat 9 8), loc := w.1, detail := w.2, injected := true } s.takeFree.2 := by
    rw [detectAll_eq, furtherReactions_quiet hb hq, detectFault_first hb hq hseen' h0']
  obtain ⟨hclass, hsource, hrseq, hcorrupt⟩ := logOrDead_first (s := s.takeFree.2)
    (d := { src := v.toNat % 256, cls := classOf (bits v.toNat 9 8), loc := w.1, detail := w.2, injected := true }) hfcl
    (Nat.mod_lt _ (by decide)) hseen' h0'
  rw [← hrun] at hclass hsource hrseq hcorrupt
  have hinject : inject u b v s = if injectsD b (v.toNat % 256) then corruptNext u (v.toNat % 256) b (classOf (bits v.toNat 9 8)) none
      (detectAll true u (v.toNat % 256) (classOf (bits v.toNat 9 8)) w.1 w.2 s.takeFree.2)
    else detectAll true u (v.toNat % 256) (classOf (bits v.toNat 9 8)) w.1 w.2 s.takeFree.2 := rfl
  rw [hinject]
  split
  next hD =>
    rw [corruptNext, State.modRp_rp, State.get, State.get, State.modRp_reg, State.modRp_reg, ← State.get, ← State.get]
    exact ⟨hclass.trans hcls, hsource, hrseq, fun _ => rfl, fun hno => absurd (hD.symm.trans hno) (by decide)⟩
  next hD => exact ⟨hclass.trans hcls, hsource, hrseq, fun hyes => absurd hyes hD, fun _ => hcorrupt⟩

/-- An accepted GO (R417). -/
theorem go_injects {acc : Accessor} {u pg n : Nat} {b : Blk} {v : Word} {s : State} (hwf : wfPage u pg = true) (hb : unitBlk u = some (b, n))
    (hacc : accepted s acc u (4096 * pg + 0x030) (v ||| Fld.BLK_ERR_INJ_GO.mask) = true)
    (hq : (b, fieldGet v Fld.BLK_ERR_INJ_INJ_SRC) ∈ quietSources) (hfcl : b ≠ .FCL) (h0 : s.get u Fld.BLK_ERR_CLASS = 0)
    (hseen : detectedNow s u = []) :
    Completes (.go acc u pg v) s (fun t => t.get u Fld.BLK_ERR_CLASS = fieldGet v Fld.BLK_ERR_INJ_INJ_CLASS ∧
      t.get u Fld.BLK_ERR_CLASS_SOURCE = fieldGet v Fld.BLK_ERR_INJ_INJ_SRC ∧ (t.rp u).rseq = ((s.rp u).rseq + 1) % 16 ∧
      (injectsD b (fieldGet v Fld.BLK_ERR_INJ_INJ_SRC) = true → (t.rp u).corrupt.isSome = true) ∧
      (injectsD b (fieldGet v Fld.BLK_ERR_INJ_INJ_SRC) = false → (t.rp u).corrupt = (s.rp u).corrupt)) := by
  obtain ⟨b', n', was, hb', hw⟩ := regWrite_header hwf (by decide) (by decide) (by simp) hacc
  obtain ⟨rfl, rfl⟩ := Prod.mk.inj (Option.some.inj (hb.symm.trans hb'))
  obtain ⟨hsrc, hcls⟩ := injected_fields v
  have hv : (v ||| Fld.BLK_ERR_INJ_GO.mask).getLsbD 31 = true := by
    have hbit : Fld.BLK_ERR_INJ_GO.mask.getLsbD 31 = true := by decide
    rw [BitVec.getLsbD_or, hbit, Bool.or_true]
  have heff : ∀ old t, headerEffect u b n 0x030 (v ||| Fld.BLK_ERR_INJ_GO.mask) old t = inject u b (v ||| Fld.BLK_ERR_INJ_GO.mask) t :=
    fun _ _ => if_pos hv
  obtain ⟨hclass, hrp, hdet⟩ := injStored_keeps acc u b (v ||| Fld.BLK_ERR_INJ_GO.mask) s
  obtain ⟨h1, h2, h3, h4, h5⟩ := inject_first hb hfcl (by rw [hsrc]; exact hq) (hclass.trans h0) (hdet.trans hseen)
  rw [heff] at hw
  rw [hrp] at h3 h5
  rw [hsrc] at h2 h4 h5
  rw [hcls] at h1
  have hirq : ∀ f : RField, f.key = 0x01C → regKey u 0x018 ≠ regKey u f.key := fun f hf => regKey_ne_of_mod (by rw [hf]; decide)
  have hlatched : ∀ x : State, (latchAfter was u x).rp u = x.rp u := fun x => by rw [State.rp, latchAfter_rep, State.rp]
  refine ⟨_, congrArg Host.Outcome.next hw, (latchAfter_get _ _ (hirq _ rfl)).trans h1, (latchAfter_get _ _ (hirq _ rfl)).trans h2, ?_⟩
  rw [hlatched]
  exact ⟨h3, h4, h5⟩

/-- A write that a check rejects leaves its record. -/
theorem regWrite_refused {acc : Accessor} {u off n : Nat} {b : Blk} {v : Word} {s : State} {c : RejCode} (hb : unitBlk u = some (b, n))
    (hpage : off < 4096 * pagesOf b) (hr : reaches s acc u off = true) (hc : checkWrite (arrive acc u s) acc u b n off true v = some c) :
    ∃ was, regWrite acc u off v s = noteLate u off c v (arrive acc u s) (latchAfter was u (reject u off c (arrive acc u s))) := by
  obtain ⟨a, ha⟩ := bar0Of_isSome (off := off) hb
  rw [regWrite, ha]
  exact writeBar0_rejected hb hpage hr ha hc

/-- GO outside test mode. -/
theorem go_refused {acc : Accessor} {u : Nat} {v : Word} {s : State} (hwf : wfUnit u = true) (hr : reaches s acc u 0x030 = true)
    (htest : s.testMode = false) (hrst : s.on u Fld.BLK_STAT_RST_BUSY = false) (hfence : s.fenced u = false) :
    Completes (.go acc u 0 v) s (fun t => t.get u Fld.BLK_STAT_REJ = 1 ∧ (s.get u Fld.BLK_STAT_REJ = 0 → t.get u Fld.BLK_STAT_REJ_CODE = 5) ∧
      t.get u Fld.BLK_ERR_CLASS = s.get u Fld.BLK_ERR_CLASS ∧ t.planes = s.planes) := by
  obtain ⟨⟨b, n⟩, hb⟩ := Option.isSome_iff_exists.1 hwf
  have hget : ∀ f : RField, f.key % 4096 < 0x400 → (arrive acc u s).get u f = s.get u f := fun f hf => arrive_get acc u s hf
  have hc : checkWrite (arrive acc u s) acc u b n 0x030 true (v ||| Fld.BLK_ERR_INJ_GO.mask) = some .state := by
    have hfields : (regFields b 0x030).isEmpty = false := by
      rw [regFields_header b (by decide)]
      decide
    have hbusy : unitBusy (arrive acc u s) u b 0x030 = false := by
      have hrst' : (arrive acc u s).on u Fld.BLK_STAT_RST_BUSY = false := by rw [State.on, hget _ (by decide), ← State.on, hrst]
      simp only [unitBusy, hrst', spmBusy, kplBusy]
      split <;> simp
    have hopen : (arrive acc u s).fenced u = false := by rw [State.fenced, State.on, hget _ (by decide), ← State.on, ← State.fenced, hfence]
    have hstate : (blockVerdict (arrive acc u s) acc u b n 0x030 (v ||| Fld.BLK_ERR_INJ_GO.mask)).state = true := by
      have hgo : (v ||| Fld.BLK_ERR_INJ_GO.mask).getLsbD 31 = true := by
        have hbit : Fld.BLK_ERR_INJ_GO.mask.getLsbD 31 = true := by decide
        rw [BitVec.getLsbD_or, hbit, Bool.or_true]
      have hmode : (arrive acc u s).testMode = false := by rw [State.testMode, (arrive_frame acc u s).2.2.2.2.2.1]; exact htest
      have hheader : headerVerdict (arrive acc u s) u b 0x030 (v ||| Fld.BLK_ERR_INJ_GO.mask) = injVerdict (arrive acc u s) b _ := rfl
      rw [blockVerdict, if_pos (by decide), hheader, injVerdict, if_pos hgo, hmode]
      rfl
    simp [checkWrite, firstReject, hfields, hbusy, hopen, hstate]
  obtain ⟨was, hw⟩ := regWrite_refused hb (by unfold pagesOf; split <;> decide) hr hc
  have hrec := fun {f : RField} hf => rejected_get acc u 0x030 .state (v ||| Fld.BLK_ERR_INJ_GO.mask) was s (f := f) hf
  refine ⟨_, congrArg Host.Outcome.next hw, ?_, fun hfirst => ?_, ?_, ?_⟩
  · rw [hrec rfl, (reject_counted _ _ _ _).1]
  · rw [hrec rfl, (reject_first ((hget _ (by decide)).trans hfirst) _ _).1]
    rfl
  · exact congrArg (fieldGet · Fld.BLK_ERR_CLASS) (rejected_reg acc u 0x030 .state _ was s (regKey_ne_of_mod (by decide))
      (regKey_ne_of_mod (by decide)) (not_countsLink_of_low u (by decide)))
  · rw [noteLate_planes (by simp), latchAfter_planes, (reject_frame ..).1, (arrive_frame acc u s).1]

/-- Settles O18. -/
theorem injectedFault : Obligations.InjectedFault := by
  unfold Obligations.InjectedFault
  exact ⟨fun acc u pg b n v s hwf hb hacc hq hfcl h0 hseen => go_injects hwf hb hacc hq hfcl h0 hseen,
    fun acc u v s hwf hr htest hrst hfence _ => go_refused hwf hr htest hrst hfence⟩

end Sys2Proof.Machine
end

section
/-! SUPPORT. O52: reports (R395 to R400, R408, R410): frames, a collector's views of the units, the fault of a broken pair, and the entry into
the deadbolt state. -/

namespace Sys2Proof.Machine

/-! ### Frames (R395, Table 14.3) -/

/-- A bit above the counted ones adds itself. -/
theorem ones_top (n v b : Nat) (hv : v < 2 ^ n) (hb : b < 2) : ones (n + 1) (v + 2 ^ n * b) = ones n v + b := by
  induction n generalizing v with
  | zero =>
    obtain rfl : v = 0 := by omega
    simp only [ones]
    omega
  | succ n ih =>
    have hsplit : (v + 2 ^ (n + 1) * b) % 2 = v % 2 ∧ (v + 2 ^ (n + 1) * b) / 2 = v / 2 + 2 ^ n * b := by
      rw [pow_succ, Nat.mul_right_comm]
      omega
    have hone : ones (n + 2) (v + 2 ^ (n + 1) * b) = (v + 2 ^ (n + 1) * b) % 2 + ones (n + 1) ((v + 2 ^ (n + 1) * b) / 2) := rfl
    rw [hone, hsplit.1, hsplit.2, ih (v / 2) (by rw [pow_succ] at hv; omega)]
    simp only [ones]
    omega

/-- A collector reads back what a unit sends. -/
theorem frameOk_reportFrame (cls rseq u : Nat) (hcls : cls < 4) (hrseq : rseq < 16) :
    frameOk u (BitVec.ofNat 16 (reportFrame cls rseq u)) = true ∧ bits (BitVec.ofNat 16 (reportFrame cls rseq u)).toNat 3 2 = cls ∧
      bits (BitVec.ofNat 16 (reportFrame cls rseq u)).toNat 7 4 = rseq := by
  set v := 1 + 4 * (cls % 4) + 16 * (rseq % 16) + 256 * (u % 128) with hv
  set b := (ones 15 v + 1) % 2 with hb
  have hlow : v < 2 ^ 15 := by omega
  have hbit : b < 2 := by omega
  have hframe : reportFrame cls rseq u = v + 2 ^ 15 * b := rfl
  have hword : (BitVec.ofNat 16 (reportFrame cls rseq u)).toNat = v + 2 ^ 15 * b := by
    rw [hframe, BitVec.toNat_ofNat, Nat.mod_eq_of_lt (by omega)]
  have hodd : ones 16 (v + 2 ^ 15 * b) % 2 = 1 := by
    rw [ones_top 15 v b hlow hbit]
    omega
  rw [frameOk, hword]
  refine ⟨?_, ?_, ?_⟩
  · have hstart : (v + 2 ^ 15 * b) % 4 = 1 := by omega
    have hcheck : bits (v + 2 ^ 15 * b) 14 8 = u % 128 := by
      simp only [bits]
      omega
    simp only [hstart, hcheck, hodd, decide_true, Bool.and_self]
  · simp only [bits]
    omega
  · simp only [bits]
    omega

/-- A powered unit sends a frame on both pairs. -/
theorem reportFrameSend_sends {u : Nat} {s : State} (hu : (unitBlk u).isSome = true) (hpow : s.powered u = true)
    (hdue : (s.rp u).lastSent + 64 ≤ unitBeat s u) :
    Completes (.reportFrameSend u) s (fun t => t.out = s.out ++
        [.report u .a (BitVec.ofNat 16 (reportFrame (s.get u Fld.BLK_ERR_CLASS) (s.rp u).rseq u)),
         .report u .b (BitVec.ofNat 16 (reportFrame (s.get u Fld.BLK_ERR_CLASS) (s.rp u).rseq u))] ∧
      (t.rp u).lastSent = unitBeat s u ∧ t.regs = s.regs) := by
  refine ⟨_, if_pos ⟨hu, hpow, hdue⟩, by simp, ?_, rfl⟩
  rw [State.modRp_rp]

/-! ### A fault that takes no part in escalation -/

/-- One log is as another is, or has fallen behind it: the held fault takes no part in escalation, and CLASS is no higher. -/
def LogBehind (b : Blk) (x y : LogSave) : Prop :=
  (x.held = y.held ∧ fieldGet x.cls Fld.BLK_ERR_CLASS_SOURCE = fieldGet y.cls Fld.BLK_ERR_CLASS_SOURCE) ∨
    (escSource b (fieldGet y.cls Fld.BLK_ERR_CLASS_SOURCE) = false ∧ (y.held = 1 ∨ y.held = 2 ∧ 2 ≤ x.held ∨ y.held = 3 ∧ x.held = 3))

/-- A log that has counted a class C fault (R47). -/
def LogSave.counted (x : LogSave) (d : Detection) : LogSave :=
  if d.cls = .c then { x with cls := fieldSet x.cls Fld.BLK_ERR_CLASS_C_COUNT (min (fieldGet x.cls Fld.BLK_ERR_CLASS_C_COUNT + 1) 0xFFFF) } else x

theorem LogSave.counted_fields (x : LogSave) (d : Detection) : (x.counted d).held = x.held ∧
    fieldGet (x.counted d).cls Fld.BLK_ERR_CLASS_SOURCE = fieldGet x.cls Fld.BLK_ERR_CLASS_SOURCE := by
  unfold LogSave.counted
  split
  · exact ⟨fieldGet_fieldSet_apart _ _ _ _ (by decide) (by decide) (by decide), fieldGet_fieldSet_apart _ _ _ _ (by decide) (by decide) (by decide)⟩
  · exact ⟨rfl, rfl⟩

/-- A detection raises a held log's CLASS to F. -/
def LogSave.risesF (b : Blk) (x : LogSave) (d : Detection) : Bool := decide (x.held ≠ 3 ∧
  (d.cls = .f ∨ (x.held = 2 ∧ d.cls = .u ∧ escSource b d.src = true ∧ escSource b (fieldGet x.cls Fld.BLK_ERR_CLASS_SOURCE) = true)))

/-- A detection raises a held log's CLASS to U. -/
def LogSave.risesU (b : Blk) (x : LogSave) (d : Detection) : Bool := decide (x.held = 1 ∧
  escSource b d.src = true ∧ (d.cls = .u ∨ (d.cls = .c ∧ escSource b (fieldGet x.cls Fld.BLK_ERR_CLASS_SOURCE) = true)))

theorem LogSave.add_eq (b : Blk) (ft beat cack : Nat) (x : LogSave) (d : Detection) : x.add b ft beat cack d =
    if x.held = 0 then (x.counted d).capture ft beat cack d
    else if x.risesF b d then LogSave.raise 3 { x.counted d with cls := fieldSet (x.counted d).cls Fld.BLK_ERR_CLASS_OVF 1 }
    else if x.risesU b d then LogSave.raise 2 { x.counted d with cls := fieldSet (x.counted d).cls Fld.BLK_ERR_CLASS_OVF 1 }
    else { x.counted d with cls := fieldSet (x.counted d).cls Fld.BLK_ERR_CLASS_OVF 1 } := by
  simp only [LogSave.risesF, LogSave.risesU, decide_eq_true_eq]
  rfl

/-- CLASS and SOURCE after one more detection. -/
theorem LogSave.add_class (b : Blk) (ft beat cack : Nat) (x : LogSave) (d : Detection) :
    (x.add b ft beat cack d).held =
      (if x.held = 0 then classCode d.cls else if x.risesF b d then 3 else if x.risesU b d then 2 else x.held) ∧
    fieldGet (x.add b ft beat cack d).cls Fld.BLK_ERR_CLASS_SOURCE =
      (if x.held = 0 then d.src % 256 else fieldGet x.cls Fld.BLK_ERR_CLASS_SOURCE) := by
  have hcode : classCode d.cls % 2 ^ Fld.BLK_ERR_CLASS.width = classCode d.cls := by cases d.cls <;> decide
  have hthree : 3 % 2 ^ Fld.BLK_ERR_CLASS.width = 3 := rfl
  have htwo : 2 % 2 ^ Fld.BLK_ERR_CLASS.width = 2 := rfl
  have hsource : d.src % 2 ^ Fld.BLK_ERR_CLASS_SOURCE.width = d.src % 256 := rfl
  obtain ⟨hheld, hkept⟩ := x.counted_fields d
  rw [LogSave.held] at hheld
  rw [LogSave.add_eq]
  split_ifs
  · simp (disch := decide) only [LogSave.held, LogSave.capture, fieldGet_fieldSet_same, fieldGet_fieldSet_apart, hcode, hsource, and_self]
  · simp (disch := decide) only [LogSave.held, LogSave.raise, fieldGet_fieldSet_same, fieldGet_fieldSet_apart, hthree, hkept, and_self]
  · simp (disch := decide) only [LogSave.held, LogSave.raise, fieldGet_fieldSet_same, fieldGet_fieldSet_apart, htwo, hkept, and_self]
  · simp (disch := decide) only [LogSave.held, fieldGet_fieldSet_apart, hkept, and_true]
    exact hheld

/-- A further detection leaves a log behind the other. -/
theorem logBehind_add {b : Blk} {x y : LogSave} (h : LogBehind b x y) (ft beat cack : Nat) (d : Detection) :
    LogBehind b (x.add b ft beat cack d) (y.add b ft beat cack d) := by
  obtain ⟨hx, hxs⟩ := x.add_class b ft beat cack d
  obtain ⟨hy, hys⟩ := y.add_class b ft beat cack d
  obtain ⟨hheld, hsource⟩ | ⟨hesc, hrank⟩ := h
  · have hF : x.risesF b d = y.risesF b d := by rw [LogSave.risesF, LogSave.risesF, hheld, hsource]
    have hU : x.risesU b d = y.risesU b d := by rw [LogSave.risesU, LogSave.risesU, hheld, hsource]
    exact Or.inl ⟨by rw [hx, hy, hheld, hF, hU], by rw [hxs, hys, hheld, hsource]⟩
  · have hy0 : y.held ≠ 0 := by omega
    refine Or.inr ⟨by rw [hys, if_neg hy0]; exact hesc, ?_⟩
    have hFy : y.risesF b d = decide (y.held ≠ 3 ∧ d.cls = .f) := by simp [LogSave.risesF, hesc]
    have hUy : y.risesU b d = decide (y.held = 1 ∧ escSource b d.src = true ∧ d.cls = .u) := by simp [LogSave.risesU, hesc]
    rw [hx, hy, if_neg hy0, hFy, hUy]
    by_cases hf : d.cls = .f
    · refine Or.inr (Or.inr ⟨?_, ?_⟩)
      · by_cases h3 : y.held = 3 <;> simp [h3, hf]
      · by_cases h0 : x.held = 0
        · simp [h0, hf, classCode]
        · by_cases h3 : x.held = 3 <;> simp [h0, h3, hf, LogSave.risesF, LogSave.risesU]
    · simp only [hf, and_false, decide_false, Bool.false_eq_true, if_false]
      obtain h1 | ⟨h2, hx2⟩ | ⟨h3, hx3⟩ := hrank
      · by_cases hu : escSource b d.src = true ∧ d.cls = .u
        · refine Or.inr (Or.inl ⟨by simp [h1, hu], ?_⟩)
          by_cases h0 : x.held = 0
          · simp [h0, hu.2, classCode]
          · rw [if_neg h0]
            split_ifs with hF hU
            · decide
            · decide
            · have hx1 : x.held ≠ 1 := fun hx1 => hU (by simp [LogSave.risesU, hx1, hu])
              omega
        · exact Or.inl (by simp [h1, hu])
      · refine Or.inr (Or.inl ⟨by simp [h2], ?_⟩)
        rw [if_neg (by omega)]
        split_ifs <;> omega
      · exact Or.inr (Or.inr ⟨by simp [h3], by simp [hx3, LogSave.risesF, LogSave.risesU]⟩)

theorem LogBehind.refl (b : Blk) (x : LogSave) : LogBehind b x x := Or.inl ⟨rfl, rfl⟩

theorem logBehind_foldl {b : Blk} {x y : LogSave} (h : LogBehind b x y) (ft beat cack : Nat) (ds : List Detection) :
    LogBehind b (ds.foldl (LogSave.add b ft beat cack) x) (ds.foldl (LogSave.add b ft beat cack) y) := by
  induction ds generalizing x y with
  | nil => exact h
  | cons e r ih => exact ih (logBehind_add h ft beat cack e)

section
variable {b : Blk} {d : Detection} (hc : d.cls = .c) (hesc : escSource b d.src = false) (hsrc : d.src < 256)
include hc hesc hsrc

/-- A class C fault that takes no part in escalation, in the place of one without a class. -/
theorem logBehind_add_minor {x : LogSave} {e : Detection} (he : e.cls = .none) (ft beat cack : Nat) :
    LogBehind b (x.add b ft beat cack e) (x.add b ft beat cack d) := by
  obtain ⟨hx, hxs⟩ := x.add_class b ft beat cack e
  obtain ⟨hy, hys⟩ := x.add_class b ft beat cack d
  by_cases h0 : x.held = 0
  · refine Or.inr ⟨by rw [hys, if_pos h0, Nat.mod_eq_of_lt hsrc, hesc], Or.inl ?_⟩
    rw [hy, if_pos h0, hc]
    rfl
  · have hnoE : x.risesF b e = false ∧ x.risesU b e = false := by simp [LogSave.risesF, LogSave.risesU, he]
    have hnoD : x.risesF b d = false ∧ x.risesU b d = false := by simp [LogSave.risesF, LogSave.risesU, hc, hesc]
    refine Or.inl ⟨?_, by rw [hxs, hys, if_neg h0, if_neg h0]⟩
    rw [hx, hy, hnoE.1, hnoE.2, hnoD.1, hnoD.2, if_neg h0, if_neg h0]

theorem logBehind_minor (x : LogSave) (ft beat cack : Nat) : LogBehind b x (x.add b ft beat cack d) := by
  obtain ⟨hy, hys⟩ := x.add_class b ft beat cack d
  by_cases h0 : x.held = 0
  · refine Or.inr ⟨by rw [hys, if_pos h0, Nat.mod_eq_of_lt hsrc, hesc], Or.inl ?_⟩
    rw [hy, if_pos h0, hc]
    rfl
  · have hno : x.risesF b d = false ∧ x.risesU b d = false := by simp [LogSave.risesF, LogSave.risesU, hc, hesc]
    refine Or.inl ⟨?_, by rw [hys, if_neg h0]⟩
    rw [hy, hno.1, hno.2, if_neg h0]
    rfl

/-- Among the detections of a beat it leaves the log behind the one without it. -/
theorem logBehind_addDetection (x : LogSave) (ft beat cack : Nat) (ds : List Detection) :
    LogBehind b (ds.foldl (LogSave.add b ft beat cack) x) ((addDetection d ds).foldl (LogSave.add b ft beat cack) x) := by
  induction ds generalizing x with
  | nil => exact logBehind_minor hc hesc hsrc x ft beat cack
  | cons e r ih =>
    unfold addDetection
    split_ifs with hlt hsame hcls
    · exact logBehind_foldl (logBehind_minor hc hesc hsrc x ft beat cack) ft beat cack (e :: r)
    · have he : e.cls = .none := by
        rw [hc] at hcls
        cases hcase : e.cls <;> simp [hcase, classCode] at hcls ⊢
      exact logBehind_foldl (logBehind_add_minor hc hesc hsrc he ft beat cack) ft beat cack r
    · exact LogBehind.refl ..
    · exact ih (x.add b ft beat cack e)

/-- It is logged and does no more. -/
theorem detectFault_minor {u n : Nat} {s : State} (hb : unitBlk u = some (b, n)) (hq : (b, d.src) ∈ quietSources) :
    detectFault u d s = logDetection u b d s := by
  have hbehind : LogBehind b (settleLog s u b (logBase s u) (detectedNow s u)) (settleLog s u b (logBase s u) (addDetection d (detectedNow s u))) :=
    logBehind_addDetection hc hesc hsrc ..
  have hafter := logDetection_held u b d s
  have hnoF : ¬ ((settleLog s u b (logBase s u) (detectedNow s u)).held ≠ 3 ∧ (logNow (logDetection u b d s) u).held = 3) := by
    rw [hafter]
    rcases hbehind with ⟨hheld, -⟩ | ⟨-, h⟩ <;> omega
  have hlog : logOrDead u b d s = logDetection u b d s := by simp only [logOrDead, hnoF, if_false]
  have hnoU : ¬ (d.cls = .c ∧ (settleLog s u b (logBase s u) (detectedNow s u)).held = 1 ∧ (logNow (logDetection u b d s) u).held = 2) := by
    rw [hafter]
    rcases hbehind with ⟨hheld, -⟩ | ⟨-, h⟩ <;> omega
  simp only [detectFault, hb, hlog, hnoU, if_false, react_quiet hq]

end

/-! ### Collectors (R396, R397) -/

section
variable (h : HubId) (u : Nat) (s : State)

/-- The record of a detection leaves every register beside the unit's log, and the hubs. -/
theorem logDetection_beside (b : Blk) (d : Detection) : (logDetection u b d s).hubs = s.hubs ∧ (logDetection u b d s).dead = s.dead ∧
    ∀ (u' : Nat) (f : RField), 0x02C < f.key % 4096 → (logDetection u b d s).get u' f = s.get u' f := by
  refine ⟨by simp [logDetection, setLog], by simp, fun u' f hf => ?_⟩
  rw [State.get, logDetection, State.modRp_reg, setLog_reg_beside _ _ _ (Or.inr hf), ← State.get]

theorem view_modView (f : UnitView → UnitView) : view (modView h u f s) h u = f (view s h u) := by
  simp [view, modView, State.modHub_hub_same]

theorem get_modView (f : UnitView → UnitView) (u' : Nat) (g : RField) : (modView h u f s).get u' g = s.get u' g := by
  rw [modView, get_modHub]
  exact fun _ => rfl

/-- A pair breaks whose unit another hub still sees: it is counted and reported, and nothing else is lost (R396). -/
theorem markBroken_seen (hok : (view s h u).pairOk = true) (hpeer : s.hubFenced h.other = false) (hseen : (view s h.other u).pairOk = true) :
    (view (markBroken h u s) h u).pairOk = false ∧ (markBroken h u s).dead = s.dead ∧
      (markBroken h u s).get (hu h .FCL) Fld.FCL_STAT_BROKEN = min (s.get (hu h .FCL) Fld.FCL_STAT_BROKEN + 1) 0x7FF := by
  set s₁ := (modView h u (fun v => { v with pairOk := false }) s).incSat (hu h .FCL) Fld.FCL_STAT_BROKEN with hs₁
  have hlog : detect (hu h .FCL) 1 .c u 0 s₁ = logDetection (hu h .FCL) .FCL { src := 1, cls := .c, loc := u, detail := 0 } s₁ :=
    detectFault_minor rfl (show escSource .FCL 1 = false by decide) (show 1 < 256 by decide) (unitBlk_FCL h)
      (show (Blk.FCL, 1) ∈ quietSources by decide)
  obtain ⟨hhubs, hdead, hget⟩ := logDetection_beside (hu h .FCL) s₁ .FCL { src := 1, cls := .c, loc := u, detail := 0 }
  set s₂ := logDetection (hu h .FCL) .FCL { src := 1, cls := .c, loc := u, detail := 0 } s₁ with hs₂
  have hne : h ≠ h.other := by cases h <;> decide
  have hopen : s₂.hubFenced h.other = false := by
    rw [State.hubFenced, State.fenced, State.on, hget _ _ (by decide), hs₁, State.incSat, State.get_put_beside (by decide), get_modView, ← State.on,
      ← State.fenced, ← State.hubFenced, hpeer]
  have hview : ∀ k, view s₂ k u = view (modView h u (fun v => { v with pairOk := false }) s) k u := fun k => by rw [view, State.hub, hhubs]; rfl
  have hother : view (modView h u (fun v => { v with pairOk := false }) s) h.other u = view s h.other u := by
    rw [view, modView, State.modHub_hub_ne _ _ hne, ← view]
  have hrun : markBroken h u s = s₂ := by
    simp [markBroken, hok, ← hs₁, hlog, hopen, hview, hother, hseen]
  have hfull : 2 ^ Fld.FCL_STAT_BROKEN.width - 1 = 0x7FF := rfl
  rw [hrun]
  refine ⟨by rw [hview, view_modView], hdead, ?_⟩
  rw [hget _ _ (by decide), hs₁, incSat_get _ _ _ rfl, get_modView, hfull]

/-- What a good frame on time leaves of the collector. -/
def frameNoted (h : HubId) (u : Nat) (f : BitVec 16) (s : State) : State :=
  let cls := bits f.toNat 3 2
  let s := modView h u (fun v => { v with cls := cls, rseq := bits f.toNat 7 4, lastBeat := (s.hub h).beat }) s
  let s := setPend h u (decide (2 ≤ cls)) s
  if cls = 1 then s.incSat (hu h .FCL) Fld.FCL_CNT_C_TOTAL else if cls = 2 then s.incSat (hu h .FCL) Fld.FCL_CNT_U_TOTAL else s

theorem frameNoted_notes (f : BitVec 16) : (view (frameNoted h u f s) h u).cls = bits f.toNat 3 2 ∧
    (view (frameNoted h u f s) h u).rseq = bits f.toNat 7 4 ∧ (view (frameNoted h u f s) h u).lastBeat = (s.hub h).beat ∧
    (frameNoted h u f s).dead = s.dead ∧ (frameNoted h u f s).planes = s.planes ∧ (frameNoted h u f s).rep = s.rep := by
  have hview := view_modView h u s (fun v => { v with cls := bits f.toNat 3 2, rseq := bits f.toNat 7 4, lastBeat := (s.hub h).beat })
  obtain ⟨hhubs, hdead, hplanes, hrep⟩ : (frameNoted h u f s).hubs =
      (modView h u (fun v => { v with cls := bits f.toNat 3 2, rseq := bits f.toNat 7 4, lastBeat := (s.hub h).beat }) s).hubs ∧
      (frameNoted h u f s).dead = s.dead ∧ (frameNoted h u f s).planes = s.planes ∧ (frameNoted h u f s).rep = s.rep := by
    unfold frameNoted
    extract_lets cls t v
    split_ifs <;> exact ⟨rfl, rfl, rfl, rfl⟩
  have hsame : view (frameNoted h u f s) h u = view (modView h u (fun v => { v with cls := bits f.toNat 3 2, rseq := bits f.toNat 7 4
                                                                                    lastBeat := (s.hub h).beat }) s) h u := by
    rw [view, State.hub, hhubs]
    rfl
  rw [hsame, hview]
  exact ⟨rfl, rfl, rfl, hdead, hplanes, hrep⟩

variable {h u s} (hunit : (unitBlk u).isSome = true) (hpow : s.powered (hu h .FCL) = true) (hopen : s.hubFenced h = false)
  (hok : (view s h u).pairOk = true)
include hunit hpow hopen hok

/-- A good frame on time. -/
theorem reportFrameReceive_good {f : BitVec 16} (hframe : frameOk u f = true) (htime : (s.hub h).beat ≤ (view s h u).lastBeat + 192) :
    exec (.reportFrameReceive h u f true) s = .next (if bits f.toNat 3 2 = 3 then
      enterDeadbolt u ((frameNoted h u f s).rp u).fatalSrc ((frameNoted h u f s).rp u).fatalPath (frameNoted h u f s) else frameNoted h u f s) := by
  have hnone : ((unitBlk u).isNone = true) = False := by rw [Option.isNone_iff_eq_none, eq_iff_iff, iff_false]; exact Option.isSome_iff_ne_none.1 hunit
  have hlate : ¬ (view s h u).lastBeat + 192 < (s.hub h).beat := by omega
  simp only [exec, execReportFrameReceive, hnone, hpow, hopen, hok, hframe, hlate]
  simp only [not_true_eq_false, Bool.false_eq_true, or_self, if_false, Bool.not_true, Bool.or_self, decide_false]
  by_cases h3 : bits f.toNat 3 2 = 3
  · rw [if_pos h3, if_pos h3]
    rfl
  · rw [if_neg h3, if_neg h3]
    rfl

theorem reportFrameReceive_bad (f : BitVec 16) : exec (.reportFrameReceive h u f false) s = .next (markBroken h u s) := by
  have hnone : ((unitBlk u).isNone = true) = False := by rw [Option.isNone_iff_eq_none, eq_iff_iff, iff_false]; exact Option.isSome_iff_ne_none.1 hunit
  simp [exec, execReportFrameReceive, hnone, hpow, hopen, hok]

end

/-! ### The deadbolt state (R408 to R410) -/

theorem mem_fencePlane (p q : PlaneId) (c : Nat) (s : State) : ((fencePlane p c s).pl q).mem = (s.pl q).mem :=
  congrFun (congrArg (fun b => b.2.2) (bedrock_fencePlane p s c)) q

/-- The entry empties the memory of every plane. -/
theorem enterDeadbolt_enters {s : State} (hlive : s.dead = none) (unit source path : Nat) :
    (∃ d, (enterDeadbolt unit source path s).dead = some d ∧ d.record.unit = unit ∧ d.record.source = source) ∧
      ∀ p, ((enterDeadbolt unit source path s).pl p).mem = [] := by
  have hstep : ∀ (p q : PlaneId) (t : State), ((loseMemory p (fencePlane p 6 t)).pl q).mem = if p = q then [] else (t.pl q).mem := fun p q t => by
    by_cases hq : p = q
    · subst hq
      rw [if_pos rfl, loseMemory, State.modPl_pl_same]
    · rw [if_neg hq, loseMemory, State.modPl_pl_ne _ _ hq, mem_fencePlane]
  have hdead : ∀ (l : List PlaneId) (t : State), (l.foldl (fun s p => loseMemory p (fencePlane p 6 s)) t).dead = t.dead := fun l t =>
    foldl_keeps State.dead (fun t p => congrArg (fun b => b.2.1) (bedrock_fencePlane p t 6)) l t
  unfold enterDeadbolt
  rw [hlive]
  extract_lets ft word mark s₁ s₂ s₃
  refine ⟨⟨_, hdead _ _, rfl, rfl⟩, fun p => ?_⟩
  simp only [List.foldl_cons, List.foldl_nil, hstep]
  fin_cases p <;> rfl

/-- A log that holds a class C fault past its period clears by itself (R400). -/
theorem cSelfAck_clears {u : Nat} {s : State} (hu : (unitBlk u).isSome = true) (hC : s.get u Fld.BLK_ERR_CLASS = 1) (hseen : detectedNow s u = [])
    (hdue : (s.rp u).capAt + (s.rp u).capFor ≤ unitBeat s u) :
    Completes (.cSelfAck u) s (fun t => t.get u Fld.BLK_ERR_CLASS = 0 ∧ t.get u Fld.BLK_ERR_CLASS_OVF = 0 ∧
      t.get u Fld.BLK_ERR_CLASS_SOURCE = 0 ∧ t.get u Fld.BLK_ERR_CLASS_C_COUNT = s.get u Fld.BLK_ERR_CLASS_C_COUNT ∧ t.planes = s.planes) := by
  obtain ⟨⟨b, n⟩, hb⟩ := Option.isSome_iff_exists.1 hu
  have hend : (logNow s u).due (unitBeat s u) = true := by
    have hheld : (logNow s u).held = 1 := hC
    have hafter : (logNow s u).capAt + (logNow s u).capFor ≤ unitBeat s u := hdue
    simp [LogSave.due, hheld, hafter]
  have hlog : logNow (ackFault u s) u = (logBase s u).free := by rw [ackFault_logNow hb, hseen]; rfl
  obtain ⟨h1, h2, h3, h4⟩ := (logBase s u).free_fields
  have hget : ∀ f : RField, f.key = Fld.BLK_ERR_CLASS.key → (ackFault u s).get u f = fieldGet (logBase s u).free.cls f :=
    fun f hf => by rw [State.get_of_logNow _ _ hf, hlog]
  refine ⟨_, if_pos hend, (hget _ rfl).trans h1, (hget Fld.BLK_ERR_CLASS_OVF rfl).trans h2, (hget Fld.BLK_ERR_CLASS_SOURCE rfl).trans h3,
    (hget Fld.BLK_ERR_CLASS_C_COUNT rfl).trans (h4.trans (logBase_count hseen)), ?_⟩
  simp [ackFault, hb, setLog]

/-- Settles O52. -/
theorem reports : Obligations.Reports := by
  unfold Obligations.Reports
  refine ⟨fun u s => reportFrameSend_sends, fun u s hearly => ⟨s, if_neg fun hdue => absurd hdue.2.2 (by omega), rfl⟩, frameOk_reportFrame, ?_, ?_,
    fun h u s hearly => ⟨s, if_neg fun hlate => absurd hlate.2.2.2.2 (by omega), rfl⟩, fun u s => cSelfAck_clears, fun u s hC => ?_, ?_, ?_⟩
  · intro h u f s hu hpow hopen hframe hok htime
    have hrun := reportFrameReceive_good hu hpow hopen hok hframe htime
    obtain ⟨hcls, hrseq, hbeat, hdead, hplanes, hrep⟩ := frameNoted_notes h u s f
    refine ⟨fun h3 => ⟨_, hrun.trans (by rw [if_neg h3]), hcls, hrseq, hbeat, hdead, hplanes⟩,
      fun h3 hlive => ⟨_, hrun.trans (by rw [if_pos h3]), ?_⟩⟩
    have hfatal : (s.rp u).fatalSrc = ((frameNoted h u f s).rp u).fatalSrc := by rw [State.rp, State.rp, hrep]
    rw [hfatal]
    exact enterDeadbolt_enters (hdead.trans hlive) ..
  · intro h u f s hu hpow hopen hpeer hok hseen
    obtain ⟨hbroken, hdead, hcount⟩ := markBroken_seen h u s hok hpeer hseen
    exact ⟨⟨_, reportFrameReceive_bad hu hpow hopen hok f, hbroken, hdead, hcount⟩,
      fun hunit hlate => ⟨_, if_pos ⟨hu, hunit, hpow, by simp [hopen], hlate⟩, hbroken, hdead⟩⟩
  · have hheld : (logNow s u).held ≠ 1 := hC
    exact ⟨s, if_neg (by simp [LogSave.due, hheld]), rfl⟩
  · intro h d s hd hpow hopen
    refine ⟨s.modHub h (fun x => { x with kpl := { x.kpl with flash := { x.kpl.flash with dead := some d.record } } }), ?_, ?_, rfl⟩
    · simp [exec, execDeadboltRecord, hd, hpow, hopen]
    · rw [State.modHub_hub_same]
  · exact fun h s hlive => ⟨s, by simp [exec, execDeadboltRecord, hlive], rfl⟩

end Sys2Proof.Machine
end

section
/-! SUPPORT. O57, O58 and O60: states in which a write-only bit that no write can have stored reaches the block beside a command. -/

namespace Sys2Proof.Machine

/-- A module in which every domain is on. -/
def allOn : State := State.reset.setReg (hu .a .PWR) Fld.PWR_DOM_STAT_ON.key 0xFFFFFFFF

/-! ### PWR_CMD -/

/-- PWR_CMD holds the bit of MODULE_RESET. -/
def staleModuleReset : State := allOn.setReg (hu .a .PWR) Fld.PWR_CMD_PLANE_RESET.key Fld.PWR_CMD_MODULE_RESET.mask

/-- Hub A's cores may reset plane 0. -/
theorem staleModuleReset_accepted :
    accepted staleModuleReset (.hubCore .a) (hu .a .PWR) Fld.PWR_CMD_PLANE_RESET.key (0 ||| Fld.PWR_CMD_PLANE_RESET.mask) = true := by decide +kernel

/-- The write asks for a module reset instead: no plane is due. -/
theorem staleModuleReset_planesDue :
    (regWrite (.hubCore .a) (hu .a .PWR) Fld.PWR_CMD_PLANE_RESET.key (0 ||| Fld.PWR_CMD_PLANE_RESET.mask) staleModuleReset).pwr.planesDue = [] := by decide +kernel

/-- Refutes O57: the statement speaks of every state, and in one whose PWR_CMD holds the bit of the write-only MODULE_RESET, an accepted
PLANE_RESET shows the block both commands (`shownWord`). MODULE_RESET goes first, and the plane is not reset. PWR_CMD resets to 0 and no write
stores a command's bit: what the statement misses is the premise that no such bit stands there. -/
theorem not_powerCommands : ¬ Obligations.PowerCommands := by
  unfold Obligations.PowerCommands
  rintro ⟨-, -, -, -, hplane, -⟩
  obtain ⟨t, ht, -, halive⟩ := hplane (.hubCore .a) .a 0 0 staleModuleReset staleModuleReset_accepted (by decide)
  obtain ⟨-, hdue, -⟩ := halive rfl
  have hrun : exec (.planeReset (.hubCore .a) .a 0) staleModuleReset =
      .next (regWrite (.hubCore .a) (hu .a .PWR) Fld.PWR_CMD_PLANE_RESET.key (0 ||| Fld.PWR_CMD_PLANE_RESET.mask) staleModuleReset) := rfl
  rw [← Host.Outcome.next.inj (hrun.symm.trans ht), staleModuleReset_planesDue] at hdue
  exact absurd hdue (by decide)

/-! ### KPL_CMD -/

/-- KPL_CMD holds the number of LOAD_CC. -/
def staleLoad : State := allOn.setReg (hu .a .KPL) Fld.KPL_CMD.key 2

/-- Hub A's cores may draw a nonce. -/
theorem staleLoad_accepted :
    accepted staleLoad (.hubCore .a) (hu .a .KPL) Fld.KPL_CMD.key ((0 &&& ~~~Fld.KPL_CMD.mask) ||| BitVec.ofNat 32 5) = true := by decide +kernel

/-- The Keyplate runs SET_PREF instead, whose number is the two ORed. -/
theorem staleLoad_cmd :
    ((regWrite (.hubCore .a) (hu .a .KPL) Fld.KPL_CMD.key ((0 &&& ~~~Fld.KPL_CMD.mask) ||| BitVec.ofNat 32 5) staleLoad).hub .a).kpl.cmd =
      some (7, (staleLoad.hub .a).beat) := by decide +kernel

/-- Refutes O58: the statement speaks of every state, and in one whose write-only KPL_CMD holds LOAD_CC's number 2, an accepted DBG_NONCE, number
5, shows the block 7 (`shownWord`): the Keyplate begins SET_PREF. KPL_CMD resets to 0 and no write stores a command: what the statement misses
is the premise that none stands there. -/
theorem not_keyplateCommands : ¬ Obligations.KeyplateCommands := by
  unfold Obligations.KeyplateCommands
  rintro ⟨hcmd, -⟩
  obtain ⟨t, ht, -, hnonce, -⟩ := hcmd (.hubCore .a) .a 0 staleLoad (.dbgNonce (.hubCore .a) .a 0) 5 (by simp) staleLoad_accepted
  have hrun : exec (.dbgNonce (.hubCore .a) .a 0) staleLoad =
      .next (regWrite (.hubCore .a) (hu .a .KPL) Fld.KPL_CMD.key ((0 &&& ~~~Fld.KPL_CMD.mask) ||| BitVec.ofNat 32 5) staleLoad) := rfl
  rw [← Host.Outcome.next.inj (hrun.symm.trans ht), staleLoad_cmd] at hnonce
  exact absurd hnonce (by simp)

/-! ### PMU_CTL -/

/-- A counter of plane 0 has counted, and PMU_CTL holds the bit of SNAP. -/
def staleSnap : State := (allOn.setReg (pu 0 .PMU) (Fld.PMU_C_CNT_LO.at 0).key 5).setReg (pu 0 .PMU) Fld.PMU_CTL_CLR_ALL.key Fld.PMU_CTL_SNAP.mask

/-- The plane's cores may clear the counters. -/
theorem staleSnap_accepted :
    accepted staleSnap (.planeCore 0) (pu 0 .PMU) Fld.PMU_CTL_CLR_ALL.key (0 ||| Fld.PMU_CTL_CLR_ALL.mask) = true := by decide +kernel

/-- The write takes a snapshot instead: the counter stands. -/
theorem staleSnap_count :
    cntOf (regWrite (.planeCore 0) (pu 0 .PMU) Fld.PMU_CTL_CLR_ALL.key (0 ||| Fld.PMU_CTL_CLR_ALL.mask) staleSnap) 0 0 = 5 := by decide +kernel

/-- Refutes O60: the statement speaks of every state, and in one whose PMU_CTL holds the bit of the write-only SNAP, an accepted CLR_ALL shows
the block both commands (`shownWord`). SNAP goes first, and nothing is cleared. PMU_CTL resets to 0 and no write stores a command's bit: what
the statement misses is the premise that no such bit stands there. -/
theorem not_managementAndCounters : ¬ Obligations.ManagementAndCounters := by
  unfold Obligations.ManagementAndCounters
  rintro ⟨-, -, -, -, -, -, hclear, -⟩
  obtain ⟨t, ht, hzero, -⟩ := hclear (.planeCore 0) 0 0 staleSnap staleSnap_accepted
  have hrun : exec (.clrAll (.planeCore 0) 0 0) staleSnap =
      .next (regWrite (.planeCore 0) (pu 0 .PMU) Fld.PMU_CTL_CLR_ALL.key (0 ||| Fld.PMU_CTL_CLR_ALL.mask) staleSnap) := rfl
  have hcount : cntOf t 0 0 = 0 := hzero 0
  rw [← Host.Outcome.next.inj (hrun.symm.trans ht), staleSnap_count] at hcount
  exact absurd hcount (by decide)

end Sys2Proof.Machine
end

section
/-! SUPPORT. O59: what the Keyplate answers to an SPDM request. -/

namespace Sys2Proof.Machine

/-! ### The negotiation and the answers -/

@[simp] theorem modSpdm_spdm (h : HubId) (f : Spdm → Spdm) (s : State) : ((modSpdm h f s).hub h).kpl.spdm = f (s.hub h).kpl.spdm := by
  simp [modSpdm, modKpl]

@[simp] theorem modSpdm_regs (h : HubId) (f : Spdm → Spdm) (s : State) : (modSpdm h f s).regs = s.regs := rfl

@[simp] theorem modSpdm_out (h : HubId) (f : Spdm → Spdm) (s : State) : (modSpdm h f s).out = s.out := rfl

/-- An answer is put out once. -/
theorem answered_spdmAnswer (h : HubId) (req resp : List Byte) {s t : State} (ht : t.out = s.out) : answered h resp s (spdmAnswer h req resp t) := by
  simp [answered, spdmAnswer, doe, ht]

@[simp] theorem spdmAnswer_regs (h : HubId) (req resp : List Byte) (s : State) : (spdmAnswer h req resp s).regs = s.regs := rfl

/-- An answer adds to the transcript, and leaves what has been negotiated. -/
@[simp] theorem spdmAnswer_spdm (h : HubId) (req resp : List Byte) (s : State) : ((spdmAnswer h req resp s).hub h).kpl.spdm =
    { (s.hub h).kpl.spdm with transcript := (s.hub h).kpl.spdm.transcript ++ req ++ resp } := by
  simp [spdmAnswer, doe]

/-- An error is put out, and leaves the negotiation. -/
theorem answered_spdmError (h : HubId) (code data : Nat) (s : State) :
    answered h (([0x12, 0x7F] : List Byte) ++ bytesOf 1 code ++ bytesOf 1 data) s (spdmError h code data s) ∧ (spdmError h code data s).hubs = s.hubs :=
  ⟨rfl, rfl⟩

section
variable {h : HubId} {req : List Byte} {s : State} (hon : s.powered (hu h .KPL) = true)
include hon

/-! ### Requests before the negotiation is complete -/

theorem exec_getVersion : Completes (.getVersion h req) s (fun t => answered h [0x10, 0x04, 0, 0, 0, 1, 0, 0x12] s t ∧
    (t.hub h).kpl.spdm.version = true ∧ (t.hub h).kpl.spdm.algs = false ∧ t.regs = s.regs) := by
  have hrun : exec (.getVersion h req) s =
      .next (spdmAnswer h req [0x10, 0x04, 0, 0, 0, 1, 0, 0x12] (modSpdm h (fun _ => { version := true }) s)) := if_neg (by simp [spdmServes, hon])
  exact ⟨_, hrun, answered_spdmAnswer h req _ rfl, by simp, by simp, rfl⟩

theorem exec_getCapabilities_early (hver : (s.hub h).kpl.spdm.version = false) :
    exec (.getCapabilities h req) s = .next (spdmError h 4 0 s) := by
  show execGetCapabilities h req s = _
  simp [execGetCapabilities, spdmServes, hon, hver]

theorem exec_getCapabilities (hver : (s.hub h).kpl.spdm.version = true) : Completes (.getCapabilities h req) s (fun t =>
    (t.hub h).kpl.spdm.caps = true ∧ t.regs = s.regs ∧ ∃ r : List Byte, answered h r s t) := by
  have hrun : ∃ r, exec (.getCapabilities h req) s =
      .next (spdmAnswer h req r (modSpdm h (fun x => { x with caps := true }) s.takeFree.2.takeFree.2)) :=
    ⟨_, by
      show execGetCapabilities h req s = _
      simp [execGetCapabilities, spdmServes, hon, hver]
      rfl⟩
  obtain ⟨r, hrun⟩ := hrun
  exact ⟨_, hrun, by simp, rfl, r, answered_spdmAnswer h req r rfl⟩

theorem exec_negotiateAlgorithms (hcaps : (s.hub h).kpl.spdm.caps = true) : Completes (.negotiateAlgorithms h req) s (fun t =>
    (t.hub h).kpl.spdm.algs = true ∧ t.regs = s.regs) := by
  have hrun : ∃ r, exec (.negotiateAlgorithms h req) s = .next (spdmAnswer h req r (modSpdm h (fun x => { x with algs := true }) s)) :=
    ⟨_, by
      show execNegotiateAlgorithms h req s = _
      simp [execNegotiateAlgorithms, spdmServes, hon, hcaps]
      rfl⟩
  obtain ⟨r, hrun⟩ := hrun
  exact ⟨_, hrun, by simp, rfl⟩

theorem exec_negotiateAlgorithms_early (hcaps : (s.hub h).kpl.spdm.caps = false) :
    exec (.negotiateAlgorithms h req) s = .next (spdmError h 4 0 s) := by
  show execNegotiateAlgorithms h req s = _
  simp [execNegotiateAlgorithms, spdmServes, hon, hcaps]

/-- A request that needs a complete negotiation is out of order before it. -/
theorem exec_unready (halgs : (s.hub h).kpl.spdm.algs = false) :
    ∀ c ∈ [Instr.getDigests h req, .getCertificate h req, .challenge h req, .getMeasurements h req], exec c s = .next (spdmError h 4 0 s) := by
  have hserves : ¬ ¬ spdmServes s h = true := by simp [spdmServes, hon]
  have hready : ¬ spdmReady s h = true := by simp [spdmReady, halgs]
  simp only [List.mem_cons, List.not_mem_nil, or_false]
  rintro c (rfl | rfl | rfl | rfl) <;> exact (if_neg hserves).trans (if_pos hready)

/-! ### Requests of a complete negotiation -/

section
variable (halgs : (s.hub h).kpl.spdm.algs = true)
include halgs

theorem exec_getDigests : exec (.getDigests h req) s = .next (spdmAnswer h req (([0x12, 1, 0, 1] : List Byte) ++ sha512 (chainOf h)) s) := by
  show execGetDigests h req s = _
  simp [execGetDigests, spdmServes, spdmReady, hon, halgs]
  rfl

theorem exec_getCertificate_slot (hslot : le req 2 1 % 16 ≠ 0) : exec (.getCertificate h req) s = .next (spdmError h 1 0 s) := by
  show execGetCertificate h req s = _
  simp [execGetCertificate, spdmServes, spdmReady, hon, halgs, hslot]

theorem exec_getCertificate (hslot : le req 2 1 % 16 = 0) : Completes (.getCertificate h req) s (fun t => ∃ pre : List Byte, pre.length = 8 ∧
    answered h (pre ++ ((chainOf h).drop (le req 4 2)).take (le req 6 2)) s t) := by
  have hrun : ∃ pre : List Byte, pre.length = 8 ∧
      exec (.getCertificate h req) s = .next (spdmAnswer h req (pre ++ ((chainOf h).drop (le req 4 2)).take (le req 6 2)) s) :=
    ⟨_, rfl, by
      show execGetCertificate h req s = _
      simp only [execGetCertificate, spdmServes, spdmReady, hon, halgs, hslot, not_true_eq_false, if_false, ne_eq]
      rfl⟩
  obtain ⟨pre, hpre, hrun⟩ := hrun
  exact ⟨_, hrun, pre, hpre, answered_spdmAnswer h req _ rfl⟩

theorem exec_challenge_slot (hslot : le req 2 1 ≠ 0) : exec (.challenge h req) s = .next (spdmError h 1 0 s) := by
  show execChallenge h req s = _
  simp [execChallenge, spdmServes, spdmReady, hon, halgs, hslot]

theorem exec_challenge (hslot : le req 2 1 = 0) : Completes (.challenge h req) s (fun t => t.regs = s.regs ∧ ∃ r : List Byte,
    answered h (r ++ Config.ecdsaSign h.num (sha512 ((s.hub h).kpl.spdm.transcript ++ req ++ r))) s t) := by
  have hrun : ∃ r, exec (.challenge h req) s = .next (spdmAnswer h req (withSig s h req r) (respNonce s).2) :=
    ⟨_, by
      show execChallenge h req s = _
      simp only [execChallenge, spdmServes, spdmReady, hon, halgs, hslot, not_true_eq_false, if_false, ne_eq]
      rfl⟩
  obtain ⟨r, hrun⟩ := hrun
  exact ⟨_, hrun, rfl, r, answered_spdmAnswer h req (withSig s h req r) rfl⟩

theorem exec_getMeasurements_index (hi : 11 < le req 3 1) (hall : le req 3 1 ≠ 0xFF) :
    exec (.getMeasurements h req) s = .next (spdmError h 1 0 s) := by
  show execGetMeasurements h req s = _
  simp [execGetMeasurements, spdmServes, spdmReady, hon, halgs, hi, hall]

theorem exec_getMeasurements (hlow : 1 ≤ le req 3 1) (hhigh : le req 3 1 ≤ 11) (hsig : le req 2 1 % 2 = 0) :
    Completes (.getMeasurements h req) s (fun t => t.regs = s.regs ∧
      ∃ pre post : List Byte, pre.length = 8 ∧ post.length = 34 ∧ answered h (pre ++ measBlock s h (le req 3 1) ++ post) s t) := by
  have hone : (if le req 3 1 = 0 then [] else if le req 3 1 = 0xFF then (List.range 11).map (· + 1) else [le req 3 1]) = [le req 3 1] := by
    rw [if_neg (by omega), if_neg (by omega)]
  have hrun : ∃ pre : List Byte, pre.length = 8 ∧ exec (.getMeasurements h req) s =
      .next (spdmAnswer h req (pre ++ measBlock s h (le req 3 1) ++ ((respNonce s).1 ++ [0, 0])) (respNonce s).2) :=
    ⟨_, rfl, by
      show execGetMeasurements h req s = _
      simp only [execGetMeasurements, spdmServes, spdmReady, hon, halgs, not_true_eq_false, if_false, hone, List.flatMap_singleton, hsig]
      rw [if_neg (by omega), if_neg (by omega), List.append_assoc _ _ [0, 0]]⟩
  obtain ⟨pre, hpre, hrun⟩ := hrun
  exact ⟨_, hrun, rfl, pre, _, hpre, by simp [respNonce], answered_spdmAnswer h req _ rfl⟩

end

/-! ### Other requests -/

theorem exec_spdmUnsupported (hcode : spdmKnown (spdmCode req) = false) :
    exec (.spdmUnsupported h req) s = .next (spdmError h 7 (spdmCode req) s) := if_neg (by simp [spdmServes, hon, hcode])

end

/-- Without power nothing is answered. -/
theorem exec_spdm_unpowered {h : HubId} {s : State} (hoff : s.powered (hu h .KPL) = false) (req : List Byte) :
    ∀ c ∈ [Instr.getVersion h req, .getCapabilities h req, .negotiateAlgorithms h req, .getDigests h req, .getCertificate h req,
      .challenge h req, .getMeasurements h req, .spdmUnsupported h req], exec c s = .next s := by
  have hsilent : ¬ spdmServes s h = true := by simp [spdmServes, hoff]
  simp only [List.mem_cons, List.not_mem_nil, or_false]
  rintro c (rfl | rfl | rfl | rfl | rfl | rfl | rfl | rfl)
  case inr.inr.inr.inr.inr.inr.inr => exact if_pos (Or.inl hsilent)
  all_goals exact if_pos hsilent

/-- Settles O59: each request in its place of the negotiation. -/
theorem attestation : Obligations.Attestation := by
  unfold Obligations.Attestation
  refine ⟨fun h req s hon => ⟨exec_getVersion hon, fun hver => ⟨_, exec_getCapabilities_early hon hver, answered_spdmError h 4 0 s⟩,
    exec_getCapabilities hon, exec_negotiateAlgorithms hon,
    fun hcaps => ⟨_, exec_negotiateAlgorithms_early hon hcaps, (answered_spdmError h 4 0 s).1⟩,
    fun halgs c hc => ⟨_, exec_unready hon halgs c hc, answered_spdmError h 4 0 s⟩,
    fun halgs => ⟨⟨_, exec_getDigests hon halgs, answered_spdmAnswer h req _ rfl, rfl⟩,
      fun hslot => ⟨_, exec_getCertificate_slot hon halgs hslot, answered_spdmError h 1 0 s⟩, exec_getCertificate hon halgs,
      fun hslot => ⟨_, exec_challenge_slot hon halgs hslot, answered_spdmError h 1 0 s⟩, exec_challenge hon halgs,
      fun hi hall => ⟨_, exec_getMeasurements_index hon halgs hi hall, answered_spdmError h 1 0 s⟩, exec_getMeasurements hon halgs⟩,
    fun hcode => ⟨_, exec_spdmUnsupported hon hcode, (answered_spdmError h 7 _ s).symm⟩,
    fun hcode => ⟨s, if_pos (Or.inr hcode), rfl⟩⟩, fun h req s hoff c hc => ⟨s, exec_spdm_unpowered hoff req c hc, rfl⟩⟩

end Sys2Proof.Machine
end

section
/-! SUPPORT. What powers off with the module: memory, domains, and the power controller's own beat. -/

namespace Sys2Proof.Machine

/-! ### The reset of a plane -/

@[simp] theorem foldl_pl {α : Type} {f : State → α → State} {p : PlaneId} (h : ∀ t x, (f t x).pl p = t.pl p) (l : List α) (s : State) :
    (l.foldl f s).pl p = s.pl p := foldl_keeps (fun t : State => t.pl p) h l s

@[simp] theorem foldl_beat {α : Type} {f : State → α → State} (h : ∀ t x, (f t x).pwr.beat = t.pwr.beat) (l : List α) (s : State) :
    (l.foldl f s).pwr.beat = s.pwr.beat := foldl_keeps (fun t : State => t.pwr.beat) h l s

section
variable (s : State)

@[simp] theorem resetUnit_pl (fence : Bool) (u : Nat) (p : PlaneId) : (resetUnit fence s u).pl p = s.pl p := rfl
@[simp] theorem resetUnit_pwr (fence : Bool) (u : Nat) : (resetUnit fence s u).pwr = s.pwr := rfl
@[simp] theorem setDom_pl (f : RField) (d : Nat) (on : Bool) (p : PlaneId) : (setDom f d on s).pl p = s.pl p := rfl
@[simp] theorem setDom_pwr (f : RField) (d : Nat) (on : Bool) : (setDom f d on s).pwr = s.pwr := rfl
@[simp] theorem dropDomain_pl (d : Nat) (p : PlaneId) : (dropDomain d s).pl p = s.pl p := rfl
@[simp] theorem dropDomain_beat (d : Nat) : (dropDomain d s).pwr.beat = s.pwr.beat := rfl
@[simp] theorem linksDown_pl (p q : PlaneId) : (linksDown p s).pl q = s.pl q := rfl
@[simp] theorem linksDown_pwr (p : PlaneId) : (linksDown p s).pwr = s.pwr := rfl
@[simp] theorem setHolder_pwr (v : Nat) : (setHolder v s).pwr = s.pwr := by unfold setHolder; split <;> rfl
@[simp] theorem endLease_pwr (h : HubId) : (endLease h s).pwr = s.pwr := by unfold endLease; split <;> simp

@[simp] theorem endLease_pl (h : HubId) (p : PlaneId) : (endLease h s).pl p = s.pl p := by
  rw [State.pl, endLease_planes, State.pl]

theorem withMbx_pl (m : SMap Channel) (p : PlaneId) : ({ s with mbx := m } : State).pl p = s.pl p := rfl

/-- A reset plane keeps no more than its record of lost channels. -/
theorem resetPlane_pl (fence : Bool) (p : PlaneId) : ∃ lost, (resetPlane fence p s).pl p = { lostChans := lost } :=
  ⟨_, by rw [resetPlane, linksDown_pl, State.modPl_pl_same]⟩

@[simp] theorem resetPlane_mem (fence : Bool) (p : PlaneId) : ((resetPlane fence p s).pl p).mem = [] := by
  obtain ⟨lost, hpl⟩ := resetPlane_pl s fence p
  rw [hpl]

/-- The other planes stay. -/
theorem resetPlane_pl_ne (fence : Bool) {p q : PlaneId} (hq : p ≠ q) : (resetPlane fence p s).pl q = s.pl q := by
  rw [resetPlane, linksDown_pl, State.modPl_pl_ne _ _ hq, foldl_pl fun t k => dropDomain_pl t _ q, foldl_pl fun t u => resetUnit_pl t fence u q]

/-! ### The power controller's beat -/

@[simp] theorem resetPlane_beat (fence : Bool) (p : PlaneId) : (resetPlane fence p s).pwr.beat = s.pwr.beat := by
  rw [resetPlane, linksDown_pwr, State.modPl_pwr, foldl_beat fun t k => dropDomain_beat t _, foldl_beat fun t u => congrArg _ (resetUnit_pwr t fence u)]

@[simp] theorem resetHubState_pl (fence : Bool) (h : HubId) (p : PlaneId) : (resetHubState fence h s).pl p = s.pl p := by
  rw [resetHubState, State.modHub_pl, State.put_pl, withMbx_pl, dropDomain_pl, foldl_pl fun t u => resetUnit_pl t fence u p, endLease_pl]

@[simp] theorem resetHubState_beat (fence : Bool) (h : HubId) : (resetHubState fence h s).pwr.beat = s.pwr.beat := by
  rw [resetHubState, State.modHub_pwr, State.put_pwr, dropDomain_beat, foldl_beat fun t u => congrArg _ (resetUnit_pwr t fence u), endLease_pwr]

end

/-! ### The module off -/

/-- Every plane of a list is reset. -/
theorem resetPlanes_mem {l : List PlaneId} {p : PlaneId} (s : State) (h : p ∈ l ∨ (s.pl p).mem = []) :
    ((l.foldl (fun s p => resetPlane false p s) s).pl p).mem = [] := by
  induction l generalizing s with
  | nil => simpa using h
  | cons q r ih =>
    rw [List.foldl_cons]
    refine ih _ ?_
    by_cases hq : q = p
    · exact Or.inr (hq ▸ resetPlane_mem s false q)
    · rw [resetPlane_pl_ne s false hq]
      exact h.imp (fun hp => (List.mem_cons.mp hp).resolve_left (Ne.symm hq)) id

/-- The planes and the hubs of a module that goes off. -/
def blocksOff (s : State) : State :=
  resetHubState false .b (resetHubState false .a ((List.finRange 4).foldl (fun s p => resetPlane false p s) s))

theorem blocksOff_mem (s : State) (p : PlaneId) : ((blocksOff s).pl p).mem = [] := by
  rw [blocksOff, resetHubState_pl, resetHubState_pl]
  exact resetPlanes_mem s (Or.inl (List.mem_finRange p))

theorem blocksOff_beat (s : State) : (blocksOff s).pwr.beat = s.pwr.beat := by
  rw [blocksOff, resetHubState_beat, resetHubState_beat]
  exact foldl_keeps (fun t : State => t.pwr.beat) (fun t p => resetPlane_beat t false p) _ _

/-- The records of lost channels go with STBY's power. -/
def lostChansOff (s : State) : State := (List.finRange 4).foldl (fun s p => s.modPl p (fun x => { x with lostChans := [] })) s

theorem lostChansOff_mem (s : State) (p : PlaneId) : ((lostChansOff s).pl p).mem = (s.pl p).mem :=
  foldl_keeps (fun t : State => (t.pl p).mem) (fun t q => by
    by_cases hq : q = p
    · subst hq; simp
    · rw [State.modPl_pl_ne _ _ hq]) _ s

theorem lostChansOff_regs (s : State) : (lostChansOff s).regs = s.regs := foldl_keeps State.regs (fun t p => State.modPl_regs t p _) _ s

theorem lostChansOff_pwr (s : State) : (lostChansOff s).pwr = s.pwr := foldl_keeps State.pwr (fun t p => State.modPl_pwr t p _) _ s

/-- A Keyplate's hub that goes off. -/
def hubOff (x : Hub) : Hub := { x with alive := .stopped, aliveLevel := false, kpl := { x.kpl with mCc := [] } }

variable (stby : Bool) (s : State)

/-- The domains, the ALIVE outputs and the power controller of a module that goes off. -/
def controllerOff : State :=
  ((((((blocksOff s).put (hu .a .PWR) Fld.PWR_DOM_STAT_ON (if stby then 1 else 0)).put (hu .a .PWR) Fld.PWR_DOM_PEND 0).modHub .a hubOff).modHub .b hubOff).modPwr
    (fun x => { x with waking := [], running := false, configured := false, cfgDigest := [], step1 := false })).modPwr
      (fun x => { x with resetDue := false, planesDue := [], i3cAddr := if stby then x.i3cAddr else none })

theorem controllerOff_pl (p : PlaneId) : (controllerOff stby s).pl p = (blocksOff s).pl p := by
  simp only [controllerOff, State.modPwr_pl, State.modHub_pl, State.put_pl]

theorem controllerOff_regs : (controllerOff stby s).regs =
    (((blocksOff s).put (hu .a .PWR) Fld.PWR_DOM_STAT_ON (if stby then 1 else 0)).put (hu .a .PWR) Fld.PWR_DOM_PEND 0).regs := by
  simp only [controllerOff, State.modPwr_regs, State.modHub_regs]

theorem controllerOff_pwr : (controllerOff stby s).pwr.beat = (blocksOff s).pwr.beat ∧ (controllerOff stby s).pwr.running = false :=
  ⟨by simp only [controllerOff, State.modPwr_pwr, State.modHub_pwr, State.put_pwr], by simp only [controllerOff, State.modPwr_pwr]⟩

/-- What the module as a whole loses. -/
def moduleOff (s : State) : State := leaveDeadbolt { s with cfg := {}, lease := {}, mbx := [], ppsOut := none }

theorem moduleOff_pl (s : State) (p : PlaneId) : (moduleOff s).pl p = s.pl p := rfl
theorem moduleOff_regs (s : State) : (moduleOff s).regs = s.regs := rfl
theorem moduleOff_pwr (s : State) : (moduleOff s).pwr = s.pwr := rfl

theorem allOff_stby : allOff true s = moduleOff (controllerOff true s) := rfl

theorem allOff_none : allOff false s = moduleOff (lostChansOff (controllerOff false s)) := rfl

/-- A module that is off holds no memory, its controller goes on counting, and its domains are those of STBY. -/
theorem allOff_mem (p : PlaneId) : ((allOff stby s).pl p).mem = [] := by
  cases stby
  · rw [allOff_none, moduleOff_pl, lostChansOff_mem, controllerOff_pl, blocksOff_mem]
  · rw [allOff_stby, moduleOff_pl, controllerOff_pl, blocksOff_mem]

theorem allOff_regs : (allOff stby s).regs = (controllerOff stby s).regs := by
  cases stby
  · rw [allOff_none, moduleOff_regs, lostChansOff_regs]
  · rw [allOff_stby, moduleOff_regs]

theorem allOff_pwr : (allOff stby s).pwr = (controllerOff stby s).pwr := by
  cases stby
  · rw [allOff_none, moduleOff_pwr, lostChansOff_pwr]
  · rw [allOff_stby, moduleOff_pwr]

@[simp] theorem allOff_beat : (allOff stby s).pwr.beat = s.pwr.beat := by
  rw [allOff_pwr, (controllerOff_pwr stby s).1, blocksOff_beat]

@[simp] theorem allOff_running : (allOff stby s).pwr.running = false := by rw [allOff_pwr, (controllerOff_pwr stby s).2]

@[simp] theorem allOff_dead : (allOff stby s).dead = none := rfl

/-- The power controller's own registers reset to constants. -/
theorem pwrReg_of_regs {s t : State} (h : t.regs = s.regs) {f : RField} (hf : f.key ∈ [0x050, 0x054, 0x060]) :
    t.get (hu .a .PWR) f = s.get (hu .a .PWR) f := by
  have hkey : regKey (hu .a .PWR) f.key = (0x404, f.key) := by
    simp only [List.mem_cons, List.not_mem_nil, or_false] at hf
    rcases hf with hf | hf | hf <;> rw [hf] <;> rfl
  have hreset : resetVal t 0x404 f.key = resetVal s 0x404 f.key := by
    simp only [List.mem_cons, List.not_mem_nil, or_false] at hf
    rcases hf with hf | hf | hf <;> rw [hf] <;> rfl
  simp only [State.get, State.reg, h, hkey, hreset]

@[simp] theorem allOff_on : (allOff stby s).get (hu .a .PWR) Fld.PWR_DOM_STAT_ON = if stby then 1 else 0 := by
  rw [pwrReg_of_regs ((allOff_regs stby s).trans (controllerOff_regs stby s)) (by decide), State.get_put_beside (by decide), State.get_put_same _ _ _ _ (by decide)]
  cases stby <;> rfl

@[simp] theorem allOff_pend : (allOff stby s).get (hu .a .PWR) Fld.PWR_DOM_PEND = 0 := by
  rw [pwrReg_of_regs ((allOff_regs stby s).trans (controllerOff_regs stby s)) (by decide), State.get_put_same _ _ _ _ (by decide)]
  rfl

end Sys2Proof.Machine
end

section
/-! SUPPORT. O54: the feeds and the hold-up store. -/

namespace Sys2Proof.Machine

/-! ### A feed's state and its measurement -/

section
variable (f : FeedId) (s : State)

theorem feedSt_lt : feedSt s f < 4 := by
  rw [feedSt, State.get, fieldGet]
  refine (BitVec.isLt _).trans_eq ?_
  cases f <;> rfl

/-- The fields of the feeds stand apart. -/
theorem feedFields_beside (g : FeedId) : beside (feedMv g) (feedState f) = true ∧ beside (feedState g) (feedMv f) = true ∧
    beside (feedActive g) (feedState f) = true ∧ beside (feedActive g) (feedMv f) = true := by
  cases f <;> cases g <;> decide

theorem feedState_beside {g : FeedId} (h : f ≠ g) : beside (feedState f) (feedState g) = true := by
  cases f <;> cases g <;> simp at h <;> decide

/-! ### Registers that the feeds' fields share -/

/-- The fields that a feed's state and its measurement stand in. -/
theorem feedMv_congr {s t : State} (h : feedRegs t = feedRegs s) : t.get (hu .a .PWR) (feedMv f) = s.get (hu .a .PWR) (feedMv f) := by
  simp only [feedRegs, Prod.mk.injEq] at h
  cases f
  · exact congrArg (fieldGet · _) h.1
  · exact congrArg (fieldGet · _) h.2

theorem measureFeed_feedSt (g : FeedId) (mv : Nat) : feedSt (measureFeed g mv s) f = feedSt s f := by
  rw [feedSt, measureFeed, State.get_put_beside (feedFields_beside f g).1, ← feedSt]

theorem measureFeed_mv (mv : Nat) : (measureFeed f mv s).get (hu .a .PWR) (feedMv f) = mv % 65536 := by
  cases f <;> exact (State.get_put_same _ _ _ _ (by decide)).trans (Nat.mod_mod _ _)

/-- The choice of the feed that feeds the load shows in ACTIVE alone. -/
theorem pickFeed_get {g : RField} (hg : ∀ x, beside (feedActive x) g = true) (u : Nat) : (pickFeed s).get u g = s.get u g := by
  unfold pickFeed
  extract_lets x act
  rw [State.get_put_beside (hg .b), State.get_put_beside (hg .a)]

@[simp] theorem setFeed_planes (st : Nat) : (setFeed f st s).planes = s.planes := rfl
@[simp] theorem setFeed_dead (st : Nat) : (setFeed f st s).dead = s.dead := rfl

/-- Entering a state begins its time. -/
theorem setFeed_pwr (st : Nat) : (setFeed f st s).pwr = (match f with
    | .a => { s.pwr with feedA := { s.pwr.feedA with since := s.pwr.beat } }
    | .b => { s.pwr with feedB := { s.pwr.feedB with since := s.pwr.beat } }) := by cases f <;> rfl

theorem setFeed_since (st : Nat) : (if f = .a then (setFeed f st s).pwr.feedA.since else (setFeed f st s).pwr.feedB.since) = s.pwr.beat := by
  rw [setFeed_pwr]
  cases f <;> rfl

theorem setFeed_rest (st : Nat) : (setFeed f st s).pwr.dryAt = s.pwr.dryAt ∧ (setFeed f st s).pwr.beat = s.pwr.beat ∧
    (setFeed f st s).pwr.offUntil = s.pwr.offUntil := by
  rw [setFeed_pwr]
  cases f <;> exact ⟨rfl, rfl, rfl⟩

theorem setFeed_feedSt_put (g : FeedId) (st : Nat) : feedSt (setFeed f st s) g = feedSt (s.put (hu .a .PWR) (feedState f) st) g := by
  rw [feedSt, setFeed, pickFeed_get _ fun x => (feedFields_beside g x).2.2.1, ← feedSt, feedSt_modPwr]

theorem setFeed_feedSt {st : Nat} (hst : st < 4) : feedSt (setFeed f st s) f = st := by
  rw [setFeed_feedSt_put, feedSt, State.get_put_same _ _ _ _ (by cases f <;> decide)]
  exact Nat.mod_eq_of_lt (hst.trans_eq (by cases f <;> rfl))

theorem setFeed_feedSt_ne {g : FeedId} (hg : f ≠ g) (st : Nat) : feedSt (setFeed f st s) g = feedSt s g := by
  rw [setFeed_feedSt_put, feedSt, State.get_put_beside (feedState_beside f hg), ← feedSt]

theorem setFeed_mv (st : Nat) : (setFeed f st s).get (hu .a .PWR) (feedMv f) = s.get (hu .a .PWR) (feedMv f) := by
  rw [setFeed, pickFeed_get _ fun x => (feedFields_beside f x).2.2.2]
  calc _ = (s.put (hu .a .PWR) (feedState f) st).get (hu .a .PWR) (feedMv f) := feedMv_congr f (feedRegs_modPwr _ _)
    _ = s.get (hu .a .PWR) (feedMv f) := State.get_put_beside (feedFields_beside f f).2.1 ..

end

theorem feedNext_lt (st mv : Nat) : feedNext st mv < 4 := by
  unfold feedNext
  split
  · omega
  · dsimp only
    split <;> split <;> omega

theorem feedNext_low (st : Nat) {mv : Nat} (h : mv < 4000) : feedNext st mv = 0 := if_pos h

theorem anyFeed_iff {s : State} (f : FeedId) : anyFeed s = true ↔ feedSt s f = 3 ∨ feedSt s (FeedId.other f) = 3 := by
  cases f <;> simp [anyFeed, FeedId.other, or_comm]

theorem anyFeed_congr {s t : State} (h : ∀ f, feedSt t f = feedSt s f) : anyFeed t = anyFeed s := by
  rw [anyFeed, anyFeed, h, h]

/-! ### The loss of a feed -/

section
variable (s : State)

theorem unitBlk_pwrUnit : ∃ n, unitBlk (pwrUnit s) = some (.PWR, n) := by
  unfold pwrUnit
  split
  · exact ⟨_, rfl⟩
  · exact ⟨_, rfl⟩

/-- FEED_LOST, class C, is logged and does no more. -/
theorem detect_feedLost (u loc : Nat) (hu : ∃ n, unitBlk u = some (.PWR, n)) (t : State) : detect u 1 .c loc 0 t =
    logDetection u .PWR { src := 1, cls := .c, loc := loc, detail := 0 } t := by
  obtain ⟨n, hblk⟩ := hu
  exact detectFault_minor rfl (show escSource .PWR 1 = false by decide) (show 1 < 256 by decide) hblk (show (Blk.PWR, 1) ∈ quietSources by decide)

@[simp] theorem feedRegs_setLog (u : Nat) (x : LogSave) : feedRegs (setLog u x s) = feedRegs s :=
  feedRegs_of_reg fun off hoff => setLog_reg _ _ _ (by omega)

@[simp] theorem feedRegs_modRp (u : Nat) (g : Reporter → Reporter) : feedRegs (s.modRp u g) = feedRegs s := feedRegs_of_regs rfl

@[simp] theorem feedRegs_logDetection (u : Nat) (b : Blk) (d : Detection) : feedRegs (logDetection u b d s) = feedRegs s := by simp [logDetection]

@[simp] theorem feedRegs_forFeedA : feedRegs (forFeedA s) = feedRegs s := by simp [forFeedA]

/-- The report of a feed's loss: FEED_LOST, or its correction to Feed A. -/
def lossReported (f : FeedId) (active : Bool) (s : State) : State :=
  if ¬ s.pwr.running ∨ (¬ active ∧ anyFeed s) then s
  else if decide (s.pwr.lostAt = some s.pwr.beat) = true then (if f = .a then forFeedA s else s)
  else detect (pwrUnit s) 1 .c (if f = .a || s.pwr.tripA = some s.pwr.beat then 0 else 1) 0 (s.modPwr (fun x => { x with lostAt := some x.beat }))

theorem feedLost_eq (f : FeedId) (active : Bool) : feedLost f active s =
    if anyFeed (lossReported f active s) then lossReported f active s
    else if (lossReported f active s).dead.isSome then allOff false ((lossReported f active s).modPwr (fun x => { x with dryAt := none }))
    else (lossReported f active s).modPwr (fun x => { x with dryAt := some x.beat }) := rfl

/-- What a report leaves: the feeds, the planes, the deadbolt state, and the beat. -/
structure LossKeeps (s t : State) : Prop where
  feeds : feedRegs t = feedRegs s
  planes : t.planes = s.planes
  dead : t.dead = s.dead
  beat : t.pwr.beat = s.pwr.beat

theorem lossReported_keeps (f : FeedId) (active : Bool) : LossKeeps s (lossReported f active s) := by
  unfold lossReported
  split
  · exact ⟨rfl, rfl, rfl, rfl⟩
  · split
    · split
      · refine ⟨feedRegs_forFeedA s, ?_, ?_, ?_⟩ <;> simp [forFeedA, setLog, apply_ite]
      · exact ⟨rfl, rfl, rfl, rfl⟩
    · rw [detect_feedLost _ _ (unitBlk_pwrUnit s)]
      exact ⟨by simp, (logDetection_frame ..).1, (logDetection_frame ..).2, by simp [logDetection, setLog]⟩

theorem feedLost_feeds (f : FeedId) (active : Bool) : feedRegs (feedLost f active s) = feedRegs s := by
  rw [feedLost_eq]
  simp [(lossReported_keeps s f active).feeds]

/-- The loss of the last feed of a running module begins the ride-through. -/
theorem feedLost_last {f : FeedId} {active : Bool} (hlast : anyFeed s = false) (hdead : s.dead = none) :
    (feedLost f active s).pwr.dryAt = some s.pwr.beat ∧ (feedLost f active s).planes = s.planes := by
  have hkeeps := lossReported_keeps s f active
  have hno : anyFeed (lossReported f active s) = false := (anyFeed_congr fun g => feedSt_congr hkeeps.feeds g).trans hlast
  have hrun : feedLost f active s = (lossReported f active s).modPwr (fun x => { x with dryAt := some x.beat }) := by
    rw [feedLost_eq, hno, hkeeps.dead, hdead]
    rfl
  rw [hrun]
  exact ⟨congrArg some hkeeps.beat, hkeeps.planes⟩

end

/-! ### FEED_CHANGE -/

section
variable {f : FeedId} {mv n : Nat} {s : State}

/-- The feed in its next state. -/
def feedMoved (f : FeedId) (mv : Nat) (s : State) : State := setFeed f (feedNext (feedSt s f) mv) (measureFeed f mv s)

/-- The same, where Feed A has tripped. -/
def feedTripped (f : FeedId) (mv : Nat) (s : State) : State :=
  if feedSt s f = 3 ∧ f = .a then (feedMoved f mv s).modPwr (fun x => { x with tripA := some x.beat }) else feedMoved f mv s

theorem execFeedChange_same (h : feedNext (feedSt s f) mv = feedSt s f) : execFeedChange f mv n s = .next (measureFeed f mv s) := if_pos h

theorem execFeedChange_short (h : feedNext (feedSt s f) mv ≠ feedSt s f) (hn : n < 165) :
    execFeedChange f mv n s = .next (if feedSt s f = 2 then setFeed f 2 (measureFeed f mv s) else measureFeed f mv s) :=
  (if_neg h).trans (if_pos hn)

theorem execFeedChange_moves (h : feedNext (feedSt s f) mv ≠ feedSt s f) (hn : 165 ≤ n) : execFeedChange f mv n s =
    if feedSt s f = 3 ∧ (feedTripped f mv s).pwr.offUntil.isNone then .next (feedLost f (s.on (hu .a .PWR) (feedActive f)) (feedTripped f mv s))
    else .next (feedTripped f mv s) :=
  (if_neg h).trans (if_neg (by omega))

theorem feedTripped_keeps : (feedTripped f mv s).planes = s.planes ∧ (feedTripped f mv s).dead = s.dead ∧
    (feedTripped f mv s).pwr.beat = s.pwr.beat ∧ (feedTripped f mv s).pwr.offUntil = s.pwr.offUntil := by
  obtain ⟨-, hbeat, hoff⟩ := setFeed_rest f (measureFeed f mv s) (feedNext (feedSt s f) mv)
  unfold feedTripped
  split <;> exact ⟨rfl, rfl, hbeat, hoff⟩

theorem feedTripped_feeds : feedRegs (feedTripped f mv s) = feedRegs (feedMoved f mv s) := by
  unfold feedTripped
  split
  · exact feedRegs_modPwr ..
  · rfl

theorem feedMoved_feedSt : feedSt (feedMoved f mv s) f = feedNext (feedSt s f) mv := setFeed_feedSt f _ (feedNext_lt _ _)

theorem feedMoved_feedSt_ne {g : FeedId} (hg : f ≠ g) : feedSt (feedMoved f mv s) g = feedSt s g := by
  rw [feedMoved, setFeed_feedSt_ne f _ hg, measureFeed_feedSt]

theorem feedMoved_mv : (feedMoved f mv s).get (hu .a .PWR) (feedMv f) = mv % 65536 := by rw [feedMoved, setFeed_mv, measureFeed_mv]

/-- A voltage that has stood gives the feed its next state, and is measured. -/
theorem feedChange_moves (hn : 165 ≤ n) : Completes (.feedChange f mv n) s (fun t =>
    feedSt t f = feedNext (feedSt s f) mv ∧ t.get (hu .a .PWR) (feedMv f) = mv % 65536) := by
  by_cases hsame : feedNext (feedSt s f) mv = feedSt s f
  · exact ⟨_, execFeedChange_same hsame, (measureFeed_feedSt f s f mv).trans hsame.symm, measureFeed_mv f s mv⟩
  · have hfeeds : ∀ {t : State}, feedRegs t = feedRegs (feedMoved f mv s) →
        feedSt t f = feedNext (feedSt s f) mv ∧ t.get (hu .a .PWR) (feedMv f) = mv % 65536 := fun ht =>
      ⟨(feedSt_congr ht f).trans feedMoved_feedSt, (feedMv_congr f ht).trans feedMoved_mv⟩
    by_cases hlost : feedSt s f = 3 ∧ (feedTripped f mv s).pwr.offUntil.isNone
    · exact ⟨_, (execFeedChange_moves hsame hn).trans (if_pos hlost), hfeeds ((feedLost_feeds ..).trans feedTripped_feeds)⟩
    · exact ⟨_, (execFeedChange_moves hsame hn).trans (if_neg hlost), hfeeds feedTripped_feeds⟩

/-- A shorter one starts a QUAL feed's time in range again, and does no more. -/
theorem feedChange_short (hn : n < 165) : Completes (.feedChange f mv n) s (fun t => feedSt t f = feedSt s f ∧ t.planes = s.planes ∧
    t.pwr.dryAt = s.pwr.dryAt ∧ (feedSt s f ≠ 2 → t.pwr = s.pwr) ∧ (feedSt s f = 2 → feedNext 2 mv ≠ 2 →
      (if f = .a then t.pwr.feedA.since else t.pwr.feedB.since) = s.pwr.beat)) := by
  by_cases hsame : feedNext (feedSt s f) mv = feedSt s f
  · exact ⟨_, execFeedChange_same hsame, measureFeed_feedSt f s f mv, rfl, rfl, fun _ => rfl, fun h2 hne => absurd (h2 ▸ hsame) hne⟩
  · refine ⟨_, execFeedChange_short hsame hn, ?_⟩
    by_cases h2 : feedSt s f = 2
    · rw [if_pos h2]
      exact ⟨(setFeed_feedSt f _ (by decide)).trans h2.symm, rfl, (setFeed_rest f (measureFeed f mv s) 2).1, fun hne => absurd h2 hne,
        fun _ _ => setFeed_since f (measureFeed f mv s) 2⟩
    · rw [if_neg h2]
      exact ⟨measureFeed_feedSt f s f mv, rfl, rfl, fun _ => rfl, fun h => absurd h h2⟩

/-- The loss of the last OK feed begins the ride-through. -/
theorem feedChange_last (hn : 165 ≤ n) (hmv : mv < 4000) (hok : feedSt s f = 3) (hother : feedSt s (FeedId.other f) ≠ 3) (hdead : s.dead = none)
    (hoff : s.pwr.offUntil = none) : Completes (.feedChange f mv n) s (fun t => t.pwr.dryAt = some s.pwr.beat ∧ anyFeed t = false ∧ t.planes = s.planes) := by
  have hmoves : feedNext (feedSt s f) mv ≠ feedSt s f := by rw [feedNext_low _ hmv, hok]; decide
  obtain ⟨hplanes, hsdead, hbeat, hsoff⟩ := feedTripped_keeps (f := f) (mv := mv) (s := s)
  have hne : f ≠ FeedId.other f := by cases f <;> simp [FeedId.other]
  have hnone : ∀ {t : State}, feedRegs t = feedRegs (feedMoved f mv s) → anyFeed t = false := fun ht => by
    rw [Bool.eq_false_iff, Ne, anyFeed_iff f, feedSt_congr ht, feedSt_congr ht, feedMoved_feedSt, feedNext_low _ hmv, feedMoved_feedSt_ne hne]
    exact fun h => h.elim (by decide) hother
  obtain ⟨hdry, hkept⟩ := feedLost_last (feedTripped f mv s) (f := f) (active := s.on (hu .a .PWR) (feedActive f)) (hnone feedTripped_feeds)
    (hsdead.trans hdead)
  exact ⟨_, (execFeedChange_moves hmoves hn).trans (if_pos ⟨hok, by rw [hsoff, hoff]; rfl⟩), hdry.trans (congrArg some hbeat),
    hnone ((feedLost_feeds ..).trans feedTripped_feeds), hkept.trans hplanes⟩

end

/-! ### The ride-through -/

section
variable {s : State}

/-- Until its end the ride-through goes on. -/
theorem rideOver_before (h : s.pwr.dryAt.all (fun t0 => decide (s.pwr.beat ≤ t0 + 825000)) = true) : rideOver s = s := by
  unfold rideOver
  split
  · next t ht =>
    rw [ht, Option.all_some, decide_eq_true_eq] at h
    exact if_neg fun hend => by omega
  · rfl

theorem rideOver_after {t0 : Nat} (hdry : s.pwr.dryAt = some t0) (hend : t0 + 825000 < s.pwr.beat) (hno : anyFeed s = false) :
    rideOver s = allOff false (s.modPwr (fun x => { x with dryAt := none })) := by
  simp [rideOver, hdry, hend, hno]

theorem rideThrough_ends {t0 : Nat} (hdry : s.pwr.dryAt = some t0) (hend : t0 + 825000 < s.pwr.beat) (hno : anyFeed s = false) :
    Completes .rideThroughExpire s (fun t => t.get (hu .a .PWR) Fld.PWR_DOM_STAT_ON = 0 ∧ t.pwr.running = false ∧ ∀ p, (t.pl p).mem = []) :=
  ⟨_, congrArg Host.Outcome.next (rideOver_after hdry hend hno), allOff_on .., allOff_running .., fun p => allOff_mem _ _ p⟩

/-- A feed that has qualified ends it. -/
theorem feedQualify_ok {f : FeedId} (hqual : feedSt s f = 2)
    (htime : (if f = .a then s.pwr.feedA.since else s.pwr.feedB.since) + (if anyFeed s then 165000000 else 16500) ≤ s.pwr.beat)
    (hride : s.pwr.dryAt.all (fun t0 => decide (s.pwr.beat ≤ t0 + 825000)) = true) :
    Completes (.feedQualify f) s (fun t => feedSt t f = 3 ∧ anyFeed t = true ∧ t.pwr.dryAt = none ∧ t.planes = s.planes) := by
  have hst : feedSt (feedGood f s) f = 3 := by rw [feedGood, feedSt_modPwr, setFeed_feedSt f s (by decide)]
  have hrun : exec (.feedQualify f) s = .next (feedGood f s) := by
    show execFeedQualify f s = _
    simp only [execFeedQualify, rideOver_before hride]
    refine if_pos ⟨hqual, ?_⟩
    cases f <;> simpa using htime
  exact ⟨_, hrun, hst, (anyFeed_iff f).mpr (Or.inl hst), rfl, rfl⟩

theorem feedQualify_not {f : FeedId} (hqual : feedSt s f ≠ 2) (hride : s.pwr.dryAt.all (fun t0 => decide (s.pwr.beat ≤ t0 + 825000)) = true) :
    exec (.feedQualify f) s = .next s := by
  show execFeedQualify f s = _
  simp only [execFeedQualify, rideOver_before hride, hqual, false_and, if_false]

/-- PWRCYC_N low for its filter. -/
theorem pwrcyc_cycles {n : Nat} (hn : 1650000 ≤ n) (hoff : s.pwr.offUntil = none) : Completes (.pwrcycN true n) s (fun t =>
    t.pwr.offUntil = some (s.pwr.beat + 165000000) ∧ t.get (hu .a .PWR) Fld.PWR_DOM_STAT_ON = 1 ∧ t.dead = none ∧ ∀ p, (t.pl p).mem = []) := by
  have hrun : exec (.pwrcycN true n) s =
      .next ((allOff true s).modPwr (fun x => { x with cycLow := true, dryAt := none, offUntil := some (x.beat + 165000000) })) := by
    show execPwrcycN true n s = _
    simp [execPwrcycN, hoff, Nat.not_lt.mpr hn]
  exact ⟨_, hrun, by rw [State.modPwr_pwr, allOff_beat], (pwrReg_of_regs (State.modPwr_regs _ _) (by decide)).trans (allOff_on true s),
    (State.modPwr_dead _ _).trans (allOff_dead true s), fun p => by rw [State.modPwr_pl, allOff_mem]⟩

end

/-- Settles O54: a feed's state moves with its voltage, and the ride-through with the feeds. -/
theorem powerFeeds : Obligations.PowerFeeds := by
  unfold Obligations.PowerFeeds
  refine ⟨fun f mv n s hn hmv => ?_, fun f mv n s => feedChange_moves, fun f mv n s => feedChange_short,
    fun f mv n s => feedChange_last, fun f s => feedQualify_ok, fun f s hqual hride => ⟨s, feedQualify_not hqual hride, rfl⟩,
    fun t0 s => rideThrough_ends, fun s hdry => ⟨s, congrArg Host.Outcome.next (rideOver_before (by rw [hdry]; rfl)), rfl⟩,
    fun ok s => ⟨_, rfl, ?_, rfl⟩, fun n s => pwrcyc_cycles, fun n s => ⟨_, rfl, rfl, rfl, rfl⟩⟩
  · obtain ⟨t, hrun, hst, -⟩ := feedChange_moves (f := f) (mv := mv) (s := s) hn
    refine ⟨t, hrun, ?_⟩
    simp [feedOkPin, hst, feedNext_low _ hmv]
  · rw [State.get_put_same _ _ _ _ (by decide)]
    cases ok <;> rfl

end Sys2Proof.Machine
end

section
/-! SUPPORT. The hubs' registers and the power controller: what happens within a plane leaves them. -/

namespace Sys2Proof.Machine

/-- The hubs' registers, and the power controller. -/
def hubSide (s : State) : PowerCtl × ({u : Nat // 0x400 ≤ u} → Nat → Word) := (s.pwr, fun u off => s.reg u.val off)

theorem hubSide_eq {s t : State} (hpwr : t.pwr = s.pwr) (hreg : ∀ u off, 0x400 ≤ u → t.reg u off = s.reg u off) : hubSide t = hubSide s :=
  Prod.ext hpwr (funext fun u => funext fun off => hreg u.val off u.property)

theorem pwr_of_hubSide {s t : State} (h : hubSide t = hubSide s) : t.pwr = s.pwr := congrArg Prod.fst h

theorem get_of_hubSide {s t : State} (h : hubSide t = hubSide s) {u : Nat} (hu : 0x400 ≤ u) (f : RField) : t.get u f = s.get u f :=
  congrArg (fieldGet · f) (congrFun (congrFun (congrArg Prod.snd h) ⟨u, hu⟩) f.key)

theorem domOn_of_hubSide {s t : State} (h : hubSide t = hubSide s) (d : Nat) : t.domOn d = s.domOn d :=
  congrArg (bit · d) (get_of_hubSide h (by decide) _)

section
variable (p : PlaneId) (s : State)

@[simp] theorem hubSide_modPl (g : Plane → Plane) : hubSide (s.modPl p g) = hubSide s := hubSide_eq rfl fun _ _ _ => State.modPl_reg ..
@[simp] theorem hubSide_modRp (u : Nat) (g : Reporter → Reporter) : hubSide (s.modRp u g) = hubSide s := hubSide_eq rfl fun _ _ _ => State.modRp_reg ..
@[simp] theorem hubSide_pulseBit (u n : Nat) : hubSide (s.pulseBit u n) = hubSide s := hubSide_eq rfl fun _ _ _ => State.pulseBit_reg ..

@[simp] theorem hubSide_ite (c : Prop) [Decidable c] (s t : State) : hubSide (if c then s else t) = if c then hubSide s else hubSide t :=
  apply_ite _ _ _ _

theorem hubSide_foldl_mem {α : Type} {f : State → α → State} {l : List α} (h : ∀ t, ∀ x ∈ l, hubSide (f t x) = hubSide t) (s : State) :
    hubSide (l.foldl f s) = hubSide s := by
  induction l generalizing s with
  | nil => rfl
  | cons x r ih => exact (ih (fun t y hy => h t y (List.mem_cons_of_mem x hy)) _).trans (h s x List.mem_cons_self)

@[simp] theorem hubSide_foldl {α : Type} {f : State → α → State} (h : ∀ t x, hubSide (f t x) = hubSide t) (l : List α) (s : State) :
    hubSide (l.foldl f s) = hubSide s := foldl_keeps hubSide h l s

/-! ### Registers and logs of a plane's units -/

theorem hubSide_setReg {u : Nat} (hu : u < 0x400) (off : Nat) (w : Word) : hubSide (s.setReg u off w) = hubSide s :=
  hubSide_eq rfl fun _ _ hu' => State.reg_setReg_ne s w (regKey_ne_of_unit hu (by omega))

theorem hubSide_put {u : Nat} (hu : u < 0x400) (f : RField) (v : Nat) : hubSide (s.put u f v) = hubSide s :=
  hubSide_eq rfl fun _ _ hu' => State.reg_put_ne s v (regKey_ne_of_unit hu (by omega))

@[simp] theorem hubSide_put_pu (b : Blk) (f : RField) (v : Nat) : hubSide (s.put (pu p b) f v) = hubSide s := hubSide_put s (pu_lt p b) f v
@[simp] theorem hubSide_inc_pu (b : Blk) (f : RField) (n : Nat) : hubSide (s.inc (pu p b) f n) = hubSide s := hubSide_put s (pu_lt p b) f _
@[simp] theorem hubSide_put64_pu (b : Blk) (f g : RField) (v : Nat) : hubSide (s.put64 (pu p b) f g v) = hubSide s := by simp [State.put64]

theorem hubSide_logDetection {u : Nat} (hu : u < 0x400) (b : Blk) (d : Detection) : hubSide (logDetection u b d s) = hubSide s := by
  simp [logDetection, setLog, hubSide_setReg, hu]

theorem hubSide_closeHasp {u : Nat} (hu : u < 0x400) (c : Nat) : hubSide (closeHasp u c s) = hubSide s := by
  simp [closeHasp, hubSide_put, hu]

@[simp] theorem hubSide_report_pu (b : Blk) (src : Nat) (cls : FaultClass) (wh detail : Nat) : hubSide (report (pu p b) src cls wh detail s) = hubSide s := by
  unfold report
  split
  · exact hubSide_logDetection s (pu_lt p b) ..
  · rfl

/-! ### Chunks -/

@[simp] theorem hubSide_event (code inst n : Nat) : hubSide (s.event p code inst n) = hubSide s := by simp [State.event]
@[simp] theorem hubSide_setCtx (pos c : Nat) (x : Ctx) : hubSide (setCtx p pos c x s) = hubSide s := by simp [setCtx]
@[simp] theorem hubSide_sealSample (pos : Nat) (k : Chunk) (st : ChunkState) : hubSide (sealSample p pos k st s) = hubSide s := by
  simp [sealSample, State.sample]

@[simp] theorem hubSide_modCtx (pos c : Nat) (f : Ctx → Ctx) : hubSide (modCtx p pos c f s) = hubSide s := by
  unfold modCtx
  split <;> simp

@[simp] theorem hubSide_modChunk (pos c n : Nat) (f : Chunk → Chunk) : hubSide (modChunk p pos c n f s) = hubSide s := hubSide_modCtx p s ..

@[simp] theorem hubSide_endChunk (pos c n : Nat) (f : Chunk → Chunk) : hubSide (endChunk p pos c n f s) = hubSide s := by
  unfold endChunk
  split <;> simp

@[simp] theorem hubSide_sealOne (pos c n : Nat) (d : CopyDst) : hubSide (sealOne p pos c n d s).2 = hubSide s := by
  simp only [sealOne]
  repeat' split
  all_goals simp

@[simp] theorem hubSide_finalOnly (pos c n : Nat) (d : CopyDst) : hubSide (finalOnly p pos c n d s) = hubSide s := by
  have hseal : ∀ (ep : Nat) (r : Option Cell × State), hubSide (issueSeal p pos c ep r) = hubSide r.2 := fun ep r => by
    unfold issueSeal
    split <;> simp [issueFrame]
  unfold finalOnly
  split <;> simp [hseal, queueRepair]

@[simp] theorem hubSide_failChunk (pos c n reason : Nat) (extra : List CopyDst) : hubSide (failChunk p pos c n reason extra s) = hubSide s := by
  simp [failChunk]

/-! ### The running key -/

@[simp] theorem hubSide_abortKeyChunks (b : Nat) : hubSide (abortKeyChunks p b s) = hubSide s := by
  refine hubSide_foldl (fun t w => ?_) _ s
  dsimp only
  split <;> simp

@[simp] theorem hubSide_setPlnState (v : Nat) : hubSide (setPlnState p v s) = hubSide s := by simp [setPlnState]

@[simp] theorem hubSide_syncPln : hubSide (syncPln p s) = hubSide s := by simp [syncPln]

@[simp] theorem hubSide_endKey (b : Nat) (c : KeyEnd) : hubSide (endKey p b c s) = hubSide s := by
  simp [endKey, dropOrphans, modBank, setBankSt]

/-- A fence ends the plane's key. -/
theorem hubSide_endRunningKey_fenced : hubSide (endRunningKey p .fenced s) = hubSide s := by
  simp only [endRunningKey, fenceKey, reduceCtorEq, if_false, if_true]
  repeat' split
  all_goals simp

/-! ### Fences (R404) -/

theorem planeUnit_lt {u : Nat} (hu : u ∈ planeUnits p) : u < 0x400 := by
  obtain ⟨c, hc, rfl⟩ := List.mem_map.mp hu
  have hlt : ∀ c ∈ planeUnitCodes, c < 256 := by decide +kernel
  have := hlt c hc
  omega

theorem hubSide_haltCore {n : Nat} (hn : n < 16) (c : HCause) : hubSide (haltCore p n c s) = hubSide s := by
  have hu : uCCX p n < 0x400 := by unfold uCCX; omega
  simp [haltCore, setCoreSt, modCore, setCore, hubSide_put, hu]

theorem hubSide_fencePlane (c : Nat) : hubSide (fencePlane p c s) = hubSide s := by
  have hports : ∀ t : State, hubSide ((List.range 128).foldl (fun s n =>
      if portPen s p n then (s.put (uFPT p n) Fld.FPT_STAT_STATE 6).put (uFPT p n) Fld.FPT_STAT_LANE_ACT 0 else s) t) = hubSide t :=
    hubSide_foldl_mem fun t n hn => by
      have hu : uFPT p n < 0x400 := by have := List.mem_range.mp hn; unfold uFPT; omega
      split <;> simp [hubSide_put, hu]
  have hcores : ∀ t : State, hubSide ((List.range 16).foldl (fun s n => haltCore p n .fence s) t) = hubSide t :=
    hubSide_foldl_mem fun t n hn => hubSide_haltCore p t (List.mem_range.mp hn) _
  have hunits : ∀ (k : Nat) (t : State), hubSide ((planeUnits p).foldl (fun s u => closeHasp u k s) t) = hubSide t := fun k =>
    hubSide_foldl_mem fun t u hu => hubSide_closeHasp t (planeUnit_lt p hu) k
  unfold fencePlane
  extract_lets on
  split
  · split
    · exact hubSide_closeHasp s (pu_lt p _) c
    · rfl
  · rw [hubSide_setPlnState, hports, hubSide_put_pu, hcores, hunits, hubSide_closeHasp _ (pu_lt p _), hubSide_endRunningKey_fenced]

@[simp] theorem hubSide_unitChange : hubSide (unitChange p s) = hubSide s := by simp [unitChange]

theorem hubSide_fenceChannel {n : Nat} (hn : n < 6) (c : Nat) : hubSide (fenceChannel p n c s) = hubSide s := by
  have hu : uFMC p n < 0x400 := by unfold uFMC; omega
  simp [fenceChannel, logFault, hubSide_logDetection, hubSide_closeHasp, hu]

theorem hubSide_fenceSlice {n : Nat} (hn : n < 17) (c : Nat) : hubSide (fenceSlice p n c s) = hubSide s := by
  have hu : ∀ {m}, m < 17 → uTMB p m < 0x400 := fun hm => by unfold uTMB; omega
  unfold fenceSlice
  extract_lets u role pos s₁ act s₂ s₃ s₄
  split
  · exact hubSide_closeHasp s (hu hn) c
  · have h₃ : hubSide s₃ = hubSide s := by simp [s₃, s₂, s₁, u, hubSide_put, hubSide_closeHasp, hu hn]
    have h₄ : hubSide s₄ = hubSide s := by
      simp only [s₄]
      split
      · next sp hsp =>
        have hsp : sp < 17 := by
          split at hsp
          · cases hsp
          · exact spareSlice_lt p hsp
        simp [hubSide_put, hu hsp, h₃]
      · split
        · simp [h₃]
        · split
          · exact h₃
          · refine (hubSide_foldl (fun t e => ?_) _ s₃).trans h₃
            split <;> simp
    split
    · exact h₄
    · rw [hubSide_unitChange, h₄]

/-- A failed self-test of a slice fences it. -/
theorem hubSide_detect_TMB {n : Nat} (hn : n < 17) (wh : Nat) : hubSide (detect (uTMB p n) 4 .u wh 0 s) = hubSide s := by
  have hu : uTMB p n < 0x400 := by unfold uTMB; omega
  have hplane : unitPlane (uTMB p n) = some p := by
    have hdiv : uTMB p n / 256 = p.val := by unfold uTMB; omega
    simp [unitPlane, hdiv]
  have hnum : uTMB p n % 256 - 0x20 = n := by unfold uTMB; omega
  have hlog : ∀ d, hubSide (logOrDead (uTMB p n) .TMB d s) = hubSide s := fun d => by
    simp [logOrDead, hubSide_logDetection, hu]
  rw [detect, detectFault_of_u (unitBlk_TMB p ⟨n, hn⟩) rfl]
  simp only [react, hplane, hnum]
  rw [hubSide_fenceSlice _ _ hn, hlog]

end

/-! ### Other states -/

/-- The hubs' own state beside the Keyplate is none of a register. -/
theorem hubSide_modHub {g : Hub → Hub} (hg : ∀ x, (g x).kpl = x.kpl) (h : HubId) (s : State) : hubSide (s.modHub h g) = hubSide s :=
  hubSide_eq rfl fun u off _ => modHub_reg s h g u off hg

/-- The hubs' view records are no registers. -/
theorem hubSide_expectReports (us : List Nat) (s : State) : hubSide (expectReports us s) = hubSide s := by
  unfold expectReports
  extract_lets upd
  have hkpl : ∀ x, (upd x).kpl = x.kpl := fun _ => rfl
  rw [hubSide_modHub hkpl, hubSide_modHub hkpl]

end Sys2Proof.Machine
end

section
/-! SUPPORT. O56: admission of domains, their start, and the boot chain without images. -/

namespace Sys2Proof.Machine

/-! ### Words of domains -/

section
variable (s : State) {f : RField}

theorem setDom_get {g : RField} (h : beside f g = true) (d : Nat) (on : Bool) (u : Nat) : (setDom f d on s).get u g = s.get u g :=
  State.get_put_beside h ..

theorem bit_setDom_on (hf : f.ok = true) (hw : f.width = 32) {d : Nat} (hd : d < 32) : bit ((setDom f d true s).get (hu .a .PWR) f) d = true := by
  rw [setDom, State.get_put_same _ _ _ _ hf, hw, if_pos rfl, bit_eq_testBit, Nat.testBit_mod_two_pow, Nat.testBit_or, Nat.testBit_two_pow_self]
  simp [hd]

theorem bit_setDom_off (hf : f.ok = true) (d : Fin 32) : bit ((setDom f d.val false s).get (hu .a .PWR) f) d.val = false := by
  have hmask : ∀ d : Fin 32, (2 ^ 32 - 1 - 2 ^ d.val).testBit d.val = false := by decide
  rw [setDom, State.get_put_same _ _ _ _ hf, if_neg Bool.false_ne_true, bit_eq_testBit, Nat.testBit_mod_two_pow, Nat.testBit_and, hmask d, Bool.and_false,
    Bool.and_false]

/-- What is off stays off. -/
theorem bit_setDom_off_mono (hf : f.ok = true) (d : Nat) {k : Nat} (hk : bit (s.get (hu .a .PWR) f) k = false) :
    bit ((setDom f d false s).get (hu .a .PWR) f) k = false := by
  rw [bit_eq_testBit] at hk
  rw [setDom, State.get_put_same _ _ _ _ hf, if_neg Bool.false_ne_true, bit_eq_testBit, Nat.testBit_mod_two_pow, Nat.testBit_and, hk, Bool.false_and,
    Bool.and_false]

end

/-! ### Start-up and the bucket (R424, R429) -/

section
variable (s : State)

theorem aliveStart_get (h : HubId) (u : Nat) (f : RField) : (aliveStart h s).get u f = s.get u f := by
  unfold aliveStart
  split
  · rfl
  · rw [get_modHub]
    exact fun _ => rfl

theorem aliveStart_alive {h : HubId} (hdead : s.dead = none) : ((aliveStart h s).hub h).alive = .starting := by simp [aliveStart, hdead]

theorem aliveStart_alive_ne {h k : HubId} (hk : h ≠ k) : ((aliveStart h s).hub k).alive = (s.hub k).alive := by
  unfold aliveStart
  split
  · rfl
  · rw [State.modHub_hub_ne _ _ hk]

@[simp] theorem aliveStart_dead (h : HubId) : (aliveStart h s).dead = s.dead := by unfold aliveStart; split <;> rfl

/-- The module off, with its start-up domains on and an empty bucket. -/
def emptied : State :=
  (((allOff true s).modPwr (fun x => { x with offUntil := none, dryAt := none })).put (hu .a .PWR) Fld.PWR_DOM_STAT_ON 3).put (hu .a .PWR) Fld.PWR_CREDIT 0

theorem emptied_dead : (emptied s).dead = none := by rw [emptied, State.put_dead, State.put_dead, State.modPwr_dead, allOff_dead]

theorem exec_powerOn (hfeed : anyFeed s = true) (hrun : s.pwr.running = false) (hoff : s.pwr.offUntil = none) :
    exec .powerOn s = .next (beginStart (emptied s)) := by
  show execPowerOn s = _
  simp only [execPowerOn, hoff, hfeed, hrun, Bool.false_eq_true, not_false_eq_true, and_self, if_true]
  rfl

theorem beginStart_get {f : RField} (hf : beside Fld.PWR_DOM_PEND f = true) (u : Nat) : (beginStart s).get u f = s.get u f := by
  rw [beginStart, State.modPwr_get, setDom_get _ hf, setDom_get _ hf, aliveStart_get, aliveStart_get]

theorem beginStart_pend (hpend : s.get (hu .a .PWR) Fld.PWR_DOM_PEND = 0) : (beginStart s).get (hu .a .PWR) Fld.PWR_DOM_PEND = 12 := by
  rw [beginStart, State.modPwr_get, setDom, State.get_put_same _ _ _ _ (by decide), setDom, State.get_put_same _ _ _ _ (by decide), aliveStart_get,
    aliveStart_get, hpend]
  rfl

theorem beginStart_alive (hdead : s.dead = none) (h : HubId) : ((beginStart s).hub h).alive = .starting := by
  show ((aliveStart .b (aliveStart .a s)).hub h).alive = .starting
  cases h
  · rw [aliveStart_alive_ne _ (by decide), aliveStart_alive s hdead]
  · exact aliveStart_alive _ ((aliveStart_dead s .a).trans hdead)

theorem emptied_get : (emptied s).get (hu .a .PWR) Fld.PWR_CREDIT = 0 ∧ (emptied s).get (hu .a .PWR) Fld.PWR_DOM_STAT_ON = 3 ∧
    (emptied s).get (hu .a .PWR) Fld.PWR_DOM_PEND = 0 := by
  refine ⟨State.get_put_same _ _ _ _ (by decide), ?_, ?_⟩
  · rw [emptied, State.get_put_beside (by decide), State.get_put_same _ _ _ _ (by decide)]
    rfl
  · rw [emptied, State.get_put_beside (by decide), State.get_put_beside (by decide), State.modPwr_get, allOff_pend]

theorem powerOn_starts (hfeed : anyFeed s = true) (hrun : s.pwr.running = false) (hoff : s.pwr.offUntil = none) :
    Completes .powerOn s (fun t => t.pwr.running = true ∧ t.get (hu .a .PWR) Fld.PWR_CREDIT = 0 ∧ t.get (hu .a .PWR) Fld.PWR_DOM_STAT_ON = 3 ∧
      t.get (hu .a .PWR) Fld.PWR_DOM_PEND = 12 ∧ (t.hub .a).alive = .starting ∧ (t.hub .b).alive = .starting) := by
  obtain ⟨hcredit, hon, hpend⟩ := emptied_get s
  have halive := beginStart_alive (emptied s) (emptied_dead s)
  exact ⟨_, exec_powerOn s hfeed hrun hoff, rfl, (beginStart_get _ (by decide) _).trans hcredit, (beginStart_get _ (by decide) _).trans hon,
    beginStart_pend _ hpend, halive .a, halive .b⟩

theorem powerOn_unfed (hfeed : anyFeed s = false) : exec .powerOn s = .next s := by
  show execPowerOn s = _
  simp only [execPowerOn, hfeed, Bool.false_eq_true, false_and, if_false]

/-- The bucket after a refill. -/
theorem refillCredit_credit (hbeat : s.pwr.beat % 825 = 0) (hfill : s.pwr.refillAt ≠ some s.pwr.beat) :
    (refillCredit s).get (hu .a .PWR) Fld.PWR_CREDIT = min (s.get (hu .a .PWR) Fld.PWR_CREDIT + 1) 20000 := by
  rw [refillCredit, if_pos ⟨hbeat, hfill⟩, State.modPwr_get, State.get_put_same _ _ _ _ (by decide)]
  exact Nat.mod_eq_of_lt (by show _ < 32768; omega)

theorem refillCredit_keeps : (refillCredit s).planes = s.planes ∧ (refillCredit s).pwr.beat = s.pwr.beat := by
  unfold refillCredit
  split <;> exact ⟨rfl, rfl⟩

theorem credit_lt : s.get (hu .a .PWR) Fld.PWR_CREDIT < 32768 := by
  rw [State.get, fieldGet]
  exact BitVec.isLt _

/-- The lowest pending domain is admitted for its charge. -/
theorem domainAdmit_admits {d : Fin 32} (hhead : (pendingDoms s).head? = some d.val)
    (hcredit : domCharge d.val ≤ (refillCredit s).get (hu .a .PWR) Fld.PWR_CREDIT) (hdead : s.dead = none) :
    Completes (.domainAdmit d) s (fun t => mget t.pwr.waking d.val = some s.pwr.beat ∧
      t.get (hu .a .PWR) Fld.PWR_CREDIT = (refillCredit s).get (hu .a .PWR) Fld.PWR_CREDIT - domCharge d.val ∧
      bit (t.get (hu .a .PWR) Fld.PWR_DOM_PEND) d.val = false ∧ t.planes = s.planes) := by
  obtain ⟨hplanes, hbeat⟩ := refillCredit_keeps s
  have hlt := credit_lt (refillCredit s)
  refine ⟨_, if_pos ⟨hhead, hcredit, by rw [hdead]; rfl⟩, ?_, ?_, ?_, hplanes⟩
  · exact (mget_mput_same ..).trans (congrArg some hbeat)
  · rw [State.modPwr_get, setDom_get _ (by decide), State.get_put_same _ _ _ _ (by decide)]
    exact Nat.mod_eq_of_lt (by show _ < 32768; omega)
  · rw [State.modPwr_get]
    exact bit_setDom_off _ (by decide) d

theorem domainAdmit_waits {d : Fin 32} (hcredit : (refillCredit s).get (hu .a .PWR) Fld.PWR_CREDIT < domCharge d.val) :
    exec (.domainAdmit d) s = .next s := if_neg fun h => absurd h.2.1 (by omega)

end

/-! ### A domain that becomes stable (R424) -/

section
variable {s : State} {d : Fin 32} {t0 : Nat}

/-- A domain that no longer wakes and is on. -/
def domainUp (d : Fin 32) (s : State) : State := setDom Fld.PWR_DOM_STAT_ON d.val true (s.modPwr (fun x => { x with waking := mdel x.waking d.val }))

theorem domainUp_on : (domainUp d s).domOn d.val = true := bit_setDom_on _ (by decide) rfl d.isLt

theorem domainUp_waking : mget (domainUp d s).pwr.waking d.val = none := (mget_mdel ..).trans (if_pos rfl)

/-- A change within the planes that `hubSide` shows keeps the domain on. -/
theorem domainUp_of_hubSide {t : State} (h : hubSide t = hubSide (domainUp d s)) : t.domOn d.val = true ∧ mget t.pwr.waking d.val = none :=
  ⟨(domOn_of_hubSide h _).trans domainUp_on, by rw [pwr_of_hubSide h, domainUp_waking]⟩

/-- The plane that a domain is a part of. -/
def domPlane (d : Fin 32) : PlaneId := ⟨(d.val - 4) / 7 % 4, Nat.mod_lt _ (by decide)⟩

theorem exec_domainStable_plane (hwake : mget s.pwr.waking d.val = some t0) (htime : s.pwr.beat ≤ t0 + 165000) (hd : 4 ≤ d.val) :
    exec (.domainStable d) s = .next (endBoot (domPlane d)
      (if (d.val - 4) % 7 = 0 then bootPlane (domPlane d) (expectReports ((planeUnits (domPlane d)).filter (fun u => unitDomain u = d.val)) (domainUp d s))
      else partStable (domPlane d) ((d.val - 4) % 7) (expectReports ((planeUnits (domPlane d)).filter (fun u => unitDomain u = d.val)) (domainUp d s)))) := by
  show execDomainStable d s = _
  rw [execDomainStable, hwake]
  dsimp only
  rw [if_neg (by omega), if_neg (by omega), if_neg (by omega), if_pos hd]
  rfl

theorem hubSide_endBoot (p : PlaneId) (s : State) : hubSide (endBoot p s) = hubSide s := by simp [endBoot]

theorem hubSide_partStable (p : PlaneId) (k : Nat) (s : State) : hubSide (partStable p k s) = hubSide s := by
  have hchannels : ∀ (m : Nat) (t : State), hubSide ((List.range 6).foldl (fun s c => if bit m c ∨ s.fenced (uFMC p c) then s
      else fenceChannel p c 7 (logFault (uFMC p c) .FMC 5 .u c 0 s)) t) = hubSide t := fun m =>
    hubSide_foldl_mem fun t c hc => by
      have hc := List.mem_range.mp hc
      have hu : uFMC p c < 0x400 := by unfold uFMC; omega
      split
      · rfl
      · rw [hubSide_fenceChannel p _ hc, logFault, hubSide_logDetection _ hu]
  have hslices : ∀ t : State, hubSide ((List.range 17).foldl (fun s n =>
      if (17 * p.val + n) ∈ s.fitted.badSlice then detect (uTMB p n) 4 .u n 0 s else s) t) = hubSide t :=
    hubSide_foldl_mem fun t n hn => by
      split
      · exact hubSide_detect_TMB p t (List.mem_range.mp hn) n
      · rfl
  unfold partStable
  extract_lets P r m s₁ s₂ s₃ s₄
  split
  · split
    · rw [hubSide_fencePlane, logFault, hubSide_logDetection _ (pu_lt p _)]
    · simp [mapChanged, P]
  · simp [mapChanged, s₂, s₁, hchannels, P]
  · simp [mapChanged, s₄, s₃, hslices, P]
  · simp [mapChanged, P]
  · rfl

/-- A part of a plane that is stable is on. -/
theorem domainStable_part (hwake : mget s.pwr.waking d.val = some t0) (htime : s.pwr.beat ≤ t0 + 165000) (hd : 4 ≤ d.val) (hk : (d.val - 4) % 7 ≠ 0) :
    Completes (.domainStable d) s (fun t => t.domOn d.val = true ∧ mget t.pwr.waking d.val = none) := by
  refine ⟨_, exec_domainStable_plane hwake htime hd, domainUp_of_hubSide (s := s) ?_⟩
  rw [if_neg hk, hubSide_endBoot, hubSide_partStable, hubSide_expectReports]

end

/-! ### The boot chain without images (R430, R433) -/

section
variable {s : State}

/-- An image of no bytes has no header. -/
theorem verifyImage_nil (s : State) (h : HubId) (ok : Nat → Bool) : verifyImage s h ok [] = 1 := by
  have hformat : imgFormatOk [] = false := rfl
  simp [verifyImage, hformat]

theorem emptySlot (i : Nat) : (([{}, {}] : List BootSlot).getD i {}) = {} := by
  match i with
  | 0 | 1 => rfl
  | _ + 2 => rfl

theorem bootSlot_empty {h : HubId} (hslots : (s.hub h).kpl.slots = [{}, {}]) : bootSlot s h = none := by
  refine List.find?_eq_none.mpr fun i _ => ?_
  dsimp only
  rw [hslots, emptySlot, verifyImage_nil]
  exact Bool.false_ne_true

/-- A boot's first steps leave the slots. -/
theorem exchangeSvn_slots (h : HubId) (s : State) : ((exchangeSvn h s).hub h).kpl.slots = (s.hub h).kpl.slots := by
  unfold exchangeSvn
  extract_lets o
  split
  · rfl
  · simp [modFlash, modKpl]

/-- The recovery loader runs. -/
def recoveryLoader (h : HubId) (s : State) : State := aliveWrite h true (showSvn h ((s.put (hu h .KPL) Fld.KPL_STAT_STATE 3).put (hu h .FCL) Fld.FCL_CFG_ALIVE_EN 1))

theorem bootHub_empty {h : HubId} (hslots : (s.hub h).kpl.slots = [{}, {}]) : ∃ u, bootHub h s = recoveryLoader h u := by
  unfold bootHub
  extract_lets s₁ s₂ s₃ s₄
  have hkeep : (s₄.hub h).kpl.slots = (s.hub h).kpl.slots := by
    simp only [s₄, s₃, s₂, s₁, freshHub, freshViews, State.modHub_hub_same, State.put_hub]
    rw [foldl_keeps (fun t : State => t.hub h) (f := fun s p => showLink h p s) (fun _ _ => rfl)]
    simp only [State.modHub_hub_same]
    exact exchangeSvn_slots h s
  rw [bootSlot_empty (hkeep.trans hslots)]
  exact ⟨_, rfl⟩

theorem aliveWrite_on_get (h : HubId) (s : State) (u : Nat) (f : RField) : (aliveWrite h true s).get u f = s.get u f := by
  rw [aliveWrite, if_pos rfl]
  split
  · rfl
  · rw [get_modHub]
    exact fun _ => rfl

theorem recoveryLoader_get (h : HubId) (s : State) : (recoveryLoader h s).get (hu h .KPL) Fld.KPL_STAT_STATE = 3 ∧
    (recoveryLoader h s).get (hu h .FCL) Fld.FCL_CFG_ALIVE_EN = 1 := by
  constructor
  · rw [recoveryLoader, aliveWrite_on_get, showSvn, State.get_put_beside (by decide), State.get_put_ne _ _ (by cases h <;> decide),
      State.get_put_same _ _ _ _ (by decide)]
    rfl
  · rw [recoveryLoader, aliveWrite_on_get, showSvn, State.get_put_ne _ _ (by cases h <;> decide), State.get_put_same _ _ _ _ (by decide)]
    rfl

theorem exec_domainStable_hub {d : Fin 32} {t0 : Nat} {h : HubId} (hd : d.val = 2 + h.num) (hwake : mget s.pwr.waking d.val = some t0)
    (htime : s.pwr.beat ≤ t0 + 165000) : exec (.domainStable d) s = .next (expectReports (hubUnits h) (bootHub h (domainUp d s))) := by
  show execDomainStable d s = _
  rw [execDomainStable, hwake]
  dsimp only
  rw [if_neg (by omega)]
  cases h
  · exact if_pos hd
  · exact (if_neg (by rw [hd]; decide)).trans (if_pos hd)

/-- A hub whose boot slots are empty runs the recovery loader. -/
theorem domainStable_hub {d : Fin 32} {t0 : Nat} {h : HubId} (hd : d.val = 2 + h.num) (hwake : mget s.pwr.waking d.val = some t0)
    (htime : s.pwr.beat ≤ t0 + 165000) (hslots : (s.hub h).kpl.slots = [{}, {}]) :
    Completes (.domainStable d) s (fun t => t.get (hu h .KPL) Fld.KPL_STAT_STATE = 3 ∧ t.get (hu h .FCL) Fld.FCL_CFG_ALIVE_EN = 1) := by
  obtain ⟨u, hboot⟩ := bootHub_empty (s := domainUp d s) (h := h) hslots
  obtain ⟨hstate, halive⟩ := recoveryLoader_get h u
  have hkept := fun b => get_of_hubSide (hubSide_expectReports (hubUnits h) (bootHub h (domainUp d s))) (u := hu h b) (by unfold hu; omega)
  exact ⟨_, exec_domainStable_hub hd hwake htime, (hkept _ _).trans (by rw [hboot, hstate]), (hkept _ _).trans (by rw [hboot, halive])⟩

/-! ### A plane without firmware goes off again -/

theorem eraseRegs_reg_ne {u u' off : Nat} (s : State) (keep : List Nat) (hu : u ≠ (regKey u' off).1) : (s.eraseRegs u keep).reg u' off = s.reg u' off := by
  have hreset := resetVal_congr (s := s) (t := s.eraseRegs u keep) ⟨rfl, rfl, rfl, fun _ => rfl⟩
  simp only [State.reg, hreset]
  simp only [State.eraseRegs, mget_mput_ne _ _ hu]

theorem resetUnit_reg (fence : Bool) (s : State) (u u' off : Nat) : ∃ keep, (resetUnit fence s u).reg u' off = (s.eraseRegs u keep).reg u' off :=
  ⟨_, State.reg_congr rfl ⟨rfl, rfl, rfl, fun _ => rfl⟩ u' off⟩

theorem hubSide_resetUnit (fence : Bool) {u : Nat} (hu : u < 0x400) (s : State) : hubSide (resetUnit fence s u) = hubSide s := by
  refine hubSide_eq (resetUnit_pwr s fence u) fun u' off hu' => ?_
  have hne : u ≠ (regKey u' off).1 := by
    rcases regKey_fst u' off with h | ⟨-, h⟩ <;> omega
  obtain ⟨keep, hreg⟩ := resetUnit_reg fence s u u' off
  rw [hreg, eraseRegs_reg_ne s keep hne]

theorem hubSide_resetUnits (fence : Bool) (p : PlaneId) (s : State) : hubSide ((planeUnits p).foldl (resetUnit fence) s) = hubSide s :=
  hubSide_foldl_mem (fun t _ hu => hubSide_resetUnit fence (planeUnit_lt p hu) t) s

theorem dropDomain_get {f : RField} {u : Nat} (hon : regKey (hu .a .PWR) Fld.PWR_DOM_STAT_ON.key ≠ regKey u f.key)
    (hpend : regKey (hu .a .PWR) Fld.PWR_DOM_PEND.key ≠ regKey u f.key) (s : State) (d : Nat) :
    (dropDomain d s).get u f = s.get u f := by
  rw [dropDomain, State.modPwr_get, setDom, State.get_put_ne _ _ hpend, setDom, State.get_put_ne _ _ hon]

theorem dropDomain_domOn (s : State) (d k : Nat) : (dropDomain d s).domOn k =
    bit ((setDom Fld.PWR_DOM_STAT_ON d false s).get (hu .a .PWR) Fld.PWR_DOM_STAT_ON) k := by
  rw [State.domOn, dropDomain, State.modPwr_get, setDom_get _ (by decide)]

/-- The domains of a list are off. -/
theorem dropDomains_off {l : List Nat} {base k : Nat} (hd : base + k < 32) (s : State) (h : k ∈ l ∨ s.domOn (base + k) = false) :
    (l.foldl (fun s k => dropDomain (base + k) s) s).domOn (base + k) = false := by
  induction l generalizing s with
  | nil => simpa using h
  | cons j r ih =>
    rw [List.foldl_cons]
    refine ih _ ?_
    rw [dropDomain_domOn]
    by_cases hj : j = k
    · subst hj
      exact Or.inr (bit_setDom_off s (f := Fld.PWR_DOM_STAT_ON) (by decide) ⟨base + j, hd⟩)
    · exact h.imp (fun hk => (List.mem_cons.mp hk).resolve_left (Ne.symm hj)) fun hoff => bit_setDom_off_mono s (by decide) _ hoff

theorem linksDown_get {f : RField} {u : Nat} (p : PlaneId) (hf : ∀ h : HubId, regKey (hu h .HUB) (Fld.HUB_LINK_STAT_UP.at p.val).key ≠ regKey u f.key)
    (s : State) : (linksDown p s).get u f = s.get u f := by
  rw [linksDown, State.get_put_ne _ _ (hf .b), State.get_put_ne _ _ (hf .a)]

theorem regKey_linkStat (p : PlaneId) (h : HubId) : regKey (hu h .HUB) (Fld.HUB_LINK_STAT_UP.at p.val).key ≠ regKey (hu .a .PWR) Fld.PWR_DOM_STAT_ON.key ∧
    ∀ k : HubId, regKey (hu h .HUB) (Fld.HUB_LINK_STAT_UP.at p.val).key ≠ regKey (hu k .KPL) Fld.KPL_RESULT_CODE.key := by
  have hall : ∀ h k : HubId, ∀ p : PlaneId, regKey (hu h .HUB) (Fld.HUB_LINK_STAT_UP.at p.val).key ≠ regKey (hu .a .PWR) Fld.PWR_DOM_STAT_ON.key ∧
      regKey (hu h .HUB) (Fld.HUB_LINK_STAT_UP.at p.val).key ≠ regKey (hu k .KPL) Fld.KPL_RESULT_CODE.key := by
    intro h k
    cases h <;> cases k <;> decide
  exact ⟨(hall h .a p).1, fun k => (hall h k p).2⟩

/-- A plane that is powered off is off, and leaves the Keyplates' results. -/
theorem powerOffPlane_off (p : PlaneId) (k : Fin 7) (s : State) : (powerOffPlane p s).domOn (4 + 7 * p.val + k.val) = false := by
  rw [State.domOn, powerOffPlane, resetPlane, linksDown_get p fun h => (regKey_linkStat p h).1, State.modPl_get, ← State.domOn]
  exact dropDomains_off (by omega) _ (Or.inl (List.mem_range.mpr k.isLt))

theorem powerOffPlane_result (p : PlaneId) (h : HubId) (s : State) :
    (powerOffPlane p s).get (hu h .KPL) Fld.KPL_RESULT_CODE = s.get (hu h .KPL) Fld.KPL_RESULT_CODE := by
  rw [powerOffPlane, resetPlane, linksDown_get p fun k => (regKey_linkStat p k).2 h, State.modPl_get,
    foldl_keeps (fun t : State => t.get (hu h .KPL) Fld.KPL_RESULT_CODE) (f := fun s k => dropDomain (4 + 7 * p.val + k) s)
      (fun t k => dropDomain_get (by cases h <;> decide) (by cases h <;> decide) t _)]
  exact get_of_hubSide (hubSide_resetUnits true p s) (by unfold hu; omega) _

theorem bootPlane_fails {p : PlaneId} (hc : verifyImage s (cfgHub s) (· = 2) (bootedSlot s (cfgHub s)).planeFw ≠ 0) : bootPlane p s =
    powerOffPlane p (setResult (cfgHub s) (verifyImage s (cfgHub s) (· = 2) (bootedSlot s (cfgHub s)).planeFw) 2 s) := if_pos hc

theorem bootPlane_empty {p : PlaneId} (hslots : (s.hub (cfgHub s)).kpl.slots = [{}, {}]) : bootPlane p s = powerOffPlane p (setResult (cfgHub s) 1 2 s) := by
  have hcode : verifyImage s (cfgHub s) (· = 2) (bootedSlot s (cfgHub s)).planeFw = 1 := by rw [bootedSlot, hslots, emptySlot, verifyImage_nil]
  rw [bootPlane_fails (by rw [hcode]; decide), hcode]

theorem setResult_code (h : HubId) (ty : Nat) (s : State) : (setResult h 1 ty s).get (hu h .KPL) Fld.KPL_RESULT_CODE = 1 := by
  rw [setResult, State.get_put_beside (by decide), State.get_put_same _ _ _ _ (by decide)]
  rfl

/-- What the boot chain sees of a hub is the hub's own. -/
theorem cfgHub_of_hubSide {t : State} (h : hubSide t = hubSide s) : cfgHub t = cfgHub s := by
  rw [cfgHub, cfgHub, State.hubFenced, State.fenced, State.on, get_of_hubSide h (by decide)]
  rfl

theorem expectReports_kpl (us : List Nat) (s : State) (h : HubId) : ((expectReports us s).hub h).kpl = (s.hub h).kpl := by
  cases h <;> simp [expectReports, State.modHub_hub_ne]

theorem domainUp_cfgHub (d : Fin 32) (s : State) : cfgHub (domainUp d s) = cfgHub s := by
  rw [cfgHub, cfgHub, State.hubFenced, State.fenced, State.on, domainUp, setDom_get _ (by decide), State.modPwr_get]
  rfl

/-- A plane without firmware goes off again. -/
theorem domainStable_plane {d : Fin 32} {t0 : Nat} {p : PlaneId} (hd : d.val = 4 + 7 * p.val) (hwake : mget s.pwr.waking d.val = some t0)
    (htime : s.pwr.beat ≤ t0 + 165000) (hslots : (s.hub (cfgHub s)).kpl.slots = [{}, {}]) :
    Completes (.domainStable d) s (fun t => t.domOn d.val = false ∧ t.get (hu (cfgHub s) .KPL) Fld.KPL_RESULT_CODE = 1) := by
  have hplane : domPlane d = p := Fin.ext (by simp only [domPlane]; omega)
  refine ⟨_, exec_domainStable_plane hwake htime (by omega), ?_⟩
  rw [if_pos (by omega), hplane]
  set u := expectReports ((planeUnits p).filter (fun u => unitDomain u = d.val)) (domainUp d s)
  have hcfg : cfgHub u = cfgHub s := (cfgHub_of_hubSide (hubSide_expectReports ..)).trans (domainUp_cfgHub d s)
  have hkpl : (u.hub (cfgHub u)).kpl.slots = [{}, {}] := by
    rw [hcfg, expectReports_kpl]
    exact hslots
  rw [bootPlane_empty hkpl, hcfg]
  have hoff := powerOffPlane_off p 0 (setResult (cfgHub s) 1 2 u)
  refine ⟨(domOn_of_hubSide (hubSide_endBoot ..) _).trans (hd ▸ hoff), (get_of_hubSide (hubSide_endBoot ..) (by unfold hu; omega) _).trans ?_⟩
  rw [powerOffPlane_result, setResult_code]

end

/-! ### A supply that does not come up (R424) -/

section
variable {s : State}

theorem unitOf_pwrUnit (s : State) : (∃ n, unitBlk (pwrUnit s) = some (.PWR, n)) ∧ unitPlane (pwrUnit s) = none ∧ (∃ h, unitHub (pwrUnit s) = some h) ∧
    0x400 ≤ pwrUnit s := by
  unfold pwrUnit
  split
  · exact ⟨⟨_, rfl⟩, rfl, ⟨.a, by decide⟩, by decide⟩
  · exact ⟨⟨_, rfl⟩, rfl, ⟨.b, by decide⟩, by decide⟩

theorem pwrUnit_congr {t : State} (h : ∀ (f : RField) (b : Blk), t.get (hu .a b) f = s.get (hu .a b) f) : pwrUnit t = pwrUnit s := by
  have hpow : t.powered (hu .a .HUB) = s.powered (hu .a .HUB) := congrArg (bit · _) (h _ .PWR)
  have hfenced : t.hubFenced .a = s.hubFenced .a := by rw [State.hubFenced, State.fenced, State.on, h, ← State.on, ← State.fenced, ← State.hubFenced]
  rw [pwrUnit, pwrUnit, hpow, hfenced]

/-- A fault of class U or F is logged and has its source's reaction. -/
theorem detectFault_of_ne_c {u n : Nat} {b : Blk} {d : Detection} (hb : unitBlk u = some (b, n)) (hd : d.cls ≠ .c) (s : State) :
    detectFault u d s = react u b d.src d.cls d.loc d.detail (logOrDead u b d s) := by
  simp only [detectFault, hb, hd, false_and, if_false]

/-- PWR_RAIL of a plane's domain fences the plane. -/
theorem hubSide_react_rail (u : Nat) (hplane : unitPlane u = none) (hhub : ∃ h, unitHub u = some h) (cls : FaultClass) (wh detail : Nat) (s : State) :
    hubSide (react u .PWR 2 cls wh detail s) = hubSide s := by
  obtain ⟨h, hhub⟩ := hhub
  simp only [react, hplane, hhub]
  split
  · exact hubSide_fencePlane ..
  · rfl

theorem logOrDead_pwr {u : Nat} {b : Blk} (hb : b ≠ .FCL) (d : Detection) (s : State) : (logOrDead u b d s).pwr = s.pwr := by
  simp only [logOrDead, hb, if_false]
  split <;> simp [logDetection, setLog]

/-- A free log shows PWR_RAIL and its class. -/
theorem detect_rail {cls : FaultClass} (hcls : cls ≠ .c) (wh : Nat) (hclass : s.get (pwrUnit s) Fld.BLK_ERR_CLASS = 0) (hnone : detectedNow s (pwrUnit s) = []) :
    (detect (pwrUnit s) 2 cls wh 0 s).pwr = s.pwr ∧ (detect (pwrUnit s) 2 cls wh 0 s).get (pwrUnit s) Fld.BLK_ERR_CLASS = classCode cls ∧
      (detect (pwrUnit s) 2 cls wh 0 s).get (pwrUnit s) Fld.BLK_ERR_CLASS_SOURCE = 2 := by
  obtain ⟨⟨n, hblk⟩, hplane, hhub, hge⟩ := unitOf_pwrUnit s
  have hside : hubSide (detect (pwrUnit s) 2 cls wh 0 s) =
      hubSide (logOrDead (pwrUnit s) .PWR { src := 2, cls := cls, loc := wh, detail := 0 } s) := by
    rw [detect, detectFault_of_ne_c hblk hcls, hubSide_react_rail _ hplane hhub]
  have hheld : (logNow s (pwrUnit s)).held = 0 := hclass
  have hbase : logBase s (pwrUnit s) = logNow s (pwrUnit s) := by simp [logBase, hnone, LogSave.due, hheld]
  have hlog := logNow_logDetection hnone .PWR { src := 2, cls := cls, loc := wh, detail := 0 }
  rw [hbase] at hlog
  obtain ⟨hcode, hsrc, -⟩ := LogSave.add_free hheld .PWR (unitFt s (pwrUnit s)) (unitBeat s (pwrUnit s)) (cackBeats s)
    (d := { src := 2, cls := cls, loc := wh, detail := 0 }) (show 2 < 256 by decide)
  have hfield : ∀ f : RField, f.key = Fld.BLK_ERR_CLASS.key → (detect (pwrUnit s) 2 cls wh 0 s).get (pwrUnit s) f =
      fieldGet (logNow (logDetection (pwrUnit s) .PWR { src := 2, cls := cls, loc := wh, detail := 0 } s) (pwrUnit s)).cls f := fun f hf => by
    rw [get_of_hubSide hside hge, State.get, logOrDead_log (by decide), hf]
    rfl
  refine ⟨(pwr_of_hubSide hside).trans (logOrDead_pwr (by decide) _ s), ?_, ?_⟩
  · rw [hfield _ rfl, hlog, hcode]
  · rw [hfield Fld.BLK_ERR_CLASS_SOURCE rfl, hlog, hsrc]

theorem railTimeout_reports {d : Fin 32} {t0 : Nat} (hwake : mget s.pwr.waking d.val = some t0) (htime : t0 + 165000 < s.pwr.beat)
    (hclass : s.get (pwrUnit s) Fld.BLK_ERR_CLASS = 0) (hnone : detectedNow s (pwrUnit s) = []) :
    Completes (.railTimeout d) s (fun t => mget t.pwr.waking d.val = none ∧
      t.get (pwrUnit s) Fld.BLK_ERR_CLASS = (if d.val < 4 then 3 else 2) ∧ t.get (pwrUnit s) Fld.BLK_ERR_CLASS_SOURCE = 2) := by
  have hunit : pwrUnit (s.modPwr (fun x => { x with waking := mdel x.waking d.val })) = pwrUnit s := pwrUnit_congr fun f h => State.modPwr_get ..
  have hrun : exec (.railTimeout d) s = .next (detect (pwrUnit (s.modPwr (fun x => { x with waking := mdel x.waking d.val }))) 2
      (if d.val < 4 then .f else .u) d.val 0 (s.modPwr (fun x => { x with waking := mdel x.waking d.val }))) := by
    show execRailTimeout d s = _
    rw [execRailTimeout, hwake]
    exact if_pos htime
  have hcls : (if d.val < 4 then FaultClass.f else .u) ≠ .c := by split <;> decide
  obtain ⟨hpwr, hcode, hsrc⟩ := detect_rail (s := s.modPwr (fun x => { x with waking := mdel x.waking d.val })) hcls d.val
    (by rw [hunit, State.modPwr_get, hclass]) (by rw [hunit]; exact hnone)
  refine ⟨_, hrun, ?_, ?_, ?_⟩
  · rw [hpwr]
    exact (mget_mdel ..).trans (if_pos rfl)
  · rw [← hunit, hcode]
    split <;> rfl
  · rw [← hunit, hsrc]

/-! ### A memory that is ready (R426) -/

theorem tgtUnit_ne {p : PlaneId} (m : Fin 7) : tgtUnit p m.val < 0x400 ∧ pu p .PLN ≠ tgtUnit p m.val := by
  revert p m
  decide

variable {p : PlaneId} {m : Fin 7}

/-- A memory's registers after its training. -/
def trained (p : PlaneId) (m : Fin 7) (s : State) : State :=
  (s.put (tgtUnit p m.val) Fld.FMC_STAT_READY 1).put64 (tgtUnit p m.val) Fld.FMC_PATROL_LO_PTR_LO Fld.FMC_PATROL_HI_PTR_HI (if m.val = 6 then 0 else baseF)

/-- Its refreshes and its patrol begin. -/
def targetReady (p : PlaneId) (m : Fin 7) (s : State) : State :=
  modTgt p (targetKey (trained p m s) p m.val) (fun x => { x with lastRef := (trained p m s).beats p, lastPatrol := (trained p m s).beats p }) (trained p m s)

theorem exec_memoryReady (hpow : s.powered (tgtUnit p m.val) = true) (hfence : s.fenced (tgtUnit p m.val) = false)
    (hready : s.on (tgtUnit p m.val) Fld.FMC_STAT_READY = false) : exec (.memoryReady p m) s = .next (endBoot p (targetReady p m s)) :=
  if_pos ⟨hpow, by simp [hfence], by simp [hready]⟩

theorem targetReady_get_ne {u : Nat} (hu : tgtUnit p m.val ≠ u) (s : State) (f : RField) : (targetReady p m s).get u f = s.get u f := by
  have hne : ∀ off off', regKey (tgtUnit p m.val) off ≠ regKey u off' := fun _ _ => regKey_ne_of_unit (tgtUnit_ne m).1 hu
  rw [targetReady, modTgt, State.modPl_get, trained, State.put64, State.get_put_ne _ _ (hne _ _), State.get_put_ne _ _ (hne _ _), State.get_put_ne _ _ (hne _ _)]

theorem targetReady_ready (s : State) : (targetReady p m s).get (tgtUnit p m.val) Fld.FMC_STAT_READY = 1 := by
  rw [targetReady, modTgt, State.modPl_get, trained, State.put64, State.get_put_beside (by decide), State.get_put_beside (by decide),
    State.get_put_same _ _ _ _ (by decide)]
  rfl

theorem targetReady_mem (s : State) : ((targetReady p m s).pl p).mem = (s.pl p).mem := by
  rw [targetReady, modTgt, State.modPl_pl_same]
  rfl

theorem targetReady_plnState (s : State) : (targetReady p m s).plnState p = s.plnState p := by
  have hkeep : ∀ u, tgtUnit p m.val ≠ u → ∀ f, (targetReady p m s).get u f = s.get u f := fun u hu f => targetReady_get_ne hu s f
  have hpln := hkeep _ (tgtUnit_ne m).2.symm
  have hon : ∀ d, (targetReady p m s).domOn d = s.domOn d := fun d =>
    congrArg (bit · d) (hkeep _ (Nat.ne_of_lt ((tgtUnit_ne m).1.trans_le (by decide))) _)
  rw [State.plnState, State.plnState, hon, hpln, State.planeFenced, State.fenced, State.on, hpln, ← State.on, ← State.fenced, ← State.planeFenced]

theorem setPlnState_get_ne {u : Nat} (hu : pu p .PLN ≠ u) (v : Nat) (s : State) (f : RField) : (setPlnState p v s).get u f = s.get u f := by
  unfold setPlnState
  split
  · rfl
  · rw [State.pulseBit_get, State.get_put_ne _ _ (regKey_ne_of_unit (pu_lt p _) hu)]

/-- A plane in BOOT is on. -/
theorem domOn_of_boot (h : s.plnState p = 1) : s.domOn (4 + 7 * p.val) = true :=
  domOn_of_plnState (by rw [h]; decide) (by rw [h]; decide)

theorem memoryReady_shows (hpow : s.powered (tgtUnit p m.val) = true) (hfence : s.fenced (tgtUnit p m.val) = false)
    (hready : s.on (tgtUnit p m.val) Fld.FMC_STAT_READY = false) : Completes (.memoryReady p m) s (fun t => t.get (tgtUnit p m.val) Fld.FMC_STAT_READY = 1 ∧
      (s.plnState p = 1 → memoriesReady t p = true → t.plnState p = 2) ∧ (t.pl p).mem = (s.pl p).mem) := by
  refine ⟨_, exec_memoryReady hpow hfence hready, ?_⟩
  unfold endBoot
  split
  · next hboot =>
    refine ⟨(setPlnState_get_ne (tgtUnit_ne m).2 ..).trans (targetReady_ready s), fun _ _ => ?_, ?_⟩
    · rw [plnState_on (by rw [domOn_setPlnState, domOn_of_boot hboot.1]), setPlnState_get p (by decide)]
    · rw [setPlnState_pl, targetReady_mem]
  · next hboot => exact ⟨targetReady_ready s, fun hst hall => absurd ⟨(targetReady_plnState s).trans hst, hall⟩ hboot, targetReady_mem s⟩

end

/-- Settles O56: requests, admission by the bucket, and what a supply's rise or failure does. -/
theorem powerDomains : Obligations.PowerDomains := by
  unfold Obligations.PowerDomains
  refine ⟨powerOn_starts, fun s hfeed => ⟨s, powerOn_unfed s hfeed, rfl⟩,
    fun s hbeat hfill => ⟨_, rfl, refillCredit_credit s hbeat hfill, (refillCredit_keeps s).1⟩,
    fun s hbeat => ⟨s, congrArg Host.Outcome.next (if_neg fun h => hbeat h.1), rfl⟩, fun d s => domainAdmit_admits s,
    fun d s hcredit => ⟨s, domainAdmit_waits s hcredit, rfl⟩, fun d t0 s => domainStable_part, fun h d t0 s => domainStable_hub,
    fun p d t0 s => domainStable_plane, fun d t0 s => railTimeout_reports, fun d s hnone => ⟨⟨s, ?_, rfl⟩, s, ?_, rfl⟩, fun p m s => memoryReady_shows⟩
  · show execDomainStable d s = _
    rw [execDomainStable, hnone]
  · show execRailTimeout d s = _
    rw [execRailTimeout, hnone]

end Sys2Proof.Machine
end
